-- ==== Sys2Proof/Word.lean ====
section
/-! DEFINITION. The plain word types of the E640 and the type of a sparse table. -/

namespace Sys2Proof

/-- A byte. -/
abbrev Byte := BitVec 8

/-- A control-space register: 32 bits wide (R6). -/
abbrev Reg32 := BitVec 32

/-- A 16-byte chute word (R127). -/
abbrev Word16 := BitVec 128

/-- A 64-byte line (R65, R124, R160). Byte `k` is bits `[8k+7:8k]`. -/
abbrev Line := BitVec 512

/-- A 64-lane binary32 vector (R71). Lane `i` is bits `[32i+31:32i]`. -/
abbrev Vec := BitVec 2048

/-- A 72-byte flit (R250). -/
abbrev Flit := BitVec 576

/-- A sparse table: keys and values, keys strictly rising, no entry equal to its key's default. -/
abbrev Tab (α : Type) := List (Nat × α)

/-- A sparse byte memory; an unlisted address reads as the memory's default byte. -/
abbrev Mem := Tab Byte

/-- Stall `s` of logical die `d`, at `64 d + s` (R403). -/
abbrev StallId := BitVec 12
/-- Logical die number (R10). -/
abbrev Die := BitVec 6
/-- Site index `8 row + column` (R9, PNET registers). -/
abbrev Site := Fin 72
/-- Memory hub and stack number (R13). -/
abbrev Hub := Fin 24
/-- Optical engine number (R197). -/
abbrev Oe := BitVec 3
/-- Link number `8 OE + port` (R5). -/
abbrev LinkId := BitVec 6
/-- Pen number (R83). -/
abbrev PenId := BitVec 6
/-- Chute identifier (R122). -/
abbrev ChuteId := BitVec 16
/-- Chute address: device number and identifier (R123). -/
abbrev ChuteAddr := BitVec 22
/-- Host function: 0 the PF, 1 to 15 the VFs (R319). -/
abbrev Func := BitVec 4
/-- DMA channel (R332). -/
abbrev Chan := BitVec 5
/-- Device number (R289). -/
abbrev DevNum := BitVec 6
/-- Wavelength index, or lane (R198). -/
abbrev Wave := BitVec 4
/-- Laser index: 0 to 15 LP, 16 to 31 LS (R225). -/
abbrev LaserId := BitVec 5
/-- Ring index `16 bank + wavelength` (R204). -/
abbrev RingId := BitVec 8
/-- Stall port number (R65). -/
abbrev PortId := BitVec 2
/-- Device address (R164), 64 bits as the registers hold it. -/
abbrev Addr := BitVec 64

end Sys2Proof
end

