-- ==== Sys2Proof/Syntax.lean ====
section
/-! DEFINITION. The commands of the E640: one constructor per row of spec/opcode_table.json, with the operands the
rules give each. What the device observes of the physical world (symbols in error, analog readings, checker findings)
arrives as operands [7]. -/

namespace Sys2Proof

/-- What a stall's checkers find in a step (R60, R81). -/
inductive StallCheck
  /-- Nothing. -/
  | clean
  /-- A single-bit manger error at a byte offset, corrected (R60). -/
  | mangerCe (off : BitVec 18)
  /-- A double-bit manger error at a byte offset (R60). -/
  | mangerUc (off : BitVec 18)
  /-- The MAC residue checker (R81). -/
  | macResidue
  /-- The window-unit parity checker (R81). -/
  | windowParity
  /-- The active record's parity checker (R81). -/
  | slotParity
  deriving DecidableEq, Repr

/-- Who issues a chute command (R151 to R153). -/
inductive Requester
  /-- A stall's endpoint for a port. -/
  | stall (t : StallId) (p : PortId)
  /-- A DMA channel. -/
  | dma (c : Chan)
  /-- A function, through the chute's doorbell slot. -/
  | host (f : Func)
  /-- The loader and the tack die. -/
  | loader
  /-- An endpoint of another device. -/
  | remote (dev : DevNum) (kind : BitVec 2) (id : BitVec 14)
  deriving DecidableEq, Repr

/-- A word pushed into a chute with its sideband (R127, R152). `len` is LEN − 1. -/
structure ChuteWord where
  data : Word16
  first : Bool
  last : Bool
  len : BitVec 4
  poison : Bool
  deriving DecidableEq, Repr

/-- Mesh traffic classes (R180). -/
inductive MeshClass
  | ctl | req | rsp | str
  deriving DecidableEq, Repr

/-- How a module retrain ends (R187, R188). -/
inductive ModuleOutcome
  /-- All lanes work; so many new redundant lanes are in use in the direction that the site's module receives, and in the
  other end's. -/
  | repaired (lanes far : Nat)
  /-- A fifth repair was needed: x32 on the clean half. -/
  | half
  /-- A fault in the remaining half. -/
  | failed
  deriving DecidableEq, Repr

/-- Why a hub declares its stack LOST (R172, R189). -/
inductive LostCause
  | retrain | internal | poisonRate | unreachable
  deriving DecidableEq, Repr

/-- A flit as received: the line bits of the frames that bring its last bits, one word per wavelength and frame (R230,
R231), or with none of them its 72 bytes as the lanes give them. -/
structure RxFlit where
  bits : Flit
  frames : List (List (Wave × Reg32)) := []
  deriving DecidableEq, Repr

/-- Retrain kinds (R245). -/
inductive RetrainKind
  | quick | full
  deriving DecidableEq, Repr

/-- The clear-on-read counters of the link layer (R288). -/
inductive LlCounter
  | replays | crcErr | dups | overrun | retrains | unreachable
  deriving DecidableEq, Repr

/-- An estimated residual coupling of a crosstalk entry, in units of 2^-14 (R207). -/
structure XtResidual where
  bank : BitVec 4
  block : Fin 3
  row : BitVec 4
  col : BitVec 4
  residual : Int
  deriving DecidableEq, Repr

/-- What a boot step finds (R345, R347). -/
structure BootFinding where
  /-- The tack die, or the host die, failed (steps 4 to 5). -/
  tackFailed : Bool
  hostFailed : Bool
  /-- PV_HOLD in mV as step 4 measures it (R385). -/
  holdMv : BitVec 16
  /-- Sites whose domain or self-test failed (steps 4 to 5). -/
  failedSites : List Site
  /-- Stalls whose boot test failed (step 5), as logical stall numbers. -/
  failedStalls : List StallId
  /-- Stacks that failed initialisation (step 6). -/
  failedStacks : List Hub
  /-- What the training of the links found (step 5): site, module position and outcome (R187, R188). -/
  modules : List (Site × Fin 18 × ModuleOutcome)
  deriving DecidableEq, Repr

/-- TAP instructions named by R359. -/
inductive TapInstr
  | idcode | bypass | samplePreload | extest | clamp | highz
  /-- One that selects the IEEE 1838 chain, and one for core debug (R359, R363). -/
  | chain | coreDebug
  | other
  deriving DecidableEq, Repr

/-- The commands. -/
inductive Instr
  /-- MAC_TOKEN (R50): A MAC-mode stall takes one K step of operands, forms block sums and adds each contribution into
  the window accumulators. -/
  | macToken (t : StallId) (chk : StallCheck) (waits : Nat)
  /-- VEC_TOKEN (R71): A VEC-mode stall takes one 64-lane vector token and begins issuing its micro-op sequence. -/
  | vecToken (t : StallId) (chk : StallCheck)
  /-- NOP (R75): Micro-op that does nothing. -/
  | uopNop (t : StallId)
  /-- ADD (R75): Micro-op adding two sources per lane. -/
  | uopAdd (t : StallId)
  /-- SUB (R75): Micro-op subtracting two sources per lane. -/
  | uopSub (t : StallId)
  /-- MUL (R75): Micro-op multiplying two sources per lane. -/
  | uopMul (t : StallId)
  /-- FMA (R75): Micro-op computing a times b plus c rounded once per lane. -/
  | uopFma (t : StallId)
  /-- MAX (R75): Micro-op taking the per-lane maximum. -/
  | uopMax (t : StallId)
  /-- MIN (R75): Micro-op taking the per-lane minimum. -/
  | uopMin (t : StallId)
  /-- ABS (R75): Micro-op taking the per-lane absolute value. -/
  | uopAbs (t : StallId)
  /-- NEG (R75): Micro-op negating each lane. -/
  | uopNeg (t : StallId)
  /-- SEL (R75): Micro-op selecting b or a per lane by the sign of c. -/
  | uopSel (t : StallId)
  /-- CMPLT (R75): Micro-op writing 1.0 where a is less than b, else 0.0. -/
  | uopCmplt (t : StallId)
  /-- EXP2 (R75): Transcendental micro-op computing 2 to the power a. -/
  | uopExp2 (t : StallId)
  /-- LOG2 (R75): Transcendental micro-op computing log2 of a. -/
  | uopLog2 (t : StallId)
  /-- RCP (R75): Transcendental micro-op computing the reciprocal. -/
  | uopRcp (t : StallId)
  /-- RSQRT (R75): Transcendental micro-op computing the reciprocal square root. -/
  | uopRsqrt (t : StallId)
  /-- TANH (R75): Transcendental micro-op computing tanh. -/
  | uopTanh (t : StallId)
  /-- RSUM (R75): Micro-op adding all 64 lanes into a scalar OFS accumulator. -/
  | uopRsum (t : StallId)
  /-- RMAX (R75): Micro-op broadcasting the maximum over lanes. -/
  | uopRmax (t : StallId)
  /-- RMIN (R75): Micro-op broadcasting the minimum over lanes. -/
  | uopRmin (t : StallId)
  /-- LACC (R75): Micro-op adding each lane into its lane accumulator. -/
  | uopLacc (t : StallId)
  /-- RGET (R75): Micro-op finishing, converting and clearing a scalar accumulator. -/
  | uopRget (t : StallId)
  /-- LGET (R75): Micro-op finishing, converting and clearing all lane accumulators. -/
  | uopLget (t : StallId)
  /-- BCAST (R75): Micro-op broadcasting one lane of a to all lanes. -/
  | uopBcast (t : StallId)
  /-- INPUT_LINE (R65): A line arrives at a stall input port FIFO from its router. -/
  | inputLine (t : StallId) (port : PortId)
  /-- ROUTER_CREDIT (R65): An output port regains a router credit and may send again. -/
  | routerCredit (t : StallId) (port : PortId)
  /-- OUTPUT_LINE_SEND (R69): A converted or vector output line leaves an output port when it can send. -/
  | outputLineSend (t : StallId) (port : PortId)
  /-- ANCHOR_LINE (R70): An anchor packet arrives on ANCHOR_PORT and sets the stall's anchor. -/
  | anchorLine (t : StallId)
  /-- FENCE_ARRIVAL (R78): A fence line on FENCE_PORT stops token intake and starts a swap. -/
  | fenceArrival (t : StallId) (chk : StallCheck)
  /-- SWAP_DRAIN_DONE (R78): Taken tokens finish and packets commit, fence lines are sent downstream and the stall
  waits for SHADOW_VALID. -/
  | swapDrainDone (t : StallId)
  /-- SWAP_EXCHANGE (R78): With SHADOW_VALID set the stall exchanges slots, clears state and increments
  STALL_SWAP_COUNT. -/
  | swapExchange (t : StallId) (chk : StallCheck) (damaged : Bool)
  /-- MANGER_WRITEBACK (R60): A SECDED-corrected manger word is written back in the next free write-port cycle. -/
  | mangerWriteback (t : StallId)
  /-- MANGER_SCRUB (R60): The groom scrubs a stall's manger once the stall is IDLE. -/
  | mangerScrub (t : StallId) (chk : StallCheck)
  /-- STALL_NUM_STATUS_WRITE (R8): A write of 1s clears sticky numerical and poison status bits. -/
  | stallNumStatusWrite (t : StallId) (v : Reg32)
  /-- STALL_BANK_CONFLICT_READ (R8): A read returns and clears the bank-conflict count. -/
  | stallBankConflictRead (t : StallId)
  /-- STALL_TOKEN_LO_READ (R49): A read of STALL_TOKEN_LO returns the low token count bits and latches the high bits. -/
  | stallTokenLoRead (t : StallId)
  /-- LOAD (R110): PEN_CMD LOAD checks the container header and grant and places its records. -/
  | load (f : Func) (p : PenId)
  /-- LOAD_STREAM_DONE (R110): The container has streamed into shadow slots; the CRC is compared, SHADOW_VALID set and
  slots exchanged. -/
  | loadStreamDone
  /-- SHADOW (R111): PEN_CMD SHADOW loads a container into the shadow slots of a RUNNING pen. -/
  | shadow (f : Func) (p : PenId)
  /-- START (R111): PEN_CMD START runs the active harness from its beginning. -/
  | start (f : Func) (p : PenId)
  /-- STOP (R115): PEN_CMD STOP begins a drain and starts the DRAIN_LIMIT timer. -/
  | stop (f : Func) (p : PenId)
  /-- SWAP (R112): PEN_CMD SWAP injects fence lines into every fence root. -/
  | swap (f : Func) (p : PenId)
  /-- PEN_RELEASE (R114): PEN_CMD RELEASE returns the pen and its grant to FREE. -/
  | penRelease (f : Func) (p : PenId)
  /-- PEN_CMD_RESERVED (R114): A reserved PEN_CMD value is refused with code STATE. -/
  | penCmdReserved (f : Func) (p : PenId) (cmd : BitVec 4)
  /-- DRAIN_COMPLETE (R115): No taken token remains; open tiles are discarded, packets rewound and the pen enters
  STOPPED. -/
  | drainComplete (p : PenId)
  /-- DRAIN_LIMIT_EXPIRY (R116): DRAIN_LIMIT expires before the drain completes and the pen aborts. -/
  | drainLimitExpiry (p : PenId)
  /-- PEN_FAULT (R119): A stall fault report moves its pen to FAULTED with the abort actions. -/
  | penFault (p : PenId)
  /-- ENGINE_TRIGGER_PACKET (R106): The prepass engine consumes a trigger packet and counts it toward each plan naming
  the chute. -/
  | engineTriggerPacket (c : ChuteId)
  /-- PLAN_RUN (R105): The prepass engine runs a ready plan, computes the anchor and sends anchor lines. -/
  | planRun
  /-- SINK_LINE (R97): A SINK route writes an arriving data or scale line into its segment. -/
  | sinkLine (t : StallId) (port : PortId)
  /-- SINK_PASS_NOTICE (R97): After a pass's last line reaches memory the sink commits a notice and advances its pass
  index. -/
  | sinkPassNotice (t : StallId) (port : PortId)
  /-- DROVE_MAX (R310): A MAX header line from a partner is combined into the drove maximum. -/
  | droveMax (c : ChuteId)
  /-- PUSH (R129): A producer word enters a chute, opening, extending or committing a packet. -/
  | push (c : ChuteId) (r : Requester) (w : ChuteWord)
  /-- WAITING_FIRST_OPEN (R129): A waiting FIRST word opens its packet once the open packet ends. -/
  | waitingFirstOpen (c : ChuteId)
  /-- SPACE_WAIT_END (R130): A word waiting for chute space proceeds once occupancy falls. -/
  | spaceWaitEnd (c : ChuteId)
  /-- ABORT (R132): The producer's ABORT command rewinds its open packet. -/
  | abort (c : ChuteId) (r : Requester)
  /-- MARK (R136): Consumer command setting MP to RP. -/
  | mark (c : ChuteId) (r : Requester)
  /-- REWIND (R136): Consumer command setting RP to MP. -/
  | rewind (c : ChuteId) (r : Requester)
  /-- RELEASE (R136): Consumer command setting FP and MP to RP. -/
  | release (c : ChuteId) (r : Requester)
  /-- FLUSH (R142): Discards every unreleased line and any open packet of a chute. -/
  | flush (c : ChuteId) (r : Requester)
  /-- ENABLE (R144): Moves a DISABLED chute with a valid DEPTH_LOG2 to ENABLED. -/
  | enable (c : ChuteId) (r : Requester)
  /-- DISABLE (R145): Moves an ENABLED chute to DISABLING and starts DISABLE_LIMIT. -/
  | disable (c : ChuteId) (r : Requester)
  /-- INIT (R144): Resets the pointers and status of a DISABLED chute. -/
  | init (c : ChuteId) (r : Requester)
  /-- CHUTE_BAD_OP (R152): A chute command with a reserved opcode is refused with BAD_OP. -/
  | chuteBadOp (c : ChuteId) (r : Requester) (op : BitVec 4)
  /-- CONSUMER_READ (R135): The consumer endpoint reads the line at RP or gets the idle line. -/
  | consumerRead (c : ChuteId) (chk : StallCheck)
  /-- WATERMARK_WRITE (R139): A write to HIGH_WM or LOW_WM re-evaluates the marks in the next cycle. -/
  | watermarkWrite (f : Func) (c : ChuteId) (high : Bool) (v : Reg32)
  /-- DISABLE_LIMIT_EXPIRY (R145): DISABLE_LIMIT expires and the DISABLING chute aborts to DISABLED. -/
  | disableLimitExpiry (c : ChuteId)
  /-- CHUTE_DISABLE_COMPLETE (R145): A DISABLING chute with no open packet and RP equal to CP enters DISABLED. -/
  | chuteDisableComplete (c : ChuteId)
  /-- REMOTE_OPEN (R147): An OPEN control payload is applied to the destination chute as a FIRST word, or forwarded as
  a via. -/
  | remoteOpen (l : LinkId) (vc : BitVec 3)
  /-- REMOTE_DATA (R147): A remote data line is applied to the chute as four words. -/
  | remoteData (l : LinkId) (vc : BitVec 3)
  /-- REMOTE_CLOSE (R147): A CLOSE payload is applied as the LAST word of the remote packet. -/
  | remoteClose (l : LinkId) (vc : BitVec 3)
  /-- REMOTE_ABORT (R148): An ABORT payload rewinds the remote packet at the chute. -/
  | remoteAbort (l : LinkId) (vc : BitVec 3)
  /-- REMOTE_XOFF (R140): An XOFF message stops the device's producers for a chute from starting new packets. -/
  | remoteXoff (l : LinkId) (vc : BitVec 3)
  /-- REMOTE_XON (R140): An XON message lets the device's producers start new packets again. -/
  | remoteXon (l : LinkId) (vc : BitVec 3)
  /-- REMOTE_STATUS (R149): A STATUS message copies the reported outcome into the producer endpoint's status. -/
  | remoteStatus (l : LinkId) (vc : BitVec 3)
  /-- REMOTE_PURGED (R150): A PURGED message rewinds every open packet sourced from the purging device. -/
  | remotePurged (l : LinkId) (vc : BitVec 3)
  /-- CHUTE_STATUS_WRITE (R8): A write of 1s clears HWM_SEEN or LWM_SEEN. -/
  | chuteStatusWrite (f : Func) (c : ChuteId) (v : Reg32)
  /-- CHUTE_DIE_ABORT_LINES_READ (R8): A read returns and clears the count of lines discarded by disable aborts. -/
  | chuteDieAbortLinesRead (d : Die)
  /-- MEM_READ (R161): A hub reads a line, checks its code and returns data, corrected data or poison. -/
  | memRead (a : Addr) (errs : Nat)
  /-- MEM_WRITE (R162): A full-line write stores new check symbols and sets or clears the POISON tag. -/
  | memWrite (a : Addr) (data : Line) (poison : Bool)
  /-- READ_MODIFY_WRITE (R162): A partial write merges new bytes into the line in the hub. -/
  | readModifyWrite (a : Addr) (data : List Byte) (poison : Bool) (errs : Nat)
  /-- MEM_CE_WRITEBACK (R161): Corrected data is written back in the next free write slot of the pseudo-channel. -/
  | memCeWriteback (h : Hub)
  /-- REFRESH (R168): A hub issues a per-bank refresh at the interval its band sets. -/
  | refresh (h : Hub)
  /-- REFRESH_RATE_CHANGE (R169): The hub raises or lowers its refresh rate after a band change or hysteresis period. -/
  | refreshRateChange (h : Hub)
  /-- SCRUB_READ (R170): Patrol scrub reads the next stack-local line and advances SCRUB_POS. -/
  | scrubRead (h : Hub) (errs : Nat)
  /-- STACK_LOST (R172): A hub declares its stack LOST and poisons or discards all further accesses. -/
  | stackLost (h : Hub) (why : LostCause)
  /-- MH_CTRL_WRITE (R173): A write to MH_CTRL sets scrub control or requests READMIT at the next reset. -/
  | mhCtrlWrite (h : Hub) (v : Reg32)
  /-- MH_CE_COUNT_READ (R8): A read returns and clears the corrected-read count. -/
  | mhCeCountRead (h : Hub)
  /-- MH_UC_COUNT_READ (R8): A read returns and clears the newly poisoned line count. -/
  | mhUcCountRead (h : Hub)
  /-- MESH_PACKET (R180): A router injects or forwards a mesh packet in its class once room is reserved. -/
  | meshPacket (at_ : Die) (cls : MeshClass) (dst : Die) (payload : Line)
  /-- ROUTER_TABLE_SWITCH (R183): A router's in-flight count for a class reaches zero and it switches to the new
  table. -/
  | routerTableSwitch (d : Die) (cls : MeshClass)
  /-- RETIRE (R193): PNET_CMD RETIRE requests replacement of a logical die. -/
  | retire (target : BitVec 7)
  /-- READMIT (R191): PNET_CMD READMIT marks a site for readmission at the next reset. -/
  | readmit (target : BitVec 7)
  /-- PNET_BAD_OP (R191): A reserved PNET_CMD opcode gives result BAD_OP. -/
  | pnetBadOp (op : BitVec 4)
  /-- REPLACEMENT_START (R193): The tack die starts the next queued die replacement. -/
  | replacementStart
  /-- REPLACEMENT_STEP_DONE (R193): A timed replacement step completes and the next step runs. -/
  | replacementStepDone (pass : Bool) (half : BitVec 18) (reps : List (Fin 18 × Nat × Nat)) (cap : BitVec 64)
  /-- ADAPTER_RETRY (R411): A UCIe adapter retry adds to its module's PNET_RETRY bucket. -/
  | adapterRetry (p : Site) (m : Fin 18)
  /-- MODULE_RETRAIN_DONE (R187): A module retrain ends with lane repair, half width or FAILED. -/
  | moduleRetrainDone (p : Site) (m : Fin 18) (out : ModuleOutcome)
  /-- CAPABILITY_WORD (R185): A die's capability word arrives and the tack die applies the revision rules. -/
  | capabilityWord (p : Site) (cap : BitVec 64)
  /-- SPARE_LASER (R216): OE_CMD SPARE_LASER requests sparing of a wavelength's laser. -/
  | spareLaser (e : Oe) (target : BitVec 8)
  /-- RELOCK (R220): OE_CMD RELOCK starts a search on a ring with no exclusion. -/
  | relock (e : Oe) (target : RingId)
  /-- OE_BAD_OP (R225): A reserved OE_CMD opcode gives result BAD_OP. -/
  | oeBadOp (e : Oe) (op : BitVec 4)
  /-- LASER_WARM_DONE (R203): A warming laser locks with identity confirmed and becomes READY. -/
  | laserWarmDone (e : Oe) (n : LaserId)
  /-- LASER_WARM_TIMEOUT (R203): A laser misses its warm-up bound and becomes FAILED. -/
  | laserWarmTimeout (e : Oe) (n : LaserId)
  /-- LASER_LOCK_LOOP (R201): The 1 kHz laser wavelength loop updates each laser's heater. -/
  | laserLockLoop (e : Oe) (n : LaserId) (step : Int) (locked : Bool)
  /-- BIAS_LOOP (R202): The 10 kHz bias loop holds tap power and may set AGE_WARN or trigger sparing. -/
  | biasLoop (e : Oe) (n : LaserId) (bias : BitVec 10)
  /-- SUDDEN_LOSS (R215): An ACTIVE laser loses power or lock and becomes FAILED, and its links retrain without it. -/
  | suddenLoss (e : Oe) (n : LaserId)
  /-- LASER_SPARING_START (R216): The groom starts a queued laser sparing. -/
  | laserSparingStart (e : Oe)
  /-- LASER_SPARING_STEP_DONE (R216): A timed laser-sparing step completes and the next runs. -/
  | laserSparingStepDone (e : Oe) (ok : Bool)
  /-- RING_LOOP_UPDATE (R208): Every 0.5 µs each LOCKED ring's integrator takes the dither error. -/
  | ringLoopUpdate (e : Oe) (r : RingId) (err : Rat)
  /-- RING_REACQUIRE_TIMEOUT (R209): A FROZEN ring fails to re-acquire within 1 ms and starts a search. -/
  | ringReacquireTimeout (e : Oe) (r : RingId)
  /-- RING_RELOCK (R209): Monitor power below half for 10 µs sends the ring to SEARCH. -/
  | ringRelock (e : Oe) (r : RingId)
  /-- RING_RAIL (R209): Heater power out of range for 10 µs sets RAIL and raises a CE record. -/
  | ringRail (e : Oe) (r : RingId)
  /-- RING_SEARCH_STEP (R220): A ring search sets the next heater code and tests for a dip. -/
  | ringSearchStep (e : Oe) (r : RingId) (dip : Bool) (centre : BitVec 16) (pilotOk : Bool)
  /-- PILOT_EVALUATION (R218): A ring's pilots are evaluated every 250 µs, possibly declaring a mislock. -/
  | pilotEvaluation (e : Oe) (r : RingId) (levels : List Int)
  /-- MISLOCK_RECOVERY_STEP_DONE (R220): A mislock recovery step completes and the next runs. -/
  | mislockRecoveryStepDone (e : Oe) (r : RingId)
  /-- ACTIVITY_WORD (R211): A die's 100 ns activity word updates the OE's power estimate for its slot. -/
  | activityWord (e : Oe) (p : Site) (w : BitVec 16)
  /-- FEED_FORWARD_UPDATE (R211): Every 100 ns the OE filters power estimates and applies feed-forward to bank
  demands. -/
  | feedForwardUpdate (e : Oe)
  /-- OE_SILENT_DIE (R17): A powered die misses three broadcast intervals and the OE holds its estimate. -/
  | oeSilentDie (e : Oe) (p : Site)
  /-- MARGIN_MEASURE (R213): Every 1 ms the OE measures lane margins and reports them to the partner. -/
  | marginMeasure (e : Oe) (port : BitVec 3) (margins : List (BitVec 16))
  /-- XT_REFINE_WINDOW (R207): At the end of each 1 ms window the groom refines crosstalk matrix entries. -/
  | xtRefineWindow (e : Oe) (res : List XtResidual)
  /-- XT_COMMIT (R207): Pending crosstalk entries are committed to flash. -/
  | xtCommit (e : Oe)
  /-- OE_BAND_CHANGE (R222): The OE moves to a new temperature band and selects its start tables. -/
  | oeBandChange (e : Oe)
  /-- OE_LASER_STAT_WRITE (R8): A write of 1 clears AGE_WARN. -/
  | oeLaserStatWrite (e : Oe) (n : LaserId) (v : Reg32)
  /-- OE_RING_WRITE (R8): A write of 1 clears MISLOCK. -/
  | oeRingWrite (e : Oe) (r : RingId) (v : Reg32)
  /-- BEACON_TRANSMIT (R240): In DOWN or DETECT the transmitter sends 2 µs of clock every 1 ms. -/
  | beaconTransmit (l : LinkId)
  /-- BEACON_DETECTED (R240): A partner beacon is answered and the link enters TRAIN. -/
  | beaconDetected (l : LinkId)
  /-- PARTNER_CLOCK_DETECTED (R239): Partner clock lasting 10 µs moves the link from DOWN, DETECT or HOLD. -/
  | partnerClockDetected (l : LinkId)
  /-- TRAIN_COMPLETE (R239): λ0 locks and lanes are phase-set, moving the link to ALIGN. -/
  | trainComplete (l : LinkId) (eyes : List (BitVec 64))
  /-- ALIGN_COMPLETE (R241): Lanes are locked and deskewed and data lanes are assigned. -/
  | alignComplete (l : LinkId) (w2 : List Reg32)
  /-- CAPABILITY_MESSAGE (R243): A partner's capability message is received and its identity checked. -/
  | capabilityMessage (l : LinkId) (fl : RxFlit)
  /-- GO_BLOCK (R244): The partner's GO block arrives and the link enters ACTIVE or a rate step. -/
  | goBlock (l : LinkId)
  /-- RATE_STEP_DONE (R244): The 40 Gb/s rate step completes with a second GO. -/
  | rateStepDone (l : LinkId) (eyes : List (BitVec 64)) (w2 : List Reg32)
  /-- STAGE_TIMEOUT (R239): A TRAIN, ALIGN or EXCHANGE bound expires and the link returns to DETECT. -/
  | stageTimeout (l : LinkId)
  /-- CLOCK_LIGHT_LOST (R235): λ0 has LOS or LOL long enough that λ0 light is lost. -/
  | clockLightLost (l : LinkId)
  /-- LOS (R234): LOS asserts after 1 µs below −16 dBm. -/
  | los (l : LinkId) (i : Wave)
  /-- LOS_DEASSERT (R234): LOS deasserts after 10 µs above −14 dBm. -/
  | losDeassert (l : LinkId) (i : Wave)
  /-- LOL (R234): LOL asserts on a phase or clock-loop error lasting 1 µs. -/
  | lol (l : LinkId) (i : Wave)
  /-- LOL_DEASSERT (R234): LOL deasserts after 16 error-free frames with WORD_LOCK. -/
  | lolDeassert (l : LinkId) (i : Wave)
  /-- LANE_FAILED (R235): A data lane with LOS or LOL for 100 µs is declared failed and moved or dropped. -/
  | laneFailed (l : LinkId) (i : Wave)
  /-- HOLD_LIMIT_EXPIRY (R239): HOLD_LIMIT expires and the link enters DOWN. -/
  | holdLimitExpiry (l : LinkId)
  /-- TRAINING_BLOCKS_RECEIVED (R245): An ACTIVE receiver sees training blocks and enters RETRAIN. -/
  | trainingBlocksReceived (l : LinkId) (kind : RetrainKind)
  /-- RETRAIN_COMPLETE (R245): A QUICK or FULL retrain reaches ACTIVE. -/
  | retrainComplete (l : LinkId)
  /-- MARKER (R238): An alignment marker on a spare lane checks and corrects its deskew. `told`: the partner reports a
  lane-identifier mismatch of the same wavelength (R219). -/
  | marker (l : LinkId) (i : Wave) (slip : BitVec 5) (w1 w2 : Reg32) (frame : BitVec 16) (told : Bool)
  /-- SLIP (R237): A SLIP write moves a lane's word boundary one UI later. -/
  | slip (l : LinkId) (i : Wave)
  /-- RETRAIN (R245): LINK_CMD RETRAIN starts a FULL retrain in ACTIVE. -/
  | retrain (l : LinkId)
  /-- ACCEPT_PARTNER (R246): LINK_CMD ACCEPT_PARTNER records a new partner identity and releases the hold. -/
  | acceptPartner (l : LinkId)
  /-- LINK_CMD_BAD_OP (R249): A reserved LINK_CMD opcode gives CMD_RESULT BAD_OP. -/
  | linkCmdBadOp (l : LinkId) (op : BitVec 4)
  /-- LINK_CTRL_WRITE (R248): A write to LINK_CTRL enables or disables the link; clearing ENABLE enters DOWN at once. -/
  | linkCtrlWrite (l : LinkId) (v : Reg32)
  /-- LINK_STATE_WRITE (R8): A write of 1 clears PARTNER_RESTARTED. -/
  | linkStateWrite (l : LinkId) (v : Reg32)
  /-- LINK_LANE_WRITE (R8): A write of 1 clears ID_MISMATCH. -/
  | linkLaneWrite (l : LinkId) (i : Wave) (v : Reg32)
  /-- LINK_LANE_READ (R8): A read of LINK_LANE returns and clears STUFF_ERR. -/
  | linkLaneRead (l : LinkId) (i : Wave)
  /-- TX_SLOT (R262): At each flit slot the transmitter sends the highest-priority flit due. -/
  | txSlot (l : LinkId)
  /-- FLOW_FLIT (R266): A FLOW flit applies the partner's XOFF bitmap and returns pool credits. -/
  | flowFlit (l : LinkId) (fl : RxFlit)
  /-- DATA_FLIT (R256): A sequenced DATA flit is accepted, discarded as duplicate or ahead, or overruns. -/
  | dataFlit (l : LinkId) (fl : RxFlit)
  /-- CTRL_FLIT (R256): A sequenced CTRL flit carrying a chute control payload is accepted. -/
  | ctrlFlit (l : LinkId) (fl : RxFlit)
  /-- DATA_POOL (R267): A DATA_POOL flit is accepted into the shared pool. -/
  | dataPool (l : LinkId) (fl : RxFlit)
  /-- CTRL_POOL (R267): A CTRL_POOL flit is accepted into the shared pool. -/
  | ctrlPool (l : LinkId) (fl : RxFlit)
  /-- FLIT_RESERVED_TYPE (R252): A good flit of reserved type is acknowledged, discarded and reported. -/
  | flitReservedType (l : LinkId) (fl : RxFlit)
  /-- SYNC (R272): A SYNC flit sets resumption state, sequence numbers and credits. -/
  | sync (l : LinkId) (fl : RxFlit)
  /-- PING (R273): A PROBE PING is answered with an ECHO. -/
  | ping (l : LinkId) (fl : RxFlit)
  /-- ECHO (R273): A PROBE ECHO sets LINK_RTT and recomputes XOFF levels and replay floor. -/
  | echo (l : LinkId) (fl : RxFlit) (ps : Nat)
  /-- ACK_TIMER (R258): The 250 ns acknowledgement timer publishes ACK_PUB. -/
  | ackTimer (l : LinkId)
  /-- REPLAY_TIMER_EXPIRY (R261): The replay timer expires and unacknowledged flits are resent, or a retrain requested
  at REPLAY_LIMIT. -/
  | replayTimerExpiry (l : LinkId)
  /-- FLOW_FORCE (R266): No FLOW flit for 4 µs forces one. -/
  | flowForce (l : LinkId)
  /-- CREDIT_RETURN_TIMER (R269): Freed pool entries are returned within 250 ns of the first freed. -/
  | creditReturnTimer (l : LinkId)
  /-- PROBE_TIMEOUT (R273): A probe without echo for 10 µs is resent. -/
  | probeTimeout (l : LinkId)
  /-- RETRAIN_TIMEOUT (R274): A retrain misses its budget, counts as failed and may take the link down. -/
  | retrainTimeout (l : LinkId)
  /-- OPERATION_TIMEOUT (R283): A remote packet's operation timer reaches OP_TIMEOUT and reports the peer unreachable. -/
  | operationTimeout (l : LinkId) (n : Nat)
  /-- PURGE (R277): LINK_LL_CMD PURGE discards the link's held traffic and makes the side FRESH. -/
  | purge (l : LinkId)
  /-- LINK_DISABLE (R278): LINK_LL_CMD DISABLE drains the link before taking it DOWN. -/
  | linkDisable (l : LinkId)
  /-- REKEY (R284): LINK_LL_CMD REKEY agrees new encryption keys. -/
  | rekey (l : LinkId)
  /-- LINK_LL_BAD_OP (R288): A reserved LINK_LL_CMD opcode gives CMD_RESULT BAD_OP. -/
  | linkLlBadOp (l : LinkId) (op : BitVec 4)
  /-- LINK_DISABLE_COMPLETE (R278): All flits are acknowledged and the disabled link enters DOWN. -/
  | linkDisableComplete (l : LinkId)
  /-- LINK_DRAIN_LIMIT_EXPIRY (R278): The link DRAIN_LIMIT expires during a disable and the link purges. -/
  | linkDrainLimitExpiry (l : LinkId)
  /-- LINK_LL_COUNTER_READ (R8): A read returns and clears a link-layer event counter. -/
  | linkLlCounterRead (l : LinkId) (which : LlCounter)
  /-- MARGIN (R213): A MARGIN message stores the partner's receive margins as FAR margins. -/
  | margin (l : LinkId) (fl : RxFlit)
  /-- LANE_REQ (R281): A LANE_REQ asks the receiver to move, drop or add a lane. -/
  | laneReq (l : LinkId) (fl : RxFlit)
  /-- LANE_SET (R281): A LANE_SET schedules a lane map change at slot EFFECTIVE. -/
  | laneSet (l : LinkId) (fl : RxFlit)
  /-- LANE_REFUSE (R281): A LANE_REFUSE reports a refused lane change. -/
  | laneRefuse (l : LinkId) (fl : RxFlit)
  /-- DESKEW_WAIT_END (R281): The receiver's wait for DESKEWED ends with LANE_SET or LANE_REFUSE. -/
  | deskewWaitEnd (l : LinkId)
  /-- LANE_MAP_EFFECTIVE (R281): The slot count reaches EFFECTIVE and both sides apply the new lane map. -/
  | laneMapEffective (l : LinkId) (tx : Bool)
  /-- KEY (R284): A KEY message advances the authenticated key exchange. -/
  | key (l : LinkId) (fl : RxFlit)
  /-- TAG (R285): A TAG message verifies and releases an encrypted group. -/
  | tag (l : LinkId) (fl : RxFlit)
  /-- KEY_SWITCH (R284): A KEY_SWITCH message moves to the new key from the next group. -/
  | keySwitch (l : LinkId) (fl : RxFlit)
  /-- CSR_REQ (R296): A worker performs or refuses a manager CSR request, or relays it. -/
  | csrReq (l : LinkId) (fl : RxFlit)
  /-- CSR_RSP (R296): The manager completes an outstanding BAR2 read with the response. -/
  | csrRsp (l : LinkId) (fl : RxFlit)
  /-- SYS_NOTICE (R298): The manager receives a system notice and raises a host event. -/
  | sysNotice (l : LinkId) (fl : RxFlit)
  /-- BAR2_READ (R296): A host read through a BAR2 window sends a CSR read request. -/
  | bar2Read (off : BitVec 36) (wide : Bool)
  /-- BAR2_WRITE (R294): A host write through a BAR2 window sends a CSR write request. -/
  | bar2Write (off : BitVec 36) (v : BitVec 64) (wide : Bool)
  /-- CSR_READ_TIMEOUT (R296): A BAR2 read without response for 1 ms completes with all ones. -/
  | csrReadTimeout (tag : BitVec 8)
  /-- INTAKE_PACKET (R299): The tack die writes an intake packet's lines to device memory. -/
  | intakePacket
  /-- SYS_STATUS_WRITE (R8): A write of 1s clears system condition bits. -/
  | sysStatusWrite (v : Reg32)
  /-- SYS_STATUS_READ (R8): A read returns and clears CSR_DROPPED. -/
  | sysStatusRead
  /-- CONFIG_REQUEST (R334): The host die answers a PCIe configuration request. -/
  | configRequest (f : Func) (reg : BitVec 12) (wr : Option Reg32)
  /-- BAR4_READ (R326): A host read of device memory through BAR4. -/
  | bar4Read (f : Func) (off : BitVec 64) (len : Nat)
  /-- BAR4_WRITE (R326): A host write of device memory through BAR4. -/
  | bar4Write (f : Func) (off : BitVec 64) (data : List Byte)
  /-- CXL_MEM_READ (R318): A CXL.mem read served as an uncached device-bias read. -/
  | cxlMemRead (a : Addr)
  /-- CXL_MEM_WRITE (R318): A CXL.mem write applied at its hub in arrival order. -/
  | cxlMemWrite (a : Addr) (data : Line) (poison : Bool)
  /-- PCIE_LINK_DOWN (R337): The host link goes down and every function is disabled. -/
  | pcieLinkDown
  /-- HOT_RESET (R337): A hot reset disables every function at once. -/
  | hotReset
  /-- FLR (R337): A function-level reset disables one function. -/
  | flr (n : Func)
  /-- PERST_N (R344): PERST_N resets the PCIe port or acts as warm or host reset. -/
  | perstN (level : Bool)
  /-- VF_ENABLE_SET (R321): Setting VF Enable checks and enables each granted VF. -/
  | vfEnableSet
  /-- VF_ENABLE_CLEAR (R337): Clearing VF Enable disables every VF. -/
  | vfEnableClear
  /-- FUNC_ENABLE (R321): Function command ENABLE checks a VF's grant and enables it. -/
  | funcEnable (f : Func) (n : Func)
  /-- FUNC_DISABLE (R338): Function command DISABLE starts the disable sequence. -/
  | funcDisable (f : Func) (n : Func)
  /-- WIPE (R338): Function command WIPE wipes a DISABLED VF's memory window. -/
  | wipe (f : Func) (n : Func)
  /-- WIPE_DONE (R338): A function window wipe finishes and WIPE_BUSY clears. -/
  | wipeDone (n : Func)
  /-- FUNC_BAD_OP (R340): A reserved function command gives RESULT BAD_OP. -/
  | funcBadOp (f : Func) (n : Func) (op : BitVec 4)
  /-- FUNC_DRAIN_COMPLETE (R338): All pens, chutes and channels of a disabling function settle and it becomes
  DISABLED. -/
  | funcDrainComplete (n : Func)
  /-- FUNC_DRAIN_LIMIT_EXPIRY (R338): FUNC_DRAIN_LIMIT expires and remaining work aborts. -/
  | funcDrainLimitExpiry (n : Func)
  /-- DMA_TAIL_WRITE (R332): A write to HOST_DMA_TAIL posts descriptors to a channel. -/
  | dmaTailWrite (f : Func) (c : Chan) (v : Reg32)
  /-- H2D (R333): A DMA descriptor copies host memory to device memory. -/
  | h2d (c : Chan) (desc : BitVec 256) (data : List Line)
  /-- D2H (R333): A DMA descriptor copies device memory to host memory. -/
  | d2h (c : Chan) (desc : BitVec 256)
  /-- H2C (R333): A DMA descriptor pushes one packet from host memory into a chute. -/
  | h2c (c : Chan) (desc : BitVec 256) (data : List Word16)
  /-- C2H (R333): A DMA descriptor consumes one chute packet into host memory. -/
  | c2h (c : Chan) (desc : BitVec 256)
  /-- DMA_DESCRIPTOR_COMPLETE (R333): A descriptor finishes, writing DONE_BYTES and STATUS and possibly DMA_DONE. -/
  | dmaDescriptorComplete (c : Chan)
  /-- HOST_EVQ_HEAD_WRITE (R330): A HEAD write consumes events and clears the pending interrupt. -/
  | hostEvqHeadWrite (f : Func) (n : Func) (v : Reg32)
  /-- HOST_EVQ_STATUS_WRITE (R8): A write of 1 clears OVERFLOW. -/
  | hostEvqStatusWrite (f : Func) (n : Func) (v : Reg32)
  /-- HOST_EVQ_STATUS_READ (R8): A read returns and clears DROPPED. -/
  | hostEvqStatusRead (f : Func) (n : Func)
  /-- HOST_DENIED_READ (R8): A read returns and clears the count of refused VF accesses. -/
  | hostDeniedRead
  /-- SPDM_REQUEST (R335): The SEC block answers an SPDM request. -/
  | spdmRequest (req : List Byte)
  /-- HOST_IDE_FAIL (R336): An IDE integrity failure moves the stream to Insecure and raises a UC record. -/
  | hostIdeFail (stream : Fin 5) (addr : BitVec 64)
  /-- COLD_RESET (R341): PV_AUX rising or COLD_RESET_N low resets every die. -/
  | coldReset (pin : Bool)
  /-- COLD_RESET_N_RELEASE (R345): Release of COLD_RESET_N samples MGR_SEL and starts boot. -/
  | coldResetNRelease (mgrSel : Bool)
  /-- TACK_RESET_WARM (R341): A keyed TACK_RESET write performs a warm reset. -/
  | tackResetWarm (v : Reg32)
  /-- BOOT_STEP_DONE (R345): A boot step completes and the next begins, ending at READY. -/
  | bootStepDone (o : BootFinding)
  /-- FLASH_WRITE (R356): Copies an image from device memory into a flash slot with verification. -/
  | flashWrite (target : BitVec 4)
  /-- FLASH_READ (R356): Copies a flash region into device memory. -/
  | flashRead (target : BitVec 4) (offset : BitVec 12)
  /-- FLASH_BAD_OP (R366): A reserved flash opcode gives RESULT BAD_OP. -/
  | flashBadOp (op : BitVec 4)
  /-- FLASH_COMMAND_DONE (R356): A flash command finishes and reports its result. -/
  | flashCommandDone (err : Bool)
  /-- LC_ADVANCE (R358): Advances the life-cycle state in fuses and performs a warm reset. -/
  | lcAdvance (target : BitVec 3)
  /-- DEBUG_UNLOCK (R363): Verifies a token and opens debug access after a warm reset. -/
  | debugUnlock
  /-- ADVANCE_SVN (R362): Raises the fused SVN count to the running slot's SVN. -/
  | advanceSvn
  /-- SEC_BAD_OP (R367): A reserved SEC_CMD opcode gives RESULT BAD_OP. -/
  | secBadOp (op : BitVec 4)
  /-- SAVE_HOLD_EXIT (R343): A device holding after a save leaves the hold by reset once power is stable. -/
  | saveHoldExit
  /-- TAP_INSTRUCTION (R359): A TAP instruction is loaded and allowed or replaced by BYPASS per life-cycle state. -/
  | tapInstruction (i : TapInstr) (trstN : Bool)
  /-- SMBUS_REQUEST (R442): The SMBus target answers an MCTP or PLDM request. -/
  | smbusRequest (addr : BitVec 7) (req : List Byte)
  /-- PV_MAIN_GOOD (R369): PV_MAIN has stayed good with PWR_OK high for 1 ms. -/
  | pvMainGood
  /-- REGULATOR_OUT_OF_RANGE (R373): A domain outside ±5 % for 10 µs is disabled. -/
  | regulatorOutOfRange (q : Fin 112)
  /-- POWER_EVALUATION (R375): Every 10 µs the power manager updates L_P and the applied level. -/
  | powerEvaluation (p10 : Nat) (mainMv : BitVec 16) (holdMv : BitVec 16) (auxMv : BitVec 16)
  /-- PWR_OVER_LIMIT (R377): L_P at 56 with power over the limit for 10 ms raises a CE record. -/
  | pwrOverLimit
  /-- PWR_LIMIT_WRITE (R374): A write to PWR_LIMIT is clamped to 800 W through CAP. -/
  | pwrLimitWrite (v : Reg32)
  /-- SUPPLY_SAG (R378): A supply sag preempts all work and starts the save sequence. -/
  | supplySag (reason : BitVec 2)
  /-- SAVE_COMPLETE (R378): The save record is committed and SAVE_DONE asserted. -/
  | saveComplete
  /-- PV_HOLD_EXHAUSTED (R386): PV_HOLD falls below 7.0 V during a save and no commit word is written. -/
  | pvHoldExhausted
  /-- SAVE_SHADOW_REFRESH (R380): Every 1 ms the tack die refreshes its shadow of the save values. -/
  | saveShadowRefresh
  /-- THERMAL_SCAN (R389): Every 1 ms the thermal monitor reads every channel and updates temperatures, bands and L_T. -/
  | thermalScan (readings : List (Nat × Int)) (opens : List Nat)
  /-- FAULT_REPORT (R406): The collector applies a report to its source record and the log. -/
  | faultReport (src : BitVec 16) (cause : BitVec 16) (addr : BitVec 64)
  /-- FAULT_ACK (R408): A matching COUNT written to ACK clears or acknowledges a record. -/
  | faultAck (src : BitVec 16) (v : Reg32)
  /-- CONDITION_END (R408): A condition cause ends, ACTIVE falls and an acknowledged record clears. -/
  | conditionEnd (src : BitVec 16) (cause : BitVec 16)
  /-- BUCKET_LEAK (R411): Once per LEAK interval a leaky bucket's level falls by 1. -/
  | bucketLeak (b : BitVec 3) (unit : BitVec 16)
  /-- FAULT_HEARTBEAT (R412): A heartbeat write restarts the watchdog and clears HEARTBEAT_LOST. -/
  | faultHeartbeat (v : Reg32)
  /-- HEARTBEAT_LOST (R412): The 50 ms watchdog expires and ALERT goes high. -/
  | heartbeatLost
  /-- INJECT_DISARM (R413): INJ_MODE 0 disarms error injection. -/
  | injectDisarm (mask : BitVec 8)
  /-- INJECT_ONCE (R413): INJ_MODE 1 arms a one-time check-bit injection. -/
  | injectOnce (mask : BitVec 8)
  /-- INJECT_CONTINUOUS (R413): INJ_MODE 2 arms a continuous check-bit injection. -/
  | injectContinuous (mask : BitVec 8)
  /-- INJ_MODE_RESERVED (R413): INJ_MODE 3 is refused with BAD_OP. -/
  | injModeReserved (mask : BitVec 8)
  /-- STALL_TEST (R416): Starts a destructive test of a drained stall. -/
  | stallTest (target : BitVec 12)
  /-- DIE_TEST (R416): Starts a destructive test of a SPARE or FENCED site. -/
  | dieTest (target : BitVec 12)
  /-- MEM_TEST (R416): Starts pattern passes over a stack. -/
  | memTest (target : BitVec 12)
  /-- FAULT_TEST_BAD_OP (R419): A reserved FAULT_TEST opcode gives RESULT BAD_OP. -/
  | faultTestBadOp (op : BitVec 4)
  /-- TEST_COMPLETE (R416): A self-test finishes and records PASS or FAIL. -/
  | testComplete (pass : Bool)
  /-- PMU_CNT_LO_READ (R424): A read of PMU_CNTn_LO returns the low bits and latches the high bits. -/
  | pmuCntLoRead (f : Func) (u : Fin 97) (n : BitVec 4)
  /-- PMU_CNT_HI_WRITE (R425): A write to PMU_CNTn_HI stages the high bits. -/
  | pmuCntHiWrite (f : Func) (u : Fin 97) (n : BitVec 4) (v : Reg32)
  /-- PMU_CNT_LO_WRITE (R425): A write to PMU_CNTn_LO loads the counter with staged and written bits. -/
  | pmuCntLoWrite (f : Func) (u : Fin 97) (n : BitVec 4) (v : Reg32)
  /-- PMU_CFG_WRITE (R426): A write to PMU_CFGn changes the selection, freezing the counter two cycles when the event
  changes. -/
  | pmuCfgWrite (f : Func) (u : Fin 97) (n : BitVec 4) (v : Reg32)
  /-- PMU_CTRL_WRITE (R427): Setting or clearing FREEZE stops or restarts every counter of the unit. -/
  | pmuCtrlWrite (f : Func) (u : Fin 97) (v : Reg32)
  /-- PMU_OVF_WRITE (R8): A write of 1s clears counter OVF bits. -/
  | pmuOvfWrite (f : Func) (u : Fin 97) (v : Reg32)
  /-- COUNTER_OVERFLOW (R421): A counter wraps, sets OVF and may freeze the unit or feed a chained counter. -/
  | counterOverflow (u : Fin 97) (n : BitVec 4) (occ : Nat)
  /-- PMU_SAMPLE_DROPPED_READ (R8): A read returns and clears the dropped-sample count. -/
  | pmuSampleDroppedRead (f : Func) (d : Die)
  /-- REGISTER_WRITE (R7): A write to a register without its own row, with field clamping and reserved bits ignored;
  `size` bytes, with their data, or none for a plain read of BAR0 (R324). -/
  | registerWrite (f : Func) (off : BitVec 30) (size : Nat) (data : Option (BitVec 64))
  /-- WORD_LOCK (R237): A lane's SYNC_HITS count reaches 8 consecutive training blocks at the current word boundary
  and WORD_LOCK sets, with RX_LANE_ID taken from W1. `blocks`: how many in a row, 0 after one off the boundary. `told`:
  the partner reports a lane-identifier mismatch of the same wavelength (R219). -/
  | wordLock (l : LinkId) (i : Wave) (blocks : Nat) (w1 : Reg32) (told : Bool)
  /-- EQUALISER_UPDATE (R232): Once per 1,024 UI each receive lane's equaliser adapts its three taps by one code under
  sign-sign LMS, unless held for LOS, LOL or an unlocked drop ring. -/
  | equaliserUpdate (l : LinkId) (i : Wave) (sample amp : Rat) (decNeg : BitVec 3)
  /-- PHASE_TRACKER_UPDATE (R228): In service the phase tracker moves a lane's interpolator by at most one step per
  256 UI, and each whole UI moved adds or removes a UI of deskew delay. -/
  | phaseTrackerUpdate (l : LinkId) (i : Wave) (later : Bool)
  /-- PCIE_LINK_UP (R316): The host port finishes training, at 2.5 GT/s and then the highest common rate, as PCIe or
  CXL, and HOST_STATUS reports speed, width and mode. -/
  | pcieLinkUp (gts : Nat) (width : BitVec 5) (cxlPartner : Bool)
  deriving DecidableEq, Repr

end Sys2Proof
end

