-- ==== Sys2Proof/Config.lean ====
section
/-! DEFINITION. What the manual leaves to the implementation or leaves open: opaque constants with no body, so
nothing can be proved from a particular value. -/

namespace Sys2Proof

/-- DESIGN CHOICE [4]: the free values, indexed by the counter `State.free`. Each use reads the next one. -/
opaque Config.freeValue : Nat → BitVec 64

/-- DESIGN CHOICE [5]: which of the results R45 allows a transcendental returns: a fixed function of the operation
(0 EXP2, 1 LOG2, 2 RCP, 3 RSQRT, 4 TANH) and its input, and the result itself where no exact value exists. -/
opaque Config.transChoice : Nat → BitVec 32 → BitVec 32

/-- DESIGN CHOICE [19]: which way a value the manual does not round is rounded (R205 heater codes, R207 entries): true
rounds up. -/
opaque Config.roundsUp : Rat → Bool

/-- DESIGN CHOICE [13]: SHA-384 of the standard the manual names (R351), uninterpreted. -/
opaque Config.sha384 : List Byte → BitVec 384

/-- DESIGN CHOICE [13]: ECDSA P-384 verification of R352 and R364 (public key, hash, signature), uninterpreted. -/
opaque Config.ecdsaVerify : BitVec 768 → BitVec 384 → BitVec 768 → Bool

/-- DESIGN CHOICE [13]: the public key of the fused firmware key hash, or of the manufacturing key in ROM (R359). -/
opaque Config.keyOfHash : BitVec 384 → BitVec 768

/-- DESIGN CHOICE [13]: SHA-384 of the manufacturing key, held in ROM (R359). -/
opaque Config.romKeyHash : BitVec 384

/-- DESIGN CHOICE [13]: SHA-384 of the boot ROM, measurement 1 of R335. -/
opaque Config.romHash : BitVec 384

/-- DESIGN CHOICE [13]: AES-256-GCM of R285: the key stream of a key, a nonce and a flit's place in its group. -/
opaque Config.gcmStream : BitVec 256 → BitVec 96 → Nat → BitVec 512

/-- DESIGN CHOICE [13]: the GCM tag of a group under a key and a nonce: headers below ciphertexts (R285). -/
opaque Config.gcmTag : BitVec 256 → BitVec 96 → List (BitVec 544) → BitVec 128

/-- DESIGN CHOICE [13]: the key exchange of R284 over the partner's KEY messages: whether more are needed (0), the
keys are agreed (1) or the partner fails (2); this side's next message; the key and the salt of each direction (true:
transmit). -/
opaque Config.keyState : List (BitVec 496) → Nat
opaque Config.keyReply : List (BitVec 496) → Option (BitVec 496)
opaque Config.keyAgreed : List (BitVec 496) → Bool → BitVec 256
opaque Config.saltAgreed : List (BitVec 496) → Bool → BitVec 32

/-- DESIGN CHOICE [13]: the keys of R360: the identity key of a seed, and the alias key of a seed and the hash of the
running slot's header and configuration image. -/
opaque Config.identityKey : BitVec 256 → BitVec 384
opaque Config.aliasKey : BitVec 256 → BitVec 384 → BitVec 384

/-- DESIGN CHOICE [13]: the alias certificate: the alias key's, signed with the identity key (R361). -/
opaque Config.aliasCert : BitVec 384 → BitVec 384 → List Byte

/-- DESIGN CHOICE [20]: the key of the SPDM session that a request sets up, if it does (R360). -/
opaque Config.sessionKeyed : Nat → List Byte → Option (BitVec 256)

/-- What the answers of the standards rest on: the measurements, certificate slot 0 and the keys (R335, R360, R361), the
fault records (R409) and THERM_STATUS (R397). -/
structure StandardView where
  measurements : List (BitVec 384)
  slot0 : List Byte
  aliasKey : Option (BitVec 384)
  sessionKey : Option (BitVec 256)
  records : List (BitVec 512)
  thermStatus : Nat
  deriving DecidableEq, Repr

/-- DESIGN CHOICE [20]: the answer of the SPDM, MCTP and PLDM standards to a request (R335, R442), from a free index,
the request's bytes and what the device holds. -/
opaque Config.standardResponse : Nat → List Byte → StandardView → List Byte

/-- DESIGN CHOICE [20]: the IDE stream, if any, that a request makes Secure, as IDE_KM of the standard has it (R336). -/
opaque Config.ideKeyed : Nat → List Byte → Option (Fin 5)

/-- DESIGN CHOICE [77]: the IDE stream, if any, that a function's transaction layer packets travel on (R336). -/
opaque Config.ideStream : Nat → Option (Fin 5)

/-- DESIGN CHOICE [55]: DROVE and OFFSET of R307 for the drove packets of an output port: the harness numbers its
droves and shares, and the record has no field for them. `droveBase` is the place in the drove's vector of a record's
own first result. -/
opaque Config.droveOf : BitVec 4096 → Nat → BitVec 16
opaque Config.droveOffset : BitVec 4096 → Nat → BitVec 64
opaque Config.droveBase : BitVec 4096 → BitVec 64

/-- DESIGN CHOICE [55]: the PHASE of R307 of an output port whose packets are a drove though neither its format nor its
inputs say so (1 an all-gather in the data's format, 2 an all-to-all, 3 a barrier), and the operand ports of a record
whose chute brings drove packets. -/
opaque Config.drovePort : BitVec 4096 → Nat → Option (BitVec 2)
opaque Config.droveOperand : BitVec 4096 → Nat → Bool

/-- DESIGN CHOICE [62]: how many packets of a class, beyond the first, a destination die can reserve room for (R180), by
the class's number. -/
opaque Config.meshRoom : BitVec 6 → Nat → Nat

/-- DESIGN CHOICE [63]: which UC cause of the die logic the record of a retired die's pen bears (R17). -/
opaque Config.retireCause : BitVec 2

end Sys2Proof
end

