-- ==== Sys2Proof/Machine/State.lean ====
section
/-! DEFINITION. The state of the E640 as plain data, its value after reset, and the reasons a step can stop. Each
field's docstring gives its register or its meaning, its width where the type does not, the rule that names it and its
reset value; `[n]` is an entry of notes/assumptions. A structure's default field values are its reset values. -/

namespace Sys2Proof.Machine

open Sys2Proof

/-! ### Stops -/

/-- Faults: none of the manual's commands stops the model; the manual's own faults are reports to the collector (R401).
-/
inductive Fault
  /-- Raised by no meaning: kept so that the type is inhabited. Safe. -/
  | none
  deriving DecidableEq, Repr

/-- Refusals. -/
inductive Refusal
  /-- A command whose meaning is not written: raised only by the dispatch. Safe. -/
  | notModelled (mnemonic : String)
  deriving DecidableEq, Repr

/-! ### The response to a requester -/

/-- The last response the device gave to the requester of a read, a write or a message (R324, R326): the MODEL's own
field [15]. -/
inductive Resp
  /-- No response. -/
  | none
  /-- A write or command was taken. -/
  | ok
  /-- An unsupported request, or a discarded write (R324). -/
  | ur
  /-- A register read's value. -/
  | val (v : BitVec 64)
  /-- Data, with the poison indication (EP, R326). -/
  | data (bytes : List Byte) (ep : Bool)
  /-- A message of a standard (R335, R442). -/
  | message (bytes : List Byte)
  deriving DecidableEq, Repr

/-! ### The stall (03_stall.md) -/

/-- A 64-byte line with its tag and sideband bits (R65, R128), and the time it was enqueued (R431). -/
structure TLine where
  data : Line
  tag : BitVec 8
  poison : Bool := false
  fence : Bool := false
  at_ : BitVec 64 := 0
  /-- The line came from a chute (R431 FROM_CHUTE). -/
  chute : Bool := false
  deriving DecidableEq, Repr

/-- The class of an accumulator (R24). -/
inductive AccClass
  | finite | nan | pinf | ninf
  deriving DecidableEq, Repr

/-- An accumulator (R24), its anchor apart (one anchor serves every accumulator of a stall, R32, R70), with the poison
mark of R31. Cleared: W 0, ODD 0, INEXACT 0, FINITE. -/
structure Acc where
  w : BitVec 96 := 0
  odd : Bool := false
  inexact : Bool := false
  cls : AccClass := .finite
  poisoned : Bool := false
  deriving DecidableEq, Repr

/-- STALL_STATE.STATE (03 registers). -/
inductive StallState
  | off | idle | run | waitIn | waitOut | waitAnchor | fence | swap | fault | failed
  deriving DecidableEq, Repr

/-- A configuration slot: the 512-byte record (R91), its index in the harness, which of its pen's banks it belongs
to (R112), and the parity bits an injection inverted when it was written (R413). -/
structure Slot where
  record : BitVec 4096 := 0
  recIdx : Nat := 0
  bank : BitVec 2 := 0
  inj : BitVec 4 := 0
  deriving DecidableEq, Repr

/-- An input port (R65): its FIFO with the lines staged for the next token [8], and the MX group being read (R67). -/
structure InPort where
  fifo : List TLine := []
  /-- The scale line of the current MX group, if one is open. -/
  scale : Option TLine := none
  /-- Blocks of the current group already taken. -/
  blk : Nat := 0
  /-- Lines of partial sums taken since the record began, the header line of the drove packet being taken, the lines
  taken from it and whether one of them was poisoned (R42, R307, R80). 0, none. -/
  pos : Nat := 0
  hdr : Option Line := none
  elem : Nat := 0
  pois : Bool := false
  /-- Fences still to come that an earlier swap has already answered (R78). 0. -/
  owed : Nat := 0
  deriving DecidableEq, Repr

/-- The elements of a line of partial sums that are still to be merged (R42, R308), counted over the tiles of the record
[55]: from `lo` on, of a line that holds those from `first` up to `stop`. -/
structure PartElems where
  lo : Nat
  first : Nat
  stop : Nat
  line : TLine
  deriving DecidableEq, Repr

/-- A result of an all-gather (R308, R309): its bits, an MX one's scale byte above them, and its poison. -/
structure Gathered where
  bits : BitVec 32 := 0
  poison : Bool := false
  deriving DecidableEq, Repr

/-- A line in an output stage: its data, valid bytes, whether it ends a packet, and poison. -/
structure OutLine where
  data : Line
  valid : Nat := 64
  last : Bool := false
  poison : Bool := false
  deriving DecidableEq, Repr

/-- An MX block awaiting its group's scale line (R67). -/
structure MxBlock where
  bytes : BitVec 256
  scale : Byte
  /-- The elements that are poisoned results (R80). -/
  poison : BitVec 32
  deriving DecidableEq, Repr

/-- An output port (R65, R66, R69). -/
structure OutPort where
  /-- Router credits held (R65). DESIGN CHOICE 16 [10]. -/
  credits : Nat := 16
  /-- VEC-mode output stage (R69). -/
  stage : List OutLine := []
  /-- A packet has begun on the port (R66). -/
  opened : Bool := false
  /-- Tokens retired since the packet began (R66). -/
  tokens : Nat := 0
  /-- MX blocks of the packet's open group (R67). -/
  blocks : List MxBlock := []
  /-- The run whose results the port sends, those it has staged in it, and the first of the packet (R307 STEP and
  OFFSET). 0. -/
  run : Nat := 0
  elems : Nat := 0
  hdrAt : Nat := 0
  deriving DecidableEq, Repr

/-- A selected token awaiting its precise-sampling entry (R430, R431). -/
structure SamplePend where
  token : BitVec 48
  enq : BitVec 64
  uop : BitVec 5
  fromChute : Bool
  poison : Bool
  deriving DecidableEq, Repr

/-- A closed window set (R53): its accumulators at row-major result index, the anchor it used, the tokens it took and
its pending samples. -/
structure Tile where
  accs : Tab Acc := []
  anchor : BitVec 16 := 0
  /-- The binary32 sums of FP32 transport, in place of the accumulators (R43). -/
  f32 : Option (Tab (BitVec 32)) := none
  /-- The tile is a share of an all-reduce, sent to every partner (R308). -/
  share : Bool := false
  /-- The run the tile closed in, and its first element among those of the run (R307). -/
  run : Nat := 0
  base : Nat := 0
  tokens : Nat := 0
  samples : List SamplePend := []
  deriving DecidableEq, Repr

/-- An output group being emptied (R54, R55): its tiles and how many lines have left. -/
structure OutGroup where
  tiles : List Tile := []
  sent : Nat := 0
  deriving DecidableEq, Repr

/-- The VEC token being issued (R71, R74): the issue index and the vectors latched for it. -/
structure VecTok where
  uop : Nat := 0
  ins : List Vec := []
  /-- Poisoned lanes of each port's vector, and of MRD's (R80). -/
  inPois : List (BitVec 64) := []
  mrd : Vec := 0
  mrdPois : BitVec 64 := 0
  enq : BitVec 64 := 0
  fromChute : Bool := false
  /-- Time of the token's first output line, or of its last manger write (R430). -/
  outAt : Option (BitVec 64) := none
  wroteOut : Bool := false
  /-- A result of the token came out poisoned (R431 POISON), and issue has held for an output port (R69, R431 UOP). -/
  outPois : Bool := false
  heldOut : Bool := false
  /-- The pass the token belongs to (R102). -/
  pass : Nat := 0
  deriving DecidableEq, Repr

/-- One logical stall [6]. -/
structure Stall where
  /-- STALL_STATE.STATE, 4 bits (03 registers). Reset 0 OFF. -/
  st : StallState := .off
  /-- ACTIVE_SLOT, ACTIVE_VALID, SHADOW_VALID (03 registers, R77). Reset 0. -/
  activeSlot : Bool := false
  activeValid : Bool := false
  shadowValid : Bool := false
  /-- The FAILED mark of R81. -/
  failed : Bool := false
  /-- The two configuration slots (R77). DESIGN CHOICE 0 [3]. -/
  slot0 : Slot := {}
  slot1 : Slot := {}
  /-- STALL_SWAP_COUNT.SWAPS (03 registers). Reset 0. -/
  swaps : BitVec 16 := 0
  /-- STALL_NUM_STATUS: INEXACT, OVERFLOW, NAN_OUT, INF_OUT, SATURATED, POISON_IN, POISON_OUT (R56, R80). Reset 0. -/
  num : BitVec 7 := 0
  /-- STALL_BANK_CONFLICT.WAITS (R59). Reset 0. -/
  waits : BitVec 32 := 0
  /-- STALL_TOKEN: the count of tokens retired, and the HI latch (R49). Reset 0. -/
  tokens : BitVec 48 := 0
  tokenHi : BitVec 16 := 0
  /-- Input ports IN0 to IN3 (R65). Empty. -/
  inp : Tab InPort := []
  /-- Output ports OUT0 to OUT3 (R65). Empty. -/
  outp : Tab OutPort := []
  /-- Address generators AG0 to AG2: the position of each in its nest, counted in index tuples (R61). Reset 0. -/
  ag0 : Nat := 0
  ag1 : Nat := 0
  ag2 : Nat := 0
  /-- Pass index (R102). Reset 0. -/
  pass : Nat := 0
  /-- The anchor in force, whether one has arrived, and whether it came poisoned (R70). DESIGN CHOICE 0 [3]. -/
  anchor : BitVec 16 := 0
  anchorOk : Bool := false
  anchorPois : Bool := false
  /-- The open window set (R53), K steps taken into it, and its pending samples. Cleared. -/
  win : Tab Acc := []
  tileToks : Nat := 0
  tileSamples : List SamplePend := []
  /-- Binary32 partial sums received for the open tile (R43), and the tile whose K steps are done and whose partial sums
  are not all there (R42). None. -/
  psum : Tab (BitVec 32) := []
  join : Option Tile := none
  /-- The number of the tile that partial sums enter now and of the tiles closed in the run, counted from 0; the
  elements that came for a later tile; the elements that droves have brought for each tile (R42, R308). 0, none. -/
  tileNo : Nat := 0
  runTile : Nat := 0
  early : List PartElems := []
  got : Tab Nat := []
  /-- Results of an all-gather by element of the drove's vector, elements gathered in OFS, and how many of each output
  group are there (R308, R309). None. -/
  gath : Tab Gathered := []
  gathAcc : Tab Acc := []
  gathN : Tab Nat := []
  /-- The closed set waiting for the converter, the tiles of the open MX output group (R55), and the group being
  emptied (R54). None. -/
  closed : Option Tile := none
  conv : List Tile := []
  out : Option OutGroup := none
  /-- V0 to V23 with a poison mask per lane, ACC0 to ACC7, and the 64 lane accumulators (R71). DESIGN CHOICE 0 [3]. -/
  vregs : Tab Vec := []
  vpois : Tab (BitVec 64) := []
  sacc : Tab Acc := []
  lacc : Tab Acc := []
  /-- The VEC token in flight (R71). None. -/
  vtok : Option VecTok := none
  /-- The step of R78 a swap has reached, 0 with none. -/
  swapStep : Nat := 0
  /-- Manger words corrected on read and not yet written back (R60), as byte offsets. None. -/
  wb : List (BitVec 18) := []
  deriving DecidableEq, Repr

/-- A line the mesh carries to a stall's input port, or to the SINK of a stall's output port (R65, R97). -/
structure StrLine where
  toSink : Bool
  /-- Destination stall and port; for a sink, the source's. -/
  t : StallId
  port : PortId
  line : TLine
  deriving DecidableEq, Repr

/-! ### Harnesses and pens (04_harness_and_pens.md) -/

/-- A route record (R96). -/
structure Route where
  kind : BitVec 8
  srcPort : BitVec 8
  srcStall : BitVec 16
  dst : BitVec 16
  dstPort : BitVec 8
  fanout : BitVec 8
  flags : BitVec 16
  doneBind : BitVec 16
  linesPerPass : BitVec 32
  dataOff : BitVec 64
  scaleOff : BitVec 64
  deriving DecidableEq, Repr

/-- A chute-binding record (R98). -/
structure Binding where
  role : BitVec 8
  port : BitVec 8
  stall : BitVec 16
  chute : BitVec 32
  depth : BitVec 8
  storage : BitVec 8
  seg : BitVec 16
  high : BitVec 32
  low : BitVec 32
  idle : BitVec 32
  flowPin : BitVec 8
  deriving DecidableEq, Repr

/-- A memory segment descriptor (R101). -/
structure Segment where
  base : BitVec 64
  size : BitVec 64
  stride : BitVec 64
  passes : BitVec 16
  access : BitVec 8
  deriving DecidableEq, Repr

/-- An operand descriptor of a prepass plan (R104). -/
structure Operand where
  kind : BitVec 8
  seg : BitVec 16
  rows : BitVec 32
  base : BitVec 64
  rowStride : BitVec 64
  kStride : BitVec 32
  deriving DecidableEq, Repr

/-- A prepass plan (R103), with the device address of each static table (R104). -/
structure Plan where
  node : BitVec 16
  scope : BitVec 8
  pair : BitVec 8
  kCount : BitVec 32
  passCount : BitVec 16
  trigger : BitVec 16
  trigCount : BitVec 16
  drove : BitVec 32
  contrib : List Nat
  a : Operand
  b : Operand
  tableA : Nat
  tableB : Nat
  deriving DecidableEq, Repr

/-- A loaded harness: what a bank of R110 holds. -/
structure Harness where
  id : BitVec 64 := 0
  routes : List Route := []
  binds : List Binding := []
  segs : List Segment := []
  plans : List Plan := []
  /-- Record i is placed on stall `place[i]` (R89). -/
  place : List StallId := []
  /-- The logical dies that each stream route between dies crosses, by its index (R89). -/
  paths : List (Nat × List Nat) := []
  deriving DecidableEq, Repr

/-- PEN_STATE.STATE (R114). -/
inductive PenState
  | free | loading | ready | running | draining | stopped | faulted
  deriving DecidableEq, Repr

/-- PEN_STATE.SHADOW (R121). -/
inductive ShadowState
  | empty | loading | valid
  deriving DecidableEq, Repr

/-- A header of phase MAX (R307, R310): its STEP, SOURCE and maximum, and whether it came poisoned. -/
structure MaxHeader where
  step : BitVec 32
  source : BitVec 6
  eMax : Option Int
  pois : Bool
  deriving DecidableEq, Repr

/-- Progress of one prepass plan (R105, R106, R310). -/
structure PlanRun where
  /-- Run count p (R105). -/
  runs : Nat := 0
  /-- Trigger packets counted (R106). -/
  trig : Nat := 0
  /-- The drove of maxima in progress (R310, R106): waiting, the own maximum and whether a line was poisoned, and the
  headers received. -/
  waiting : Bool := false
  eMax : Option Int := none
  pois : Bool := false
  rx : List MaxHeader := []
  /-- Partners that the own maximum has yet to be sent to (R140). None. -/
  due : List (BitVec 6) := []
  deriving DecidableEq, Repr

/-- One pen (R83, R121). -/
structure Pen where
  /-- PEN_STATE (R121). Reset 0. -/
  st : PenState := .free
  /-- The grant has been checked and is held (R83). -/
  granted : Bool := false
  aborted : Bool := false
  shadow : ShadowState := .empty
  result : BitVec 8 := 0
  /-- PEN_CTRL.DRAIN_LIMIT, microseconds. Reset 100. PMU_USER. Reset 0. -/
  drainLimit : BitVec 17 := 100
  pmuUser : Bool := false
  /-- PEN_LOAD_DETAIL. Reset 0. -/
  detIndex : BitVec 16 := 0
  detSection : BitVec 3 := 0
  /-- PEN_CONTAINER, PEN_GRANT_DIES, PEN_GRANT_CHUTES, PEN_MEM_BASE, PEN_MEM_SIZE (R121). Reset 0. -/
  container : BitVec 64 := 0
  dies : BitVec 64 := 0
  chutes : BitVec 17 := 0
  memBase : BitVec 64 := 0
  memSize : BitVec 64 := 0
  /-- PEN_ABORT_TOKENS, PACKETS, TILES, LINES (R117). Reset 0. -/
  abTokens : BitVec 32 := 0
  abPackets : BitVec 16 := 0
  abTiles : BitVec 16 := 0
  abLines : BitVec 32 := 0
  /-- Packets rewound and tokens discarded by stall faults since the last drain or abort (R81, R117). 0. -/
  faultPackets : Nat := 0
  faultTokens : Nat := 0
  /-- The state the load in progress came from (R114). -/
  from_ : PenState := .free
  /-- The harness banks (R110, R112) and which is active. Empty. -/
  bank0 : Harness := {}
  bank1 : Harness := {}
  bank2 : Harness := {}
  curBank : BitVec 2 := 0
  /-- Prepass plan progress, per plan (R105). -/
  plans : Tab PlanRun := []
  /-- A swap is in progress (R112). -/
  swapping : Bool := false
  deriving DecidableEq, Repr

/-- The load the loader is carrying out (R109, R110): its pen, whether it is a SHADOW load, the header it read and the
placement. -/
structure LoadJob where
  pen : PenId
  isShadow : Bool
  hdr : BitVec 1024 := 0
  place : List StallId := []
  deriving DecidableEq, Repr

/-- The sink fed by a stall's output port (R97, R102). -/
structure Sink where
  pass : Nat := 0
  /-- Data lines of this pass written, and data bytes and scale bytes written since the pass began. -/
  lines : Nat := 0
  scaleBytes : Nat := 0
  /-- The scale line of the group being received, and the data lines of the group so far (R67). -/
  scale : Option TLine := none
  grpLines : Nat := 0
  /-- The pass's last data line has reached memory and its notice is due. -/
  notice : Bool := false
  /-- The notice has been offered to its chute and is committed once none of it waits there (R102). -/
  offered : Bool := false
  deriving DecidableEq, Repr

/-- An AUTO anchor line on its way to a contributor (R106). -/
structure AnchorMsg where
  t : StallId
  anchor : BitVec 16
  poison : Bool
  deriving DecidableEq, Repr

/-! ### Chutes (05_chutes.md) -/

/-- A producer's identity: SRC_KIND, SRC_DEV and SRC_ID (R153). -/
structure Source where
  kind : BitVec 2 := 0
  dev : BitVec 6 := 0
  id : BitVec 14 := 0
  deriving DecidableEq, Repr

/-- CHUTE_CFG.STATE (R144). -/
inductive ChuteState
  | disabled | enabled | disabling
  deriving DecidableEq, Repr

/-- PSTAT (R133), in the order of its codes. -/
inductive PStat
  | ok | flushed | flushedNew | aborted | poisoned | tooLong | refused | orphan
  deriving DecidableEq, Repr

/-- A chute's consumer endpoint (R123). -/
inductive Consumer
  | none
  | stall (t : StallId) (p : PortId)
  | engine (p : PenId)
  deriving DecidableEq, Repr

/-- A word waiting to open a packet or waiting for space (R129, R130). -/
structure WaitWord where
  src : Source
  w : ChuteWord
  deriving DecidableEq, Repr

/-- One chute: its descriptor (R155) and what the rules imply behind it. -/
structure Chute where
  /-- CHUTE_CFG (R155). Reset 0. -/
  st : ChuteState := .disabled
  depth : BitVec 5 := 0
  stack : Bool := false
  eventEn : Bool := false
  flowEn : Bool := false
  flowPin : BitVec 3 := 0
  remoteOk : Bool := false
  /-- CHUTE_OWNER (R155). Reset 0. -/
  pen : BitVec 6 := 0
  penValid : Bool := false
  func : BitVec 4 := 0
  vanished : BitVec 16 := 0
  /-- CHUTE_BASE (R155). Reset 0. -/
  base : BitVec 64 := 0
  /-- WP, CP, RP, MP, FP (R126), WSLOT (R127), OPEN. Reset 0. -/
  wp : BitVec 21 := 0
  cp : BitVec 21 := 0
  rp : BitVec 21 := 0
  mp : BitVec 21 := 0
  fp : BitVec 21 := 0
  wslot : BitVec 2 := 0
  opened : Bool := false
  /-- CHUTE_HIGH_WM, CHUTE_LOW_WM, CHUTE_IDLE (R138, R135). Reset 0. -/
  high : BitVec 21 := 0
  low : BitVec 21 := 0
  idle : BitVec 32 := 0
  /-- CHUTE_STATUS (R155). Reset 0. -/
  xoff : Bool := false
  hwmSeen : Bool := false
  lwmSeen : Bool := false
  pstat : PStat := .ok
  crossings : BitVec 16 := 0
  /-- CHUTE_OPEN: the source of the open packet (R129). Reset 0. -/
  src : Source := {}
  /-- Sources being discarded (DISCARD, R132) and sources with FLUSH_PENDING (R142). None. -/
  discards : List Source := []
  flushes : List Source := []
  /-- CHUTE_REMOTE_SRC (R140). Reset 0. -/
  remoteSrc : BitVec 64 := 0
  /-- The line under construction, the words of the open packet, and whether one carried POISON (R127, R132). -/
  lineBuf : Line := 0
  words : Nat := 0
  openPois : Bool := false
  /-- The tag of the line at each buffer index (R128). -/
  tags : Tab (BitVec 8) := []
  /-- The end pointer and commit time of each packet not yet freed (R431). -/
  commits : List (BitVec 21 × BitVec 64) := []
  /-- FIRST words waiting to open a packet, and words of the open packet waiting for space (R129, R130). -/
  waiting : List WaitWord := []
  spaceWait : List WaitWord := []
  /-- The sources whose FIRST word waits, a remote OPEN's too, in their order of arrival (R129). -/
  order : List Source := []
  /-- The source whose open packet DISABLE_LIMIT cut off, and when (R154). -/
  cut : Option (Source × BitVec 64) := none
  /-- The consumer endpoint (R123). -/
  consumer : Consumer := .none
  /-- The link that brought the last remote packet to open (R404 ADDR of SYS_INTAKE): the MODEL's own field. 0. -/
  rxLink : BitVec 6 := 0
  deriving DecidableEq, Repr

/-- A doorbell slot (R156). Reset 0. -/
structure Doorbell where
  w : Word16 := 0
  result : BitVec 3 := 0
  pstat : PStat := .ok
  deriving DecidableEq, Repr

/-- The chute registers of a logical die (R157): DISABLE_LIMIT, reset 100; ABORT_LINES, reset 0. -/
structure ChuteDie where
  limit : BitVec 17 := 100
  abortLines : BitVec 32 := 0
  deriving DecidableEq, Repr

/-! ### Memory (06_memory.md) -/

/-- MH_STATUS.STATE (06 registers). -/
inductive HubState
  | init | online | lost | excluded
  deriving DecidableEq, Repr

/-- One memory hub and its stack. -/
structure HubS where
  /-- MH_STATUS (06 registers). Reset 0. SUSPECT is computed from the stack channel. -/
  st : HubState := .init
  /-- The hub's regulator domain is enabled (R371). Reset 0. -/
  powered : Bool := false
  band : BitVec 3 := 0
  refresh : BitVec 2 := 0
  modHalf : BitVec 8 := 0
  modFailed : BitVec 8 := 0
  wipeDone : Bool := false
  /-- MH_CTRL (06 registers). Reset 1, 12, 0. -/
  scrubEn : Bool := true
  scrubHours : BitVec 8 := 12
  readmit : Bool := false
  /-- MH_SCRUB_POS (R170), MH_CE_COUNT, MH_UC_COUNT, MH_ERR_ADDR. Reset 0. -/
  scrubPos : BitVec 64 := 0
  ce : BitVec 32 := 0
  uc : BitVec 32 := 0
  errAddr : BitVec 64 := 0
  /-- The rate the hub will use from the next refresh command (R169). Reset 0. -/
  nextRefresh : BitVec 2 := 0
  /-- Lines whose corrected data awaits its write-back slot (R161), and times of newly poisoned lines (R172). None. -/
  wb : List Nat := []
  poisonedAt : List (BitVec 64) := []
  deriving DecidableEq, Repr

/-- A request to a hub that waits in the panel network while the hub's edge die is replaced (R174): a read of `n`
bytes, or bytes written, from a device address, `errs` symbols of the line in error; `who` sent a write through its
BAR4. `line` is a line that a chute stores, which nothing answers. -/
inductive HubReq
  | read (a n errs : Nat)
  | line (a : Nat) (bs : List Byte)
  | write (a : Nat) (bs : List Byte) (poison : Bool) (errs : Nat) (who : Option Func)
  deriving DecidableEq, Repr

/-- A doorbell command that waits for its function's earlier BAR4 writes (R331). -/
structure HeldBell where
  f : Func
  c : ChuteId
  op : Nat
  w : ChuteWord
  deriving DecidableEq, Repr

/-- The memory system. -/
structure MemSys where
  /-- Device memory by device address (R164). An unlisted byte reads 0: the wipe of R175 [12]. -/
  mem : Mem := []
  /-- POISON tags by line number (R160). Clear. -/
  poison : Tab Bool := []
  /-- Check symbols inverted by an injection, by line number (R413). None. -/
  inj : Tab (BitVec 3) := []
  /-- Hubs 0 to 23. -/
  hubs : Tab HubS := []
  /-- Requests that wait for a hub whose edge die is replaced, oldest first (R174). None. -/
  waiting : List HubReq := []
  /-- Doorbell commands behind BAR4 writes that wait, oldest first (R331). None. -/
  bells : List HeldBell := []
  deriving DecidableEq, Repr

/-! ### Panel network (07_panel_network.md) -/

/-- PNET_SITE.STATE (R191). -/
inductive SiteState
  | spare | activating | active | degraded | retiring | fenced | control
  deriving DecidableEq, Repr

/-- One site (R9, R191). -/
structure SiteS where
  st : SiteState := .active
  rev : BitVec 4 := 0
  readmit : Bool := false
  repairs : BitVec 8 := 0
  cap : BitVec 64 := 0
  /-- A capability word has arrived since the reset (R185). -/
  capKnown : Bool := false
  modHalf : BitVec 18 := 0
  modFailed : BitVec 18 := 0
  /-- Redundant lanes in use, 0 to 4, in the receive direction of each of the site's modules, and at 18 + m in that of
  the far end of module m where it is a hub's or an engine's (R187, R188). None. -/
  modReps : Tab (BitVec 3) := []
  /-- The site's regulator domain is enabled (R11, R371). -/
  powered : Bool := false
  /-- A DIE_TEST runs on the site (R416). -/
  testing : Bool := false
  deriving DecidableEq, Repr

/-- The reset value of site `p`: row 4 holds the spares and, at 35 and 36, the tack and host die (R11); the other rows
hold the active dies (R10). -/
def SiteS.resetAt (p : Nat) : SiteS :=
  if p = 35 ∨ p = 36 then { st := .control }
  else if p / 8 = 4 then { st := .spare }
  else {}

/-- PNET_LMAP (R12, 07 registers). -/
structure LmapE where
  site : BitVec 7
  empty : Bool := false
  deriving DecidableEq, Repr

/-- The reset value of PNET_LMAP for logical die `d`: the site of R10. -/
def LmapE.resetAt (d : Nat) : LmapE :=
  { site := BitVec.ofNat 7 (if d / 8 ≤ 3 then d else d + 8) }

/-- A replacement in progress (R193): the die, the site it leaves, the last step completed, the spare chosen, the spares
that have failed, and the halves found at step 6. The die's column chooses the spares (R192). -/
structure Repl where
  die : Die
  site : Site
  step : Nat
  spare : Option Nat := none
  tried : List Nat := []
  half : BitVec 18 := 0
  deriving DecidableEq, Repr

/-- What a router table was computed from (R182): the logical numbers held, and the FAILED edges. -/
structure RouteBasis where
  held : BitVec 64 := BitVec.allOnes 64
  failedEdges : List (Nat × Nat) := []
  deriving DecidableEq, Repr

/-- A packet in the mesh (R180). -/
structure MeshPkt where
  cls : MeshClass
  src : Die
  dst : Die
  here : Die
  payload : Line
  deriving DecidableEq, Repr

/-- The panel network and the replacement engine. -/
structure Pnet where
  /-- PNET_CTRL.AUTO_RETIRE_STALLS. Reset 8. -/
  autoRetire : BitVec 5 := 8
  /-- PNET_STATUS.RESULT and FABRIC_NUM (R186). Reset 0. -/
  result : BitVec 4 := 0
  fabricNum : BitVec 8 := 0
  /-- Sites 0 to 71, and PNET_LMAP 0 to 63. -/
  sites : Tab SiteS := []
  lmap : Tab LmapE := []
  /-- The replacement in progress, and the triggers waiting in arrival order, as logical dies (R193). -/
  repl : Option Repl := none
  queue : List Die := []
  /-- Router tables by 4 d + class (R182), the tables being switched to, and whether a switch is on (R183). -/
  tabs : Tab RouteBasis := []
  want : RouteBasis := {}
  switching : Bool := false
  /-- Packets in the mesh, oldest first (R180). -/
  packets : List MeshPkt := []
  /-- Packets whose injection waits for a reservation, oldest first (R180). -/
  injWait : List MeshPkt := []
  /-- By 4 d + direction: the class that used the edge last, of REQ, RSP and STR, and the module that did (R180, R181).
  0. -/
  rr : Tab (BitVec 2) := []
  stripe : Tab (BitVec 5) := []
  /-- By 18 q + m, for unit q of R400 and module m of its die: the band whose UCIe timing margins its end of the module
  uses, from its last training (R394). 0. -/
  margins : Tab (BitVec 3) := []
  /-- Modules retraining, as site and module (R187). -/
  retraining : List (Nat × Nat) := []
  /-- The substitutions of the sparing map: logical die and site (R191). -/
  subs : List (Nat × Nat) := []
  deriving DecidableEq, Repr

/-! ### Optical engines (08_optical_engine.md) -/

/-- OE_LASER_STAT.STATE (R203). -/
inductive LaserState
  | off | warming | ready | active | spent | failed
  deriving DecidableEq, Repr

/-- One laser (R200 to R203). -/
structure Laser where
  st : LaserState := .off
  bias : BitVec 10 := 0
  ageWarn : Bool := false
  locked : Bool := false
  /-- Control-clock cycles of the hour in progress, spent READY or ACTIVE (R202). 0. -/
  part : Nat := 0
  /-- OE_SPARE_USED has been raised for a laser that goes on for want of a standby (R217). False. -/
  noSpare : Bool := false
  /-- The laser's own heater, in steps of its loop (R201). DESIGN CHOICE 0 [3]. -/
  heater : Int := 0
  deriving DecidableEq, Repr

/-- OE_RING.STATE (R209). -/
inductive RingState
  | idle | search | locked | frozen | failed
  deriving DecidableEq, Repr

/-- One ring (R204 to R209, R218, R220). -/
structure Ring where
  /-- OE_RING (08 registers). Reset 0; PILOT_RESULT 3. -/
  heater : BitVec 16 := 0
  st : RingState := .idle
  silenced : Bool := false
  rail : Bool := false
  mislock : Bool := false
  pilot : BitVec 4 := 0
  pilotResult : BitVec 2 := 3
  /-- The lock loop's integrator in mW (R206, R208). DESIGN CHOICE 0 [3]. -/
  integ : Rat := 0
  /-- The lock code held for the running search to exclude (R220). None. -/
  bad : Option Nat := none
  /-- The start code of the running or last search (R220, R221). DESIGN CHOICE 0 [3]. -/
  start : Nat := 0
  /-- Runs of MATCH and MISMATCH evaluations (R218). 0. -/
  matches_ : Nat := 0
  mismatches : Nat := 0
  /-- The recovery step of R220 reached, 0 with none, the logical lane it took off the ring, and the spare that lane
  moved to (none when it was dropped). -/
  recStep : Nat := 0
  recLane : Option Nat := none
  movedTo : Option Nat := none
  /-- Pilot evaluations still to discard since the ring's light returned (R218). 0. -/
  skip : Nat := 0
  deriving DecidableEq, Repr

/-- One activity slot (R211): the power estimate in units of 25 mW, the filtered value in W, the last SEQ, and whether
the estimate is held. -/
structure PSlot where
  p : Int := 0
  y : Rat := 0
  seq : BitVec 4 := 0
  held : Bool := false
  silent : Bool := false
  deriving DecidableEq, Repr

/-- A logical lane of a link moved or dropped by the sparing of a wavelength (R215, R216). -/
structure MovedLane where
  wave : Wave
  port : BitVec 3
  lane : Nat
  /-- The spare wavelength it moved to; none when it was dropped. -/
  spare : Option Nat
  deriving DecidableEq, Repr

/-- OE_STATUS.STATE (R223). -/
inductive OeState
  | off | lasers | rings | ready | lost
  deriving DecidableEq, Repr

/-- One optical engine with its laser die. -/
structure OeS where
  /-- OE_STATUS (08 registers). Reset 0. -/
  st : OeState := .off
  /-- The domains of the electronics and of the laser die are enabled (R371). Reset 0. -/
  powered : Bool := false
  laserOn : Bool := false
  band : BitVec 3 := 0
  /-- OE_CTRL. Reset 1, 1, 1, 0x20. -/
  ffEn : Bool := true
  xtEn : Bool := true
  autoSpare : Bool := true
  loopKi : BitVec 8 := 0x20
  /-- OE_SPARE_STATUS. Reset 0. -/
  spStep : BitVec 4 := 0
  spWave : BitVec 4 := 0
  spResult : BitVec 3 := 0
  /-- Sparings waiting, as wavelengths (R224), and the lanes moved or dropped by the one in progress (R216). -/
  spQueue : List Wave := []
  moved : List MovedLane := []
  /-- Lasers 0 to 31 and, per wavelength, whether the switch passes LS (R200). -/
  lasers : Tab Laser := []
  switchLs : BitVec 16 := 0
  /-- Rings 0 to 255. -/
  rings : Tab Ring := []
  /-- OE_MARGIN near and far by 16 p + i. Reset 0x8000. -/
  near : Tab (BitVec 16) := []
  far : Tab (BitVec 16) := []
  /-- Consecutive reports with a low far margin, per port and lane, and per port (R214). 0. -/
  lowLane : Tab Nat := []
  lowPort : Tab Nat := []
  /-- OE_XT by k 768 + b 256 + 16 i + c, its flash value, and OE_LOCK_OFFSET, OE_FF_GAIN, OE_FF_TAU, OE_BAND tables.
  flash: DESIGN CHOICE 0 [14]. -/
  xt : Tab (BitVec 16) := []
  xtFlash : Tab (BitVec 16) := []
  lockOff : Tab (BitVec 16) := []
  ffGain : Tab (BitVec 16) := []
  ffTau : Tab (BitVec 16) := []
  bandRing : Tab (BitVec 16) := []
  bandLaser : Tab (BitVec 16) := []
  bandEq : Tab Byte := []
  /-- Start codes and equaliser sets of an applied save record, in place of the band tables for this boot (R384). -/
  saveRing : Tab (BitVec 16) := []
  saveEq : Tab Byte := []
  useSave : Bool := false
  /-- Activity slots 0 to 24 (R211). -/
  slots : Tab PSlot := []
  /-- Scans in a row with every reading 3 °C or more below the band's lower edge (R222, R393). 0. -/
  cool : Nat := 0
  deriving DecidableEq, Repr

/-! ### Optical lanes (09_optical_lanes.md) -/

/-- LINK_STATE.STATE (R239), in the order of its codes. -/
inductive LinkState
  | detect | train | align | exchange | active | retrain | hold | down
  deriving DecidableEq, Repr

/-- One receive lane (R249). -/
structure Lane where
  /-- LINK_LANE. Reset LOS 1, LOL 1, rest 0. -/
  los : Bool := true
  lol : Bool := true
  bitLock : Bool := false
  wordLock : Bool := false
  deskewed : Bool := false
  rxLane : BitVec 4 := 0
  idMis : Bool := false
  phase : BitVec 6 := 0
  stuffErr : BitVec 8 := 0
  /-- LINK_LANE_EQ. Reset 0; EQ_HELD 1. -/
  tap1 : BitVec 8 := 0
  tap2 : BitVec 8 := 0
  tap3 : BitVec 8 := 0
  /-- LINK_LANE_SLIP: OFFSET and SYNC_HITS. Reset 0. -/
  offset : BitVec 5 := 0
  hits : BitVec 4 := 0
  /-- Slips of the lane search in progress (R237). 0. -/
  slips : Nat := 0
  /-- A lane-identifier mismatch has been reported to the partner (R219). False. -/
  misSent : Bool := false
  /-- Deskew delay in UI (R228, R237), and consecutive agreeing markers (R238). 0. -/
  delay : Int := 0
  markers : Nat := 0
  /-- Declared failed: out of the lane map until the next training (R235). -/
  out : Bool := false
  deriving DecidableEq, Repr

/-- A partner's identity and offer, from its capability message (R243). -/
structure Partner where
  serial : BitVec 64 := 0
  dev : BitVec 6 := 0
  port : BitVec 6 := 0
  manager : Bool := false
  verMax : BitVec 3 := 0
  session : BitVec 32 := 0
  deriving DecidableEq, Repr

/-- A run of identical line bits on a wavelength (R230). -/
structure LineRun where
  last : Bool := false
  len : Nat := 0
  deriving DecidableEq, Repr

/-- One link, up to its lanes and states. -/
structure LinkS where
  /-- LINK_STATE (R249). Reset 7 DOWN, rest 0. -/
  st : LinkState := .down
  version : Bool := false
  pChanged : Bool := false
  pRestarted : Bool := false
  downReason : BitVec 3 := 0
  cmdResult : BitVec 2 := 0
  /-- LINK_CTRL (R249). ENABLE from the image (0 with none); V1_ALLOW 1; HOLD_LIMIT 10. -/
  enable : Bool := false
  v1Allow : Bool := true
  holdLimit : BitVec 10 := 10
  /-- The recorded partner (R246), and whether one is recorded. Reset 0. -/
  known : Bool := false
  partner : Partner := {}
  vcs : BitVec 4 := 0
  /-- LINK_LANE_MAP: transmit role per wavelength. Reset 0xF each. LINK_RX_MASK. Reset 0. -/
  laneMap : BitVec 64 := BitVec.allOnes 64
  rxMap : BitVec 64 := BitVec.allOnes 64
  rxMask : BitVec 16 := 0
  /-- Receive lanes 0 to 15. -/
  lanes : Tab Lane := []
  /-- Transmit scrambler states: logical lane j at j, the fill generator of wavelength i at 16 + i (R229); the own SEED
  and the partner's. DESIGN CHOICE 0 [3]. -/
  scr : Tab (BitVec 31) := []
  seed : BitVec 31 := 0
  pSeed : BitVec 31 := 0
  /-- Stream bits that await a frame, first in first; how many of them belong before the slot from which the lane map
  changed; the lane map of the frames sent (R253, R281). Empty. -/
  txBits : List Bool := []
  oldBits : Nat := 0
  frameMap : BitVec 64 := BitVec.allOnes 64
  /-- The last line bit and its run per wavelength (R230), frames sent (R236), and the last frame sent per wavelength
  (R231). DESIGN CHOICE 0 [3]. -/
  runs : Tab LineRun := []
  frames : BitVec 16 := 0
  lastFrame : Tab Reg32 := []
  /-- The receive direction: scrambler states per logical lane (R229), runs of line bits per wavelength (R230), and the
  stream bits of frames received that no flit has used yet, first in first (R253). DESIGN CHOICE 0 [3]; empty. -/
  rxScr : Tab (BitVec 31) := []
  rxRuns : Tab LineRun := []
  rxBits : List Bool := []
  /-- Progress of an exchange (R244): a partner message received, one with ACK received and one sent, the GO block
  received and sent, and the rate step under way. -/
  msgRx : Bool := false
  ackRx : Bool := false
  ackTx : Bool := false
  goRx : Bool := false
  goTx : Bool := false
  rateStep : Bool := false
  /-- The exchange is held (R246, R291, R292), and the identity that awaits ACCEPT_PARTNER. -/
  held : Bool := false
  cand : Option Partner := none
  /-- The partner's V2_FLAGS and its offer of 40 Gb/s (R243). -/
  pFlags : BitVec 3 := 0
  pFast : Bool := false
  /-- The link runs at 40 Gb/s (R244). -/
  fast : Bool := false
  /-- The retrain in progress (R245), and where it stands. A FULL one: 0 TRAIN, 1 ALIGN, 2 the exchange and the rate
  step, 3 done. A QUICK one: 0 its blocks, 1 checked, with GO to be sent. -/
  kind : Option RetrainKind := none
  stage : Nat := 0
  /-- The link has been ACTIVE since reset (R302). -/
  seen : Bool := false
  deriving DecidableEq, Repr

/-! ### The Oabin link layer (10_oabin_link.md) -/

/-- A flit payload waiting in a VC queue (R263): its type (1 DATA, 2 CTRL, 3 MGMT), its payload, and the remote packet
it belongs to (R264). -/
structure TxItem where
  typ : BitVec 4
  payload : BitVec 512
  pkt : Option (Source × ChuteAddr) := none
  /-- The virtual channel it is meant for, before the mapping of R263. -/
  want : Nat := 0
  deriving DecidableEq, Repr

/-- A flit payload in a receive buffer: its type and whether it lies in the pool (R265, R267). -/
structure RxItem where
  typ : BitVec 4
  payload : BitVec 512
  pool : Bool
  deriving DecidableEq, Repr

/-- A flit of the open encrypted group, held until its TAG verifies (R285): its channel, header and plain payload. -/
structure HeldFlit where
  vc : Nat
  hdr : BitVec 32
  wire : BitVec 512
  item : RxItem
  deriving DecidableEq, Repr

/-- A lane command (R280, R281). -/
structure LaneCmd where
  id : BitVec 8
  op : BitVec 8
  lane : BitVec 8
  wave : BitVec 8
  /-- EFFECTIVE, once set (R281). -/
  eff : Option (BitVec 16) := none
  /-- Of a command of the receive direction: this side began it (R280). -/
  own : Bool := false
  deriving DecidableEq, Repr

/-- The operation timer of a remote packet (R283): its producer, chute, the sequence number of its CLOSE or ABORT once
sent, and whether the timeout has fired. -/
structure OpTimer where
  src : Source
  chute : ChuteAddr
  vc : Nat
  endSeq : Option (BitVec 12) := none
  /-- Its CLOSE or ABORT has been queued. -/
  closed : Bool := false
  fired : Bool := false
  /-- One of its lines carried POISON (R147). -/
  pois : Bool := false
  /-- A packet of another device that this one forwards (R306): the timer is the producer's. -/
  via : Bool := false
  deriving DecidableEq, Repr

/-- A remote packet arriving on a VC (R147, R306): its chute and producer, the link it is forwarded to, and whether it
was refused, so that its words are discarded. -/
structure RxPkt where
  chute : ChuteAddr
  src : Source
  fwd : Option (BitVec 6) := none
  refused : Bool := false
  deriving DecidableEq, Repr

/-- One link's link layer. -/
structure LL where
  /-- LINK_LL_STATUS (R288). Reset 0. HOLDS_TRAFFIC and LANE_BUSY are computed. -/
  synced : Bool := false
  encActive : Bool := false
  replayCount : BitVec 4 := 0
  retrainFails : BitVec 2 := 0
  timerRaised : Bool := false
  cmdResult : BitVec 2 := 0
  xoffFrom : BitVec 8 := 0
  xoffTo : BitVec 8 := 0
  /-- LINK_LL_TX_SEQ.NEXT_TX (OLDEST is computed) and LINK_LL_RX_SEQ. Reset 0. -/
  nextTx : BitVec 12 := 0
  nextRx : BitVec 12 := 0
  ackPub : BitVec 12 := 0
  /-- LINK_LL_CFG (R288). Reset 4, 100, 8, 0, 0, 0; the values in force since the last SYNC phase or exchange. -/
  replayLimit : BitVec 4 := 4
  replayTimeout : BitVec 12 := 100
  vcsMax : BitVec 4 := 8
  encEn : Bool := false
  encReq : Bool := false
  rateCap : Bool := false
  limitNow : BitVec 4 := 4
  timeoutNow : BitVec 12 := 100
  encNow : Bool := false
  encReqNow : Bool := false
  /-- OP_TIMEOUT, reset 50; DRAIN_LIMIT, reset 100. -/
  opTimeout : BitVec 14 := 50
  drainLimit : BitVec 17 := 100
  /-- LINK_LL_RTT: RTT, reset 400; XOFF_AT, reset 0. -/
  rtt : BitVec 16 := 400
  xoffAt : BitVec 10 := 0
  /-- LINK_LL_FLOW, LINK_LL_SLOT. Reset 0. -/
  credits : BitVec 13 := 0
  creditsSync : BitVec 13 := 0
  txSlot : BitVec 16 := 0
  rxSlot : BitVec 16 := 0
  /-- LINK_LL_LANE: the last lane command. Reset 0. -/
  laneOp : BitVec 2 := 0
  laneNo : BitVec 4 := 0
  laneWave : BitVec 4 := 0
  laneRes : BitVec 3 := 0
  /-- Counters (R288). Reset 0. -/
  replays : BitVec 32 := 0
  crcErr : BitVec 32 := 0
  dups : BitVec 32 := 0
  overrun : BitVec 32 := 0
  retrains : BitVec 32 := 0
  unreach : BitVec 32 := 0
  /-- The replay buffer, oldest first (R259), and the next flit of a replay in progress (R261). Empty. -/
  replay : List Flit := []
  replayPos : Option Nat := none
  /-- Transmit queues of VC 0 to 7 (R263), and receive buffers (R265, R267). Empty. -/
  txq : Tab (List TxItem) := []
  rxq : Tab (List RxItem) := []
  /-- The remote packet arriving on each VC (R147). None. -/
  rxPkt : Tab (Option RxPkt) := []
  /-- Pool entries freed since the last return (R269). 0. -/
  poolFreed : Nat := 0
  /-- Flits accepted since the last publication (R258). 0. -/
  accepted : Nat := 0
  /-- A FLOW flit is due (R262 item 3), and the previous slot carried VC0. -/
  flowDue : Bool := false
  /-- ACK_PUB has changed since the last flit that carried it (R258). -/
  ackDue : Bool := false
  lastVc0 : Bool := false
  /-- The VC that has the next turn, and per VC the packet that is part sent (R264). -/
  turn : Nat := 1
  mid : Tab (Option (Source × ChuteAddr)) := []
  /-- The SYNC phase (R271 to R273): on, partner SYNC held, this side FRESH, slots since the last SYNC, a
  last SYNC due. -/
  syncOn : Bool := false
  gotPartner : Bool := false
  fresh : Bool := true
  syncDue : Bool := false
  /-- Probes: the next number, one due, one outstanding, and an echo due (R273). -/
  probeNo : Byte := 0
  probeDue : Bool := false
  probeOut : Bool := false
  echoDue : Option Byte := none
  /-- PURGED is to be sent first after the next SYNC phase (R277). -/
  purgedDue : Bool := false
  /-- Lane commands of the transmit direction (a LANE_SET received) and of the receive direction (one with no EFFECTIVE
  waits for DESKEWED) in progress, and those queued for each: this side's requests and the partner's (R281, R282).
  None. -/
  cmdTx : Option LaneCmd := none
  cmdRx : Option LaneCmd := none
  reqQ : List LaneCmd := []
  cmdQ : List LaneCmd := []
  cmdId : BitVec 8 := 0
  /-- This side's commands that a retrain has discarded, to be issued again after it: of the transmit direction, and
  of the receive direction (R282). None. -/
  redoTx : List LaneCmd := []
  redoRx : List LaneCmd := []
  /-- DISABLE is draining (R278). -/
  draining : Bool := false
  /-- Operation timers (R283). None. -/
  ops : List OpTimer := []
  /-- The oldest flit that a retrain asked for by the link layer is to send again (R274). -/
  askedSeq : Option (BitVec 12) := none
  /-- Encryption (R284, R285): this side's last message had ENCRYPT, KEY payloads received, the keys and salts in use,
  groups counted, and the open groups. -/
  sentEnc : Bool := false
  keyMsgs : List (BitVec 496) := []
  keyTx : BitVec 256 := 0
  keyRx : BitVec 256 := 0
  saltTx : BitVec 32 := 0
  saltRx : BitVec 32 := 0
  grpTx : BitVec 64 := 0
  grpRx : BitVec 64 := 0
  openTx : List (BitVec 544) := []
  openRx : List HeldFlit := []
  /-- The new keys and salts agreed and not yet in use per direction, and the key index (R284, R285). None; 0. -/
  keyNextTx : Option (BitVec 256 × BitVec 32) := none
  keyNextRx : Option (BitVec 256 × BitVec 32) := none
  keyIdx : Byte := 0
  /-- The partner's KEY_SWITCH has come, and its new key applies from the next group (R284). -/
  switchRx : Bool := false
  /-- The flit sent in the last slot: what the transmitter put on the fibre. None. -/
  sent : Option Flit := none
  deriving DecidableEq, Repr

/-! ### Systems of many devices (11_multi_device.md) -/

/-- SYS_PEER (R315): VIA, VIA_VALID, SEEN. Reset 0. -/
structure Peer where
  via : BitVec 6 := 0
  viaValid : Bool := false
  seen : Bool := false
  deriving DecidableEq, Repr

/-- A BAR2 read outstanding (R296): its tag, device, offset, and the LO value once an 8-byte read has it (R294). -/
structure CsrRead where
  tag : BitVec 8
  dev : BitVec 6
  addr : BitVec 30
  wide : Bool
  lo : Option (BitVec 32)
  deriving DecidableEq, Repr

/-- The system registers and queues. -/
structure SysS where
  /-- SYS_ID: MGR_DEVICE, MGR_KNOWN. Reset 0. DEVICE and SIZE come from the image; MANAGER from R290. -/
  manager : Bool := false
  /-- The role has been set since the last cold reset (R290). -/
  roleSet : Bool := false
  mgrDev : BitVec 6 := 0
  mgrKnown : Bool := false
  /-- SYS_CTRL. Reset 1, 1, 0, 0. -/
  autoRoute : Bool := true
  noticeEn : Bool := true
  intakeEn : Bool := false
  intakeChute : BitVec 16 := 0
  /-- SYS_STATUS. Reset 0. -/
  twoMgr : Bool := false
  dup : Bool := false
  shuffle : Bool := false
  dropped : BitVec 16 := 0
  /-- Peers 0 to 63. -/
  peers : Tab Peer := []
  /-- Payloads held at their sources for links of an OE whose edge die is replaced, as link and virtual channel (R194).
  None. -/
  oeHeld : List (Nat × Nat × TxItem) := []
  /-- Payloads of worker control that came on a link of such an OE, as link and payload, oldest first (R194). None. -/
  ctlHeld : List (Nat × BitVec 512) := []
  /-- Relay queues per OE (R297), outstanding and stalled BAR2 reads (R296), and the next tag. -/
  relay : Tab (List (DevNum × TxItem)) := []
  reads : List CsrRead := []
  stalled : List CsrRead := []
  nextTag : BitVec 8 := 0
  /-- The ordered pairs whose group the manager knows to be empty, with the via installed (R304), and the links between
  other devices that notices and SYS_PEER reads have told it of [67]. None. -/
  empties : List (DevNum × DevNum × Option DevNum) := []
  linkCounts : List (DevNum × DevNum × Nat) := []
  /-- The producer and chute pairs whose packets this device has forwarded, and its own packets of the same producer
  number and chute, the latest last (R306): the MODEL's own field. None. -/
  forwards : List (Source × ChuteAddr) := []
  deriving DecidableEq, Repr

/-! ### The host interface (12_host_interface.md) -/

/-- HOST_FUNC_STATE.STATE (R321, R338). -/
inductive FnState
  | disabled | enabled | disabling
  deriving DecidableEq, Repr

/-- A function block (R340). -/
structure Fn where
  /-- HOST_FUNC_STATE. Reset 0. -/
  st : FnState := .disabled
  result : BitVec 4 := 0
  /-- WIPE_BUSY: the range that WIPE is wiping (R338). None. -/
  wipe : Option (Nat × Nat) := none
  /-- The grant (R320). Reset 0. -/
  pens : BitVec 64 := 0
  gbase : BitVec 8 := 0
  gcount : BitVec 9 := 0
  memBase : BitVec 64 := 0
  memSize : BitVec 64 := 0
  chans : BitVec 32 := 0
  /-- FUNC_DRAIN_LIMIT. Reset 100. -/
  drain : BitVec 17 := 100
  /-- The event ring (R328). Reset 0; LOG2 4. -/
  evqBase : BitVec 64 := 0
  evqEn : Bool := false
  evqLog2 : BitVec 5 := 4
  tail : BitVec 32 := 0
  head : BitVec 32 := 0
  ovf : Bool := false
  dropped : BitVec 16 := 0
  /-- Events dropped since the last OVERFLOW entry, an interrupt pending, and vectors 0 and 1 sent (R330). 0. -/
  lost : Nat := 0
  irq : Bool := false
  msix0 : Nat := 0
  msix1 : Nat := 0
  deriving DecidableEq, Repr

/-- The descriptor a channel executes (R332): the descriptor, its status and DONE_BYTES once known, and the H2C words
still to push. -/
structure DmaCur where
  desc : BitVec 256
  status : BitVec 8 := 0
  done : BitVec 32 := 0
  words : List Word16 := []
  deriving DecidableEq, Repr

/-- A DMA channel (R340). Reset 0; LOG2 4. `st`: 0 IDLE, 1 RUN, 2 WAIT, 3 STOPPED. -/
structure Dma where
  ring : BitVec 64 := 0
  en : Bool := false
  log2 : BitVec 4 := 4
  tail : BitVec 32 := 0
  head : BitVec 32 := 0
  st : BitVec 2 := 0
  last : BitVec 3 := 0
  cur : Option DmaCur := none
  deriving DecidableEq, Repr

/-- The host die. -/
structure HostS where
  /-- HOST_STATUS (R340). Reset 0. -/
  devState : BitVec 2 := 0
  speed : BitVec 2 := 0
  width : BitVec 5 := 0
  flit : Bool := false
  cxl : Bool := false
  cxlVer : Bool := false
  linkUp : Bool := false
  /-- The port has begun training (R334). -/
  portOn : Bool := false
  /-- Memory_Active of the CXL range registers (R318). Reset 0. -/
  memActive : Bool := false
  /-- IDE streams 0 to 4: 0 off, 1 Secure, 2 Insecure (R336). 0. -/
  ide : Tab (BitVec 2) := []
  /-- HOST_DENIED (R325). Reset 0. -/
  denied : BitVec 32 := 0
  /-- Functions 0 to 15, channels 0 to 31, VF Enable (R321). -/
  fns : Tab Fn := []
  dmas : Tab Dma := []
  vfEnable : Bool := false
  deriving DecidableEq, Repr

/-! ### Boot, life cycle, security (13_boot_and_lifecycle.md) -/

/-- The configuration image (R354). -/
structure Image where
  device : BitVec 6 := 0
  size : BitVec 7 := 0
  role : BitVec 2 := 0
  cxlEn : Bool := false
  sriovEn : Bool := false
  perstWarm : Bool := false
  pkgLimit : BitVec 16 := 0
  linkEn : BitVec 64 := 0
  deriving DecidableEq, Repr

/-- A flash command in progress (R356): whether it writes, its target, its offset and its address and length. -/
structure FlashCmd where
  write : Bool
  target : BitVec 4
  offset : BitVec 12
  addr : BitVec 64
  len : BitVec 25
  deriving DecidableEq, Repr

/-- The fuses (R1, R2, R357 to R362). DESIGN CHOICE [14]: an E640-F as shipped, PROVISIONED (R357), other fuses 0. -/
structure Fuses where
  /-- The part is an E640-Q (R1). -/
  partQ : Bool := false
  /-- Two bits per state PROVISIONED to SCRAPPED, lowest pair first (R357). -/
  lc : BitVec 8 := 3
  serial : BitVec 64 := 0
  svn : BitVec 7 := 0
  keyHash : BitVec 384 := 0
  /-- The identity seed (R357, R360); none once it is erased. DESIGN CHOICE 0 [14]. -/
  seed : Option (BitVec 256) := some 0
  /-- VTRIM per site, in mV above 550 (R372). -/
  vtrim : Tab (BitVec 8) := []
  deriving DecidableEq, Repr

/-- What the firmware reads from the flash calibration store and keeps there: its own record-keeping (R173, R191, R202,
R207) and the tables measured at test (R222). The store itself is in `State.flash`. DESIGN CHOICE empty [14]. -/
structure Cal where
  /-- Sites FENCED, substitutions (die, site), stacks excluded, laser states and hours by 32 e + n. -/
  fenced : List Nat := []
  subs : List (Nat × Nat) := []
  lostStacks : List Nat := []
  lasers : Tab LaserState := []
  hours : Tab (BitVec 32) := []
  /-- Committed crosstalk values by 12288 e + index (R207). -/
  xt : Tab (BitVec 16) := []
  /-- The tables marked "flash" of R225 by 32768 e + 4096 t + index: t 0 OE_LOCK_OFFSET, 1 OE_FF_GAIN, 2 OE_FF_TAU, 3 to
  5 the ring start codes, laser start biases and equaliser sets of OE_BAND (R222). -/
  oeTabs : Tab (BitVec 16) := []
  deriving DecidableEq, Repr

/-- R348: the mode in which the flash controller drives a device. -/
inductive SpiMode
  | s1
  | d8
  deriving DecidableEq, Repr

/-- R348: a flash device: whether its select reaches one, whether its SFDP reads correctly, the size in bytes and the
8D-8D-8D mode that SFDP gives, and the mode it is in. -/
structure SpiDev where
  present : Bool := false
  sfdpOk : Bool := false
  size : Nat := 0
  octal : Bool := false
  mode : SpiMode := .s1
  deriving DecidableEq, Repr

/-- The tack die's boot, flash and security registers. -/
structure Tack where
  /-- TACK_BOOT (R366). Reset 0. -/
  step : BitVec 4 := 0
  result : BitVec 4 := 0
  slot : Bool := false
  recovery : Bool := false
  /-- TACK_FW_VERSION: from the slot. DESIGN CHOICE 0 with none [14]. -/
  fw : BitVec 32 := 0
  runSvn : BitVec 7 := 0
  /-- TACK_RESET_CAUSE. COLD. -/
  cause : BitVec 6 := 1
  /-- TACK_CTRL: NEXT_SLOT (RWS), PERST_WARM (image). Reset 0. -/
  nextSlot : BitVec 2 := 0
  perstWarm : Bool := false
  /-- TACK_BOOT_TIME. Reset 0. TIME when the bound of R346 began to run. 0. -/
  bootTime : BitVec 16 := 0
  bootFrom : BitVec 64 := 0
  /-- TACK_FLASH_ADDR, LEN, STATUS (R366). Reset 0. -/
  flashAddr : BitVec 64 := 0
  flashLen : BitVec 25 := 0
  flashRes : BitVec 3 := 0
  flashProg : BitVec 7 := 0
  flashCmd : Option FlashCmd := none
  /-- The accepted configuration image (R354). None. -/
  image : Option Image := none
  /-- READY has been reported since the last cold reset (R344, R359). Reset 0. -/
  everReady : Bool := false
  /-- READY has been reported since the last reset of any kind (R334). Reset 0. -/
  readyNow : Bool := false
  /-- PV_MAIN is good (R369). Reset 0. -/
  mainGood : Bool := false
  /-- SEC registers (R367): DEBUG_OPEN, BUSY, RESULT, TOKEN, NONCE. Reset 0; NONCE a free value [4]. -/
  debugOpen : Bool := false
  secBusy : Bool := false
  secRes : BitVec 3 := 0
  token : BitVec 64 := 0
  nonce : BitVec 32 := 0
  /-- This device's SESSION (R342): a free value at each reset [4]. -/
  session : BitVec 32 := 0
  /-- The device holds in reset after a save (R343), and a cold reset that waits for the hold's end (R441). -/
  hold : Bool := false
  coldDue : Bool := false
  /-- The TAP instruction in force (R359). DESIGN CHOICE BYPASS [3]. -/
  tap : TapInstr := .bypass
  fuses : Fuses := {}
  cal : Cal := {}
  /-- A shutdown met a save, so the next boot writes the log store (R399). Reset 0. -/
  logDue : Bool := false
  /-- The alias key and SPDM certificate slot 0, derived at boot step 2 (R360, R361), and the key of the SPDM session
  (R360). None. -/
  aliasKey : Option (BitVec 384) := none
  slot0 : List Byte := []
  sessionKey : Option (BitVec 256) := none
  /-- A SEC command that waits for its token: its OP and target (R174, R364). None. -/
  secWait : Option (Nat × Nat) := none
  deriving DecidableEq, Repr

/-! ### Power (14_power_and_holdup.md) -/

/-- The power manager and the save path. -/
structure Pwr where
  /-- PWR_STATUS: PKG_W, HOLD_LOW. Reset 0. LEVEL and LIMITING are computed. -/
  pkgW : BitVec 11 := 0
  holdLow : Bool := false
  /-- PWR_LIMIT.LIMIT: CAP with no image (R374). -/
  limit : BitVec 11 := 1650
  /-- L_P (R375). Reset 0. -/
  lp : BitVec 6 := 0
  /-- PWR_RAILS, PWR_AUX. Reset 0. -/
  mainMv : BitVec 16 := 0
  holdMv : BitVec 16 := 0
  auxMv : BitVec 16 := 0
  /-- PWR_SAVE, PWR_SAVE_SEQ. Reset 0; SEQUENCE from MRAM. -/
  saveRes : BitVec 2 := 0
  saveReason : BitVec 2 := 0
  applied : Bool := false
  saveSeq : BitVec 32 := 0
  /-- The step of R378 a save has reached, 0 with none; its reason, and TIME at its detection (R441). -/
  saving : Nat := 0
  sagReason : BitVec 2 := 0
  sagAt : BitVec 64 := 0
  /-- PWR_ENERGY in J, and the remainder in nJ (R387). Reset 0. -/
  energy : BitVec 64 := 0
  energyRem : Nat := 0
  /-- The last 100 averages P10 in mW, newest first (R375), evaluations since the last rise, evaluations at 56 over the
  limit, and PWR_OVER_LIMIT raised (R377). -/
  p10s : List Nat := []
  sinceRise : Nat := 0
  at56 : Nat := 0
  overRaised : Bool := false
  /-- PWR_DIE.MV by site (R372, R387). Reset 0. STATE is computed. -/
  mv : Tab (BitVec 10) := []
  /-- The shadow of the save values (R380): offset, bytes, value. None. -/
  shadow : List (Nat × Nat × Nat) := []
  deriving DecidableEq, Repr

/-! ### Thermal (15_thermal.md) -/

/-- A sensor channel: THERM_DIODE and THERM_STACK (R400). `st`: 0 VALID, 1 SUSPECT, 2 OFF, 3 FAULT. Reset 0; STATE 2. -/
structure Sensor where
  temp : Int := 0
  st : BitVec 2 := 2
  dis : BitVec 2 := 0
  /-- Scans without disagreement while SUSPECT, and scans open or short (R391). 0. -/
  good : Nat := 0
  bad : Nat := 0
  /-- Consecutive scans at 110 C or more (R397). 0. -/
  hot : Nat := 0
  deriving DecidableEq, Repr

/-- THERM_UNIT (R400): T_unit in units of 0.125 C, band, ESTIMATED; scans below the band by 3 C (R393), and scans since
T4 (R396). Reset 0. -/
structure UnitT where
  temp : Int := 0
  band : BitVec 3 := 0
  est : Bool := false
  below : Nat := 0
  sinceT4 : Option Nat := none
  deriving DecidableEq, Repr

/-- The thermal monitor. -/
structure Therm where
  /-- THERM_STATUS (R400). Reset 0. SUSPECT_COUNT and HOLD are computed. -/
  tHot : Int := 0
  shutdown : Bool := false
  /-- THERM_CTRL.PIN_EN, reset 0; THERM_PIN_HIGH, reset 0x280. -/
  pinEn : BitVec 6 := 0
  pinHigh : Tab (BitVec 12) := []
  /-- Channels: diodes 0 to 223, pins 224 to 229, stack channels 230 to 253. -/
  chans : Tab Sensor := []
  /-- Units 0 to 111, and the stacks' own at 112 + s (R392). -/
  units : Tab UnitT := []
  /-- L_T (R395), scans with T_hot below 94 C, channels that hold (R396), and pin crossings reported (R398). -/
  lt : BitVec 6 := 0
  cool : Nat := 0
  holds : List Nat := []
  pinOver : BitVec 6 := 0
  deriving DecidableEq, Repr

/-! ### Faults (16_faults.md) -/

/-- A fault record (R405). Zero when none. `cls` and `first`: 0 none, 1 CE, 2 UC, 3 FE. -/
structure FRec where
  source : BitVec 16 := 0
  cause : BitVec 16 := 0
  cls : BitVec 2 := 0
  /-- The condition causes that persist (R404): ACTIVE reads 1 while there is one. -/
  conds : List (BitVec 16) := []
  escalated : Bool := false
  injected : Bool := false
  collide : Bool := false
  valid : Bool := false
  acked : Bool := false
  first : BitVec 2 := 0
  count : BitVec 16 := 0
  time : BitVec 64 := 0
  harness : BitVec 64 := 0
  addr : BitVec 64 := 0
  lastTime : BitVec 64 := 0
  pen : BitVec 6 := 0
  penValid : Bool := false
  lastCause : BitVec 16 := 0
  token : BitVec 32 := 0
  deriving DecidableEq, Repr

/-- A leaky bucket's settings (R411). -/
structure Bucket where
  threshold : BitVec 16
  leak : BitVec 16
  deriving DecidableEq, Repr

/-- The reset settings of bucket `b`: the table of R411. -/
def Bucket.resetAt (b : Nat) : Bucket :=
  match b with
  | 0 => ⟨256, 100⟩
  | 1 => ⟨64, 1⟩
  | 2 => ⟨8, 10⟩
  | 3 => ⟨4, 1000⟩
  | 4 => ⟨16, 1⟩
  | 5 => ⟨16, 1⟩
  | 6 => ⟨32, 1⟩
  | _ => ⟨1, 0⟩

/-- An injection in force (R413). -/
structure Arming where
  source : BitVec 16
  checker : BitVec 4
  mask : BitVec 8
  continuous : Bool
  deriving DecidableEq, Repr

/-- A destructive test (R416). -/
inductive Test
  | stall (t : StallId)
  | die (p : Nat)
  | stack (h : Nat)
  deriving DecidableEq, Repr

/-- The fault collector. -/
structure Flt where
  /-- Records by source (R403). -/
  recs : Tab FRec := []
  /-- The log by index 0 to 511, and FAULT_LOG_HEAD (R410). Reset 0. -/
  log : Tab FRec := []
  head : BitVec 32 := 0
  /-- The previous-boot window and how many of its entries are log entries (R410). Empty. -/
  prev : List Line := []
  prevLog : Nat := 0
  /-- FAULT_BUCKET settings, and levels by 65536 b + unit (R411). -/
  buckets : Tab Bucket := []
  levels : Tab Nat := []
  /-- HEARTBEAT_LOST, FAILED (R412, R402), and a heartbeat written since COLD_RESET_N. Reset 0. -/
  hbLost : Bool := false
  failed : Bool := false
  hbSeen : Bool := false
  /-- FAULT_INJ_SEL, FAULT_INJ_CTRL.RESULT, and the arming in force. Reset 0. -/
  injSource : BitVec 16 := 0
  injChecker : BitVec 4 := 0
  injResult : BitVec 2 := 0
  /-- FAULT_INJ_CTRL.MASK as it reads back (R413). Reset 0. -/
  injShown : BitVec 8 := 0
  arm : Option Arming := none
  /-- FAULT_TEST_STATUS.RESULT, and the running test (R416). Reset 0. -/
  testResult : BitVec 3 := 0
  test : Option Test := none
  deriving DecidableEq, Repr

/-! ### Counters (17_counters.md) -/

/-- PMU_CFG (R434). Reset 0. BAD is computed from the unit and the event. -/
structure PmuCfg where
  event : BitVec 10 := 0
  sel : BitVec 6 := 0
  selEn : Bool := false
  en : Bool := false
  ovfFreeze : Bool := false
  deriving DecidableEq, Repr

/-- One PMU window (R420): compute dies 0 to 63, OEs at 64 + e, hubs at 72 + s, the host die at 96. -/
structure Pmu where
  /-- PMU_CTRL.FREEZE, PMU_OVF. Reset 0. -/
  freeze : Bool := false
  ovf : BitVec 16 := 0
  /-- Counters, HI latches (R424) and HI staging (R425), settings. Reset 0. -/
  cnt : Tab (BitVec 48) := []
  latch : Tab (BitVec 16) := []
  stage : Tab (BitVec 16) := []
  cfg : Tab PmuCfg := []
  /-- Cycles each counter is still frozen after a change of selection (R426). 0. -/
  hold : Tab Nat := []
  /-- PMU_SAMPLE_CFG, HEAD, TAIL, DROPPED, the buffer, and tokens counted toward the period (R430). Reset 0. -/
  sCfg : BitVec 29 := 0
  sHead : BitVec 32 := 0
  sTail : BitVec 32 := 0
  sDropped : BitVec 32 := 0
  buf : Tab (BitVec 256) := []
  period : Nat := 0
  deriving DecidableEq, Repr

/-! ### Pins -/

/-- The low-speed pins (R436, R438). ALERT, SMB_ALERT_N and FLOW are functions of the rest of the state. Inputs: DESIGN
CHOICE of R439's pulls, supply and clock present [3]. -/
structure Pins where
  mgrSel : Bool := false
  perstN : Bool := false
  coldResetN : Bool := false
  pwrOk : Bool := true
  refclk : Bool := true
  saveDone : Bool := false
  /-- PV_AUX is lost, and PV_HOLD is below 7.0 V (R378, R379, R438). DESIGN CHOICE false: the device has its supplies
  [68]. -/
  auxOff : Bool := false
  holdOff : Bool := false
  /-- TRST_N: low unless something drives it (R439). -/
  trstN : Bool := false
  deriving DecidableEq, Repr

/-! ### The whole device -/

/-- The state of one E640. -/
structure State where
  /-- Commands waiting, first in first out (the block's form). Empty. -/
  pending : List Instr := []
  /-- TIME: control-clock cycles since COLD_RESET_N was released (R328, R405). Reset 0. -/
  time : BitVec 64 := 0
  /-- How many free values have been used: the MODEL's own field. DESIGN CHOICE 0 [4]. -/
  free : Nat := 0
  /-- The last response: the MODEL's own field [15]. -/
  resp : Resp := .none
  pins : Pins := {}
  /-- Logical stalls 0 to 4095 [6]. -/
  stalls : Tab Stall := []
  /-- Mangers, at 2^18 stall + byte offset (R57). An unlisted byte reads 0: the wipe of R175 [12]. -/
  manger : Mem := []
  /-- Check bits inverted by an injection, by manger word, at 2^15 stall + word (R413). None. -/
  mangerInj : Tab (BitVec 8) := []
  /-- Lines the mesh carries on stream and sink routes, oldest first (R65, R97). -/
  strq : List StrLine := []
  /-- Pens 0 to 63 and the placement tables at 4096 p + i (R121). -/
  pens : Tab Pen := []
  placement : Tab (BitVec 16) := []
  /-- Loads waiting and the load in progress (R109). -/
  loadQ : List LoadJob := []
  loadNow : Option LoadJob := none
  /-- Plans ready to run, in order: pen and plan index (R106), and anchor lines in flight. -/
  ready : List (PenId × Nat) := []
  anchors : List AnchorMsg := []
  /-- Sinks by 4 stall + port (R97). -/
  sinks : Tab Sink := []
  /-- Chutes, doorbell slots and chute die registers (R155 to R157). -/
  chutes : Tab Chute := []
  doorbells : Tab Doorbell := []
  chuteDies : Tab ChuteDie := []
  /-- Outcomes at local producer endpoints of remote chutes, by 16384 kind + id (R149). 0. -/
  epStat : Tab PStat := []
  /-- Remote chutes that have sent XOFF, by chute address (R140). None. -/
  xoffRemote : Tab Bool := []
  ms : MemSys := {}
  pnet : Pnet := {}
  oes : Tab OeS := []
  links : Tab LinkS := []
  lls : Tab LL := []
  sys : SysS := {}
  host : HostS := {}
  /-- Host memory as this device has written it, by host address (R328, R332) [16]. -/
  hostMem : Mem := []
  tack : Tack := {}
  /-- Flash bytes by flash address (R348, R349). An unlisted byte reads 0xFF: erased, DESIGN CHOICE [14]. -/
  flash : Mem := []
  /-- The devices on SPI_CS_N[0] and [1] (R348). One of 64 MiB with 8D-8D-8D on [0]: DESIGN CHOICE [68]. -/
  spi0 : SpiDev := { present := true, sfdpOk := true, size := 0x4000000, octal := true }
  spi1 : SpiDev := {}
  /-- MRAM bytes (R381). An unlisted byte reads 0: DESIGN CHOICE [14]. -/
  mram : Mem := []
  pwr : Pwr := {}
  therm : Therm := {}
  flt : Flt := {}
  pmus : Tab Pmu := []
  deriving DecidableEq, Repr

/-- The device right after a cold reset, COLD_RESET_N still low (R341, R342). -/
def State.reset : State := {}

end Sys2Proof.Machine
end

