-- ==== Sys2Proof/Machine/Tab.lean ====
section
/-! DEFINITION. Sparse tables and byte memories in canonical form: keys strictly rising, no entry equal to what an
unlisted key reads as. -/

namespace Sys2Proof.Machine

open Sys2Proof

/-- The value at `k`; an unlisted key reads `d k`. -/
def tabGet {α : Type} (d : Nat → α) : Tab α → Nat → α
  | [], k => d k
  | (j, x) :: t, k => if j = k then x else tabGet d t k

/-- The entry removed. -/
def tabErase {α : Type} (t : Tab α) (k : Nat) : Tab α := t.filter fun e => e.1 ≠ k

/-- The entry put in its place. -/
def tabPut {α : Type} : Tab α → Nat → α → Tab α
  | [], k, v => [(k, v)]
  | (j, x) :: t, k, v =>
    if j = k then (k, v) :: t else if k < j then (k, v) :: (j, x) :: t else (j, x) :: tabPut t k v

/-- `v` stored at `k`, in canonical form. -/
def tabSet {α : Type} [DecidableEq α] (d : Nat → α) (t : Tab α) (k : Nat) (v : α) : Tab α :=
  if v = d k then tabErase t k else tabPut t k v

/-- The value at `k` changed by `f`. -/
def tabUpd {α : Type} [DecidableEq α] (d : Nat → α) (t : Tab α) (k : Nat) (f : α → α) : Tab α :=
  tabSet d t k (f (tabGet d t k))

/-- Every entry from `lo` up to `hi` removed: the range reads as its defaults. -/
def tabClear {α : Type} (t : Tab α) (lo hi : Nat) : Tab α :=
  t.filter fun e => e.1 < lo || hi ≤ e.1

/-- Every entry changed by `f`, unlisted keys apart. -/
def tabMapListed {α : Type} [DecidableEq α] (d : Nat → α) (t : Tab α) (f : Nat → α → α) : Tab α :=
  (t.map fun e => (e.1, f e.1 e.2)).filter fun e => e.2 ≠ d e.1

/-- Every key is above `k`. -/
def tabAbove {α : Type} (k : Nat) (t : Tab α) : Bool :=
  t.all fun e => k < e.1

/-- The canonical form. -/
def tabWf {α : Type} [DecidableEq α] (d : Nat → α) : Tab α → Bool
  | [] => true
  | (k, v) :: t => decide (v ≠ d k) && tabAbove k t && tabWf d t

/-! ### Byte memories -/

/-- What an unlisted byte reads as: the wipe's zero (R175) [12], and `0xFF` in erased flash [14]. -/
def memDefault (_ : Nat) : Byte := 0
def flashDefault (_ : Nat) : Byte := 0xFF

/-- The canonical form of a byte memory. -/
def memWf (m : Mem) : Bool := tabWf memDefault m

/-- `n` bytes from address `a`, lowest first. -/
def memBytes (m : Mem) (a : Nat) : Nat → List Byte
  | 0 => []
  | n + 1 => tabGet memDefault m a :: memBytes m (a + 1) n

/-- Bytes stored from address `a` up. -/
def memStore (m : Mem) (a : Nat) : List Byte → Mem
  | [] => m
  | b :: bs => memStore (tabSet memDefault m a b) (a + 1) bs

/-- A little-endian number from bytes, lowest first. -/
def leNat : List Byte → Nat
  | [] => 0
  | b :: bs => b.toNat + 256 * leNat bs

/-- The `n` little-endian bytes of a number. -/
def leBytes (v : Nat) : Nat → List Byte
  | 0 => []
  | n + 1 => BitVec.ofNat 8 v :: leBytes (v / 256) n

/-- `n` bytes of a memory as a little-endian number. -/
def memNat (m : Mem) (a n : Nat) : Nat := leNat (memBytes m a n)

/-- The 64 bytes of a line. -/
def lineBytes (x : Line) : List Byte := leBytes x.toNat 64

/-- A line from its bytes. -/
def lineOf (bs : List Byte) : Line := BitVec.ofNat 512 (leNat bs)

/-- Flash bytes. -/
def flashBytes (m : Mem) (a : Nat) : Nat → List Byte
  | 0 => []
  | n + 1 => tabGet flashDefault m a :: flashBytes m (a + 1) n

/-- Bytes stored in flash from address `a` up. -/
def flashStore (m : Mem) (a : Nat) : List Byte → Mem
  | [] => m
  | b :: bs => flashStore (tabSet flashDefault m a b) (a + 1) bs

/-! ### CRC-32 (R87, R91, R350) -/

/-- One bit of the reflected IEEE 802.3 polynomial. -/
def crcBit (c : BitVec 32) : BitVec 32 := if c.getLsbD 0 then (c >>> 1) ^^^ 0xEDB88320 else c >>> 1

/-- One byte into the register. -/
def crcByte (c : BitVec 32) (b : Byte) : BitVec 32 :=
  crcBit (crcBit (crcBit (crcBit (crcBit (crcBit (crcBit (crcBit (c ^^^ b.setWidth 32))))))))

/-- PRESUMED [21]: the CRC-32 of the standard: register all ones, bits reflected, result inverted. -/
def crc32 (bs : List Byte) : BitVec 32 := ~~~(bs.foldl crcByte 0xFFFFFFFF)

end Sys2Proof.Machine
end

