-- ==== Sys2Proof/Machine/Ops.lean ====
section
/-! DEFINITION. The named reads and updates of State, and the response. -/

namespace Sys2Proof.Machine

open Sys2Proof

/-! ### Table entries -/

def State.stall (s : State) (k : Nat) : Stall := tabGet (fun _ => {}) s.stalls k
def State.setStall (s : State) (k : Nat) (v : Stall) : State :=
  { s with stalls := tabSet (fun _ => {}) s.stalls k v }
def State.updStall (s : State) (k : Nat) (f : Stall → Stall) : State := s.setStall k (f (s.stall k))

def State.pen (s : State) (k : Nat) : Pen := tabGet (fun _ => {}) s.pens k
def State.setPen (s : State) (k : Nat) (v : Pen) : State := { s with pens := tabSet (fun _ => {}) s.pens k v }
def State.updPen (s : State) (k : Nat) (f : Pen → Pen) : State := s.setPen k (f (s.pen k))

def State.sink (s : State) (k : Nat) : Sink := tabGet (fun _ => {}) s.sinks k
def State.setSink (s : State) (k : Nat) (v : Sink) : State := { s with sinks := tabSet (fun _ => {}) s.sinks k v }

def State.chute (s : State) (k : Nat) : Chute := tabGet (fun _ => {}) s.chutes k
def State.setChute (s : State) (k : Nat) (v : Chute) : State :=
  { s with chutes := tabSet (fun _ => {}) s.chutes k v }
def State.updChute (s : State) (k : Nat) (f : Chute → Chute) : State := s.setChute k (f (s.chute k))

def State.doorbell (s : State) (k : Nat) : Doorbell := tabGet (fun _ => {}) s.doorbells k
def State.setDoorbell (s : State) (k : Nat) (v : Doorbell) : State :=
  { s with doorbells := tabSet (fun _ => {}) s.doorbells k v }

def State.chuteDie (s : State) (k : Nat) : ChuteDie := tabGet (fun _ => {}) s.chuteDies k
def State.setChuteDie (s : State) (k : Nat) (v : ChuteDie) : State :=
  { s with chuteDies := tabSet (fun _ => {}) s.chuteDies k v }

def State.hub (s : State) (k : Nat) : HubS := tabGet (fun _ => {}) s.ms.hubs k
def State.setHub (s : State) (k : Nat) (v : HubS) : State :=
  { s with ms := { s.ms with hubs := tabSet (fun _ => {}) s.ms.hubs k v } }
def State.updHub (s : State) (k : Nat) (f : HubS → HubS) : State := s.setHub k (f (s.hub k))

def State.site (s : State) (k : Nat) : SiteS := tabGet SiteS.resetAt s.pnet.sites k
def State.setSite (s : State) (k : Nat) (v : SiteS) : State :=
  { s with pnet := { s.pnet with sites := tabSet SiteS.resetAt s.pnet.sites k v } }
def State.updSite (s : State) (k : Nat) (f : SiteS → SiteS) : State := s.setSite k (f (s.site k))

def State.lmapAt (s : State) (k : Nat) : LmapE := tabGet LmapE.resetAt s.pnet.lmap k
def State.setLmap (s : State) (k : Nat) (v : LmapE) : State :=
  { s with pnet := { s.pnet with lmap := tabSet LmapE.resetAt s.pnet.lmap k v } }

def State.oe (s : State) (k : Nat) : OeS := tabGet (fun _ => {}) s.oes k
def State.setOe (s : State) (k : Nat) (v : OeS) : State := { s with oes := tabSet (fun _ => {}) s.oes k v }
def State.updOe (s : State) (k : Nat) (f : OeS → OeS) : State := s.setOe k (f (s.oe k))

def State.link (s : State) (k : Nat) : LinkS := tabGet (fun _ => {}) s.links k
def State.setLink (s : State) (k : Nat) (v : LinkS) : State := { s with links := tabSet (fun _ => {}) s.links k v }
def State.updLink (s : State) (k : Nat) (f : LinkS → LinkS) : State := s.setLink k (f (s.link k))

def State.ll (s : State) (k : Nat) : LL := tabGet (fun _ => {}) s.lls k
def State.setLl (s : State) (k : Nat) (v : LL) : State := { s with lls := tabSet (fun _ => {}) s.lls k v }
def State.updLl (s : State) (k : Nat) (f : LL → LL) : State := s.setLl k (f (s.ll k))

def State.peer (s : State) (k : Nat) : Peer := tabGet (fun _ => {}) s.sys.peers k
def State.setPeer (s : State) (k : Nat) (v : Peer) : State :=
  { s with sys := { s.sys with peers := tabSet (fun _ => {}) s.sys.peers k v } }

def State.fn (s : State) (k : Nat) : Fn := tabGet (fun _ => {}) s.host.fns k
def State.setFn (s : State) (k : Nat) (v : Fn) : State :=
  { s with host := { s.host with fns := tabSet (fun _ => {}) s.host.fns k v } }
def State.updFn (s : State) (k : Nat) (f : Fn → Fn) : State := s.setFn k (f (s.fn k))

def State.dma (s : State) (k : Nat) : Dma := tabGet (fun _ => {}) s.host.dmas k
def State.setDma (s : State) (k : Nat) (v : Dma) : State :=
  { s with host := { s.host with dmas := tabSet (fun _ => {}) s.host.dmas k v } }
def State.updDma (s : State) (k : Nat) (f : Dma → Dma) : State := s.setDma k (f (s.dma k))

def State.sensor (s : State) (k : Nat) : Sensor := tabGet (fun _ => {}) s.therm.chans k
def State.unit (s : State) (k : Nat) : UnitT := tabGet (fun _ => {}) s.therm.units k

def State.frec (s : State) (k : Nat) : FRec := tabGet (fun _ => {}) s.flt.recs k
def State.setFrec (s : State) (k : Nat) (v : FRec) : State :=
  { s with flt := { s.flt with recs := tabSet (fun _ => {}) s.flt.recs k v } }

def State.bucket (s : State) (b : Nat) : Bucket := tabGet Bucket.resetAt s.flt.buckets b
def State.level (s : State) (k : Nat) : Nat := tabGet (fun _ => 0) s.flt.levels k
def State.setLevel (s : State) (k n : Nat) : State :=
  { s with flt := { s.flt with levels := tabSet (fun _ => 0) s.flt.levels k n } }

def State.pmu (s : State) (k : Nat) : Pmu := tabGet (fun _ => {}) s.pmus k
def State.setPmu (s : State) (k : Nat) (v : Pmu) : State := { s with pmus := tabSet (fun _ => {}) s.pmus k v }
def State.updPmu (s : State) (k : Nat) (f : Pmu → Pmu) : State := s.setPmu k (f (s.pmu k))

def Stall.inPort (x : Stall) (p : Nat) : InPort := tabGet (fun _ => {}) x.inp p
def Stall.setIn (x : Stall) (p : Nat) (v : InPort) : Stall := { x with inp := tabSet (fun _ => {}) x.inp p v }
def Stall.outPort (x : Stall) (p : Nat) : OutPort := tabGet (fun _ => {}) x.outp p
def Stall.setOut (x : Stall) (p : Nat) (v : OutPort) : Stall := { x with outp := tabSet (fun _ => {}) x.outp p v }

def OeS.laser (o : OeS) (n : Nat) : Laser := tabGet (fun _ => {}) o.lasers n
def OeS.setLaser (o : OeS) (n : Nat) (v : Laser) : OeS := { o with lasers := tabSet (fun _ => {}) o.lasers n v }
def OeS.ring (o : OeS) (r : Nat) : Ring := tabGet (fun _ => {}) o.rings r
def OeS.setRing (o : OeS) (r : Nat) (v : Ring) : OeS := { o with rings := tabSet (fun _ => {}) o.rings r v }
def OeS.slot (o : OeS) (n : Nat) : PSlot := tabGet (fun _ => {}) o.slots n
def OeS.setSlot (o : OeS) (n : Nat) (v : PSlot) : OeS := { o with slots := tabSet (fun _ => {}) o.slots n v }
def LinkS.lane (k : LinkS) (i : Nat) : Lane := tabGet (fun _ => {}) k.lanes i
def LinkS.setLane (k : LinkS) (i : Nat) (v : Lane) : LinkS := { k with lanes := tabSet (fun _ => {}) k.lanes i v }
def LL.txQ (x : LL) (v : Nat) : List TxItem := tabGet (fun _ => []) x.txq v
def LL.setTxQ (x : LL) (v : Nat) (q : List TxItem) : LL := { x with txq := tabSet (fun _ => []) x.txq v q }
def LL.rxQ (x : LL) (v : Nat) : List RxItem := tabGet (fun _ => []) x.rxq v
def LL.setRxQ (x : LL) (v : Nat) (q : List RxItem) : LL := { x with rxq := tabSet (fun _ => []) x.rxq v q }

/-! ### The response [15] and free values [4] -/

def State.answer (s : State) (r : Resp) : State := { s with resp := r }
def State.answerVal (s : State) (v : Nat) : State := { s with resp := .val (BitVec.ofNat 64 v) }

/-- A register read that changes the state: the state after, and the value it answers. -/
def answerRead (r : State × Nat) : State := r.1.answerVal r.2

/-- The next free value, and the state that has used it. -/
def State.freeNow (s : State) : BitVec 64 := Config.freeValue s.free
def State.useFree (s : State) : State := { s with free := s.free + 1 }

/-! ### Bits and lists -/

/-- Bits `lo` up to `lo + n - 1` of a number. -/
def bitsAt (v lo n : Nat) : Nat := v / 2 ^ lo % 2 ^ n

/-- Bit `i`. -/
def bitAt (v i : Nat) : Bool := v / 2 ^ i % 2 = 1

/-- A Boolean as a bit. -/
def bit (b : Bool) : Nat := if b then 1 else 0

/-- `v` held between two bounds. -/
def clampTo (lo hi v : Nat) : Nat := max lo (min hi v)

/-- A counter that holds at its greatest value. -/
def satAdd (n : Nat) (x : BitVec n) (k : Nat) : BitVec n := BitVec.ofNat n (min (2 ^ n - 1) (x.toNat + k))

/-- A folded effect over a list. -/
def State.forAll {α : Type} (s : State) (xs : List α) (f : State → α → State) : State := xs.foldl f s

/-- An element added at the end unless it is there. -/
def addNew {α : Type} [DecidableEq α] (xs : List α) (x : α) : List α := if x ∈ xs then xs else xs ++ [x]

/-! ### Numbering of the panel (R9 to R13) -/

/-- The site that holds logical die `d` (R12, PNET_LMAP). -/
def State.siteOf (s : State) (d : Nat) : Nat := (s.lmapAt d).site.toNat

/-- Logical die `d` is held by a site (not EMPTY). -/
def State.held (s : State) (d : Nat) : Bool := !(s.lmapAt d).empty

/-- The logical die that site `p` holds. -/
def State.dieAt (s : State) (p : Nat) : Option Nat :=
  (List.range 64).find? fun d => s.held d && s.siteOf d = p

/-- A powered die holds logical number `d` (R371). -/
def State.diePowered (s : State) (d : Nat) : Bool := s.held d && (s.site (s.siteOf d)).powered

/-- The edge die of stack `h` (R13). -/
def hubDie (h : Nat) : Nat :=
  if h ≤ 7 then h
  else if h ≤ 15 then 56 + (h - 8)
  else match h with
    | 16 => 8
    | 17 => 24
    | 18 => 32
    | 19 => 48
    | 20 => 15
    | 21 => 31
    | 22 => 39
    | _ => 55

/-- The edge die of OE `e` (R13). -/
def oeDie : Nat → Nat
  | 0 => 0
  | 1 => 16
  | 2 => 40
  | 3 => 56
  | 4 => 7
  | 5 => 23
  | 6 => 47
  | _ => 63

/-! ### Replacement (R193, R194) -/

/-- R174, R193, R194: a logical number is being replaced, from step 1 until step 10 has given it to the spare. -/
def inReplacement (s : State) (d : Nat) : Bool :=
  match s.pnet.repl with
  | some r => decide (r.die.toNat = d) && decide (r.step < 10)
  | none => false

/-- R194: requests for OE `e` are held at their sources: its edge die is replaced, or no die holds the number. -/
def oeWaits (s : State) (e : Nat) : Bool := inReplacement s (oeDie e) || !s.held (oeDie e)

/-! ### Activity slots (R15, R211) -/

/-- R211: the slot of site `p` at engine `e`: within two sites of the engine's site. -/
def activitySlot (e p : Nat) : Option Nat :=
  let q := (LmapE.resetAt (oeDie e)).site.toNat
  let dr : Int := (p / 8 : Nat) - (q / 8 : Nat) + 2
  let dc : Int := (p % 8 : Nat) - (q % 8 : Nat) + 2
  if 0 ≤ dr && dr ≤ 4 && 0 ≤ dc && dc ≤ 4 then some (5 * dr + dc).toNat else none

/-- R15, R210: an engine counts a die whose domain is disabled as drawing no power, and ends what it held of it. -/
def clearActivity (s : State) (p : Nat) : State :=
  (List.range 8).foldl (fun st e =>
    match activitySlot e p with
    | some n => st.updOe e fun o => o.setSlot n { o.slot n with p := 0, held := false, silent := false }
    | none => st) s

/-! ### The package limit (R2, R374) -/

/-- R2, R374: CAP, and a limit held between 800 W and CAP. -/
def pwrCap (s : State) : Nat := if s.tack.fuses.partQ then 1000 else 1650
def clampLimit (s : State) (w : Nat) : Nat := clampTo 800 (pwrCap s) w

end Sys2Proof.Machine
end

