-- ==== Sys2Proof/Machine/PmuOps.lean ====
section
/-! DEFINITION. Counting events in the PMU windows and writing samples (R420 to R433). -/

namespace Sys2Proof.Machine

open Sys2Proof

/-- Window numbers: die `d`, OE, hub, host die. -/
def wOe (e : Nat) : Nat := 64 + e
def wHub (h : Nat) : Nat := 72 + h
def wHost : Nat := 96

/-- R420: counters of a window. -/
def pmuCounters (w : Nat) : Nat := if w < 64 then 16 else 8

/-- Event numbers of R422. -/
def evCycles : Nat := 0x001
def evStallRun : Nat := 0x010
def evWaitIn : Nat := 0x011
def evWaitOut : Nat := 0x012
def evWaitAnchor : Nat := 0x013
def evThrottled : Nat := 0x014
def evTokens : Nat := 0x015
def evMacOps : Nat := 0x016
def evUops : Nat := 0x017
def evBankConflict : Nat := 0x018
def evSwaps : Nat := 0x019
def evIdleLines : Nat := 0x01A
def evSegReads : Nat := 0x01B
def evMeshPkt : Nat := 0x040
def evInjectHeld : Nat := 0x044
def evUcieRetry : Nat := 0x045
def evChuteWords : Nat := 0x080
def evChuteLines : Nat := 0x081
def evChuteCommits : Nat := 0x082
def evChuteRewinds : Nat := 0x083
def evChuteIdle : Nat := 0x084
def evChuteXoff : Nat := 0x085
def evMemReads : Nat := 0x100
def evMemWrites : Nat := 0x101
def evMemRmw : Nat := 0x102
def evMemCe : Nat := 0x103
def evMemScrub : Nat := 0x104
def evMemRefresh : Nat := 0x105
def evLlTx : Nat := 0x180
def evLlRx : Nat := 0x181
def evLlReplay : Nat := 0x182
def evLlCrc : Nat := 0x183
def evLlPool : Nat := 0x184
def evLlXoff : Nat := 0x185
def evLlForward : Nat := 0x186
def evRelocks : Nat := 0x1C0
def evLaneCmds : Nat := 0x1C1
def evHostRd : Nat := 0x200
def evHostWr : Nat := 0x201
def evDmaDescs : Nat := 0x202
def evDmaLines : Nat := 0x203
def evEvWritten : Nat := 0x204
def evEvDropped : Nat := 0x205
def evChain : Nat := 0x3FE

/-- R422: the unit of a window accepts an event. -/
def pmuAccepts (w ev : Nat) : Bool :=
  ev = 0 || ev = evCycles || ev = evChain ||
    (if w < 64 then (0x010 ≤ ev && ev ≤ 0x01B) || (0x040 ≤ ev && ev ≤ 0x045) || (0x080 ≤ ev && ev ≤ 0x085)
    else if w < 72 then (0x180 ≤ ev && ev ≤ 0x186) || ev = evRelocks || ev = evLaneCmds
    else if w < 96 then 0x100 ≤ ev && ev ≤ 0x105
    else 0x200 ≤ ev && ev ≤ 0x205)

/-- R422, R423: the BAD bit of counter `n`. -/
def pmuBad (w n : Nat) (c : PmuCfg) : Bool := !pmuAccepts w c.event.toNat || (c.event.toNat = evChain && n = 0)

/-- R422: SEL restricts the event. -/
def pmuSelApplies (ev : Nat) : Bool :=
  (0x010 ≤ ev && ev ≤ 0x01B) || (0x180 ≤ ev && ev ≤ 0x1C1) || ev = evDmaDescs || ev = evDmaLines

def Pmu.count (p : Pmu) (n : Nat) : BitVec 48 := tabGet (fun _ => 0) p.cnt n
def Pmu.cfgAt (p : Pmu) (n : Nat) : PmuCfg := tabGet (fun _ => {}) p.cfg n
def Pmu.holdAt (p : Pmu) (n : Nat) : Nat := tabGet (fun _ => 0) p.hold n
def Pmu.latchAt (p : Pmu) (n : Nat) : BitVec 16 := tabGet (fun _ => 0) p.latch n
def Pmu.stageAt (p : Pmu) (n : Nat) : BitVec 16 := tabGet (fun _ => 0) p.stage n
def Pmu.setCount (p : Pmu) (n : Nat) (v : BitVec 48) : Pmu := { p with cnt := tabSet (fun _ => 0) p.cnt n v }

/-- R421, R423, R427: counter `n` of a window advances by `k`; its overflows feed a chained counter before OVF_FREEZE
stops the unit. The chain ends within `fuel` counters. -/
def pmuAdd (w : Nat) (p : Pmu) (n k : Nat) : Nat → Pmu
  | 0 => p
  | fuel + 1 =>
    let v := (p.count n).toNat + k
    let q := p.setCount n (BitVec.ofNat 48 v)
    let o := v / 2 ^ 48
    if o = 0 then q
    else
      let q1 := { q with ovf := q.ovf ||| BitVec.ofNat 16 (2 ^ n) }
      let c := q1.cfgAt (n + 1)
      let q2 := if n + 1 < pmuCounters w && c.event.toNat = evChain && c.en && q1.holdAt (n + 1) = 0 then
          pmuAdd w q1 (n + 1) o fuel else q1
      if (q2.cfgAt n).ovfFreeze then { q2 with freeze := true } else q2

/-- R422, R426, R427: counter `n` counts occurrences of an event at an instance (a stall, port or channel). -/
def pmuTakes (w : Nat) (p : Pmu) (n ev inst : Nat) : Bool :=
  let c := p.cfgAt n
  c.en && c.event.toNat = ev && pmuAccepts w ev && p.holdAt n = 0 &&
    (!c.selEn || !pmuSelApplies ev || c.sel.toNat = inst)

/-- R421: `k` occurrences of an event in one cycle of a unit: every counter that counts it advances. -/
def Pmu.occurs (w : Nat) (p : Pmu) (ev inst k : Nat) : Pmu :=
  if p.freeze || k = 0 then p
  else (List.range (pmuCounters w)).foldl (fun q n => if pmuTakes w q n ev inst then pmuAdd w q n k 16 else q) p

/-- Occurrences of an event of a unit. -/
def pmuCount (s : State) (w ev inst k : Nat) : State := s.setPmu w ((s.pmu w).occurs w ev inst k)

/-- Occurrences of an event of a stall. -/
def pmuStall (s : State) (t ev k : Nat) : State := pmuCount s (t / 64) ev (t % 64) k

/-! ### Samples (R430 to R432) -/

def Pmu.sampleEn (p : Pmu) : Bool := p.sCfg.getLsbD 0
def Pmu.samplePeriod (p : Pmu) : Nat := bitsAt p.sCfg.toNat 1 20 + 1
def Pmu.sampleStall (p : Pmu) : Nat := bitsAt p.sCfg.toNat 21 6
def Pmu.sampleOne (p : Pmu) : Bool := p.sCfg.getLsbD 27
def Pmu.fullStop (p : Pmu) : Bool := p.sCfg.getLsbD 28

/-- R430: a token of stall `t` retires: the window after counting it, and whether it is selected. -/
def sampleSelect (p : Pmu) (t : Nat) : Pmu × Bool :=
  if !p.sampleEn || (p.sampleOne && p.sampleStall ≠ t % 64) then (p, false)
  else if p.samplePeriod ≤ p.period + 1 then ({ p with period := 0 }, true)
  else ({ p with period := p.period + 1 }, false)

/-- R430, R432: an entry written, or discarded when the buffer is full and FULL_STOP is set. -/
def samplePut (p : Pmu) (e : BitVec 256) : Pmu :=
  if p.fullStop && (p.sHead - p.sTail).toNat = 512 then { p with sDropped := satAdd 32 p.sDropped 1 }
  else { p with buf := tabSet (fun _ => 0) p.buf (p.sHead.toNat % 512) e, sHead := p.sHead + 1 }

/-- R431: the entry of a token of stall `t` whose result left at `at_`; two fabric cycles pass in each control cycle. -/
def sampleEntry (s : State) (t : Nat) (vec : Bool) (x : SamplePend) (pen : Nat) (harness : BitVec 64)
    (at_ : BitVec 64) : BitVec 256 :=
  let y := s.stall t
  let node := t % 64 + 64 * bit y.activeSlot + 128 * bit vec
  let lat := min (2 ^ 32 - 1) (2 * (at_ - x.enq).toNat)
  let flags := pen % 64 + 64 * bit x.fromChute + 128 * bit x.poison
  BitVec.ofNat 256 (x.token.toNat + 2 ^ 48 * node + 2 ^ 56 * x.uop.toNat + 2 ^ 64 * lat + 2 ^ 96 * y.swaps.toNat
    + 2 ^ 112 * flags + 2 ^ 128 * at_.toNat + 2 ^ 192 * harness.toNat)

end Sys2Proof.Machine
end

