-- ==== Sys2Proof/Machine/Report.lean ====
section
/-! DEFINITION. Host events (R328 to R330), fault reports (R401 to R409), the log and the leaky buckets (R410, R411),
and the pins the records drive (R409, R412). -/

namespace Sys2Proof.Machine

open Sys2Proof

/-! ### Owners -/

/-- R320: VF `n` holds a thing of its grant while it is not DISABLED. -/
def vfHolds (s : State) (n : Nat) (has : Fn → Bool) : Bool :=
  0 < n && decide ((s.fn n).st ≠ .disabled) && has (s.fn n)

/-- R320: the function that holds a thing: the VF whose grant has it, else the PF. -/
def holderOf (s : State) (has : Fn → Bool) : Nat :=
  ((List.range 16).find? fun n => vfHolds s n has).getD 0

def penOwner (s : State) (p : Nat) : Nat := holderOf s fun f => f.pens.getLsbD p
def chanOwner (s : State) (c : Nat) : Nat := holderOf s fun f => f.chans.getLsbD c

/-- The active bank's harness of a pen (R110). -/
def Pen.bankAt (p : Pen) (b : BitVec 2) : Harness := if b = 0 then p.bank0 else if b = 1 then p.bank1 else p.bank2
def Pen.cur (p : Pen) : Harness := p.bankAt p.curBank

/-- R83: the pen whose grant holds logical die `d`. -/
def penOfDie (s : State) (d : Nat) : Option Nat :=
  (List.range 64).find? fun p => (s.pen p).granted && (s.pen p).dies.getLsbD d

/-! ### Events -/

/-- The event types of R329. -/
def evCrossing : Nat := 1
def evUnreachable : Nat := 2
def evPen : Nat := 3
def evDmaDone : Nat := 4
def evSysNotice : Nat := 5
def evFuncState : Nat := 6
def evOverflow : Nat := 7
def evReady : Nat := 8

/-- R330: the ring has room. -/
def Fn.room (f : Fn) : Bool := (f.tail - f.head).toNat < 2 ^ f.evqLog2.toNat

/-- R336: the function's transaction layer packets travel on an IDE stream that an integrity failure made Insecure: the
host die discards them. Which stream they travel on is the standard's [77]. -/
def ideDiscards (s : State) (f : Nat) : Bool :=
  s.host.ide.any fun e => decide (e.2 = 2) && decide ((Config.ideStream f).map (·.val) = some e.1)

/-- R336: function `f` writes host memory, unless its packets are discarded. -/
def hostStore (s : State) (f a : Nat) (bytes : List Byte) : State :=
  if ideDiscards s f then s else { s with hostMem := memStore s.hostMem a bytes }

/-- R328: one entry written at TAIL; R330: vector 0 when no interrupt is pending. -/
def ringEntry (s : State) (n typ src info : Nat) : State :=
  let f := s.fn n
  let size := 2 ^ f.evqLog2.toNat
  let phase := f.tail.toNat / size % 2
  let entry := leBytes (typ + 2 ^ 15 * phase + 2 ^ 16 * (src % 2 ^ 16) + 2 ^ 32 * (info % 2 ^ 32)
    + 2 ^ 64 * s.time.toNat) 16
  let s1 := hostStore s n (f.evqBase.toNat + 16 * (f.tail.toNat % size)) entry
  pmuCount (s1.setFn n { f with tail := f.tail + 1, irq := true, msix0 := if f.irq then f.msix0 else f.msix0 + 1 })
    wHost evEvWritten 0 1

/-- R330: the ring takes entries. -/
def ringOpen (s : State) (n : Nat) : Bool := (s.fn n).evqEn && s.host.linkUp && (s.fn n).room

/-- R330: the OVERFLOW entry, when events were dropped and the ring takes entries; a DISABLING function's ring has
stopped (R338). -/
def flushLost (s : State) (n : Nat) : State :=
  if ringOpen s n && decide ((s.fn n).st ≠ .disabling) && decide (0 < (s.fn n).lost) then
    (ringEntry s n evOverflow 0 (s.fn n).lost).updFn n fun f => { f with lost := 0 }
  else s

/-- R328 to R330: an event raised to a function. A DISABLING function's ring has stopped (R338). -/
def raiseEvent (s : State) (n typ src info : Nat) : State :=
  if (s.fn n).st = .disabling then s
  else
    let s1 := flushLost s n
    if ringOpen s1 n then ringEntry s1 n typ src info
    else pmuCount (s1.updFn n fun f => { f with
      dropped := satAdd 16 f.dropped 1, lost := f.lost + 1,
      ovf := f.ovf || (f.evqEn && s1.host.linkUp) }) wHost evEvDropped 0 1

/-- R121: the code of a pen's state. -/
def penCode : PenState → Nat
  | .free => 0
  | .loading => 1
  | .ready => 2
  | .running => 3
  | .draining => 4
  | .stopped => 5
  | .faulted => 6

/-- R329: the PEN event: state code, RESULT, SHADOW VALID, swap complete. -/
def penEvent (s : State) (p st : Nat) (swapDone : Bool) : State :=
  let x := s.pen p
  raiseEvent s (penOwner s p) evPen p
    (st + 2 ^ 8 * x.result.toNat + 2 ^ 16 * bit (decide (x.shadow = .valid)) + 2 ^ 17 * bit swapDone)

/-! ### Sources and causes (R403, R404) -/

def srcDie (p : Nat) : Nat := 0x1000 + p
def srcHub (h : Nat) : Nat := 0x1048 + h
def srcOe (e : Nat) : Nat := 0x1060 + e
def srcLaser (e n : Nat) : Nat := 0x1068 + 32 * e + n
def srcRing (e r : Nat) : Nat := 0x1200 + 256 * e + r
def srcLink (l : Nat) : Nat := 0x1A00 + l
def srcBoot : Nat := 0x1A40
def srcPower : Nat := 0x1A41
def srcTherm : Nat := 0x1A42
def srcSystem : Nat := 0x1A43
def srcHost : Nat := 0x1A44

/-- R403: a source number of the table. -/
def srcKnown (x : Nat) : Bool :=
  x ≤ 0x1167 || (0x1200 ≤ x && x ≤ 0x1A44)

def cMangerCe : Nat := 0x100
def cMangerUc : Nat := 0x101
def cMacResidue : Nat := 0x102
def cWindowParity : Nat := 0x103
def cSlotParity : Nat := 0x104
def cSlotChecksum : Nat := 0x105
def cAnchorMismatch : Nat := 0x106
def cFenceOpenTile : Nat := 0x107
def cGrant : Nat := 0x108
def cPoisonConsumed : Nat := 0x109
def cDieRouter : Nat := 0x200
def cDieSlice : Nat := 0x201
def cDieAdapter : Nat := 0x202
def cDieRegulator : Nat := 0x203
def cChutePoison : Nat := 0x204
def cChuteTooLong : Nat := 0x205
def cChuteRefused : Nat := 0x206
def cLaneRepair : Nat := 0x207
def cModuleHalf : Nat := 0x208
def cModuleFailed : Nat := 0x209
def cNoRoot : Nat := 0x20A
def cTackInternal : Nat := 0x20B
def cBaseRegion : Nat := 0x20C
def cHostDieLost : Nat := 0x20D
def cMemCe : Nat := 0x300
def cMemUc : Nat := 0x301
def cPartialPoison : Nat := 0x302
def cAddress : Nat := 0x303
def cStackLost : Nat := 0x304
def cSilentDie : Nat := 0x400
def cFibreMargin : Nat := 0x401
def cClockLost : Nat := 0x402
def cOeLost : Nat := 0x403
def cAgeWarn : Nat := 0x500
def cLaserSpared : Nat := 0x501
def cSpareUsed : Nat := 0x502
def cRingRelock : Nat := 0x600
def cRingRail : Nat := 0x601
def cRingFailed : Nat := 0x602
def cRingMislock : Nat := 0x603
def cLaneFailed : Nat := 0x700
def cLinkVersion : Nat := 0x701
def cPartnerChanged : Nat := 0x702
def cBadType : Nat := 0x703
def cLinkReplay : Nat := 0x704
def cRttLong : Nat := 0x705
def cOverrun : Nat := 0x706
def cLinkRetrain : Nat := 0x707
def cLinkDown : Nat := 0x708
def cUnreachable : Nat := 0x709
def cEncRefused : Nat := 0x70A
def cAuthFail : Nat := 0x70B
def cTwoManagers : Nat := 0x800
def cDupNumber : Nat := 0x801
def cRelayLoop : Nat := 0x802
def cIntake : Nat := 0x803
def cShuffle : Nat := 0x804
def cAccessDenied : Nat := 0x900
def cHostPoison : Nat := 0x901
def cIdeFail : Nat := 0x902
def cBootImage : Nat := 0xA00
def cBootDie : Nat := 0xA01
def cBootStacks : Nat := 0xA02
def cOverLimit : Nat := 0xB00
def cHoldLow : Nat := 0xB01
def cThermSuspect : Nat := 0xC00
def cPinHigh : Nat := 0xC01
def cShutdown : Nat := 0xC02

/-- R404: the detected class of a cause: 1 CE, 2 UC, 3 FE. HOST_DIE_LOST depends on the role. -/
def causeClass (manager : Bool) (c : Nat) : Nat :=
  if c ∈ [cNoRoot, cTackInternal, cBaseRegion, cBootImage, cBootDie, cBootStacks, cShutdown] then 3
  else if c = cHostDieLost then (if manager then 3 else 1)
  else if c ∈ [cMangerUc, cMacResidue, cWindowParity, cSlotParity, cSlotChecksum, cAnchorMismatch, cFenceOpenTile,
      cGrant, cPoisonConsumed, cDieRouter, cDieSlice, cDieAdapter, cDieRegulator, cMemUc, cPartialPoison, cAddress,
      cStackLost, cClockLost, cOeLost, cAuthFail, cTwoManagers, cHostPoison, cIdeFail] then 2
  else 1

/-- R404: the causes marked L. -/
def causeCondition (c : Nat) : Bool :=
  c ∈ [cDieRegulator, cModuleHalf, cModuleFailed, cHostDieLost, cStackLost, cSilentDie, cFibreMargin, cClockLost,
    cOeLost, cAgeWarn, cRingRail, cRingFailed, cPartnerChanged, cRttLong, cLinkDown, cTwoManagers, cDupNumber,
    cOverLimit, cHoldLow, cThermSuspect]

/-- R405: the logical die of a source, for the pen that holds the unit: a stall's, or the one a die-logic site holds. -/
def srcLogical (s : State) (x : Nat) : Option Nat :=
  if x < 0x1000 then some (x / 64) else if x < 0x1048 then s.dieAt (x - 0x1000) else none

/-- R406 item 1: a new record. -/
def newRecord (s : State) (src cause addr : Nat) (inj col : Bool) : FRec :=
  let cls := BitVec.ofNat 2 (causeClass s.sys.manager cause)
  let pen := (srcLogical s src).bind (penOfDie s)
  { source := BitVec.ofNat 16 src, cause := BitVec.ofNat 16 cause, cls := cls,
    conds := if causeCondition cause then [BitVec.ofNat 16 cause] else [],
    injected := inj, collide := col, valid := true, first := cls, count := 1, time := s.time, lastTime := s.time,
    harness := match pen with | some p => (s.pen p).cur.id | none => 0,
    addr := BitVec.ofNat 64 addr,
    pen := BitVec.ofNat 6 (pen.getD 0), penValid := pen.isSome, lastCause := BitVec.ofNat 16 cause,
    token := if src < 0x1000 then (s.stall src).tokens.setWidth 32 else 0 }

/-- R406 item 2: a report into a VALID record. -/
def mergeRecord (s : State) (r : FRec) (cause : Nat) (inj col : Bool) : FRec :=
  let det := BitVec.ofNat 2 (causeClass s.sys.manager cause)
  let esc := decide (det = r.cls) && !r.acked && decide (r.cls ≠ 3)
  { r with
    count := satAdd 16 r.count 1, lastCause := BitVec.ofNat 16 cause, lastTime := s.time,
    cls := if esc then r.cls + 1 else if r.cls < det then det else r.cls,
    escalated := r.escalated || esc, acked := false,
    conds := if causeCondition cause then addNew r.conds (BitVec.ofNat 16 cause) else r.conds,
    injected := r.injected || inj, collide := r.collide || col }

/-- R409: a record is uncleared. -/
def FRec.uncleared (r : FRec) : Bool := r.valid && !r.acked

/-- R330: whether a report fires the PF's vector 1, from the record before and after it. -/
def firesVector1 (before after : FRec) (det : BitVec 2) : Bool :=
  after.uncleared && decide (2 ≤ after.cls.toNat) &&
    (decide (2 ≤ det.toNat) || decide (before.cls < after.cls) || (before.valid && before.acked))

/-- R406, R410, R330: a report applied to its source's record and the log. -/
def reportWith (s : State) (src cause addr : Nat) (inj col : Bool) : State :=
  let old := s.frec src
  let r := if old.valid then mergeRecord s old cause inj col else newRecord s src cause addr inj col
  let s1 := s.setFrec src r
  let s2 := { s1 with flt := { s1.flt with
    log := tabSet (fun _ => {}) s1.flt.log (s1.flt.head.toNat % 512) r, head := s1.flt.head + 1 } }
  if firesVector1 old r (BitVec.ofNat 2 (causeClass s.sys.manager cause)) then
    s2.updFn 0 fun f => { f with msix1 := f.msix1 + 1 }
  else s2

/-- A report of a real fault. During a save nothing after its step 1 is recorded (R410). -/
def report (s : State) (src cause addr : Nat) : State :=
  if 1 < s.pwr.saving then s else reportWith s src cause addr false false

/-- R414, R415: a report of an injected fault, or of a real one that met an injection. -/
def reportInjected (s : State) (src cause addr : Nat) (collide : Bool) : State :=
  if 1 < s.pwr.saving then s else reportWith s src cause addr (!collide) collide

/-- R408: a condition cause of a source ends. An acknowledged record clears when ACTIVE falls. -/
def endCondition (s : State) (src cause : Nat) : State :=
  let r := s.frec src
  if BitVec.ofNat 16 cause ∈ r.conds then
    let cs := r.conds.filter (· ≠ BitVec.ofNat 16 cause)
    if cs = [] && r.acked then s.setFrec src {} else s.setFrec src { r with conds := cs }
  else s

/-! ### Leaky buckets (R411) -/

/-- The key of the level of bucket `b` for a unit. -/
def levelKey (b unit : Nat) : Nat := 65536 * b + unit

/-- R411: one event into a bucket: the new state, and whether the threshold was reached. -/
def bucketAdd (s : State) (b unit : Nat) : State × Bool :=
  let n := s.level (levelKey b unit) + 1
  if (s.bucket b).threshold.toNat ≤ n then (s.setLevel (levelKey b unit) 0, true)
  else (s.setLevel (levelKey b unit) n, false)

/-- R411: one event of a cause with a bucket: a report when its level reaches the threshold. -/
def bucketReport (s : State) (b src cause addr : Nat) : State :=
  let r := bucketAdd s b src
  if r.2 then report r.1 src cause addr else r.1

/-! ### Pins driven by the records (R409, R412) -/

/-- Some uncleared record has CLASS UC or FE. -/
def anyUncleared (s : State) : Bool :=
  s.flt.recs.any fun e => e.2.uncleared && decide (2 ≤ e.2.cls.toNat)

/-- ALERT's behaviours (R412). -/
inductive AlertMode
  | high | low | toggling
  deriving DecidableEq, Repr

/-- R412: the first behaviour that applies. -/
def alertOf (s : State) : AlertMode :=
  if s.flt.hbLost || !s.flt.hbSeen || (decide (1 ≤ s.pwr.saving) && decide (s.pwr.saving ≤ 4)) || s.tack.hold then .high
  else if anyUncleared s then .low
  else .toggling

/-- R409: SMB_ALERT_N. -/
def smbAlertN (s : State) : Bool := !anyUncleared s

end Sys2Proof.Machine
end

