-- ==== Sys2Proof/Machine/Access.lean ====
section
/-! DEFINITION. Who may reach what through the BARs (R323 to R326, R334, R337). -/

namespace Sys2Proof.Machine

open Sys2Proof

/-- R325: a refused VF access: counted, and a CE record through its bucket. -/
def denyAccess (s : State) (off : Nat) : State :=
  (bucketReport { s with host := { s.host with denied := satAdd 32 s.host.denied 1 } } 5 srcHost cAccessDenied off).answer
    .ur

/-- R321, R338: the function's BARs answer over a link that is up: a VF only while ENABLED, the PF unless it is
DISABLING. -/
def barsOpen (s : State) (f : Nat) : Bool :=
  s.host.linkUp && (if f = 0 then decide ((s.fn 0).st ≠ .disabling) else decide ((s.fn f).st = .enabled))

/-- R324, R325, R334: a BAR0 access by function `f` outside the HOST, SEC and TACK-core ranges; `own` says that the
table of R325 lets a VF reach it. Nothing answers a packet that is discarded (R336). -/
def barAccess (s : State) (f : Nat) (own : Bool) (off : Nat) (k : State → State) : State :=
  if ideDiscards s f then s.answer .none
  else if !barsOpen s f then s.answer .ur
  else if !s.tack.readyNow then s.answer .ur
  else if 0 < f && !own then denyAccess s off
  else k s

/-- The same for the ranges that serve before READY (R334). -/
def coreAccess (s : State) (f : Nat) (own : Bool) (off : Nat) (k : State → State) : State :=
  if ideDiscards s f then s.answer .none
  else if !barsOpen s f then s.answer .ur
  else if 0 < f && !own then denyAccess s off
  else k s

/-- A BAR0 access of the PF outside the ranges that serve before READY (R334). -/
def pfAccess (s : State) (k : State → State) : State := barAccess s 0 true 0 k

/-- A BAR0 access of the PF to the ranges that serve before READY (R334). -/
def pfCore (s : State) (k : State → State) : State := coreAccess s 0 true 0 k

end Sys2Proof.Machine
end

