-- ==== Sys2Proof/Machine/Flash.lean ====
section
/-! DEFINITION. The flash: its devices and regions (R348, R349), and the copies of its stores (R350), with the body of
the calibration store [78]. -/

namespace Sys2Proof.Machine

open Sys2Proof

/-! ### Devices and regions (R348, R349) -/

/-- R348: what SFDP tells of a device: its size, when it reads correctly. -/
def spiSize (d : SpiDev) : Nat := if d.present && d.sfdpOk then d.size else 0

/-- R348: where the flash address space ends: above the second device, which follows the first. -/
def flashTop (s : State) : Nat := spiSize s.spi0 + spiSize s.spi1

/-- R348: the device and its byte behind a flash address. -/
def flashPlace (s : State) (a : Nat) : Option (Fin 2 × Nat) :=
  if a < spiSize s.spi0 then some (0, a)
  else if a < flashTop s then some (1, a - spiSize s.spi0)
  else none

/-- R348: SPI_CS_N[0] selects a device, and the devices together have at least 64 MiB [68]. -/
def flashFitted (s : State) : Bool := spiSize s.spi0 ≠ 0 && 0x4000000 ≤ flashTop s

/-- R348: a device moves to 8D-8D-8D when its SFDP gives that mode. -/
def spiMode (d : SpiDev) : SpiDev := { d with mode := if d.present && d.sfdpOk && d.octal then .d8 else .s1 }

/-- R348: discovery. -/
def discoverFlash (s : State) : State := { s with spi0 := spiMode s.spi0, spi1 := spiMode s.spi1 }

/-- R348: the last byte of a copy that starts at `a` stands in a device. -/
def flashHas (s : State) (a n : Nat) : Bool := flashFitted s && (flashPlace s (a + n - 1)).isSome

def flashNat (s : State) (a n : Nat) : Nat := leNat (flashBytes s.flash a n)
def slotBase (i : Nat) : Nat := 0x01000000 * i

/-- The last 4 KiB of a slot, and the word that makes a store valid (R350, R351). -/
def commitSector : Nat := 0x00FFF000
def flashCommit : Nat := 0x5A5AA5A5

/-- The targets of R366: slots 0 and 1, then the stores. -/
def calStore : Nat := 2
def logStore : Nat := 3
def idStore : Nat := 4

/-- R349: the offset and size of a region's copy. -/
def regionBase (target copy : Nat) : Nat :=
  match target with
  | 0 => slotBase 0
  | 1 => slotBase 1
  | 2 => 0x02000000 + 0x200000 * copy
  | 3 => 0x02400000 + 0x200000 * copy
  | _ => 0x02800000 + 0x10000 * copy
def regionSize (target : Nat) : Nat := if target ≤ 1 then 0x1000000 else if target ≤ 3 then 0x200000 else 0x10000

/-! ### Copies (R350) -/

/-- R350: a copy's SEQUENCE and its body. -/
def copySeq (s : State) (target copy : Nat) : Nat := flashNat s (regionBase target copy + 4) 4
def copyBody (s : State) (target copy : Nat) : List Byte :=
  flashBytes s.flash (regionBase target copy + 16) (flashNat s (regionBase target copy + 8) 4)

/-- R350: a copy of a store is valid. -/
def copyValid (s : State) (target copy : Nat) : Bool :=
  let b := regionBase target copy
  flashHas s b (regionSize target) && flashNat s (b + regionSize target - 4) 4 = flashCommit
    && flashNat s b 4 = 0x4C435354 && flashNat s (b + 8) 4 ≤ regionSize target - 20
    && flashNat s (b + 12) 4 = (crc32 (copyBody s target copy)).toNat

/-- R350: the newest valid copy of a store. -/
def newestCopy (s : State) (target : Nat) : Option Nat :=
  match copyValid s target 0, copyValid s target 1 with
  | true, true => some (if copySeq s target 0 < copySeq s target 1 then 1 else 0)
  | true, false => some 0
  | false, true => some 1
  | false, false => none

/-- R350: the body that a reader of a store takes; none where no copy is valid. -/
def storeBody (s : State) (target : Nat) : Option (List Byte) := (newestCopy s target).map (copyBody s target)

/-- R350: the envelope of a body. -/
def envelope (seq : Nat) (body : List Byte) : List Byte :=
  leBytes 0x4C435354 4 ++ leBytes seq 4 ++ leBytes body.length 4 ++ leBytes (crc32 body).toNat 4

/-- R350: a body stored: the copy that does not hold the newest valid contents is erased, then written, and its commit
word comes last. With no flash to write nothing is stored [68]. -/
def storeCopy (s : State) (target : Nat) (body : List Byte) : State :=
  let k := if newestCopy s target = some 0 then 1 else 0
  let seq := ((newestCopy s target).map fun c => copySeq s target c + 1).getD 1
  let b := regionBase target k
  let n := regionSize target
  if flashHas s b n && decide (body.length ≤ n - 20) then
    let f := flashStore (tabClear s.flash b (b + n)) b (envelope seq body ++ body)
    { s with flash := flashStore f (b + n - 4) (leBytes flashCommit 4) }
  else s

/-! ### The calibration store's body [78] -/

/-- R203: a laser state as a code. -/
def laserCode : LaserState → Nat
  | .off => 0
  | .warming => 1
  | .ready => 2
  | .active => 3
  | .spent => 4
  | .failed => 5

/-- The states that a store keeps: SPENT and FAILED. -/
def laserOf : Nat → LaserState
  | 4 => .spent
  | 5 => .failed
  | _ => .off

/-- DESIGN CHOICE [78]: the body is a list of entries of 8 bytes: a kind, a 24-bit key and a 32-bit value. -/
def calRows (c : Cal) : List (Nat × Nat × Nat) :=
  c.fenced.map (fun p => (1, p, 0)) ++ c.subs.map (fun e => (2, e.1, e.2)) ++ c.lostStacks.map (fun h => (3, h, 0))
    ++ c.lasers.map (fun e => (4, e.1, laserCode e.2)) ++ c.hours.map (fun e => (5, e.1, e.2.toNat))
    ++ c.xt.map (fun e => (6, e.1, e.2.toNat)) ++ c.oeTabs.map (fun e => (7, e.1, e.2.toNat))

def calBody (c : Cal) : List Byte :=
  (calRows c).flatMap fun r => leBytes r.1 1 ++ leBytes r.2.1 3 ++ leBytes r.2.2 4

/-- An entry read back. -/
def calRow (c : Cal) (kind key v : Nat) : Cal :=
  match kind with
  | 1 => { c with fenced := addNew c.fenced key }
  | 2 => { c with subs := c.subs ++ [(key, v)] }
  | 3 => { c with lostStacks := addNew c.lostStacks key }
  | 4 => { c with lasers := tabSet (fun _ => .off) c.lasers key (laserOf v) }
  | 5 => { c with hours := tabSet (fun _ => 0) c.hours key (BitVec.ofNat 32 v) }
  | 6 => { c with xt := tabSet (fun _ => 0) c.xt key (BitVec.ofNat 16 v) }
  | 7 => { c with oeTabs := tabSet (fun _ => 0) c.oeTabs key (BitVec.ofNat 16 v) }
  | _ => c

/-- A body read back. -/
def calOf (c : Cal) : List Byte → Cal
  | k :: a0 :: a1 :: a2 :: v0 :: v1 :: v2 :: v3 :: rest =>
    calOf (calRow c k.toNat (leNat [a0, a1, a2]) (leNat [v0, v1, v2, v3])) rest
  | _ => c

/-- R345 step 2: what the firmware reads from the calibration store; DESIGN CHOICE [14]: nothing, where no copy is
valid. -/
def readCal (s : State) : Cal := ((storeBody s calStore).map (calOf {})).getD {}

/-- R173, R191, R202, R207, R350: the record-keeping changed, and stored. -/
def keepCal (s : State) (f : Cal → Cal) : State :=
  let c := f s.tack.cal
  if c = s.tack.cal then s else storeCopy { s with tack := { s.tack with cal := c } } calStore (calBody c)

/-- R397, R410: a fault log stored, newest entry first [78]. -/
def storeLog (s : State) (lines : List Line) : State := storeCopy s logStore (lines.flatMap lineBytes)

end Sys2Proof.Machine
end

