-- ==== Sys2Proof/Machine/Inject.lean ====
section
/-! DEFINITION. Error injection: what an arming does to the next check-bit generation (R413, R414). -/

namespace Sys2Proof.Machine

open Sys2Proof

/-- Set bits of a number below `2^n`. -/
def popCount (v : Nat) : Nat → Nat
  | 0 => 0
  | n + 1 => popCount v n + bit (bitAt v n)

/-- R413: the mask the next check-bit generation of a checker takes: 0 when nothing is armed for it. -/
def injMask (s : State) (src chk : Nat) : BitVec 8 :=
  match s.flt.arm with
  | some a => if a.source.toNat = src && a.checker.toNat = chk then a.mask else 0
  | none => 0

/-- R413: a generation by that checker uses a ONCE arming up. -/
def injUse (s : State) (src chk : Nat) : State :=
  match s.flt.arm with
  | some a =>
    if a.source.toNat = src && a.checker.toNat = chk && !a.continuous then
      { s with flt := { s.flt with arm := none } }
    else s
  | none => s

end Sys2Proof.Machine
end

