-- ==== Sys2Proof/Machine/Memory.lean ====
section
/-! DEFINITION. Memory stacks and hubs: the address map, reads and writes of a line with their outcomes, scrub, refresh,
loss (06_memory.md). -/

namespace Sys2Proof.Machine

open Sys2Proof

/-! ### The address map (R164, R165) -/

/-- R165: the map order of the 24 stacks. -/
def mapOrder : List Nat :=
  [0, 8, 1, 9, 16, 20, 2, 10, 3, 11, 17, 21, 4, 12, 5, 13, 18, 22, 6, 14, 7, 15, 19, 23]

/-- R165: the order with the excluded stacks removed. -/
def curOrder (s : State) : List Nat := mapOrder.filter fun h => (s.hub h).st ≠ .excluded

/-- R164: N. -/
def stackCount (s : State) : Nat := (curOrder s).length

/-- R164: MEM_TOP. -/
def memTop (s : State) : Nat := stackCount s * (80 * 2 ^ 30)

/-- R164: the stack a device address lies in. -/
def hubOf (s : State) (a : Nat) : Nat := ((curOrder s)[a / 2048 % stackCount s]?).getD 0

/-- R164: the stack-local address of a device address. -/
def stackLocal (s : State) (a : Nat) : Nat := a / 2048 / stackCount s * 2048 + a % 2048

/-- MH_MAP.POSITION: the place of a stack in the map order; 0x1F when excluded. -/
def mapPosition (s : State) (h : Nat) : Nat := ((curOrder s).idxOf? h).getD 0x1F

/-- R164 read back: the device address of a stack-local address of stack `h`. -/
def deviceAddr (s : State) (h loc : Nat) : Nat :=
  (loc / 2048 * stackCount s + mapPosition s h) * 2048 + loc % 2048

/-- R175: the wipe of every hub of the map is complete. -/
def wipeComplete (s : State) : Bool := (curOrder s).all fun h => (s.hub h).wipeDone

/-- R172, R174, R194: requests for a stack wait while its edge die is replaced, and while no die holds its number and
the stack is not yet declared LOST. -/
def hubWaits (s : State) (h : Nat) : Bool :=
  inReplacement s (hubDie h) || (!s.held (hubDie h) && decide ((s.hub h).st = .online))

/-- R164, R174: a request for `n` bytes at a device address waits for a hub: 24 granules meet every hub of the map. -/
def reqWaits (s : State) (a n : Nat) : Bool :=
  (List.range (min (n / 2048 + 2) 24)).any fun i =>
    decide (a / 2048 * 2048 + 2048 * i < a + n) && hubWaits s (hubOf s (a + 2048 * i))

/-- R174, R175: `n` bytes at a device address cannot be reached now: the wipe is not complete, or a hub waits. In
RECOVERY no wipe runs, and R357's token is read all the same [64]. -/
def memBusy (s : State) (a n : Nat) : Bool := !(wipeComplete s || s.tack.recovery) || reqWaits s a n

/-! ### Loss (R172, R173) -/

/-- Control-clock cycles in a second. -/
def cyclesPerSecond : Nat := 625000000

/-- R172, R173: a stack is declared LOST, reported and recorded. DESIGN CHOICE [71]: ADDR of the record is 0, for a
whole stack has no device address. -/
def loseStack (s : State) (h : Nat) : State :=
  if (s.hub h).st = .online || (s.hub h).st = .init then
    let s1 := s.updHub h fun x => { x with st := .lost }
    let s2 := keepCal s1 fun c => { c with lostStacks := addNew c.lostStacks h }
    report s2 (srcHub h) cStackLost 0
  else s

/-- R172: lines poisoned within the last second, the one at this time included. -/
def recentPoisoned (s : State) (h : Nat) : List (BitVec 64) :=
  s.time :: (s.hub h).poisonedAt.filter fun t => (s.time - t).toNat < cyclesPerSecond

/-- R172: a line of stack `h` has become poisoned by a real fault. -/
def countPoisoned (s : State) (h : Nat) : State :=
  let r := recentPoisoned s h
  let s1 := s.updHub h fun x => { x with poisonedAt := r }
  if 256 < r.length then loseStack s1 h else s1

/-! ### Lines -/

def State.poisonAt (s : State) (line : Nat) : Bool := tabGet (fun _ => false) s.ms.poison line
def State.injAt (s : State) (line : Nat) : BitVec 3 := tabGet (fun _ => 0) s.ms.inj line

/-- The line at a device address as stored. -/
def storedLine (s : State) (a : Nat) : Line := lineOf (memBytes s.ms.mem (a / 64 * 64) 64)

/-- Bytes, a POISON tag and inverted check symbols stored in memory. -/
def putBytes (s : State) (a : Nat) (bs : List Byte) : State :=
  { s with ms := { s.ms with mem := memStore s.ms.mem a bs } }
def putPoison (s : State) (line : Nat) (b : Bool) : State :=
  { s with ms := { s.ms with poison := tabSet (fun _ => false) s.ms.poison line b } }
def putInj (s : State) (line : Nat) (m : BitVec 3) : State :=
  { s with ms := { s.ms with inj := tabSet (fun _ => 0) s.ms.inj line m } }

/-- A line of which the manual gives no bits: eight free values [4]. -/
def freeLine (s : State) : Line :=
  (List.range 8).foldl (fun l i => l ||| ((Config.freeValue (s.free + i)).setWidth 512 <<< (64 * i))) 0
def useFreeLine (s : State) : State := { s with free := s.free + 8 }

/-- What a read gives: the state after, the line, and its POISON. -/
structure LineRead where
  st : State
  line : Line
  poison : Bool

/-- R161: a line of an ONLINE stack read, `errs` of its symbols in error besides injected ones. -/
def checkLine (s : State) (a errs : Nat) : LineRead :=
  let k := a / 64
  let h := hubOf s a
  if s.poisonAt k then ⟨s, storedLine s a, true⟩
  else
    let inj := if k ∈ (s.hub h).wb then 0 else popCount (s.injAt k).toNat 3
    let injected := decide (errs = 0)
    let collide := decide (0 < errs) && decide (0 < inj)
    let n := errs + inj
    if n = 0 then ⟨s, storedLine s a, false⟩
    else if n = 1 then
      let s1 := s.updHub h fun x => { x with
        ce := satAdd 32 x.ce 1, errAddr := BitVec.ofNat 64 (k * 64), wb := addNew x.wb k }
      let s2 := if injected then reportInjected s1 (srcHub h) cMemCe (k * 64) false
        else bucketReport s1 0 (srcHub h) cMemCe (k * 64)
      ⟨pmuCount s2 (wHub h) evMemCe 0 1, storedLine s a, false⟩
    else
      let s0 := if injected then s else putBytes (useFreeLine s) (k * 64) (lineBytes (freeLine s))
      let s1 := (putInj (putPoison s0 k true) k 0).updHub h fun x => { x with
        uc := satAdd 32 x.uc 1, errAddr := BitVec.ofNat 64 (k * 64), wb := x.wb.filter (· ≠ k) }
      let s2 := if injected then reportInjected s1 (srcHub h) cMemUc (k * 64) false
        else if collide then reportInjected s1 (srcHub h) cMemUc (k * 64) true
        else report s1 (srcHub h) cMemUc (k * 64)
      ⟨if injected then s2 else countPoisoned s2 h, storedLine s1 a, true⟩

/-- R166, R172: an access at or above MEM_TOP reported; a LOST hub raises no record. DESIGN CHOICE [71]: the hub that
reports it is that of the address's granule modulo N, though R164 maps only addresses below MEM_TOP. -/
def addressFault (s : State) (a : Nat) : State :=
  if (s.hub (hubOf s a)).st = .lost then s else report s (srcHub (hubOf s a)) cAddress a

/-- R161, R166, R172: a read of the line at a device address by a requester that is not a generator or a sink. -/
def readLine (s : State) (a errs : Nat) : LineRead :=
  if memTop s ≤ a then
    ⟨addressFault (useFreeLine s) a, freeLine s, true⟩
  else if (s.hub (hubOf s a)).st = .lost then ⟨useFreeLine s, freeLine s, true⟩
  else checkLine (pmuCount s (wHub (hubOf s a)) evMemReads 0 1) a errs

/-- R160, R162, R170, R172: a whole line stored with new check symbols and its tag; an armed injection inverts some. A
line newly tagged POISON is counted. -/
def storeLine (s : State) (a : Nat) (bs : List Byte) (poison : Bool) : State :=
  let k := a / 64
  let h := hubOf s a
  let m := (injMask s (srcHub h) 0).setWidth 3
  let s1 := injUse (putInj (putPoison (putBytes s (k * 64) bs) k poison) k m) (srcHub h) 0
  let s2 := s1.updHub h fun x => { x with wb := x.wb.filter (· ≠ k) }
  if poison && !s.poisonAt k then countPoisoned (s2.updHub h fun x => { x with uc := satAdd 32 x.uc 1 }) h else s2

/-- R162, R166, R172: bytes written within one line: a whole line, or a read-modify-write of `errs` symbols in error. A
stack that the read makes LOST discards the write, and raises no further record. -/
def writeLine (s : State) (a : Nat) (bs : List Byte) (poison : Bool) (errs : Nat) : State :=
  if memTop s ≤ a then addressFault s a
  else if (s.hub (hubOf s a)).st = .lost then s
  else if bs.length = 64 then storeLine (pmuCount s (wHub (hubOf s a)) evMemWrites 0 1) a bs poison
  else
    let r := checkLine (pmuCount s (wHub (hubOf s a)) evMemRmw 0 1) a errs
    let off := a % 64
    let old := lineBytes r.line
    if (r.st.hub (hubOf s a)).st = .lost then r.st else
    let s1 := storeLine r.st a (old.take off ++ bs ++ old.drop (off + bs.length)) (poison || r.poison)
    if r.poison && !poison then report s1 (srcHub (hubOf s a)) cPartialPoison (a / 64 * 64) else s1

/-- Bytes read from a device address, line by line, and whether a line came poisoned. `fuel` is the number of lines. -/
def readSpan (s : State) (a n : Nat) : Nat → State × List Byte × Bool
  | 0 => (s, [], false)
  | fuel + 1 =>
    if n = 0 then (s, [], false)
    else
      let off := a % 64
      let here := min n (64 - off)
      let r := readLine s a 0
      let rest := readSpan r.st (a + here) (n - here) fuel
      (rest.1, ((lineBytes r.line).drop off).take here ++ rest.2.1, r.poison || rest.2.2)

/-- `n` bytes read from a device address. -/
def readMem (s : State) (a n : Nat) : State × List Byte × Bool := readSpan s a n (n / 64 + 2)

/-- Bytes written at a device address, line by line. `fuel` is the number of lines. -/
def writeSpan (s : State) (a : Nat) (bs : List Byte) (poison : Bool) : Nat → State
  | 0 => s
  | fuel + 1 =>
    if bs = [] then s
    else
      let here := min bs.length (64 - a % 64)
      writeSpan (writeLine s a (bs.take here) poison 0) (a + here) (bs.drop here) poison fuel

/-- Bytes written from a device address up. -/
def writeMem (s : State) (a : Nat) (bs : List Byte) (poison : Bool) : State :=
  writeSpan s a bs poison (bs.length / 64 + 2)

/-- R175: a range of device memory set to zero with clear tags. -/
def zeroRange (s : State) (lo hi : Nat) : State :=
  { s with ms := { s.ms with mem := tabClear s.ms.mem lo hi, poison := tabClear s.ms.poison (lo / 64) (hi / 64),
                             inj := tabClear s.ms.inj (lo / 64) (hi / 64) } }

/-! ### Requests that wait (R174) -/

/-- A request at its hubs. -/
def serveReq (s : State) : HubReq → State
  | .read a n errs =>
    if a % 64 = 0 && n = 64 then
      let r := readLine s a errs
      r.st.answer (.data (lineBytes r.line) r.poison)
    else
      let r := readMem s a n
      r.1.answer (.data r.2.1 r.2.2)
  | .line a bs => writeLine s a bs false 0
  | .write a bs poison errs _ =>
    (if bs.length ≤ 64 - a % 64 then writeLine s a bs poison errs else writeMem s a bs poison).answer .ok

/-- R174: the range of a request waits for a hub. -/
def HubReq.waits (s : State) : HubReq → Bool
  | .read a n _ => reqWaits s a n
  | .line a bs => reqWaits s a bs.length
  | .write a bs _ _ _ => reqWaits s a bs.length

/-- R331: a BAR4 write of a function. -/
def HubReq.sentBy (f : Func) : HubReq → Bool
  | .read _ _ _ => false
  | .line _ _ => false
  | .write _ _ _ _ who => who = some f

/-- R174: a request at its hubs, or left to wait in the panel network. -/
def memRequest (s : State) (q : HubReq) : State :=
  if q.waits s then { s with ms := { s.ms with waiting := s.ms.waiting ++ [q] } } else serveReq s q

/-- R172, R174: the requests that waited and need wait no longer are served, in order. -/
def serveWaiting (s : State) : State :=
  s.ms.waiting.foldl memRequest { s with ms := { s.ms with waiting := [] } }

/-! ### The commands -/

/-- MEM_READ (R161, R174, R175). -/
def execMemRead (a : Addr) (errs : Nat) (s : State) : Host.Outcome State Fault Refusal :=
  .next <| if wipeComplete s then memRequest s (.read (a.toNat / 64 * 64) 64 errs) else s

/-- MEM_WRITE (R162, R174, R175). -/
def execMemWrite (a : Addr) (data : Line) (poison : Bool) (s : State) : Host.Outcome State Fault Refusal :=
  .next <| if wipeComplete s then memRequest s (.write (a.toNat / 64 * 64) (lineBytes data) poison 0 none) else s

/-- READ_MODIFY_WRITE (R162, R174, R175): bytes within one line. -/
def execReadModifyWrite (a : Addr) (data : List Byte) (poison : Bool) (errs : Nat) (s : State) :
    Host.Outcome State Fault Refusal :=
  .next <|
    if wipeComplete s then memRequest s (.write a.toNat (data.take (64 - a.toNat % 64)) poison errs none) else s

/-- MEM_CE_WRITEBACK (R161, R171): the oldest corrected line of the hub written back with new check symbols. -/
def execMemCeWriteback (h : Hub) (s : State) : Host.Outcome State Fault Refusal :=
  .next <|
    match (s.hub h).wb with
    | k :: _ =>
      if (s.hub h).st = .online then storeLine s (k * 64) (memBytes s.ms.mem (k * 64) 64) (s.poisonAt k) else s
    | [] => s

/-- R168, R169: the refresh rate of a stack: 4x while a sensor of it is SUSPECT, else by its band. -/
def stackSuspect (s : State) (h : Nat) : Bool := (s.sensor (230 + h)).st = 1
def refreshRate (s : State) (h : Nat) : BitVec 2 :=
  if stackSuspect s h then 2
  else if (s.hub h).band.toNat ≤ 2 then 0
  else if (s.hub h).band.toNat = 3 then 1 else 2

/-- REFRESH (R168, R169): a refresh command; a rate change takes effect at it. -/
def execRefresh (h : Hub) (s : State) : Host.Outcome State Fault Refusal :=
  .next <|
    if (s.hub h).st = .online then
      pmuCount (s.updHub h fun x => { x with refresh := x.nextRefresh }) (wHub h) evMemRefresh 0 1
    else s

/-- REFRESH_RATE_CHANGE (R169): the hub takes the rate its band sets, for the next refresh command. -/
def execRefreshRateChange (h : Hub) (s : State) : Host.Outcome State Fault Refusal :=
  .next <|
    if (s.hub h).st = .online then s.updHub h fun x => { x with nextRefresh := refreshRate s h } else s

/-- R170: the next scrub position; a pass that completes restarts at 0. -/
def scrubNext (p : Nat) : Nat := if 80 * 2 ^ 30 ≤ p + 64 then 0 else p + 64

/-- SCRUB_READ (R170). -/
def execScrubRead (h : Hub) (errs : Nat) (s : State) : Host.Outcome State Fault Refusal :=
  .next <|
    let x := s.hub h
    if x.scrubEn && decide (x.st = .online) && wipeComplete s then
      (checkLine (pmuCount s (wHub h) evMemScrub 0 1) (deviceAddr s h x.scrubPos.toNat) errs).st.updHub h fun y =>
        { y with
        scrubPos := BitVec.ofNat 64 (scrubNext x.scrubPos.toNat) }
    else s


/-- A value written to MH_CTRL (06 registers, R173): SCRUB_HOURS clamped to 1 to 168; READMIT sets and is not cleared. -/
def writeMhCtrl (s : State) (h : Nat) (v : Reg32) : State :=
  s.updHub h fun x => { x with
    scrubEn := v.getLsbD 0,
    scrubHours := BitVec.ofNat 8 (clampTo 1 168 (bitsAt v.toNat 1 8)),
    readmit := x.readmit || v.getLsbD 9 }

/-- MH_CTRL_WRITE (R173). -/
def execMhCtrlWrite (h : Hub) (v : Reg32) (s : State) : Host.Outcome State Fault Refusal :=
  .next <| pfAccess s fun st => (writeMhCtrl st h v).answer .ok

/-- R8: MH_CE_COUNT and MH_UC_COUNT, cleared by the read. -/
def takeCe (s : State) (h : Nat) : State × Nat := (s.updHub h fun x => { x with ce := 0 }, (s.hub h).ce.toNat)
def takeUc (s : State) (h : Nat) : State × Nat := (s.updHub h fun x => { x with uc := 0 }, (s.hub h).uc.toNat)

/-- MH_CE_COUNT_READ (R8). -/
def execMhCeCountRead (h : Hub) (s : State) : Host.Outcome State Fault Refusal :=
  .next <| pfAccess s fun st => answerRead (takeCe st h)

/-- MH_UC_COUNT_READ (R8). -/
def execMhUcCountRead (h : Hub) (s : State) : Host.Outcome State Fault Refusal :=
  .next <| pfAccess s fun st => answerRead (takeUc st h)

end Sys2Proof.Machine
end

