-- ==== Sys2Proof/Machine/Manger.lean ====
section
/-! DEFINITION. The manger: bytes, SECDED check bits, write-back (R57 to R60). -/

namespace Sys2Proof.Machine

open Sys2Proof

/-- A manger byte's key, and its word's (8 bytes). -/
def mangerKey (t off : Nat) : Nat := 2 ^ 18 * t + off
def mangerWord (t off : Nat) : Nat := 2 ^ 15 * t + off / 8

/-- R57: the bank of a byte address. -/
def mangerBank (swizzle : Bool) (off : Nat) : Nat :=
  let a := off / 64
  if swizzle then (a % 16) ^^^ (a / 16 % 16) else a % 16

def State.mangerInjAt (s : State) (k : Nat) : BitVec 8 := tabGet (fun _ => 0) s.mangerInj k

/-- R413: one word's check bits generated: an armed injection inverts some. -/
def mangerCheckBits (s : State) (t off : Nat) : State :=
  let m := injMask s t 0
  injUse { s with mangerInj := tabSet (fun _ => 0) s.mangerInj (mangerWord t off) m } t 0

/-- Check bits generated for `n` words from the one that holds byte `off`. -/
def mangerGenerate (s : State) (t off : Nat) : Nat → State
  | 0 => s
  | n + 1 => mangerGenerate (mangerCheckBits s t off) t (off + 8) n

/-- Bytes stored in a manger, with their words' check bits. A store cancels the write-back of the words it covers. -/
def mangerWrite (s : State) (t off : Nat) (bs : List Byte) : State :=
  let s1 := { s with manger := memStore s.manger (mangerKey t off) bs }
  let s2 := s1.updStall t fun x => { x with wb := x.wb.filter fun w =>
    w.toNat / 8 < off / 8 || (off + bs.length - 1) / 8 < w.toNat / 8 }
  mangerGenerate s2 t off ((off + bs.length - 1) / 8 + 1 - off / 8)

/-- What a read of the manger gives: the state after, the bytes, and whether a double-bit error was found. -/
structure MangerRead where
  st : State
  bytes : List Byte
  uc : Bool

/-- R413: the check bits inverted in the word that holds byte `off`, when nothing has corrected it: how many. -/
def mangerBad (s : State) (t off : Nat) : Nat :=
  if (s.stall t).wb.any (fun o => o.toNat / 8 = off / 8) then 0
  else popCount (s.mangerInjAt (mangerWord t off)).toNat 8

/-- R60, R414, R418: words checked, given by their offsets: injected errors only, double-bit errors first. -/
def mangerCheckWords (s : State) (t : Nat) (offs : List Nat) : State × Bool :=
  let ucs := offs.filter fun o => 2 ≤ mangerBad s t o
  let ces := offs.filter fun o => mangerBad s t o = 1
  let s1 := ucs.foldl (fun st o => reportInjected st t cMangerUc (o / 8 * 8) false) s
  (ces.foldl (fun st o => (reportInjected st t cMangerCe (o / 8 * 8) false).updStall t fun x =>
    { x with wb := x.wb ++ [BitVec.ofNat 18 (o / 8 * 8)] }) s1, !ucs.isEmpty)

/-- R60, R414: `n` words checked from the one that holds byte `off`. -/
def mangerCheck (s : State) (t off n : Nat) : State × Bool :=
  if s.mangerInj = [] then (s, false) else mangerCheckWords s t ((List.range n).map fun i => off + 8 * i)

/-- R60: bytes read from a manger. -/
def mangerRead (s : State) (t off n : Nat) : MangerRead :=
  let r := mangerCheck s t off ((off + n - 1) / 8 + 1 - off / 8)
  ⟨r.1, memBytes s.manger (mangerKey t off) n, r.2⟩

/-- R175: a stall's whole manger set to zero with valid check bits. -/
def mangerWipe (s : State) (t : Nat) : State :=
  let s1 := { s with manger := tabClear s.manger (mangerKey t 0) (mangerKey (t + 1) 0),
                     mangerInj := tabClear s.mangerInj (2 ^ 15 * t) (2 ^ 15 * (t + 1)) }
  s1.updStall t fun x => { x with wb := [] }

/-- MANGER_WRITEBACK (R60): the oldest corrected word written back with new check bits. -/
def execMangerWriteback (t : StallId) (s : State) : Host.Outcome State Fault Refusal :=
  .next <|
    match (s.stall t.toNat).wb with
    | w :: rest =>
      mangerCheckBits (s.updStall t.toNat fun x => { x with wb := rest }) t.toNat w.toNat
    | [] => s

end Sys2Proof.Machine
end

