-- ==== Sys2Proof/Machine/Wire.lean ====
section
/-! DEFINITION. Sending to other devices: link groups, routes, virtual channels, control payloads (R147, R148, R263,
R303, R305). -/

namespace Sys2Proof.Machine

open Sys2Proof

/-- R289: this device's number, from the configuration image (0 with none). -/
def myDev (s : State) : Nat := match s.tack.image with | some i => i.device.toNat | none => 0

/-- R289: the system size N (0 with no image). -/
def sysSize (s : State) : Nat := match s.tack.image with | some i => i.size.toNat | none => 0

/-- R310: the other devices of the system. -/
def partners (s : State) : List Nat := (List.range (sysSize s)).filter (· ≠ myDev s)

/-- R303: the ACTIVE links whose partner is device `d`, in ascending order. -/
def groupOf (s : State) (d : Nat) : List Nat :=
  (List.range 64).filter fun l => decide ((s.link l).st = .active) && (s.link l).known &&
    (s.link l).partner.dev.toNat = d

/-- R305: the group traffic for device `d` goes out on: the direct one, else the via's. -/
def routeGroup (s : State) (d : Nat) : List Nat :=
  if groupOf s d ≠ [] then groupOf s d
  else if (s.peer d).viaValid then groupOf s (s.peer d).via.toNat
  else []

/-- R278, R305: the links that take a new packet for device `d`: a link that DISABLE drains takes none. -/
def assignGroup (s : State) (d : Nat) : List Nat := (routeGroup s d).filter fun l => !(s.ll l).draining

/-- R315: REACH of device `d`: 0 NONE, 1 DIRECT, 2 FORWARDED, 3 SELF. -/
def reachOf (s : State) (d : Nat) : Nat :=
  if d = myDev s then 3
  else if groupOf s d ≠ [] then 1
  else if (s.peer d).viaValid && decide (groupOf s (s.peer d).via.toNat ≠ []) then 2
  else 0

/-- R276: some packet of the pair is still on a link: that link keeps the pair. -/
def heldLink (s : State) (src : Source) (chute : ChuteAddr) : Option Nat :=
  (List.range 64).find? fun l => (s.ll l).ops.any fun o => o.src = src && o.chute = chute

/-- R303: the link of a producer and chute pair. -/
def pairLink (s : State) (src : Source) (chute : ChuteAddr) : Option Nat :=
  match heldLink s src chute with
  | some l => some l
  | none =>
    let g := assignGroup s (bitsAt chute.toNat 16 6)
    let k := (src.kind.toNat * 16384 + src.id.toNat) ^^^ bitsAt chute.toNat 0 16
    g[k % g.length]?

/-- R312: the link on which a drove packet to a device out of reach queues its OPEN, so that its timer runs: the first
whose recorded partner the device is [55]. -/
def lostLink (s : State) (d : Nat) : Option Nat :=
  if routeGroup s d ≠ [] then none
  else (List.range 64).find? fun l => (s.link l).known && (s.link l).partner.dev.toNat = d

/-- R148, R303, R312: the link on which a packet on VC `v` starts: VC1 carries drove packets. -/
def startLink (s : State) (src : Source) (chute : ChuteAddr) (v : Nat) : Option Nat :=
  match pairLink s src chute with
  | some l => some l
  | none => if v = 1 then lostLink s (bitsAt chute.toNat 16 6) else none

/-- R263: the channel that carries VC `v` when the link has `vcs` of them. -/
def vcMap (vcs v : Nat) : Nat :=
  if v < max 2 vcs then v else if 3 ≤ vcs then 2 + (v - 2) % (vcs - 2) else 1

/-- R148: the virtual channel of a data packet. -/
def dataVc (chute : ChuteAddr) : Nat := 2 + bitsAt chute.toNat 0 16 % 6

/-- R147: a chute control payload. -/
def ctrlPayload (chute op dev srcId srcKind arg : Nat) : BitVec 512 :=
  BitVec.ofNat 512 (chute % 2 ^ 22 + 2 ^ 22 * op + 2 ^ 32 * (dev % 64) + 2 ^ 40 * (srcId % 2 ^ 14)
    + 2 ^ 54 * (srcKind % 4) + 2 ^ 56 * arg)

/-- R194: a payload queued on a virtual channel of a link, or held at its source while the link's OE waits for its edge
die. -/
def queueTx (s : State) (l v : Nat) (it : TxItem) : State :=
  if oeWaits s (l / 8) then { s with sys := { s.sys with oeHeld := s.sys.oeHeld ++ [(l, v, it)] } }
  else
    let w := vcMap (s.link l).vcs.toNat v
    s.updLl l fun x => x.setTxQ w (x.txQ w ++ [{ it with want := v }])

/-- R263: the queues of a link whose number of VCs has changed: each payload on the channel that now carries its VC. -/
def remapVcs (x : LL) (vcs : Nat) : LL :=
  let items := (List.range 8).flatMap x.txQ
  let place := fun (v : Nat) (p : Option (Source × ChuteAddr)) =>
    vcMap vcs (((items.find? fun it => it.pkt = p).map (·.want)).getD v)
  let y := items.foldl (fun z it =>
    let w := vcMap vcs it.want
    z.setTxQ w (z.txQ w ++ [it])) { x with txq := [] }
  { y with mid := x.mid.foldl (fun t e => tabSet (fun _ => none) t (place e.1 e.2) e.2) [] }

/-- R194, R276, R278: a link on which a producer can begin a packet or go on with one: ACTIVE, its OE not held, and
for a new packet not draining. While it is not ACTIVE its channels back-pressure their producers at once [67]. -/
def linkGoesOn (s : State) (l : Nat) : Bool := decide ((s.link l).st = .active) && !oeWaits s (l / 8)
def linkTakes (s : State) (l : Nat) : Bool := linkGoesOn s l && !(s.ll l).draining

/-- R194: the payloads held for an OE that need wait no longer are queued, in order. -/
def releaseHeld (s : State) : State :=
  s.sys.oeHeld.foldl (fun st e => queueTx st e.1 e.2.1 e.2.2) { s with sys := { s.sys with oeHeld := [] } }

/-- R148, R305: a control payload sent on VC0 toward a device; with no route it is not sent. -/
def sendCtrl0 (s : State) (dev : Nat) (src : Source) (payload : BitVec 512) (chute : Nat) : State :=
  let g := routeGroup s dev
  let k := (src.kind.toNat * 16384 + src.id.toNat) ^^^ (chute % 65536)
  match g[k % g.length]? with
  | some l => queueTx s l 0 { typ := 2, payload := payload }
  | none => s

/-- R149: a STATUS message to a producer on another device. -/
def sendStatus (s : State) (src : Source) (chute : Nat) (st : Nat) : State :=
  sendCtrl0 s src.dev.toNat src
    (ctrlPayload (myDev s * 65536 + chute) 6 (myDev s) src.id.toNat src.kind.toNat st) chute

/-- R140: XOFF or XON to a device. SRC is a free value: the manual names no producer for it [4]. -/
def sendXoff (s : State) (dev chute : Nat) (on : Bool) : State :=
  let v := s.freeNow.toNat
  sendCtrl0 s.useFree dev {} (ctrlPayload (myDev s * 65536 + chute) (if on then 4 else 5) (myDev s)
    (bitsAt v 0 14) (bitsAt v 14 2) 0) chute

/-- R306: two producers that a STATUS message cannot tell apart. -/
def sameProducer (a b : Source) : Bool := a.kind = b.kind && a.id = b.id

/-- R306: a producer and chute pair noted as the latest. -/
def noteForward (s : State) (src : Source) (chute : ChuteAddr) : State :=
  { s with sys := { s.sys with forwards := s.sys.forwards.filter (· ≠ (src, chute)) ++ [(src, chute)] } }

/-- R306: an own packet of a producer number and chute whose packets are forwarded too. -/
def noteOwn (s : State) (src : Source) (chute : ChuteAddr) : State :=
  if s.sys.forwards.any fun e => sameProducer e.1 src && e.2 = chute then noteForward s src chute else s

/-- R303, R306: the OPEN of another device's packet queued on its link, which keeps the pair until the packet has
gone. -/
def forwardOpen (s : State) (l v : Nat) (payload : BitVec 512) (src : Source) (chute : ChuteAddr) : State :=
  (queueTx (noteForward s src chute) l v { typ := 2, payload := payload, pkt := some (src, chute) }).updLl l fun x =>
    { x with ops := x.ops ++ [{ src := src, chute := chute, vc := v, via := true }] }

/-- R306: a line of a forwarded packet. -/
def forwardLine (s : State) (l v : Nat) (payload : BitVec 512) (src : Source) (chute : ChuteAddr) : State :=
  queueTx s l v { typ := 1, payload := payload, pkt := some (src, chute) }

/-- R306: the CLOSE or ABORT of a forwarded packet. -/
def forwardEnd (s : State) (l v : Nat) (payload : BitVec 512) (src : Source) (chute : ChuteAddr) : State :=
  (queueTx s l v { typ := 2, payload := payload, pkt := some (src, chute) }).updLl l fun x =>
    { x with ops := x.ops.map fun o => if o.via && o.src = src && o.chute = chute then { o with closed := true } else o }

/-- R147: the OPEN of a remote packet queued, and its operation timer started (R283). -/
def remoteStart (s : State) (l : Nat) (src : Source) (chute : ChuteAddr) (v : Nat) : State :=
  let open_ := ctrlPayload chute.toNat 1 (myDev s) src.id.toNat src.kind.toNat 0
  let s1 := queueTx (noteOwn s src chute) l v { typ := 2, payload := open_, pkt := some (src, chute) }
  s1.updLl l fun x => { x with ops := x.ops ++ [{ src := src, chute := chute, vc := v }] }

/-- R147: one line of a remote packet. -/
def remoteLine (s : State) (l : Nat) (src : Source) (chute : ChuteAddr) (v : Nat) (line : Line) : State :=
  queueTx s l v { typ := 1, payload := line, pkt := some (src, chute) }

/-- R147: the CLOSE of a remote packet, or its ABORT. -/
def remoteEnd (s : State) (l : Nat) (src : Source) (chute : ChuteAddr) (v : Nat) (abort : Bool) (arg : Nat) : State :=
  let op := if abort then 3 else 2
  let last := ctrlPayload chute.toNat op (myDev s) src.id.toNat src.kind.toNat (if abort then 0 else arg)
  queueTx s l v { typ := 2, payload := last, pkt := some (src, chute) }

/-- R140: a remote chute has sent XOFF. -/
def remoteXoff (s : State) (chute : Nat) : Bool := tabGet (fun _ => false) s.xoffRemote chute

/-- The status of a local producer endpoint for remote chutes (R149). -/
def epKey (src : Source) : Nat := 16384 * src.kind.toNat + src.id.toNat
def setEpStat (s : State) (src : Source) (p : PStat) : State :=
  { s with epStat := tabSet (fun _ => .ok) s.epStat (epKey src) p }

end Sys2Proof.Machine
end

