-- ==== Sys2Proof/Machine/ChuteOps.lean ====
section
/-! DEFINITION. What happens inside a chute: words, commits, rewinds, watermarks, flush, enable and disable
(05_chutes.md). -/

namespace Sys2Proof.Machine

open Sys2Proof

/-! ### Pointers (R126) -/

/-- Lines of the buffer. -/
def Chute.size (x : Chute) : Nat := 2 ^ x.depth.toNat

/-- A pointer moved forward, modulo 2^(n+1). -/
def Chute.adv (x : Chute) (p : BitVec 21) (k : Nat) : BitVec 21 := BitVec.ofNat 21 ((p.toNat + k) % (2 * x.size))

/-- The distance from one pointer to another, modulo 2^(n+1). -/
def Chute.dist (x : Chute) (a b : BitVec 21) : Nat := (b.toNat + 2 * x.size - a.toNat % (2 * x.size)) % (2 * x.size)

/-- Occupancy O. -/
def Chute.occ (x : Chute) : Nat := x.dist x.fp x.wp

/-- Committed lines not yet read. -/
def Chute.ready (x : Chute) : Nat := x.dist x.rp x.cp

/-- Lines of the open packet. -/
def Chute.openLines (x : Chute) : Nat := x.dist x.cp x.wp

/-! ### Watermarks (R138 to R140) -/

/-- R138: O is at or above HIGH_WM. -/
def Chute.atHigh (x : Chute) : Bool := decide (x.high ≠ 0) && decide (x.high.toNat ≤ x.occ)

/-- R138: the low mark in force. -/
def Chute.lowMark (x : Chute) : Nat := if x.low < x.high then x.low.toNat else x.high.toNat - 1

/-- R138: O is at or below LOW_WM; with the watermarks disabled nothing is above. -/
def Chute.atLow (x : Chute) : Bool := decide (x.high = 0) || decide (x.occ ≤ x.lowMark)

/-- R138: XOFF after an evaluation. -/
def Chute.nextXoff (x : Chute) : Bool :=
  if x.high = 0 then false else if x.atHigh then true else if x.atLow then false else x.xoff

/-- R140: XOFF sent to every device of REMOTE_SRC, or XON, after which REMOTE_SRC clears. -/
def notifyXoff (s : State) (c : Nat) (on : Bool) : State :=
  let x := s.chute c
  let s1 := (List.range 64).foldl (fun st k => if x.remoteSrc.getLsbD k then sendXoff st k c on else st) s
  if on then s1 else s1.updChute c fun y => { y with remoteSrc := 0 }

/-- R139: one crossing counted, with its event. -/
def crossing (s : State) (c : Nat) (up : Bool) : State :=
  let s1 := s.updChute c fun x => { x with
    hwmSeen := x.hwmSeen || up, lwmSeen := x.lwmSeen || !up, crossings := x.crossings + 1 }
  let x := s1.chute c
  if x.eventEn then raiseEvent s1 x.func.toNat evCrossing c (bit up + 2 ^ 16 * x.crossings.toNat) else s1

/-- R194: the chutes of a logical number answer: the number is held, and no replacement of its die runs that has not
reached step 10. -/
def chuteHeld (s : State) (d : Nat) : Bool :=
  s.held d && match s.pnet.repl with
    | some r => !(decide (r.die.toNat = d) && decide (r.step < 10))
    | none => true

/-- The die-logic source of a chute: the site that holds its logical number, or the tack die's while it is EMPTY. -/
def chuteSource (s : State) (c : Nat) : Nat :=
  if chuteHeld s (c / 1024) then srcDie (s.siteOf (c / 1024)) else srcDie 35

/-- R413, R414: an entry of the chute table that changed, whose check bits the slice generates: the next one meets an
armed injection, which the check finds. -/
def sliceCheck (old : Chute) (s : State) (c : Nat) : State :=
  let x := chuteSource s c
  if s.flt.arm.isNone || s.chute c = old then s
  else if injMask s x 1 ≠ 0 then reportInjected (injUse s x 1) x cDieSlice c false
  else injUse s x 1

/-- R138 to R140: the marks evaluated after a command; `old` is the chute before it. Disabled watermarks count no
crossing. -/
def marks (old : Chute) (s : State) (c : Nat) : State :=
  let x := s.chute c
  let xoff := x.nextXoff
  let s1 := (sliceCheck old s c).updChute c fun y => { y with xoff := xoff }
  let s2 := if !old.atHigh && x.atHigh then crossing s1 c true else s1
  let s3 := if decide (x.high ≠ 0) && !old.atLow && x.atLow then crossing s2 c false else s2
  if xoff = old.xoff then s3 else notifyXoff s3 c xoff

/-- A change of one chute followed by the evaluation of its marks. -/
def changeChute (s : State) (c : Nat) (f : Chute → Chute) : State := marks (s.chute c) (s.updChute c f) c

/-! ### Refusals (R151, R194) -/

/-- R151: a refusal. -/
def refuseChute (s : State) (c : Nat) : State :=
  bucketReport (s.updChute c fun x => { x with pstat := .refused }) 4 (chuteSource s c) cChuteRefused c

/-! ### Storage (R124, R127, R128) -/

/-- R155: the stall and byte offset of manger storage. -/
def Chute.mangerStall (x : Chute) : Nat := bitsAt x.base.toNat 18 12
def Chute.mangerOff (x : Chute) : Nat := bitsAt x.base.toNat 0 18

/-- R124, R131, R174: a line stored at a buffer index; a stack line whose hub is not reached waits in the panel network.
DESIGN CHOICE [61]: R124 keeps a manger buffer below 0x4_0000, and only the loader's refusal is given: one that register
writes set to pass it runs on into the next stall's manger. -/
def storeChuteLine (s : State) (c idx : Nat) (l : Line) : State :=
  let x := s.chute c
  let a := x.base.toNat + idx * 64
  if x.stack then
    if reqWaits s a 64 then { s with ms := { s.ms with waiting := s.ms.waiting ++ [.line a (lineBytes l)] } }
    else writeLine s a (lineBytes l) false 0
  else mangerWrite s x.mangerStall (x.mangerOff + idx * 64) (lineBytes l)

/-- R174: the stack line at a buffer index waits for its hub. -/
def chuteLineWaits (s : State) (c idx : Nat) : Bool :=
  (s.chute c).stack && reqWaits s ((s.chute c).base.toNat + idx * 64) 64

/-- R128: the tag of a packet's line: the `j`th of `n`, the last with `v` valid bytes. -/
def lineTag (j n v : Nat) : BitVec 8 :=
  if j + 1 < n then (if j = 0 then 0x7F else 0x3F)
  else BitVec.ofNat 8 ((if n = 1 then 0xC0 else 0x80) + (v - 1))

/-- A tag's FIRST, LAST and valid-byte count. -/
def tagFirst (t : BitVec 8) : Bool := t.getLsbD 6
def tagLast (t : BitVec 8) : Bool := t.getLsbD 7
def tagValid (t : BitVec 8) : Nat := t.toNat % 64 + 1

/-- R422: one occurrence of a chute event at the chute's die. -/
def chuteEvent (s : State) (c ev : Nat) : State := pmuCount s (c / 1024) ev 0 1

/-! ### Producing (R129 to R134) -/

/-- R132: the open packet rewound. -/
def rewindOpen (x : Chute) (p : PStat) (discard : Bool) : Chute :=
  { x with wp := x.cp, wslot := 0, opened := false, vanished := x.vanished + 1, pstat := p, words := 0, openPois := false,
           lineBuf := 0, spaceWait := [], discards := if discard then addNew x.discards x.src else x.discards }

/-- What became of a word: taken, refused, no space, another packet open or no new packet allowed. -/
inductive PushRes
  | taken | refused | full | busy
  deriving DecidableEq, Repr

/-- R127, R130: the word placed in the newest line, which it begins when WSLOT is 0. -/
def placeWord (x : Chute) (w : ChuteWord) : Chute :=
  let slot := x.wslot.toNat
  let keep := if w.last then w.len.toNat + 1 else 16
  let d := BitVec.ofNat 512 (w.data.toNat % 2 ^ (8 * keep))
  { x with
    wp := if slot = 0 then x.adv x.wp 1 else x.wp,
    lineBuf := (if slot = 0 then 0 else x.lineBuf) ||| (d <<< (128 * slot)),
    wslot := BitVec.ofNat 2 (slot + 1), words := x.words + 1, openPois := x.openPois || w.poison }

/-- R128: the tags of the open packet's lines. -/
def tagLines (x : Chute) (v : Nat) : Tab (BitVec 8) :=
  (List.range x.openLines).foldl
    (fun t j => tabSet (fun _ => 0) t ((x.cp.toNat + j) % x.size) (lineTag j x.openLines v)) x.tags

/-- R142: the LAST word of a source clears its FLUSH_PENDING. -/
def endFlush (x : Chute) (src : Source) : Chute := { x with flushes := x.flushes.filter (· ≠ src) }

/-- R131, R132, R142: the LAST word's end of the open packet: committed, or rewound for poison. `v` is the valid-byte
count of the last line. -/
def commitOpen (s : State) (c v : Nat) : State :=
  let x := s.chute c
  if x.openPois then
    report (chuteEvent (s.setChute c (endFlush (rewindOpen x .poisoned false) x.src)) c evChuteRewinds) (chuteSource s c)
      cChutePoison c
  else
    (chuteEvent s c evChuteCommits).setChute c { x with
      tags := tagLines x v, cp := x.wp, wslot := 0, opened := false, words := 0, lineBuf := 0,
      pstat := if x.src ∈ x.flushes then .flushedNew else .ok,
      flushes := x.flushes.filter (· ≠ x.src),
      commits := x.commits ++ [(x.wp, s.time)] }

/-- R127 to R132: a word of the open packet stored: too long, no space, or placed, with its line stored once complete
and the packet ended by LAST. -/
def storeWord (s : State) (c : Nat) (w : ChuteWord) : State × PushRes :=
  let x := s.chute c
  let newLine := x.wslot = 0
  if 4096 < x.words + 1 || (newLine && x.size < x.openLines + 1) then
    let y := rewindOpen x .tooLong (!w.last)
    (report (chuteEvent (s.setChute c (if w.last then endFlush y x.src else y)) c evChuteRewinds) (chuteSource s c)
      cChuteTooLong c, .taken)
  else if newLine && x.size ≤ x.occ then (s, .full)
  else
    let y := placeWord x w
    let idx := (y.wp.toNat + 2 * y.size - 1) % y.size
    let v := 16 * (if y.wslot = 0 then 3 else y.wslot.toNat - 1) + (w.len.toNat + 1)
    let s1 := (chuteEvent s c evChuteWords).setChute c y
    let s2 := if w.last || y.wslot = 0 then storeChuteLine s1 c idx y.lineBuf else s1
    (if w.last then commitOpen s2 c v else s2, .taken)

/-- R140: XOFF keeps the source from starting a packet: a local stall or DMA channel. -/
def xoffHolds (s : State) (x : Chute) (src : Source) : Bool :=
  decide (src.kind.toNat ≤ 1) && decide (src.dev.toNat = myDev s) && x.xoff

/-- R129: a FIRST word of the source waits for another producer: one that has a packet open, or whose own FIRST word
came before and waits. -/
def firstWaits (s : State) (x : Chute) (src : Source) : Bool :=
  if x.opened then decide (x.src ≠ src)
  else match x.order.find? fun a => !xoffHolds s x a with
    | some a => decide (a ≠ src)
    | none => false

/-- R144, R145, R151, R152, R194: a word of the source is refused: in a DISABLED chute, a new FIRST word or one that
is not of the open packet (nor of one being discarded, R132) in a DISABLING one, and one from another device while
REMOTE_OK is clear. -/
def wordRefused (s : State) (c : Nat) (src : Source) (first : Bool) : Bool :=
  let x := s.chute c
  decide (x.st = .disabled) || !chuteHeld s (c / 1024) || (decide (src.dev.toNat ≠ myDev s) && !x.remoteOk) ||
    (decide (x.st = .disabling) && (first || !((x.opened && decide (x.src = src)) || decide (src ∈ x.discards))))

/-- R129: the source takes its place among those whose FIRST word waits. -/
def queueFirst (s : State) (c : Nat) (src : Source) : State :=
  s.updChute c fun x => { x with order := addNew x.order src }

/-- R129: a source that no longer waits. -/
def leaveOrder (s : State) (c : Nat) (src : Source) : State :=
  s.updChute c fun x => { x with order := x.order.filter (· ≠ src) }

/-- R129, R132, R133, R142, R154: one word at the chute, from its source. A word that meets the expiry of
DISABLE_LIMIT is discarded. -/
def pushWord (s : State) (c : Nat) (src : Source) (w : ChuteWord) : State × PushRes :=
  let x := s.chute c
  if !w.first && decide (x.cut = some (src, s.time)) then (s, .taken)
  else if wordRefused s c src w.first then (refuseChute (if w.first then leaveOrder s c src else s) c, .refused)
  else if !w.first && src ∈ x.discards then
    if w.last then
      (s.setChute c { x with
        discards := x.discards.filter (· ≠ src), flushes := x.flushes.filter (· ≠ src),
        pstat := if src ∈ x.flushes then .flushed else x.pstat }, .taken)
    else (s, .taken)
  else if !w.first then
    if x.opened && decide (x.src = src) then storeWord s c w
    else (s.setChute c { x with pstat := .orphan }, .taken)
  else if firstWaits s x src || xoffHolds s x src then (s, .busy)
  else
    let y := if x.opened then rewindOpen x .aborted false else x
    if y.size ≤ y.occ then (s, .full)
    else
      let z := { y with discards := y.discards.filter (· ≠ src), opened := true, src := src, words := 0,
                        openPois := false, wslot := 0, lineBuf := 0, order := y.order.filter (· ≠ src),
                        cut := y.cut.filter (·.1 ≠ src) }
      storeWord ((if x.opened then chuteEvent s c evChuteRewinds else s).setChute c z) c w

/-- R140: REMOTE_SRC records a device that has sent a word. -/
def noteRemote (s : State) (c : Nat) (src : Source) : State :=
  if src.dev.toNat = myDev s then s
  else s.updChute c fun x => { x with remoteSrc := x.remoteSrc ||| BitVec.ofNat 64 (2 ^ src.dev.toNat) }

/-- Words of one cycle at the chute (R131: at most a line), without the marks; what became of the first. -/
def pushAll (s : State) (c : Nat) (src : Source) : List ChuteWord → State × PushRes
  | [] => (s, .taken)
  | w :: ws =>
    let r := pushWord s c src w
    if r.2 = .taken then ((pushAll (noteRemote r.1 c src) c src ws).1, .taken) else r

/-- R139: words of one cycle with one evaluation of the marks. -/
def pushLine (s : State) (c : Nat) (src : Source) (ws : List ChuteWord) : State × PushRes :=
  let r := pushAll s c src ws
  (marks (s.chute c) r.1 c, r.2)

/-- A word with the evaluation of the marks. -/
def pushMarked (s : State) (c : Nat) (src : Source) (w : ChuteWord) : State × PushRes := pushLine s c src [w]

/-- R129, R130: some word of the source waits at the chute. -/
def Chute.waits (x : Chute) (src : Source) : Bool :=
  x.waiting.any (·.src = src) || x.spaceWait.any (·.src = src)

/-- R129, R130: a word from a producer that can wait: it joins the words of its source that wait, or waits when it
cannot be taken. -/
def offerWord (s : State) (c : Nat) (src : Source) (w : ChuteWord) : State :=
  let x := s.chute c
  if x.spaceWait.any (·.src = src) then s.setChute c { x with spaceWait := x.spaceWait ++ [⟨src, w⟩] }
  else if x.waiting.any (·.src = src) then s.setChute c { x with waiting := x.waiting ++ [⟨src, w⟩] }
  else
    let r := pushMarked s c src w
    if r.2 = .taken || r.2 = .refused then r.1
    else if w.first then queueFirst (s.setChute c { x with waiting := x.waiting ++ [⟨src, w⟩] }) c src
    else s.setChute c { x with spaceWait := x.spaceWait ++ [⟨src, w⟩] }

/-- Words offered in order. -/
def offerWords (s : State) (c : Nat) (src : Source) (ws : List ChuteWord) : State :=
  ws.foldl (fun st w => offerWord st c src w) s

/-- R129, R130, R154: the words that wait are offered again, those of the open packet first, then FIRST words in their
order of arrival. -/
def retryWaiting (s : State) (c : Nat) : State :=
  let x := s.chute c
  let s1 := s.setChute c { x with spaceWait := [], waiting := [] }
  (x.spaceWait ++ x.waiting).foldl (fun st e => offerWord st c e.src e.w) s1

/-- The words of a line with `v` valid bytes. -/
def lineWords (l : Line) (v : Nat) (first last poison : Bool) : List ChuteWord :=
  let n := (v + 15) / 16
  (List.range n).map fun i =>
    { data := l.extractLsb' (128 * i) 128, first := first && i = 0, last := last && i + 1 = n,
      len := BitVec.ofNat 4 (if i + 1 = n then (v - 1) % 16 else 15), poison := poison }

/-- R149: an outcome other than OK reported to a producer on another device. -/
def statusOut (s : State) (c : Nat) (src : Source) (p : PStat) : State :=
  if src.dev.toNat = myDev s || p = .ok then s
  else sendStatus s src c (match p with
    | .ok => 0 | .flushed => 1 | .flushedNew => 2 | .aborted => 3 | .poisoned => 4 | .tooLong => 5 | .refused => 6
    | .orphan => 7)

/-- R132, R149: every open packet of a source at local chutes rewound with DISCARD, and its waiting words dropped. -/
def abortAtChute (s : State) (c : Nat) (src : Source) : State :=
  let x := s.chute c
  let s1 := if x.opened && decide (x.src = src) then
      statusOut (changeChute (chuteEvent s c evChuteRewinds) c fun y => rewindOpen y .aborted true) c src .aborted
        else s
  s1.updChute c fun y => { y with
    waiting := y.waiting.filter (·.src ≠ src), spaceWait := y.spaceWait.filter (·.src ≠ src),
    order := y.order.filter (· ≠ src) }

/-- The identities of a stall's output ports (R153). -/
def stallSource (s : State) (t p : Nat) : Source :=
  { kind := 0, dev := BitVec.ofNat 6 (myDev s), id := BitVec.ofNat 14 (4 * t + p) }

/-- R132, R148: an open packet of a source on a link: ABORT follows its data. -/
def abortOnLink (s : State) (l : Nat) (src : Source) : State :=
  (s.ll l).ops.foldl (fun st o =>
    if o.src = src && o.endSeq.isNone && !(decide (o.closed)) then
      (remoteEnd st l src o.chute o.vc true 0).updLl l fun x => { x with
        ops := x.ops.map fun q => if q.src = src && q.chute = o.chute && !q.closed then { q with closed := true }
          else q }
    else st) s

/-- R81, R116, R132: the open packets of a source rewound, here and on other devices; the count of packets rewound. -/
def abortSource (s : State) (src : Source) : State × Nat :=
  let cs := (s.chutes.filter fun e => e.2.opened && decide (e.2.src = src)).length
  let rs := (List.range 64).foldl (fun n l => n + ((s.ll l).ops.filter fun o => o.src = src && !o.closed).length) 0
  let s1 := s.chutes.foldl (fun st e => abortAtChute st e.1 src) s
  ((List.range 64).foldl (fun st l => abortOnLink st l src) s1, cs + rs)

/-! ### Consuming (R135 to R137) -/

/-- R135: the idle line. -/
def idleLine (x : Chute) : Line :=
  (List.range 16).foldl (fun l i => l ||| ((x.idle.setWidth 512) <<< (32 * i))) 0

/-- What a consumer's read gives: the state after, the line with its tag and sideband, and a double-bit manger error. -/
structure ChuteRead where
  st : State
  line : TLine
  uc : Bool

/-- R431: the commit time of the packet that holds the line at RP. -/
def Chute.commitTime (x : Chute) : BitVec 64 :=
  match x.commits.find? fun e => 0 < x.dist x.rp e.1 && x.dist x.rp e.1 ≤ x.dist x.rp x.cp with
  | some e => e.2
  | none => 0

/-- R135: a read by the consumer endpoint. While the line's hub is not reached (R174) the read finds nothing. -/
def chuteRead (s : State) (c : Nat) : ChuteRead :=
  let x := s.chute c
  if x.st = .disabled || x.ready = 0 || chuteLineWaits s c (x.rp.toNat % x.size) then
    ⟨chuteEvent s c evChuteIdle, { data := idleLine x, tag := 0 }, false⟩
  else
    let idx := x.rp.toNat % x.size
    let tag := tabGet (fun _ => 0) x.tags idx
    let next := sliceCheck x ((chuteEvent s c evChuteLines).setChute c { x with rp := x.adv x.rp 1 }) c
    if x.stack then
      let r := readLine next (x.base.toNat + idx * 64) 0
      ⟨r.st, { data := r.line, tag := tag, poison := r.poison, at_ := x.commitTime, chute := true }, false⟩
    else
      let r := mangerRead next x.mangerStall (x.mangerOff + idx * 64) 64
      ⟨r.st, { data := lineOf r.bytes, tag := tag, at_ := x.commitTime, chute := true }, r.uc⟩

/-- R174: a committed line of the chute waits for its hub, so a packet cannot be read whole. -/
def chuteWaits (s : State) (c : Nat) : Bool :=
  let x := s.chute c
  x.stack && (List.range x.ready).any fun i => chuteLineWaits s c ((x.rp.toNat + i) % x.size)

/-- R136: MARK, REWIND and RELEASE. -/
def markChute (x : Chute) : Chute := { x with mp := x.rp }
def rewindChute (x : Chute) : Chute := { x with rp := x.mp }
def releaseChute (x : Chute) : Chute :=
  { x with fp := x.rp, mp := x.rp,
           commits := x.commits.filter fun e => 0 < x.dist x.rp e.1 && x.dist x.rp e.1 ≤ x.dist x.rp x.cp }

/-! ### Flush, INIT, ENABLE, DISABLE (R142 to R145) -/

/-- R142: FLUSH. -/
def flushChute (x : Chute) : Chute :=
  let y := { x with
    wp := x.fp, cp := x.fp, rp := x.fp, mp := x.fp, wslot := 0, lineBuf := 0, words := 0, openPois := false,
    commits := [] }
  if x.opened then
    { y with opened := false, vanished := x.vanished + 1, discards := addNew x.discards x.src,
             flushes := addNew x.flushes x.src }
  else y

/-- R126, R155: DEPTH_LOG2 written. The pointers lose their bits above bit n; MP and FP of space not yet released go
on to RP where they would break the pointers' order [61]. -/
def setDepth (x : Chute) (d : Nat) : Chute :=
  let cutTo := fun (p : BitVec 21) => BitVec.ofNat 21 (p.toNat % 2 ^ (d + 1))
  let y := { x with depth := BitVec.ofNat 5 d, wp := cutTo x.wp, cp := cutTo x.cp, rp := cutTo x.rp, mp := cutTo x.mp,
                    fp := cutTo x.fp }
  if y.dist y.fp y.mp ≤ y.dist y.fp y.rp && y.dist y.fp y.rp ≤ y.dist y.fp y.cp && y.dist y.fp y.cp ≤ y.occ &&
    y.occ ≤ y.size then y else { y with mp := y.rp, fp := y.rp }

/-- R144: INIT. -/
def initChute (x : Chute) : Chute :=
  { x with wp := 0, cp := 0, rp := 0, mp := 0, fp := 0, wslot := 0, opened := false, lineBuf := 0, words := 0,
           openPois := false, vanished := 0, crossings := 0, pstat := .ok, hwmSeen := false, lwmSeen := false,
           discards := [], flushes := [], remoteSrc := 0, commits := [], waiting := [], spaceWait := [], order := [],
           cut := none, xoff := false, tags := [] }

/-- R143: the consumer endpoint is a stall of a pen that is RUNNING or DRAINING. -/
def flushBusy (s : State) (c : Nat) : Bool :=
  match (s.chute c).consumer with
  | .stall t _ =>
    match penOfDie s (t.toNat / 64) with
    | some p => decide ((s.pen p).st = .running) || decide ((s.pen p).st = .draining)
    | none => false
  | _ => false

/-- R145: the abort of a DISABLING chute. -/
def disableAbort (s0 : State) (c : Nat) : State :=
  let x := s0.chute c
  let n := x.ready
  let s := if x.opened then statusOut (chuteEvent s0 c evChuteRewinds) c x.src .aborted else s0
  let s1 := changeChute s c fun y =>
    let z := if y.opened then rewindOpen y .aborted false else y
    { z with rp := z.cp, mp := z.cp, fp := z.cp, commits := [], spaceWait := [], st := .disabled,
             cut := if y.opened then some (y.src, s0.time) else y.cut }
  let d := s1.chuteDie (c / 1024)
  s1.setChuteDie (c / 1024) { d with abortLines := satAdd 32 d.abortLines n }

/-- R145: DISABLED is reached once no packet is open and everything committed has been read. -/
def disableDone (x : Chute) : Bool := decide (x.st = .disabling) && !x.opened && decide (x.rp = x.cp)

/-- R141: FLOW[k]: high until READY; then while a chute mapped to it has XOFF set or is not ENABLED. -/
def flowPin (s : State) (k : Nat) : Bool :=
  !s.tack.readyNow ||
    s.chutes.any fun e => e.2.flowEn && e.2.flowPin.toNat = k && (e.2.xoff || decide (e.2.st ≠ .enabled))

end Sys2Proof.Machine
end

