-- ==== Sys2Proof/Machine/Numbers.lean ====
section
/-! DEFINITION. Exact values, element formats, rounding and the order-free window (02_number_formats.md). -/

namespace Sys2Proof.Machine

open Sys2Proof

/-- An exact value: `(-1)^neg * m * 2^e`, a NaN, or an infinity. -/
inductive Num
  | fin (neg : Bool) (m : Nat) (e : Int)
  | nan
  | inf (neg : Bool)
  deriving DecidableEq, Repr

/-! ### Integers and powers of two -/

/-- `m * 2^k` rounded to the nearest integer, ties to even (R26, R37). -/
def rneShift (m k : Int) : Int :=
  if 0 ≤ k then m * 2 ^ k.toNat
  else
    let d : Int := 2 ^ (-k).toNat
    let q := m / d
    let r := m % d
    if 2 * r < d then q else if d < 2 * r then q + 1 else if q % 2 = 0 then q else q + 1

/-- `m * 2^k` is an integer. -/
def isExact (m k : Int) : Bool :=
  if 0 ≤ k then true else m % 2 ^ (-k).toNat = 0

/-- The signed integer of a sign and a magnitude. -/
def signedInt (neg : Bool) (m : Nat) : Int := if neg then -(m : Int) else m

/-! ### Element formats (R18 to R22, codes of R93) -/

/-- Exponent bits, mantissa bits, bias, and whether the top exponent holds infinities and NaNs. -/
structure FmtShape where
  eb : Nat
  mb : Nat
  bias : Int
  ieee : Bool
  deriving DecidableEq, Repr

/-- The shape of the format with a code of R93; 8 and 9 read as binary32. MXINT8 is apart. -/
def fmtOf : Nat → FmtShape
  | 0 => ⟨2, 1, 1, false⟩
  | 1 => ⟨2, 3, 1, false⟩
  | 2 => ⟨3, 2, 3, false⟩
  | 3 => ⟨4, 3, 7, false⟩
  | 4 => ⟨5, 2, 15, true⟩
  | 5 => ⟨0, 7, 0, false⟩
  | 6 => ⟨8, 7, 127, true⟩
  | 7 => ⟨5, 10, 15, true⟩
  | _ => ⟨8, 23, 127, true⟩

/-- Bits of an element. -/
def fmtBits (c : Nat) : Nat := 1 + (fmtOf c).eb + (fmtOf c).mb

/-- MX formats (R18). -/
def fmtMx (c : Nat) : Bool := c ≤ 5

/-- Bytes of 32 consecutive elements (R21, R49). -/
def fmtBlock (c : Nat) : Nat := 4 * fmtBits c

/-- emax of R39. -/
def fmtEmax : Nat → Int
  | 0 => 2
  | 1 => 2
  | 2 => 4
  | 3 => 8
  | 4 => 15
  | _ => 0

/-- The largest finite magnitude's bits (R18). -/
def fmtMax (c : Nat) : Nat :=
  let f := fmtOf c
  if f.ieee then (2 ^ f.eb - 1) * 2 ^ f.mb - 1
  else if c = 3 then 0x7E
  else if c = 5 then 127
  else 2 ^ (f.eb + f.mb) - 1

/-- The canonical NaN (R38); 0 where the format has none. -/
def fmtNan : Nat → Nat
  | 3 => 0x7F
  | 4 => 0x7E
  | 6 => 0x7FC0
  | 7 => 0x7E00
  | 8 => 0x7FC00000
  | 9 => 0x7FC00000
  | _ => 0

/-- The value of an element (R18, R20, R22). -/
def decodeElem (c x : Nat) : Num :=
  let f := fmtOf c
  if c = 5 then
    let v := x % 256
    if v < 128 then .fin false v (-6) else .fin true (256 - v) (-6)
  else
    let neg := x / 2 ^ (f.eb + f.mb) % 2 = 1
    let ex := x / 2 ^ f.mb % 2 ^ f.eb
    let man := x % 2 ^ f.mb
    if f.ieee && ex = 2 ^ f.eb - 1 then (if man = 0 then .inf neg else .nan)
    else if c = 3 && ex = 15 && man = 7 then .nan
    else if ex = 0 then .fin neg man (1 - f.bias - f.mb)
    else .fin neg (2 ^ f.mb + man) (ex - f.bias - f.mb)

/-- Element `i` of a packed string of elements (R21). -/
def unpackElem (c data i : Nat) : Nat := data / 2 ^ (i * fmtBits c) % 2 ^ fmtBits c

/-- Elements packed little-endian (R21). -/
def packElems (c : Nat) : List Nat → Nat
  | [] => 0
  | x :: xs => x + 2 ^ fmtBits c * packElems c xs

/-! ### Exact arithmetic -/

/-- Negation, of everything but a NaN. -/
def Num.negate : Num → Num
  | .fin n m e => .fin (!n) m e
  | .nan => .nan
  | .inf n => .inf (!n)

/-- The exact product (R29: an infinity times zero is NaN). -/
def Num.times : Num → Num → Num
  | .nan, _ => .nan
  | _, .nan => .nan
  | .fin a m e, .fin b n f => .fin (a != b) (m * n) (e + f)
  | .inf a, .inf b => .inf (a != b)
  | .inf a, .fin b n _ => if n = 0 then .nan else .inf (a != b)
  | .fin a m _, .inf b => if m = 0 then .nan else .inf (a != b)

/-- The exact sum; an exact zero is negative only when both addends are (R44). -/
def Num.plus : Num → Num → Num
  | .nan, _ => .nan
  | _, .nan => .nan
  | .inf a, .inf b => if a = b then .inf a else .nan
  | .inf a, .fin _ _ _ => .inf a
  | .fin _ _ _, .inf b => .inf b
  | .fin a m e, .fin b n f =>
    let lo := min e f
    let s := signedInt a m * 2 ^ (e - lo).toNat + signedInt b n * 2 ^ (f - lo).toNat
    .fin (if s = 0 then a && b else decide (s < 0)) s.natAbs lo

/-! ### The window (R24 to R31) -/

/-- R29: how classes combine. -/
def AccClass.combine : AccClass → AccClass → AccClass
  | .nan, _ => .nan
  | _, .nan => .nan
  | .finite, c => c
  | c, .finite => c
  | .pinf, .pinf => .pinf
  | .ninf, .ninf => .ninf
  | .pinf, .ninf => .nan
  | .ninf, .pinf => .nan

/-- R27: `q` added exactly; the wrap count's parity goes into ODD. -/
def accAddInt (a : Acc) (q : Int) : Acc :=
  let s := a.w.toInt + q
  let k := (s + 2 ^ 95) / 2 ^ 96
  { a with w := BitVec.ofInt 96 (s - k * 2 ^ 96), odd := if k % 2 = 0 then a.odd else !a.odd }

/-- R26, R27, R29: one contribution at an anchor. -/
def accAdd (a : Acc) (anchor : Int) : Num → Acc
  | .nan => { a with cls := a.cls.combine .nan }
  | .inf true => { a with cls := a.cls.combine .ninf }
  | .inf false => { a with cls := a.cls.combine .pinf }
  | .fin n m e =>
    let v := signedInt n m
    accAddInt { a with inexact := a.inexact || !isExact v (e - anchor) } (rneShift v (e - anchor))

/-- R27, R29, R42: two states of one anchor merged. -/
def accMerge (a b : Acc) : Acc :=
  let s := accAddInt a b.w.toInt
  { s with odd := s.odd != b.odd, inexact := a.inexact || b.inexact, cls := a.cls.combine b.cls,
           poisoned := a.poisoned || b.poisoned }

/-- R28, R30: INEXACT and OVERFLOW of a final result. -/
def accInexact (a : Acc) : Bool := a.cls = .finite && a.inexact
def accOverflow (a : Acc) : Bool := a.cls = .finite && a.odd

/-- R28, R37, R38: the value a final result converts from. -/
def accValue (a : Acc) (anchor : Int) : Num :=
  match a.cls with
  | .nan => .nan
  | .pinf => .inf false
  | .ninf => .inf true
  | .finite => if a.odd then .nan else .fin (decide (a.w.toInt < 0)) a.w.toInt.natAbs anchor

/-! ### The block contribution (R25, R29) -/

/-- Products of two operand groups. -/
def products : List Num → List Num → List Num
  | a :: as, b :: bs => a.times b :: products as bs
  | _, _ => []

/-- The exact sum of a block's products, NaN and infinities by R29. -/
def sumNums : List Num → Num
  | [] => .fin false 0 0
  | x :: xs => x.plus (sumNums xs)

/-- R19, R25: one MX block's contribution, from the two scale bytes and the elements. -/
def mxContribution (sa sb : Nat) (as bs : List Num) : Num :=
  if sa = 255 || sb = 255 then .nan
  else (sumNums (products as bs)).times (.fin false 1 ((sa : Int) - 127 + ((sb : Int) - 127)))

/-- The 32 elements of a block of format `c` at byte `off` of a string of lines (R21). -/
def blockElems (c data off : Nat) : List Num :=
  let b := data / 2 ^ (8 * off)
  (List.range 32).map fun i => decodeElem c (unpackElem c b i)

/-! ### Anchors (R33, R34, R105) -/

/-- R105: the code of an IEEE element: its biased exponent, 1 for a subnormal, 0 for a zero, an infinity or a NaN. -/
def expCode (c x : Nat) : Nat :=
  let f := fmtOf c
  let ex := x / 2 ^ f.mb % 2 ^ f.eb
  let man := x % 2 ^ f.mb
  if ex = 2 ^ f.eb - 1 then 0 else if ex = 0 then (if man = 0 then 0 else 1) else ex

/-- R105: the code of an MX position: its scale byte plus 1, and 0 for a NaN scale. -/
def scaleCode (b : Nat) : Nat := if b % 256 = 255 then 0 else b % 256 + 1

/-- R23: the pairs, by row number: row format, column format, grouping (0 full, 1 half, 2 quarter), G, B0 only. -/
def pairRow : Nat → Nat × Nat × Nat × Int × Bool
  | 0 => (0, 0, 0, 11, false)
  | 1 => (1, 1, 1, 11, false)
  | 2 => (1, 2, 1, 13, false)
  | 3 => (2, 2, 1, 15, false)
  | 4 => (3, 3, 1, 23, false)
  | 5 => (3, 4, 1, 30, false)
  | 6 => (4, 4, 1, 37, false)
  | 7 => (5, 5, 1, 7, false)
  | 8 => (0, 3, 1, 17, false)
  | 9 => (0, 4, 1, 24, false)
  | 10 => (0, 1, 1, 11, true)
  | 11 => (0, 2, 1, 13, true)
  | 12 => (6, 6, 2, 0, false)
  | _ => (7, 7, 2, 0, false)

/-- R23: the row of a pair of format codes, in either order. -/
def pairIndex (a b : Nat) : Option Nat :=
  (List.range 14).find? fun i =>
    let r := pairRow i
    (r.1 = a && r.2.1 = b) || (r.1 = b && r.2.1 = a)

/-- R33, R105: the bound exponent of one K position with both codes present. -/
def boundExp (pair ma mb : Nat) : Int :=
  if pair ≤ 11 then (ma : Int) - 128 + ((mb : Int) - 128) + (pairRow pair).2.2.2.1
  else if pair = 12 then (ma : Int) - 127 + ((mb : Int) - 127) + 2
  else if pair = 13 then (ma : Int) - 15 + ((mb : Int) - 15) + 2
  else (ma : Int) - 127 + 1

/-- R33, R34: the anchor of a maximum. -/
def anchorOf : Option Int → BitVec 16
  | none => 0
  | some e => BitVec.ofInt 16 (e - 71)

/-- The greater of two maxima, either of which may be absent (R106). -/
def maxOpt : Option Int → Option Int → Option Int
  | none, b => b
  | a, none => a
  | some a, some b => some (max a b)

end Sys2Proof.Machine
end

