-- ==== Sys2Proof/Machine/Flags.lean ====
section
/-! DEFINITION. Output conversion with the numerical status it sets (R37 to R43, R56), and the OFS line (R40 to R42).
-/

namespace Sys2Proof.Machine

open Sys2Proof

/-- Bits of STALL_NUM_STATUS (03 registers). -/
def numInexact : BitVec 7 := 1
def numOverflow : BitVec 7 := 2
def numNan : BitVec 7 := 4
def numInf : BitVec 7 := 8
def numSat : BitVec 7 := 16
def numPoisonIn : BitVec 7 := 32
def numPoisonOut : BitVec 7 := 64

/-- A status bit set when a condition holds. -/
def flagIf (b : Bool) (f : BitVec 7) : BitVec 7 := if b then f else 0

/-- A converted element: its bits, the status its conversion sets, and whether it was clamped to the largest finite
magnitude. -/
structure Conv where
  bits : Nat
  flags : BitVec 7
  clamp : Bool := false
  deriving DecidableEq, Repr

/-- A magnitude of format `c` with its sign. -/
def withSign (c : Nat) (neg : Bool) (mag : Nat) : Nat :=
  if neg then mag + 2 ^ (fmtBits c - 1) else mag

/-- The magnitude of a non-zero finite value rounded once to format `c`, without its upper bound, and whether it is
exact. The bits above the mantissa count exponents, so a carry moves on by itself. -/
def roundMag (c : Nat) (m : Nat) (e : Int) : Nat × Bool :=
  let f := fmtOf c
  let top : Int := (m.log2 : Int) + e
  let emin : Int := 1 - f.bias
  let step := max top emin - f.mb
  (((rneShift m (e - step)) + (max top emin - emin) * 2 ^ f.mb).toNat, isExact m (e - step))

/-- R37 to R39 step 4, R20: one value converted to format `c`. An MX format clamps; an IEEE format overflows to an
infinity, or saturates with the option set. A zero keeps its sign in an IEEE format (R44). DESIGN CHOICE [23]: R39
names no sign for a zero element of an MX block; an exact zero is written as +0, and a negative value that rounds to
zero as -0. -/
def encodeElem (c : Nat) (sat : Bool) : Num → Conv
  | .nan => ⟨fmtNan c, numNan, false⟩
  | .inf neg =>
    if sat then ⟨withSign c neg (fmtMax c), numSat, true⟩
    else ⟨withSign c neg (fmtMax c + 1), numInf, false⟩
  | .fin neg m e =>
    if m = 0 then ⟨if fmtMx c then 0 else withSign c neg 0, 0, false⟩
    else if c = 5 then
      let q := rneShift (signedInt neg m) (e + 6)
      let r := if 127 < q then 127 else if q < -127 then -127 else q
      ⟨(r % 256).toNat, flagIf (!(isExact m (e + 6)) || r ≠ q) numInexact, r ≠ q⟩
    else
      let (mag, ex) := roundMag c m e
      if mag ≤ fmtMax c then ⟨withSign c neg mag, flagIf (!ex) numInexact, false⟩
      else if fmtMx c then ⟨withSign c neg (fmtMax c), numInexact, true⟩
      else if sat then ⟨withSign c neg (fmtMax c), numInexact ||| numSat, true⟩
      else ⟨withSign c neg (fmtMax c + 1), numInexact ||| numInf, false⟩

/-- A result ready for conversion: its value, the flags it carries and its poison. -/
structure Res where
  val : Num
  inexact : Bool := false
  overflow : Bool := false
  poisoned : Bool := false
  deriving DecidableEq, Repr

/-- R28, R30: the result of an accumulator. -/
def accRes (anchor : Int) (a : Acc) : Res := ⟨accValue a anchor, accInexact a, accOverflow a, a.poisoned⟩

/-- R37, R38, R56: a result converted to a format that is not MX; a poisoned one is written as zero (R80). -/
def convRes (c : Nat) (sat : Bool) (r : Res) : Conv :=
  if r.poisoned then ⟨0, 0, false⟩
  else
    let v := encodeElem c sat r.val
    { v with flags := v.flags ||| flagIf r.inexact numInexact ||| flagIf r.overflow numOverflow }

/-- R37, R38, R56: an accumulator finished and converted. -/
def convAcc (c : Nat) (sat : Bool) (anchor : Int) (a : Acc) : Conv := convRes c sat (accRes anchor a)

/-! ### MX output blocks (R39) -/

/-- floor(log2 |v|) of the greatest finite non-zero magnitude. -/
def maxLog2 : List Num → Option Int
  | [] => none
  | .fin _ m e :: vs => maxOpt (if m = 0 then none else some ((m.log2 : Int) + e)) (maxLog2 vs)
  | _ :: vs => maxLog2 vs

/-- A value divided by `2^x`. -/
def Num.scaleBy (x : Int) : Num → Num
  | .fin n m e => .fin n m (e - x)
  | v => v

/-- A NaN or an infinity. -/
def Num.special : Num → Bool
  | .fin _ _ _ => false
  | _ => true

/-- R39: 32 values as a scale byte and packed elements, with the status the conversion sets. -/
def mxBlock (c : Nat) (sat : Bool) (vs : List Num) : Nat × Nat × BitVec 7 :=
  if vs.any Num.special then (255, 0, numNan)
  else match maxLog2 vs with
    | none => (0, 0, 0)
    | some top =>
      let x0 := top - fmtEmax c
      if 127 < x0 && !sat then (255, 0, numNan)
      else
        let x := if x0 < -127 then -127 else if 127 < x0 then 127 else x0
        let cs := vs.map fun v => encodeElem c false (v.scaleBy x)
        ((x + 127).toNat, packElems c (cs.map (·.bits)),
          cs.foldl (fun f k => f ||| (k.flags &&& numInexact) ||| flagIf (decide (127 < x0) && k.clamp) numSat) 0)

/-- R39, R56, R80: 32 results as an MX block; a poisoned one counts as zero. A finite result of a block that becomes NaN
has changed its value, so it sets INEXACT. -/
def mxBlockRes (c : Nat) (sat : Bool) (rs : List Res) : Nat × Nat × BitVec 7 :=
  let r := mxBlock c sat (rs.map fun a => if a.poisoned then Num.fin false 0 0 else a.val)
  (r.1, r.2.1, rs.foldl (fun f a => if a.poisoned then f
    else f ||| flagIf (a.inexact || (r.1 = 255 && !a.val.special)) numInexact ||| flagIf a.overflow numOverflow) r.2.2)

/-! ### The OFS line (R40 to R42) -/

/-- R41: the code of an element. -/
def ofsCode (a : Acc) : Nat :=
  match a.cls with
  | .nan => 4
  | .pinf => 5
  | .ninf => 6
  | .finite => (if a.inexact then 2 else 0) + (if a.odd then 1 else 0)

/-- R40, R41, R80: an element's W and code as sent. -/
def ofsElem (a : Acc) : Nat × Nat :=
  if a.poisoned then (0, 0)
  else match a.cls with
    | .finite => (a.w.toNat, ofsCode a)
    | _ => (0, ofsCode a)

/-- R40, R42: up to five elements and the anchor in one line; positions past the last are zero. -/
def ofsLine (anchor : BitVec 16) (as : List Acc) : Line :=
  let es := (as.take 5).map ofsElem
  let ws := es.foldr (fun e n => e.1 + 2 ^ 96 * n) 0
  let cs := es.foldr (fun e n => e.2 + 8 * n) 0
  BitVec.ofNat 512 (ws + 2 ^ 480 * anchor.toNat + 2 ^ 496 * cs)

/-- R41: element `i` of a received line; code 7 reads as NaN, and W is ignored for codes 4 to 7. -/
def ofsRead (l : Line) (i : Nat) : Acc :=
  let code := l.toNat / 2 ^ (496 + 3 * i) % 8
  if code < 4 then
    { w := BitVec.ofNat 96 (l.toNat / 2 ^ (96 * i)), inexact := decide (2 ≤ code), odd := code % 2 = 1 }
  else { cls := if code = 5 then .pinf else if code = 6 then .ninf else .nan }

/-- The anchor of a line (R40). -/
def ofsAnchor (l : Line) : BitVec 16 := l.extractLsb' 480 16

/-- R35, R42: element `i` of a line merged into its accumulator: NAN when the anchors differ. -/
def ofsMerge (anchor : BitVec 16) (l : Line) (i : Nat) (a : Acc) : Acc :=
  if ofsAnchor l = anchor then accMerge a (ofsRead l i) else { a with cls := .nan }

end Sys2Proof.Machine
end

