-- ==== Sys2Proof/Machine/Operands.lean ====
section
/-! DEFINITION. Operand forms of a stall: the fields of its record (R91, R92), the address generators (R61 to R64), the
lines and MX groups of its input ports (R67, R68), micro-op fields and selectors (R72, R73). -/

namespace Sys2Proof.Machine

open Sys2Proof

/-! ### Record fields (R91, R92) -/

/-- `n` bytes at byte `off` of a record. -/
def recNat (r : BitVec 4096) (off n : Nat) : Nat := r.toNat / 2 ^ (8 * off) % 2 ^ (8 * n)

def recMode (r : BitVec 4096) : Nat := bitsAt (recNat r 0 1) 0 2
def recSwizzle (r : BitVec 4096) : Bool := bitAt (recNat r 0 1) 2
def recOutSat (r : BitVec 4096) : Bool := bitAt (recNat r 0 1) 3
def recFp32 (r : BitVec 4096) : Bool := bitAt (recNat r 0 1) 4
def recPoisonStop (r : BitVec 4096) : Bool := bitAt (recNat r 0 1) 5
def recAuto (r : BitVec 4096) : Bool := bitAt (recNat r 0 1) 6
def recRowFmt (r : BitVec 4096) : Nat := bitsAt (recNat r 1 1) 0 4
def recColFmt (r : BitVec 4096) : Nat := bitsAt (recNat r 1 1) 4 4
def recOutFmt (r : BitVec 4096) : Nat := bitsAt (recNat r 2 1) 0 4
def recTileLevel (r : BitVec 4096) : Nat := bitsAt (recNat r 2 1) 4 3
def recRowSrc (r : BitVec 4096) : Nat := bitsAt (recNat r 3 1) 0 3
def recColSrc (r : BitVec 4096) : Nat := bitsAt (recNat r 3 1) 3 3
def recVecIn (r : BitVec 4096) (p : Nat) : Nat := bitsAt (recNat r 4 1) (2 * p) 2
def recAnchorPort (r : BitVec 4096) : Nat := bitsAt (recNat r 5 1) 0 2
def recFencePort (r : BitVec 4096) : Nat := bitsAt (recNat r 5 1) 2 2
def recUopCount (r : BitVec 4096) : Nat := bitsAt (recNat r 6 1) 0 6
def recAnchor (r : BitVec 4096) : BitVec 16 := BitVec.ofNat 16 (recNat r 8 2)
def recDstKind (r : BitVec 4096) (n : Nat) : Nat := bitsAt (recNat r (12 + 2 * n) 2) 14 2
def recDstIdx (r : BitVec 4096) (n : Nat) : Nat := bitsAt (recNat r (12 + 2 * n) 2) 0 14
def recPkt (r : BitVec 4096) (n : Nat) : Nat := recNat r (20 + 2 * n) 2
def recConst (r : BitVec 4096) (i : Nat) : BitVec 32 := BitVec.ofNat 32 (recNat r (320 + 4 * i) 4)
def recUop (r : BitVec 4096) (i : Nat) : Nat := recNat r (384 + 4 * i) 4

def agTarget (r : BitVec 4096) (g : Nat) : Nat := recNat r (32 + 96 * g) 2
def agWrap (r : BitVec 4096) (g : Nat) : Nat := recNat r (34 + 96 * g) 1
def agBase (r : BitVec 4096) (g : Nat) : Nat := recNat r (40 + 96 * g) 8
def agScaleBase (r : BitVec 4096) (g : Nat) : Nat := recNat r (48 + 96 * g) 8
def agCount (r : BitVec 4096) (g k : Nat) : Nat := recNat r (56 + 96 * g + 2 * k) 2 + 1
def agStride (r : BitVec 4096) (g k : Nat) : Int := (BitVec.ofNat 64 (recNat r (72 + 96 * g + 8 * k) 8)).toInt

/-! ### Micro-op fields (R72) -/

def uopOpc (u : Nat) : Nat := bitsAt u 26 6
def uopDst (u : Nat) : Nat := bitsAt u 21 5
def uopSa (u : Nat) : Nat := bitsAt u 16 5
def uopSb (u : Nat) : Nat := bitsAt u 11 5
def uopSc (u : Nat) : Nat := bitsAt u 6 5
def uopMod (u : Nat) : Nat := bitsAt u 0 6

/-- R75: how many of a, b and c an operation reads. -/
def uopSources (opc : Nat) : Nat :=
  if opc = 0x00 || opc = 0x1C || opc = 0x1D then 0
  else if opc = 0x04 || opc = 0x09 then 3
  else if (0x01 ≤ opc && opc ≤ 0x06) || opc = 0x0A then 2
  else 1

/-- R75: an operation writes a destination. -/
def uopWrites (opc : Nat) : Bool := !(opc = 0x00 || opc = 0x18 || opc = 0x1B)

/-- R75: the defined operation codes. -/
def uopDefined (opc : Nat) : Bool :=
  opc ≤ 0x0A || (0x10 ≤ opc && opc ≤ 0x14) || (0x18 ≤ opc && opc ≤ 0x1E)

/-- The micro-ops of a record in order (R71). -/
def recUops (r : BitVec 4096) : List Nat := (List.range (recUopCount r)).map (recUop r)

/-- R72, R75: the source selectors a micro-op reads. SEL reads a, b and c. -/
def uopReads (u : Nat) : List Nat := ([uopSa u, uopSb u, uopSc u]).take (uopSources (uopOpc u))

/-- A record reads a source selector, or writes a destination selector. -/
def recReads (r : BitVec 4096) (sel : Nat) : Bool := (recUops r).any fun u => sel ∈ uopReads u
def recWrites (r : BitVec 4096) (sel : Nat) : Bool := (recUops r).any fun u => uopWrites (uopOpc u) && uopDst u = sel

/-- R74, R95: a record takes tokens. -/
def recTakes (r : BitVec 4096) : Bool :=
  if recMode r = 0 then true
  else recReads r 0x1C || (List.range 4).any fun p => recReads r (0x18 + p)

/-! ### Shapes (R23, R52) -/

/-- The row of R23 a MAC record multiplies by. -/
def recPair (r : BitVec 4096) : Nat := (pairIndex (recRowFmt r) (recColFmt r)).getD 0

/-- R52: the output tile's rows and columns. -/
def tileShape (r : BitVec 4096) : Nat × Nat :=
  match (pairRow (recPair r)).2.2.1 with
  | 0 => (48, 48)
  | 1 => (48, 24)
  | _ => (24, 24)

/-- R55: tiles in an output group. -/
def groupTiles (r : BitVec 4096) : Nat := if (pairRow (recPair r)).2.2.1 = 0 then 2 else 4

/-- Lines that `n` groups of 32 elements take (R49). -/
def opLines (fmt n : Nat) : Nat := n * fmtBlock fmt / 64

/-! ### The nest (R61, R64) -/

/-- Tuples in one run of levels 0 to `l`. -/
def agLevel (r : BitVec 4096) (g : Nat) : Nat → Nat
  | 0 => agCount r g 0
  | l + 1 => agLevel r g l * agCount r g (l + 1)

/-- Tuples in the full nest. -/
def agNest (r : BitVec 4096) (g : Nat) : Nat := agLevel r g 5

/-- The index of level `k` at tuple `n`. -/
def agIndex (r : BitVec 4096) (g n k : Nat) : Nat :=
  (match k with | 0 => n | j + 1 => n / agLevel r g j) % agCount r g k

/-- R61: the offset of tuple `n`, after WRAP. -/
def agOffset (r : BitVec 4096) (g n : Nat) : Int :=
  let off := (List.range 6).foldl (fun (x : Int) k => x + agIndex r g n k * agStride r g k) 0
  if agWrap r g = 0 then off else off % 2 ^ agWrap r g

/-- R61: level `l` completes while `n` tuples are taken from tuple `a`. -/
def agCompletes (r : BitVec 4096) (g a n l : Nat) : Bool := a / agLevel r g l < (a + n) / agLevel r g l

/-! ### Targets (R62, R102) -/

/-- Where an address lies. -/
inductive Place
  | manger (off : Nat)
  | mem (a : Nat)
  deriving DecidableEq, Repr

/-- R62, R102: the place of `n` bytes at an offset of a target in a pass; none outside the target, without the access,
or past MEM_TOP (R166). -/
def resolveAt (s : State) (h : Harness) (target : Nat) (off : Int) (n pass : Nat) (write : Bool) : Option Place :=
  if off < 0 then none
  else if target = 0xFFFF then (if off.toNat + n ≤ 2 ^ 18 then some (.manger off.toNat) else none)
  else match h.segs[target]? with
    | none => none
    | some g =>
      let a := (g.base.toNat : Int) + (pass % g.passes.toNat : Nat) * g.stride.toInt + off
      if g.access.getLsbD (if write then 1 else 0) && decide (off.toNat + n ≤ g.size.toNat) && decide (0 ≤ a)
          && decide (a.toNat < memTop s) then some (.mem a.toNat)
      else none

/-- R174, R175: the place can be reached now. -/
def placeReady (s : State) : Place → Bool
  | .manger _ => true
  | .mem a => wipeComplete s && !hubWaits s (hubOf s a)

/-- A read of `n` bytes within one line at a place. -/
structure Fetch where
  st : State
  bytes : List Byte
  poison : Bool
  uc : Bool

def fetchAt (s : State) (t : Nat) (p : Place) (n : Nat) : Fetch :=
  match p with
  | .manger off =>
    let r := mangerRead s t off n
    ⟨r.st, r.bytes, false, r.uc⟩
  | .mem a =>
    let r := readLine (pmuStall s t evSegReads 1) a 0
    ⟨r.st, ((lineBytes r.line).drop (a % 64)).take n, r.poison, false⟩

/-- Reads at several places, in order. -/
def fetchAll (s : State) (t n : Nat) : List Place → State × List (List Byte × Bool) × Bool
  | [] => (s, [], false)
  | p :: ps =>
    let f := fetchAt s t p n
    let r := fetchAll f.st t n ps
    (r.1, (f.bytes, f.poison) :: r.2.1, f.uc || r.2.2)

/-! ### Operand blocks -/

/-- Thirty-two elements of one row or column, with their scale byte. -/
structure OpBlk where
  scale : Nat
  elems : List Num
  poison : Bool

/-- What became of reading an operand: enough, not yet there, an address outside its target, a double-bit error. -/
inductive GotRes
  | ok | wait | grant | uc
  deriving DecidableEq, Repr

/-- An operand read: the state and the stall after it. -/
structure Got where
  st : State
  port : Option InPort := none
  blocks : List OpBlk := []
  res : GotRes := .ok
  addr : Nat := 0

/-- R61 to R63: `n` blocks of format `c` through generator `g` from tuple `a`. -/
def gatherGen (s : State) (t : Nat) (h : Harness) (r : BitVec 4096) (g a pass c n : Nat) : Got :=
  let nl := opLines c n
  let bb := fmtBlock c
  let offs := (List.range nl).map fun i => agOffset r g ((a + i) % agNest r g)
  let passOf := fun i => if g = 0 then pass + (a + i) / agNest r g else pass
  let data := (List.range nl).map fun i =>
    resolveAt s h (agTarget r g) (agBase r g + offs.getD i 0) 64 (passOf i) false
  let scales := if fmtMx c then (List.range n).map fun j =>
      let i := bb * j / 64
      resolveAt s h (agTarget r g) (agScaleBase r g + (offs.getD i 0 + (bb * j % 64 : Nat)) / bb) 1 (passOf i) false
    else []
  match (data ++ scales).findIdx? (·.isNone) with
  | some k =>
    ⟨s, none, [], .grant, if k < nl then ((agBase r g : Int) + offs.getD k 0).toNat else agScaleBase r g⟩
  | none =>
    let places := data.filterMap id
    let splaces := scales.filterMap id
    if !(places ++ splaces).all (placeReady s) then ⟨s, none, [], .wait, 0⟩
    else
      let f := fetchAll s t 64 places
      let fs := fetchAll f.1 t 1 splaces
      let str := leNat (f.2.1.flatMap (·.1))
      let pois := f.2.1.map (·.2)
      let blk := fun j =>
        let sc := fs.2.1.getD j ([], false)
        { scale := leNat sc.1, elems := blockElems c str (bb * j),
          poison := sc.2 || pois.getD (bb * j / 64) false || pois.getD ((bb * j + bb - 1) / 64) false : OpBlk }
      ⟨fs.1, none, (List.range n).map blk, if f.2.2 || fs.2.2 then .uc else .ok, 0⟩

/-! ### Input ports (R65 to R68, R78) -/

/-- R67: the next scale line of an MX stream; a packet that ends with a scale line holds no block. -/
def takeScale : List TLine → Option (TLine × List TLine)
  | [] => none
  | l :: rest => if l.fence then none else if tagLast l.tag then takeScale rest else some (l, rest)

/-- R67: the group is opened when its scale line is there. -/
def openGroup (p : InPort) : Option (TLine × InPort) :=
  match p.scale with
  | some sc => some (sc, p)
  | none => (takeScale p.fifo).map fun x => (x.1, { p with fifo := x.2, scale := some x.1, blk := 0 })

/-- R67: the group after the block that ends at byte `e` of line `cur`, the head of the FIFO. -/
def closeBlock (p : InPort) (cur : TLine) (rest : List TLine) (bb e : Nat) : InPort :=
  if p.blk + 1 = 64 || (tagLast cur.tag && tagValid cur.tag < e + bb) then
    { p with fifo := rest, scale := none, blk := 0 }
  else { p with fifo := if e = 64 then rest else cur :: rest, blk := p.blk + 1 }

/-- R67: one MX block of format `c` taken from a port. -/
def takeMx (c : Nat) (p0 : InPort) : Option (InPort × OpBlk) :=
  match openGroup p0 with
  | none => none
  | some (sc, p) =>
    let bb := fmtBlock c
    let off := bb * p.blk % 64
    let scale := bitsAt sc.data.toNat (8 * p.blk) 8
    match p.fifo with
    | [] => none
    | h :: rest =>
      if h.fence then none
      else if off + bb ≤ 64 then
        some (closeBlock p h rest bb (off + bb),
          { scale := scale, elems := blockElems c h.data.toNat off, poison := sc.poison || h.poison })
      else match rest with
        | [] => none
        | g :: rest2 =>
          if g.fence then none
          else some (closeBlock p g rest2 bb (off + bb - 64),
            { scale := scale, elems := blockElems c (h.data.toNat + 2 ^ 512 * g.data.toNat) off,
              poison := sc.poison || h.poison || g.poison })

/-- One line of 32 elements of an IEEE format taken from a port. -/
def takeIeee (c : Nat) (p : InPort) : Option (InPort × OpBlk) :=
  match p.fifo with
  | [] => none
  | h :: rest =>
    if h.fence then none
    else some ({ p with fifo := rest }, { scale := 0, elems := blockElems c h.data.toNat 0, poison := h.poison })

/-- `n` blocks taken from a port, or none when they are not all there. -/
def takeBlocks (c : Nat) : Nat → InPort → Option (InPort × List OpBlk)
  | 0, p => some (p, [])
  | n + 1, p =>
    match (if fmtMx c then takeMx c p else takeIeee c p) with
    | none => none
    | some (q, b) => (takeBlocks c n q).map fun x => (x.1, b :: x.2)

/-- A MAC operand: `src` below 4 is an input port, else the generator `g`. -/
def gather (s : State) (t : Nat) (h : Harness) (r : BitVec 4096) (src g a pass c n : Nat) : Got :=
  if src < 4 then
    match takeBlocks c n ((s.stall t).inPort src) with
    | some (p, bs) => ⟨s, some p, bs, .ok, 0⟩
    | none => ⟨s, none, [], .wait, 0⟩
  else gatherGen s t h r g a pass c n

/-! ### Vectors (R71, R73) -/

def vecLane (v : Vec) (i : Nat) : BitVec 32 := v.extractLsb' (32 * i) 32

/-- A vector from its lanes. -/
def vecOf (f : Nat → BitVec 32) : Vec :=
  BitVec.ofNat 2048 ((List.range 64).foldr (fun i n => (f i).toNat * 2 ^ (32 * i) + n) 0)

/-- A lane mask from its bits. -/
def maskOf (f : Nat → Bool) : BitVec 64 :=
  BitVec.ofNat 64 ((List.range 64).foldr (fun i n => bit (f i) * 2 ^ i + n) 0)

/-- R73: the format code of VEC_IN_FMT, and the lines of a vector. -/
def vecFmt (r : BitVec 4096) (p : Nat) : Nat :=
  match recVecIn r p with
  | 1 => 6
  | 2 => 7
  | _ => 8
def vecLines (r : BitVec 4096) (p : Nat) : Nat := if vecFmt r p = 8 then 4 else 2

/-- R73: a vector widened exactly to binary32. -/
def widen (c data : Nat) : Vec :=
  if c = 8 then BitVec.ofNat 2048 data
  else vecOf fun i => BitVec.ofNat 32 (encodeElem 8 false (decodeElem c (unpackElem c data i))).bits

/-- The lanes a list of lines poisons. -/
def poisonLanes (pois : List Bool) : BitVec 64 := maskOf fun i => pois.getD (i * pois.length / 64) false

/-- R74: the lines of a vector at the head of a port's FIFO, before any fence. -/
def vecAvail (r : BitVec 4096) (x : Stall) (p : Nat) : Option (List TLine) :=
  let ls := ((x.inPort p).fifo.takeWhile fun l => !l.fence).take (vecLines r p)
  if ls.length = vecLines r p then some ls else none

/-- The little-endian string of some lines. -/
def linesNat (ls : List Line) : Nat := ls.foldr (fun l n => l.toNat + 2 ^ 512 * n) 0

end Sys2Proof.Machine
end

