-- ==== Sys2Proof/Machine/VecMath.lean ====
section
/-! DEFINITION. The vector unit's lane arithmetic in binary32 (R44 to R46, R75). -/

namespace Sys2Proof.Machine

open Sys2Proof

/-! ### Lanes (R44, R46) -/

/-- The exact value of a binary32 lane, and the lane that an exact value rounds to. -/
def f32Num (x : BitVec 32) : Num := decodeElem 8 x.toNat
def f32Of (v : Num) : BitVec 32 := BitVec.ofNat 32 (encodeElem 8 false v).bits

/-- R44: the canonical NaN in place of any other. -/
def f32Nan : BitVec 32 := 0x7FC00000
def f32IsNan (x : BitVec 32) : Bool := 0x7F800000 < x.toNat % 2 ^ 31
def f32Canon (x : BitVec 32) : BitVec 32 := if f32IsNan x then f32Nan else x

/-- The order of binary32 values with +0 above -0 (R46). -/
def f32Key (x : BitVec 32) : Int :=
  if x.getLsbD 31 then -((x.toNat % 2 ^ 31 : Nat) : Int) - 1 else (x.toNat % 2 ^ 31 : Nat)

def laneAdd (a b _c : BitVec 32) : BitVec 32 := f32Of ((f32Num a).plus (f32Num b))
def laneSub (a b _c : BitVec 32) : BitVec 32 := f32Of ((f32Num a).plus (f32Num b).negate)
def laneMul (a b _c : BitVec 32) : BitVec 32 := f32Of ((f32Num a).times (f32Num b))
def laneFma (a b c : BitVec 32) : BitVec 32 := f32Of (((f32Num a).times (f32Num b)).plus (f32Num c))
def laneMax (a b _c : BitVec 32) : BitVec 32 :=
  if f32IsNan a || f32IsNan b then f32Nan else if f32Key a < f32Key b then b else a
def laneMin (a b _c : BitVec 32) : BitVec 32 :=
  if f32IsNan a || f32IsNan b then f32Nan else if f32Key b < f32Key a then b else a
def laneAbs (a _b _c : BitVec 32) : BitVec 32 := f32Canon (BitVec.ofNat 32 (a.toNat % 2 ^ 31))
def laneNeg (a _b _c : BitVec 32) : BitVec 32 := f32Canon (a ^^^ 0x80000000)
def laneSel (a b c : BitVec 32) : BitVec 32 := f32Canon (if c.getLsbD 31 then b else a)
def laneCmplt (a b _c : BitVec 32) : BitVec 32 :=
  if f32IsNan a || f32IsNan b then 0
  else if a.toNat % 2 ^ 31 = 0 && b.toNat % 2 ^ 31 = 0 then 0
  else if f32Key a < f32Key b then 0x3F800000 else 0

/-- R75: the maximum or minimum over the lanes. -/
def foldLanes (f : BitVec 32 → BitVec 32 → BitVec 32 → BitVec 32) (v : Vec) : BitVec 32 :=
  (List.range 64).foldl (fun r i => f r (vecLane v i) 0) (f32Canon (vecLane v 0))

/-! ### Transcendentals (R45): exact values in units of 2^-400, to well below an ulp -/

/-- The unit and ln 2 in it. -/
def fixOne : Nat := 2 ^ 400
def fixLn2 : Nat :=
  1789879222497203190815761498240779176894896805856420935579692301363062920687047601279850318367644315849030039181347319086

/-- A finite binary32 value in the unit. -/
def fixOf (neg : Bool) (m : Nat) (e : Int) : Int := signedInt neg m * 2 ^ (400 + e).toNat

/-- e^y for 0 <= y < 1 by its series. -/
def fixExp (y : Nat) : Nat :=
  (List.range 100).foldl (fun acc i => fixOne + acc * y / ((100 - i) * fixOne)) fixOne

/-- 2^a; `none` beyond 2^128. -/
def fixExp2 (a : Int) : Option Int :=
  let n := a / fixOne
  let f := (a % fixOne).toNat
  if 128 ≤ n then none
  else if n < -400 then some 0
  else some (((fixExp (f * fixLn2 / fixOne) * 2 ^ (400 + n).toNat / fixOne : Nat) : Int))

/-- log2 of m * 2^e for m > 0. -/
def fixLog2 (m : Nat) (e : Int) : Int :=
  let k := if 2 ^ (2 * m.log2 + 1) < m * m then m.log2 + 1 else m.log2
  let t : Int := ((m : Int) - 2 ^ k) * fixOne / ((m : Int) + 2 ^ k)
  let t2 := t * t / fixOne
  let s := (List.range 85).foldl (fun acc i => (fixOne : Int) / (2 * (84 - i) + 1 : Nat) + acc * t2 / fixOne) 0
  2 * (t * s / fixOne) * fixOne / fixLn2 + ((k : Int) + e) * fixOne

/-- The integer square root of a number below 2^1400. -/
def isqrt (n : Nat) : Nat :=
  (List.range 700).foldl (fun r i =>
    let c := r + 2 ^ (699 - i)
    if c * c ≤ n then c else r) 0

/-- tanh of a, below 1 for every finite input. -/
def fixTanh (a : Int) : Int :=
  let y := 2 * a.natAbs
  let r : Nat :=
    if 270 * fixOne ≤ y then fixOne - 1
    else
      let n := y / fixLn2
      let e := fixExp (y % fixLn2) * 2 ^ n
      (e - fixOne) * fixOne / (e + fixOne)
  if a < 0 then -(r : Int) else r

/-- R45: the exact value of operation `op` (0 EXP2, 1 LOG2, 2 RCP, 3 RSQRT, 4 TANH) where it is a real number below
2^128: for an infinite input the limit. -/
def transExact (op : Nat) (x : BitVec 32) : Option Int :=
  match f32Num x with
  | .fin neg m e =>
    let a := fixOf neg m e
    let r : Option Int :=
      match op with
      | 0 => fixExp2 a
      | 1 => if neg || m = 0 then none else some (fixLog2 m e)
      | 2 => if m = 0 then none else some (signedInt neg (fixOne * fixOne / a.natAbs))
      | 3 => if neg || m = 0 then none else some (isqrt (fixOne * fixOne * fixOne / a.natAbs) : Nat)
      | _ => some (fixTanh a)
    match r with
    | some v => if 2 ^ 128 * fixOne ≤ v.natAbs then none else some v
    | none => none
  | .inf neg =>
    match op with
    | 0 => if neg then some 0 else none
    | 1 => none
    | 2 => some 0
    | 3 => if neg then none else some 0
    | _ => some (signedInt neg fixOne)
  | .nan => none

/-- R45: the bound in ulp. -/
def transUlps (op : Nat) : Nat := if op = 4 then 4 else 2

/-- An ulp of binary32 at a value, in the unit. -/
def fixUlp (v : Int) : Nat := 2 ^ (400 + max ((v.natAbs.log2 : Int) - 400) (-126) - 23).toNat

/-- R45: a lane within the bound of an exact value. Values of the unit that a binary32 number can equal are computed
exactly, and the others lie further from the bound than the unit. -/
def transNear (op : Nat) (v : Int) (y : BitVec 32) : Bool :=
  match f32Num y with
  | .fin neg m e => (fixOf neg m e - v).natAbs ≤ transUlps op * fixUlp v
  | _ => false

/-- R45: EXP2 and LOG2 of +Inf: the exact value is +Inf. -/
def transInf (op : Nat) (x : BitVec 32) : Bool := op ≤ 1 && x = 0x7F800000

/-- R44, R45: a transcendental of a lane: some fixed function of its input within the bound, and any value at all where
the manual states none [5]; a NaN gives the canonical NaN. -/
def laneTrans (op : Nat) (a _b _c : BitVec 32) : BitVec 32 :=
  if f32IsNan a then f32Nan
  else if transInf op a then 0x7F800000
  else
    let y := Config.transChoice op a
    match transExact op a with
    | none => f32Canon y
    | some v => if transNear op v y then y else f32Of (.fin (v < 0) v.natAbs (-400))

/-! ### Reductions (R46) -/

/-- R31, R46: one lane contributed to an accumulator; a poisoned one adds nothing and marks it. -/
def laneInto (a : Acc) (anchor : Int) (x : BitVec 32) (pois : Bool) : Acc :=
  if pois then { a with poisoned := true } else accAdd a anchor (f32Num x)

/-! ### Lanes leaving (R56, R67, R74, R93) -/

/-- R80: a lane as output. -/
def laneRes (v : Vec) (m : BitVec 64) (i : Nat) : Res := { val := f32Num (vecLane v i), poisoned := m.getLsbD i }

/-- The elements of a vector converted to a format that is not MX. -/
def vecConv (c : Nat) (sat : Bool) (v : Vec) (m : BitVec 64) : List Conv :=
  (List.range 64).map fun i => convRes c sat (laneRes v m i)

/-- Bits `lo` up to `lo + n - 1` of a lane mask hold one. -/
def maskAny (m : BitVec 64) (lo n : Nat) : Bool := bitsAt m.toNat lo n ≠ 0

/-- A string cut into lines, each poisoned by the `per` lanes it holds. -/
def cutLines (data : Nat) (m : BitVec 64) (per : Nat) : List OutLine :=
  (List.range (64 / per)).map fun k =>
    { data := BitVec.ofNat 512 (data / 2 ^ (512 * k)), poison := maskAny m (per * k) per }

/-- R93: the 64 lanes as OFS elements, 13 lines; with a poisoned anchor every element is poisoned (R70). -/
def ofsLines (anchor : BitVec 16) (apois : Bool) (v : Vec) (m : BitVec 64) : List OutLine :=
  (List.range 13).map fun k =>
    let as := ((List.range 5).map (5 * k + ·)).filter (· < 64) |>.map fun i =>
      laneInto {} anchor.toInt (vecLane v i) (apois || m.getLsbD i)
    { data := ofsLine anchor as, poison := as.any (·.poisoned) }

/-- R39: a vector as two MX blocks with the status set. -/
def vecBlocks (c : Nat) (sat : Bool) (v : Vec) (m : BitVec 64) : List MxBlock × BitVec 7 :=
  let blk := fun j =>
    let r := mxBlockRes c sat ((List.range 32).map fun i => laneRes v m (32 * j + i))
    (({ bytes := BitVec.ofNat 256 r.2.1, scale := BitVec.ofNat 8 r.1, poison := m.extractLsb' (32 * j) 32 } : MxBlock),
      r.2.2)
  ([(blk 0).1, (blk 1).1], (blk 0).2 ||| (blk 1).2)

/-- R80: a line that starts at byte `lo` of a group of MX blocks holds a poisoned result. -/
def groupPois (c : Nat) (bs : List MxBlock) (lo : Nat) : Bool :=
  (bs.zipIdx).any fun b => b.1.poison ≠ 0 && (List.range 32).any fun i =>
    let at_ := 8 * fmtBlock c * b.2 + fmtBits c * i
    b.1.poison.getLsbD i && decide (8 * lo < at_ + fmtBits c) && decide (at_ < 8 * (lo + 64))

/-- R67: a group of MX blocks as its scale line and its data lines. -/
def groupLines (c : Nat) (bs : List MxBlock) : List OutLine :=
  let bb := fmtBlock c
  let data := bs.foldr (fun b n => b.bytes.toNat % 2 ^ (8 * bb) + 2 ^ (8 * bb) * n) 0
  let scales := bs.foldr (fun b n => b.scale.toNat + 256 * n) 0
  let len := bs.length * bb
  { data := BitVec.ofNat 512 scales, poison := bs.any (·.poison ≠ 0) } ::
    (List.range ((len + 63) / 64)).map fun k =>
      { data := BitVec.ofNat 512 (data / 2 ^ (512 * k)), valid := min 64 (len - 64 * k),
        poison := groupPois c bs (64 * k) }

/-- Marks the last line of a packet. -/
def markLast : List OutLine → List OutLine
  | [] => []
  | [l] => [{ l with last := true }]
  | l :: ls => l :: markLast ls

/-- R67, R69: MX blocks joined to a port's group; full groups, and the rest at the packet's end, go to its stage. -/
def putBlocks (c : Nat) (o : OutPort) (bs : List MxBlock) (final : Bool) : OutPort :=
  let all := o.blocks ++ bs
  let full := all.length / 64
  let lines := (List.range full).flatMap fun k => groupLines c ((all.drop (64 * k)).take 64)
  let rest := all.drop (64 * full)
  if final then
    { o with blocks := [],
             stage := o.stage ++ markLast (lines ++ if rest = [] then [] else groupLines c rest) }
  else { o with blocks := rest, stage := o.stage ++ lines }

end Sys2Proof.Machine
end

