-- ==== Sys2Proof/Machine/StallOps.lean ====
section
/-! DEFINITION. What the commands of a stall share: its pen and harness, its ports' bindings, sending a line, faults,
retiring a token. -/

namespace Sys2Proof.Machine

open Sys2Proof

/-! ### The stall's configuration (R77, R91, R112) -/

def Stall.active (x : Stall) : Slot := if x.activeSlot then x.slot1 else x.slot0
def Stall.shadow (x : Stall) : Slot := if x.activeSlot then x.slot0 else x.slot1
def Stall.setShadow (x : Stall) (v : Slot) : Stall := if x.activeSlot then { x with slot0 := v }
    else { x with slot1 := v }
def Stall.record (x : Stall) : BitVec 4096 := x.active.record

/-- The bank of its pen's harness that a stall runs from. -/
def harnessOf (s : State) (t : Nat) : Harness :=
  match penOfDie s (t / 64) with
  | some p => (s.pen p).bankAt (s.stall t).active.bank
  | none => {}

/-- R111, R115: the pen of the stall is RUNNING, and the stall takes tokens. -/
def penRuns (s : State) (t : Nat) : Bool :=
  match penOfDie s (t / 64) with
  | some p => decide ((s.pen p).st = .running)
  | none => false

/-- R118: the stall goes on to a fence of a swap that a STOP found in progress. -/
def swapGoesOn (s : State) (t : Nat) : Bool :=
  match penOfDie s (t / 64) with
  | some p =>
    decide ((s.pen p).st = .draining) && (s.pen p).swapping && (s.stall t).active.bank = (s.pen p).curBank
  | none => false

/-- R115: tokens taken go on while the pen is RUNNING or DRAINING. -/
def penWorks (s : State) (t : Nat) : Bool :=
  match penOfDie s (t / 64) with
  | some p => decide ((s.pen p).st = .running) || decide ((s.pen p).st = .draining)
  | none => false

/-- The states in which a stall works on tokens. -/
def Stall.working (x : Stall) : Bool :=
  x.activeValid && x.swapStep = 0 && decide (x.st ≠ .off) && decide (x.st ≠ .fault) && decide (x.st ≠ .failed)

def setSt (s : State) (t : Nat) (st : StallState) : State := s.updStall t fun x => { x with st := st }

/-! ### Ports (R66, R94, R97, R98) -/

/-- R97: the binding that feeds an input port of record `i`. -/
def inBind (h : Harness) (i p : Nat) : Option Binding :=
  h.binds.find? fun b => b.role = 0 && b.stall.toNat = i && b.port.toNat = p

/-- R97: a STREAM route feeds an input port of record `i`. -/
def inRoute (h : Harness) (i p : Nat) : Bool :=
  h.routes.any fun r => r.kind = 0 && r.dst.toNat = i && r.dstPort.toNat = p

/-- R97: an input port of record `i` has a source. -/
def inBound (h : Harness) (i p : Nat) : Bool := inRoute h i p || (inBind h i p).isSome

/-- R94: what an output port is joined to. -/
inductive OutDst
  | none
  | stream (rs : List Route)
  | sink (r : Route)
  | chute (c : ChuteAddr)
  deriving DecidableEq, Repr

/-- R100: the chutes of a pen's grant, in ascending order. -/
def penChutes (s : State) (p : Nat) : List Nat :=
  (s.chutes.filter fun e => e.2.penValid && e.2.pen.toNat = p).map (·.1)

/-- R98, R100: the chute address a binding names in a pen. -/
def bindAddr (s : State) (p : Nat) (b : Binding) : Nat :=
  if b.chute.getLsbD 31 then
    match (penChutes s p)[bitsAt b.chute.toNat 0 16]? with
    | some c => myDev s * 65536 + c
    | none => 0
  else bitsAt b.chute.toNat 0 22

/-- R94, R96: the destination of output port `n`. -/
def outDst (s : State) (t n : Nat) : OutDst :=
  let r := (s.stall t).record
  let h := harnessOf s t
  let k := recDstIdx r n
  match recDstKind r n with
  | 1 =>
    match h.routes[k]? with
    | some q => if q.kind = 0 then .stream ((h.routes.drop k).take q.fanout.toNat) else .sink q
    | none => .none
  | 2 =>
    match h.binds[k]?, penOfDie s (t / 64) with
    | some b, some p => .chute (BitVec.ofNat 22 (bindAddr s p b))
    | _, _ => .none
  | _ => .none

/-- The bound output ports of a record, in order. -/
def outPorts (r : BitVec 4096) : List Nat := (List.range 4).filter fun n => recDstKind r n = 1 || recDstKind r n = 2

/-- R98: a chute is on this device. -/
def isLocal (s : State) (c : ChuteAddr) : Bool := bitsAt c.toNat 16 6 = myDev s

/-- R147, R276: the link and channel of a producer's remote packet that is still being sent. -/
def openRemote (s : State) (src : Source) (c : ChuteAddr) : Option (Nat × Nat) :=
  (List.range 64).findSome? fun l =>
    ((s.ll l).ops.find? fun o => o.src = src && o.chute = c && !o.closed).map fun o => (l, o.vc)

/-- R65, R69, R130, R140, R194, R276, R278: the producer endpoint of a port can take a line of its chute. -/
def chuteReady (s : State) (src : Source) (c : ChuteAddr) : Bool :=
  if isLocal s c then !(s.chute (bitsAt c.toNat 0 16)).waits src
  else match openRemote s src c with
    | some e => linkGoesOn s e.1
    | none => !remoteXoff s c.toNat && (match pairLink s src c with
      | some l => linkTakes s l
      | none => false)

/-- R108: lines of the stall's SINK routes are on their way to memory. -/
def sinkLinesDue (s : State) (t : Nat) : Bool := s.strq.any fun m => m.toSink && m.t.toNat = t

/-- R65, R69, R108: the port can send a line. A port of a chute waits for the lines that the stall sent to its sinks
before. -/
def portReady (s : State) (t n : Nat) : Bool :=
  0 < ((s.stall t).outPort n).credits &&
    match outDst s t n with
    | .none => false
    | .chute c => chuteReady s (stallSource s t n) c && !sinkLinesDue s t
    | _ => true

/-- R97, R102: the notice of a port's sink has been offered to its chute and no word of it waits there any more: it is
committed. -/
def noticeCommitted (s : State) (t n : Nat) (k : Sink) : Bool :=
  k.offered &&
    match outDst s t n, penOfDie s (t / 64) with
    | .sink r, some p =>
      match (harnessOf s t).binds[r.doneBind.toNat]? with
      | some b =>
        let c := BitVec.ofNat 22 (bindAddr s p b)
        !isLocal s c || !(s.chute (bitsAt c.toNat 0 16)).waits (stallSource s t n)
      | none => true
    | _, _ => true

/-- R97, R102: the sink after a notice of it is committed: the next pass. -/
def Sink.next (k : Sink) : Sink :=
  { k with notice := false, offered := false, lines := 0, scaleBytes := 0, pass := k.pass + 1 }

/-- R97: the sink as it is now, its pass advanced when its notice is committed. -/
def sinkNow (s : State) (t n : Nat) : Sink :=
  let k := s.sink (4 * t + n)
  if noticeCommitted s t n k then k.next else k

/-- R97: a sink of the stall has a notice due. -/
def sinkNoticeDue (s : State) (t : Nat) : Bool := (List.range 4).any fun n => (sinkNow s t n).notice

/-- R128: the tag of a line from its place in its packet. -/
def placeTag (first last : Bool) (v : Nat) : BitVec 8 :=
  if last then BitVec.ofNat 8 ((if first then 0xC0 else 0x80) + (v - 1)) else if first then 0x7F else 0x3F

/-- R147: one line of a remote packet sent, with its OPEN before the first and its CLOSE after the last. -/
def sendRemote (s : State) (src : Source) (c : ChuteAddr) (vc0 : Nat) (line : Line) (first last : Bool) (v : Nat)
    (pois : Bool) : State :=
  let s0 := if first then
      match startLink s src c vc0 with
      | some l => remoteStart s l src c vc0
      | none => s
    else s
  match openRemote s0 src c with
  | none => s0
  | some (l, vc) =>
    let s1 := remoteLine s0 l src c vc line
    let s2 := s1.updLl l fun x => { x with
      ops := x.ops.map fun o => if o.src = src && o.chute = c && !o.closed then
        { o with closed := last, pois := o.pois || pois } else o }
    if last then
      let anyPois := (s1.ll l).ops.any fun o => o.src = src && o.chute = c && !o.closed && (o.pois || pois)
      remoteEnd s2 l src c vc false (v - 1 + 128 * bit anyPois)
    else s2

/-- R65, R66, R96, R97, R147: a line leaves an output port; `drove` is the PHASE of its drove packet, if it is of one,
which travels on VC1 (R148). A barrier's packet carries its header alone (R310). -/
def sendOut (s : State) (t n : Nat) (ol : OutLine) (first : Bool) (drove : Option Nat) : State :=
  let line : TLine := { data := ol.data, tag := placeTag first ol.last ol.valid, poison := ol.poison, at_ := s.time }
  let s1 := s.updStall t fun x => x.setOut n { x.outPort n with
    credits := (x.outPort n).credits - 1, opened := !ol.last }
  match outDst s t n with
  | .none => s1
  | .stream rs =>
    { s1 with strq := s1.strq ++ rs.map fun r =>
        { toSink := false, t := (harnessOf s t).place.getD r.dst.toNat 0, port := r.dstPort.setWidth 2, line := line } }
  | .sink _ =>
    { s1 with strq := s1.strq ++ [{ toSink := true, t := BitVec.ofNat 12 t, port := BitVec.ofNat 2 n, line := line }] }
  | .chute c =>
    let src := stallSource s t n
    let vc := if drove.isSome then 1 else dataVc c
    if drove = some 3 then s1
    else if isLocal s c then
      offerWords s1 (bitsAt c.toNat 0 16) src (lineWords ol.data ol.valid first ol.last ol.poison)
    else sendRemote s1 src c vc ol.data first ol.last ol.valid ol.poison

/-! ### Faults (R62, R81, R119) -/

/-- R81: the open packets of every output port rewound; the count. -/
def rewindPorts (s : State) (t : Nat) : State × Nat :=
  (List.range 4).foldl (fun (x : State × Nat) n =>
    let r := abortSource x.1 (stallSource s t n)
    (r.1, x.2 + r.2)) (s, 0)

/-- R193: FAILED stalls of a die. -/
def failedStalls (s : State) (d : Nat) : Nat := ((List.range 64).filter fun i => (s.stall (64 * d + i)).failed).length

/-- R17, R193: a logical number whose die is being replaced. -/
def underReplacement (s : State) (d : Nat) : Bool :=
  match s.pnet.repl with
  | some r => r.die.toNat = d
  | none => false

/-- R191, R193: a trigger to replace the die that holds a logical number joins the queue, and its site is RETIRING. A
trigger for a die that is RETIRING or gone adds nothing. -/
def queueRetire (s : State) (d : Nat) : State :=
  let p := s.siteOf d
  if s.held d && (decide ((s.site p).st = .active) || decide ((s.site p).st = .degraded)) then
    let s1 := s.updSite p fun x => { x with st := .retiring }
    { s1 with pnet := { s1.pnet with queue := addNew s1.pnet.queue (BitVec.ofNat 6 d) } }
  else s

/-- R193: a die with more than AUTO_RETIRE_STALLS FAILED stalls is to be replaced. -/
def autoRetire (s : State) (d : Nat) : State :=
  if s.pnet.autoRetire ≠ 0 && s.pnet.autoRetire.toNat < failedStalls s d then queueRetire s d else s

/-- R81, R117: the stall enters FAULT, FAILED as well after a real internal fault; its open packets are rewound, and
count toward the pen's PACKETS. -/
def stallFault (s : State) (t : Nat) (failed : Bool) : State :=
  let s1 := s.updStall t fun x => { x with st := .fault, failed := x.failed || failed }
  let r := rewindPorts s1 t
  let s2 := match penOfDie s (t / 64) with
    | some p => r.1.updPen p fun x => { x with faultPackets := x.faultPackets + r.2 }
    | none => r.1
  if failed then autoRetire s2 (t / 64) else s2

/-- R117: a token taken and not retired is discarded. -/
def dropToken (s : State) (t : Nat) : State :=
  match penOfDie s (t / 64) with
  | some p => s.updPen p fun x => { x with faultTokens := x.faultTokens + 1 }
  | none => s

/-- R62: an address outside its target. -/
def grantFault (s : State) (t addr : Nat) : State := stallFault (report s t cGrant addr) t false

/-- R80: poison consumed: the status, one record, and the stop of POISON_STOP. -/
def poisonConsumed (s : State) (t : Nat) : State :=
  let s1 := report (s.updStall t fun x => { x with num := x.num ||| numPoisonIn }) t cPoisonConsumed 0
  if recPoisonStop (s.stall t).record then stallFault s1 t false else s1

/-- R60: the record of a corrected manger word, which waits to be written back. -/
def mangerCe (s : State) (t : Nat) (off : BitVec 18) : State :=
  (report s t cMangerCe off.toNat).updStall t fun x => { x with wb := addNew x.wb (off / 8 * 8) }

/-- R81, R414: an internal UC of a stall's checker; `met` says that the data bore an injection. -/
def stallUc (s : State) (t cause addr : Nat) (met : Bool) : State :=
  stallFault (if met then reportInjected s t cause addr true else report s t cause addr) t true

/-- R413, R414: an arming of the checker that generates now is used. -/
def stallUcAt (s : State) (t chk cause : Nat) : State :=
  stallUc (injUse s t chk) t cause 0 (decide (injMask s t chk ≠ 0))

/-- R60, R81, R414, R418: what the checkers found in a step of stall `t`. After an internal UC it ends as `stop` says;
else it goes on with `go`. An error in a manger word that an injection left bad is a double one. When `go` reports of
the stall as well, its UC is recorded before a CE. -/
def withChecks (s : State) (t : Nat) (k : StallCheck) (stop go : State → State) : State :=
  let met := fun (off : BitVec 18) => decide (s.mangerInjAt (mangerWord t off.toNat) ≠ 0)
  match k with
  | .clean => go s
  | .mangerCe off =>
    if met off then stop (stallUc s t cMangerUc off.toNat true)
    else if (go s).frec t = s.frec t then go (mangerCe s t off)
    else mangerCe (go s) t off
  | .mangerUc off => stop (stallUc s t cMangerUc off.toNat (met off))
  | .macResidue => stop (stallUcAt s t 1 cMacResidue)
  | .windowParity => stop (stallUcAt s t 2 cWindowParity)
  | .slotParity => stop (stallUc s t cSlotParity 0 (decide ((s.stall t).active.inj ≠ 0)))

/-- R413, R414: an injected error that a check finds: the stall stops, and is not FAILED. -/
def stallMeets (s : State) (t cause : Nat) : State := stallFault (reportInjected s t cause 0 false) t false

/-- R413, R414: the injected errors a step meets in the stall's checkers: slot parity left in the active record, and
residue or window parity, whose check bits a MAC step generates now. -/
def stallInjected (s : State) (t : Nat) (mac : Bool) : State × Bool :=
  if (s.stall t).active.inj ≠ 0 then (stallMeets s t cSlotParity, false)
  else if !mac then (s, true)
  else
    let s1 := injUse s t 1
    if injMask s t 1 ≠ 0 then (stallMeets s1 t cMacResidue, false)
    else
      let s2 := injUse s1 t 2
      if injMask s1 t 2 ≠ 0 then (stallMeets s2 t cWindowParity, false) else (s2, true)

/-! ### Anchors (R70) -/

/-- R70: a stall that needs an anchor takes the one at the head of ANCHOR_PORT. -/
def takeAnchor (x : Stall) : Stall :=
  let p := recAnchorPort x.record
  if !recAuto x.record then { x with anchor := recAnchor x.record, anchorOk := true, anchorPois := false }
  else if x.anchorOk then x
  else match (x.inPort p).fifo with
    | l :: rest =>
      if l.fence then x
      else { x.setIn p { x.inPort p with fifo := rest } with
        anchor := l.data.setWidth 16, anchorOk := true, anchorPois := l.poison }
    | [] => x

/-! ### Retiring (R49, R430) -/

/-- R430: a sample entry written for a token of stall `t` whose result left at a time. -/
def putSample (s : State) (t : Nat) (vec : Bool) (x : SamplePend) (at_ : BitVec 64) : State :=
  let pen := penOfDie s (t / 64)
  s.updPmu (t / 64) fun p => samplePut p (sampleEntry s t vec x (pen.getD 0) (harnessOf s t).id at_)

/-- R430: samples of tokens of stall `t` whose result leaves now. -/
def putSamples (s : State) (t : Nat) (vec : Bool) (ps : List SamplePend) : State :=
  ps.foldl (fun st p => putSample st t vec p s.time) s

/-- R49, R430: a token retires; the state after, and whether the die samples it. Its number is the count before. -/
def retireToken (s : State) (t : Nat) : State × Bool :=
  let r := sampleSelect (s.pmu (t / 64)) t
  let s1 := (s.setPmu (t / 64) r.1).updStall t fun x => { x with tokens := x.tokens + 1 }
  (pmuStall s1 t evTokens 1, r.2)

/-- R61, R64, R102, R70: AG0 advances; a full nest advances the pass and calls for the next anchor. -/
def advanceAg0 (x : Stall) (n : Nat) : Stall :=
  let nest := agNest x.record 0
  let k := (x.ag0 + n) / nest
  { x with ag0 := (x.ag0 + n) % nest, pass := x.pass + k,
           anchorOk := if k = 0 then x.anchorOk else !recAuto x.record }

end Sys2Proof.Machine
end

