-- ==== Sys2Proof/Machine/Chutes.lean ====
section
/-! DEFINITION. The commands of a chute: who may send them and what they do (R129 to R145, R151 to R157); the doorbell
commands that wait for a hub (R331), and a lost stack, which ends such waits (R172). -/

namespace Sys2Proof.Machine

open Sys2Proof

/-! ### Requesters (R151 to R153) -/

/-- R89: the record placed on a stall, in a harness. -/
def recordOn (h : Harness) (t : Nat) : Option Nat := h.place.findIdx? (·.toNat = t)

/-- R151: a binding of the stall's pen joins the stall's port to the chute with a role. -/
def stallBound (s : State) (t p c role : Nat) : Bool :=
  match penOfDie s (t / 64) with
  | none => false
  | some q =>
    let h := (s.pen q).cur
    match recordOn h t with
    | none => false
    | some i => h.binds.any fun b =>
        b.role.toNat = role && b.port.toNat = p && b.stall.toNat = i && bindAddr s q b = myDev s * 65536 + c

/-- R153: the identity of a requester. -/
def reqSource (s : State) : Requester → Source
  | .stall t p => stallSource s t.toNat p.toNat
  | .dma c => { kind := 1, dev := BitVec.ofNat 6 (myDev s), id := c.setWidth 14 }
  | .host f => { kind := 2, dev := BitVec.ofNat 6 (myDev s), id := f.setWidth 14 }
  | .loader => { kind := 3, dev := BitVec.ofNat 6 (myDev s) }
  | .remote d k i => { kind := k, dev := d, id := i }

/-- R151: a function may command a chute: the PF every one, a VF its own. -/
def funcMay (s : State) (c f : Nat) : Bool := f = 0 || (s.chute c).func.toNat = f

/-- R151, R152: who may produce into a chute. -/
def mayProduce (s : State) (c : Nat) : Requester → Bool
  | .stall t p => stallBound s t.toNat p.toNat c 1
  | .dma k => funcMay s c (chanOwner s k.toNat)
  | .host f => funcMay s c f.toNat
  | .loader => false
  | .remote _ _ _ => (s.chute c).remoteOk

/-- R151, R152: who may consume from a chute. -/
def mayConsume (s : State) (c : Nat) : Requester → Bool
  | .stall t p => (s.chute c).consumer = .stall t p
  | .dma k => funcMay s c (chanOwner s k.toNat)
  | .host f => funcMay s c f.toNat
  | .loader => true
  | .remote _ _ _ => false

/-- R152: who may control a chute: the owning function or the loader. -/
def mayControl (s : State) (c : Nat) : Requester → Bool
  | .host f => funcMay s c f.toNat
  | .loader => true
  | _ => false

/-! ### Commands -/

/-- R156: the results of a doorbell command. -/
def dbOk : Nat := 0
def dbRefused : Nat := 1
def dbFull : Nat := 2
def dbBusy : Nat := 3
def dbBadOp : Nat := 4

/-- R156: the offset of a chute's doorbell slot. -/
def doorbellOff (c : Nat) : Nat := 0x08000000 + c / 1024 * 0x100000 + 0x40000 + c % 1024 * 0x40

/-- R156: a PUSH result as the slot shows it. -/
def dbOf : PushRes → Nat
  | .taken => dbOk
  | .refused => dbRefused
  | .full => dbFull
  | .busy => dbBusy

/-- PUSH by any requester: the host's word is taken or not stored; another producer's word can wait (R129, R130). -/
def pushBy (s : State) (c : Nat) (r : Requester) (w : ChuteWord) : State × Nat :=
  match r with
  | .host _ =>
    let x := pushMarked s c (reqSource s r) { w with poison := false }
    (x.1, dbOf x.2)
  | _ => (offerWord s c (reqSource s r) w, dbOk)

/-- R144: DEPTH_LOG2 holds a value from 2 to 20. -/
def depthValid (d : Nat) : Bool := 2 ≤ d && d ≤ 20

/-- R152: whether a command is accepted from a requester in the chute's state. -/
def chuteMay (s : State) (c : Nat) (r : Requester) (op : Nat) : Bool :=
  let x := s.chute c
  match op with
  | 1 => mayProduce s c r
  | 2 => mayProduce s c r && decide (x.st ≠ .disabled) && x.opened && decide (x.src = reqSource s r)
  | 3 => mayConsume s c r
  | 4 => mayConsume s c r
  | 5 => mayConsume s c r
  | 6 => mayControl s c r && decide (x.st ≠ .disabled)
  | 7 => mayControl s c r && decide (x.st = .disabled) && depthValid x.depth.toNat
  | 8 => mayControl s c r && decide (x.st = .enabled)
  | _ => mayControl s c r && decide (x.st = .disabled)

/-- A change of a chute without the evaluation of its marks. -/
def changeEntry (s : State) (c : Nat) (f : Chute → Chute) : State := sliceCheck (s.chute c) (s.updChute c f) c

/-- R132, R142, R422: FLUSH, which rewinds an open packet. -/
def flushCounted (s : State) (c : Nat) : State :=
  changeChute (if (s.chute c).opened then chuteEvent s c evChuteRewinds else s) c flushChute

/-- R129 to R145: an accepted command. INIT brings occupancy to 0 without a crossing, for it clears the marks'
records. -/
def chuteDo (s : State) (c : Nat) (r : Requester) (op : Nat) (w : ChuteWord) : State × Nat :=
  match op with
  | 1 => pushBy s c r w
  | 2 => (changeChute (chuteEvent s c evChuteRewinds) c fun x => rewindOpen x .aborted false, dbOk)
  | 3 => (changeChute s c markChute, dbOk)
  | 4 => (changeChute s c rewindChute, dbOk)
  | 5 => (changeChute s c releaseChute, dbOk)
  | 6 => if flushBusy s c then (s, dbBusy) else (flushCounted s c, dbOk)
  | 7 => (changeEntry s c fun x => { x with st := .enabled }, dbOk)
  | 8 => (changeEntry s c fun x => { x with st := .disabling }, dbOk)
  | _ => (changeEntry s c initChute, dbOk)

/-- R151, R194: a command refused, or carried out. -/
def chuteGo (s : State) (c : Nat) (r : Requester) (op : Nat) (w : ChuteWord) : State × Nat :=
  if chuteMay s c r op && chuteHeld s (c / 1024) then chuteDo s c r op w else (refuseChute s c, dbRefused)

/-- R331: an earlier BAR4 write of the function has not reached its hub, or an earlier doorbell command of it waits. -/
def bellWaits (s : State) (f : Func) : Bool := s.ms.waiting.any (HubReq.sentBy f) || s.ms.bells.any fun b => b.f = f

/-- R156: a command through the doorbell slot, whose staged word is the word pushed; a reserved opcode changes only
RESULT. -/
def ringBell (s : State) (c : Nat) (f : Func) (op : Nat) (w : ChuteWord) : State :=
  let x := if 1 ≤ op && op ≤ 9 then chuteGo s c (.host f) op w else (s, dbBadOp)
  x.1.setDoorbell c { x.1.doorbell c with result := BitVec.ofNat 3 x.2, pstat := (x.1.chute c).pstat }

/-- R156, R331: a command through the doorbell slot, once the function's earlier BAR4 writes have reached their hubs. -/
def doorbellGo (s : State) (c : Nat) (f : Func) (op : Nat) (w : ChuteWord) : State :=
  if bellWaits s f then
    { s with ms := { s.ms with bells := s.ms.bells ++ [{ f := f, c := BitVec.ofNat 16 c, op := op, w := w }] } }
  else ringBell s c f op w

/-- R331: the doorbell commands that need wait no longer, in order. -/
def ringHeld (s : State) : State :=
  s.ms.bells.foldl (fun st b => doorbellGo st b.c.toNat b.f b.op b.w) { s with ms := { s.ms with bells := [] } }

/-- R172, R174, R331: what waited for a hub goes on. -/
def endWaits (s : State) : State := ringHeld (serveWaiting s)

/-! ### A stack lost (R172) -/

/-- R172: the edge die is gone and no spare takes its number. -/
def hubUnreachable (s : State) (h : Nat) : Bool :=
  !s.held (hubDie h) && s.pnet.repl.isNone && !(s.pnet.queue.any fun d => d.toNat = hubDie h)

/-- R172: a stack is LOST, and the requests that waited for it complete. -/
def stackLost (s : State) (h : Nat) : State := endWaits (loseStack s h)

/-- STACK_LOST (R172). -/
def execStackLost (h : Hub) (why : LostCause) (s : State) : Host.Outcome State Fault Refusal :=
  .next <|
    match why with
    | .retrain => stackLost s h
    | .internal => stackLost s h
    | .poisonRate => if 256 < (s.hub h).poisonedAt.length then stackLost s h else s
    | .unreachable => if hubUnreachable s h then stackLost s h else s

/-! ### Commands by their requesters -/

/-- R151, R156: a command by its requester. The host stages the word of a PUSH in the slot first. -/
def chuteCmd (s : State) (c : Nat) (r : Requester) (op : Nat) (w : ChuteWord) : State :=
  match r with
  | .host f =>
    barAccess s f.toNat ((s.chute c).func.toNat = f.toNat) (doorbellOff c) fun st =>
      let st1 := if op = 1 then st.setDoorbell c { st.doorbell c with w := w.data } else st
      (doorbellGo st1 c f op w).answer .ok
  | _ => if 1 ≤ op && op ≤ 9 then (chuteGo s c r op w).1 else s

/-- The word of a command that pushes none. -/
def noWord : ChuteWord := ⟨0, false, false, 0, false⟩

/-- PUSH (R129). -/
def execPush (c : ChuteId) (r : Requester) (w : ChuteWord) (s : State) : Host.Outcome State Fault Refusal :=
  .next <| chuteCmd s c.toNat r 1 w

/-- WAITING_FIRST_OPEN (R129, R154): with no packet open, the waiting words are served in order. -/
def execWaitingFirstOpen (c : ChuteId) (s : State) : Host.Outcome State Fault Refusal :=
  .next <|
    if !(s.chute c.toNat).opened && decide ((s.chute c.toNat).waiting ≠ []) then retryWaiting s c.toNat else s

/-- SPACE_WAIT_END (R130): the waiting words proceed once there is space. -/
def execSpaceWaitEnd (c : ChuteId) (s : State) : Host.Outcome State Fault Refusal :=
  .next <|
    let x := s.chute c.toNat
    if decide (x.spaceWait ≠ []) && (decide (x.occ < x.size) || !x.opened) then retryWaiting s c.toNat else s

/-- ABORT (R132, R152): from the producer that holds the open packet. -/
def execAbort (c : ChuteId) (r : Requester) (s : State) : Host.Outcome State Fault Refusal :=
  .next <| chuteCmd s c.toNat r 2 noWord

/-- MARK (R136). -/
def execMark (c : ChuteId) (r : Requester) (s : State) : Host.Outcome State Fault Refusal :=
  .next <| chuteCmd s c.toNat r 3 noWord

/-- REWIND (R136). -/
def execRewind (c : ChuteId) (r : Requester) (s : State) : Host.Outcome State Fault Refusal :=
  .next <| chuteCmd s c.toNat r 4 noWord

/-- RELEASE (R136). -/
def execRelease (c : ChuteId) (r : Requester) (s : State) : Host.Outcome State Fault Refusal :=
  .next <| chuteCmd s c.toNat r 5 noWord

/-- FLUSH (R142, R143). -/
def execFlush (c : ChuteId) (r : Requester) (s : State) : Host.Outcome State Fault Refusal :=
  .next <| chuteCmd s c.toNat r 6 noWord

/-- ENABLE (R144). -/
def execEnable (c : ChuteId) (r : Requester) (s : State) : Host.Outcome State Fault Refusal :=
  .next <| chuteCmd s c.toNat r 7 noWord

/-- DISABLE (R145). -/
def execDisable (c : ChuteId) (r : Requester) (s : State) : Host.Outcome State Fault Refusal :=
  .next <| chuteCmd s c.toNat r 8 noWord

/-- INIT (R144). -/
def execInit (c : ChuteId) (r : Requester) (s : State) : Host.Outcome State Fault Refusal :=
  .next <| chuteCmd s c.toNat r 9 noWord

/-- CHUTE_BAD_OP (R152, R156): a reserved opcode. -/
def execChuteBadOp (c : ChuteId) (r : Requester) (op : BitVec 4) (s : State) : Host.Outcome State Fault Refusal :=
  .next <| chuteCmd s c.toNat r (if 1 ≤ op.toNat && op.toNat ≤ 9 then 0 else op.toNat) noWord

/-! ### Marks, limits, status -/

/-- WATERMARK_WRITE (R139): the marks are evaluated again, and a crossing by the write counts. -/
def execWatermarkWrite (f : Func) (c : ChuteId) (high : Bool) (v : Reg32) (s : State) :
    Host.Outcome State Fault Refusal :=
  .next <|
    barAccess s f.toNat ((s.chute c.toNat).func.toNat = f.toNat)
      (0x04000000 + c.toNat * 0x40 + (if high then 0x24 else 0x28)) fun st =>
      (changeChute st c.toNat fun x =>
        if high then { x with high := v.setWidth 21 } else { x with low := v.setWidth 21 }).answer .ok

/-- DISABLE_LIMIT_EXPIRY (R145). -/
def execDisableLimitExpiry (c : ChuteId) (s : State) : Host.Outcome State Fault Refusal :=
  .next <| if (s.chute c.toNat).st = .disabling then disableAbort s c.toNat else s

/-- CHUTE_DISABLE_COMPLETE (R145). -/
def execChuteDisableComplete (c : ChuteId) (s : State) : Host.Outcome State Fault Refusal :=
  .next <|
    if disableDone (s.chute c.toNat) then s.updChute c.toNat fun x => { x with st := .disabled } else s

/-- CHUTE_STATUS_WRITE (R8): 1s clear HWM_SEEN and LWM_SEEN. A VF may not write it (R325). -/
def execChuteStatusWrite (f : Func) (c : ChuteId) (v : Reg32) (s : State) : Host.Outcome State Fault Refusal :=
  .next <|
    barAccess s f.toNat false (0x04000000 + c.toNat * 0x40 + 0x30) fun st =>
      (st.updChute c.toNat fun x => { x with
        hwmSeen := x.hwmSeen && !v.getLsbD 1, lwmSeen := x.lwmSeen && !v.getLsbD 2 }).answer .ok

/-- R8: CHUTE_DIE_ABORT_LINES, cleared by the read. -/
def takeAbortLines (s : State) (d : Nat) : State × Nat :=
  (s.setChuteDie d { s.chuteDie d with abortLines := 0 }, (s.chuteDie d).abortLines.toNat)

/-- CHUTE_DIE_ABORT_LINES_READ (R8). -/
def execChuteDieAbortLinesRead (d : Die) (s : State) : Host.Outcome State Fault Refusal :=
  .next <| pfAccess s fun st => answerRead (takeAbortLines st d.toNat)

end Sys2Proof.Machine
end

