-- ==== Sys2Proof/Machine/Container.lean ====
section
/-! DEFINITION. Harness containers: their fields (R87 to R104) and the checks of the loader's step 3 (R85, R88 to R104,
R109, R124, R134). -/

namespace Sys2Proof.Machine

open Sys2Proof

/-! ### Fields -/

/-- `n` bytes at byte `off` of a container held as a number. -/
def fld (k off n : Nat) : Nat := k / 2 ^ (8 * off) % 2 ^ (8 * n)

/-- `v` rounded up to a multiple of 64. -/
def up64 (v : Nat) : Nat := (v + 63) / 64 * 64

/-- The sections of R87 by number: offset, count and record bytes (for plans, the least a record takes). -/
def secOff (k sec : Nat) : Nat := fld k (0x30 + 4 * (sec - 1)) 4
def secCount (k sec : Nat) : Nat := if sec = 1 then fld k 0x24 2 else fld k (0x44 + 2 * (sec - 2)) 2
def secBytes (sec : Nat) : Nat := if sec = 1 then 512 else if sec = 5 then 96 else 32

def hTotal (k : Nat) : Nat := fld k 0x08 4
def hCap (k : Nat) : Nat := fld k 0x18 8
def hCount (k : Nat) : Nat := secCount k 1

/-- R87, R88, R109: the header's own fields with the container's extent below `top`. -/
def headerOk (k addr top : Nat) : Bool :=
  fld k 0x27 1 = 0 && fld k 0x2C 4 = 0 && fld k 0x4C 52 = 0 &&
  1 ≤ hCount k && hCount k ≤ 4096 && fld k 0x26 1 ≤ 1 &&
  (fld k 0x26 1 = 0 ||
    (1 ≤ fld k 0x28 2 && fld k 0x28 2 ≤ 64 && 1 ≤ fld k 0x2A 2 && fld k 0x2A 2 ≤ 64 &&
      fld k 0x28 2 * fld k 0x2A 2 = hCount k)) &&
  secCount k 2 ≤ 16384 && secCount k 3 ≤ 16384 && secCount k 4 ≤ 256 && secCount k 5 ≤ 256 &&
  128 ≤ hTotal k && hTotal k % 64 = 0 && addr + hTotal k ≤ top &&
  (List.range 5).all fun i =>
    let sec := i + 1
    let low := if sec = 1 then 128 else secOff k (sec - 1) + secCount k (sec - 1) * secBytes (sec - 1)
    secOff k sec % 64 = 0 && low ≤ secOff k sec && secOff k sec + secCount k sec * secBytes sec ≤ hTotal k

def stallAt (k i : Nat) : BitVec 4096 := BitVec.ofNat 4096 (fld k (secOff k 1 + 512 * i) 512)

def routeOf (x : Nat) : Route :=
  { kind := BitVec.ofNat 8 (fld x 0 1), srcPort := BitVec.ofNat 8 (fld x 1 1), srcStall := BitVec.ofNat 16 (fld x 2 2),
    dst := BitVec.ofNat 16 (fld x 4 2), dstPort := BitVec.ofNat 8 (fld x 6 1), fanout := BitVec.ofNat 8 (fld x 7 1),
    flags := BitVec.ofNat 16 (fld x 8 2), doneBind := BitVec.ofNat 16 (fld x 10 2),
    linesPerPass := BitVec.ofNat 32 (fld x 12 4), dataOff := BitVec.ofNat 64 (fld x 16 8),
    scaleOff := BitVec.ofNat 64 (fld x 24 8) }

def bindOf (x : Nat) : Binding :=
  { role := BitVec.ofNat 8 (fld x 0 1), port := BitVec.ofNat 8 (fld x 1 1), stall := BitVec.ofNat 16 (fld x 2 2),
    chute := BitVec.ofNat 32 (fld x 4 4), depth := BitVec.ofNat 8 (fld x 8 1), storage := BitVec.ofNat 8 (fld x 9 1),
    seg := BitVec.ofNat 16 (fld x 10 2), high := BitVec.ofNat 32 (fld x 12 4), low := BitVec.ofNat 32 (fld x 16 4),
    idle := BitVec.ofNat 32 (fld x 20 4), flowPin := BitVec.ofNat 8 (fld x 24 1) }

def segOf (x : Nat) : Segment :=
  { base := BitVec.ofNat 64 (fld x 0 8), size := BitVec.ofNat 64 (fld x 8 8), stride := BitVec.ofNat 64 (fld x 16 8),
    passes := BitVec.ofNat 16 (fld x 24 2), access := BitVec.ofNat 8 (fld x 26 1) }

def operandOf (x : Nat) : Operand :=
  { kind := BitVec.ofNat 8 (fld x 0 1), seg := BitVec.ofNat 16 (fld x 2 2), rows := BitVec.ofNat 32 (fld x 4 4),
    base := BitVec.ofNat 64 (fld x 8 8), rowStride := BitVec.ofNat 64 (fld x 16 8),
    kStride := BitVec.ofNat 32 (fld x 24 4) }

/-- The plan at offset `o` of a container at device address `addr`. -/
def planOf (k o addr : Nat) : Plan :=
  let n := fld k (o + 10) 2
  let kc := fld k (o + 4) 4
  let pc := fld k (o + 8) 2
  let ta := o + up64 (96 + 4 * n)
  let tb := ta + (if fld k (o + 0x20) 1 = 1 then up64 (pc * kc) else 0)
  { node := BitVec.ofNat 16 (fld k o 2), scope := BitVec.ofNat 8 (fld k (o + 2) 1),
    pair := BitVec.ofNat 8 (fld k (o + 3) 1), kCount := BitVec.ofNat 32 kc, passCount := BitVec.ofNat 16 pc,
    trigger := BitVec.ofNat 16 (fld k (o + 12) 2), trigCount := BitVec.ofNat 16 (fld k (o + 14) 2),
    drove := BitVec.ofNat 32 (fld k (o + 0x14) 4),
    contrib := (List.range n).map fun i => fld k (o + 96 + 4 * i) 2,
    a := operandOf (fld k (o + 0x20) 32), b := operandOf (fld k (o + 0x40) 32),
    tableA := addr + ta, tableB := addr + tb }

/-- R103: the size that a plan's fields give. -/
def planSize (k o : Nat) : Nat :=
  let t := up64 (fld k (o + 8) 2 * fld k (o + 4) 4)
  up64 (96 + 4 * fld k (o + 10) 2) + (if fld k (o + 0x20) 1 = 1 then t else 0) + (if fld k (o + 0x40) 1 = 1 then t
    else 0)

/-- R103: the offsets of the plans. -/
def planOffs (k : Nat) : Nat → Nat → List Nat
  | 0, _ => []
  | n + 1, o => o :: planOffs k n (o + fld k (o + 0x10) 4)

/-- A container read whole, with its sections taken apart. -/
structure Cont where
  k : Nat
  addr : Nat
  stalls : List (BitVec 4096)
  routes : List Route
  binds : List Binding
  segs : List Segment
  planAt : List Nat

/-- The raw bytes of a small record. -/
def smallAt (k sec i : Nat) : Nat := fld k (secOff k sec + 32 * i) 32

def contOf (k addr : Nat) : Cont :=
  { k := k, addr := addr,
    stalls := (List.range (secCount k 1)).map (stallAt k),
    routes := (List.range (secCount k 2)).map fun i => routeOf (smallAt k 2 i),
    binds := (List.range (secCount k 3)).map fun i => bindOf (smallAt k 3 i),
    segs := (List.range (secCount k 4)).map fun i => segOf (smallAt k 4 i),
    planAt := planOffs k (secCount k 5) (secOff k 5) }

/-! ### Result codes (R109) and a refusal -/

def rMagic : Nat := 1
def rVersion : Nat := 2
def rRecord : Nat := 3
def rFirmware : Nat := 4
def rCapability : Nat := 5
def rGrant : Nat := 6
def rNoStalls : Nat := 7
def rShape : Nat := 8
def rIsolation : Nat := 9
def rChecksum : Nat := 0xA
def rState : Nat := 0xB
def rAbandoned : Nat := 0xC
def rFault : Nat := 0xD

/-- A refused record: its section and index, the code, and the offset of the container at which it ends. -/
structure Refused where
  sec : Nat
  index : Nat
  code : Nat
  ends : Nat
  deriving DecidableEq, Repr

/-! ### Generators (R61, R62, R64, R92) -/

/-- R64, R91: the generators of a record that issue addresses. -/
def issuing (r : BitVec 4096) : List Nat :=
  if recMode r = 0 then
    (if recRowSrc r = 4 then [0] else []) ++ (if recColSrc r = 4 then [1] else [])
  else (if recReads r 0x1C then [0] else []) ++ (if recWrites r 0x1C then [2] else [])

/-- The strides that move the address: those of levels whose COUNT is above 1. -/
def movingStrides (r : BitVec 4096) (g : Nat) : List Int :=
  ((List.range 6).filter fun l => 1 < agCount r g l).map (agStride r g)

/-- R62, R90: a record that needs a B0 stall. -/
def wideStride (r : BitVec 4096) : Bool :=
  (issuing r).any fun g => (movingStrides r g).any fun v => 2 ^ 29 < v.natAbs

/-- R61, R62, R92, R95: a generator that issues addresses. -/
def genOk (r : BitVec 4096) (segs : List Segment) (g : Nat) : Bool :=
  let t := agTarget r g
  let size := if t = 0xFFFF then 2 ^ 18 else ((segs[t]?).map fun x => x.size.toNat).getD 0
  (t = 0xFFFF || t < segs.length) && agBase r g % 64 = 0 &&
    (agWrap r g = 0 || (6 ≤ agWrap r g && agWrap r g ≤ 40 && 2 ^ agWrap r g ≤ size)) &&
    (movingStrides r g).all fun v => v % 64 = 0 && v.natAbs ≤ 2 ^ 37

/-! ### Packets (R66, R67, R134) -/

/-- R67: lines and words of `n` MX blocks of `bb` bytes in scale-first groups. -/
def mxSize (bb n : Nat) : Nat × Nat :=
  let rest := n % 64 * bb
  (n / 64 * (1 + bb) + (if rest = 0 then 0 else 1 + (rest + 63) / 64),
   4 * (n / 64 * (1 + bb)) + (if rest = 0 then 0 else 4 + (rest + 15) / 16))

/-- R53, R61: K steps in a tile. -/
def tileSteps (r : BitVec 4096) : Nat :=
  max 1 (agLevel r 0 (recTileLevel r) / max 1 (opLines (recRowFmt r) (tileShape r).1))

/-- R54: output lines of a tile. -/
def tileOutLines (r : BitVec 4096) : Nat :=
  let per := if recOutFmt r = 9 then (if recFp32 r then 16 else 5) else 512 / fmtBits (recOutFmt r)
  ((tileShape r).1 * (tileShape r).2 + per - 1) / per

/-- R66: lines and words of the longest packet on an output port. -/
def packetSize (r : BitVec 4096) (n : Nat) : Nat × Nat :=
  let c := recOutFmt r
  if recMode r = 1 then
    let vecs := ((recUops r).filter fun u => uopWrites (uopOpc u) && uopDst u = 0x18 + n).length * max 1 (recPkt r n)
    if fmtMx c then mxSize (fmtBlock c) (2 * vecs)
    else
      let ls := vecs * (if c = 9 && !recFp32 r then 13 else if c = 6 || c = 7 then 2 else 4)
      (ls, 4 * ls)
  else
    let ports := outPorts r
    let j := (ports.idxOf? n).getD 0
    let unit := tileSteps r * (if fmtMx c then groupTiles r else 1)
    let units := if recPkt r n = 0 then 1 else (recPkt r n + unit - 1) / unit
    if fmtMx c then
      let blocks := ((List.range (3 * (tileShape r).1)).filter fun b => b / 64 % ports.length = j).length
      mxSize (fmtBlock c) (blocks * units)
    else
      let ls := ((tileOutLines r + ports.length - 1 - j) / ports.length) * units
      (ls, 4 * ls)

/-! ### Stall records (R91 to R95) -/

/-- R88, R91, R92: the reserved bits of a stall record. -/
def stallReserved (r : BitVec 4096) : Bool :=
  bitAt (recNat r 0 1) 7 || bitAt (recNat r 2 1) 7 || 64 ≤ recNat r 3 1 || 16 ≤ recNat r 5 1 || 64 ≤ recNat r 6 1 ||
    recNat r 7 1 ≠ 0 || recNat r 10 2 ≠ 0 ||
    (List.range 3).any fun g =>
      let o := 32 + 96 * g
      recNat r (o + 3) 5 ≠ 0 || recNat r (o + 36) 4 ≠ 0 || recNat r (o + 88) 8 ≠ 0

/-- R91: the record's own CRC. -/
def stallCrcOk (r : BitVec 4096) : Bool :=
  let bs := leBytes r.toNat 512
  (crc32 (bs.take 28 ++ bs.drop 32)).toNat = recNat r 28 4

/-- R96: the first record of each multicast; a SINK stands alone. `fuel` is the number of routes. -/
def routeHeads (rs : List Route) : Nat → Nat → List Nat
  | 0, _ => []
  | fuel + 1, j =>
    match rs[j]? with
    | none => []
    | some r => j :: routeHeads rs fuel (j + if r.kind = 0 then max 1 r.fanout.toNat else 1)

/-- R97: an input port of record `i` has a source in the container. -/
def contFed (c : Cont) (i p : Nat) : Bool :=
  c.routes.any (fun r => r.kind = 0 && r.dst.toNat = i && r.dstPort.toNat = p) ||
    c.binds.any fun b => b.role = 0 && b.stall.toNat = i && b.port.toNat = p

/-- R94: OUTn_DST names a record that belongs to the output, and R66 allows its packets. -/
def outOk (c : Cont) (heads : List Nat) (i : Nat) (r : BitVec 4096) (n : Nat) : Bool :=
  let k := recDstIdx r n
  match recDstKind r n with
  | 0 => true
  | 1 =>
    match c.routes[k]? with
    | some q => k ∈ heads && q.srcStall.toNat = i && q.srcPort.toNat = n &&
        (packetSize r n).2 ≤ 4096
    | none => false
  | 2 =>
    match c.binds[k]? with
    | some b => b.role = 1 && b.stall.toNat = i && b.port.toNat = n && (packetSize r n).2 ≤ 4096
    | none => false
  | _ => false

/-- R23, R52, R55, R91, R95: the fields that MAC mode reads. -/
def macOk (c : Cont) (i : Nat) (r : BitVec 4096) : Bool :=
  recRowFmt r ≤ 7 && recColFmt r ≤ 7 && recRowSrc r ≤ 4 && recColSrc r ≤ 4 && recTileLevel r ≤ 5 &&
    (pairIndex (recRowFmt r) (recColFmt r)).isSome && fmtBits (recRowFmt r) ≤ fmtBits (recColFmt r) &&
    (!fmtMx (recOutFmt r) || agNest r 0 / agLevel r 0 (recTileLevel r) % groupTiles r = 0) &&
    (4 ≤ recRowSrc r || contFed c i (recRowSrc r)) && (4 ≤ recColSrc r || contFed c i (recColSrc r))

/-- R73, R74, R91: the fields that VEC mode reads. DESIGN CHOICE [59]: the DST of a micro-op that writes no
destination (NOP, RSUM, LACC) is not used, so a reserved selector there is accepted. -/
def vecOk (c : Cont) (i : Nat) (r : BitVec 4096) : Bool :=
  1 ≤ recUopCount r && recUopCount r ≤ 32 && (List.range 4).all (fun p => recVecIn r p ≠ 3) &&
    (recUops r).all (fun u => uopDefined (uopOpc u) &&
      !(uopWrites (uopOpc u) && (uopDst u = 0x1D || uopDst u = 0x1E))) &&
    (List.range 4).all fun p => !recReads r (0x18 + p) || contFed c i p

/-- R95, R90: a stall record: the code of its refusal. -/
def stallCheckRec (c : Cont) (heads : List Nat) (i : Nat) (r : BitVec 4096) : Option Nat :=
  let ok := !stallReserved r && recMode r ≤ 1 && recOutFmt r ≤ 9 && stallCrcOk r &&
    (if recMode r = 0 then macOk c i r else vecOk c i r) &&
    (issuing r).all (genOk r c.segs) && !(recAuto r && contFed c i (recAnchorPort r)) &&
    (List.range 4).all (outOk c heads i r)
  let cap := hCap c.k
  if !ok then some rRecord
  else if (recMode r = 0 && (pairRow (recPair r)).2.2.2.2 && !bitAt cap 0) || (wideStride r && !bitAt cap 1) then
    some rCapability
  else none

/-! ### Routes, bindings, segments (R85, R88, R96 to R101) -/

/-- R97: an earlier route or binding feeds the same input port. -/
def routeDup (c : Cont) (j : Nat) (r : Route) : Bool :=
  r.kind = 0 && (c.routes.take j).any fun q => q.kind = 0 && q.dst = r.dst && q.dstPort = r.dstPort
def bindDup (c : Cont) (j : Nat) (b : Binding) : Bool :=
  b.role = 0 &&
    (c.routes.any (fun q => q.kind = 0 && q.dst = b.stall && q.dstPort = b.port) ||
      (c.binds.take j).any fun q => q.role = 0 && q.stall = b.stall && q.port = b.port)

/-- R96: a multicast is whole: its records have one source. -/
def groupOk (c : Cont) (heads : List Nat) (j : Nat) (r : Route) : Bool :=
  if r.kind ≠ 0 || !(j ∈ heads) then true
  else
    let g := (c.routes.drop j).take r.fanout.toNat
    g.length = r.fanout.toNat && g.all fun q => q.kind = 0 && q.srcStall = r.srcStall && q.srcPort = r.srcPort

/-- R95 to R97, R85: a route record. -/
def routeCheck (c : Cont) (heads : List Nat) (j : Nat) (r : Route) : Option Nat :=
  let n := c.stalls.length
  let ok := r.kind.toNat ≤ 1 && r.srcPort.toNat ≤ 3 && r.flags.toNat ≤ 1 && !routeDup c j r && groupOk c heads j r &&
    (if r.kind = 0 then r.dstPort.toNat ≤ 3 && 1 ≤ r.fanout.toNat && r.fanout.toNat ≤ 8
    else r.dst.toNat < c.segs.length && r.linesPerPass ≠ 0 && r.srcStall.toNat < n &&
      (r.doneBind = 0xFFFF || r.doneBind.toNat < c.binds.length))
  if !ok then some rRecord
  else if r.kind = 0 && (n ≤ r.srcStall.toNat || n ≤ r.dst.toNat) then some rIsolation
  else none

/-- What the checks of bindings need of the pen: its number, its function, its placement and its chutes. -/
structure PenView where
  pen : Nat
  owner : Nat
  place : List StallId
  chutes : List Nat

/-- R98, R100: the chute of a binding: local, remote, or a pen-relative index beyond the grant. -/
inductive BindTo
  | chute (c : Nat)
  | remote (a : Nat)
  | outside
  deriving DecidableEq, Repr

def bindTo (s : State) (v : PenView) (b : Binding) : BindTo :=
  if b.chute.getLsbD 31 then
    match v.chutes[bitsAt b.chute.toNat 0 16]? with
    | some c => .chute c
    | none => .outside
  else if bitsAt b.chute.toNat 16 6 = myDev s then .chute (bitsAt b.chute.toNat 0 16)
  else .remote (bitsAt b.chute.toNat 0 22)

/-- R98, R155: the CHUTE_BASE a binding writes. -/
def bindBase (c : Cont) (v : PenView) (b : Binding) : BitVec 64 :=
  if b.storage = 1 then ((c.segs[b.seg.toNat]?).map (·.base)).getD 0
  else BitVec.ofNat 64 (b.seg.toNat * 64 + 2 ^ 18 * (v.place.getD b.stall.toNat 0).toNat)

/-- R99: an initialising binding whose chute is in use with other storage. -/
def bindClash (s : State) (c : Cont) (v : PenView) (b : Binding) : Bool :=
  match bindTo s v b with
  | .chute k =>
    let x := s.chute k
    decide (x.st ≠ .disabled) &&
      !(x.depth.toNat = b.depth.toNat && x.stack = decide (b.storage = 1) && x.base = bindBase c v b)
  | _ => false

/-- R124, R99, R134: the storage of an initialising binding. -/
def bindInitOk (s : State) (c : Cont) (v : PenView) (j : Nat) (b : Binding) : Bool :=
  let n := b.depth.toNat
  let me := bindTo s v b
  !((c.binds.take j).any fun q => q.depth ≠ 0 && bindTo s v q = me && decide (me ≠ .outside)) &&
    (if b.storage = 0 then n ≤ 12 && b.seg.toNat + 2 ^ n ≤ 4096
    else match c.segs[b.seg.toNat]? with
      | some g => g.access.toNat % 4 = 3 && 2 ^ n * 64 ≤ g.size.toNat
      | none => false) &&
    (b.role ≠ 1 || (packetSize (c.stalls.getD b.stall.toNat 0) b.port.toNat).1 ≤ 2 ^ n) && !bindClash s c v b

/-- R88, R95, R97 to R99: the fields of a binding record. DESIGN CHOICE [60]: bits of CHUTE that the address or the
index does not take are reserved, so they must be 0; bits [31:21] of HIGH_WM and LOW_WM, which the chute's fields do
not hold, may hold anything and are dropped. -/
def bindFields (c : Cont) (b : Binding) (raw : Nat) : Bool :=
  b.role.toNat ≤ 3 && fld raw 25 7 = 0 && b.storage.toNat ≤ 1 &&
    (if b.chute.getLsbD 31 then bitsAt b.chute.toNat 16 15 = 0 else bitsAt b.chute.toNat 22 9 = 0) &&
    (b.depth = 0 || (2 ≤ b.depth.toNat && b.depth.toNat ≤ 20)) && (b.flowPin.toNat ≤ 7 || b.flowPin = 0xFF) &&
    (2 ≤ b.role.toNat || (b.port.toNat ≤ 3 && b.stall.toNat < c.stalls.length)) &&
    (b.storage = 0 || b.seg.toNat < c.segs.length) && (b.storage = 1 || (b.depth ≠ 0 && b.role = 0))

/-- R85: the chute is granted to another pen of the same function. -/
def sisterChute (s : State) (v : PenView) (k : Nat) : Bool :=
  let x := s.chute k
  x.penValid && decide (x.pen.toNat ≠ v.pen) && penOwner s x.pen.toNat = v.owner

/-- R85, R95, R97 to R100, R124, R134: a binding record. -/
def bindCheck (s : State) (c : Cont) (v : PenView) (j : Nat) (b : Binding) (raw : Nat) : Option Nat :=
  let me := bindTo s v b
  let engine := c.binds.any fun q => q.role = 2 && bindTo s v q = me && decide (me ≠ .outside)
  let ok := bindFields c b raw && !bindDup c j b && !(b.storage = 0 && engine) &&
    (b.depth = 0 || bindInitOk s c v j b)
  if !ok then some rRecord
  else match me with
    | .outside => some rIsolation
    | .remote _ => none
    | .chute k =>
      if k ∈ v.chutes || ((b.role = 1 || b.role = 3) && sisterChute s v k) then none else some rIsolation

/-- R85, R88, R101: a segment descriptor, for a pen's memory window. -/
def segCheck (g : Segment) (raw base size : Nat) : Option Nat :=
  let span : Int := ((g.passes.toNat : Int) - 1) * g.stride.toInt
  if fld raw 27 5 ≠ 0 || 4 ≤ g.access.toNat || g.base.toNat % 64 ≠ 0 || g.size.toNat % 64 ≠ 0 || g.size = 0 ||
      g.stride.toNat % 64 ≠ 0 || g.passes = 0 then some rRecord
  else if (g.base.toNat : Int) + min 0 span < base ||
      (base + size : Int) < g.base.toNat + max 0 span + g.size.toNat then some rIsolation
  else none

/-! ### Plans (R103, R104) -/

/-- R104: an operand descriptor; `raw` is its 32 bytes, `isB` says operand B. -/
def operandOk (segs : List Segment) (pair kCount raw : Nat) (isB : Bool) : Bool :=
  let o := operandOf raw
  fld raw 1 1 = 0 && fld raw 28 4 = 0 &&
    match o.kind.toNat with
    | 0 =>
      match segs[o.seg.toNat]? with
      | some g => g.access.getLsbD 0 && o.rows ≠ 0 &&
          o.base.toNat + (o.rows.toNat - 1) * o.rowStride.toNat + (kCount - 1) * o.kStride.toNat < g.size.toNat
      | none => false
    | 1 => true
    | 2 => isB && pair = 14
    | _ => false

/-- R103: the plan at offset `o`. DESIGN CHOICE [60]: a DROVE above 22 bits is refused with either SCOPE, though SCOPE
PEN does not use the field. -/
def planCheck (c : Cont) (o : Nat) : Option Nat :=
  let k := c.k
  let trig := fld k (o + 12) 2
  let kc := fld k (o + 4) 4
  let pair := fld k (o + 3) 1
  let ok := fld k (o + 0x10) 4 = planSize k o && o + planSize k o ≤ hTotal k &&
    ((c.binds[trig]?).map fun b => decide (b.role = 2)).getD false &&
    fld k (o + 14) 2 ≠ 0 && fld k (o + 8) 2 ≠ 0 && fld k (o + 10) 2 ≠ 0 && fld k (o + 10) 2 ≤ 4096 && kc ≠ 0 &&
    fld k (o + 2) 1 ≤ 1 && pair ≤ 14 && fld k (o + 0x14) 4 < 2 ^ 22 && fld k (o + 0x18) 8 = 0 &&
    (List.range (fld k (o + 10) 2)).all (fun i =>
      fld k (o + 96 + 4 * i) 2 < c.stalls.length && fld k (o + 98 + 4 * i) 2 = 0) &&
    operandOk c.segs pair kc (fld k (o + 0x20) 32) false && operandOk c.segs pair kc (fld k (o + 0x40) 32) true
  if ok then none else some rRecord

/-! ### The whole container (R109 step 3) -/

/-- The offset at which a section's records end. -/
def secEnd (c : Cont) (sec : Nat) : Nat :=
  if sec = 0 then 128
  else if sec = 5 then
    match c.planAt.getLast? with
    | some o => o + fld c.k (o + 0x10) 4
    | none => secOff c.k 5
  else secOff c.k sec + secBytes sec * secCount c.k sec

/-- R88: non-zero padding after a section, put down to the last record before it. DESIGN CHOICE [60]: the bytes from
the end of the last section up to TOTAL_SIZE are padding too, and the manual does not say which record a refusal for
padding names. -/
def padCheck (c : Cont) (sec : Nat) : Option Refused :=
  let e := secEnd c sec
  let next := if sec = 5 then hTotal c.k else secOff c.k (sec + 1)
  let n := if sec = 0 then 0 else secCount c.k sec
  if fld c.k e (next - e) ≠ 0 then some ⟨sec, n - 1, rRecord, next⟩ else none

/-- The first of a list of optional refusals. -/
def firstOf : List (Option Refused) → Option Refused
  | [] => none
  | some r :: _ => some r
  | none :: rs => firstOf rs

/-- R109: the first record refused, in container order. -/
def contCheck (s : State) (c : Cont) (v : PenView) (base size : Nat) : Option Refused :=
  let heads := routeHeads c.routes c.routes.length 0
  let small := fun (sec j : Nat) (o : Option Nat) =>
    o.map fun code => (⟨sec, j, code, secOff c.k sec + 32 * (j + 1)⟩ : Refused)
  firstOf
    ([padCheck c 0]
      ++ (c.stalls.zipIdx.map fun e => (stallCheckRec c heads e.2 e.1).map fun code =>
          (⟨1, e.2, code, secOff c.k 1 + 512 * (e.2 + 1)⟩ : Refused))
      ++ [padCheck c 1]
      ++ (c.routes.zipIdx.map fun e => small 2 e.2 (routeCheck c heads e.2 e.1))
      ++ [padCheck c 2]
      ++ (c.binds.zipIdx.map fun e => small 3 e.2 (bindCheck s c v e.2 e.1 (smallAt c.k 3 e.2)))
      ++ [padCheck c 3]
      ++ (c.segs.zipIdx.map fun e => small 4 e.2 (segCheck e.1 (smallAt c.k 4 e.2) base size))
      ++ [padCheck c 4]
      ++ (c.planAt.zipIdx.map fun e => (planCheck c e.1).map fun code =>
          (⟨5, e.2, code, e.1 + max 96 (fld c.k (e.1 + 0x10) 4)⟩ : Refused))
      ++ [padCheck c 5])

/-- R109: the section and record that a container line belongs to. -/
def locate (c : Cont) (o : Nat) : Nat × Nat :=
  let inSec := fun sec => 0 < secCount c.k sec && secOff c.k sec ≤ o
  if inSec 5 then (5, (c.planAt.filter fun p => p ≤ o).length - 1)
  else match [4, 3, 2, 1].find? inSec with
    | some sec => (sec, min ((o - secOff c.k sec) / secBytes sec) (secCount c.k sec - 1))
    | none => (0, 0)

/-- R87: the container's CRC: its CHECKSUM field is read as 0. -/
def contCrcOk (c : Cont) : Bool :=
  let bs := leBytes c.k (hTotal c.k)
  (crc32 (bs.take 12 ++ [0, 0, 0, 0] ++ bs.drop 16)).toNat = fld c.k 0x0C 4

end Sys2Proof.Machine
end

