-- ==== Sys2Proof/Machine/Routes.lean ====
section
/-! DEFINITION. The edges of the mesh and the paths over them (R178, R182, R187 to R190). -/

namespace Sys2Proof.Machine

open Sys2Proof

/-! ### Edges and modules (R178, R189) -/

/-- The neighbour of logical die `d`: 0 east, 1 west, 2 south, 3 north. -/
def meshStep (d : Nat) : Nat → Option Nat
  | 0 => if d % 8 < 7 then some (d + 1) else none
  | 1 => if 0 < d % 8 then some (d - 1) else none
  | 2 => if d / 8 < 7 then some (d + 8) else none
  | 3 => if 0 < d / 8 then some (d - 8) else none
  | _ => none

/-- R178: the two module positions toward a direction. -/
def dirModules : Nat → List Nat
  | 0 => [2, 3]
  | 1 => [0, 1]
  | 2 => [6, 7]
  | _ => [4, 5]

/-- R178: the direction of a mesh module, and its partner position at the neighbour. -/
def moduleDir (m : Nat) : Nat := if m ≤ 1 then 1 else if m ≤ 3 then 0 else if m ≤ 5 then 3 else 2
def modulePartner (m : Nat) : Nat := if m % 4 < 2 then m + 2 else m - 2

/-- The site and module position at the other end of a mesh module of logical die `d`, while a die holds it. -/
def farEndOf (s : State) (d m : Nat) : Option (Nat × Nat) :=
  (meshStep d (moduleDir m)).bind fun n => if s.held n then some (s.siteOf n, modulePartner m) else none

/-- The site and module position at the other end of a mesh module of site `p`. The further module that joins the tack
die and the host die (R178) is position 0 of their sites [62]. -/
def farEnd (s : State) (p m : Nat) : Option (Nat × Nat) :=
  if p = 35 || p = 36 then (if m = 0 then some (71 - p, 0) else none)
  else if m < 8 then
    (s.dieAt p).bind fun d => farEndOf s d m
  else none

/-- R187, R189: a module of the site that holds die `d` carries traffic: not FAILED and, for the mesh, not retraining
at either end. -/
def moduleUp (s : State) (p m : Nat) : Bool :=
  !(s.site p).modFailed.getLsbD m && !((p, m) ∈ s.pnet.retraining) &&
    match farEnd s p m with
    | some e => !(e ∈ s.pnet.retraining)
    | none => true

/-- R189: both modules of the edge from die `d` in a direction are FAILED. -/
def edgeFailed (s : State) (d dir : Nat) : Bool := (dirModules dir).all fun m =>
    (s.site (s.siteOf d)).modFailed.getLsbD m

/-- R181, R187: a module of the edge works, so packets pass. -/
def edgeOpen (s : State) (d dir : Nat) : Bool := (dirModules dir).any fun m => moduleUp s (s.siteOf d) m

/-! ### Routes (R182) -/

/-- What the tables must be computed from now: the numbers held, those under replacement apart until step 9, and the
FAILED edges between them. -/
def wantBasis (s : State) : RouteBasis :=
  let inMesh := fun (d : Nat) => match s.pnet.repl with
    | some r => if r.die.toNat = d then decide (8 ≤ r.step) else s.held d
    | none => s.held d
  let ds := (List.range 64).filter inMesh
  let bad := ds.flatMap fun d => [0, 2].filterMap fun dir =>
    (meshStep d dir).bind fun n => if inMesh n && s.held d && s.held n && edgeFailed s d dir then some (d, n) else none
  { held := BitVec.ofNat 64 (ds.foldl (fun v d => v + 2 ^ d) 0), failedEdges := bad }

/-- The neighbour of `d` in a direction over a working edge. -/
def RouteBasis.next (b : RouteBasis) (d dir : Nat) : Option Nat :=
  (meshStep d dir).bind fun n =>
    if b.held.getLsbD d && b.held.getLsbD n && !((min d n, max d n) ∈ b.failedEdges) then some n else none

/-- R182: the root of the tree. -/
def RouteBasis.root (b : RouteBasis) : Option Nat := [27, 28, 35, 36].find? fun d => b.held.getLsbD d

/-- One layer of a breadth-first search: an unset entry next to one of distance `k` gets `k + 1`. -/
def bfsLayer (n : Nat) (near : Nat → List Nat) (tab : List (Option Nat)) (k : Nat) : List (Option Nat) :=
  (List.range n).map fun v =>
    match tab.getD v none with
    | some x => some x
    | none => if (near v).any fun u => tab.getD u none = some k then some (k + 1) else none

/-- Distances over `n` nodes from a start, up to `fuel` layers. -/
def bfs (n : Nat) (near : Nat → List Nat) (start : Nat → Bool) (fuel : Nat) : List (Option Nat) :=
  (List.range fuel).foldl (bfsLayer n near) ((List.range n).map fun v => if start v then some 0 else none)

/-- R182: the depth of each die in the tree. -/
def RouteBasis.levels (b : RouteBasis) : List (Option Nat) :=
  bfs 64 (fun d => [0, 1, 2, 3].filterMap (b.next d)) (fun d => b.root = some d) 64

/-- The legal moves from a die, in the order X first, with the phase after each: 1 once a down edge has been taken. -/
def RouteBasis.moves (b : RouteBasis) (lv : List (Option Nat)) (d ph : Nat) : List (Nat × Nat) :=
  [0, 1, 2, 3].filterMap fun dir => (b.next d dir).bind fun n =>
    if (lv.getD n none).getD 0 < (lv.getD d none).getD 0 then (if ph = 0 then some (n, 0) else none) else some (n, 1)

/-- Distances to a die, at `2 d + phase`. -/
def RouteBasis.distTo (b : RouteBasis) (lv : List (Option Nat)) (dst : Nat) : List (Option Nat) :=
  bfs 128 (fun v => (b.moves lv (v / 2) (v % 2)).map fun e => 2 * e.1 + e.2) (fun v => v / 2 = dst) 128

/-- The path walked from a die: each move to the first legal neighbour that is one nearer. -/
def RouteBasis.walk (b : RouteBasis) (lv dist : List (Option Nat)) (d ph : Nat) : Nat → List Nat
  | 0 => [d]
  | fuel + 1 =>
    match dist.getD (2 * d + ph) none with
    | some (k + 1) =>
      match (b.moves lv d ph).find? fun e => dist.getD (2 * e.1 + e.2) none = some k with
      | some e => d :: b.walk lv dist e.1 e.2 fuel
      | none => [d]
    | _ => [d]

/-- R182: X first, then Y. -/
def xyNext (d dst : Nat) : Nat :=
  if d % 8 < dst % 8 then d + 1 else if dst % 8 < d % 8 then d - 1 else if d / 8 < dst / 8 then d + 8 else d - 8

/-- R182: with every number held and no FAILED edge the tables route X first. -/
def RouteBasis.full (b : RouteBasis) : Bool := decide (b.held = BitVec.allOnes 64) && decide (b.failedEdges = [])

/-- R182: the hop after `here` on the path of a pair. -/
def RouteBasis.hop (b : RouteBasis) (src dst here : Nat) : Option Nat :=
  if here = dst then none
  else if b.full then some (xyNext here dst)
  else
    let lv := b.levels
    let dist := b.distTo lv dst
    match ((b.walk lv dist src 0 128).dropWhile (· ≠ here)).tail.head? with
    | some n => some n
    | none => (b.walk lv dist here 0 128).tail.head?

/-- R182: a held die that no path reaches. -/
def RouteBasis.cutOff (b : RouteBasis) : List Nat :=
  if b.full then []
  else
    let lv := b.levels
    (List.range 64).filter fun d => b.held.getLsbD d && decide (lv.getD d none = none)

/-- The direction from a die to a neighbour. -/
def dirTo (d n : Nat) : Nat := if n = d + 1 then 0 else if n + 1 = d then 1 else if n = d + 8 then 2 else 3

/-- The number of a class. -/
def clsCode : MeshClass → Nat
  | .ctl => 0
  | .req => 1
  | .rsp => 2
  | .str => 3

/-- R182: the tables of a class that a die's router holds. -/
def tabAt (s : State) (d c : Nat) : RouteBasis := tabGet (fun _ => {}) s.pnet.tabs (4 * d + c)

/-! ### The loader's paths (R89, R190) -/

/-- R182: the path that tables give a pair. -/
def xyPath (d dst : Nat) : Nat → List Nat
  | 0 => [d]
  | fuel + 1 => if d = dst then [d] else d :: xyPath (xyNext d dst) dst fuel
def RouteBasis.path (b : RouteBasis) (src dst : Nat) : List Nat :=
  if b.full then xyPath src dst 16 else b.walk b.levels (b.distTo b.levels dst) src 0 128

/-- R190: no module of the edge from die `d` in a direction is at half width or FAILED. -/
def edgeClean (s : State) (d dir : Nat) : Bool :=
  (dirModules dir).all fun m =>
    !(s.site (s.siteOf d)).modHalf.getLsbD m && !(s.site (s.siteOf d)).modFailed.getLsbD m

def pathClean (s : State) (path : List Nat) : Bool :=
  (path.zip path.tail).all fun e => edgeClean s e.1 (dirTo e.1 e.2)

/-- A walk toward the start of a search, each move to the first neighbour that is one nearer. -/
def walkDown (near : Nat → List Nat) (dist : List (Option Nat)) (d : Nat) : Nat → List Nat
  | 0 => [d]
  | fuel + 1 =>
    match dist.getD d none with
    | some (k + 1) =>
      match (near d).find? fun e => dist.getD e none = some k with
      | some e => d :: walkDown near dist e fuel
      | none => [d]
    | _ => [d]

/-- R89: a shortest path over clean edges only. -/
def cleanPath (s : State) (b : RouteBasis) (src dst : Nat) : Option (List Nat) :=
  let near := fun d => [0, 1, 2, 3].filterMap fun dir => if edgeClean s d dir then b.next d dir else none
  let dist := bfs 64 near (· = dst) 64
  if (dist.getD src none).isSome then some (walkDown near dist src 64) else none

/-- R89, R190: the dies that a stream route crosses: the tables' path, which a HEAVY route leaves for one over clean
edges where there is one. -/
def streamPath (s : State) (heavy : Bool) (src dst : Nat) : List Nat :=
  let b := tabAt s src 3
  let p := b.path src dst
  if heavy && !pathClean s p then (cleanPath s b src dst).getD p else p

end Sys2Proof.Machine
end

