-- ==== Sys2Proof/Machine/Partial.lean ====
section
/-! DEFINITION. Partial sums that come to a MAC stall from another stall or device, and the droves a stall takes part in
(R31, R35, R41 to R43, R47, R55, R307 to R310). The manual names no field that says where they enter: see [55]. -/

namespace Sys2Proof.Machine

open Sys2Proof

/-! ### Ports that bring partial sums [55] -/

/-- The record of stall `t` for a harness bank. -/
def bankRecord (s : State) (t : Nat) (bank : BitVec 2) : BitVec 4096 :=
  let x := s.stall t
  if x.active.bank = bank then x.active.record else x.shadow.record

/-- An input port of a MAC stall that no operand and no anchor reads: a chute feeds it, or the STREAM route of a
record whose output is PARTIAL. -/
def partPort (s : State) (t p : Nat) : Bool :=
  let x := s.stall t
  let r := x.record
  let h := harnessOf s t
  let i := x.active.recIdx
  recMode r = 0 && recRowSrc r ≠ p && recColSrc r ≠ p && !(recAuto r && recAnchorPort r = p) &&
    ((inBind h i p).isSome || h.routes.any fun q => q.kind = 0 && q.dst.toNat = i && q.dstPort.toNat = p &&
      recOutFmt (bankRecord s (h.place.getD q.srcStall.toNat 0).toNat x.active.bank) = 9)

def partPorts (s : State) (t : Nat) : List Nat := (List.range 4).filter (partPort s t)

/-- The port brings drove packets: its chute takes packets of other devices (R308). -/
def droveIn (s : State) (t p : Nat) : Bool :=
  match inBind (harnessOf s t) (s.stall t).active.recIdx p, penOfDie s (t / 64) with
  | some b, some q =>
    let a := bindAddr s q b
    isLocal s (BitVec.ofNat 22 a) && (s.chute (a % 65536)).remoteOk
  | _, _ => false

/-- The ports that bring partial sums of this device, and those that bring droves. -/
def ownPartPorts (s : State) (t : Nat) : List Nat := (partPorts s t).filter fun p => !droveIn s t p
def drovePorts (s : State) (t : Nat) : List Nat := (partPorts s t).filter (droveIn s t)

/-- R54: results of a tile. -/
def tileSize (r : BitVec 4096) : Nat := (tileShape r).1 * (tileShape r).2

/-- R42, R43: elements of a line of partial sums. DESIGN CHOICE [55]: the manual names no field that tells a receiver
whether its partial sums come as binary32 or as OFS: its own OUT_TRANSPORT says so. -/
def partPer (r : BitVec 4096) : Nat := if recFp32 r then 16 else 5

/-- R61: the tiles of one run of AG0's nest. -/
def runTiles (r : BitVec 4096) : Nat := agNest r 0 / agLevel r 0 (recTileLevel r)

/-- The record, and its output port, whose lines come to an input port of stall `t` by a route or a chute of the pen. -/
def partSender (s : State) (t p : Nat) : Option (BitVec 4096 × Nat) :=
  let h := harnessOf s t
  let b := (s.stall t).active.bank
  let i := (s.stall t).active.recIdx
  match h.routes.find? fun q => q.kind = 0 && q.dst.toNat = i && q.dstPort.toNat = p with
  | some q => some (bankRecord s (h.place.getD q.srcStall.toNat 0).toNat b, q.srcPort.toNat)
  | none =>
    match inBind h i p, penOfDie s (t / 64) with
    | some e, some pen => h.place.findSome? fun u =>
        let r := bankRecord s u.toNat b
        ((List.range 4).find? fun n => recDstKind r n = 2 && (match h.binds[recDstIdx r n]? with
          | some o => decide (bindAddr s pen o = bindAddr s pen e)
          | none => false)).map fun n => (r, n)
    | _, _ => none

/-- How elements are dealt to lines: `unit` of them together, to `ports` ports in turn, of which this is number
`place` [9]. -/
structure PartDeal where
  unit : Nat
  ports : Nat
  place : Nat
  deriving DecidableEq, Repr

/-- R54, R93: the dealing of the lines at a port: a tile's over the bound ports of its sender, a vector's to its one
port; a chute that no record of the pen produces into brings whole tiles [55]. -/
def partDeal (s : State) (t p : Nat) : PartDeal :=
  match partSender s t p with
  | some (r, n) => if recMode r = 1 then ⟨64, 1, 0⟩ else ⟨tileSize r, (outPorts r).length, (outPorts r).idxOf n⟩
  | none => ⟨tileSize (s.stall t).record, 1, 0⟩

/-- R42, R54: the elements of line `j` of a port, `per` to a full line: the first, and how many. -/
def PartDeal.line (d : PartDeal) (per j : Nat) : Nat × Nat :=
  let lines := (d.unit + per - 1) / per
  let here := max 1 ((lines + d.ports - 1 - d.place) / d.ports)
  let k := j % here * d.ports + d.place
  (j / here * d.unit + per * k, min per (d.unit - per * k))

/-- R307: PHASE, STEP and OFFSET of a header line. -/
def headerPhase (l : Line) : Nat := bitsAt l.toNat 24 8
def headerStep (l : Line) : Nat := bitsAt l.toNat 32 32
def headerOffset (l : Line) : Nat := bitsAt l.toNat 64 64

/-- R308: the elements of line `j` of a PHASE 0 packet, from STEP and OFFSET of its header. The packets of a tile come
by as many ports as its sender dealt its lines to [55]. -/
def droveLine (s : State) (t : Nat) (hdr : Line) (j : Nat) : Nat × Nat :=
  let r := (s.stall t).record
  let n := tileSize r
  let off := headerOffset hdr - (Config.droveBase r).toNat
  let d : PartDeal := ⟨n, (drovePorts s t).length, off % n / partPer r⟩
  let e := d.line (partPer r) j
  (headerStep hdr * (runTiles r * n) + off - partPer r * d.place + e.1, e.2)

/-! ### Merging (R27, R31, R35, R41 to R43, R80) -/

/-- What a position that no partial sum has reached holds: the number that adds nothing to any other, -0. -/
def psumZero (_ : Nat) : BitVec 32 := 0x80000000

/-- The accumulators that partial sums enter now: those of the tile that waits for them, else the open window set's. -/
def partAccs (x : Stall) : Tab Acc :=
  match x.join with
  | some tile => tile.accs
  | none => x.win

def setPartAccs (x : Stall) (w : Tab Acc) : Stall :=
  match x.join with
  | some tile => { x with join := some { tile with accs := w } }
  | none => { x with win := w }

/-- The anchor of the tile that partial sums enter now. -/
def partAnchor (x : Stall) : BitVec 16 :=
  match x.join with
  | some tile => tile.anchor
  | none => x.anchor

/-- The places in the line of the elements that belong to the tile that partial sums enter now. -/
def partPlaces (x : Stall) (e : PartElems) : List Nat :=
  let n := tileSize x.record
  (List.range (e.stop - e.first)).filter fun i =>
    decide (e.lo ≤ e.first + i) && decide (x.tileNo * n ≤ e.first + i) && decide (e.first + i < (x.tileNo + 1) * n)

/-- R31, R35, R42, R43, R80: the elements of a line that belong to the tile merged into it: OFS elements into their
accumulators, binary32 numbers added in order of arrival; those of a poisoned line poison their positions. -/
def mergeElems (x : Stall) (e : PartElems) : Stall :=
  let at_ := fun i => e.first + i - x.tileNo * tileSize x.record
  let ps := partPlaces x e
  if e.line.poison then
    setPartAccs x (ps.foldl (fun w i => tabUpd (fun _ => {}) w (at_ i) fun a =>
      { a with poisoned := true }) (partAccs x))
  else if recFp32 x.record then
    { x with psum := ps.foldl (fun w i =>
        tabUpd psumZero w (at_ i) fun a => laneAdd a (e.line.data.extractLsb' (32 * i) 32) 0) x.psum }
  else
    setPartAccs x (ps.foldl (fun w i =>
      tabUpd (fun _ => {}) w (at_ i) (ofsMerge (partAnchor x) e.line.data i)) (partAccs x))

/-- The elements of a line that belong to later tiles. -/
def laterElems (x : Stall) (e : PartElems) : List PartElems :=
  let hi := (x.tileNo + 1) * tileSize x.record
  if e.stop ≤ hi then [] else [{ e with lo := max e.lo hi }]

/-- R35: a line whose anchor is another one's. -/
def anchorDiffers (x : Stall) (l : TLine) : Bool :=
  !recFp32 x.record && !l.poison && ofsAnchor l.data ≠ partAnchor x

/-- R31, R35, R42, R80: elements that have come to the stall: those of the tile merge, and those of a later one are kept
[55]. The state after, and whether the stall goes on. -/
def enterElems (s : State) (t : Nat) (e : PartElems) : State × Bool :=
  let x := s.stall t
  if partPlaces x e = [] then (s.setStall t { x with early := x.early ++ laterElems x e }, true)
  else
    let fresh := e.line.poison && !((partAccs x).any (·.2.poisoned))
    let s1 := s.setStall t { mergeElems x e with early := x.early ++ laterElems x e }
    if anchorDiffers x e.line then (stallFault (report s1 t cAnchorMismatch 0) t false, false)
    else
      let s2 := if fresh then poisonConsumed s1 t else s1
      (s2, decide ((s2.stall t).st ≠ .fault))

/-- The elements that came before their tile was at hand. -/
def enterEarly (s : State) (t : Nat) : State × Bool :=
  (s.stall t).early.foldl (fun (r : State × Bool) e => if r.2 then enterElems r.1 t e else r)
    (s.updStall t fun x => { x with early := [] }, true)

/-- R308: a drove's line counted toward the tiles of its elements. -/
def countDrove (x : Stall) (e : PartElems) : Stall :=
  { x with got := (List.range (e.stop - e.first)).foldl (fun w i =>
      tabUpd (fun _ => 0) w ((e.first + i) / tileSize x.record) (· + 1)) x.got }

/-! ### Closed tiles (R53 to R55, R67) -/

def Tile.acc (x : Tile) (k : Nat) : Acc := tabGet (fun _ => {}) x.accs k

/-- A result of the tile is poisoned (R80). -/
def Tile.poisoned (x : Tile) : Bool := x.accs.any (·.2.poisoned)

/-- R430, R431: the samples of the tile's tokens, POISON as its results have it. -/
def Tile.sampled (x : Tile) : List SamplePend := x.samples.map fun p => { p with poison := x.poisoned }

/-- R43: the result at a position of a tile: its accumulator's, or the binary32 sum of FP32 transport. -/
def Tile.res (x : Tile) (k : Nat) : Res :=
  match x.f32 with
  | some sums => { val := f32Num (tabGet psumZero sums k), poisoned := (x.acc k).poisoned }
  | none => accRes x.anchor.toInt (x.acc k)

/-- The accumulator that a position of a tile sends in OFS: with FP32 transport, of its binary32 sum [55]. -/
def Tile.ofsAcc (x : Tile) (k : Nat) : Acc :=
  match x.f32 with
  | some sums =>
    if (x.acc k).poisoned then { poisoned := true } else accAdd {} x.anchor.toInt (f32Num (tabGet psumZero sums k))
  | none => x.acc k

/-- R55: block `k` of a group: three blocks in each row, over the columns of the group's tiles. -/
def groupRes (cols : Nat) (tiles : List Tile) (k : Nat) : List Res :=
  (List.range 32).map fun i =>
    let c := 32 * (k % 3) + i
    (tiles.getD (c / cols) {}).res (k / 3 * cols + c % cols)

/-- R39, R55, R80: the group's blocks with the status set. -/
def groupBlocks (c : Nat) (sat : Bool) (rows cols : Nat) (tiles : List Tile) : List MxBlock × BitVec 7 :=
  let bs := (List.range (3 * rows)).map fun k =>
    let rs := groupRes cols tiles k
    let r := mxBlockRes c sat rs
    (({ bytes := BitVec.ofNat 256 r.2.1, scale := BitVec.ofNat 8 r.1,
        poison := BitVec.ofNat 32 (rs.foldr (fun a n => bit a.poisoned + 2 * n) 0) } : MxBlock), r.2.2)
  (bs.map (·.1), bs.foldl (fun f b => f ||| b.2) 0)

/-! ### Gathered results (R308, R309) -/

/-- R309: the output formats whose results travel in finished lines. -/
def fmtFinished (c : Nat) : Bool := 6 ≤ c && c ≤ 8

/-- The elements of line `j` of a gathered packet that starts at element `off`, `per` to a full line, with their places
in the line. -/
def gatherPlaces (n per off j : Nat) : List (Nat × Nat) :=
  let lines := (n + per - 1) / per
  ((List.range per).filter fun i => per * (j % lines) + i < n).map fun i =>
    (i, off + j / lines * n + per * (j % lines) + i)

/-- R309: the status a result's STAT code sets, as the conversion would have. -/
def statFlags (sat isInf : Bool) (code : Nat) : BitVec 7 :=
  if code < 4 then
    flagIf (2 ≤ code) numInexact ||| flagIf (code % 2 = 1) (numOverflow ||| numNan) |||
      flagIf (isInf && code % 2 = 0) (numInexact ||| numInf)
  else if code = 5 || code = 6 then (if sat then numSat else numInf)
  else numNan

/-- R309: the result at a place of a finished line, and its STAT code. -/
def finishedAt (c : Nat) (l : Line) (i : Nat) : Nat × Nat :=
  (l.toNat / 2 ^ (32 * i) % 2 ^ fmtBits c, l.toNat / 2 ^ (320 + 16 * i) % 8)

/-- R31, R80, R309: line `j` of a packet of finished lines: the results kept, and their STAT codes in the status. -/
def gatherFinished (x : Stall) (off j : Nat) (l : TLine) : Stall :=
  let c := recOutFmt x.record
  (gatherPlaces (tileSize x.record) 10 off j).foldl (fun y e =>
    if l.poison then { y with
      gath := tabSet (fun _ => {}) y.gath e.2 { poison := true }, num := y.num ||| numPoisonOut }
    else
      let v := finishedAt c l.data e.1
      let isInf := v.1 % 2 ^ (fmtBits c - 1) = fmtMax c + 1
      { y with gath := tabSet (fun _ => {}) y.gath e.2 { bits := BitVec.ofNat 32 v.1 },
               num := y.num ||| statFlags (recOutSat x.record) isInf v.2 }) x

/-- DESIGN CHOICE [55]: a finite result of the greatest magnitude whose code is INEXACT may have been clamped or
rounded: the codes do not tell, so whether it sets SATURATED is a free value. -/
def gatherMaySat (r : BitVec 4096) (off j : Nat) (l : TLine) : Bool :=
  let c := recOutFmt r
  recOutSat r && !l.poison && (gatherPlaces (tileSize r) 10 off j).any fun e =>
    let v := finishedAt c l.data e.1
    decide (v.2 = 2) && decide (v.1 % 2 ^ (fmtBits c - 1) = fmtMax c)

/-- R55, R308: output group `k` of the gathered vector converted: its tiles, in order, lie one after the other [55]. An
MX result stands with its scale byte above its element. -/
def convertGathered (x : Stall) (anchor : BitVec 16) (k : Nat) : Stall :=
  let r := x.record
  let c := recOutFmt r
  let n := tileSize r
  let g := groupTiles r
  let lo := k * (g * n)
  let cols := (tileShape r).2
  let tiles := (List.range g).map fun j =>
    ({ anchor := anchor, accs := (x.gathAcc.filter fun e => decide (lo + j * n ≤ e.1) && decide (e.1 < lo + j * n + n)).map
        fun e => (e.1 - (lo + j * n), e.2) } : Tile)
  let bs := groupBlocks c (recOutSat r) (tileShape r).1 cols tiles
  let gath := (List.range (g * n)).foldl (fun w i =>
    let q := i / n * cols + i % n % cols
    let b := bs.1.getD (3 * (i % n / cols) + q / 32) { bytes := 0, scale := 0, poison := 0 }
    let v : Gathered := { bits := BitVec.ofNat 32 (unpackElem c b.bytes.toNat (q % 32) + 256 * b.scale.toNat),
                          poison := b.poison.getLsbD (q % 32) }
    tabSet (fun _ => {}) w (lo + i) v) x.gath
  { x with gath := gath, gathAcc := tabClear x.gathAcc lo (lo + g * n), gathN := tabErase x.gathN k,
           num := x.num ||| bs.2 ||| flagIf (tiles.any Tile.poisoned) numPoisonOut }

/-- R31, R308: line `j` of a packet gathered in OFS; the last element of an output group brings its conversion. -/
def gatherOfs (x : Stall) (off j : Nat) (l : TLine) : Stall :=
  let n := tileSize x.record
  let per := groupTiles x.record * n
  (gatherPlaces n 5 off j).foldl (fun y e =>
    let a : Acc := if l.poison then { poisoned := true } else ofsRead l.data e.1
    let k := e.2 / per
    let z := { y with gathAcc := tabSet (fun _ => {}) y.gathAcc e.2 a, gathN := tabUpd (fun _ => 0) y.gathN k (· + 1) }
    if fmtMx (recOutFmt x.record) && tabGet (fun _ => 0) z.gathN k = per then convertGathered z (ofsAnchor l.data) k
    else z) x

/-- Line `j` of an all-gather whose results start at element `off`. -/
def gatherLine (x : Stall) (off j : Nat) (l : TLine) : Stall :=
  if fmtFinished (recOutFmt x.record) then gatherFinished x off j l else gatherOfs x off j l

/-- R31, R80, R308, R309: one line of an all-gather packet at port `p` taken in; a packet's first poisoned line is
reported. -/
def takeGathered (s : State) (t p : Nat) (l : TLine) : State :=
  let x := s.stall t
  let q := x.inPort p
  let off := headerOffset (q.hdr.getD 0)
  let s1 := s.setStall t ((gatherLine x off q.elem l).setIn p
    { q with fifo := q.fifo.tail, elem := q.elem + 1, pois := q.pois || l.poison })
  let s2 := if fmtFinished (recOutFmt x.record) && gatherMaySat x.record off q.elem l then
      (s1.updStall t fun y => { y with num := y.num ||| flagIf (s.freeNow.getLsbD 0) numSat }).useFree else s1
  if l.poison && !q.pois then poisonConsumed s2 t else s2

/-! ### Taking lines from the ports -/

/-- What the head of a port that brings partial sums is. -/
inductive PartLine
  | header (l : TLine)
  | merge (e : PartElems)
  | gather (l : TLine)
  | other
  | wait
  deriving DecidableEq, Repr

/-- A line with its elements, the first and how many. -/
def partElems (l : TLine) (e : Nat × Nat) : PartElems := { lo := e.1, first := e.1, stop := e.1 + e.2, line := l }

/-- R42, R78, R307: what a stall does with the head of a port: a line of partial sums waits there while it begins in a
later tile, a drove's does not. -/
def partHead (s : State) (t p : Nat) : PartLine :=
  let x := s.stall t
  let q := x.inPort p
  match q.fifo with
  | [] => .wait
  | l :: _ =>
    if l.fence then .wait
    else if droveIn s t p then
      if tagFirst l.tag then .header l
      else match headerPhase (q.hdr.getD 0) with
        | 0 => .merge (partElems l (droveLine s t (q.hdr.getD 0) q.elem))
        | 1 => .gather l
        | _ => .other
    else
      let e := partElems l ((partDeal s t p).line (partPer x.record) q.pos)
      if e.first < (x.tileNo + 1) * tileSize x.record then .merge e else .wait

/-- The state after the lines at a port, until one waits: the state, and whether the stall goes on. `fuel` bounds the
lines. -/
def takeParts (s : State) (t p : Nat) : Nat → State × Bool
  | 0 => (s, true)
  | fuel + 1 =>
    let x := s.stall t
    let q := x.inPort p
    let next := { q with fifo := q.fifo.tail }
    match partHead s t p with
    | .wait => (s, true)
    | .other => takeParts (s.setStall t (x.setIn p next)) t p fuel
    | .header l => takeParts (s.setStall t (x.setIn p { next with hdr := some l.data, elem := 0, pois := false })) t p fuel
    | .gather l =>
      let s1 := takeGathered s t p l
      if (s1.stall t).st = .fault then (s1, false) else takeParts s1 t p fuel
    | .merge e =>
      let y := x.setIn p { next with pos := q.pos + 1, elem := q.elem + 1 }
      let r := enterElems (s.setStall t (if droveIn s t p then countDrove y e else y)) t e
      if r.2 then takeParts r.1 t p fuel else r

/-- R42: every port's lines taken as far as the tile goes. -/
def mergeParts (s : State) (t : Nat) : State × Bool :=
  (partPorts s t).foldl (fun (r : State × Bool) p =>
    if r.2 then takeParts r.1 t p (((r.1.stall t).inPort p).fifo.length + 1) else r) (enterEarly s t)

/-- R42, R308: the tile has all its partial sums: the next line of each port of this device begins in a later tile, and
the droves have brought every partner's. -/
def partsDone (s : State) (t : Nat) : Bool :=
  let x := s.stall t
  let n := tileSize x.record
  ((ownPartPorts s t).all fun p =>
      (x.tileNo + 1) * n ≤ ((partDeal s t p).line (partPer x.record) (x.inPort p).pos).1) &&
    (decide (drovePorts s t = []) || decide ((partners s).length * n ≤ tabGet (fun _ => 0) x.got x.tileNo))

/-- R43: a tile's own partial sums, each rounded once to binary32, added to those received so far, with the status set.
DESIGN CHOICE [55]: a receiver's own partial sum arrives when its tile closes, after the lines taken before and before
those that come later. -/
def ownF32 (x : Stall) (tile : Tile) : Stall :=
  (List.range (tileSize x.record)).foldl (fun y k =>
    let c := convAcc 8 (recOutSat x.record) tile.anchor.toInt (tile.acc k)
    { y with psum := tabUpd psumZero y.psum k fun a => laneAdd a (BitVec.ofNat 32 c.bits) 0, num := y.num ||| c.flags }) x

/-- The tile that has its partial sums, and the stall ready for the next. -/
def finishParts (x : Stall) (tile : Tile) : Stall × Tile :=
  ({ x with join := none, psum := [], tileNo := x.tileNo + 1, got := tabErase x.got x.tileNo },
   { tile with f32 := if recFp32 x.record then some x.psum else none })

/-! ### Droves a stall sends (R307 to R310) -/

/-- An output port leads to a chute of another device. -/
def remotePort (s : State) (t n : Nat) : Bool :=
  match outDst s t n with
  | .chute c => !isLocal s c
  | _ => false

/-- R308 [55]: the stall owns a share of an all-reduce: partial sums reach it by a drove, and its outputs go to the
other devices. -/
def ownsShare (s : State) (t : Nat) : Bool :=
  let r := (s.stall t).record
  recOutFmt r ≠ 9 && drovePorts s t ≠ [] && outPorts r ≠ [] && (outPorts r).all (remotePort s t)

/-- R307 [55]: the PHASE of the drove whose packets an output port sends: partial sums that go to another device, the
finished share, or what the harness makes of the port. -/
def droveOut (s : State) (t n : Nat) : Option Nat :=
  if !remotePort s t n then none
  else if recOutFmt (s.stall t).record = 9 then some 0
  else if ownsShare s t then some 1
  else (Config.drovePort (s.stall t).record n).map BitVec.toNat

/-- R140, R312: a drove packet can start to a chute of another device: on a link that takes it, or, where the device
is out of reach, on the link that holds it. -/
def droveStarts (s : State) (src : Source) (c : ChuteAddr) : Bool :=
  !remoteXoff s c.toNat && (match pairLink s src c with
    | some l => linkTakes s l
    | none => (lostLink s (bitsAt c.toNat 16 6)).isSome)

/-- R65, R69, R108, R312: an output port can send its next line: as `portReady`, and a drove packet's first line to a
device out of reach. -/
def portSends (s : State) (t n : Nat) : Bool :=
  portReady s t n ||
    (decide (0 < ((s.stall t).outPort n).credits) && !((s.stall t).outPort n).opened && !sinkLinesDue s t &&
      (droveOut s t n).isSome && (match outDst s t n with
        | .chute c => droveStarts s (stallSource s t n) c
        | _ => false))

/-- R307: the header line of a port's drove packet: DROVE and the start of OFFSET are the harness's [55]; `run` is the
run it belongs to, and `elem` the first of its elements. -/
def droveHeader (s : State) (t n phase run elem : Nat) : Line :=
  let r := (s.stall t).record
  BitVec.ofNat 512 ((Config.droveOf r n).toNat + 2 ^ 16 * myDev s + 2 ^ 24 * phase
    + 2 ^ 32 * (run % 2 ^ 32) + 2 ^ 64 * (((Config.droveOffset r n).toNat + elem) % 2 ^ 64))

end Sys2Proof.Machine
end

