-- ==== Sys2Proof/Machine/Mac.lean ====
section
/-! DEFINITION. MAC_TOKEN and the path of a tile to the output ports (R50 to R56, R63, R66, R67, R70, R80). -/

namespace Sys2Proof.Machine

open Sys2Proof

/-! ### One K step (R25, R50 to R52) -/

/-- R25, R29, R31: one pair of blocks into its accumulator. -/
def macInto (mx : Bool) (anchor : Int) (apois : Bool) (a b : OpBlk) (x : Acc) : Acc :=
  if apois || a.poison || b.poison then { x with poisoned := true }
  else if mx then accAdd x anchor (mxContribution a.scale b.scale a.elems b.elems)
  else (products a.elems b.elems).foldl (fun y v => accAdd y anchor v) x

/-- R50: every row against every column; result (r, c) lies at `r * cols + c`. -/
def macStep (mx : Bool) (anchor : Int) (apois : Bool) (rows cols : List OpBlk) (win : Tab Acc) : Tab Acc :=
  (rows.zipIdx).foldl (fun w ra =>
    (cols.zipIdx).foldl (fun v cb =>
      tabUpd (fun _ => {}) v (ra.2 * cols.length + cb.2) (macInto mx anchor apois ra.1 cb.1)) w) win

/-! ### Closed tiles (R53 to R55, R67) -/

/-- R41, R309: the OFS code of a result of a finished line: INEXACT says that the result is not exact, whether the sum
or the conversion, with flags `f`, made it so [55]. -/
def Res.code (r : Res) (f : BitVec 7) : Nat :=
  if r.poisoned then 0
  else
    let inexact := r.inexact || f.getLsbD 0
    if r.overflow then 1 + 2 * bit inexact
    else match r.val with
      | .nan => 4
      | .inf false => 5
      | .inf true => 6
      | .fin _ _ _ => 2 * bit inexact

/-- R66: OUTn_PKT ends the packet of a port at this tile or group end. -/
def packetEnds (r : BitVec 4096) (o : OutPort) (n toks : Nat) : Bool :=
  recPkt r n = 0 || recPkt r n ≤ o.tokens + toks

/-- R307: results of a run that start at element `elem` of it are staged at a port: the first of a packet are those that
its header names. -/
def droveBegins (o : OutPort) (run elem : Nat) : OutPort :=
  if !o.opened && o.stage = [] && o.blocks = [] then { o with run := run, hdrAt := elem } else o

/-- R55, R67: the blocks of a group dealt to the bound ports in runs of 64 [9]; the group's tiles took `toks` tokens, in
run `run`, and hold elements from `elem` on. -/
def dealGroup (x : Stall) (bs : List MxBlock) (toks run elem : Nat) : Stall :=
  let r := x.record
  let ports := outPorts r
  (ports.zipIdx).foldl (fun y pn =>
    let o := droveBegins (y.outPort pn.1) run (elem + 2048 * pn.2)
    let mine := (bs.zipIdx).filter (fun b => b.2 / 64 % ports.length = pn.2) |>.map (·.1)
    let final := packetEnds r o pn.1 toks
    y.setOut pn.1 { putBlocks (recOutFmt r) o mine final with tokens := if final then 0 else o.tokens + toks }) x

/-- R53, R55: a closed tile goes to the converter, when the converter is free. DESIGN CHOICE [59]: the manual does not
say what becomes of a tile when no output port is bound: it is dropped, with no conversion and no status, and its
samples are written then (see `tileCloses`); nor whether an MX group that leaves the conversion buffer still takes a
window set: it does, so the array holds once one further tile is closed. -/
def placeTile (x : Stall) (tile : Tile) : Stall :=
  let r := x.record
  if outPorts r = [] then x
  else if x.out.isSome then { x with closed := some tile }
  else if !fmtMx (recOutFmt r) || tile.share then { x with out := some { tiles := [tile] } }
  else if (x.conv ++ [tile]).length < groupTiles r then { x with conv := x.conv ++ [tile] }
  else
    let tiles := x.conv ++ [tile]
    let g := groupBlocks (recOutFmt r) (recOutSat r) (tileShape r).1 (tileShape r).2 tiles
    let pois := tiles.any Tile.poisoned
    dealGroup { x with conv := [], out := some { tiles := tiles },
                       num := x.num ||| g.2 ||| flagIf pois numPoisonOut } g.1
      (tiles.foldl (fun n y => n + y.tokens) 0) (tiles.getD 0 tile).run (tiles.getD 0 tile).base

/-- R54, R308, R309: results in one output line: a share is gathered in finished lines of ten or in OFS lines of five. -/
def perLine (r : BitVec 4096) (share : Bool) : Nat :=
  if share then (if fmtFinished (recOutFmt r) then 10 else 5)
  else if recOutFmt r = 9 then (if recFp32 r then 16 else 5)
  else 512 / fmtBits (recOutFmt r)

/-- R54: output lines of a tile. -/
def tileLines (r : BitVec 4096) (share : Bool) : Nat := (tileSize r + perLine r share - 1) / perLine r share

/-- R309: a finished line: results in the low bytes of 4-byte slots, their codes, and the anchor. -/
def finishedLine (anchor : BitVec 16) (bits codes : List Nat) : Line :=
  BitVec.ofNat 512 (bits.foldr (fun b n => b + 2 ^ 32 * n) 0 + 2 ^ 320 * codes.foldr (fun c n => c + 2 ^ 16 * n) 0
    + 2 ^ 480 * anchor.toNat)

/-- R54, R37, R40, R80, R309: line `k` of a tile with the status its conversion sets. -/
def tileLine (r : BitVec 4096) (tile : Tile) (k : Nat) : OutLine × BitVec 7 :=
  let per := perLine r tile.share
  let ps := ((List.range per).map fun i => per * k + i).filter (· < tileSize r)
  let rs := ps.map tile.res
  let pois := rs.any (·.poisoned)
  if (recOutFmt r = 9 && !recFp32 r) || (tile.share && !fmtFinished (recOutFmt r)) then
    ({ data := ofsLine tile.anchor (ps.map tile.ofsAcc), poison := pois }, flagIf pois numPoisonOut)
  else
    let c := if recOutFmt r = 9 then 8 else recOutFmt r
    let cs := rs.map (convRes c (recOutSat r))
    let data := if tile.share then finishedLine tile.anchor (cs.map (·.bits)) ((rs.zip cs).map fun e =>
      e.1.code e.2.flags)
      else BitVec.ofNat 512 (packElems c (cs.map (·.bits)))
    ({ data := data, poison := pois }, cs.foldl (fun f v => f ||| v.flags) (flagIf pois numPoisonOut))

/-- R53: the group being emptied is empty: its window sets are free, and a closed tile that waits takes its place. -/
def emptied (x : Stall) : Stall :=
  match x.closed with
  | some tile => placeTile { x with out := none, closed := none } tile
  | none => { x with out := none }

/-! ### MAC_TOKEN -/

/-- R308: the owner of a share holds its finished results as its partners do, who gather its lines. -/
def keepShare (x : Stall) (tile : Tile) : Stall :=
  let r := x.record
  (List.range (tileLines r true)).foldl (fun y k =>
    let l := (tileLine r tile k).1
    gatherLine y ((Config.droveBase r).toNat + tile.base) k { data := l.data, tag := 0x3F, poison := l.poison }) x

/-- R53, R308, R430: a tile with all its contributions goes to the converter. DESIGN CHOICE [59]: with no output port
bound no result leaves, and the samples of its tokens are written now. -/
def tileCloses (s : State) (t : Nat) (tile : Tile) : State :=
  if outPorts (s.stall t).record = [] then putSamples s t false tile.sampled
  else s.updStall t fun x => placeTile (if tile.share then keepShare x tile else x) tile

/-- R42, R53: a tile whose K steps are done: it closes, or first waits for its partial sums (`parts`). -/
def closeTile (s : State) (t : Nat) (parts : Bool) (tile : Tile) : State :=
  if !parts then tileCloses s t tile
  else s.updStall t fun x => { (if recFp32 x.record then ownF32 x tile else x) with join := some tile }

/-- R42: the tile that waited closes once its partial sums are there. -/
def joinDone (s : State) (t : Nat) : State :=
  match (s.stall t).join with
  | none => s
  | some tile =>
    if !partsDone s t then s
    else
      let r := finishParts (s.stall t) tile
      tileCloses (s.setStall t r.1) t r.2

/-- R42, R78, R115: a tile that waits for partial sums takes those at the ports, and closes once they are there. -/
def settleParts (s : State) (t : Nat) : State × Bool :=
  let x := s.stall t
  if x.join.isNone || !penWorks s t || x.st = .fault || x.st = .failed then (s, true)
  else
    let m := mergeParts s t
    if m.2 then (joinDone m.1 t, true) else m

/-- R53, R61, R64, R102: the K step ends: generators advance, and the tile closes when AG0 completes TILE_LEVEL. `parts`
says that partial sums come to the stall, `share` that it owns a share of an all-reduce. -/
def macAdvance (s : State) (t rowN colN : Nat) (sample : Option SamplePend) (parts share : Bool) : State :=
  let x := s.stall t
  let r := x.record
  let samples := x.tileSamples ++ sample.toList
  let y := { x with tileToks := x.tileToks + 1, tileSamples := samples, ag1 := (x.ag1 + colN) % agNest r 1, st := .run }
  if agCompletes r 0 x.ag0 rowN (recTileLevel r) then
    let tile : Tile :=
      { accs := y.win, anchor := y.anchor, share := share, run := x.pass, base := x.runTile * tileSize r,
        tokens := y.tileToks, samples := samples }
    let z := advanceAg0 { y with win := [], tileToks := 0, tileSamples := [] } rowN
    let s1 := s.setStall t { z with runTile := if z.pass = x.pass then x.runTile + 1 else 0 }
    (settleParts (closeTile s1 t parts tile) t).1
  else s.setStall t (advanceAg0 y rowN)

/-- R57, R63: the banks a generator's next `n` lines of format `c` lie in, with the banks of their scale bytes; none
outside the manger. -/
def agBanks (r : BitVec 4096) (g a n c : Nat) : List Nat :=
  if agTarget r g ≠ 0xFFFF then []
  else
    let offs := (List.range n).map fun i => agOffset r g ((a + i) % agNest r g)
    let bank := fun (z : Int) => mangerBank (recSwizzle r) z.toNat
    offs.map (fun o => bank (agBase r g + o)) ++
      if fmtMx c then offs.flatMap fun o =>
        [bank (agScaleBase r g + o / fmtBlock c), bank (agScaleBase r g + (o + 63) / fmtBlock c)]
      else []

/-- R57, R58, R124: the banks that the stall's chute consumer endpoints read: those of the lines at RP of the chutes
in its manger. -/
def endpointBanks (s : State) (t : Nat) : List Nat :=
  (s.chutes.filter fun e => !e.2.stack && (match e.2.consumer with
    | .stall u _ => decide (u.toNat = t)
    | _ => false)).map fun e =>
      mangerBank (recSwizzle (s.stall t).record) (e.2.mangerOff + 64 * (e.2.rp.toNat % e.2.size))

/-- R58, R59: the cycles in which read B waits for read A: only when a manger line of AG0 and one of AG1 or of a
consumer endpoint share a bank. -/
def bankWaits (s : State) (t rowN colN waits : Nat) : Nat :=
  let x := s.stall t
  let r := x.record
  let a := if recRowSrc r = 4 then agBanks r 0 x.ag0 rowN (recRowFmt r) else []
  let b := (if recColSrc r = 4 then agBanks r 1 x.ag1 colN (recColFmt r) else []) ++ endpointBanks s t
  if a.any fun k => k ∈ b then waits else 0

/-- The stall after an operand has left its port. -/
def portAfter (g : Got) (src : Nat) (x : Stall) : Stall :=
  match g.port with
  | some p => x.setIn src p
  | none => x

/-- R431: the first input line of the token: the head of the row's port, else of the column's. -/
def firstLine (x : Stall) : Option TLine :=
  let r := x.record
  if recRowSrc r < 4 then (x.inPort (recRowSrc r)).fifo.head?
  else if recColSrc r < 4 then (x.inPort (recColSrc r)).fifo.head? else none

/-- The token with its operands read: `a` the rows, `b` the columns; `s` the state before. -/
def macWith (s : State) (t : Nat) (a b : Got) (waits : Nat) : State :=
  let x0 := s.stall t
  let r := x0.record
  let sh := tileShape r
  let first := firstLine x0
  let rowN := opLines (recRowFmt r) sh.1
  let colN := opLines (recColFmt r) sh.2
  let w := bankWaits s t rowN colN waits
  let parts := decide (partPorts s t ≠ [])
  let share := ownsShare s t
  let pois := x0.anchorPois || (a.blocks ++ b.blocks).any (·.poison)
  let fresh := pois && !(x0.win.any (·.2.poisoned))
  let win := macStep (fmtMx (recRowFmt r)) x0.anchor.toInt x0.anchorPois a.blocks b.blocks x0.win
  let s1 := b.st.updStall t fun x => { portAfter b (recColSrc r) x with win := win, waits := satAdd 32 x.waits w }
  let s2 := pmuStall s1 t evBankConflict w
  let s3 := if fresh then poisonConsumed s2 t else s2
  if (s3.stall t).st = .fault then dropToken s3 t
  else
    let num := (s3.stall t).tokens
    let q := retireToken s3 t
    let s4 := pmuStall q.1 t evMacOps (2 * 32 * sh.1 * sh.2)
    let sample : Option SamplePend := if q.2 then some
        { token := num, enq := (match first with | some l => l.at_ | none => s.time), uop := 0x1F,
          fromChute := (match first with | some l => l.chute | none => false), poison := false }
      else none
    macAdvance s4 t rowN colN sample parts share

/-- A MAC stall's operands, in order: rows, then columns. -/
def macGather (s : State) (t : Nat) (waits : Nat) : State :=
  let x := s.stall t
  let r := x.record
  let h := harnessOf s t
  let sh := tileShape r
  let a := gather s t h r (recRowSrc r) 0 x.ag0 x.pass (recRowFmt r) sh.1
  let sa := a.st.updStall t (portAfter a (recRowSrc r))
  let b := gather sa t h r (recColSrc r) 1 x.ag1 x.pass (recColFmt r) sh.2
  match a.res, b.res with
  | .wait, _ => setSt s t .waitIn
  | .grant, _ => grantFault (dropToken s t) t a.addr
  | .uc, _ => stallFault (dropToken a.st t) t false
  | .ok, .wait => setSt s t .waitIn
  | .ok, .grant => grantFault (dropToken sa t) t b.addr
  | .ok, .uc => stallFault (dropToken b.st t) t false
  | .ok, .ok =>
    let i := stallInjected b.st t true
    if i.2 then macWith s t a b waits else dropToken i.1 t

/-- R78: a fence line is at the head of FENCE_PORT, so no token is taken. -/
def fenceWaits (x : Stall) : Bool :=
  match (x.inPort (recFencePort x.record)).fifo with
  | l :: _ => l.fence
  | [] => false

/-- R53, R69, R70, R115: what a stall checks before it takes a token. -/
def takesToken (s : State) (t mode : Nat) : Bool :=
  let x := s.stall t
  (penRuns s t || swapGoesOn s t) && x.working && !fenceWaits x && recMode x.record = mode && recTakes x.record

/-- R35, R42: the partial sums at a stall's ports go in, and a K step follows unless the last tile still waits for
some or a closed one for the converter. -/
def macParts (s : State) (t waits : Nat) : State :=
  let m := mergeParts s t
  if !m.2 then m.1
  else
    let s1 := joinDone m.1 t
    if (s1.stall t).join.isSome then setSt s1 t .waitIn
    else if (s1.stall t).closed.isSome then setSt s1 t .waitOut
    else macGather s1 t waits

/-- A MAC token past the stall's checks: its active record, the rest of the last tile, its anchor and its operands. -/
def macToken (s : State) (t waits : Nat) : State :=
  let i := stallInjected s t false
  if !i.2 then dropToken i.1 t
  else
    let j := settleParts i.1 t
    if !j.2 then j.1
    else
      let s1 := j.1.updStall t takeAnchor
      if !(s1.stall t).anchorOk then setSt s1 t .waitAnchor
      else macParts s1 t waits

/-- MAC_TOKEN (R50). -/
def execMacToken (t : StallId) (chk : StallCheck) (waits : Nat) (s : State) : Host.Outcome State Fault Refusal :=
  .next <|
    if !takesToken s t.toNat 0 then s
    else if (s.stall t.toNat).closed.isSome then setSt s t.toNat .waitOut
    else withChecks s t.toNat chk (fun st => dropToken st t.toNat) fun st => macToken st t.toNat waits

end Sys2Proof.Machine
end

