-- ==== Sys2Proof/Machine/Vec.lean ====
section
/-! DEFINITION. VEC_TOKEN and the micro-ops (R71 to R75, R80, R93). -/

namespace Sys2Proof.Machine

open Sys2Proof

/-! ### Taking a token (R64, R74) -/

/-- R74: the input ports that supply a vector to every token: the bound ones, ANCHOR_PORT apart with an AUTO anchor. -/
def vecPorts (s : State) (t : Nat) : List Nat :=
  let r := (s.stall t).record
  let h := harnessOf s t
  (List.range 4).filter fun p =>
    inBound h (s.stall t).active.recIdx p && !(recAuto r && recAnchorPort r = p)

/-- R73, R61: MRD's vector through AG0: the places of its four lines. -/
def mrdPlaces (s : State) (t : Nat) : List (Option Place) :=
  let x := s.stall t
  let r := x.record
  (List.range 4).map fun i =>
    resolveAt s (harnessOf s t) (agTarget r 0) (agBase r 0 + agOffset r 0 ((x.ag0 + i) % agNest r 0)) 64
      (x.pass + (x.ag0 + i) / agNest r 0) false

/-- R70, R80: the micro-ops of a record use an accumulator that the anchor governs. -/
def usesAnchor (r : BitVec 4096) : Bool :=
  (recUops r).any (fun u => uopOpc u = 0x18 || uopOpc u = 0x1B) ||
    (recOutFmt r = 9 && !recFp32 r && (List.range 4).any fun p => recWrites r (0x18 + p))

/-- R58, R59: the cycles in which a consumer endpoint's read of the manger waits for the four lines of MRD: some
number of them, where the banks of the state before share one [4]. -/
def mrdWaits (s0 s : State) (t : Nat) : State :=
  let r := (s0.stall t).record
  let e := endpointBanks s0 t
  if (agBanks r 0 (s0.stall t).ag0 4 8).any fun k => k ∈ e then
    let w := s.freeNow.toNat % 5
    pmuStall (s.useFree.updStall t fun x => { x with waits := satAdd 32 x.waits w }) t evBankConflict w
  else s

/-- The token with its vectors there: `ls` the lines of each port that supplies one. -/
def vecWith (s : State) (t : Nat) (ls : List (Nat × List TLine)) (mrd : List (List Byte × Bool)) (uc : Bool) : State :=
  let x := s.stall t
  let r := x.record
  if uc then stallFault (dropToken s t) t false
  else
    let lines := fun p => ((ls.find? fun e => e.1 = p).map (·.2)).getD []
    let first := (ls.head?).bind fun e => e.2.head?
    let pois := ls.any (fun e => e.2.any (·.poison)) || mrd.any (·.2) || (x.anchorPois && usesAnchor r)
    let tok : VecTok :=
      { ins := (List.range 4).map fun p => widen (vecFmt r p) (linesNat ((lines p).map (·.data))),
        inPois := (List.range 4).map fun p => poisonLanes ((lines p).map (·.poison)),
        mrd := BitVec.ofNat 2048 (leNat (mrd.flatMap (·.1))), mrdPois := poisonLanes (mrd.map (·.2)),
        enq := (match first with | some l => l.at_ | none => s.time),
        fromChute := (match first with | some l => l.chute | none => false), pass := x.pass }
    let s1 := s.updStall t fun y =>
      let z := ls.foldl (fun w e => w.setIn e.1 { w.inPort e.1 with fifo := (w.inPort e.1).fifo.drop e.2.length }) y
      { advanceAg0 z (if recReads r 0x1C then 4 else 1) with vtok := some tok, st := .run }
    let s2 := if recReads r 0x1C then mrdWaits s s1 t else s1
    if pois then poisonConsumed s2 t else s2

/-- A VEC stall's vectors, or why it cannot have them yet. -/
def vecGather (s : State) (t : Nat) : State :=
  let x := s.stall t
  let r := x.record
  let ins := (vecPorts s t).map fun p => (p, vecAvail r x p)
  if ins.any (·.2.isNone) then setSt s t .waitIn
  else
    let ls := ins.filterMap fun e => e.2.map fun l => (e.1, l)
    if !recReads r 0x1C then vecWith s t ls [] false
    else
      let ps := mrdPlaces s t
      match ps.findIdx? (·.isNone) with
      | some i => grantFault (dropToken s t) t ((agBase r 0 : Int) + agOffset r 0 ((x.ag0 + i) % agNest r 0)).toNat
      | none =>
        let places := ps.filterMap id
        if !places.all (placeReady s) then setSt s t .waitIn
        else
          let f := fetchAll s t 64 places
          vecWith f.1 t ls f.2.1 f.2.2

/-- A VEC token past the stall's checks. -/
def vecToken (s : State) (t : Nat) : State :=
  let i := stallInjected s t false
  if !i.2 then dropToken i.1 t
  else
    let s1 := i.1.updStall t takeAnchor
    if !(s1.stall t).anchorOk then setSt s1 t .waitAnchor
    else vecGather s1 t

/-- VEC_TOKEN (R71). -/
def execVecToken (t : StallId) (chk : StallCheck) (s : State) : Host.Outcome State Fault Refusal :=
  .next <|
    if !takesToken s t.toNat 1 || (s.stall t.toNat).vtok.isSome then s
    else withChecks s t.toNat chk (fun st => dropToken st t.toNat) fun st => vecToken st t.toNat

/-! ### Issuing a micro-op (R69, R71, R73, R74) -/

/-- The three sources and destination of an issue, with poisoned lanes. -/
structure UopIn where
  uop : Nat
  a : Vec
  b : Vec
  c : Vec
  ma : BitVec 64
  mb : BitVec 64
  mc : BitVec 64

/-- R73: a source selector. -/
def vecSource (x : Stall) (k : VecTok) (u sel : Nat) : Vec × BitVec 64 :=
  if sel < 0x18 then (tabGet (fun _ => 0) x.vregs sel, tabGet (fun _ => 0) x.vpois sel)
  else if sel < 0x1C then (k.ins.getD (sel - 0x18) 0, k.inPois.getD (sel - 0x18) 0)
  else if sel = 0x1C then (k.mrd, k.mrdPois)
  else if sel = 0x1D then (vecOf fun _ => recConst x.record (uopMod u % 16), 0)
  else if sel = 0x1E then (0, 0)
  else (vecOf fun i => f32Of (.fin false i 0), 0)

/-- R69: a port the token writes holds a line or cannot send. -/
def vecHeld (s : State) (t : Nat) : Bool :=
  let r := (s.stall t).record
  (List.range 4).any fun p => recWrites r (0x18 + p) && recDstKind r p ≠ 0 &&
    (decide (((s.stall t).outPort p).stage ≠ []) || !portSends s t p)

/-- R66: the write at issue index `i` to port `p` is the last of its packet. -/
def vecLast (x : Stall) (i p : Nat) : Bool :=
  let r := x.record
  !((recUops r).drop (i + 1)).any (fun u => uopWrites (uopOpc u) && uopDst u = 0x18 + p) &&
    recPkt r p ≤ (x.outPort p).tokens + 1

/-- R307: a vector of the token's run joins those that the port stages. -/
def droveVector (o : OutPort) (run : Nat) : OutPort :=
  let n := if o.run = run then o.elems else 0
  { droveBegins o run n with run := run, elems := n + 64 }

/-- R67, R74, R93: a vector written to an output port. -/
def vecToPort (x : Stall) (i p : Nat) (v : Vec) (m : BitVec 64) : Stall :=
  let r := x.record
  let c := if recOutFmt r = 9 then 8 else recOutFmt r
  let last := vecLast x i p
  let o := droveVector (x.outPort p) ((x.vtok.map (·.pass)).getD 0)
  if recDstKind r p = 0 then x
  else if recOutFmt r = 9 && !recFp32 r then
    let ls := ofsLines x.anchor x.anchorPois v m
    { x.setOut p { o with stage := o.stage ++ (if last then markLast ls else ls) } with
      num := x.num ||| flagIf (ls.any (·.poison)) numPoisonOut }
  else if fmtMx c then
    let b := vecBlocks c (recOutSat r) v m
    { x.setOut p (putBlocks c o b.1 last) with num := x.num ||| b.2 ||| flagIf (decide (m ≠ 0)) numPoisonOut }
  else
    let cs := vecConv c (recOutSat r) v m
    let ls := cutLines (packElems c (cs.map (·.bits))) m (512 / fmtBits c)
    { x.setOut p { o with stage := o.stage ++ (if last then markLast ls else ls) } with
      num := cs.foldl (fun f k => f ||| k.flags) (x.num ||| flagIf (decide (m ≠ 0)) numPoisonOut) }

/-- R61, R102: the four places an MWR write goes to. -/
def mwrPlaces (s : State) (t pass : Nat) : List (Option Place) :=
  let x := s.stall t
  let r := x.record
  (List.range 4).map fun i =>
    resolveAt s (harnessOf s t) (agTarget r 2) (agBase r 2 + agOffset r 2 ((x.ag2 + i) % agNest r 2)) 64 pass true

/-- One line written at a place. -/
def storeAt (s : State) (t : Nat) (p : Place) (l : OutLine) : State :=
  match p with
  | .manger off => mangerWrite s t off (lineBytes l.data)
  | .mem a => writeLine s a (lineBytes l.data) l.poison 0

/-- R62, R73, R74, R80: a vector written through AG2. -/
def vecToMemory (s : State) (t : Nat) (ps : List Place) (v : Vec) (m : BitVec 64) : State :=
  let data := (vecOf fun i => if m.getLsbD i then 0 else vecLane v i).toNat
  let ls := cutLines data m 16
  let s1 := (ps.zip ls).foldl (fun st e => storeAt st t e.1 e.2) s
  s1.updStall t fun x => { x with
    ag2 := (x.ag2 + 4) % agNest x.record 2, num := x.num ||| flagIf (decide (m ≠ 0)) numPoisonOut,
    vtok := x.vtok.map fun k => { k with
      outAt := if k.wroteOut then k.outAt else some s.time, outPois := k.outPois || decide (m ≠ 0) } }

/-! ### Issue times (R71, R75, R431) -/

/-- R75: cycles that issuing a micro-op takes, and its latency. -/
def uopCycles (opc : Nat) : Nat := if 0x10 ≤ opc && opc ≤ 0x14 then 4 else 1
def uopLatency (opc : Nat) : Nat :=
  if 0x10 ≤ opc && opc ≤ 0x14 then 12
  else if opc = 0x18 then 8
  else if opc = 0x19 || opc = 0x1A || opc = 0x1C || opc = 0x1D then 6
  else if (1 ≤ opc && opc ≤ 4) || opc = 0x1B then 4
  else if opc = 5 || opc = 6 || opc = 0x0A || opc = 0x1E then 2
  else if opc = 0 then 0 else 1

/-- R71: micro-op `v` writes a source of `u`: a register it reads, the accumulator that RGET takes, or the lane
accumulators that LGET takes. -/
def uopFeeds (v u : Nat) : Bool :=
  (uopWrites (uopOpc v) && uopDst v < 0x18 && decide (uopDst v ∈ uopReads u)) ||
    (uopOpc v = 0x18 && uopOpc u = 0x1C && uopMod v % 8 = uopMod u % 8) || (uopOpc v = 0x1B && uopOpc u = 0x1D)

/-- R71: the issue times of a token's micro-ops from its start, each with the cycles it held for a source that the token
itself writes; the last entry's end is the token's. -/
def uopTimes : List Nat → List (Nat × Nat × Nat) → List (Nat × Nat × Nat)
  | [], done => done
  | u :: us, done =>
    let free := (done.getLast?.map fun e => e.2.1 + uopCycles (uopOpc e.1)).getD 0
    let ready := done.foldl (fun m e => if uopFeeds e.1 u then max m (e.2.1 + uopLatency (uopOpc e.1)) else m) 0
    uopTimes us (done ++ [(u, max free ready, ready - free)])

/-- R71: some micro-op of the record can hold for one that an earlier token issued. -/
def uopCarried (ts : List (Nat × Nat × Nat)) : Bool :=
  let total := (ts.getLast?.map fun e => e.2.1 + uopCycles (uopOpc e.1)).getD 0
  (ts.zipIdx).any fun a => ((ts.drop a.2).any fun b =>
    uopFeeds b.1 a.1.1 && decide (max 4 total - b.2.1 + a.1.2.1 < uopLatency (uopOpc b.1)))

/-- R431: the micro-op at which a token held issue longest, the lowest on a tie. -/
def uopLongest (ts : List (Nat × Nat × Nat)) : Nat :=
  ((ts.zipIdx).foldl (fun (m : Nat × Nat) e => if m.2 < e.1.2.2 then (e.2, e.1.2.2) else m) (0, 0)).1

/-- R431: UOP of a token of a record. DESIGN CHOICE [4]: the model has no fabric cycles, so where the token held for an
output port, or can have held for an earlier token, the index is a free value; the state after. -/
def sampleUop (s : State) (r : BitVec 4096) (k : VecTok) : State × BitVec 5 :=
  let ts := uopTimes (recUops r) []
  if k.heldOut || uopCarried ts then (s.useFree, s.freeNow.setWidth 5) else (s, BitVec.ofNat 5 (uopLongest ts))

/-- R71, R66, R430: the token is retired after its last micro-op. -/
def vecRetire (s : State) (t : Nat) (k : VecTok) : State :=
  let num := (s.stall t).tokens
  let q := retireToken s t
  let s1 := q.1.updStall t fun x =>
    let r := x.record
    let y := (List.range 4).foldl (fun z n =>
      if recWrites r (0x18 + n) then
        let o := z.outPort n
        z.setOut n { o with tokens := if recPkt r n ≤ o.tokens + 1 then 0 else o.tokens + 1 }
      else z) x
    { y with vtok := none }
  if !q.2 then s1
  else
    let u := sampleUop s1 (s.stall t).record k
    let p : SamplePend := { token := num, enq := k.enq, uop := u.2, fromChute := k.fromChute, poison := k.outPois }
    match k.wroteOut, k.outAt with
    | true, none => u.1.updStall t fun x => { x with tileSamples := x.tileSamples ++ [p] }
    | _, some at_ => putSample u.1 t true p at_
    | false, none => putSample u.1 t true p s.time

/-- The issue index moves on; after the last the token retires. -/
def uopDone (s : State) (t : Nat) : State :=
  let s1 := pmuStall s t evUops 1
  match (s1.stall t).vtok with
  | none => s1
  | some k =>
    if k.uop + 1 < recUopCount (s1.stall t).record then
      s1.updStall t fun x => { x with vtok := some { k with uop := k.uop + 1 }, st := .run }
    else vecRetire (setSt s1 t .run) t k

/-- R73, R74: a result written to its destination. DESIGN CHOICE [59]: R62 discards a write outside its target; an MWR
vector of which one line is outside has all four lines discarded. -/
def uopWrite (s : State) (t : Nat) (k : VecTok) (u : Nat) (v : Vec) (m : BitVec 64) : State :=
  let d := uopDst u
  if d < 0x18 then
    uopDone (s.updStall t fun x => { x with
      vregs := tabSet (fun _ => 0) x.vregs d v, vpois := tabSet (fun _ => 0) x.vpois d m }) t
  else if d < 0x1C then
    uopDone (s.updStall t fun x => { vecToPort x k.uop (d - 0x18) v m with
      vtok := some (if recDstKind x.record (d - 0x18) = 0 then k
        else { k with
          wroteOut := true, outAt := if k.wroteOut then k.outAt else none,
          outPois := k.outPois || decide (m ≠ 0) || (x.anchorPois && recOutFmt x.record = 9 &&
            !recFp32 x.record) }) }) t
  else if d = 0x1C then
    let ps := mwrPlaces s t k.pass
    match ps.findIdx? (·.isNone) with
    | some i =>
      let r := (s.stall t).record
      grantFault s t ((agBase r 2 : Int) + agOffset r 2 (((s.stall t).ag2 + i) % agNest r 2)).toNat
    | none => uopDone (vecToMemory s t (ps.filterMap id) v m) t
  else uopDone s t

/-- R174: the hub that an MWR write of the micro-op goes to does not serve it now. -/
def mwrHeld (s : State) (t : Nat) (k : VecTok) (u : Nat) : Bool :=
  let ps := mwrPlaces s t k.pass
  uopWrites (uopOpc u) && uopDst u = 0x1C && ps.all (·.isSome) && !(ps.filterMap id).all (placeReady s)

/-- R69: issue holds, with state WAIT_OUT. -/
def holdOut (s : State) (t : Nat) : State :=
  s.updStall t fun x => { x with st := .waitOut, vtok := x.vtok.map fun k => { k with heldOut := true } }

/-- R69, R71: a micro-op with a given operation code, in its place in the token's sequence, while the stall works and no
port it writes is held. `f` gives the state after its effect on the accumulators, and the result for the destination. -/
def uopIssue (s : State) (t opc : Nat) (f : State → UopIn → State × Option (Vec × BitVec 64)) : State :=
  let x := s.stall t
  match x.vtok with
  | none => s
  | some k =>
    let u := recUop x.record k.uop
    if !penWorks s t || !(decide (x.st ≠ .fault) && decide (x.st ≠ .failed) && decide (x.st ≠ .off)) || uopOpc u ≠ opc
    then s
    else if vecHeld s t || mwrHeld s t k u then holdOut s t
    else
      let a := vecSource x k u (uopSa u)
      let b := vecSource x k u (uopSb u)
      let c := vecSource x k u (uopSc u)
      let r := f s ⟨u, a.1, b.1, c.1, a.2, b.2, c.2⟩
      match r.2 with
      | none => uopDone r.1 t
      | some (v, m) => uopWrite r.1 t k u v m

/-- R44, R75, R80: a lane operation of one, two or three sources. -/
def uopLanes (s : State) (t opc : Nat) (f : BitVec 32 → BitVec 32 → BitVec 32 → BitVec 32) : State :=
  uopIssue s t opc fun st i =>
    let n := uopSources opc
    let m := i.ma ||| (if 2 ≤ n then i.mb else 0) ||| (if 3 ≤ n then i.mc else 0)
    (st, some (vecOf fun l => f (vecLane i.a l) (vecLane i.b l) (vecLane i.c l), m))

/-- R46, R75, R80: one value in all lanes, poisoned when a lane it comes from is. -/
def uopSpread (s : State) (t opc : Nat) (f : UopIn → BitVec 32) (pois : UopIn → Bool) : State :=
  uopIssue s t opc fun st i =>
    (st, some (vecOf fun _ => f i, if pois i then BitVec.allOnes 64 else 0))

/-- R37, R38, R56, R75: an accumulator finished and converted to binary32, with the status set and whether it is
poisoned, by itself or by its anchor (R70). DESIGN CHOICE [59]: R56 speaks of results converted to an output format;
RGET and LGET, which write a vector register, set the status as well. -/
def accFinish (x : Stall) (a : Acc) : BitVec 32 × BitVec 7 × Bool :=
  let pois := a.poisoned || x.anchorPois
  let v := convAcc 8 (recOutSat x.record) x.anchor.toInt { a with poisoned := pois }
  (BitVec.ofNat 32 v.bits, v.flags, pois)

/-! ### The micro-ops (R75) -/

/-- NOP (R75). -/
def execUopNop (t : StallId) (s : State) : Host.Outcome State Fault Refusal :=
  .next <| uopIssue s t.toNat 0x00 fun st _ => (st, none)

/-- ADD (R44, R75). -/
def execUopAdd (t : StallId) (s : State) : Host.Outcome State Fault Refusal :=
  .next <| uopLanes s t.toNat 0x01 laneAdd

/-- SUB (R44, R75). -/
def execUopSub (t : StallId) (s : State) : Host.Outcome State Fault Refusal :=
  .next <| uopLanes s t.toNat 0x02 laneSub

/-- MUL (R44, R75). -/
def execUopMul (t : StallId) (s : State) : Host.Outcome State Fault Refusal :=
  .next <| uopLanes s t.toNat 0x03 laneMul

/-- FMA (R44, R75). -/
def execUopFma (t : StallId) (s : State) : Host.Outcome State Fault Refusal :=
  .next <| uopLanes s t.toNat 0x04 laneFma

/-- MAX (R46, R75). -/
def execUopMax (t : StallId) (s : State) : Host.Outcome State Fault Refusal :=
  .next <| uopLanes s t.toNat 0x05 laneMax

/-- MIN (R46, R75). -/
def execUopMin (t : StallId) (s : State) : Host.Outcome State Fault Refusal :=
  .next <| uopLanes s t.toNat 0x06 laneMin

/-- ABS (R75). -/
def execUopAbs (t : StallId) (s : State) : Host.Outcome State Fault Refusal :=
  .next <| uopLanes s t.toNat 0x07 laneAbs

/-- NEG (R75). -/
def execUopNeg (t : StallId) (s : State) : Host.Outcome State Fault Refusal :=
  .next <| uopLanes s t.toNat 0x08 laneNeg

/-- SEL (R75). -/
def execUopSel (t : StallId) (s : State) : Host.Outcome State Fault Refusal :=
  .next <| uopLanes s t.toNat 0x09 laneSel

/-- CMPLT (R75). -/
def execUopCmplt (t : StallId) (s : State) : Host.Outcome State Fault Refusal :=
  .next <| uopLanes s t.toNat 0x0A laneCmplt

/-- EXP2 (R45, R75). -/
def execUopExp2 (t : StallId) (s : State) : Host.Outcome State Fault Refusal :=
  .next <| uopLanes s t.toNat 0x10 (laneTrans 0)

/-- LOG2 (R45, R75). -/
def execUopLog2 (t : StallId) (s : State) : Host.Outcome State Fault Refusal :=
  .next <| uopLanes s t.toNat 0x11 (laneTrans 1)

/-- RCP (R45, R75). -/
def execUopRcp (t : StallId) (s : State) : Host.Outcome State Fault Refusal :=
  .next <| uopLanes s t.toNat 0x12 (laneTrans 2)

/-- RSQRT (R45, R75). -/
def execUopRsqrt (t : StallId) (s : State) : Host.Outcome State Fault Refusal :=
  .next <| uopLanes s t.toNat 0x13 (laneTrans 3)

/-- TANH (R45, R75). -/
def execUopTanh (t : StallId) (s : State) : Host.Outcome State Fault Refusal :=
  .next <| uopLanes s t.toNat 0x14 (laneTrans 4)

/-- RSUM (R46, R75): 64 contributions to ACC[MOD[2:0]]. -/
def execUopRsum (t : StallId) (s : State) : Host.Outcome State Fault Refusal :=
  .next <|
    uopIssue s t.toNat 0x18 fun st i =>
      (st.updStall t.toNat fun x => { x with
        sacc := tabUpd (fun _ => {}) x.sacc (uopMod i.uop % 8) fun a =>
          (List.range 64).foldl (fun y l => laneInto y x.anchor.toInt (vecLane i.a l) (i.ma.getLsbD l)) a }, none)

/-- RMAX (R46, R75). -/
def execUopRmax (t : StallId) (s : State) : Host.Outcome State Fault Refusal :=
  .next <| uopSpread s t.toNat 0x19 (fun i => foldLanes laneMax i.a) (fun i => decide (i.ma ≠ 0))

/-- RMIN (R46, R75). -/
def execUopRmin (t : StallId) (s : State) : Host.Outcome State Fault Refusal :=
  .next <| uopSpread s t.toNat 0x1A (fun i => foldLanes laneMin i.a) (fun i => decide (i.ma ≠ 0))

/-- LACC (R46, R75): lane `l` into lane accumulator `l`. -/
def execUopLacc (t : StallId) (s : State) : Host.Outcome State Fault Refusal :=
  .next <|
    uopIssue s t.toNat 0x1B fun st i =>
      (st.updStall t.toNat fun x => { x with
        lacc := (List.range 64).foldl (fun w l =>
          tabUpd (fun _ => {}) w l fun y => laneInto y x.anchor.toInt (vecLane i.a l) (i.ma.getLsbD l)) x.lacc }, none)

/-- RGET (R37, R38, R75): ACC[MOD[2:0]] finished, converted, put in all lanes, and cleared. -/
def execUopRget (t : StallId) (s : State) : Host.Outcome State Fault Refusal :=
  .next <|
    uopIssue s t.toNat 0x1C fun st i =>
      let x := st.stall t.toNat
      let k := uopMod i.uop % 8
      let r := accFinish x (tabGet (fun _ => {}) x.sacc k)
      (st.updStall t.toNat fun y => { y with sacc := tabSet (fun _ => {}) y.sacc k {}, num := y.num ||| r.2.1 },
        some (vecOf fun _ => r.1, if r.2.2 then BitVec.allOnes 64 else 0))

/-- LGET (R37, R38, R75): each lane accumulator finished and converted; all are cleared. -/
def execUopLget (t : StallId) (s : State) : Host.Outcome State Fault Refusal :=
  .next <|
    uopIssue s t.toNat 0x1D fun st _ =>
      let x := st.stall t.toNat
      let r := fun l => accFinish x (tabGet (fun _ => {}) x.lacc l)
      (st.updStall t.toNat fun y => { y with
        lacc := [], num := (List.range 64).foldl (fun f l => f ||| (r l).2.1) y.num },
        some (vecOf fun l => (r l).1, maskOf fun l => (r l).2.2))

/-- BCAST (R75): lane MOD[5:0] in all lanes. -/
def execUopBcast (t : StallId) (s : State) : Host.Outcome State Fault Refusal :=
  .next <|
    uopSpread s t.toNat 0x1E (fun i => f32Canon (vecLane i.a (uopMod i.uop))) (fun i => i.ma.getLsbD (uopMod i.uop))

end Sys2Proof.Machine
end

