-- ==== Sys2Proof/Machine/Stall.lean ====
section
/-! DEFINITION. The ports of a stall, the fence swap, the manger scrub and the stall's registers (R60, R65 to R70, R77
to R82, R135, R137). -/

namespace Sys2Proof.Machine

open Sys2Proof

/-! ### Input ports -/

/-- Lines staged for the next token beyond a port's 16-line FIFO [8]. -/
def portNeed (r : BitVec 4096) (p : Nat) : Nat :=
  if recMode r = 1 then vecLines r p
  else (if recRowSrc r = p then opLines (recRowFmt r) (tileShape r).1 + 2 else 0) +
    (if recColSrc r = p then opLines (recColFmt r) (tileShape r).2 + 2 else 0)

/-- R65: the port has room for a line. -/
def portRoom (x : Stall) (p : Nat) : Bool := (x.inPort p).fifo.length < 16 + portNeed x.record p

/-- R65, R68, R78: a line put into a port's FIFO; an idle line is discarded, and never fences. A fence that an earlier
swap of the stall has answered already goes no further [28]. -/
def portAccept (s : State) (t p : Nat) (l : TLine) : State :=
  if l.tag = 0 then pmuStall s t evIdleLines 1
  else s.updStall t fun x =>
    let q := x.inPort p
    if l.fence && 0 < q.owed then x.setIn p { q with owed := q.owed - 1 }
    else x.setIn p { q with fifo := q.fifo ++ [l] }

/-- The first element that fits, and the list without it. -/
def popFirst {α : Type} (f : α → Bool) : List α → Option (α × List α)
  | [] => none
  | x :: xs => if f x then some (x, xs) else (popFirst f xs).map fun r => (r.1, x :: r.2)

/-- INPUT_LINE (R65, R68): the oldest line on its way to the port arrives. -/
def execInputLine (t : StallId) (port : PortId) (s : State) : Host.Outcome State Fault Refusal :=
  .next <|
    if !portRoom (s.stall t.toNat) port.toNat then s
    else match popFirst (fun m => !m.toSink && decide (m.t = t) && decide (m.port = port)) s.strq with
      | some (m, rest) =>
        (settleParts (portAccept { s with strq := rest } t.toNat port.toNat { m.line with at_ := s.time }) t.toNat).1
      | none => s

/-- R60: what the manger's SECDED can find. -/
def mangerOnly : StallCheck → StallCheck
  | .mangerCe off => .mangerCe off
  | .mangerUc off => .mangerUc off
  | _ => .clean

/-- R60, R81: what a checker can find in a consumer endpoint's read of chute `c`: an error of the manger that stores
it. -/
def endpointChecks (c : Chute) (k : StallCheck) : StallCheck := if c.stack then .clean else mangerOnly k

/-- R78, R115, R118: the consumer endpoint of a port reads: for a stall that works, its pen RUNNING or its fence of a
swap still to come; in step 2 of a swap, for the partial sums that a closed tile waits for (R42). -/
def endpointReads (s : State) (t p : Nat) : Bool :=
  let x := s.stall t
  (penRuns s t || swapGoesOn s t) && x.activeValid && decide (x.st ≠ .off) && decide (x.st ≠ .fault) &&
    decide (x.st ≠ .failed) && (decide (x.swapStep = 0) || (decide (x.swapStep = 1) && x.join.isSome && partPort s t p))

/-- R307: the header line of a drove packet at an operand's port gives the stall no operand [55]. -/
def dropsHeader (x : Stall) (p : Nat) (l : TLine) : Bool :=
  tagFirst l.tag && Config.droveOperand x.record p

/-- CONSUMER_READ (R60, R115, R135, R137): a stall's consumer endpoint reads its chute: MARK at FIRST, RELEASE at
LAST. -/
def execConsumerRead (c : ChuteId) (chk : StallCheck) (s : State) : Host.Outcome State Fault Refusal :=
  .next <|
    match (s.chute c.toNat).consumer with
    | .stall t p =>
      if !endpointReads s t.toNat p.toNat || !portRoom (s.stall t.toNat) p.toNat then s
      else
        let x := s.chute c.toNat
        let here := x.ready ≠ 0 && x.st ≠ .disabled
        let s0 := if here && tagFirst (tabGet (fun _ => 0) x.tags (x.rp.toNat % x.size)) then
            s.setChute c.toNat (markChute x) else s
        let r := chuteRead s0 c.toNat
        withChecks r.st t.toNat (endpointChecks x (if here then chk else .clean)) id fun st =>
          if r.uc then stallFault st t.toNat false
          else
            let s1 := if here && tagLast r.line.tag then changeChute st c.toNat releaseChute else st
            if dropsHeader (s.stall t.toNat) p.toNat r.line && !partPort s t.toNat p.toNat then s1
            else (settleParts (portAccept s1 t.toNat p.toNat r.line) t.toNat).1
    | _ => s

/-- ANCHOR_LINE (R70, R106): the oldest anchor line on its way arrives on ANCHOR_PORT; a stall that waits for one takes
it. -/
def execAnchorLine (t : StallId) (s : State) : Host.Outcome State Fault Refusal :=
  .next <|
    match popFirst (fun (m : AnchorMsg) => decide (m.t = t)) s.anchors with
    | some (m, rest) =>
      let x := s.stall t.toNat
      if !portRoom x (recAnchorPort x.record) then s
      else
      let line : TLine := { data := m.anchor.setWidth 512, tag := 0xFF, poison := m.poison, at_ := s.time }
      let s1 := portAccept { s with anchors := rest } t.toNat (recAnchorPort x.record) line
      if x.st = .waitAnchor then
        s1.updStall t.toNat fun y => { takeAnchor y with st := if (takeAnchor y).anchorOk then .run else .waitAnchor }
      else s1
    | none => s

/-! ### Output ports -/

/-- ROUTER_CREDIT (R65). -/
def execRouterCredit (t : StallId) (port : PortId) (s : State) : Host.Outcome State Fault Refusal :=
  .next <|
    s.updStall t.toNat fun x =>
      let o := x.outPort port.toNat
      x.setOut port.toNat { o with credits := if o.credits < 16 then o.credits + 1 else o.credits }

/-- R430: the samples the first line of a port's stage completes. -/
def sampleSent (s : State) (t : Nat) : State :=
  let x := s.stall t
  if recMode x.record = 1 then
    (putSamples s t true x.tileSamples).updStall t fun y => { y with
      tileSamples := [],
      vtok := y.vtok.map fun k => if k.wroteOut && k.outAt.isNone then { k with outAt := some s.time } else k }
  else match x.out with
    | some g =>
      if g.sent = 0 then
        (putSamples s t false (g.tiles.flatMap Tile.sampled)).updStall t fun y => { y with
          out := y.out.map fun k => { k with sent := 1 } }
      else s
    | none => s

/-- R55: an MX group has left once no port's stage holds a line. -/
def mxEmptied (x : Stall) : Stall :=
  if recMode x.record = 0 && fmtMx (recOutFmt x.record) && x.out.isSome &&
      (x.out.map fun g => g.tiles.all fun y => !y.share) = some true &&
      (List.range 4).all fun n => (x.outPort n).stage = [] then emptied x else x

/-- R310: a barrier's header line committed into the chute of the same number of every partner, on VC1 (R148). -/
def sendBarrier (s : State) (t n : Nat) (l : Line) : State :=
  match outDst s t n with
  | .chute c => (partners s).foldl (fun st d =>
      sendRemote st (stallSource s t n) (BitVec.ofNat 22 (d * 65536 + c.toNat % 65536)) 1 l true true 64 false) s
  | _ => s

/-- R307: the header line of a drove packet leaves first; a barrier's is all that its packet sends. -/
def sendHeader (s : State) (t n phase run elem : Nat) : State :=
  let l := droveHeader s t n phase run elem
  if phase = 3 then (sendBarrier s t n l).updStall t fun x => x.setOut n { x.outPort n with opened := true }
  else sendOut s t n { data := l } true (some phase)

/-- R307: a header line is due before the next line of a port. -/
def headerDue (s : State) (t n : Nat) : Option Nat :=
  if ((s.stall t).outPort n).opened then none else droveOut s t n

/-- R69: the head of a port's stage leaves. -/
def sendStaged (s : State) (t n : Nat) (l : OutLine) (rest : List OutLine) : State :=
  let first := !((s.stall t).outPort n).opened
  let s1 := (sampleSent s t).updStall t fun x => x.setOut n { x.outPort n with stage := rest }
  (sendOut s1 t n l first (droveOut s t n)).updStall t mxEmptied

/-- R53, R54, R66, R308: the next line of the tile being emptied leaves by its port: line `k` by the (k mod n)-th [9]; a
share of an all-reduce leaves whole by every port. -/
def sendTile (s : State) (t n : Nat) (g : OutGroup) (tile : Tile) : State :=
  let x := s.stall t
  let r := x.record
  let ports := outPorts r
  let total := tileLines r tile.share * if tile.share then ports.length else 1
  if ports[g.sent % ports.length]? ≠ some n then s
  else match headerDue s t n with
  | some ph => sendHeader s t n ph tile.run
      (tile.base + if tile.share then 0 else perLine r false * (g.sent % ports.length))
  | none =>
    let o := x.outPort n
    let l := tileLine r tile (if tile.share then g.sent / ports.length else g.sent)
    let lastHere := total ≤ g.sent + ports.length
    let final := lastHere && packetEnds r o n tile.tokens
    let toks := if !lastHere then o.tokens else if final then 0 else o.tokens + tile.tokens
    let s1 := if g.sent = 0 then putSamples s t false tile.sampled else s
    let s2 := sendOut (s1.updStall t fun y => { y with num := y.num ||| l.2 }) t n { l.1 with last := final } (!o.opened)
      (droveOut s t n)
    s2.updStall t fun y =>
      let z := y.setOut n { y.outPort n with tokens := toks }
      if total ≤ g.sent + 1 then emptied z else { z with out := some { g with sent := g.sent + 1 } }

/-- OUTPUT_LINE_SEND (R53, R54, R66, R69, R307, R309). -/
def execOutputLineSend (t : StallId) (port : PortId) (s : State) : Host.Outcome State Fault Refusal :=
  .next <|
    let x := s.stall t.toNat
    if !penWorks s t.toNat || x.st = .fault || x.st = .failed || !portSends s t.toNat port.toNat then s
    else match (x.outPort port.toNat).stage with
      | l :: rest =>
        match headerDue s t.toNat port.toNat with
        | some ph =>
          let o := x.outPort port.toNat
          sendHeader s t.toNat port.toNat ph o.run o.hdrAt
        | none => sendStaged s t.toNat port.toNat l rest
      | [] =>
        match x.out with
        | some g =>
          match g.tiles with
          | [tile] =>
            if fmtMx (recOutFmt x.record) && !tile.share then s else sendTile s t.toNat port.toNat g tile
          | _ => s
        | none => s

/-! ### The fence swap (R78, R79, R82) -/

/-- R79, R55: a tile is open, or a group of MX output holds some but not all of its tiles: those in the conversion
buffer, one that waits for it, and one that waits for partial sums. -/
def openTile (x : Stall) : Bool :=
  recMode x.record = 0 &&
    (decide (0 < x.tileToks) || (fmtMx (recOutFmt x.record) &&
      decide ((x.conv.length + bit x.closed.isSome + bit x.join.isSome) % groupTiles x.record ≠ 0)))

/-- R79: a fence meets an open tile: what the tile holds is discarded, and the stall stops with a UC. -/
def fenceOpenTile (s : State) (t : Nat) : State :=
  let mx := fmtMx (recOutFmt (s.stall t).record)
  stallFault (report (s.updStall t fun y => { y with
    win := [], tileToks := 0, tileSamples := [], conv := [], join := if mx then none else y.join,
    closed := if mx then none else y.closed }) t cFenceOpenTile 0) t false

/-- FENCE_ARRIVAL (R78 step 1, R79, R82): the fence line is next on FENCE_PORT. -/
def execFenceArrival (t : StallId) (chk : StallCheck) (s : State) : Host.Outcome State Fault Refusal :=
  .next <|
    let x := s.stall t.toNat
    if !penWorks s t.toNat || !x.working || !fenceWaits x then s
    else withChecks s t.toNat chk id fun st =>
      if openTile x then fenceOpenTile st t.toNat
      else st.updStall t.toNat fun y => { y with swapStep := 1, st := .fence }

/-- R78 step 2: tokens finished, window sets converted, lines sent, and no producer endpoint waits. -/
def swapDrained (s : State) (t : Nat) : Bool :=
  let x := s.stall t
  x.vtok.isNone && x.join.isNone && x.closed.isNone && x.out.isNone &&
    !sinkLinesDue s t && !sinkNoticeDue s t &&
    (List.range 4).all fun n =>
    decide ((x.outPort n).stage = []) &&
      match outDst s t n with
      | .chute c => !isLocal s c || !(s.chute (bitsAt c.toNat 0 16)).waits (stallSource s t n)
      | _ => true

/-- R78 step 2: an open packet of a port committed: its lines so far are all full. -/
def commitPort (s : State) (t n : Nat) : State :=
  let src := stallSource s t n
  let s1 := s.updStall t fun x => x.setOut n { x.outPort n with opened := false, tokens := 0 }
  if !((s.stall t).outPort n).opened then s1
  else match outDst s t n with
    | .chute c =>
      if isLocal s c then
        let k := bitsAt c.toNat 0 16
        if (s1.chute k).opened && decide ((s1.chute k).src = src) then marks (s1.chute k) (commitOpen s1 k 64) k else s1
      else match openRemote s1 src c with
        | some (l, vc) =>
          let pois := (s1.ll l).ops.any fun o => o.src = src && o.chute = c && !o.closed && o.pois
          (remoteEnd s1 l src c vc false (63 + 128 * bit pois)).updLl l fun x => { x with
            ops := x.ops.map fun o => if o.src = src && o.chute = c && !o.closed then { o with closed := true } else o }
        | none => s1
    | _ => s1

/-- R78 step 3: a fence line on a STREAM port, which spends a credit (R65). DESIGN CHOICE [59]: the manual gives a
fence line no tag; 0x3F, a line within a packet. -/
def sendFence (s : State) (t n : Nat) : State :=
  match outDst s t n with
  | .stream rs =>
    let s1 := s.updStall t fun x => x.setOut n { x.outPort n with credits := (x.outPort n).credits - 1 }
    { s1 with strq := s1.strq ++ rs.map fun r =>
        { toSink := false, t := (harnessOf s t).place.getD r.dst.toNat 0, port := r.dstPort.setWidth 2,
          line := { data := 0, tag := 0x3F, fence := true, at_ := s.time } } }
  | _ => s

/-- R65, R78 step 3: every port that is to send a fence holds a credit. -/
def fencesReady (s : State) (t : Nat) : Bool :=
  (List.range 4).all fun n =>
    match outDst s t n with
    | .stream _ => decide (0 < ((s.stall t).outPort n).credits)
    | _ => true

/-- R67, R78: the rest of a port's open MX group, which the swap's commit ends. -/
def flushBlocks (x : Stall) (n : Nat) : Stall :=
  let o := x.outPort n
  if o.blocks = [] then x else x.setOut n (putBlocks (recOutFmt x.record) o [] true)

/-- SWAP_DRAIN_DONE (R78 steps 2 to 4): packets commit, fences go out, and the stall waits for SHADOW_VALID. -/
def execSwapDrainDone (t : StallId) (s : State) : Host.Outcome State Fault Refusal :=
  .next <|
    let x := s.stall t.toNat
    if x.swapStep ≠ 1 || x.st = .fault || !swapDrained s t.toNat then s
    else if (List.range 4).any fun n => (x.outPort n).blocks ≠ [] then
      s.updStall t.toNat fun y => (List.range 4).foldl flushBlocks y
    else if !fencesReady s t.toNat then s
    else
      let s1 := (List.range 4).foldl (fun st n => commitPort st t.toNat n) s
      let s2 := (List.range 4).foldl (fun st n => sendFence st t.toNat n) s1
      s2.updStall t.toNat fun y => { y with swapStep := 2, st := if y.shadowValid then .swap else .fence }

/-- R78 step 5, R111: everything a new record starts clear. -/
def clearRun (x : Stall) : Stall :=
  { x with
    ag0 := 0, ag1 := 0, ag2 := 0, pass := 0, anchor := 0, anchorOk := false, anchorPois := false, win := [],
    tileToks := 0, tileSamples := [], psum := [], join := none, tileNo := 0, runTile := 0,
    early := [], got := [], gath := [], gathAcc := [], gathN := [], closed := none, conv := [],
    out := none, vregs := [], vpois := [], sacc := [], lacc := [], vtok := none, swapStep := 0,
    inp := (tabMapListed (fun _ => {}) x.inp fun _ p =>
      { p with scale := none, blk := 0, pos := 0, hdr := none, elem := 0, pois := false }),
    outp := (tabMapListed (fun _ => {}) x.outp fun _ o => { credits := o.credits }) }

/-- R98: the chutes of a device that a stall consumes. -/
def dropConsumer (s : State) (t : Nat) : State :=
  { s with chutes := tabMapListed (fun _ => {}) s.chutes fun _ c =>
      match c.consumer with
      | .stall u _ => if u.toNat = t then { c with consumer := .none } else c
      | _ => c }

/-- R98: the chutes of record `i` of a harness get stall `t` as their consumer. -/
def joinConsumer (s : State) (t i p : Nat) (h : Harness) : State :=
  h.binds.foldl (fun st b =>
    if b.role = 0 && b.stall.toNat = i && isLocal st (BitVec.ofNat 22 (bindAddr st p b)) then
      st.updChute (bindAddr st p b % 65536) fun c =>
        { c with consumer := .stall (BitVec.ofNat 12 t) (b.port.setWidth 2) }
    else st) s

/-- R97, R102: the sinks a stall feeds start afresh. -/
def clearSinks (s : State) (t : Nat) : State :=
  (List.range 4).foldl (fun st n => st.setSink (4 * t + n) {}) s

/-- The dies of a pen's grant. -/
def penDies (x : Pen) : List Nat := (List.range 64).filter fun d => x.dies.getLsbD d

/-- R83, R17: the available stalls of a pen: the granted stalls that are not FAILED, of dies not under replacement. -/
def penStalls (s : State) (p : Nat) : List Nat :=
  (penDies (s.pen p)).flatMap fun d =>
    if s.held d && !underReplacement s d then ((List.range 64).map fun i => 64 * d + i).filter fun t =>
        !(s.stall t).failed else []

/-- R98, R106: the ENGINE chutes of a pen's active harness, and no others, have the prepass engine as their consumer
for the pen. -/
def joinEngine (s : State) (p : Nat) : State :=
  let s0 := { s with chutes := tabMapListed (fun _ => {}) s.chutes fun _ c =>
    match c.consumer with
    | .engine q => if q.toNat = p then { c with consumer := .none } else c
    | _ => c }
  (s0.pen p).cur.binds.foldl (fun (st : State) (b : Binding) =>
    if b.role = 2 && isLocal st (BitVec.ofNat 22 (bindAddr st p b)) then
      st.updChute (bindAddr st p b % 65536) fun c => { c with consumer := .engine (BitVec.ofNat 6 p) }
    else st) s0

/-- R112: the pen's swap is complete when every available stall has swapped: the banks change, and SHADOW reads EMPTY,
unless a later SHADOW load is in progress or stands in the shadow slots (R118). -/
def penSwapDone (s : State) (p : Nat) : State :=
  let x := s.pen p
  let ts := penStalls s p
  if x.swapping && ts.all fun t => (s.stall t).active.bank ≠ x.curBank then
    let s1 := s.setPen p { x with
      curBank := ((ts.head?).map fun t => (s.stall t).active.bank).getD (1 - x.curBank),
      shadow := if x.shadow = .valid && !(ts.any fun t => (s.stall t).shadowValid) then .empty else x.shadow,
      swapping := false, plans := [] }
    let s2 := joinEngine { s1 with ready := s1.ready.filter fun e => e.1.toNat ≠ p } p
    penEvent s2 p (penCode x.st) true
  else s

/-- R78 step 5: the fence of the swap goes from every input port: FENCE_PORT's, which is at its head, and that of each
other port, which may still be on its way when a STREAM route of harness `h` feeds the port of record `i` [28]. -/
def dropFences (h : Harness) (i : Nat) (x : Stall) : Stall :=
  let fp := recFencePort x.record
  (List.range 4).foldl (fun y p =>
    let q := y.inPort p
    if p = fp then y.setIn p { q with fifo := q.fifo.drop 1 }
    else if q.fifo.any (·.fence) then y.setIn p { q with fifo := q.fifo.eraseIdx (q.fifo.findIdx (·.fence)) }
    else if inRoute h i p then y.setIn p { q with owed := q.owed + 1 }
    else y) x

/-- R77, R78 step 5, R81, R118: the records change places. -/
def swapRecords (s : State) (t : Nat) : State :=
  let h := harnessOf s t
  let s1 := s.updStall t fun y =>
    let z := clearRun (dropFences h y.active.recIdx y)
    let v := { z with activeSlot := !z.activeSlot, activeValid := true, shadowValid := false, swaps := z.swaps + 1 }
    { v with st := if recTakes v.record then .run else .idle }
  let s2 := clearSinks (dropConsumer (pmuStall s1 t evSwaps 1) t) t
  match penOfDie s2 (t / 64) with
  | some p => penSwapDone (joinConsumer s2 t (s2.stall t).active.recIdx p (harnessOf s2 t)) p
  | none => s2

/-- SWAP_EXCHANGE (R77, R78 step 5, R81, R82): `damaged` says that the shadow record's checksum fails. -/
def execSwapExchange (t : StallId) (chk : StallCheck) (damaged : Bool) (s : State) : Host.Outcome State Fault Refusal :=
  .next <|
    let x := s.stall t.toNat
    if x.swapStep ≠ 2 || !x.shadowValid || x.st = .fault then s
    else withChecks s t.toNat chk id fun st =>
      if damaged then stallFault (report st t.toNat cSlotChecksum 0) t.toNat false else swapRecords st t.toNat

/-! ### Scrub and registers. The tack die answers for a number no powered die holds: reads give 0, writes nothing. -/

/-- R60: the words of a manger whose check bits an injection left bad, by their offsets. -/
def injectedWords (s : State) (t : Nat) : List Nat :=
  (s.mangerInj.filter fun e => e.1 / 2 ^ 15 = t).map fun e => 8 * (e.1 % 2 ^ 15)

/-- R60, R414: a scrub's reads of words that an injection left bad. -/
def scrubInjected (s : State) (t : Nat) : State :=
  let r := mangerCheckWords s t (injectedWords s t)
  if r.2 then stallFault r.1 t false else r.1

/-- MANGER_SCRUB (R60, R82): the groom reads a whole manger while the stall is IDLE: a
stall of a powered die that nothing has loaded reads IDLE too. -/
def execMangerScrub (t : StallId) (chk : StallCheck) (s : State) : Host.Outcome State Fault Refusal :=
  .next <|
    let x := s.stall t.toNat
    if !(decide (x.st = .idle) || (decide (x.st = .off) && s.diePowered (t.toNat / 64))) then s
    else withChecks s t.toNat (mangerOnly chk) id fun st => scrubInjected st t.toNat

/-- R8: 1s clear STALL_NUM_STATUS; a number that no powered die holds has no register. -/
def clearNum (s : State) (t : Nat) (v : Reg32) : State :=
  if s.diePowered (t / 64) then s.updStall t fun x => { x with num := x.num &&& ~~~(v.setWidth 7) } else s

/-- R8: STALL_BANK_CONFLICT, cleared by the read. -/
def takeWaits (s : State) (t : Nat) : State × Nat :=
  if s.diePowered (t / 64) then (s.updStall t fun x => { x with waits := 0 }, (s.stall t).waits.toNat) else (s, 0)

/-- R49: STALL_TOKEN_LO, whose read latches HI. -/
def readToken (s : State) (t : Nat) : State × Nat :=
  if s.diePowered (t / 64) then
    (s.updStall t fun x => { x with tokenHi := x.tokens.extractLsb' 32 16 }, bitsAt (s.stall t).tokens.toNat 0 32)
  else (s, 0)

/-- STALL_NUM_STATUS_WRITE (R8). -/
def execStallNumStatusWrite (t : StallId) (v : Reg32) (s : State) : Host.Outcome State Fault Refusal :=
  .next <| pfAccess s fun st => (clearNum st t.toNat v).answer .ok

/-- STALL_BANK_CONFLICT_READ (R8). -/
def execStallBankConflictRead (t : StallId) (s : State) : Host.Outcome State Fault Refusal :=
  .next <| pfAccess s fun st => answerRead (takeWaits st t.toNat)

/-- STALL_TOKEN_LO_READ (R49). -/
def execStallTokenLoRead (t : StallId) (s : State) : Host.Outcome State Fault Refusal :=
  .next <| pfAccess s fun st => answerRead (readToken st t.toNat)

end Sys2Proof.Machine
end

