-- ==== Sys2Proof/Machine/Loader.lean ====
section
/-! DEFINITION. Pens: their grants, loads, starts, swaps, drains, aborts and faults (R83 to R90, R109 to R121). -/

namespace Sys2Proof.Machine

open Sys2Proof

/-! ### Grants (R83, R322) -/

def setPenSt (s : State) (p : Nat) (st : PenState) : State := s.updPen p fun x => { x with st := st }

/-- A result reported in PEN_STATE. -/
def setResult (s : State) (p code : Nat) : State := s.updPen p fun x => { x with result := BitVec.ofNat 8 code }

/-- R83: the chutes of the granted dies that are free for the pen, in ascending order. -/
def freeChutes (s : State) (p : Nat) : List Nat :=
  let own := penOwner s p
  (penDies (s.pen p)).flatMap fun d =>
    ((List.range 1024).map fun i => 1024 * d + i).filter fun c =>
      decide ((s.chute c).func.toNat = own) && !(s.chute c).penValid

/-- R109, R166, R322: the pen's memory window. -/
def windowOk (s : State) (p : Nat) : Bool :=
  let x := s.pen p
  let own := penOwner s p
  let hi := x.memBase.toNat + x.memSize.toNat
  hi ≤ 24 * 80 * 2 ^ 30 && hi ≤ memTop s &&
    (own = 0 || ((s.fn own).memBase.toNat ≤ x.memBase.toNat &&
      hi ≤ (s.fn own).memBase.toNat + (s.fn own).memSize.toNat))

/-- R83, R109: the grant of a LOAD, from FREE with its chutes. -/
def grantOk (s : State) (p : Nat) : Bool :=
  let x := s.pen p
  (List.range 64).all (fun q => q = p || !(s.pen q).granted || (s.pen q).dies &&& x.dies = 0) && windowOk s p &&
    (x.granted || x.chutes.toNat ≤ (freeChutes s p).length)

/-- R428: the PMU window of a die as a pen leaves FREE. -/
def pmuLeaveFree (x : Pmu) : Pmu :=
  { x with cnt := [], cfg := tabMapListed (fun _ => {}) x.cfg fun _ c => { c with event := 0 }, ovf := 0,
           freeze := false, sCfg := 0, buf := [], sHead := 0, sTail := 0, period := 0 }

/-- R83, R428: what the loader does when a pen leaves FREE. -/
def takeGrant (s : State) (p : Nat) : State :=
  let x := s.pen p
  if x.granted then s
  else
    let cs := (freeChutes s p).take x.chutes.toNat
    let s1 := s.setPen p { x with granted := true }
    let s2 := s1.forAll cs fun st c => st.updChute c fun y => { y with pen := BitVec.ofNat 6 p, penValid := true }
    let ts := (penDies x).flatMap fun d => if s.held d then (List.range 64).map fun i => 64 * d + i else []
    let s3 := s2.forAll ts fun st t => st.updStall t fun y => { y with tokens := 0, num := 0 }
    s3.forAll (penDies x) fun st d => st.updPmu d pmuLeaveFree

/-- R83, R98: the pen re-enters FREE. -/
def giveBack (s : State) (p : Nat) : State :=
  let s1 := s.forAll (penChutes s p) fun st c => st.updChute c fun y => { y with
    penValid := false,
    consumer := match y.consumer with | .stall _ _ => .none | .engine _ => .none | k => k }
  s1.updPen p fun x => { x with
    granted := false, st := .free, bank0 := {}, bank1 := {}, bank2 := {}, plans := [], shadow := .empty }

/-! ### Placement (R89, R120) -/

/-- R17: the die that holds a logical number is to be replaced. -/
def dieRetiring (s : State) (d : Nat) : Bool := decide ((s.site (s.siteOf d)).st = .retiring)

/-- R17, R83, R195: an available stall of a pen; the loader places nothing on a die that is to be replaced. -/
def stallAvail (s : State) (p t : Nat) : Bool :=
  (s.pen p).dies.getLsbD (t / 64) && s.held (t / 64) && !underReplacement s (t / 64) && !dieRetiring s (t / 64) &&
    !(s.stall t).failed

/-- The stalls that a load may place records on. -/
def loadStalls (s : State) (p : Nat) : List Nat := (penStalls s p).filter fun t => !dieRetiring s (t / 64)

/-- R62, R185: a stall of a B0 die, by the capability word's PERF bit. -/
def stallB0 (s : State) (t : Nat) : Bool := (s.site (s.siteOf (t / 64))).cap.getLsbD 16

/-- R89: the stall at a place of the grid. -/
def gridStall (x y : Nat) : Nat :=
  64 * (8 * (y / 8) + x / 8) + 16 * (2 * (y % 8 / 4) + x % 8 / 4) + 4 * (y % 4) + x % 4

/-- R89: a RECT harness at the first origin that fits, row by row; `need i` says that record `i` needs a B0 stall. -/
def placeRect (s : State) (p w h n : Nat) (need : Nat → Bool) : Option (List StallId) :=
  ((List.range (65 - h)).flatMap fun y0 => (List.range (65 - w)).map fun x0 => (x0, y0)).findSome? fun o =>
    let ts := (List.range n).map fun i => gridStall (o.1 + i % w) (o.2 + i / w)
    if ts.zipIdx.all fun e => stallAvail s p e.1 && (!need e.2 || stallB0 s e.1) then
      some (ts.map (BitVec.ofNat 12)) else none

/-- R89: stalls given to records in turn: those that need a B0 stall first. -/
def placeFree (s : State) (avail : List Nat) (n : Nat) (need : Nat → Bool) : Option (List StallId) :=
  let b0 := avail.filter (stallB0 s)
  let wide := (List.range n).filter need
  let plain := (List.range n).filter fun i => !need i
  if b0.length < wide.length then none
  else
    let rest := avail.filter fun t => !(t ∈ b0.take wide.length)
    if rest.length < plain.length then none
    else some ((List.range n).map fun i =>
      if need i then BitVec.ofNat 12 (b0.getD (wide.idxOf i) 0) else BitVec.ofNat 12 (rest.getD (plain.idxOf i) 0))

/-- R89: the placement of a container: the first that fits [22]. -/
def placement (s : State) (p k : Nat) (wide : Nat → Bool) : Option (List StallId) :=
  let n := hCount k
  let need := fun i => bitAt (hCap k) 1 && wide i
  if fld k 0x26 1 = 0 then placeFree s (loadStalls s p) n need
  else placeRect s p (fld k 0x28 2) (fld k 0x2A 2) n need

/-! ### Steps 1 and 2 (R109, R110) -/

/-- The bytes a container holds in memory, as a number; poison is apart. -/
def contRaw (s : State) (addr n : Nat) : Nat := memNat s.ms.mem addr n

/-- R90: records of a container with a wide stride. -/
def wideAt (s : State) (addr k i : Nat) : Bool :=
  wideStride (BitVec.ofNat 4096 (contRaw s (addr + secOff k 1 + 512 * i) 512))

/-- R90: CAP_REQUIRED can be met. -/
def capOk (s : State) (p addr k : Nat) : Bool :=
  let cap := hCap k
  cap / 4 = 0 && (!bitAt cap 0 || s.pnet.fabricNum.getLsbD 0) &&
    (!bitAt cap 1 ||
      ((List.range (hCount k)).filter (wideAt s addr k)).length ≤ ((loadStalls s p).filter (stallB0 s)).length)

/-- R109: the code of the first check of step 1 that fails. -/
def headerCheck (s : State) (p addr k : Nat) : Option Nat :=
  if fld k 0 4 ≠ 0x4E524845 || fld k 6 2 ≠ 128 then some rMagic
  else if fld k 5 1 ≠ 1 then some rVersion
  else if !headerOk k addr (memTop s) then some rRecord
  else if s.tack.fw.toNat < fld k 0x20 4 then some rFirmware
  else if !capOk s p addr k then some rCapability
  else if !grantOk s p then some rGrant
  else none

/-- The stalls of the powered dies of a pen. -/
def dieStalls (s : State) (p : Nat) : List Nat :=
  (penDies (s.pen p)).flatMap fun d => if s.held d then (List.range 64).map fun i => 64 * d + i else []

/-- R110: a refused load leaves SHADOW_VALID clear on the stalls of a pen that holds its grant, a swap in progress
apart. -/
def clearShadows (s : State) (p : Nat) : State :=
  if (s.pen p).granted && !(s.pen p).swapping then
    s.forAll (dieStalls s p) fun st t => st.updStall t fun x => { x with shadowValid := false }
  else s

/-- R110, R114, R121, R329: a load ends refused or abandoned: the pen goes back to where the load came from. DESIGN
CHOICE [60]: R110 clears SHADOW_VALID and does not name the pen's SHADOW field; with no shadow slot valid it reads
EMPTY, in whichever step the load was refused. -/
def endLoad (s : State) (p : Nat) (isShadow : Bool) (code sec index : Nat) : State :=
  let s1 := (clearShadows s p).updPen p fun x => { x with
    result := BitVec.ofNat 8 code, detSection := BitVec.ofNat 3 sec, detIndex := BitVec.ofNat 16 index }
  if isShadow then
    let s2 := s1.updPen p fun x => { x with shadow := .empty }
    penEvent s2 p (penCode (s2.pen p).st) false
  else
    let from_ := (s1.pen p).from_
    let s2 := if from_ = .free then giveBack s1 p else (setPenSt s1 p from_).updPen p fun x =>
      { x with shadow := .empty }
    penEvent s2 p (penCode from_) false

/-- R77: a stall is in SWAP, so a write of the loader to its shadow slot is held. -/
def Stall.inSwap (x : Stall) : Bool := x.st = .swap

/-- R77, R81, R120: what a LOAD finds in its stalls: those in FAULT go on to FAILED or are free again, and what a
shadow slot held no longer counts, except in a stall in SWAP. -/
def readyStalls (s : State) (p : Nat) (isShadow : Bool) : State :=
  s.forAll (dieStalls s p) fun st t => st.updStall t fun x => { x with
    shadowValid := x.shadowValid && x.inSwap,
    st := if isShadow || x.st ≠ .fault then x.st else if x.failed then .failed else .idle }

/-- R109, R110 steps 1 and 2: the load begins; the container's header is read once. -/
def beginLoad (s0 : State) (j : LoadJob) : State :=
  let p := j.pen.toNat
  let addr := (s0.pen p).container.toNat
  if memTop s0 < addr + 128 then endLoad s0 p j.isShadow rRecord 0 0
  else
    let r := readMem s0 addr 128
    let s := r.1
    let k := leNat r.2.1
    if r.2.2 then endLoad s p j.isShadow rChecksum 0 0
    else match headerCheck s p addr k with
      | some code => endLoad s p j.isShadow code 0 0
      | none =>
        let s1 := readyStalls (takeGrant s p) p j.isShadow
        let s2 := s1.updPen p fun x => { x with shadow := if j.isShadow then .loading else .empty }
        if (loadStalls s2 p).length < hCount k then endLoad s2 p j.isShadow rNoStalls 0 0
        else match placement s2 p k (wideAt s2 addr k) with
          | none => endLoad s2 p j.isShadow rShape 0 0
          | some place => { s2 with loadNow := some { j with hdr := BitVec.ofNat 1024 k, place := place } }

/-- R90, R109, R174: the header and records of a container, which steps 1 and 2 read, wait for a hub. -/
def headWaits (s : State) (addr : Nat) : Bool :=
  reqWaits s addr 128 ||
    (let k := contRaw s addr 128
     headerOk k addr (memTop s) && reqWaits s addr (secOff k 1 + 512 * hCount k))

/-- R109: waiting loads begin in turn until one is in progress, each once the header and records of its container can be
read (R174). `fuel` is the length of the queue. -/
def nextLoads (s : State) : Nat → State
  | 0 => s
  | fuel + 1 =>
    if s.loadNow.isSome then s
    else match s.loadQ with
      | [] => s
      | j :: rest =>
        if headWaits s (s.pen j.pen.toNat).container.toNat then s
            else nextLoads (beginLoad { s with loadQ := rest } j) fuel

def nextLoad (s : State) : State := nextLoads s s.loadQ.length

/-- R118: a pen's loads, in progress or waiting, end with a code. -/
def abandonLoads (s : State) (p code : Nat) : State :=
  let jobs := (s.loadNow.toList ++ s.loadQ).filter fun j => j.pen.toNat = p
  let s1 := { s with
    loadNow := s.loadNow.filter fun j => j.pen.toNat ≠ p, loadQ := s.loadQ.filter fun j => j.pen.toNat ≠ p }
  nextLoad (jobs.foldl (fun st j => endLoad st p j.isShadow code 0 0) s1)

/-! ### Steps 3 and 4 (R110) -/

/-- Lines of a container read in order, up to a poisoned one: the state after, and the offset of that line. -/
def streamLines (s : State) (addr : Nat) : List Nat → State × Option Nat
  | [] => (s, none)
  | o :: os =>
    let r := readLine s (addr + o) 0
    if r.poison then (r.st, some o) else streamLines r.st addr os

/-- The offsets of the lines from the header's end up to `hi`. -/
def streamOffs (hi : Nat) : List Nat := (List.range ((hi - 128 + 63) / 64)).map fun i => 128 + 64 * i

/-- R110: the parked record: MODE VEC, UOP_COUNT 1 with a NOP, no port bound. -/
def parkedRecord : BitVec 4096 := 1 ||| (1 <<< 48)

/-- R413: a record written into a slot, with the parity bits an injection inverts. -/
def newSlot (s : State) (t : Nat) (r : BitVec 4096) (i : Nat) (bank : BitVec 2) : Slot :=
  { record := r, recIdx := i, bank := bank, inj := (injMask s t 3).setWidth 4 }

/-- R77, R110: a complete record in the shadow slot of a stall. -/
def writeShadow (s : State) (t : Nat) (r : BitVec 4096) (i : Nat) (bank : BitVec 2) : State :=
  let slot := newSlot s t r i bank
  injUse (s.updStall t fun x => { x.setShadow slot with shadowValid := true }) t 3

/-- R110: the slots exchanged, and everything the new record starts clear. -/
def exchangeSlots (s : State) (t : Nat) : State :=
  clearSinks (dropConsumer (s.updStall t fun x => { clearRun x with
    activeSlot := !x.activeSlot, activeValid := true, shadowValid := false, st := .idle }) t) t

/-- R98, R99, R144: an initialising binding that finds its chute DISABLED. DESIGN CHOICE [60]: a binding of any role
whose chute is another device's initialises nothing and joins no consumer: the manual does not say that the loader
reaches the far device, nor that it refuses the binding. -/
def initBinding (s : State) (c : Cont) (v : PenView) (b : Binding) : State :=
  match bindTo s v b with
  | .chute k =>
    if b.depth = 0 || (s.chute k).st ≠ .disabled then s
    else s.updChute k fun x =>
      { initChute x with
        depth := b.depth.setWidth 5, stack := decide (b.storage = 1), base := bindBase c v b,
        high := b.high.setWidth 21, low := b.low.setWidth 21, idle := b.idle, eventEn := false,
        flowEn := decide (b.flowPin ≠ 0xFF), flowPin := if b.flowPin = 0xFF then x.flowPin else b.flowPin.setWidth 3,
        remoteOk := x.remoteOk || b.role = 0 || b.role = 2, st := .enabled }
  | _ => s

/-- The harness of a container. -/
def harnessOfCont (c : Cont) (place : List StallId) : Harness :=
  { id := BitVec.ofNat 64 (fld c.k 0x10 8), routes := c.routes, binds := c.binds, segs := c.segs,
    plans := c.planAt.map fun o => planOf c.k o c.addr, place := place }

/-- R89, R190: the harness with the paths of its stream routes between dies. -/
def withPaths (s : State) (h : Harness) : Harness :=
  let dieOf := fun (i : Nat) => (h.place.getD i 0).toNat / 64
  let far := h.routes.zipIdx.filter fun e => e.1.kind = 0 && dieOf e.1.srcStall.toNat ≠ dieOf e.1.dst.toNat
  let pathOf := fun (r : Route) => streamPath s (r.flags.getLsbD 0) (dieOf r.srcStall.toNat) (dieOf r.dst.toNat)
  { h with paths := far.map fun e => (e.2, pathOf e.1) }

/-- R121: the placement table of a pen. -/
def publishPlaces (s : State) (p : Nat) (place : List StallId) : State :=
  let old := tabClear s.placement (4096 * p) (4096 * (p + 1))
  let tab := place.zipIdx.foldl (fun t e => tabSet (fun _ => 0) t (4096 * p + e.2) (e.1.setWidth 16)) old
  { s with placement := tab }

/-- R110, R112: the bank that a load fills: none that a stall of the pen runs from, and not the pen's. -/
def freeBank (s : State) (p : Nat) : Option (BitVec 2) :=
  ([0, 1, 2] : List (BitVec 2)).find? fun b =>
    b ≠ (s.pen p).curBank && (!(s.pen p).swapping || (penStalls s p).all fun t => (s.stall t).active.bank ≠ b)

/-- R110, R112: every available stall gets its record, or a parked one, in the shadow slot and bank. -/
def writeRecords (s : State) (p : Nat) (c : Cont) (place : List StallId) (bank : BitVec 2) : State :=
  let h := withPaths s (harnessOfCont c place)
  let s1 := s.updPen p fun x =>
    if bank = 0 then { x with bank0 := h } else if bank = 1 then { x with bank1 := h } else { x with bank2 := h }
  let s2 := s1.forAll (place.zip c.stalls).zipIdx fun st e => writeShadow st e.1.1.toNat e.1.2 e.2 bank
  s2.forAll ((penStalls s p).filter fun t => !(BitVec.ofNat 12 t ∈ place)) fun st t =>
    writeShadow st t parkedRecord 65536 bank

/-- R110 step 4, R114: the load is complete. DESIGN CHOICE [60]: the manual does not say when the placement table of
R121 follows a SHADOW load; it does at the load's completion, before the swap. -/
def commitLoad (s : State) (p : Nat) (isShadow : Bool) (c : Cont) (place : List StallId) (bank : BitVec 2) : State :=
  let v : PenView := ⟨p, penOwner s p, place, penChutes s p⟩
  let s1 := publishPlaces (c.binds.foldl (fun st b => initBinding st c v b) (writeRecords s p c place bank)) p place
  let ok := fun (x : Pen) => { x with result := 0, detSection := 0, detIndex := 0 }
  if isShadow then
    let s2 := s1.updPen p fun x => { ok x with shadow := .valid }
    penEvent s2 p (penCode (s2.pen p).st) false
  else
    let s2 := s1.updPen p fun x => { ok x with curBank := bank, st := .ready, plans := [], swapping := false }
    let s3 := s2.forAll (penStalls s2 p) exchangeSlots
    let s4 := s3.forAll place.zipIdx fun st e => joinConsumer st e.1.toNat e.2 p (st.pen p).cur
    let s5 := joinEngine { s4 with ready := s4.ready.filter fun e => e.1.toNat ≠ p } p
    penEvent s5 p (penCode .ready) false

/-- LOAD_STREAM_DONE (R109, R110 steps 3 and 4): a load waits while a stall of its pen is in SWAP (R77), and while the
hubs that hold its container wait (R174). -/
def execLoadStreamDone (s : State) : Host.Outcome State Fault Refusal :=
  .next <|
    match s.loadNow with
    | none => nextLoad s
    | some j =>
      let p := j.pen.toNat
      let x := s.pen p
      let held := (penStalls s p).any (fun t => (s.stall t).inSwap) ||
        reqWaits s x.container.toNat (hTotal j.hdr.toNat)
      match (if held then none else freeBank s p) with
      | none => s
      | some bank =>
        let addr := x.container.toNat
        let n := hTotal j.hdr.toNat
        let c := contOf (j.hdr.toNat + 2 ^ 1024 * contRaw s (addr + 128) (n - 128)) addr
        let bad := contCheck s c ⟨p, penOwner s p, j.place, penChutes s p⟩ x.memBase.toNat x.memSize.toNat
        let stop := match bad with | some b => min n b.ends | none => n
        let r := streamLines { s with loadNow := none } addr (streamOffs stop)
        nextLoad <|
          match r.2, bad with
          | some o, _ => endLoad r.1 p j.isShadow rChecksum (locate c o).1 (locate c o).2
          | none, some b => endLoad r.1 p j.isShadow b.code b.sec b.index
          | none, none =>
            if contCrcOk c then commitLoad r.1 p j.isShadow c j.place bank
            else endLoad r.1 p j.isShadow rChecksum 0 0

/-! ### Drains and aborts (R115 to R117) -/

/-- The stalls of a pen's dies, FAILED ones too. -/
def grantStalls (s : State) (p : Nat) : List Nat :=
  (penDies (s.pen p)).flatMap fun d => (List.range 64).map fun i => 64 * d + i

/-- R117: tiles that a stall holds. -/
def heldTiles (x : Stall) : Nat :=
  bit (decide (0 < x.tileToks)) + bit x.join.isSome + x.conv.length + bit x.closed.isSome +
    ((x.out.map fun g => g.tiles.length).getD 0)

/-- Lines in a stall's FIFOs. -/
def fifoLines (x : Stall) : Nat := x.inp.foldl (fun n e => n + e.2.fifo.length) 0

/-- R115, R116: a stall stops: open tiles, lines and anything in flight are discarded. -/
def stopStall (s : State) (t : Nat) : State :=
  clearSinks (s.updStall t fun x => { clearRun x with
    inp := [], st := if x.st = .fault || x.st = .failed || x.st = .off then x.st else .idle }) t

/-- R115 to R117: what a pen does at the end of a drain or abort: its counts, its packets and its lines. DESIGN CHOICE
[60]: an abort that cuts a swap short ends it: each stall keeps the record it runs from, new or old, and SHADOW keeps
its value; the manual says neither. -/
def penCleanup (s : State) (p : Nat) (aborted : Bool) : State :=
  let ts := grantStalls s p
  let mine := fun (m : StrLine) => (s.pen p).dies.getLsbD (m.t.toNat / 64)
  let toks := ts.foldl (fun n t => n + bit (s.stall t).vtok.isSome) (s.pen p).faultTokens
  let tiles := ts.foldl (fun n t => n + heldTiles (s.stall t)) 0
  let lines := ts.foldl (fun n t => n + fifoLines (s.stall t)) (s.strq.filter mine).length
  let r := ts.foldl (fun (x : State × Nat) t => let q := rewindPorts x.1 t; (q.1, x.2 + q.2)) (s,
    (s.pen p).faultPackets)
  let s1 := r.1.forAll ts stopStall
  let s2 := { s1 with
    strq := s1.strq.filter fun m => !mine m,
    anchors := s1.anchors.filter fun m => !(s.pen p).dies.getLsbD (m.t.toNat / 64) }
  s2.updPen p fun x => { x with
    abTokens := BitVec.ofNat 32 toks, abPackets := BitVec.ofNat 16 r.2, abTiles := BitVec.ofNat 16 tiles,
    abLines := BitVec.ofNat 32 lines, aborted := aborted, faultPackets := 0, faultTokens := 0, plans := [],
    swapping := false }

/-- A complete packet of a stall's port waits for its chute. -/
def packetWaits (s : State) (t n : Nat) : Bool :=
  match outDst s t n with
  | .chute c => isLocal s c &&
      ((s.chute (bitsAt c.toNat 0 16)).spaceWait ++ (s.chute (bitsAt c.toNat 0 16)).waiting).any fun w =>
        w.w.last && decide (w.src = stallSource s t n)
  | _ => false

/-- R115: partial sums are on their way to a tile that waits for them. With none, and no token of the pen left, the tile
cannot close: it is discarded with the open ones [24]. -/
def partsComing (s : State) (t : Nat) : Bool :=
  (s.stall t).join.isSome && s.strq.any fun m => !m.toSink && m.t.toNat = t && partPort s t m.port.toNat

/-- R115: a stall holds no taken token, and its complete packets are committed. -/
def stallDrained (s : State) (t : Nat) : Bool :=
  let x := s.stall t
  x.vtok.isNone && !partsComing s t && x.closed.isNone && x.out.isNone && !sinkNoticeDue s t &&
    (List.range 4).all fun n =>
    decide ((x.outPort n).stage = []) && !packetWaits s t n

/-- R115, R118: the pen's drain is complete. -/
def penDrained (s : State) (p : Nat) : Bool :=
  !(s.pen p).swapping && (penStalls s p).all (stallDrained s) &&
    !s.strq.any fun m => m.toSink && (s.pen p).dies.getLsbD (m.t.toNat / 64)

/-- R114 to R116: the pen enters STOPPED. -/
def penStopped (s : State) (p : Nat) (aborted : Bool) : State :=
  penEvent (setPenSt (penCleanup s p aborted) p .stopped) p (penCode .stopped) false

/-- R118, R119: the pen enters FAULTED with the abort actions of R116; shadow content is discarded. -/
def penFaulted (s : State) (p : Nat) : State :=
  let s1 := (penCleanup s p true).forAll (grantStalls s p) fun st t => st.updStall t fun x =>
    { x with shadowValid := false }
  penEvent (s1.updPen p fun x => { x with st := .faulted, shadow := .empty }) p (penCode .faulted) false

/-- DRAIN_COMPLETE (R115). -/
def execDrainComplete (p : PenId) (s : State) : Host.Outcome State Fault Refusal :=
  .next <|
    if (s.pen p.toNat).st = .draining && penDrained s p.toNat then penStopped s p.toNat false else s

/-- DRAIN_LIMIT_EXPIRY (R116). -/
def execDrainLimitExpiry (p : PenId) (s : State) : Host.Outcome State Fault Refusal :=
  .next <| if (s.pen p.toNat).st = .draining then penStopped s p.toNat true else s

/-- PEN_FAULT (R114, R118, R119): a stall of the pen is in FAULT. -/
def execPenFault (p : PenId) (s : State) : Host.Outcome State Fault Refusal :=
  .next <|
    let x := s.pen p.toNat
    let bad := (grantStalls s p.toNat).filter fun t => (s.stall t).st = .fault
    if bad = [] || !x.granted then s
    else match x.st with
      | .free => s
      | .faulted => s
      | .loading => abandonLoads (s.forAll bad fun st t => st.updStall t fun y =>
          { y with failed := true }) p.toNat rFault
      | _ => penFaulted (abandonLoads s p.toNat rFault) p.toNat

/-! ### Commands (R84, R111 to R118, R121) -/

/-- R111: what a stall starts from. -/
def startStall (s : State) (t : Nat) : State :=
  clearSinks (s.updStall t fun x => { clearRun x with
    inp := [], st := if x.st = .fault || x.st = .failed || x.st = .off then x.st
                     else if recTakes x.record then .run else .idle }) t

def penLoad (s : State) (p : Nat) : State :=
  let x := s.pen p
  if x.st = .free || x.st = .stopped || x.st = .faulted then
    let s1 := s.setPen p { x with from_ := x.st, st := .loading }
    nextLoad { s1 with loadQ := s1.loadQ ++ [{ pen := BitVec.ofNat 6 p, isShadow := false }] }
  else setResult s p rState

def penShadow (s : State) (p : Nat) : State :=
  let x := s.pen p
  if x.st = .running then
    let s1 := s.setPen p { x with shadow := .loading }
    nextLoad { s1 with loadQ := s1.loadQ ++ [{ pen := BitVec.ofNat 6 p, isShadow := true }] }
  else setResult s p rState

def penStart (s : State) (p : Nat) : State :=
  let x := s.pen p
  if x.st = .ready || x.st = .stopped then
    let s1 := s.setPen p { x with st := .running, aborted := false, result := 0, plans := [] }
    let s2 := { s1 with ready := s1.ready.filter fun e => e.1.toNat ≠ p }
    s2.forAll (penStalls s2 p) startStall
  else setResult s p rState

def penStop (s : State) (p : Nat) : State :=
  let x := s.pen p
  match x.st with
  | .running =>
    let s1 := setPenSt (setResult s p 0) p .draining
    if (s.loadNow.toList ++ s.loadQ).any fun j => j.pen.toNat = p then abandonLoads s1 p rAbandoned else s1
  | .loading => abandonLoads s p rAbandoned
  | .ready => penEvent (setPenSt (setResult s p 0) p .stopped) p (penCode .stopped) false
  | _ => setResult s p rState

/-- R112: the stalls whose FENCE_PORT no STREAM route of the active harness feeds. -/
def fenceRoots (s : State) (p : Nat) : List Nat :=
  (penStalls s p).filter fun t =>
    let x := s.stall t
    !inRoute (s.pen p).cur x.active.recIdx (recFencePort x.record)

/-- R65, R112: a fence line injected into a stall's FENCE_PORT; with no room there it follows the lines on their way. -/
def injectFence (s : State) (t : Nat) : State :=
  let x := s.stall t
  let n := recFencePort x.record
  let l : TLine := { data := 0, tag := 0x3F, fence := true, at_ := s.time }
  if portRoom x n then s.setStall t (x.setIn n { x.inPort n with fifo := (x.inPort n).fifo ++ [l] })
  else { s with strq := s.strq ++ [{ toSink := false, t := BitVec.ofNat 12 t, port := BitVec.ofNat 2 n, line := l }] }

/-- R112: SWAP. DESIGN CHOICE [60]: SHADOW reads VALID until the swap is complete; a second SWAP in the meantime is
refused with STATE. -/
def penSwap (s : State) (p : Nat) : State :=
  let x := s.pen p
  if x.st = .running && x.shadow = .valid && !x.swapping then
    let s1 := s.setPen p { x with swapping := true, result := 0 }
    s1.forAll (fenceRoots s p) injectFence
  else setResult s p rState

def penReleaseCmd (s : State) (p : Nat) : State :=
  let x := s.pen p
  if x.st = .ready || x.st = .stopped || x.st = .faulted then
    penEvent (giveBack (setResult s p 0) p) p (penCode .free) false
  else setResult s p rState

/-- R114, R121, R402: a value written to PEN_CMD. -/
def penCommand (cmd p : Nat) (s : State) : State :=
  if s.flt.failed then setResult s p rState
  else match cmd with
    | 1 => penLoad s p
    | 2 => penShadow s p
    | 3 => penStart s p
    | 4 => penStop s p
    | 5 => penSwap s p
    | 6 => penReleaseCmd s p
    | _ => setResult s p rState

/-- R84, R325: a command from function `f`: a function that does not own the pen has no effect on it. -/
def penCmd (cmd : Nat) (f : Func) (p : PenId) (s : State) : State :=
  let own := penOwner s p.toNat = f.toNat
  barAccess s f.toNat own (0x40000 + 0x40 * p.toNat) fun st =>
    (if own then penCommand cmd p.toNat st else st).answer .ok

/-- LOAD (R109, R110, R114). -/
def execLoad (f : Func) (p : PenId) (s : State) : Host.Outcome State Fault Refusal := .next <| penCmd 1 f p s

/-- SHADOW (R111). -/
def execShadow (f : Func) (p : PenId) (s : State) : Host.Outcome State Fault Refusal := .next <| penCmd 2 f p s

/-- START (R111). -/
def execStart (f : Func) (p : PenId) (s : State) : Host.Outcome State Fault Refusal := .next <| penCmd 3 f p s

/-- STOP (R115, R118). -/
def execStop (f : Func) (p : PenId) (s : State) : Host.Outcome State Fault Refusal := .next <| penCmd 4 f p s

/-- SWAP (R112). -/
def execSwap (f : Func) (p : PenId) (s : State) : Host.Outcome State Fault Refusal := .next <| penCmd 5 f p s

/-- PEN_RELEASE (R114). -/
def execPenRelease (f : Func) (p : PenId) (s : State) : Host.Outcome State Fault Refusal := .next <| penCmd 6 f p s

/-- PEN_CMD_RESERVED (R114, R121). -/
def execPenCmdReserved (f : Func) (p : PenId) (cmd : BitVec 4) (s : State) : Host.Outcome State Fault Refusal :=
  .next <| penCmd (if 1 ≤ cmd.toNat && cmd.toNat ≤ 6 then 0 else cmd.toNat) f p s

/-! ### FE (R402) -/

/-- R11, R418: an FE abandons the test in progress; the domain of a die under test is disabled. -/
def abandonTest (s : State) : State :=
  let s1 := { s with flt := { s.flt with test := none } }
  match s.flt.test with
  | some (.die p) =>
    let s2 := clearActivity (s1.updSite p fun x => { x with testing := false, powered := false }) p
    { s2 with pwr := { s2.pwr with mv := tabSet (fun _ => 0) s2.pwr.mv p 0 } }
  | _ => s1

/-- R118, R402: the device enters FAILED: every pen that is not FREE enters FAULTED, and loads are abandoned. -/
def enterFailed (s : State) : State :=
  if s.flt.failed then s
  else
    let a := abandonTest s
    let s1 := { a with flt := { a.flt with failed := true }, loadNow := none, loadQ := [] }
    (List.range 64).foldl (fun st p =>
      let x := s.pen p
      if x.st = .free then st
      else penFaulted (if x.st = .loading || x.shadow = .loading then setResult st p rFault else st) p) s1

end Sys2Proof.Machine
end

