-- ==== Sys2Proof/Machine/LinkOps.lean ====
section
/-! DEFINITION. What the links share: flits (R250 to R254), lane maps (R226, R241), buffer levels (R265), notices
(R298), routes (R304), the entries to ACTIVE, RETRAIN and DOWN (R239, R271 to R275), purges (R277). -/

namespace Sys2Proof.Machine

open Sys2Proof

/-! ### Flits (R250 to R254) -/

def flitTyp (f : Flit) : Nat := bitsAt f.toNat 0 4
def flitVc (f : Flit) : Nat := bitsAt f.toNat 4 3
def flitSeq (f : Flit) : Nat := bitsAt f.toNat 7 12
def flitAck (f : Flit) : Nat := bitsAt f.toNat 19 12
def flitHdr (f : Flit) : BitVec 32 := f.setWidth 32
def flitPayload (f : Flit) : BitVec 512 := f.extractLsb' 32 512
def flitCrc (f : Flit) : BitVec 32 := f.extractLsb' 544 32

/-- R254: the CRC over the first 68 bytes. -/
def flitBodyCrc (f : Flit) : BitVec 32 := crc32 (leBytes f.toNat 68)

/-- R254: the CRC is good. -/
def flitGood (f : Flit) : Bool := flitCrc f = flitBodyCrc f

/-- R251: a header. -/
def flitHeader (typ vc seq ack : Nat) : Nat :=
    typ % 16 + 2 ^ 4 * (vc % 8) + 2 ^ 7 * (seq % 4096) + 2 ^ 19 * (ack % 4096)

/-- R250: a flit with its CRC. -/
def mkFlit (typ vc seq ack : Nat) (payload : BitVec 512) : Flit :=
  let body := flitHeader typ vc seq ack + 2 ^ 32 * payload.toNat
  BitVec.ofNat 576 (body + 2 ^ 544 * (crc32 (leBytes body 68)).toNat)

/-- A byte of a payload. -/
def payByte (p : BitVec 512) (k : Nat) : Nat := bitsAt p.toNat (8 * k) 8

/-- R147: the operation of a control payload, its chute address and its source. -/
def ctrlOp (p : BitVec 512) : Nat := bitsAt p.toNat 22 4
def ctrlChute (p : BitVec 512) : ChuteAddr := p.setWidth 22
def ctrlSource (p : BitVec 512) : Source :=
  { kind := BitVec.ofNat 2 (bitsAt p.toNat 54 2), dev := BitVec.ofNat 6 (bitsAt p.toNat 32 6),
    id := BitVec.ofNat 14 (bitsAt p.toNat 40 14) }
def ctrlArg (p : BitVec 512) : Nat := bitsAt p.toNat 56 8

/-! ### Lane maps (LINK_LANE_MAP, R241) -/

/-- The role of a wavelength: 0 to 12 a data lane, 13 an idle spare, 14 clock, 15 unused. -/
def roleAt (m : BitVec 64) (i : Nat) : Nat := bitsAt m.toNat (4 * i) 4
def setRole (m : BitVec 64) (i r : Nat) : BitVec 64 :=
  (m &&& ~~~((15 : BitVec 64) <<< (4 * i))) ||| (BitVec.ofNat 64 r <<< (4 * i))

/-- Data lanes in use, the wavelength of a logical lane, the idle spares in ascending order. -/
def mapLanes (m : BitVec 64) : Nat := ((List.range 16).filter fun i => roleAt m i < 13).length
def laneWave (m : BitVec 64) (j : Nat) : Option Nat := (List.range 16).find? fun i => roleAt m i = j
def idleSpares (m : BitVec 64) : List Nat := (List.range 16).filter fun i => roleAt m i = 13

/-- R241: the map over the wavelengths locked in both directions: data lanes on the lowest, what is left over idle
spares. `spares` is the lesser SPARES value (R244). -/
def assignLanes (mask : BitVec 16) (v2 : Bool) (spares : Nat) : BitVec 64 :=
  let ok := (List.range 16).filter fun i => 1 ≤ i && mask.getLsbD i && (v2 || i ≤ 14)
  let most := if !v2 && decide (14 ∈ ok.take 13) then 12 else 13
  let data := ok.take most
  let left := (ok.drop most).filter fun i => v2 || i = 14
  let m0 := setRole (BitVec.allOnes 64) 0 14
  let m1 := data.zipIdx.foldl (fun m e => setRole m e.1 e.2) m0
  (left.take (if v2 then min 2 spares else 1)).foldl (fun m i => setRole m i 13) m1

/-! ### Buffer levels (R253, R265) -/

/-- The lane rate in Gb/s. -/
def laneRate (k : LinkS) : Nat := if k.fast then 40 else 32

/-- R253: `31 N R`; T_slot is 18,432 divided by it, in ns. -/
def slotDen (m : BitVec 64) (k : LinkS) : Nat := 31 * mapLanes m * laneRate k

/-- R265: H. -/
def headroom (s : State) (l : Nat) : Nat :=
  ((s.ll l).rtt.toNat * slotDen (s.link l).rxMap (s.link l) + 18431) / 18432 + 1

/-- R265, R285: entries of the dedicated buffer of a VC, the flits of the open group included. -/
def vcOcc (x : LL) (v : Nat) : Nat :=
  ((x.rxQ v).filter fun i => !i.pool).length +
    (x.openRx.filter fun h => h.vc = v && h.item.typ ≠ 3 && !h.item.pool).length

/-- R267: entries of the pool in use. -/
def poolUsed (x : LL) : Nat :=
  ((List.range 8).map fun v => ((x.rxQ v).filter fun i => i.pool).length).sum +
    (x.openRx.filter fun h => h.item.pool).length

/-- R265, R266: the XOFF bit of a VC after a change of its buffer; a change makes a FLOW flit due. -/
def refreshXoff (s : State) (l v : Nat) : State :=
  let x := s.ll l
  let occ := vcOcc x v
  let old := x.xoffTo.getLsbD v
  let on := if 512 ≤ headroom s l then true
    else if x.xoffAt.toNat ≤ occ then true
    else if occ ≤ x.xoffAt.toNat - 64 then false else old
  if on = old then s
  else s.setLl l { x with xoffTo := x.xoffTo ^^^ BitVec.ofNat 8 (2 ^ v), flowDue := true }

/-- R265: the levels computed again. -/
def refreshLevels (s : State) (l : Nat) : State :=
  let h := headroom s l
  let s1 := s.updLl l fun x => { x with xoffAt := BitVec.ofNat 10 (512 - h) }
  let s2 := if 512 ≤ h then
      (if BitVec.ofNat 16 cRttLong ∈ (s.frec (srcLink l)).conds then s1 else report s1 (srcLink l) cRttLong 0)
    else endCondition s1 (srcLink l) cRttLong
  (List.range 8).foldl (fun st v => refreshXoff st l v) s2

/-- R260: the effective replay timeout in ns, and TIMER_RAISED. -/
def replayFloor (x : LL) : Nat := x.rtt.toNat + 350
def effTimeout (x : LL) : Nat := max (10 * x.timeoutNow.toNat) (replayFloor x)
def setTimerRaised (x : LL) : LL := { x with timerRaised := decide (10 * x.timeoutNow.toNat < replayFloor x) }

/-! ### Traffic held (R276) -/

/-- R276: the link holds traffic. -/
def holdsTraffic (s : State) (l : Nat) : Bool :=
  let x := s.ll l
  decide (x.replay ≠ []) || (List.range 8).any (fun v => decide (x.txQ v ≠ [])) || x.ops.any (fun o => !o.closed) ||
    x.mid.any fun e => e.2.isSome

/-! ### Notices and routes (R298, R304) -/

/-- The events of R298. -/
def nGroupEmpty : Nat := 1
def nGroupRestored : Nat := 2
def nLinkDown : Nat := 3
def nPartnerChanged : Nat := 4
def nPartnerRestarted : Nat := 5
def nDupNumber : Nat := 6
def nShuffle : Nat := 7

/-- R300: the device that link `l` of device `a` meets in a system of `n`. -/
def shufflePartner (n a l : Nat) : Nat :=
  let t := 8 * (l % 8) + l / 8
  let k := 64 / (n - 1)
  let sp := 64 - k * (n - 1)
  if n < 2 then a
  else if t < (n - 1) * k then (a + t / k + 1) % n
  else
    let sn := t - (n - 1) * k
    if sn + 1 = sp && sp % 2 = 1 then (a + n / 2) % n
    else if sn % 2 = 0 then (a + sn / 2 + 1) % n
    else (a + n - (sn - 1) / 2 - 1) % n

/-- R315: EXPECTED links from device `a` to device `b`. -/
def expectedLinks (s : State) (a b : Nat) : Nat :=
  if sysSize s < 2 || a = b then 0
  else ((List.range 64).filter fun l => shufflePartner (sysSize s) a l = b).length

/-- R295: a MGMT payload of worker control. -/
def mgmtPayload (op tag dest origin addr kind link partner data : Nat) : BitVec 512 :=
  BitVec.ofNat 512 (op + 2 ^ 8 * (tag % 256) + 2 ^ 16 * (dest % 64) + 2 ^ 24 * (origin % 64) + 2 ^ 32 * (addr % 2 ^ 32)
    + 2 ^ 64 * (kind % 256) + 2 ^ 72 * (link % 256) + 2 ^ 80 * (partner % 256) + 2 ^ 96 * (data % 2 ^ 32))

/-- The link MGMT traffic toward a device takes: the first of its route (R305); while no group is open it stays held on
the first link of its recorded partner (R276, R293). -/
def mgmtLink (s : State) (d : Nat) : Option Nat :=
  match routeGroup s d with
  | l :: _ => some l
  | [] => (List.range 64).find? fun l => (s.link l).known && (s.link l).partner.dev.toNat = d

/-- R194: a MGMT payload queued toward a device, or held at its source for a held OE. -/
def sendMgmt (s : State) (d : Nat) (p : BitVec 512) : State :=
  match mgmtLink s d with
  | some l => queueTx s l 0 { typ := 3, payload := p }
  | none => s

/-- R295, R296: the next request number that no outstanding read has. -/
def freeTag (s : State) : BitVec 8 :=
  (((List.range 256).map fun i => s.sys.nextTag + BitVec.ofNat 8 i).find? fun t =>
    !(s.sys.reads.any fun r => r.tag = t)).getD s.sys.nextTag

/-- R295: a request number has been used. -/
def useTag (s : State) : State := { s with sys := { s.sys with nextTag := freeTag s + 1 } }

/-- R304: links from `a` to `b` as the manager knows them [67]: its own; none of a group reported empty; as many as it
has learned from notices and SYS_PEER reads; else the pattern's. -/
def knownLinks (s : State) (a b : Nat) : Nat :=
  if a = myDev s then (groupOf s b).length
  else if s.sys.empties.any fun e => e.1.toNat = a && e.2.1.toNat = b then 0
  else match s.sys.linkCounts.find? fun e => e.1.toNat = a && e.2.1.toNat = b with
    | some e => e.2.2
    | none => expectedLinks s a b

/-- R304: the manager learns how many links one device has to another, or forgets it. -/
def noteLinks (s : State) (a d : DevNum) (n : Option Nat) : State :=
  { s with sys := { s.sys with
    linkCounts := (s.sys.linkCounts.filter fun e => !(e.1 = a && e.2.1 = d)) ++ (n.map fun k => (a, d, k)).toList } }

/-- R304: the via of a pair: the most links, then the lowest number. -/
def bestVia (s : State) (a d : Nat) : Option Nat :=
  let score := fun v => min (knownLinks s a v) (knownLinks s v d)
  ((List.range (sysSize s)).filter fun v => v ≠ a && v ≠ d && decide (0 < score v)).foldl
    (fun best v => match best with
      | none => some v
      | some b => if score b < score v then some v else best) none

/-- R304: VIA and VIA_VALID written into the PEER entry of `a` for `d`. -/
def writeVia (s : State) (a d : Nat) (v : Option Nat) : State :=
  if a = myDev s then
    s.setPeer d { s.peer d with via := BitVec.ofNat 6 (v.getD 0), viaValid := v.isSome }
  else
    sendMgmt (useTag s) a
      (mgmtPayload 0x08 (freeTag s).toNat a (myDev s) (0x10100 + 4 * d) 1 0 0
        (2 ^ 14 * (v.getD 0) + 2 ^ 20 * bit v.isSome))

/-- R304: a pair is known to be empty. -/
def addEmpty (s : State) (a d : DevNum) : State :=
  if s.sys.empties.any fun e => e.1 = a && e.2.1 = d then s
  else { s with sys := { s.sys with empties := s.sys.empties ++ [(a, d, none)] } }

/-- R304: the manager's own groups that are empty, those never ACTIVE too. -/
def ownEmpties (s : State) : State :=
  ((List.range (sysSize s)).filter fun d => d ≠ myDev s && groupOf s d = []).foldl (fun st d =>
    addEmpty st (BitVec.ofNat 6 (myDev s)) (BitVec.ofNat 6 d)) s

/-- R304: the routes of every empty pair computed again; those that change are written. -/
def computeRoutes (s : State) : State :=
  if !s.sys.manager || !s.sys.autoRoute then s
  else
    let s0 := ownEmpties s
    s0.sys.empties.foldl (fun st e =>
      let v := (bestVia st e.1.toNat e.2.1.toNat).map (BitVec.ofNat 6)
      if v = e.2.2 then st
      else
        let st1 := writeVia st e.1.toNat e.2.1.toNat (v.map BitVec.toNat)
        { st1 with sys := { st1.sys with
          empties := st1.sys.empties.map fun q => if q.1 = e.1 && q.2.1 = e.2.1 then (q.1, q.2.1, v) else q } }) s0

/-- R298, R304: the manager takes a notice: its event, and the routes. -/
def takeNotice (s : State) (dev ev link partner : Nat) : State :=
  let s1 := raiseEvent s 0 evSysNotice dev (ev % 256 + 2 ^ 8 * (link % 256) + 2 ^ 16 * (partner % 64))
  let a := BitVec.ofNat 6 dev
  let d := BitVec.ofNat 6 partner
  let had := s1.sys.empties.any fun e => e.1 = a && e.2.1 = d
  if ev = nGroupEmpty then computeRoutes (addEmpty s1 a d)
  else if ev = nGroupRestored then
    let s2 := noteLinks { s1 with sys := { s1.sys with
      empties := s1.sys.empties.filter fun e => !(e.1 = a && e.2.1 = d) } } a d none
    computeRoutes (if had && s2.sys.autoRoute then writeVia s2 dev partner none else s2)
  else if ev = nLinkDown && dev ≠ myDev s then noteLinks s1 a d (some (knownLinks s1 dev partner - 1))
  else s1

/-- R298: a notice of this device that concerns a partner: recorded by a manager, else sent to it. -/
def sendNoticeFor (s : State) (ev l partner : Nat) : State :=
  if !s.sys.noticeEn then s
  else if s.sys.manager then takeNotice s (myDev s) ev l partner
  else if s.sys.mgrKnown then
    sendMgmt s s.sys.mgrDev.toNat (mgmtPayload 0x0A 0 s.sys.mgrDev.toNat (myDev s) 0 ev l partner 0)
  else s

/-- The same for the link's recorded partner. -/
def sendNotice (s : State) (ev l : Nat) : State := sendNoticeFor s ev l (s.link l).partner.dev.toNat

/-! ### The receive lanes (R228, R232, R237) -/

/-- The drop ring and the modulator ring of a link's wavelength (R204). -/
def dropRing (l i : Nat) : Nat := 16 * (2 * (l % 8) + 1) + i
def txRing (l i : Nat) : Nat := 16 * (2 * (l % 8)) + i

/-- R232, R233: the start taps of a lane: the band's set, or the save record's (R384). -/
def eqByte (o : OeS) (l i k : Nat) : BitVec 8 :=
  let n := 3 * (16 * (l % 8) + i) + k
  if o.useSave then tabGet (fun _ => 0) o.saveEq n else tabGet (fun _ => 0) o.bandEq (512 * o.band.toNat + n)

/-- R232, EQ_HELD: adaptation is held. -/
def eqStopped (s : State) (l i : Nat) : Bool :=
  let y := (s.link l).lane i
  y.los || y.lol || decide (((s.oe (l / 8)).ring (dropRing l i)).st ≠ .locked)

/-- A lane at the start of training (R232, R237). -/
def trainLane (s : State) (l i : Nat) : Lane :=
  let y := (s.link l).lane i
  let o := s.oe (l / 8)
  { y with bitLock := false, wordLock := false, deskewed := false, offset := 0, hits := 0, delay := 0, markers := 0,
           out := false, slips := 0, misSent := false,
           tap1 := eqByte o l i 0, tap2 := eqByte o l i 1, tap3 := eqByte o l i 2 }

/-- Every lane at the start of training. -/
def trainLanes (s : State) (l : Nat) : State :=
  (List.range 15).foldl (fun st n => st.updLink l fun k => k.setLane (n + 1) (trainLane st l (n + 1))) s

/-! ### State changes (R239, R271 to R275) -/

/-- R282: pending lane commands discarded, the queued LANE_REQ and LANE_SET with them; those of this side are issued
again after a retrain. -/
def dropLaneCmds (x : LL) : LL :=
  let cmd := fun (it : TxItem) => it.typ = 3 && (payByte it.payload 0 = 2 || payByte it.payload 0 = 3)
  { x.setTxQ 0 ((x.txQ 0).filter fun it => !cmd it) with
    cmdTx := none, cmdRx := none, reqQ := [], cmdQ := [], redoTx := x.reqQ,
    redoRx := (x.cmdRx.toList ++ x.cmdQ).filter (·.own) }

/-- R244: an exchange, or the end of one. -/
def clearExchange (k : LinkS) : LinkS :=
  { k with msgRx := false, ackRx := false, ackTx := false, goRx := false, goTx := false, rateStep := false }

/-- R246: a held exchange is held no more, and the condition of a changed partner ends with it. -/
def endHold (s : State) (l : Nat) : State :=
  let k := s.link l
  let s1 := s.setLink l { k with held := false, cand := none, pChanged := false }
  if k.pChanged then endCondition s1 (srcLink l) cPartnerChanged else s1

/-- R298: what leaving ACTIVE brings, once the new state is set. -/
def leftActive (s : State) (l : Nat) : State :=
  let s1 := s.updLl l fun x => { dropLaneCmds x with synced := false, syncOn := false, replayPos := none }
  if groupOf s1 (s1.link l).partner.dev.toNat = [] then sendNotice s1 nGroupEmpty l else s1

/-- A link's state changed. In DOWN and DETECT every modulator is held at its non-modulating level (R240). -/
def setLinkSt (s : State) (l : Nat) (st : LinkState) : State :=
  let old := (s.link l).st
  let s1 := s.updLink l fun k => { k with
    st := st, lastFrame := if st = .down || st = .detect then [] else k.lastFrame }
  if old = .active && st ≠ .active then leftActive s1 l else s1

/-- Codes of DOWN_REASON (R249). -/
def dDisabled : Nat := 1
def dHold : Nat := 2
def dLanes : Nat := 3
def dVersion : Nat := 4
def dLink : Nat := 5

/-- A link enters DOWN. -/
def enterDown (s : State) (l reason : Nat) : State :=
  (endHold (setLinkSt s l .down) l).updLink l fun k => { clearExchange k with
    downReason := BitVec.ofNat 3 reason, kind := none }

/-- R275: the link layer declares the link down. -/
def declareDown (s : State) (l : Nat) : State :=
  let s1 := (enterDown s l dLink).updLink l fun k => { k with enable := false }
  sendNotice (report s1 (srcLink l) cLinkDown 0) nLinkDown l

/-- R239: the link enters TRAIN. -/
def enterTrain (s : State) (l : Nat) : State :=
  (trainLanes (setLinkSt s l .train) l).updLink l fun k => { k with frames := 0, fast := false }

/-- R232, R236, R244, R245, R274: a retrain begins: a QUICK one keeps phase, taps, slips and rate; a FULL one trains
from the start, at 32 Gb/s. -/
def startRetrain (s : State) (l : Nat) (kind : RetrainKind) : State :=
  let s1 := (setLinkSt s l .retrain).updLink l fun k => { clearExchange k with
    kind := some kind, stage := 0, frames := 0, fast := k.fast && decide (kind = .quick) }
  if kind = .full then trainLanes s1 l else s1

/-- R274: a FULL retrain that the link layer requests. -/
def askRetrain (s : State) (l : Nat) : State :=
  (startRetrain s l .full).updLl l fun x => { x with
    retrains := satAdd 32 x.retrains 1 }

/-- OLDEST: the sequence number of the oldest unacknowledged flit, else NEXT_TX. -/
def LL.oldest (x : LL) : Nat := match x.replay with | f :: _ => flitSeq f | [] => x.nextTx.toNat

/-- R284: the traffic of the link is to be encrypted: ENC_EN is set, and both sides have sent ENCRYPT. -/
def encWanted (s : State) (l : Nat) : Bool := (s.ll l).encNow && (s.ll l).sentEnc && (s.link l).pFlags.getLsbD 2

/-- R285: the groups and keys of a link that starts afresh. -/
def clearKeys (x : LL) : LL :=
  { x with encActive := false, keyMsgs := [], keyTx := 0, keyRx := 0, saltTx := 0, saltRx := 0, grpTx := 0, grpRx := 0,
           openTx := [], openRx := [], keyNextTx := none, keyNextRx := none, keyIdx := 0, switchRx := false }

/-- R258, R285: NEXT_RX short of the flits of a group whose TAG has not verified. -/
def ackLimit (x : LL) : BitVec 12 :=
  match x.openRx with
  | h :: _ => BitVec.ofNat 12 (bitsAt h.hdr.toNat 7 12)
  | [] => x.nextRx

/-- R284: encryption ends where ENC_EN is clear at a SYNC phase: the open groups are given up, undelivered and
unacknowledged, and flits in the replay buffer stay as they were sent [74]. -/
def endEncryption (x : LL) : LL := if x.encActive && !x.encNow then { clearKeys x with nextRx := ackLimit x } else x

/-- R271, R272, R284, R288: a SYNC phase begins; written settings take effect. -/
def startSync (s : State) (l : Nat) : State :=
  let holds := holdsTraffic s l
  s.updLl l fun x =>
    let y := endEncryption (setTimerRaised { x with
      limitNow := x.replayLimit, timeoutNow := x.replayTimeout, encNow := x.encEn, encReqNow := x.encReq })
    { y with
      syncOn := true, gotPartner := false, syncDue := false, synced := false,
      probeDue := false, probeOut := false, echoDue := none, replayPos := none, txSlot := 0, rxSlot := 0,
      fresh := x.fresh && !holds, nextTx := if x.fresh && !holds then 0 else x.nextTx, lastVc0 := false }

/-! ### Purge (R277) -/

/-- R150, R277: every open packet from a device rewound at local chutes. What the device had waiting there waits anew. -/
def rewindFrom (s : State) (dev : Nat) : State :=
  s.chutes.foldl (fun st e =>
    let st1 := if e.2.opened && decide (e.2.src.dev.toNat = dev) then abortAtChute st e.1 e.2.src else st
    if e.2.order.any (·.dev.toNat = dev) then
      st1.updChute e.1 fun x => { x with order := x.order.filter (·.dev.toNat ≠ dev) } else st1) s

/-- R306: ABORT sent onward for each packet of the link that this device has forwarded and that is still open. -/
def abortForwards (s : State) (l : Nat) : State :=
  (s.ll l).rxPkt.foldl (fun st e =>
    match e.2 with
    | some p =>
      match p.fwd with
      | some o =>
        (forwardEnd st o.toNat e.1 (ctrlPayload p.chute.toNat 3 p.src.dev.toNat p.src.id.toNat p.src.kind.toNat 0) p.src
          p.chute).updLl l fun x => { x with
            rxPkt := tabSet (fun _ => none) x.rxPkt e.1 (some { p with fwd := none, refused := true }) }
      | none => st
    | none => st) s

/-- R149, R277: the outcome ABORTED reported to the producer of a packet that a purge discards: an endpoint of this
device, or by STATUS one of the device whose packet this one forwards. -/
def abortOp (s : State) (o : OpTimer) : State :=
  if o.via then
    sendCtrl0 s o.src.dev.toNat o.src
      (ctrlPayload o.chute.toNat 6 (myDev s) o.src.id.toNat o.src.kind.toNat 3) o.chute.toNat
  else setEpStat s o.src .aborted

/-- R277: a purge. -/
def purgeLink (s : State) (l : Nat) : State :=
  let x := s.ll l
  let s1 := x.ops.foldl abortOp s
  let s2 := rewindFrom s1 (s.link l).partner.dev.toNat
  (abortForwards s2 l).updLl l fun y => { y with
    replay := [], replayPos := none, txq := [], ops := [], mid := [], openTx := [], purgedDue := true, fresh := true,
    replayCount := 0, askedSeq := none }


end Sys2Proof.Machine
end

