-- ==== Sys2Proof/Machine/Framing.lean ====
section
/-! DEFINITION. How the transmitter turns the stream of flits into the line bits of each wavelength: rotation over the
data lanes, scrambling, stuffing, frames, fill, markers and training blocks; and how the receiver turns line bits into
flits (R227, R229 to R231, R236, R238, R240, R253). -/

namespace Sys2Proof.Machine

open Sys2Proof

/-- R229: one scrambler output; bit 0 of the state is s[n - 31]. -/
def scrBit (st : BitVec 31) : Bool := Bool.xor (st.getLsbD 0) (st.getLsbD 3)
def scrNext (st : BitVec 31) : BitVec 31 := (st >>> 1) ||| (BitVec.ofNat 31 (bit (scrBit st)) <<< 30)

/-- R229: payload bits scrambled, and the state after them. -/
def scramble : List Bool → BitVec 31 → List Bool × BitVec 31
  | [], st => ([], st)
  | b :: t, st =>
    let r := scramble t (scrNext st)
    (Bool.xor b (scrBit st) :: r.1, r.2)

/-- R230: a line bit joins its run. -/
def runBit (r : LineRun) (b : Bool) : LineRun :=
  if r.len = 0 || r.last ≠ b then { last := b, len := 1 } else { last := b, len := r.len + 1 }

/-- What a lane's frame gives: its line bits in order, the run after it, and its stuff bits. -/
structure LaneFrame where
  line : List Bool
  run : LineRun
  stuffs : Nat

/-- R230, R231: `n` UI of a lane from its scrambled payload: a stuff bit after a run of 31, a fill bit when the
payload is used up. -/
def laneUis : Nat → LineRun → List Bool → LaneFrame
  | 0, r, _ => ⟨[], r, 0⟩
  | n + 1, r, bs =>
    if r.len = 31 then
      let x := laneUis n { last := !r.last, len := 1 } bs
      ⟨(!r.last) :: x.line, x.run, x.stuffs + 1⟩
    else match bs with
      | [] =>
        let x := laneUis n (runBit r (!r.last)) []
        ⟨(!r.last) :: x.line, x.run, x.stuffs⟩
      | b :: t =>
        let x := laneUis n (runBit r b) t
        ⟨b :: x.line, x.run, x.stuffs⟩

def LinkS.runAt (k : LinkS) (i : Nat) : LineRun := tabGet (fun _ => {}) k.runs i
def LinkS.scrAt (k : LinkS) (n : Nat) : BitVec 31 := tabGet (fun _ => 0) k.scr n

/-- R253: the data lanes of a map in ascending logical order: their wavelengths and logical numbers. -/
def mapRanks (m : BitVec 64) : List (Nat × Nat) :=
  (List.range 13).filterMap fun j => (laneWave m j).map fun i => (i, j)

/-- R253: the payload bits a lane of rank `k` takes from the stream: every `n`th. -/
def rankBits (bs : List Bool) (n k p : Nat) : List Bool := (List.range p).map fun m => (bs[k + n * m]?).getD false

/-- The bits of a word, least significant first, and back. -/
def wordBits (w : Reg32) : List Bool := (List.range 32).map fun i => w.getLsbD i
def bitsWord (bs : List Bool) : Reg32 := BitVec.ofNat 32 (bs.foldr (fun b n => bit b + 2 * n) 0)

/-- R236: word `n` of a block on wavelength `i` with its sync word, its last word and its logical lane, whose first
frame has count `f`. -/
def blockWord (w0 w3 : Reg32) (i lane : Nat) (f : BitVec 16) (n : Nat) : Reg32 :=
  match n with
  | 0 => w0
  | 1 => BitVec.ofNat 32 (i + 2 ^ 8 * (255 - i) + 2 ^ 16 * lane + 2 ^ 24 * (255 - lane))
  | 2 => BitVec.ofNat 32 (f.toNat + 2 ^ 16 * (65535 - f.toNat))
  | _ => w3

/-- R236, R238: word `n` of a marker. -/
def markerWord (i : Nat) (f : BitVec 16) (n : Nat) : Reg32 := blockWord 0x94D36B2C 0x5A5AA5A5 i 0x0D f n

/-- R236: the last word of a training block: TRAIN, QUICK and GO. -/
def w3Train : Reg32 := 0x0F0FF0F0
def w3Quick : Reg32 := 0x3C3CC3C3
def w3Go : Reg32 := 0xF0F00F0F

/-- R226, R241: the roles at training: data lanes on λ1 to λ13, spares on λ14 and λ15. -/
def trainMap : BitVec 64 := 0xDDCBA9876543210E

/-- R240, R245: the lane map before ACTIVE: that of training, or in a retrain the map current at its start. -/
def mapNow (k : LinkS) : BitVec 64 := if k.st = .retrain then k.laneMap else trainMap

/-- R236: word `n` of a training block of the link on wavelength `i`. -/
def trainWord (k : LinkS) (w3 : Reg32) (i : Nat) (f : BitVec 16) (n : Nat) : Reg32 :=
  blockWord 0x6B2C94D3 w3 i (min 13 (roleAt (mapNow k) i)) f n

/-- A lane's frame goes out. -/
def putFrame (k : LinkS) (i : Nat) (x : LaneFrame) : LinkS :=
  { k with runs := tabSet (fun _ => {}) k.runs i x.run, lastFrame := tabSet (fun _ => 0) k.lastFrame i (bitsWord x.line) }

/-- R229, R231, R238, R240: the frame of an idle spare: scrambled zeros, or a marker word in the first four of every
4,096 frames; in an exchange a word of a training block. -/
def spareFrame (k : LinkS) (i : Nat) : LinkS :=
  let n := k.frames.toNat % 4096
  let r := k.runAt i
  if k.st ≠ .active then
    putFrame k i (laneUis 32 r (wordBits (trainWord k w3Train i (k.frames - BitVec.ofNat 16 (n % 4)) (n % 4))))
  else if k.version && n < 4 then putFrame k i (laneUis 32 r (wordBits (markerWord i (k.frames - BitVec.ofNat 16 n) n)))
  else
    let x := laneUis 32 r (scramble (List.replicate 32 false) (k.scrAt (16 + i))).1
    let st := (scramble (List.replicate (32 - x.stuffs) false) (k.scrAt (16 + i))).2
    putFrame { k with scr := tabSet (fun _ => 0) k.scr (16 + i) st } i x

/-- R231: one data lane's frame of `p` payload bits. -/
def dataFrame (k : LinkS) (bs : List Bool) (n p : Nat) (rank : Nat) (e : Nat × Nat) : LinkS :=
  let x := scramble (rankBits bs n rank p) (k.scrAt e.2)
  putFrame { k with scr := tabSet (fun _ => 0) k.scr e.2 x.2 } e.1 (laneUis 32 (k.runAt e.1) x.1)

/-- R227: the clock pattern 1100 in a frame of λ0. -/
def clockFrame (k : LinkS) : LinkS := { k with lastFrame := tabSet (fun _ => 0) k.lastFrame 0 0x33333333 }

/-- R231, R253, R281: one frame sent: 32 payload bits a lane, less the most stuff bits of a data lane: 1, or 2 where a
lane stuffs at UI 0 and at UI 31 [66]. A frame that begins at or after the slot of a lane change follows the new map. -/
def sendFrame (k0 : LinkS) : LinkS :=
  let k := if k0.oldBits = 0 then { k0 with frameMap := k0.laneMap } else k0
  let ranks := mapRanks k.frameMap
  let n := ranks.length
  let stuffs := ranks.zipIdx.map fun e =>
    (laneUis 32 (k.runAt e.1.1) (scramble (rankBits k.txBits n e.2 32) (k.scrAt e.1.2)).1).stuffs
  let p := 32 - stuffs.foldl max 0
  let k1 := ranks.zipIdx.foldl (fun y e => dataFrame y k.txBits n p e.2 e.1) k
  let k2 := (idleSpares k.frameMap).foldl spareFrame k1
  clockFrame { k2 with txBits := k.txBits.drop (n * p), oldBits := k.oldBits - n * p, frames := k.frames + 1 }

/-- Frames sent while a whole one is there. `fuel` bounds their number. -/
def sendFrames : Nat → LinkS → LinkS
  | 0, k => k
  | fuel + 1, k =>
    let m := if k.oldBits = 0 then k.laneMap else k.frameMap
    if mapLanes m = 0 || k.txBits.length < 32 * mapLanes m then k else sendFrames fuel (sendFrame k)

/-- R253: a flit joins the stream, byte 0 first, bit 0 first. -/
def sendBits (k : LinkS) (f : Flit) : LinkS :=
  sendFrames 20 { k with txBits := k.txBits ++ (List.range 576).map fun i => f.getLsbD i }

/-- R281: the lane map changes from the slot now to begin: bits sent before keep the old map. -/
def changeTxMap (k : LinkS) (m : BitVec 64) : LinkS := { k with laneMap := m, oldBits := k.txBits.length }

/-! ### Before ACTIVE (R236, R240, R243, R244) -/

/-- R236, R245: the last word of the link's training blocks. -/
def w3Of (k : LinkS) : Reg32 := if k.kind = some .quick then w3Quick else w3Train

/-- R244: the last word of wavelength `i`'s block while the data lanes send GO. -/
def w3GoOf (k : LinkS) (m : BitVec 64) (i : Nat) : Reg32 := if roleAt m i < 13 then w3Go else w3Of k

/-- R240: frame `n` of a training block whose first frame has count `f`, on λ1 to λ15, with the clock on λ0; `w3` gives
the last word of each. -/
def trainFrame (k : LinkS) (w3 : Nat → Reg32) (f : BitVec 16) (n : Nat) : LinkS :=
  let k1 := (List.range 15).foldl (fun y i =>
    putFrame y (i + 1) (laneUis 32 (y.runAt (i + 1)) (wordBits (trainWord k (w3 (i + 1)) (i + 1) f n)))) k
  clockFrame { k1 with frames := k.frames + 1 }

/-- R240: the next frame of the training blocks that repeat. -/
def nextTrainFrame (k : LinkS) : LinkS :=
  let n := k.frames.toNat % 4
  trainFrame k (fun _ => w3Of k) (k.frames - BitVec.ofNat 16 n) n

/-- R240, R243, R244: an EXCHANGE flit on the data lanes: before GO on those of training and not scrambled. -/
def sendExchange (k : LinkS) (f : Flit) : LinkS :=
  if k.goTx then sendBits k f else { sendBits { k with laneMap := mapNow k } f with laneMap := k.laneMap }

/-- R229: a seed rotated left by `n` within its 31 bits. -/
def rotSeed (seed : BitVec 31) (n : Nat) : BitVec 31 := seed.rotateLeft (n % 31)

/-- R229: the scramblers of logical lane `j` at `j`, and the fill generators of wavelength `i` at `16 + i`, seeded. -/
def seeds (seed : BitVec 31) : Tab (BitVec 31) :=
  (List.range 32).foldl (fun t n =>
    if n < 13 then tabSet (fun _ => 0) t n (rotSeed seed (2 * n))
    else if 16 ≤ n then tabSet (fun _ => 0) t n (rotSeed seed (2 * (n - 16))) else t) []

/-- R229, R244, R245: the GO block on the data lanes. A stream of scrambled flits begins at the next frame, seeded anew,
but not after a QUICK retrain. -/
def sendGo (k : LinkS) : LinkS :=
  let y := (List.range 4).foldl (fun y n => trainFrame y (w3GoOf k (mapNow k)) k.frames n) k
  { y with
    goTx := true, scr := if k.kind = some .quick then k.scr else seeds k.seed, txBits := [], oldBits := 0,
    frameMap := k.laneMap }

/-- R230: the run that the bits of a word end with. -/
def lastRun (w : Reg32) : LineRun := (wordBits w).foldl runBit {}

/-- R229, R230, R244, R245: the partner's GO: its stream begins at the next frame, after the line bits of the block. -/
def takeGo (k : LinkS) : LinkS :=
  { k with
    goRx := true, rxScr := if k.kind = some .quick then k.rxScr else seeds k.pSeed, rxBits := [],
    rxRuns := (List.range 15).map fun i => (i + 1, lastRun (w3GoOf k k.rxMap (i + 1))) }

/-! ### Receiving (R229 to R231, R253) -/

/-- What the receiver takes from a lane's frame: payload bits, the run after it, stuff bits and stuffing errors. -/
structure RxLaneFrame where
  bits : List Bool
  run : LineRun
  stuffs : Nat
  errs : Nat

/-- R230: the bit after a run of 31 is removed; it is an error unless it is the complement. -/
def destuff : List Bool → LineRun → RxLaneFrame
  | [], r => ⟨[], r, 0, 0⟩
  | b :: t, r =>
    if r.len = 31 then
      let x := destuff t { last := b, len := 1 }
      { x with stuffs := x.stuffs + 1, errs := x.errs + bit (decide (b = r.last)) }
    else
      let x := destuff t (runBit r b)
      { x with bits := b :: x.bits }

/-- The frame of wavelength `i` among the words of a frame. -/
def rxLaneFrame (k : LinkS) (ws : List (Wave × Reg32)) (i : Nat) : RxLaneFrame :=
  destuff (wordBits (((ws.find? fun w => w.1.toNat = i).map (·.2)).getD 0)) (tabGet (fun _ => {}) k.rxRuns i)

/-- R230: a lane's run and stuffing errors after a frame. -/
def countStuff (k : LinkS) (i : Nat) (x : RxLaneFrame) : LinkS :=
  { k.setLane i { k.lane i with stuffErr := satAdd 8 (k.lane i).stuffErr x.errs } with
    rxRuns := tabSet (fun _ => {}) k.rxRuns i x.run }

/-- R229 to R231, R253: a frame received: stuff bits and the fill of the other data lanes removed, the payload
descrambled and put back into one stream. -/
def rxFrame (k : LinkS) (ws : List (Wave × Reg32)) : LinkS :=
  let ranks := mapRanks k.rxMap
  let p := 32 - (ranks.map fun e => (rxLaneFrame k ws e.1).stuffs).foldl max 0
  let pay := ranks.map fun e => scramble ((rxLaneFrame k ws e.1).bits.take p) (tabGet (fun _ => 0) k.rxScr e.2)
  let k1 := ws.foldl (fun y w => countStuff y w.1.toNat (rxLaneFrame k ws w.1.toNat)) k
  { k1 with
    rxScr := (ranks.zip pay).foldl (fun t e => tabSet (fun _ => 0) t e.1.2 e.2.2) k.rxScr,
    rxBits := k.rxBits ++ (List.range p).flatMap fun b => pay.map fun x => (x.1[b]?).getD false }

/-- R253: the flit that frames complete, or with no whole flit in the stream the one that the command brings. -/
def rxTake (k : LinkS) (fl : RxFlit) : LinkS × Flit :=
  let y := fl.frames.foldl rxFrame k
  if 576 ≤ y.rxBits.length then
    ({ y with rxBits := y.rxBits.drop 576 }, BitVec.ofNat 576 ((y.rxBits.take 576).foldr (fun b n => bit b + 2 * n) 0))
  else (y, fl.bits)

end Sys2Proof.Machine
end

