-- ==== Sys2Proof/Machine/LaneCmds.lean ====
section
/-! DEFINITION. Lane commands: MOVE, DROP and ADD, their requests, checks, queues and effect (R279 to R282, R247); and
the entry to ACTIVE, after which those that a retrain discarded are issued again (R239, R271). -/

namespace Sys2Proof.Machine

open Sys2Proof

/-- The operation of a MGMT payload (R280). -/
def mgmtOp (p : BitVec 512) : Nat := payByte p 0

/-- The operations of a lane command. -/
def lcMove : Nat := 1
def lcDrop : Nat := 2
def lcAdd : Nat := 3

/-- R280: a lane command's payload: LANE_REQ (2), LANE_SET (3) or LANE_REFUSE (4) with a REASON. -/
def lanePayload (op : Nat) (c : LaneCmd) (reason : Nat) : BitVec 512 :=
  BitVec.ofNat 512 (op + 2 ^ 8 * c.id.toNat +
    (if op = 4 then 2 ^ 40 * reason
     else 2 ^ 16 * c.op.toNat + 2 ^ 24 * c.lane.toNat + 2 ^ 32 * c.wave.toNat +
       (if op = 3 then 2 ^ 48 * (c.eff.getD 0).toNat else 0)))

/-- The lane command a payload carries. -/
def laneCmdOf (p : BitVec 512) : LaneCmd :=
  { id := BitVec.ofNat 8 (payByte p 1), op := BitVec.ofNat 8 (payByte p 2), lane := BitVec.ofNat 8 (payByte p 3),
    wave := BitVec.ofNat 8 (payByte p 4) }

/-- A MGMT payload queued on the link itself. -/
def queueMgmt (x : LL) (p : BitVec 512) : LL := x.setTxQ 0 (x.txQ 0 ++ [{ typ := 3, payload := p }])

/-- R281: a lane command applied to a map: a vacated wavelength becomes an idle spare. -/
def applyCmd (m : BitVec 64) (c : LaneCmd) : BitVec 64 :=
  let w := c.wave.toNat % 16
  let j := c.lane.toNat % 16
  let old := laneWave m j
  match c.op.toNat with
  | 1 =>
    let m1 := match old with | some i => setRole m i 13 | none => m
    setRole m1 w j
  | 2 => match old with | some i => setRole m i 13 | none => m
  | 3 => setRole m w j
  | _ => m

/-- LINK_LL_LANE: the last lane command and its result. -/
def noteLane (x : LL) (c : LaneCmd) (res : Nat) : LL :=
  { x with laneOp := c.op.setWidth 2, laneNo := c.lane.setWidth 4, laneWave := c.wave.setWidth 4,
           laneRes := BitVec.ofNat 3 res }

/-- The results of LINK_LL_LANE. -/
def lrNotDeskewed : Nat := 1
def lrMinLanes : Nat := 2
def lrBad : Nat := 4
def lrLate : Nat := 5

/-! ### The transmitter's requests (R280, R282) -/

/-- R282: the first request that waits is sent. -/
def sendReq (x : LL) : LL :=
  match x.reqQ with
  | c :: _ => queueMgmt x (lanePayload 2 c 0)
  | [] => x

/-- R282: the request in progress ends, and the next is sent. -/
def endReq (x : LL) : LL := sendReq { x with reqQ := x.reqQ.drop 1 }

/-- R247, R280, R282: the transmitter asks for a change of its lane map: by LANE_REQ, or under v1 by a FULL retrain with
the new map. -/
def requestLane (s : State) (l op lane wave : Nat) : State :=
  let x := s.ll l
  let c : LaneCmd := { id := x.cmdId, op := BitVec.ofNat 8 op, lane := BitVec.ofNat 8 lane, wave := BitVec.ofNat 8 wave }
  if (s.link l).st ≠ .active then s
  else if !(s.link l).version then
    startRetrain ((s.updLink l fun k => changeTxMap k (applyCmd k.laneMap c)).updLl l fun y => noteLane y c 0) l .full
  else
    let y := { x with cmdId := x.cmdId + 1, reqQ := x.reqQ ++ [c] }
    s.setLl l (if x.reqQ = [] then sendReq y else y)

/-! ### The receiver's checks (R281) -/

/-- R281: the check of a lane command that does not wait: 0 when it passes. -/
def laneCheck (k : LinkS) (c : LaneCmd) : Nat :=
  let j := c.lane.toNat
  let w := c.wave.toNat
  let has := (laneWave k.rxMap j).isSome
  if 12 < j || 15 < w || (c.op.toNat ≠ lcDrop && (k.lane w).out) then lrBad
  else match c.op.toNat with
    | 1 => if !has || roleAt k.rxMap w ≠ 13 then lrBad else 0
    | 2 => if !has then lrBad else if mapLanes k.rxMap < 9 then lrMinLanes else 0
    | 3 => if has || roleAt k.rxMap w ≠ 13 then lrBad else 0
    | _ => lrBad

/-- R281: the target lane is DESKEWED, or none is needed. -/
def laneSettled (k : LinkS) (c : LaneCmd) : Bool := c.op.toNat = lcDrop || (k.lane (c.wave.toNat % 16)).deskewed

/-- R281: LANE_SET sent, with EFFECTIVE 8,192 slots ahead. -/
def sendSet (x : LL) (c : LaneCmd) : LL :=
  let c1 := { c with eff := some (x.rxSlot + 8192) }
  queueMgmt { x with cmdRx := some c1 } (lanePayload 3 c1 0)

/-- R281, R282: the next command of the receive direction is checked: set, refused, or left waiting for DESKEWED. -/
def nextRxCmd (k : LinkS) : Nat → LL → LL
  | 0, x => x
  | fuel + 1, x =>
    match x.cmdRx, x.cmdQ with
    | none, c :: rest =>
      let y := { x with cmdQ := rest }
      if laneCheck k c ≠ 0 then
        nextRxCmd k fuel (queueMgmt (noteLane y c (laneCheck k c)) (lanePayload 4 c (laneCheck k c)))
      else if laneSettled k c then sendSet y c
      else { y with cmdRx := some c }
    | _, _ => x

/-- R282: a command joins the receive direction's queue. -/
def queueRxCmd (s : State) (l : Nat) (c : LaneCmd) : State :=
  s.updLl l fun x => nextRxCmd (s.link l) (x.cmdQ.length + 1) { x with cmdQ := x.cmdQ ++ [c] }

/-- R247, R280, R281: the receiver changes a lane on its own initiative. -/
def receiverLane (s : State) (l op lane wave : Nat) : State :=
  let x := s.ll l
  let c : LaneCmd := { id := x.cmdId, op := BitVec.ofNat 8 op, lane := BitVec.ofNat 8 lane, wave := BitVec.ofNat 8 wave,
                       own := true }
  if (s.link l).st ≠ .active then s
  else if !(s.link l).version then
    startRetrain ((s.updLink l fun k => { k with rxMap := applyCmd k.rxMap c }).updLl l fun y => noteLane y c 0) l .full
  else queueRxCmd (s.setLl l { x with cmdId := x.cmdId + 1 }) l c

/-- R235: the idle spares of the receive direction that have light and have not failed. -/
def usableSpares (k : LinkS) : List Nat := (idleSpares k.rxMap).filter fun i => !(k.lane i).out && !(k.lane i).los

/-- R281: a lane moved to the lowest of the idle spares, or dropped. -/
def moveOrDrop (spares : List Nat) (change : Nat → Nat → State) (i : Nat) : State :=
  match spares with
  | sp :: _ => change lcMove sp
  | [] => change lcDrop i

/-! ### A change takes effect (R281) -/

/-- R281: the transmit map changes when its slot has come. -/
def applyTxMap (s : State) (l : Nat) : State :=
  let x := s.ll l
  match x.cmdTx with
  | some c =>
    if c.eff = some x.txSlot then
      let s1 := s.updLink l fun k => changeTxMap k (applyCmd k.laneMap c)
      let y := noteLane { x with cmdTx := none } c 0
      refreshLevels (s1.setLl l (if (x.reqQ.head?.map (·.id)) = some c.id then endReq y else y)) l
    else s
  | none => s

/-- R281: the receive map changes when its slot has come. -/
def applyRxMap (s : State) (l : Nat) : State :=
  let x := s.ll l
  match x.cmdRx with
  | some c =>
    if c.eff = some x.rxSlot then
      let s1 := s.updLink l fun k => { k with rxMap := applyCmd k.rxMap c }
      let y := noteLane { x with cmdRx := none } c 0
      refreshLevels (s1.setLl l (nextRxCmd (s1.link l) y.cmdQ.length y)) l
    else s
  | none => s

/-! ### The entry to ACTIVE (R229, R239, R271, R282) -/

/-- R302: the first entry to ACTIVE since reset checks the shuffle. -/
def checkShuffle (s : State) (l : Nat) : State :=
  let k := s.link l
  if k.seen then s
  else
    let s1 := s.setLink l { k with seen := true }
    if 2 ≤ sysSize s && k.partner.dev.toNat ≠ shufflePartner (sysSize s) (myDev s) l then
      sendNotice (report { s1 with sys := { s1.sys with shuffle := true } } srcSystem cShuffle l) nShuffle l
    else s1

/-- R282: the commands that a retrain discarded are issued again. -/
def reissueCmds (s : State) (l : Nat) : State :=
  let x := s.ll l
  let y := { x with reqQ := x.redoTx, redoTx := [], redoRx := [] }
  x.redoRx.foldl (fun st c => queueRxCmd st l { c with eff := none }) (s.setLl l (sendReq y))

/-- R239, R271, R274, R298, R302: a link reaches ACTIVE; after a retrain its failures are forgotten. -/
def enterActive (s : State) (l : Nat) : State :=
  let k := s.link l
  let d := k.partner.dev.toNat
  let empty := groupOf s d = []
  let s1 := s.setLink l { clearExchange k with st := .active, kind := none, stage := 0, downReason := 0 }
  let s2 := (s1.setPeer d { s1.peer d with seen := true }).updLl l fun x =>
    if k.kind.isSome then { x with retrainFails := 0 } else { x with redoTx := [], redoRx := [] }
  let s3 := reissueCmds (startSync (checkShuffle (endCondition s2 (srcLink l) cLinkDown) l) l) l
  if empty then sendNotice s3 nGroupRestored l else s3

/-! ### The exchange (R239, R244, R245) -/

/-- R239, R245: an exchange is on: in EXCHANGE, or within a FULL retrain. -/
def inExchange (k : LinkS) : Bool := k.st = .exchange || (k.st = .retrain && k.kind = some .full && k.stage = 2)

/-- R244, R279: both sides run at 40 Gb/s. -/
def ratesUp (s : State) (l : Nat) : Bool := (s.link l).version && (s.link l).pFast && !(s.ll l).rateCap

/-- R239, R245: the exchange is over: ACTIVE, or in a FULL retrain its last stage. -/
def finishExchange (s : State) (l : Nat) : State :=
  if (s.link l).st = .retrain then s.updLink l fun k => { k with stage := 3, rateStep := false } else enterActive s l

/-- R244: once GO has been sent and received the rate step follows, or the exchange is over; it is over after the second
GO. -/
def endExchange (s : State) (l : Nat) : State :=
  let k := s.link l
  if k.goTx && k.goRx then
    if !k.rateStep && ratesUp s l then s.setLink l { k with rateStep := true, goTx := false, goRx := false }
    else finishExchange s l
  else s

/-- R245: a QUICK retrain ends once GO has been sent and received. -/
def endQuick (s : State) (l : Nat) : State :=
  if (s.link l).goTx && (s.link l).goRx then enterActive s l else s

end Sys2Proof.Machine
end

