-- ==== Sys2Proof/Machine/LinkLayer.lean ====
section
/-! DEFINITION. The Oabin link layer: slots, sequence numbers, replay, virtual channels, the pool, resumption, retrain
limits, timers and encryption (10_oabin_link.md). -/

namespace Sys2Proof.Machine

open Sys2Proof

/-! ### What a slot carries (R262 to R264) -/

/-- R243, R246: this side's capability message. -/
def capMessage (s : State) (l : Nat) : BitVec 512 :=
  let k := s.link l
  let x := s.ll l
  let mask := ((List.range 16).map fun i =>
    if 1 ≤ i && (k.lane i).wordLock && (k.lane i).deskewed && !(k.lane i).out then 2 ^ i else 0).sum
  BitVec.ofNat 512 (0x4F42 + 2 ^ 16 * 2 + 2 ^ 24 * (if k.v1Allow then 1 else 2) + 2 ^ 32 * (1 + 2 * bit (!x.rateCap))
    + 2 ^ 40 * x.vcsMax.toNat + 2 ^ 48 * mask + 2 ^ 64 * s.tack.fuses.serial.toNat
    + 2 ^ 128 * (myDev s + 2 ^ 7 * bit s.sys.manager) + 2 ^ 136 * l + 2 ^ 144 * bit (k.msgRx && !k.held)
    + 2 ^ 152 * 2 + 2 ^ 160 * k.seed.toNat + 2 ^ 192 * s.tack.session.toNat + 2 ^ 224 * (3 + 4 * bit x.encEn))

/-- R271: the SYNC payload. -/
def syncPayload (x : LL) : BitVec 512 :=
  BitVec.ofNat 512 (x.oldest + 2 ^ 16 * x.nextRx.toNat + 2 ^ 32 * (bit x.fresh + 2 * bit x.gotPartner)
    + 2 ^ 48 * (4096 - poolUsed x))

/-- What a slot carries. -/
inductive SlotFlit
  | sync | ping | echo
  /-- PURGED before any other sequenced flit (R277). -/
  | purged
  /-- The TAG that closes a group (R285). -/
  | tag
  /-- Item `n` of the queue of VC `v`. -/
  | item (v n : Nat)
  /-- Entry `n` of the relay queue of OE `e` (R297). -/
  | relay (e n : Nat)
  /-- Flit `n` of the replay buffer (R261). -/
  | resend (n : Nat)
  | flow
  deriving DecidableEq, Repr

/-- KEY, TAG and KEY_SWITCH stay plain (R285). -/
def plainMgmt (it : TxItem) : Bool := it.typ = 3 && 5 ≤ mgmtOp it.payload && mgmtOp it.payload ≤ 7

/-- R264, R267, R284: an item of a VC can go now. -/
def itemReady (s : State) (l v : Nat) (it : TxItem) : Bool :=
  let x := s.ll l
  (!encWanted s l || x.encActive || (it.typ = 3 && mgmtOp it.payload = 5)) &&
    (it.typ = 3 || !x.xoffFrom.getLsbD v || x.credits ≠ 0)

def LL.midAt (x : LL) (v : Nat) : Option (Source × ChuteAddr) := tabGet (fun _ => none) x.mid v

/-- R264: the place in its queue of the next item of VC `v`: of the packet in progress, else the first. -/
def nextItem (s : State) (l v : Nat) : Option Nat :=
  let x := s.ll l
  let q := x.txQ v
  let n := match x.midAt v with
    | some p => q.findIdx? fun it => it.pkt = some p
    | none => if q = [] then none else some 0
  match n with
  | some k => match q[k]? with
    | some it => if itemReady s l v it then some k else none
    | none => none
  | none => none

/-- R262: the next VC0 item: CTRL that is held back does not hold MGMT back. -/
def nextVc0 (s : State) (l : Nat) : Option Nat := ((s.ll l).txQ 0).findIdx? fun it => itemReady s l 0 it

/-- R194, R297: the first relayed flit of an OE's queue whose route goes out on the link. None crosses the panel from a
held OE, or to one. -/
def nextRelay (s : State) (l : Nat) : Option (Nat × Nat) :=
  ((List.range 8).filter fun e => e = l / 8 || (!oeWaits s e && !oeWaits s (l / 8))).findSome? fun e =>
    ((tabGet (fun _ => []) s.sys.relay e).findIdx? fun p =>
      decide ((routeGroup s p.1.toNat).head? = some l) && itemReady s l 0 p.2).map fun n => (e, n)

/-- R264: the VC of VC1 to VC7 that has the turn, with its item. -/
def nextVc (s : State) (l : Nat) : Option (Nat × Nat) :=
  (List.range 7).findSome? fun i =>
    let v := ((s.ll l).turn + 6 + i) % 7 + 1
    (nextItem s l v).map fun n => (v, n)

/-- R259, R271: new sequenced flits may be sent. -/
def mayNew (x : LL) : Bool := x.synced && decide (x.replay.length < 1820)

/-- R262, R285: the VC0 flit that waits: PURGED first, a TAG that is due, a queued one, a relayed one, then the TAG of a
group that nothing follows. -/
def vc0Flit (s : State) (l : Nat) : Option SlotFlit :=
  let x := s.ll l
  let item := match nextVc0 s l with
    | some n => some (SlotFlit.item 0 n)
    | none => (nextRelay s l).map fun e => SlotFlit.relay e.1 e.2
  let closes := match nextVc0 s l with
    | some n => match (x.txQ 0)[n]? with
      | some it => decide (it.typ = 3) && mgmtOp it.payload = 7
      | none => false
    | none => false
  if !mayNew x then none
  else if x.purgedDue then (if x.xoffFrom.getLsbD 0 && x.credits = 0 then none else some .purged)
  else if x.openTx ≠ [] && (decide (32 ≤ x.openTx.length) || closes) then some .tag
  else match item with
    | some i => some i
    | none => if x.openTx ≠ [] && (nextVc s l).isNone then some .tag else none

/-- R262, R264, R277: the new flit of VC1 to VC7 that waits; none while PURGED is to go first. -/
def vcFlit (s : State) (l : Nat) : Option (Nat × Nat) :=
  if mayNew (s.ll l) && !(s.ll l).purgedDue then nextVc s l else none

/-- R258, R262 item 3: a FLOW flit is due. ACK_PUB needs one when no new sequenced flit is ready to carry it. -/
def flowNow (s : State) (l : Nat) : Bool :=
  let x := s.ll l
  x.flowDue || (x.ackDue && (vc0Flit s l).isNone && (x.replayPos.isSome || (vcFlit s l).isNone))

/-- R262: the first flit that is due. -/
def chooseFlit (s : State) (l : Nat) : SlotFlit :=
  let x := s.ll l
  if x.syncDue || (x.syncOn && x.txSlot.toNat % 64 = 0) then .sync
  else if x.echoDue.isSome then .echo
  else if x.probeDue then .ping
  else
    let vc0 := if x.lastVc0 && flowNow s l then none else vc0Flit s l
    match vc0 with
    | some c => c
    | none =>
      if flowNow s l then .flow
      else match x.replayPos with
        | some n => if n < x.replay.length then .resend n else .flow
        | none => match vcFlit s l with
          | some e => .item e.1 e.2
          | none => .flow

/-! ### Sending (R252, R259, R264 to R268, R285) -/

/-- R285: the nonce: the salt of a direction, then its count of groups. -/
def nonce (salt : BitVec 32) (count : BitVec 64) : BitVec 96 := salt ++ count

/-- R285: the payload as sent. -/
def wirePayload (x : LL) (it : TxItem) : BitVec 512 :=
  if x.encActive && !plainMgmt it then
    it.payload ^^^ Config.gcmStream x.keyTx (nonce x.saltTx x.grpTx) x.openTx.length
  else it.payload

/-- R264: the packet in progress on a VC after an item of it is sent. -/
def midAfter (x : LL) (v : Nat) (it : TxItem) : LL :=
  if it.typ = 2 && 1 ≤ v then
    match ctrlOp it.payload with
    | 1 => { x with mid := tabSet (fun _ => none) x.mid v it.pkt }
    | 2 => { x with mid := tabSet (fun _ => none) x.mid v none }
    | 3 => { x with mid := tabSet (fun _ => none) x.mid v none }
    | _ => x
  else x

/-- R283: the first operation of a list that a CLOSE or ABORT ends takes its sequence number. -/
def markEnd (p : Source × ChuteAddr) (seq : BitVec 12) : List OpTimer → List OpTimer
  | [] => []
  | o :: t => if o.src = p.1 && o.chute = p.2 && o.closed && o.endSeq.isNone then { o with endSeq := some seq } :: t
              else o :: markEnd p seq t

def endAfter (x : LL) (it : TxItem) : LL :=
  match it.pkt with
  | some p =>
    if it.typ = 2 && (ctrlOp it.payload = 2 || ctrlOp it.payload = 3) then { x with ops := markEnd p x.nextTx x.ops }
        else x
  | none => x

/-- R252, R259, R267, R268: a new sequenced flit sent on VC `v`. -/
def sendNew (s : State) (l v : Nat) (it : TxItem) : State :=
  let x := s.ll l
  let pool := it.typ ≠ 3 && x.xoffFrom.getLsbD v
  let typ := if pool then it.typ.toNat + 8 else it.typ.toNat
  let wire := wirePayload x it
  let f := mkFlit typ v x.nextTx.toNat x.ackPub.toNat wire
  let grouped := x.encActive && !plainMgmt it
  let y := endAfter (midAfter x v it) it
  let z := { y with
    nextTx := x.nextTx + 1, replay := x.replay ++ [f], credits := if pool then x.credits - 1 else x.credits,
    openTx := if grouped then x.openTx ++ [f.setWidth 544] else x.openTx,
    sent := some f, ackDue := false, lastVc0 := decide (v = 0) }
  let w := if it.typ = 3 && mgmtOp it.payload = 7 then
      { z with
        keyTx := (x.keyNextTx.getD (x.keyTx, x.saltTx)).1, saltTx := (x.keyNextTx.getD (x.keyTx, x.saltTx)).2,
        keyNextTx := none } else z
  let s1 := pmuCount (s.setLl l w) (wOe (l / 8)) evLlTx (l % 8) 1
  let s2 := if pool then pmuCount s1 (wOe (l / 8)) evLlPool (l % 8) 1 else s1
  if it.typ = 3 && mgmtOp it.payload = 3 then pmuCount s2 (wOe (l / 8)) evLaneCmds (l % 8) 1 else s2

/-- R285: the TAG payload of the open group. -/
def tagPayload (x : LL) : BitVec 512 :=
  BitVec.ofNat 512 (6 + 2 ^ 16 * (Config.gcmTag x.keyTx (nonce x.saltTx x.grpTx) x.openTx).toNat)

/-- R266, R269: the FLOW payload. -/
def flowPayload (x : LL) : BitVec 512 := BitVec.ofNat 512 (x.xoffTo.toNat + 2 ^ 16 * min x.poolFreed 4096)

/-- An unsequenced flit sent. -/
def sendPlain (s : State) (l typ : Nat) (p : BitVec 512) (f : LL → LL) : State :=
  let x := s.ll l
  s.setLl l (f { x with sent := some (mkFlit typ 0 0 x.ackPub.toNat p), ackDue := false, lastVc0 := false })

/-- An element removed from a list. -/
def dropAt {α : Type} (xs : List α) (n : Nat) : List α := xs.take n ++ xs.drop (n + 1)

/-- R262: the chosen flit sent. A SYNC gives all free pool entries in POOL_FREE, so no FLOW flit returns them again
(R269). -/
def sendSlot (s : State) (l : Nat) (c : SlotFlit) : State :=
  let x := s.ll l
  match c with
  | .sync => sendPlain s l 5 (syncPayload x) fun y => { y with
      syncDue := false, poolFreed := 0 }
  | .ping => sendPlain s l 6 (BitVec.ofNat 512 (1 + 2 ^ 8 * x.probeNo.toNat)) fun y => { y with
      probeDue := false, probeOut := true }
  | .echo => sendPlain s l 6 (BitVec.ofNat 512 (2 + 2 ^ 8 * (x.echoDue.getD 0).toNat)) fun y =>
      { y with echoDue := none }
  | .purged =>
    sendNew (s.setLl l { x with purgedDue := false }) l 0
      { typ := 2, payload := BitVec.ofNat 512 (2 ^ 22 * 7 + 2 ^ 32 * myDev s) }
  | .tag =>
    (sendNew s l 0 { typ := 3, payload := tagPayload x }).updLl l fun y => { y with openTx := [], grpTx := x.grpTx + 1 }
  | .item v n =>
    match (x.txQ v)[n]? with
    | some it => (sendNew s l v it).updLl l fun y => { y.setTxQ v (dropAt (y.txQ v) n) with
        turn := if 1 ≤ v then v % 7 + 1 else y.turn }
    | none => s
  | .relay e n =>
    let q := tabGet (fun _ => []) s.sys.relay e
    match q[n]? with
    | some it =>
      sendNew { s with sys := { s.sys with relay := tabSet (fun _ => []) s.sys.relay e (dropAt q n) } } l 0 it.2
    | none => s
  | .resend n =>
    let s1 := s.setLl l { x with
      sent := x.replay[n]?, lastVc0 := false, replayPos := if n + 1 < x.replay.length then some (n + 1) else none }
    pmuCount s1 (wOe (l / 8)) evLlReplay (l % 8) 1
  | .flow => sendPlain s l 0 (flowPayload x) fun y => { y with flowDue := false, poolFreed := y.poolFreed - 4096 }

/-- R413: the bytes of a CRC that a mask inverts. -/
def crcBytes (m : BitVec 8) : Nat :=
  (List.range 4).foldl (fun v k => v + (if m.getLsbD k then 255 * 256 ^ k else 0)) 0

/-- R413: an armed injection inverts CRC bytes of a sequenced flit as it goes out. -/
def injectCrc (s : State) (l : Nat) : State :=
  match (s.ll l).sent with
  | some f =>
    if flitTyp f ∈ [1, 2, 3, 9, 10] then
      injUse (s.updLl l fun x => { x with
        sent := some (f ^^^ BitVec.ofNat 576 (2 ^ 544 * crcBytes (injMask s (srcLink l) 0))) }) (srcLink l) 0
    else s
  | none => s

/-- R220, R223, R247: a silenced modulator is held at its non-modulating level. -/
def driveLanes (s : State) (l : Nat) (k : LinkS) : LinkS :=
  { k with lastFrame := k.lastFrame.filter fun e => !((s.oe (l / 8)).ring (txRing l e.1)).silenced }

/-- R244: this side's GO is due: messages with ACK have gone both ways, or the rate step is done; not while held. -/
def goDue (k : LinkS) : Bool := !k.goTx && !k.held && (k.rateStep || (k.ackTx && k.ackRx))

/-- R240, R243, R244, R258: one slot of an exchange: the GO block once it is due, else the capability message, which
goes on, scrambled, after GO. -/
def exchangeSlot (s : State) (l : Nat) : State :=
  let k := s.link l
  if goDue k then endExchange (s.setLink l (driveLanes s l (sendGo k))) l
  else
    let f := mkFlit 4 0 0 (s.ll l).ackPub.toNat (capMessage s l)
    let y := { k with ackTx := k.ackTx || (k.msgRx && !k.held) }
    (s.setLink l (driveLanes s l (sendExchange y f))).updLl l fun x => { x with
      sent := some f, ackDue := false, sentEnc := x.encEn }

/-- R240: one frame of the training blocks and the clock. -/
def trainSlot (s : State) (l : Nat) : State := s.updLink l fun k => driveLanes s l (nextTrainFrame k)

/-- R253, R262: one slot of an ACTIVE link. -/
def activeSlot (s : State) (l : Nat) : State :=
  let s1 := applyTxMap s l
  let s2 := injectCrc (sendSlot s1 l (chooseFlit s1 l)) l
  let f := ((s2.ll l).sent).getD 0
  (s2.updLink l fun k => driveLanes s2 l (sendBits k f)).updLl l fun x => { x with txSlot := x.txSlot + 1 }

/-- R244: the link is in the part of a rate step before its second GO. -/
def stepping (k : LinkS) : Bool := k.rateStep && !k.fast

/-- R240, R244, R245: a slot of a retrain: training blocks; a QUICK one's GO once it has been checked; the exchange of a
FULL one, whose flits go on until it is ACTIVE. -/
def retrainSlot (s : State) (l : Nat) : State :=
  let k := s.link l
  if k.kind = some .quick && k.stage = 1 && !k.goTx then endQuick (s.setLink l (driveLanes s l (sendGo k))) l
  else if k.kind = some .full && 2 ≤ k.stage && !stepping k then exchangeSlot s l
  else trainSlot s l

/-- TX_SLOT (R240, R243 to R245, R253, R262): what the transmitter sends next, by the link's state. -/
def execTxSlot (l : LinkId) (s : State) : Host.Outcome State Fault Refusal :=
  .next <|
    let n := l.toNat
    let k := s.link n
    match k.st with
    | .active => activeSlot s n
    | .exchange => if stepping k then trainSlot s n else exchangeSlot s n
    | .retrain => retrainSlot s n
    | .train => trainSlot s n
    | .align => trainSlot s n
    | .hold => trainSlot s n
    | .down => s
    | .detect => s

/-! ### Receiving (R254, R256 to R258, R270) -/


/-- R257: the flits an acknowledgement frees. -/
def freeAcked (x : LL) (ack : Nat) : LL :=
  let n := (ack + 4096 - x.oldest % 4096) % 4096
  if n = 0 || x.replay.length < n then x
  else
    let gone := (x.replay.take n).map fun f => BitVec.ofNat 12 (flitSeq f)
    { x with
      replay := x.replay.drop n,
      replayPos := match x.replayPos with
        | some k => if x.replay.length ≤ n then none else some (k - n)
        | none => none,
      replayCount := 0,
      askedSeq := match x.askedSeq with
        | some q => if q ∈ gone then none else some q
        | none => none,
      ops := x.ops.filter fun o => match o.endSeq with
        | some q => !(gone.contains q)
        | none => true }

/-- R258: ACK_PUB published. -/
def publish (x : LL) : LL :=
  { x with ackPub := ackLimit x, accepted := 0, ackDue := x.ackDue || decide (ackLimit x ≠ x.ackPub) }

/-- R254, R257: the CRC of a flit checked: the state after, and the flit when it is good. -/
def rxCheck (s : State) (l : Nat) (f : Flit) : State × Option Flit :=
  if flitGood f then (s.updLl l fun x => freeAcked x (flitAck f), some f)
  else (pmuCount (s.updLl l fun x => { x with crcErr := satAdd 32 x.crcErr 1 }) (wOe (l / 8)) evLlCrc (l % 8) 1, none)

/-- R253: what arrives in a slot of an ACTIVE link: the state with the slot counted, and the flit. -/
def rxSlotFlit (s : State) (l : Nat) (fl : RxFlit) : State × Flit :=
  let s1 := applyRxMap s l
  let r := rxTake (s1.link l) fl
  ((s1.setLink l r.1).updLl l fun x => { x with rxSlot := x.rxSlot + 1 }, r.2)

/-- R253, R254, R257: a flit arrives in a slot of an ACTIVE link: the state after, and the flit when its CRC is good. -/
def rxArrive (s : State) (l : Nat) (fl : RxFlit) : State × Option Flit :=
  if (s.link l).st ≠ .active then (s, none)
  else rxCheck (rxSlotFlit s l fl).1 l (rxSlotFlit s l fl).2

/-- R254: what a good flit of a type brings once it has arrived. Of one of another type only the slot and the ACK field
count here [67]. -/
def rxOfType (s : State) (l : Nat) (fl : RxFlit) (isType : Flit → Bool) (take : State → Flit → State) : State :=
  let r := rxArrive s l fl
  match r.2 with
  | some f => if isType f then take r.1 f else r.1
  | none => r.1

/-- R150: a PURGED that waits bars further flits. -/
def purgedWaits (x : LL) : Bool := (x.rxQ 0).any fun i => i.typ = 2 && ctrlOp i.payload = 7

/-- R256, R258, R270, R271: a sequenced flit with a good CRC, with room or not. -/
def rxSequenced (s : State) (l : Nat) (f : Flit) (room : Bool) (take : State → State) : State :=
  let x := s.ll l
  let d := (x.nextRx.toNat + 4096 - flitSeq f) % 4096
  if x.syncOn && !x.gotPartner then s
  else if d = 0 then
    if purgedWaits x then s
    else if room then
      let s1 := pmuCount s (wOe (l / 8)) evLlRx (l % 8) 1
      let s2 := take (s1.setLl l { x with nextRx := x.nextRx + 1, accepted := x.accepted + 1 })
      if 32 ≤ (s2.ll l).accepted then s2.updLl l publish else s2
    else
      bucketReport (s.setLl l { x with overrun := satAdd 32 x.overrun 1 }) 2 (srcLink l) cOverrun 0
  else if d ≤ 2048 then s.setLl l { publish { x with dups := satAdd 32 x.dups 1 } with flowDue := true }
  else s

/-- R285: the plain payload of a flit of the open group. -/
def plainPayload (x : LL) (f : Flit) : BitVec 512 :=
  if x.encActive then flitPayload f ^^^ Config.gcmStream x.keyRx (nonce x.saltRx x.grpRx) x.openRx.length
  else flitPayload f

/-- R265, R267: a delivered payload stored in its buffer. -/
def storeRx (s : State) (l v : Nat) (it : RxItem) : State :=
  refreshXoff (s.updLl l fun x => x.setRxQ v (x.rxQ v ++ [it])) l v

/-- R285: a flit joins the open group, or is delivered at once. -/
def takeItem (s : State) (l : Nat) (f : Flit) (it : RxItem) (deliver : State → State) : State :=
  if (s.ll l).encActive then
    refreshXoff (s.updLl l fun x => { x with
      openRx := x.openRx ++ [{ vc := flitVc f, hdr := flitHdr f, wire := flitPayload f, item := it }] }) l (flitVc f)
  else deliver s

/-- R265, R267: room for a DATA or CTRL flit: in its VC's buffer, or in the pool. -/
def hasRoom (x : LL) (v : Nat) (pool : Bool) : Bool :=
  if pool then decide (poolUsed x < 4096) else decide (vcOcc x v < 512)

/-- R256, R265, R267: a DATA or CTRL flit, in its dedicated buffer or the pool. -/
def rxTraffic (s : State) (l : Nat) (fl : RxFlit) (typ : Nat) : State :=
  rxOfType s l fl (fun f => flitTyp f = typ) fun st f =>
    let pool := decide (8 ≤ typ)
    let v := flitVc f
    let x := st.ll l
    let it : RxItem := { typ := BitVec.ofNat 4 (typ % 8), payload := plainPayload x f, pool := pool }
    rxSequenced st l f (hasRoom x v pool) fun q => takeItem q l f it fun y => storeRx y l v it

/-- R256: the flit is the next in order. -/
def nextInSeq (x : LL) (f : Flit) : Bool := x.nextRx.toNat = flitSeq f

/-- R256, R284, R285: a MGMT flit of an operation; `plain` ones (KEY, KEY_SWITCH, TAG) belong to no group. The
operation is looked at once the flit is the next in order. -/
def rxMgmt (s : State) (l : Nat) (fl : RxFlit) (op : Nat) (plain : Bool) (room : State → BitVec 512 → Bool)
    (deliver : State → BitVec 512 → State) : State :=
  rxOfType s l fl (fun f => flitTyp f = 3) fun st f =>
    let p := if plain then flitPayload f else plainPayload (st.ll l) f
    if nextInSeq (st.ll l) f && mgmtOp p ≠ op then st
    else rxSequenced st l f (room st p) fun q =>
      if plain then deliver q p
      else takeItem q l f { typ := 3, payload := p, pool := false } fun y => deliver y p

/-- DATA_FLIT (R256, R265). -/
def execDataFlit (l : LinkId) (fl : RxFlit) (s : State) : Host.Outcome State Fault Refusal :=
  .next <| rxTraffic s l.toNat fl 1

/-- CTRL_FLIT (R256, R265). -/
def execCtrlFlit (l : LinkId) (fl : RxFlit) (s : State) : Host.Outcome State Fault Refusal :=
  .next <| rxTraffic s l.toNat fl 2

/-- DATA_POOL (R267, R268). -/
def execDataPool (l : LinkId) (fl : RxFlit) (s : State) : Host.Outcome State Fault Refusal :=
  .next <| rxTraffic s l.toNat fl 9

/-- CTRL_POOL (R267, R268). -/
def execCtrlPool (l : LinkId) (fl : RxFlit) (s : State) : Host.Outcome State Fault Refusal :=
  .next <| rxTraffic s l.toNat fl 10

/-- R252: a type the table does not name. -/
def reservedType (t : Nat) : Bool := t = 7 || t = 8 || 11 ≤ t

/-- FLIT_RESERVED_TYPE (R252): accepted and acknowledged, its contents discarded. -/
def execFlitReservedType (l : LinkId) (fl : RxFlit) (s : State) : Host.Outcome State Fault Refusal :=
  .next <| rxOfType s l.toNat fl (fun f => reservedType (flitTyp f)) fun st f =>
    rxSequenced st l.toNat f true fun q => report q (srcLink l.toNat) cBadType 0

/-- FLOW_FLIT (R266, R269). -/
def execFlowFlit (l : LinkId) (fl : RxFlit) (s : State) : Host.Outcome State Fault Refusal :=
  .next <| rxOfType s l.toNat fl (fun f => flitTyp f = 0) fun st f =>
    let p := flitPayload f
    st.updLl l.toNat fun x => { x with
      xoffFrom := BitVec.ofNat 8 (payByte p 0),
      credits := BitVec.ofNat 13 (min 4096 (x.credits.toNat + bitsAt p.toNat 16 13)) }

/-! ### Resumption (R271 to R273) -/

/-- R284: the first KEY of an exchange is queued. -/
def startKeys (s : State) (l : Nat) : State :=
  match Config.keyReply [] with
  | some m => s.updLl l fun x => { x.setTxQ 0 (x.txQ 0 ++ [{ typ := 3, payload := BitVec.ofNat 512 (5 + 2 ^ 16 * m.toNat) }]) with
      keyMsgs := [] }
  | none => s.updLl l fun x => { x with keyMsgs := [] }

/-- R284: an unencrypted link refused. -/
def refuseEnc (s : State) (l : Nat) : State := declareDown (report s (srcLink l) cEncRefused 0) l

/-- R261, R265, R271, R273, R284: the SYNC phase ends on this side. -/
def endSync (s : State) (l : Nat) : State :=
  let s1 := s.updLl l fun x => { x with
    syncOn := false, synced := true, fresh := false, syncDue := true, probeDue := true,
    probeNo := x.probeNo + 1, probeOut := false, replayPos := if x.replay = [] then none else some 0 }
  let s2 := refreshLevels s1 l
  if (s2.ll l).encReqNow && !encWanted s2 l then refuseEnc s2 l
  else if encWanted s2 l && !(s2.ll l).encActive then startKeys s2 l
  else s2

/-- R272: what a partner's SYNC brings within the phase. -/
def takeSync (x : LL) (p : BitVec 512) : LL :=
  let base := BitVec.ofNat 12 (bitsAt p.toNat 0 12)
  let pFresh := bitAt p.toNat 32
  let either := x.fresh || pFresh
  let y := if x.gotPartner then x
    else if either then { clearKeys x with nextRx := base, ackPub := base, accepted := 0 }
    else x
  let z := freeAcked y (bitsAt p.toNat 16 12)
  let pools := (z.replay.filter fun f => 8 ≤ flitTyp f).length
  let c := BitVec.ofNat 13 (bitsAt p.toNat 48 13 - pools)
  { z with gotPartner := true, credits := c, creditsSync := c }

/-- SYNC (R271, R272). -/
def execSync (l : LinkId) (fl : RxFlit) (s : State) : Host.Outcome State Fault Refusal :=
  .next <|
    let n := l.toNat
    rxOfType s n fl (fun f => flitTyp f = 5) fun st f =>
      let p := flitPayload f
      if !(st.ll n).syncOn then st.updLl n fun x => { x with syncDue := true }
      else
        let s1 := st.updLl n fun x => takeSync x p
        if bitAt p.toNat 33 then endSync s1 n else s1

/-- R273: a PROBE flit of a kind. -/
def isProbe (f : Flit) (kind : Nat) : Bool := flitTyp f = 6 && payByte (flitPayload f) 0 = kind

/-- PING (R273). -/
def execPing (l : LinkId) (fl : RxFlit) (s : State) : Host.Outcome State Fault Refusal :=
  .next <| rxOfType s l.toNat fl (isProbe · 1) fun st f =>
    st.updLl l.toNat fun x => { x with echoDue := some (BitVec.ofNat 8 (payByte (flitPayload f) 1)) }

/-- R273: LINK_RTT in ns from a measured time in ps: plus one slot, rounded up. -/
def rttOf (ps den : Nat) : Nat := (ps * den + 18432000 + 1000 * den - 1) / (1000 * den)

/-- ECHO (R273): `ps` is the time measured from the PING's slot. -/
def execEcho (l : LinkId) (fl : RxFlit) (ps : Nat) (s : State) : Host.Outcome State Fault Refusal :=
  .next <|
    let n := l.toNat
    rxOfType s n fl (isProbe · 2) fun st f =>
      let den := slotDen (st.link n).laneMap (st.link n)
      if !(st.ll n).probeOut || payByte (flitPayload f) 1 ≠ (st.ll n).probeNo.toNat || den = 0 then st
      else refreshLevels (st.updLl n fun x => setTimerRaised { x with
        probeOut := false, rtt := BitVec.ofNat 16 (min 65535 (rttOf ps den)) }) n

/-- PROBE_TIMEOUT (R273). -/
def execProbeTimeout (l : LinkId) (s : State) : Host.Outcome State Fault Refusal :=
  .next <|
    if (s.ll l.toNat).probeOut && decide ((s.link l.toNat).st = .active) then
      s.updLl l.toNat fun x => { x with probeOut := false, probeDue := true }
    else s

/-! ### Timers (R258, R260, R261, R266, R269, R274, R283) -/

/-- ACK_TIMER (R258). -/
def execAckTimer (l : LinkId) (s : State) : Host.Outcome State Fault Refusal :=
  .next <| s.updLl l.toNat publish

/-- FLOW_FORCE (R266). -/
def execFlowForce (l : LinkId) (s : State) : Host.Outcome State Fault Refusal :=
  .next <| s.updLl l.toNat fun x => { x with flowDue := true }

/-- CREDIT_RETURN_TIMER (R269). -/
def execCreditReturnTimer (l : LinkId) (s : State) : Host.Outcome State Fault Refusal :=
  .next <| s.updLl l.toNat fun x => { x with flowDue := x.flowDue || decide (0 < x.poolFreed) }

/-- REPLAY_TIMER_EXPIRY (R260, R261, R274). -/
def execReplayTimerExpiry (l : LinkId) (s : State) : Host.Outcome State Fault Refusal :=
  .next <|
    let n := l.toNat
    let x := s.ll n
    if (s.link n).st ≠ .active || !x.synced || x.replay = [] then s
    else if x.limitNow.toNat ≤ x.replayCount.toNat then
      let old := BitVec.ofNat 12 x.oldest
      if x.askedSeq = some old then declareDown s n
      else
        (askRetrain (report s (srcLink n) cLinkRetrain 0) n).updLl n fun y => { y with askedSeq := some old }
    else
      bucketReport (s.setLl n { x with
        replayPos := some 0, replayCount := x.replayCount + 1, replays := satAdd 32 x.replays 1 }) 1 (srcLink n)
        cLinkReplay 0

/-- RETRAIN_TIMEOUT (R245, R274): a QUICK retrain falls back to FULL; a FULL one has failed. -/
def execRetrainTimeout (l : LinkId) (s : State) : Host.Outcome State Fault Refusal :=
  .next <|
    let n := l.toNat
    if (s.link n).st ≠ .retrain then s
    else if (s.link n).kind = some .quick then startRetrain s n .full
    else if 2 ≤ (s.ll n).retrainFails.toNat then
      declareDown (s.updLl n fun x => { x with retrainFails := 3 }) n
    else askRetrain (s.updLl n fun x => { x with retrainFails := x.retrainFails + 1 }) n

/-- R283: the function that owns a producer. -/
def sourceOwner (s : State) (src : Source) : Nat :=
  match src.kind.toNat with
  | 0 => match penOfDie s (src.id.toNat / 256) with
    | some p => penOwner s p
    | none => 0
  | 1 => chanOwner s (src.id.toNat % 32)
  | 2 => src.id.toNat % 16
  | _ => 0

/-- OPERATION_TIMEOUT (R283): timer `n` of the link reaches OP_TIMEOUT. A packet forwarded for another device is timed
there. -/
def execOperationTimeout (l : LinkId) (n : Nat) (s : State) : Host.Outcome State Fault Refusal :=
  .next <|
    let k := l.toNat
    match (s.ll k).ops[n]? with
    | some o =>
      if o.fired || o.via || (s.link k).st = .retrain || (s.link k).st = .hold then s
      else
        let s1 := raiseEvent s (sourceOwner s o.src) evUnreachable k o.chute.toNat
        let s2 := s1.updLl k fun x => { x with
          ops := x.ops.set n { o with fired := true }, unreach := satAdd 32 x.unreach 1 }
        bucketReport s2 3 (srcLink k) cUnreachable o.chute.toNat
    | none => s

/-! ### Commands (R277, R278, R284, R288) -/

/-- The results of LINK_LL_CMD. -/
def setLlResult (s : State) (l r : Nat) : State := s.updLl l fun x => { x with cmdResult := BitVec.ofNat 2 r }

/-- R277: a purge command. -/
def llPurge (s : State) (l : Nat) : State :=
  if (s.link l).st = .active || (s.link l).st = .retrain then setLlResult s l 1
  else setLlResult (purgeLink s l) l 0

/-- R278: a disable command. -/
def llDisable (s : State) (l : Nat) : State :=
  if (s.link l).st = .active then setLlResult (s.updLl l fun x => { x with draining := true }) l 0
  else setLlResult s l 1

/-- R284: a rekey command. -/
def llRekey (s : State) (l : Nat) : State :=
  if (s.link l).st = .active && (s.ll l).encActive then setLlResult (startKeys s l) l 0 else setLlResult s l 1

/-- R288: a value written to LINK_LL_CMD. -/
def llCommand (s : State) (l op : Nat) : State :=
  match op with
  | 1 => llPurge s l
  | 2 => llDisable s l
  | 3 => llRekey s l
  | _ => setLlResult s l 2

/-- PURGE (R277). -/
def execPurge (l : LinkId) (s : State) : Host.Outcome State Fault Refusal := .next <| pfAccess s fun st =>
    (llCommand st l.toNat 1).answer .ok

/-- LINK_DISABLE (R278). -/
def execLinkDisable (l : LinkId) (s : State) : Host.Outcome State Fault Refusal := .next <| pfAccess s fun st =>
    (llCommand st l.toNat 2).answer .ok

/-- REKEY (R284). -/
def execRekey (l : LinkId) (s : State) : Host.Outcome State Fault Refusal := .next <| pfAccess s fun st =>
    (llCommand st l.toNat 3).answer .ok

/-- LINK_LL_BAD_OP (R288). -/
def execLinkLlBadOp (l : LinkId) (op : BitVec 4) (s : State) : Host.Outcome State Fault Refusal :=
  .next <| pfAccess s fun st => (llCommand st l.toNat (if 1 ≤ op.toNat && op.toNat ≤ 3 then 0 else op.toNat)).answer .ok

/-- R278: a disabled link leaves service. -/
def disabledDown (s : State) (l : Nat) : State :=
  ((enterDown s l dDisabled).updLink l fun k => { k with enable := false }).updLl l fun x =>
    { x with draining := false }

/-- LINK_DISABLE_COMPLETE (R278). -/
def execLinkDisableComplete (l : LinkId) (s : State) : Host.Outcome State Fault Refusal :=
  .next <|
    if (s.ll l.toNat).draining && decide ((s.link l.toNat).st = .active) && !holdsTraffic s l.toNat then
      disabledDown s l.toNat
    else s

/-- LINK_DRAIN_LIMIT_EXPIRY (R278). -/
def execLinkDrainLimitExpiry (l : LinkId) (s : State) : Host.Outcome State Fault Refusal :=
  .next <| if (s.ll l.toNat).draining then purgeLink (disabledDown s l.toNat) l.toNat else s

/-- R8, R288: a link-layer counter, cleared by the read. -/
def takeCounter (s : State) (l : Nat) (which : LlCounter) : State × Nat :=
  let x := s.ll l
  match which with
  | .replays => (s.setLl l { x with replays := 0 }, x.replays.toNat)
  | .crcErr => (s.setLl l { x with crcErr := 0 }, x.crcErr.toNat)
  | .dups => (s.setLl l { x with dups := 0 }, x.dups.toNat)
  | .overrun => (s.setLl l { x with overrun := 0 }, x.overrun.toNat)
  | .retrains => (s.setLl l { x with retrains := 0 }, x.retrains.toNat)
  | .unreachable => (s.setLl l { x with unreach := 0 }, x.unreach.toNat)

/-- LINK_LL_COUNTER_READ (R8, R288). -/
def execLinkLlCounterRead (l : LinkId) (which : LlCounter) (s : State) : Host.Outcome State Fault Refusal :=
  .next <| pfAccess s fun st => answerRead (takeCounter st l.toNat which)

/-! ### Keys (R284) -/

/-- R284: a KEY message: more messages, keys agreed, or a partner that fails. -/
def takeKey (s : State) (l : Nat) (p : BitVec 512) : State :=
  let msgs := (s.ll l).keyMsgs ++ [p.extractLsb' 16 496]
  let s1 := s.updLl l fun x => { x with keyMsgs := msgs }
  let reply := fun (st : State) => match Config.keyReply msgs with
    | some m => st.updLl l fun x => x.setTxQ 0 (x.txQ 0 ++
        [{ typ := 3, payload := BitVec.ofNat 512 (5 + 2 ^ 16 * m.toNat) }])
    | none => st
  if Config.keyState msgs = 2 then refuseEnc s1 l
  else if Config.keyState msgs = 1 then
    let s2 := reply s1
    let tx := (Config.keyAgreed msgs true, Config.saltAgreed msgs true)
    let rx := (Config.keyAgreed msgs false, Config.saltAgreed msgs false)
    if (s2.ll l).encActive then
      s2.updLl l fun x =>
        let sw : TxItem := { typ := 3, payload := BitVec.ofNat 512 (7 + 2 ^ 8 * (x.keyIdx.toNat + 1)) }
        { x.setTxQ 0 (x.txQ 0 ++ [sw]) with keyMsgs := [], keyNextTx := some tx, keyNextRx := some rx, keyIdx := x.keyIdx + 1 }
    else s2.updLl l fun x => { x with
      encActive := true, keyTx := tx.1, keyRx := rx.1, saltTx := tx.2, saltRx := rx.2, keyMsgs := [] }
  else reply s1

/-- KEY (R284). -/
def execKey (l : LinkId) (fl : RxFlit) (s : State) : Host.Outcome State Fault Refusal :=
  .next <| rxMgmt s l.toNat fl 5 true (fun _ _ => true) fun st p => takeKey st l.toNat p

/-- R284: the new key of the receive direction comes into use. -/
def useNewKey (x : LL) : LL :=
  { x with
    keyRx := (x.keyNextRx.getD (x.keyRx, x.saltRx)).1, saltRx := (x.keyNextRx.getD (x.keyRx, x.saltRx)).2,
    keyNextRx := none, switchRx := false }

/-- R284: the partner's new key applies from the group after its KEY_SWITCH. -/
def switchKeyRx (x : LL) : LL := if x.openRx = [] then useNewKey x else { x with switchRx := true }

/-- KEY_SWITCH (R284). -/
def execKeySwitch (l : LinkId) (fl : RxFlit) (s : State) : Host.Outcome State Fault Refusal :=
  .next <| rxMgmt s l.toNat fl 7 true (fun _ _ => true) fun st _ => st.updLl l.toNat switchKeyRx

end Sys2Proof.Machine
end

