-- ==== Sys2Proof/Machine/OpticsOps.lean ====
section
/-! DEFINITION. What the optical engines share: lasers and their switches, ring searches and mislocks, queued
sparings, the loss of an engine, and what each does to the links (R200 to R224). -/

namespace Sys2Proof.Machine

open Sys2Proof

/-! ### Lasers (R200, R203) -/

/-- The two lasers of a wavelength, and the one the switch passes. -/
def lpOf (i : Nat) : Nat := i
def lsOf (i : Nat) : Nat := 16 + i
def OeS.passed (o : OeS) (i : Nat) : Nat := if o.switchLs.getLsbD i then lsOf i else lpOf i

/-- A wavelength has an ACTIVE laser on the buses. -/
def OeS.lit (o : OeS) (i : Nat) : Bool := (o.laser (o.passed i)).st = .active

def updLaser (s : State) (e n : Nat) (f : Laser → Laser) : State := s.updOe e fun o => o.setLaser n (f (o.laser n))
def updRing (s : State) (e r : Nat) (f : Ring → Ring) : State := s.updOe e fun o => o.setRing r (f (o.ring r))

/-- R200, R216: the switch of a wavelength passes its standby. -/
def passLs (o : OeS) (i : Nat) : OeS := { o with switchLs := o.switchLs ||| BitVec.ofNat 16 (2 ^ i) }

/-- R202, R203: a laser's state in the flash calibration store, where SPENT and FAILED stay. -/
def recordLaser (s : State) (e n : Nat) (st : LaserState) : State :=
  keepCal s fun c => { c with lasers := tabSet (fun _ => .off) c.lasers (32 * e + n) st }

/-- R203: a laser is SPENT or FAILED for good: off, and recorded. -/
def endLaser (s : State) (e n : Nat) (st : LaserState) : State :=
  recordLaser (updLaser s e n fun x => { x with st := st, locked := false, bias := 0 }) e n st

/-- R203, R222: a laser begins to warm at its band's start bias. -/
def warmLaser (o : OeS) (n : Nat) : OeS :=
  o.setLaser n { o.laser n with
    st := .warming, locked := false, bias := (tabGet (fun _ => 0) o.bandLaser (32 * o.band.toNat + n)).setWidth 10 }

/-- R203, R216: the standby of a wavelength begins to warm, unless it warms already or is READY. -/
def warmStandby (o : OeS) (i : Nat) : OeS := if (o.laser (lsOf i)).st = .off then warmLaser o (lsOf i) else o

/-- R216, R224: the standby can take over. -/
def lsAvailable (o : OeS) (i : Nat) : Bool :=
  (o.laser (lsOf i)).st = .off || (o.laser (lsOf i)).st = .ready || (o.laser (lsOf i)).st = .warming

/-! ### Rings (R204 to R209, R220, R221) -/

/-- The wavelength of a ring, whether it is a modulator, and its port. -/
def ringWave (r : Nat) : Nat := r % 16
def ringIsTx (r : Nat) : Bool := r / 16 % 2 = 0
def ringPort (r : Nat) : Nat := r / 32

/-- R222, R384: the start code of a ring. -/
def bandStart (o : OeS) (r : Nat) : Nat :=
  if o.useSave then (tabGet (fun _ => 0) o.saveRing r).toNat
  else (tabGet (fun _ => 0) o.bandRing (256 * o.band.toNat + r)).toNat

/-- R205, R220: a ring's demand and heater set to a code. -/
def setDemand (x : Ring) (code : Nat) : Ring :=
  { x with heater := BitVec.ofNat 16 code, integ := (code : Rat) * 100 / 65535 }

/-- R209: RAIL clears when the heater comes off the rail. -/
def clearRail (s : State) (e r : Nat) : State :=
  if ((s.oe e).ring r).rail then
    endCondition (updRing s e r fun x => { x with rail := false }) (srcRing e r) cRingRail
  else s

/-- R223: every modulator ring of a lit wavelength is LOCKED or FAILED. -/
def ringsSettled (o : OeS) : Bool :=
  (List.range 8).all fun p => (List.range 16).all fun i =>
    !o.lit i || decide ((o.ring (16 * (2 * p) + i)).st = .locked) || decide ((o.ring (16 * (2 * p) + i)).st = .failed)

/-- R223: RINGS ends. -/
def settleRings (s : State) (e : Nat) : State :=
  if (s.oe e).st = .rings && ringsSettled (s.oe e) then s.updOe e fun o => { o with st := .ready } else s

/-- R220: a search has failed. -/
def failSearch (s : State) (e r : Nat) : State :=
  settleRings (report (updRing s e r fun x => { x with st := .failed }) (srcRing e r) cRingFailed
    ((s.oe e).ring r).heater.toNat) e

/-- R220: a ring enters SEARCH for an excluded lock code or none, its modulator silenced. -/
def beginSearch (o : OeS) (r : Nat) (bad : Option Nat) (x : Ring) : Ring :=
  { x with
    st := .search, start := bandStart o r, bad := bad, silenced := x.silenced || ringIsTx r, matches_ := 0,
    mismatches := 0, skip := 0 }

/-- R220: a search begins, excluding a lock code or none. Its first code lies off the rails; above the last code of a
search the search fails at once. -/
def startSearch (s : State) (e r : Nat) (bad : Option Nat) : State :=
  let o := s.oe e
  let first := max 3277 (bandStart o r - 3279)
  let s1 := pmuCount (updRing s e r (beginSearch o r bad)) (wOe e) evRelocks (ringPort r) 1
  if 58982 < first then failSearch s1 e r else clearRail (updRing s1 e r fun x => setDemand x first) e r

/-- R220, R221: the last code of a search: a mislocked λ0 ring searches within 200 GHz of its start code. -/
def searchEnd (x : Ring) (r : Nat) : Nat :=
  if ringWave r = 0 && decide (0 < x.recStep) then min 58982 (x.start + 3279) else 58982

/-- R205, R208, R220: a ring locks at a heater code. -/
def lockRing (x : Ring) (code : Nat) : Ring :=
  { setDemand x code with st := .locked, silenced := false, bad := none, matches_ := 0, mismatches := 0 }

/-- R208: the lock code of a ring whose resonance peak lies at a code: a modulator's lies its LOCK_OFFSET away. -/
def lockCode (o : OeS) (r c : Nat) : Int :=
  c + (if ringIsTx r then (tabGet (fun _ => (0 : BitVec 16)) o.lockOff r).toInt else 0)

/-- R209: a ring whose light is absent freezes. -/
def freezeRing (x : Ring) : Ring := if x.st = .locked then { x with st := .frozen } else x

/-- R209, R216: the modulator rings of a wavelength freeze. -/
def freezeTx (s : State) (e i : Nat) : State :=
  (List.range 8).foldl (fun st p => updRing st e (16 * (2 * p) + i) freezeRing) s

/-- R235: the LANE register of a wavelength, changed. -/
def updLane (s : State) (l i : Nat) (f : Lane → Lane) : State := s.updLink l fun k => k.setLane i (f (k.lane i))

/-- R218, R220: a mislock is declared: step 1, and the lane leaves the ring (step 2). A λ0 ring retrains its link within
which it searches (R221). -/
def declareMislock (s : State) (e r : Nat) : State :=
  let x := (s.oe e).ring r
  let l := 8 * e + ringPort r
  let i := ringWave r
  if 0 < x.recStep then s
  else
    let s1 := report (updRing s e r fun y => { y with
      mislock := true, silenced := y.silenced || ringIsTx r, recStep := 1, bad := some y.heater.toNat,
      recLane := none, movedTo := none, mismatches := 0 }) (srcRing e r) cRingMislock x.heater.toNat
    if i = 0 then
      if (s.link l).st = .active then startRetrain s1 l .full else s1
    else s1

/-- R224: a spare of the transmit fibre to which a sparing or a mislocked ring is moving a lane. -/
def spareClaimed (s : State) (l w : Nat) : Bool :=
  (s.oe (l / 8)).moved.any (fun m => m.port.toNat = l % 8 && decide (m.spare = some w)) ||
    (List.range 16).any fun i => decide (((s.oe (l / 8)).ring (txRing l i)).movedTo = some w)

/-- R215, R216, R220, R224: the idle spares left to a lane of the transmit fibre: of λ14 and λ15, those that carry no
data lane and that none is moving to, are lit, and have a modulator that has not failed. -/
def txSpares (s : State) (l i : Nat) : List Nat :=
  (idleSpares (s.link l).laneMap).filter fun w =>
    14 ≤ w && w ≠ i && !spareClaimed s l w && (s.oe (l / 8)).lit w &&
      decide (((s.oe (l / 8)).ring (txRing l w)).st ≠ .failed)

/-- R220: the same of the receive fibre: those with light that have not failed. -/
def rxSpares (s : State) (l i : Nat) : List Nat :=
  (usableSpares (s.link l)).filter fun w =>
    14 ≤ w && w ≠ i && decide (((s.oe (l / 8)).ring (dropRing l w)).st ≠ .failed) &&
      !(List.range 16).any fun q => decide (((s.oe (l / 8)).ring (dropRing l q)).movedTo = some w)

/-- R216: the sparing in progress has taken the lane of a wavelength off it on a port. -/
def laneLeft (o : OeS) (i p : Nat) : Bool := o.moved.any fun m => m.wave.toNat = i && m.port.toNat = p

/-- R220 step 2, R224: the lane on a mislocked ring moves to the lowest idle spare left, or is dropped. -/
def leaveRing (s : State) (e r : Nat) : State :=
  let l := 8 * e + ringPort r
  let k := s.link l
  let m := if ringIsTx r then k.laneMap else k.rxMap
  let j := roleAt m (ringWave r)
  let change := fun (op w : Nat) => if ringIsTx r then requestLane s l op j w else receiverLane s l op j w
  if 12 < j || k.st ≠ .active || (ringIsTx r && laneLeft (s.oe e) (ringWave r) (ringPort r)) then s
  else
    let spares := if ringIsTx r then txSpares s l (ringWave r) else rxSpares s l (ringWave r)
    let s1 := moveOrDrop spares change (ringWave r)
    updRing s1 e r fun y => { y with recLane := some j, movedTo := spares.head? }

/-- R247: a link with a v1 partner holds the modulator of λ15 at its non-modulating level. -/
def v1Silent (s : State) (e r : Nat) : Bool :=
  let k := s.link (8 * e + ringPort r)
  ringIsTx r && ringWave r = 15 && k.known && !k.version

/-- R220 step 4, R247: the lane comes back. -/
def returnRing (s : State) (e r : Nat) : State :=
  let l := 8 * e + ringPort r
  let x := (s.oe e).ring r
  let s1 := match x.recLane with
    | some j =>
      let op := if x.movedTo.isSome then lcMove else lcAdd
      if ringIsTx r then requestLane s l op j (ringWave r) else receiverLane s l op j (ringWave r)
    | none => s
  updRing s1 e r fun y => { y with recStep := 0, recLane := none, movedTo := none, silenced := v1Silent s e r }

/-- R220: after a search that fails the wavelength is no spare of its fibre. -/
def giveUpRing (s : State) (e r : Nat) : State :=
  let l := 8 * e + ringPort r
  let i := ringWave r
  let out := fun (m : BitVec 64) => if roleAt m i = 13 then setRole m i 15 else m
  (updRing s e r fun y => { y with recStep := 0, recLane := none, movedTo := none }).updLink l fun k =>
    if ringIsTx r then { k with laneMap := out k.laneMap } else { k with rxMap := out k.rxMap }

/-! ### Links of an engine -/

/-- R223: an engine is LOST: a record, and its links go DOWN. -/
def oeLost (s : State) (e : Nat) : State :=
  if (s.oe e).st = .lost then s
  else
    let s1 := report (s.updOe e fun o => { o with st := .lost }) (srcOe e) cOeLost 0
    (List.range 8).foldl (fun st p =>
      if (st.link (8 * e + p)).st = .down then st else enterDown st (8 * e + p) 0) s1

/-- R217, R235: λ0 of an engine has no laser left. -/
def clockGone (s : State) (e : Nat) : State := oeLost (report s (srcOe e) cClockLost 0) e

/-- R235, R239, R248: a link's λ0 light is lost. -/
def holdLink (s : State) (l : Nat) : State :=
  match (s.link l).st with
  | .active => setLinkSt s l .hold
  | .retrain => (setLinkSt s l .hold).updLink l fun k => { k with kind := none }
  | .train => setLinkSt s l .detect
  | .align => setLinkSt s l .detect
  | .exchange => (endHold (setLinkSt s l .detect) l).updLink l clearExchange
  | _ => s

/-! ### Sparings (R214 to R217, R224) -/

/-- R224: a sparing of a wavelength is queued unless it runs or waits already. -/
def queueSparing (s : State) (e i : Nat) : State :=
  let o := s.oe e
  if (o.spStep ≠ 0 && o.spWave.toNat = i) || BitVec.ofNat 4 i ∈ o.spQueue then s
  else s.updOe e fun x => { x with spQueue := x.spQueue ++ [BitVec.ofNat 4 i] }

/-- R216 step 1, R215: the lane of a wavelength moves to the link's lowest idle spare, when it has one. -/
def moveOffWave (s : State) (e i p : Nat) : State :=
  let l := 8 * e + p
  let k := s.link l
  let j := roleAt k.laneMap i
  match txSpares s l i with
  | sp :: _ =>
    if k.st = .active && j < 13 && !laneLeft (s.oe e) i p then
      (requestLane s l lcMove j sp).updOe e fun o => { o with
        moved := o.moved ++ [{ wave := BitVec.ofNat 4 i, port := BitVec.ofNat 3 p, lane := j, spare := some sp }] }
    else s
  | [] => s

/-- R216 step 3: the lane of a wavelength is dropped on a link that could not move it. -/
def dropOffWave (s : State) (e i p : Nat) : State :=
  let l := 8 * e + p
  let k := s.link l
  let j := roleAt k.laneMap i
  if k.st = .active && j < 13 && !laneLeft (s.oe e) i p && txSpares s l i = [] then
    (requestLane s l lcDrop j i).updOe e fun o => { o with
      moved := o.moved ++ [{ wave := BitVec.ofNat 4 i, port := BitVec.ofNat 3 p, lane := j, spare := none }] }
  else s

/-- Ports 0 to 7 in turn. -/
def eachPort (s : State) (f : State → Nat → State) : State := (List.range 8).foldl f s

/-- R216 step 7: every moved lane back, every dropped lane added. -/
def bringBack (s : State) (e i : Nat) : State :=
  let ms := (s.oe e).moved.filter fun m => m.wave.toNat = i
  let s1 := ms.foldl (fun st m =>
    requestLane st (8 * e + m.port.toNat) (if m.spare.isSome then lcMove else lcAdd) m.lane i) s
  s1.updOe e fun o => { o with moved := o.moved.filter fun m => m.wave.toNat ≠ i }

/-- R217: no standby: the lane stays moved or dropped, the failing laser is turned off and spent. λ0 keeps its laser,
which is reported once. -/
def standbySpent (s : State) (e i : Nat) : State :=
  let n := (s.oe e).passed i
  let said := ((s.oe e).laser n).noSpare
  let s1 := if i = 0 then updLaser s e n fun x => { x with noSpare := true }
    else freezeTx (if ((s.oe e).laser n).st = .failed then s else endLaser s e n .spent) e i
  let dropped := (s1.oe e).moved.any fun m => m.wave.toNat = i && m.spare.isNone
  let s2 := s1.updOe e fun o => { o with
    spStep := 0, spWave := BitVec.ofNat 4 i, spResult := if dropped then 2 else 1,
    moved := o.moved.filter fun m => m.wave.toNat ≠ i }
  if said then s2 else report s2 (srcLaser e n) cSpareUsed 0

/-- R216: some ACTIVE link carries a data lane on a wavelength. -/
def carriesLane (s : State) (e i : Nat) : Bool :=
  (List.range 8).any fun p =>
    decide ((s.link (8 * e + p)).st = .active) && decide (roleAt (s.link (8 * e + p)).laneMap i < 13)

/-- R217: no standby for a data wavelength: links without an idle spare drop the lane, and the laser goes off once no
ACTIVE link carries a lane on it: the sparing stands at its only step until then. -/
def noStandby (s : State) (e i : Nat) : State :=
  let s1 := eachPort s fun st p => dropOffWave st e i p
  if carriesLane s1 e i then s1.updOe e fun o => { o with spStep := 1 } else standbySpent s1 e i

/-- R216: a sparing stands at a step. -/
def gotoStep (s : State) (e n : Nat) : State := s.updOe e fun o => { o with spStep := BitVec.ofNat 4 n }

/-- R216 step 2: the standby warms. -/
def warmStep (s : State) (e i : Nat) : State := gotoStep (s.updOe e fun o => warmStandby o i) e 2

/-- R217: λ0 with no standby keeps its laser; with no light the engine is LOST. -/
def clockStandbySpent (s : State) (e : Nat) : State :=
  let s1 := standbySpent s e 0
  if (s1.oe e).lit 0 then s1 else clockGone s1 e

/-- R216 steps 1 and 2, R215, R217: the sparing of a wavelength starts: at step 2 when its laser is already lost, on λ0,
and on a spare that carries no lane. -/
def beginSparing (s : State) (e i : Nat) : State :=
  let o := s.oe e
  let lost := !o.lit i
  let s1 := s.updOe e fun x => { x with
    spQueue := x.spQueue.filter (· ≠ BitVec.ofNat 4 i), spWave := BitVec.ofNat 4 i, spStep := 1, spResult := 0 }
  if i = 0 then if lsAvailable o 0 then warmStep s1 e 0 else clockStandbySpent s1 e
  else
    let s2 := if lost then s1 else eachPort s1 fun st p => moveOffWave st e i p
    if !lsAvailable o i then noStandby s2 e i
    else if lost || (14 ≤ i && !carriesLane s e i) then warmStep s2 e i
    else s2

/-- R216, R224: the first queued sparing starts. -/
def startSparing (s : State) (e : Nat) : State :=
  match (s.oe e).spQueue with
  | [] => s
  | w :: _ => if (s.oe e).spStep ≠ 0 then s else beginSparing s e w.toNat

/-- R215, R224: sparing continues at step 2 after a sudden loss; behind a sparing of another wavelength it waits. -/
def continueSparing (s : State) (e i : Nat) : State :=
  let o := s.oe e
  if o.spStep = 0 then beginSparing s e i
  else if o.spWave.toNat ≠ i then queueSparing s e i
  else if o.spStep = 1 then warmStep s e i
  else s

/-- R215, R216: a wavelength that a sudden loss left out of a link's map is a vacated one again. -/
def lightAgain (s : State) (e i p : Nat) : State :=
  s.updLink (8 * e + p) fun k =>
    if k.st = .active && roleAt k.laneMap i = 15 then { k with laneMap := setRole k.laneMap i 13 } else k

/-- R216 step 4: the switch flips: the failing laser is spent, the standby ACTIVE, the modulator rings frozen. -/
def flipSwitch (s : State) (e i : Nat) : State :=
  let lost := ((s.oe e).laser (lpOf i)).st = .failed
  let s1 := freezeTx (if lost then eachPort s fun st p => lightAgain st e i p else s) e i
  s1.updOe e fun o =>
    let a := o.setLaser (lpOf i) { o.laser (lpOf i) with
      st := if (o.laser (lpOf i)).st = .failed then .failed else .spent, bias := 0, locked := false }
    passLs (a.setLaser (lsOf i) { a.laser (lsOf i) with st := .active }) i

/-- R216 step 8: the lasers' states recorded in flash. -/
def recordLasers (s : State) (e : Nat) : State :=
  keepCal s fun c => { c with
    lasers := (List.range 32).foldl (fun t n => tabSet (fun _ => .off) t (32 * e + n) ((s.oe e).laser n).st) c.lasers }

/-- R216 step 8: the sparing is recorded. -/
def recordSparing (s : State) (e i : Nat) : State :=
  report (recordLasers (s.updOe e fun x => { x with spStep := 8 }) e) (srcLaser e (lpOf i)) cLaserSpared 0

/-- R216, R217: the action that follows a step that is done. `fine` is false when the step failed. -/
def sparingStep (s : State) (e : Nat) (fine : Bool) : State :=
  let o := s.oe e
  let i := o.spWave.toNat
  let own := o.moved.any fun m => m.wave.toNat = i
  match o.spStep.toNat with
  | 1 =>
    if lsAvailable o i then warmStep s e i
    else if fine && carriesLane s e i then s
    else standbySpent s e i
  | 2 =>
    if !fine || (o.laser (lsOf i)).st ≠ .ready then
      let s2 := endLaser s e (lsOf i) .failed
      if i = 0 then clockStandbySpent s2 e else noStandby s2 e i
    else if i = 0 then
      let s1 := eachPort s fun st p =>
        if (st.link (8 * e + p)).st = .active then startRetrain st (8 * e + p) .quick else st
      gotoStep (flipSwitch s1 e 0) e 4
    else if 14 ≤ i && !own && !carriesLane s e i then gotoStep (flipSwitch s e i) e 4
    else gotoStep (eachPort s fun st p => dropOffWave st e i p) e 3
  | 3 => gotoStep (flipSwitch s e i) e 4
  | 4 => if i = 0 || (14 ≤ i && !own) then recordSparing s e i else gotoStep s e 5
  | 5 => if fine then gotoStep s e 6 else recordSparing s e i
  | 6 => if fine then gotoStep (bringBack s e i) e 7 else recordSparing s e i
  | 7 => recordSparing s e i
  | 8 => s.updOe e fun x => { x with spStep := 0, spResult := 0, moved := x.moved.filter fun m => m.wave.toNat ≠ i }
  | _ => s

end Sys2Proof.Machine
end

