-- ==== Sys2Proof/Machine/Mesh.lean ====
section
/-! DEFINITION. The mesh: its edges and modules, the routes its tables give, table switches and packets
(R178 to R183, R187 to R190). -/

namespace Sys2Proof.Machine

open Sys2Proof

/-! ### Switching (R182, R183, R189) -/

/-- Every router of the mesh holds the wanted tables. -/
def switched (s : State) : Bool :=
  (List.range 64).all fun d => !s.pnet.want.held.getLsbD d || (List.range 4).all fun c => tabAt s d c = s.pnet.want

/-- R182, R183, R189: the tack die computes the tables for the mesh as it is and calls for a switch; dies that no path
reaches are to be retired, and a mesh with no root is fatal. -/
def switchTables (s : State) : State :=
  let w := wantBasis s
  if w = s.pnet.want && (s.pnet.switching || switched s) then s
  else
    let s0 := { s with pnet := { s.pnet with want := w } }
    let s1 := { s0 with pnet := { s0.pnet with switching := !switched s0 } }
    if w.root.isNone then enterFailed (report s1 (srcDie 35) cNoRoot 0)
    else w.cutOff.foldl queueRetire s1

/-- R181, R183, R189: a packet that its edge lets move, so that it is in flight. -/
def pktMoves (s : State) (p : MeshPkt) : Bool :=
  match (tabAt s p.here.toNat (clsCode p.cls)).hop p.src.toNat p.dst.toNat p.here.toNat with
  | some n => edgeOpen s p.here.toNat (dirTo p.here.toNat n)
  | none => false

/-- R183: a router's class is empty of packets in flight. -/
def classIdle (s : State) (d : Nat) (c : MeshClass) : Bool :=
  !s.pnet.packets.any fun p => p.here.toNat = d && decide (p.cls = c) && pktMoves s p

/-- ROUTER_TABLE_SWITCH (R183). DESIGN CHOICE [62]: the module that joins the tack die and the host die counts as one
of the mesh, so its retrain delays the switch too. Packets held at a router's FAILED edges start again from it on the
new path (R189). -/
def execRouterTableSwitch (d : Die) (cls : MeshClass) (s : State) : Host.Outcome State Fault Refusal :=
  .next <|
    if s.pnet.switching && s.pnet.want.held.getLsbD d.toNat && classIdle s d.toNat cls &&
        !s.pnet.retraining.any (fun e => decide (e.2 < 8)) then
      let pn := s.pnet
      let s1 := { s with pnet := { pn with
        tabs := tabSet (fun _ => {}) pn.tabs (4 * d.toNat + clsCode cls) pn.want,
        packets := pn.packets.map fun (p : MeshPkt) => if p.here = d && p.cls = cls then { p with src := d } else p } }
      { s1 with pnet := { s1.pnet with switching := !switched s1 } }
    else s

/-! ### Packets (R180, R181) -/

/-- The oldest packet of a class at a die that its table sends to neighbour `n` (R180, R182). -/
def headFor (s : State) (d n : Nat) (c : MeshClass) : Option MeshPkt :=
  s.pnet.packets.find? fun p => decide (p.here.toNat = d) && decide (p.cls = c) &&
    decide ((tabAt s d (clsCode c)).hop p.src.toNat p.dst.toNat d = some n)

/-- R180: a CTL packet waits at a die for the same edge. -/
def ctlFirst (s : State) (d n : Nat) : Bool := (headFor s d n .ctl).isSome

/-- The key of the edge from die `d` to neighbour `n`. -/
def edgeKey (d n : Nat) : Nat := 4 * d + dirTo d n

/-- R180: REQ, RSP and STR take an edge in turn: the place of a class after the one that had it last. -/
def classRank (s : State) (d n c : Nat) : Nat := (c + 5 - (tabGet (fun _ => 0) s.pnet.rr (edgeKey d n)).toNat) % 3

/-- R180: the packet has the edge: it is the oldest of its class there (R181), and no class with priority or an
earlier turn waits. -/
def hasTurn (s : State) (d n : Nat) (p : MeshPkt) : Bool :=
  decide (headFor s d n p.cls = some p) &&
    (decide (p.cls = .ctl) || (!ctlFirst s d n &&
      ([MeshClass.req, .rsp, .str].all fun c =>
        (headFor s d n c).isNone || decide (classRank s d n (clsCode p.cls) ≤ classRank s d n (clsCode c)))))

/-- R181: an edge stripes its packets over its working modules: the one after the module that carried the last. -/
def nextModule (s : State) (d n : Nat) : Nat :=
  let ms := (dirModules (dirTo d n)).filter fun m => moduleUp s (s.siteOf d) m
  let last := (tabGet (fun _ => 0) s.pnet.stripe (edgeKey d n)).toNat
  ((ms.find? fun m => m ≠ last).orElse fun _ => ms.head?).getD 0

/-- R180, R181: the edge has carried a packet of a class: its turn and its module go on. -/
def edgeUsed (s : State) (d n : Nat) (c : MeshClass) : State :=
  { s with pnet := { s.pnet with
    rr := if c = .ctl then s.pnet.rr else tabSet (fun _ => 0) s.pnet.rr (edgeKey d n) (BitVec.ofNat 2 (clsCode c)),
    stripe := tabSet (fun _ => 0) s.pnet.stripe (edgeKey d n) (BitVec.ofNat 5 (nextModule s d n)) } }

/-- A matching packet replaced, or taken out. -/
def editPacket (f : MeshPkt → Bool) (g : MeshPkt → Option MeshPkt) : List MeshPkt → List MeshPkt
  | [] => []
  | p :: ps => if f p then (match g p with | some q => q :: ps | none => ps) else p :: editPacket f g ps

/-- R413, R414: injected errors that a packet meets in the router and the adapters of the die it leaves, which generate
its check bits: each is found by its check, and the adapter sends the flit again. -/
def meshInjected (s : State) (d : Nat) : State :=
  let x := srcDie (s.siteOf d)
  let u := injUse s x 0
  let s1 := if injMask s x 0 ≠ 0 then reportInjected u x cDieRouter 0 false else u
  let v := injUse s1 x 2
  if injMask s1 x 2 ≠ 0 then pmuCount (reportInjected v x cDieAdapter 0 false) d evUcieRetry 0 1 else v

/-- R180, R181: the oldest such packet at a router moves over its edge once it has the turn, and is delivered at its
destination. Until then it stays at the transmitter, whichever of the edge's modules carries it in the end. -/
def forwardPacket (s : State) (f : MeshPkt → Bool) (p : MeshPkt) : State :=
  let d := p.here.toNat
  match (tabAt s d (clsCode p.cls)).hop p.src.toNat p.dst.toNat d with
  | none => s
  | some n =>
    let s1 := edgeUsed s d n p.cls
    if !edgeOpen s d (dirTo d n) || !hasTurn s d n p then s
    else if n = p.dst.toNat then
      ({ s1 with pnet := { s1.pnet with packets := editPacket f (fun _ => none) s1.pnet.packets } }).answer
        (.data (lineBytes p.payload) false)
    else { s1 with pnet := { s1.pnet with
      packets := editPacket f (fun q => some { q with here := BitVec.ofNat 6 n }) s1.pnet.packets } }

/-- R180: the destination has room to reserve for one more packet of a class; how much it has is open [62]. -/
def roomReserved (s : State) (cls : MeshClass) (dst : Die) : Bool :=
  decide ((s.pnet.packets.filter fun p => decide (p.cls = cls) && decide (p.dst = dst)).length
    < Config.meshRoom dst (clsCode cls) + 1)

/-- R180, R183, R193: a die may inject a packet: no tables switch, both numbers are held, its own replacement has not
begun, and the edge that the packet takes works. -/
def mayInject (s : State) (k : MeshPkt) : Bool :=
  let d := k.src.toNat
  let b := tabAt s d (clsCode k.cls)
  !s.pnet.switching && b.held.getLsbD d && b.held.getLsbD k.dst.toNat && !inReplacement s d &&
    (decide (k.src = k.dst) || match b.hop d k.dst.toNat d with
      | some n => edgeOpen s d (dirTo d n)
      | none => false)

/-- R180: a packet with its reservation is injected; one for the die itself is delivered at once. -/
def injectNow (s : State) (k : MeshPkt) : State :=
  let s1 := pmuCount s k.src.toNat (evMeshPkt + clsCode k.cls) 0 1
  if k.src = k.dst then s1.answer (.data (lineBytes k.payload) false)
  else { s1 with pnet := { s1.pnet with packets := s1.pnet.packets ++ [k] } }

/-- R180: a packet whose injection waits for a reservation [62]. -/
def waitInjection (s : State) (k : MeshPkt) : State :=
    { s with pnet := { s.pnet with injWait := s.pnet.injWait ++ [k] } }

/-- R180: an earlier packet of the die and class waits. -/
def injectBehind (s : State) (k : MeshPkt) : Bool :=
  s.pnet.injWait.any fun p => decide (p.src = k.src) && decide (p.cls = k.cls)

/-- R180, R422: a packet given to a die's router: injected, or waiting while the destination has no room [62]. -/
def injectPacket (s : State) (k : MeshPkt) : State :=
  if !mayInject s k then s
  else if injectBehind s k || !roomReserved s k.cls k.dst then waitInjection s k
  else injectNow s k

/-- R180: the packets whose injection waits, offered again in their order. -/
def injectWaiting (s : State) : State :=
  s.pnet.injWait.foldl (fun st k =>
    if mayInject st k && !injectBehind st k && roomReserved st k.cls k.dst then injectNow st k else waitInjection st k)
    { s with pnet := { s.pnet with injWait := [] } }

/-- MESH_PACKET (R180 to R183): the router at a die forwards the oldest such packet it holds, or injects it. -/
def execMeshPacket (at_ : Die) (cls : MeshClass) (dst : Die) (payload : Line) (s : State) :
    Host.Outcome State Fault Refusal :=
  .next <|
    let f := fun (p : MeshPkt) => decide (p.here = at_) && decide (p.cls = cls) && decide (p.dst = dst) &&
      decide (p.payload = payload)
    match s.pnet.packets.find? f with
    | some p => forwardPacket (meshInjected s at_.toNat) f p
    | none => injectPacket s { cls := cls, src := at_, dst := dst, here := at_, payload := payload }

/-! ### Retries, repairs and degradation (R187 to R190, R411) -/

/-- R178: the positions that the site of logical die `d` uses. -/
def modulePlaced (d m : Nat) : Bool :=
  if m < 8 then (meshStep d (moduleDir m)).isSome
  else if m < 16 then (List.range 24).any fun h => hubDie h = d
  else m < 18 && (((List.range 8).any fun e => oeDie e = d) || decide (d ∈ [27, 28, 35, 36]))

/-- R178, R187, R411: a module of a mesh edge, hub or OE that is in use, or the one between the tack and the host die. -/
def moduleUsed (s : State) (p m : Nat) : Bool :=
  !(s.site p).modFailed.getLsbD m &&
    if p = 35 || p = 36 then decide (m = 0)
    else (s.site p).powered &&
      match s.dieAt p with
      | some d => modulePlaced d m && (8 ≤ m || (farEnd s p m).isSome)
      | none => false

/-- ADAPTER_RETRY (R187, R411). -/
def execAdapterRetry (p : Site) (m : Fin 18) (s : State) : Host.Outcome State Fault Refusal :=
  .next <|
    if !moduleUsed s p.val m.val || (p.val, m.val) ∈ s.pnet.retraining then s
    else
      let s1 := match s.dieAt p.val with
        | some d => pmuCount s d evUcieRetry 0 1
        | none => s
      let r := bucketAdd s1 6 (18 * p.val + m.val)
      if r.2 then { r.1 with pnet := { r.1.pnet with retraining := r.1.pnet.retraining ++ [(p.val, m.val)] } } else r.1

/-- R188, R191: a die with a module at half width or FAILED is DEGRADED. -/
def degradeSite (x : SiteS) : SiteS := if x.st = .active then { x with st := .degraded } else x

/-- R188: a module of a site at half width, or FAILED. -/
def markModule (s : State) (p m : Nat) (failed : Bool) : State :=
  let b := BitVec.ofNat 18 (2 ^ m)
  s.updSite p fun x => degradeSite
    (if failed then { x with modFailed := x.modFailed ||| b, modHalf := x.modHalf &&& ~~~b }
     else { x with modHalf := x.modHalf ||| b })

/-- R159, R189: what a hub or an OE makes of a module of its edge die. -/
def attachedModule (s : State) (d m : Nat) (failed : Bool) : State :=
  if 8 ≤ m && m < 16 then
    match (List.range 24).find? fun h => hubDie h = d with
    | some h =>
      let b := BitVec.ofNat 8 (2 ^ (m - 8))
      let s1 := s.updHub h fun x =>
        if failed then { x with modFailed := x.modFailed ||| b, modHalf := x.modHalf &&& ~~~b }
        else { x with modHalf := x.modHalf ||| b }
      if (s1.hub h).modFailed = 0xFF then stackLost s1 h else s1
    | none => s
  else if 16 ≤ m && failed then
    match (List.range 8).find? fun e => oeDie e = d with
    | some e => if (s.site (s.siteOf d)).modFailed.getLsbD 16 && (s.site (s.siteOf d)).modFailed.getLsbD 17 then
        oeLost s e else s
    | none => s
  else s

/-- R188, R189: a module loses half its width or fails, at both its ends: one record. -/
def degradeModule (s : State) (p m : Nat) (failed : Bool) : State :=
  let s1 := markModule s p m failed
  let s2 := match farEnd s p m with
    | some e => markModule s1 e.1 e.2 failed
    | none => s1
  let s3 := report s2 (srcDie p) (if failed then cModuleFailed else cModuleHalf) m
  let s4 := match s.dieAt p with
    | some d => attachedModule s3 d m failed
    | none => s3
  if failed && m < 8 && (s.dieAt p).isSome then switchTables s4 else s4

/-- R187: where the redundant lanes in use of a module's two directions are counted: those it receives, at its own site
and position; those its other end receives, at that end of the mesh, or for a hub or an OE at 18 positions further. -/
def farLanes (s : State) (p m : Nat) : Nat × Nat := (farEnd s p m).getD (p, 18 + m)

/-- Redundant lanes in use in a direction (R187). -/
def lanesUsed (s : State) (p m : Nat) : Nat := (tabGet (fun _ => 0) (s.site p).modReps m).toNat

/-- R187: `n` lanes repaired in a direction: redundant lanes in use, and a report each. -/
def repairLanes (s : State) (p m n : Nat) : State :=
  (List.range n).foldl (fun st _ =>
    bucketReport (st.updSite p fun x => { x with
      repairs := satAdd 8 x.repairs 1,
      modReps := tabSet (fun _ => 0) x.modReps m (tabGet (fun _ => 0) x.modReps m + 1) }) 7 (srcDie p) cLaneRepair
        (m % 18)) s

/-- R394: the ends of module `m` of site `p`, which holds or is to hold logical die `d`, as 18 q + m for unit q: the
die's, the die's across a mesh edge, or the hub's or engine's. -/
def moduleEndsOf (s : State) (p d m : Nat) : List Nat :=
  [18 * p + m] ++
    (if m < 8 then (farEndOf s d m).toList.map fun e => 18 * e.1 + e.2
    else if m < 16 then ((List.range 24).filter fun h => hubDie h = d).map fun h => 18 * (72 + h) + m
    else ((List.range 8).filter fun e => oeDie e = d).map fun e => 18 * (96 + e) + m)

/-- R394: the ends of a module in use. -/
def moduleEnds (s : State) (p m : Nat) : List Nat :=
  match s.dieAt p with
  | some d => moduleEndsOf s p d m
  | none => [18 * p + m] ++ (farEnd s p m).toList.map fun e => 18 * e.1 + e.2

/-- R394: an end of a module takes the margins of its unit's band. -/
def takeMargin (s : State) (k : Nat) : State :=
  { s with pnet := { s.pnet with margins := tabSet (fun _ => 0) s.pnet.margins k (s.unit (k / 18)).band } }

/-- R394: a module trains: both its ends take the margins of their bands. -/
def trainMargins (s : State) (p m : Nat) : State := (moduleEnds s p m).foldl takeMargin s

/-- R394: every module of the units listed trains. -/
def trainUnits (s : State) (qs : List Nat) : State :=
  qs.foldl (fun st q => (List.range 18).foldl (fun t m => takeMargin t (18 * q + m)) st) s

/-- R187, R188: what a training or a retrain of a module in use finds. A fifth repair in a direction makes it half
width, and a fault of a half-width module makes it FAILED. -/
def moduleTrained (s : State) (p m : Nat) (out : ModuleOutcome) : State :=
  match out with
  | .repaired n k =>
    if (s.site p).modHalf.getLsbD m then (if n = 0 && k = 0 then s else degradeModule s p m true)
    else
      let f := farLanes s p m
      let own := min n (4 - lanesUsed s p m)
      let far := min k (4 - lanesUsed s f.1 f.2)
      let s1 := repairLanes (repairLanes s p m own) f.1 f.2 far
      if own = n && far = k then s1 else degradeModule s1 p m false
  | .half => if (s.site p).modHalf.getLsbD m then s else degradeModule s p m false
  | .failed => degradeModule s p m true

/-- MODULE_RETRAIN_DONE (R187, R188, R394). -/
def execModuleRetrainDone (p : Site) (m : Fin 18) (out : ModuleOutcome) (s : State) : Host.Outcome State Fault Refusal :=
  .next <|
    if !((p.val, m.val) ∈ s.pnet.retraining) then s
    else
      moduleTrained (trainMargins { s with pnet := { s.pnet with
        retraining := s.pnet.retraining.filter (· ≠ (p.val, m.val)) } } p.val m.val) p.val m.val out

end Sys2Proof.Machine
end

