-- ==== Sys2Proof/Machine/Optics.lean ====
section
/-! DEFINITION. The commands of the optical engines: lasers, rings, pilots, feed-forward, margins, crosstalk, bands and
their registers (08_optical_engine.md). -/

namespace Sys2Proof.Machine

open Sys2Proof

/-! ### OE_CMD (R214, R220, R224, R225) -/

/-- The results of OE_SPARE_STATUS. -/
def setSpResult (s : State) (e r : Nat) : State := s.updOe e fun o => { o with spResult := BitVec.ofNat 3 r }
def spOk : Nat := 0
def spBadOp : Nat := 3
def spState : Nat := 4

/-- R214, R224: SPARE_LASER: refused while the same laser is in recovery. -/
def cmdSpareLaser (s : State) (e t : Nat) : State :=
  let o := s.oe e
  if 15 < t || (o.spStep ≠ 0 && o.spWave.toNat = t) || BitVec.ofNat 4 t ∈ o.spQueue then setSpResult s e spState
  else setSpResult (queueSparing s e t) e spOk

/-- R220, R224: RELOCK: refused while the ring is in recovery. -/
def cmdRelock (s : State) (e r : Nat) : State :=
  let x := (s.oe e).ring r
  if 0 < x.recStep || x.st = .search then setSpResult s e spState
  else setSpResult (startSearch s e r none) e spOk

/-- R225: a value written to OE_CMD. -/
def oeCommand (s : State) (e op t : Nat) : State :=
  match op with
  | 1 => cmdSpareLaser s e t
  | 2 => cmdRelock s e t
  | _ => setSpResult s e spBadOp

/-- SPARE_LASER (R214, R216). -/
def execSpareLaser (e : Oe) (target : BitVec 8) (s : State) : Host.Outcome State Fault Refusal :=
  .next <| pfAccess s fun st => (oeCommand st e.toNat 1 target.toNat).answer .ok

/-- RELOCK (R220). -/
def execRelock (e : Oe) (target : RingId) (s : State) : Host.Outcome State Fault Refusal :=
  .next <| pfAccess s fun st => (oeCommand st e.toNat 2 target.toNat).answer .ok

/-- OE_BAD_OP (R225). -/
def execOeBadOp (e : Oe) (op : BitVec 4) (s : State) : Host.Outcome State Fault Refusal :=
  .next <| pfAccess s fun st => (oeCommand st e.toNat (if op.toNat = 1 || op.toNat = 2 then 0
    else op.toNat) 0).answer .ok

/-! ### The engine's states (R223) -/

/-- R202, R203: a laser that will not emit again: FAILED, or SPENT. -/
def laserGone (o : OeS) (n : Nat) : Bool := decide ((o.laser n).st = .failed) || decide ((o.laser n).st = .spent)

/-- R223: every wavelength is settled: λ0 has an ACTIVE laser, every other an ACTIVE one or two FAILED. -/
def lasersSettled (o : OeS) : Bool :=
  (List.range 16).all fun i => o.lit i || (0 < i && laserGone o (lpOf i) && laserGone o (lsOf i))

/-- R223: LASERS ends: the modulator rings of every lit wavelength search, and those of the others are silenced. -/
def settleLasers (s : State) (e : Nat) : State :=
  if (s.oe e).st = .lasers && lasersSettled (s.oe e) then
    let s1 := s.updOe e fun o => { o with st := .rings }
    eachPort s1 fun st p => (List.range 16).foldl (fun y i =>
      let r := 16 * (2 * p) + i
      if (y.oe e).lit i then startSearch y e r none else updRing y e r fun x => { x with silenced := true }) st
  else s

/-- R223: the IDLE drop rings with light search. -/
def searchDrops (s : State) (e : Nat) : State :=
  eachPort s fun st p => (List.range 16).foldl (fun y i =>
    let r := dropRing (8 * e + p) i
    if ((y.oe e).ring r).st = .idle && !((y.link (8 * e + p)).lane i).los then startSearch y e r none else y) st

/-! ### Lasers (R201 to R203, R214, R215) -/

/-- R203, R223: a warm-up fails: FAILED; at boot the standby of a primary warms, and a wavelength with neither is
lost. -/
def warmFailed (s : State) (e n : Nat) : State :=
  let i := n % 16
  let s1 := endLaser s e n .failed
  if (s.oe e).st ≠ .lasers then s1
  else if n < 16 && !laserGone (s.oe e) (lsOf i) then s1.updOe e fun o => warmLaser o (lsOf i)
  else if i = 0 then oeLost s1 e
  else settleLasers (report s1 (srcLaser e n) cSpareUsed 0) e

/-- LASER_WARM_DONE (R203, R223): READY; at boot the switch selects it at once. -/
def execLaserWarmDone (e : Oe) (n : LaserId) (s : State) : Host.Outcome State Fault Refusal :=
  .next <|
    let k := e.toNat
    let m := n.toNat
    if ((s.oe k).laser m).st ≠ .warming then s
    else
      let s1 := updLaser s k m fun x => { x with st := .ready, locked := true }
      if (s.oe k).st = .lasers then
        let s2 := updLaser s1 k m fun x => { x with st := .active }
        settleLasers (if m < 16 then s2 else s2.updOe k fun o => passLs o (m - 16)) k
      else s1

/-- LASER_WARM_TIMEOUT (R203, R223). -/
def execLaserWarmTimeout (e : Oe) (n : LaserId) (s : State) : Host.Outcome State Fault Refusal :=
  .next <| if ((s.oe e.toNat).laser n.toNat).st = .warming then warmFailed s e.toNat n.toNat else s


/-- BIAS_LOOP (R202, R214): the bias of an ACTIVE laser, with AGE_WARN at 85 % and a sparing at 95 %. An AGE_WARN that
software clears while BIAS is still at 85 % or more sets again, with another record: DESIGN CHOICE [73]. -/
def execBiasLoop (e : Oe) (n : LaserId) (bias : BitVec 10) (s : State) : Host.Outcome State Fault Refusal :=
  .next <|
    let x := (s.oe e.toNat).laser n.toNat
    if x.st ≠ .active then s
    else
      let b := BitVec.ofNat 10 (min 1000 bias.toNat)
      let warn := 850 ≤ b.toNat && !x.ageWarn
      let s1 := updLaser s e.toNat n.toNat fun y => { y with bias := b, ageWarn := y.ageWarn || warn }
      let s2 := if warn then report s1 (srcLaser e.toNat n.toNat) cAgeWarn 0 else s1
      if 950 ≤ b.toNat && (s.oe e.toNat).autoSpare && !x.noSpare then queueSparing s2 e.toNat (n.toNat % 16) else s2

/-- R215, R244: the links of an engine retrain with a lane map that leaves out a wavelength, whose lane is on the spare
that a sparing had asked for, or on the lowest idle one. -/
def retrainWithout (s : State) (e i p : Nat) : State :=
  let l := 8 * e + p
  let k := s.link l
  let j := roleAt k.laneMap i
  let out := setRole k.laneMap i 15
  if k.st ≠ .active then s
  else if 12 < j then startRetrain (s.setLink l (changeTxMap k out)) l .full
  else
    let mine := ((s.oe e).moved.find? fun q => q.wave.toNat = i && q.port.toNat = p).bind (·.spare)
    let sp := if mine.isSome then mine else (txSpares s l i).head?
    let m := match sp with
      | some w => setRole out w j
      | none => out
    let s1 := (s.setLink l (changeTxMap k m)).updOe e fun o => { o with
      moved := (o.moved.filter fun q => q.wave.toNat ≠ i || q.port.toNat ≠ p) ++
        [{ wave := BitVec.ofNat 4 i, port := BitVec.ofNat 3 p, lane := j, spare := sp }] }
    (startRetrain s1 l .full).updLl l fun x => { x with redoTx := x.redoTx.filter (·.lane.toNat ≠ j) }

/-- R215, R216: a sparing in progress whose new laser is lost ends with its lanes on their spares. -/
def endLostSparing (s : State) (e n : Nat) : State :=
  let o := s.oe e
  if o.spStep ≠ 0 && o.spWave.toNat = n % 16 then
    s.updOe e fun x => { x with spStep := 0, spResult := 1, moved := x.moved.filter fun m => m.wave.toNat ≠ n % 16 }
  else s

/-- R215, R217, R224: an ACTIVE laser is lost; with a standby, sparing continues at step 2. -/
def suddenLoss (s : State) (k m : Nat) : State :=
  let i := m % 16
  if ((s.oe k).laser m).st ≠ .active then s
  else
    let s2 := freezeTx (endLaser s k m .failed) k i
    if i = 0 then
      let s3 := eachPort s2 fun st p => holdLink st (8 * k + p)
      if m < 16 && lsAvailable (s.oe k) 0 then continueSparing s3 k 0
      else clockGone (if ((s.oe k).laser m).noSpare then s3 else report s3 (srcLaser k m) cSpareUsed 0) k
    else
      let s3 := eachPort s2 fun st p => retrainWithout st k i p
      if m < 16 && lsAvailable (s.oe k) i then continueSparing s3 k i
      else report (endLostSparing s3 k m) (srcLaser k m) cSpareUsed 0

/-- SUDDEN_LOSS (R215, R217, R224). -/
def execSuddenLoss (e : Oe) (n : LaserId) (s : State) : Host.Outcome State Fault Refusal :=
  .next <| suddenLoss s e.toNat n.toNat

/-- LASER_LOCK_LOOP (R201, R215): one update of a laser's own heater, and whether its wavelength lies within 5 GHz; an
ACTIVE laser that loses its lock is lost. -/
def execLaserLockLoop (e : Oe) (n : LaserId) (step : Int) (locked : Bool) (s : State) :
    Host.Outcome State Fault Refusal :=
  .next <|
    let x := (s.oe e.toNat).laser n.toNat
    if x.st ≠ .warming && x.st ≠ .ready && x.st ≠ .active then s
    else
      let s1 := updLaser s e.toNat n.toNat fun y => { y with heater := y.heater + step, locked := locked }
      if x.st = .active && x.locked && !locked then suddenLoss s1 e.toNat n.toNat else s1

/-- R224: a link of the engine retrains: the sparing's commands wait. -/
def oeRetraining (s : State) (e : Nat) : Bool := (List.range 8).any fun p => decide ((s.link (8 * e + p)).st = .retrain)

/-- LASER_SPARING_START (R216, R224). -/
def execLaserSparingStart (e : Oe) (s : State) : Host.Outcome State Fault Refusal :=
  .next <| if oeRetraining s e.toNat then s else startSparing s e.toNat

/-- LASER_SPARING_STEP_DONE (R216, R217, R224). -/
def execLaserSparingStepDone (e : Oe) (ok : Bool) (s : State) : Host.Outcome State Fault Refusal :=
  .next <|
    let n := (s.oe e.toNat).spStep.toNat
    if n ∈ [1, 2, 3, 6, 7] && oeRetraining s e.toNat then s else sparingStep s e.toNat ok

/-- R8: 1 clears AGE_WARN. -/
def clearAgeWarn (s : State) (e n : Nat) (v : Reg32) : State :=
  updLaser s e n fun x => { x with ageWarn := x.ageWarn && !v.getLsbD 13 }

/-- OE_LASER_STAT_WRITE (R8). -/
def execOeLaserStatWrite (e : Oe) (n : LaserId) (v : Reg32) (s : State) : Host.Outcome State Fault Refusal :=
  .next <| pfAccess s fun st => (clearAgeWarn st e.toNat n.toNat v).answer .ok

/-! ### Demands and heaters (R205, R206, R208, R211) -/

/-- A signed 16-bit entry in fractions of `2^k`. -/
def fixedPt (w : BitVec 16) (k : Nat) : Rat := (w.toInt : Rat) / 2 ^ k

/-- R206: an entry of the crosstalk matrix: the diagonal of K0 is 1, KL of bank 0 and KR of bank 15 are 0. -/
def xtKey (k b i c : Nat) : Nat := 768 * k + 256 * b + 16 * i + c
def xtEntry (o : OeS) (k b i c : Nat) : BitVec 16 :=
  if b = 0 && i = c then 0x4000
  else if (b = 1 && k = 0) || (b = 2 && k = 15) then 0
  else tabGet (fun _ => 0) o.xt (xtKey k b i c)

/-- R211: the feed-forward term of a bank, in mW. -/
def ffTerm (o : OeS) (k : Nat) : Rat :=
  if o.ffEn then
    -((List.range 25).map fun n => fixedPt (tabGet (fun _ => 0) o.ffGain (25 * k + n)) 12 * (o.slot n).y).sum
  else 0

/-- R206: the demand of a ring, in mW. -/
def demand (o : OeS) (r : Nat) : Rat := (o.ring r).integ + ffTerm o (r / 16)

/-- R206: the heater power of a ring before its limits, in mW. -/
def heaterPower (o : OeS) (r : Nat) : Rat :=
  let k := r / 16
  let i := r % 16
  let row := fun (b k2 : Nat) => ((List.range 16).map fun c =>
    fixedPt (xtEntry o k b i c) 14 * demand o (16 * k2 + c)).sum
  row 0 k + (if k = 0 then 0 else row 1 (k - 1)) + (if k = 15 then 0 else row 2 (k + 1))

/-- R205, R206: the heater code of a power, clamped to 0 to 100 mW. -/
def heaterCode (h : Rat) : BitVec 16 :=
  let x := max 0 (min 100 h) * 65535 / 100
  let n := x.floor.toNat
  BitVec.ofNat 16 (if x = (n : Rat) then n else if Config.roundsUp x then n + 1 else n)

/-- R206, R209: a driven ring's heater follows its demands; RAIL clears off the rail. -/
def driveRing (s : State) (e r : Nat) : State :=
  let h := heaterPower (s.oe e) r
  let s1 := updRing s e r fun x => { x with heater := heaterCode h }
  if decide (0 < h) && decide (h < 100) then clearRail s1 e r else s1

/-- R209, R223: the ring's light is present. -/
def ringLight (s : State) (e r : Nat) : Bool :=
  if ringIsTx r then (s.oe e).lit (ringWave r) else !((s.link (8 * e + ringPort r)).lane (ringWave r)).los

/-- R205, R208: normalised error through the loop gain; a FROZEN ring whose light is back re-acquires (R209), and the
four pilot evaluations that start in the next two windows are discarded (R218). -/
def execRingLoopUpdate (e : Oe) (r : RingId) (err : Rat) (s : State) : Host.Outcome State Fault Refusal :=
  .next <|
    let k := e.toNat
    let n := r.toNat
    match ((s.oe k).ring n).st with
    | .locked =>
      driveRing (updRing s k n fun x => { x with
        integ := x.integ + (((s.oe k).loopKi.toNat : Rat) / 4096) * max (-1) (min 1 err) }) k n
    | .frozen =>
      if ringLight s k n then updRing s k n fun x => { x with st := .locked, matches_ := 0, mismatches := 0, skip := 4 }
      else s
    | _ => s

/-- RING_REACQUIRE_TIMEOUT (R209): the search with no exclusion. -/
def execRingReacquireTimeout (e : Oe) (r : RingId) (s : State) : Host.Outcome State Fault Refusal :=
  .next <|
    if ((s.oe e.toNat).ring r.toNat).st = .frozen && ringLight s e.toNat r.toNat then startSearch s e.toNat r.toNat none
    else s

/-- RING_RELOCK (R209). -/
def execRingRelock (e : Oe) (r : RingId) (s : State) : Host.Outcome State Fault Refusal :=
  .next <|
    let x := (s.oe e.toNat).ring r.toNat
    if x.st = .locked && ringLight s e.toNat r.toNat then
      report (startSearch s e.toNat r.toNat none) (srcRing e.toNat r.toNat) cRingRelock x.heater.toNat
    else s

/-- RING_RAIL (R209). -/
def execRingRail (e : Oe) (r : RingId) (s : State) : Host.Outcome State Fault Refusal :=
  .next <|
    let x := (s.oe e.toNat).ring r.toNat
    if x.st = .locked && !x.rail then
      report (updRing s e.toNat r.toNat fun y =>
        { y with rail := true }) (srcRing e.toNat r.toNat) cRingRail x.heater.toNat
    else s

/-- R220: a search goes on at a code, or fails beyond its end. -/
def searchOn (s : State) (e r code : Nat) : State :=
  if searchEnd ((s.oe e).ring r) r < code then failSearch s e r else updRing s e r fun x => setDemand x code

/-- RING_SEARCH_STEP (R205, R208, R220, R221): one code tested; `centre` is that of the resonance peak. -/
def execRingSearchStep (e : Oe) (r : RingId) (dip : Bool) (centre : BitVec 16) (pilotOk : Bool) (s : State) :
    Host.Outcome State Fault Refusal :=
  .next <|
    let k := e.toNat
    let n := r.toNat
    let x := (s.oe k).ring n
    let c := centre.toNat
    if x.st ≠ .search then s
    else if !dip then searchOn s k n (x.heater.toNat + 66)
    else
      let near := match x.bad with
        | some b => decide (c ≤ b + 1640) && decide (b ≤ c + 1640)
        | none => false
      let lock := lockCode (s.oe k) n c
      if near then searchOn s k n (c + 1640)
      else if 3277 ≤ c && 3277 ≤ lock && lock ≤ 58982 && pilotOk then
        settleRings (endCondition (updRing s k n fun y =>
          { lockRing y lock.toNat with silenced := v1Silent s k n }) (srcRing k n) cRingFailed) k
      else searchOn s k n (c + 1640)

/-- R218: the strongest of the pilots. -/
def strongest (ls : List Int) : Nat :=
  ((List.range 16).foldl (fun b i => if (ls[b]?).getD 0 < (ls[i]?).getD 0 then i else b) 0)

/-- R218: 0 MATCH, 1 MISMATCH, 2 UNSURE, from levels in units of 0.1 dB. -/
def pilotResult (i : Nat) (ls : List Int) : Nat :=
  let own := (ls[i]?).getD 0
  let b := strongest ls
  if (List.range 16).all (fun j => j = i || decide ((ls[j]?).getD 0 + 100 ≤ own)) then 0
  else if b ≠ i && decide (own + 100 ≤ (ls[b]?).getD 0) then 1
  else 2

/-- PILOT_EVALUATION (R218): two MISMATCH results of a LOCKED ring declare a mislock; a searching ring's only show. A
drop ring of a v1 link has no pilots (R247). The evaluations of a FROZEN ring, and those of the two windows after its
light returns, are discarded. -/
def execPilotEvaluation (e : Oe) (r : RingId) (levels : List Int) (s : State) : Host.Outcome State Fault Refusal :=
  .next <|
    let k := e.toNat
    let n := r.toNat
    let x := (s.oe k).ring n
    let l := s.link (8 * k + ringPort n)
    if (x.st ≠ .locked && x.st ≠ .search) || (!ringIsTx n && l.st = .active && !l.version) then s
    else if 0 < x.skip then updRing s k n fun y => { y with skip := y.skip - 1 }
    else
      let res := pilotResult (ringWave n) levels
      let s1 := updRing s k n fun y => { y with
        pilot := BitVec.ofNat 4 (strongest levels), pilotResult := BitVec.ofNat 2 res,
        matches_ := if res = 0 then y.matches_ + 1 else if res = 1 then 0 else y.matches_,
        mismatches := if res = 1 then y.mismatches + 1 else if res = 0 then 0 else y.mismatches }
      if x.st = .locked && 2 ≤ ((s1.oe k).ring n).mismatches then declareMislock s1 k n else s1

/-- MISLOCK_RECOVERY_STEP_DONE (R220). -/
def execMislockRecoveryStepDone (e : Oe) (r : RingId) (s : State) : Host.Outcome State Fault Refusal :=
  .next <|
    let k := e.toNat
    let n := r.toNat
    let x := (s.oe k).ring n
    match x.recStep with
    | 1 => updRing (leaveRing s k n) k n fun y => { y with recStep := 2 }
    | 2 => updRing (startSearch s k n x.bad) k n fun y => { y with recStep := 3 }
    | 3 =>
      if x.st = .locked then returnRing s k n
      else if x.st = .failed then giveUpRing s k n
      else s
    | _ => s

/-- R8: 1 clears MISLOCK. -/
def clearMislock (s : State) (e r : Nat) (v : Reg32) : State :=
  updRing s e r fun x => { x with mislock := x.mislock && !v.getLsbD 21 }

/-- OE_RING_WRITE (R8). -/
def execOeRingWrite (e : Oe) (r : RingId) (v : Reg32) (s : State) : Host.Outcome State Fault Refusal :=
  .next <| pfAccess s fun st => (clearMislock st e.toNat r.toNat v).answer .ok

/-! ### Activity and feed-forward (R17, R210, R211) -/

/-- R210, R211: a slot takes an activity word. -/
def takeWord (x : PSlot) (w : BitVec 16) : PSlot :=
  let seq := w.setWidth 4
  if seq = 0 then { x with p := (bitsAt w.toNat 4 12 : Nat), seq := 0, held := false, silent := false }
  else if x.held then { x with seq := seq }
  else if seq ≠ x.seq + 1 then { x with seq := seq, held := true }
  else { x with p := x.p + (w.extractLsb' 4 12).toInt, seq := seq }

/-- ACTIVITY_WORD (R15, R17, R210, R211): a die whose domain is disabled sends nothing. -/
def execActivityWord (e : Oe) (p : Site) (w : BitVec 16) (s : State) : Host.Outcome State Fault Refusal :=
  .next <|
    match (if (s.site p.val).powered then activitySlot e.toNat p.val else none) with
    | some n =>
      let s1 := s.updOe e.toNat fun o => o.setSlot n (takeWord (o.slot n) w)
      let others := (List.range 25).any fun m => ((s1.oe e.toNat).slot m).silent
      if others then s1 else endCondition s1 (srcOe e.toNat) cSilentDie
    | none => s

/-- R211: one 100 ns step of the filter of a slot. -/
def filterSlot (o : OeS) (n : Nat) : OeS :=
  let tau := (tabGet (fun _ => 0) o.ffTau n).toNat
  let x := o.slot n
  if tau = 0 then o
  else o.setSlot n { x with y := x.y + ((x.p : Rat) / 40 - x.y) / (10 * tau) }

/-- FEED_FORWARD_UPDATE (R209, R211): the filters, then the heaters of the driven rings. -/
def execFeedForwardUpdate (e : Oe) (s : State) : Host.Outcome State Fault Refusal :=
  .next <|
    let s1 := s.updOe e.toNat fun o => (List.range 25).foldl filterSlot o
    ((s.oe e.toNat).rings.filter fun x => x.2.st = .locked || x.2.st = .frozen).foldl
      (fun st x => driveRing st e.toNat x.1) s1

/-- OE_SILENT_DIE (R17): one record per silent die. -/
def execOeSilentDie (e : Oe) (p : Site) (s : State) : Host.Outcome State Fault Refusal :=
  .next <|
    match activitySlot e.toNat p.val with
    | some n =>
      let x := (s.oe e.toNat).slot n
      if x.silent || !(s.site p.val).powered then s
      else report (s.updOe e.toNat fun o => o.setSlot n { x with silent := true, held := true }) (srcOe e.toNat) cSilentDie
        p.val
    | none => s

/-! ### Margins (R213, R214) -/

/-- MARGIN_MEASURE (R213): the NEAR margins, and their report to a v2 partner. -/
def execMarginMeasure (e : Oe) (port : BitVec 3) (margins : List (BitVec 16)) (s : State) :
    Host.Outcome State Fault Refusal :=
  .next <|
    let l := 8 * e.toNat + port.toNat
    let ms := (List.range 16).map fun i => (margins[i]?).getD 0x8000
    let s1 := s.updOe e.toNat fun o => { o with
      near := ms.zipIdx.foldl (fun t x => tabSet (fun _ => 0x8000) t (16 * port.toNat + x.2) x.1) o.near }
    if (s.link l).st = .active && (s.link l).version && (s.link l).pFlags.getLsbD 1 then
      s1.updLl l fun x => queueMgmt x (BitVec.ofNat 512
        (1 + 2 ^ 16 * leNat (ms.flatMap fun m => leBytes m.toNat 2)))
    else s1

/-- R214: a known FAR margin below 1.0 dB, or at 2.0 dB or more. -/
def farLow (m : BitVec 16) : Bool := m ≠ 0x8000 && decide (m.toInt < 10)
def farGood (m : BitVec 16) : Bool := m ≠ 0x8000 && decide (20 ≤ m.toInt)

/-- R213, R214: a partner's margins: FAR, the counts of low reports, and what they trigger. -/
def takeMargins (s : State) (l : Nat) (p : BitVec 512) : State :=
  let e := l / 8
  let port := l % 8
  let far := fun (i : Nat) => BitVec.ofNat 16 (bitsAt p.toNat (16 + 16 * i) 16)
  let data := (List.range 16).filter fun i => roleAt (s.link l).laneMap i < 13
  let s1 := s.updOe e fun o => { o with
    far := (List.range 16).foldl (fun t i => tabSet (fun _ => 0x8000) t (16 * port + i) (far i)) o.far }
  let alone := fun (i : Nat) => farLow (far i) && data.all fun j => j = i || farGood (far j)
  let s2 := data.foldl (fun st i =>
    let n := if alone i then tabGet (fun _ => 0) (st.oe e).lowLane (16 * port + i) + 1 else 0
    let st1 := st.updOe e fun o => { o with lowLane := tabSet (fun _ => 0) o.lowLane (16 * port + i) (if 10 ≤ n then 0 else n) }
    if 10 ≤ n && (st.oe e).autoSpare then queueSparing st1 e i else st1) s1
  let all := decide (data ≠ []) && data.all fun i => farLow (far i)
  let n := if all then tabGet (fun _ => 0) (s2.oe e).lowPort port + 1 else 0
  let s3 := s2.updOe e fun o => { o with lowPort := tabSet (fun _ => 0) o.lowPort port n }
  if n = 10 then report s3 (srcOe e) cFibreMargin port
  else if !all && 10 ≤ tabGet (fun _ => 0) (s.oe e).lowPort port &&
      (List.range 8).all (fun q => q = port || tabGet (fun _ => 0) (s.oe e).lowPort q < 10) then
    endCondition s3 (srcOe e) cFibreMargin
  else s3

/-- MARGIN (R213, R214, R280). -/
def execMargin (l : LinkId) (fl : RxFlit) (s : State) : Host.Outcome State Fault Refusal :=
  .next <| rxMgmt s l.toNat fl 1 false (fun _ _ => true) fun st p => takeMargins st l.toNat p

/-! ### Crosstalk (R207) -/

/-- R207: every ring of a bank and of its neighbours is LOCKED. -/
def bankQuiet (o : OeS) (k : Nat) : Bool :=
  (List.range 16).all fun b => (b + 1 < k || k + 1 < b) ||
    (List.range 16).all fun i => decide ((o.ring (16 * b + i)).st = .locked)

/-- R207: an entry moved by an eighth of a residual above 2^-10; residuals are in units of 2^-14. -/
def refineEntry (o : OeS) (x : XtResidual) : OeS :=
  let k := x.bank.toNat
  let b := x.block.val
  let fixed := (b = 0 && x.row = x.col) || (b = 1 && k = 0) || (b = 2 && k = 15)
  if fixed || !bankQuiet o k || x.residual.natAbs ≤ 16 then o
  else
    let key := xtKey k b x.row.toNat x.col.toNat
    let q : Rat := (x.residual : Rat) / 8
    let step : Int := if (q.floor : Rat) = q then q.floor else if Config.roundsUp q then q.floor + 1 else q.floor
    let v := max (-32768) (min 32767 ((tabGet (fun _ => 0) o.xt key).toInt + step))
    { o with xt := tabSet (fun _ => 0) o.xt key (BitVec.ofInt 16 v) }

/-- XT_REFINE_WINDOW (R207). -/
def execXtRefineWindow (e : Oe) (res : List XtResidual) (s : State) : Host.Outcome State Fault Refusal :=
  .next <| if (s.oe e.toNat).xtEn then s.updOe e.toNat fun o => res.foldl refineEntry o else s

/-- R207: an entry is pending: it differs from its flash value by more than 2^-8. -/
def xtPending (o : OeS) (key : Nat) : Bool :=
  64 < ((tabGet (fun _ => 0) o.xt key).toInt - (tabGet (fun _ => 0) o.xtFlash key).toInt).natAbs

/-- The keys of the entries that either table lists. -/
def xtKeys (o : OeS) : List Nat := ((o.xt.map (·.1)) ++ (o.xtFlash.map (·.1))).dedup

/-- XT_COMMIT (R207): the pending entries go to flash. -/
def execXtCommit (e : Oe) (s : State) : Host.Outcome State Fault Refusal :=
  .next <|
    let o := s.oe e.toNat
    let keys := (xtKeys o).filter (xtPending o)
    let s1 := s.updOe e.toNat fun x => { x with
      xtFlash := keys.foldl (fun t k => tabSet (fun _ => 0) t k (tabGet (fun _ => 0) x.xt k)) x.xtFlash }
    keepCal s1 fun c => { c with
      xt := keys.foldl (fun t k => tabSet (fun _ => 0) t (12288 * e.toNat + k) (tabGet (fun _ => 0) o.xt k)) c.xt }

end Sys2Proof.Machine
end

