-- ==== Sys2Proof/Machine/PanelNet.lean ====
section
/-! DEFINITION. Die replacement: domains, fencing, the steps of a replacement, its commands, capability words
(R17, R185, R186, R191 to R195). -/

namespace Sys2Proof.Machine

open Sys2Proof

/-! ### Domains (R11, R15, R371, R372) -/

/-- R372: the rail adder of a band, and the set point of a compute die's domain. -/
def bandAdder (b : Nat) : Nat := if b ≤ 2 then 0 else if b = 3 then 10 else 20
def setPoint (s : State) (p : Nat) : Nat :=
  if (s.site p).st = .control then 750
  else 550 + (tabGet (fun _ => 0) s.tack.fuses.vtrim p).toNat + bandAdder (s.unit p).band.toNat

def setMv (s : State) (p v : Nat) : State :=
  { s with pwr := { s.pwr with mv := tabSet (fun _ => 0) s.pwr.mv p (BitVec.ofNat 10 v) } }

/-- The domain of a compute-die site enabled or disabled. -/
def powerOn (s : State) (p : Nat) : State := setMv (s.updSite p fun x => { x with powered := true }) p (setPoint s p)
def powerOff (s : State) (p : Nat) : State :=
  clearActivity (setMv (s.updSite p fun x => { x with powered := false }) p 0) p

/-! ### The sparing map (R173, R191, R193) -/

/-- A fence recorded in the sparing map. -/
def recordFence (s : State) (p : Nat) : State :=
  keepCal s fun c => { c with fenced := addNew c.fenced p }

/-- The substitution for a logical die recorded, or the die left with none. -/
def recordSub (s : State) (d : Nat) (spare : Option Nat) : State :=
  let next := fun (xs : List (Nat × Nat)) =>
    (xs.filter fun e => e.1 ≠ d) ++ (match spare with | some q => [(d, q)] | none => [])
  keepCal { s with pnet := { s.pnet with subs := next s.pnet.subs } } fun c => { c with subs := next c.subs }

/-- R396: the channels of a die hold the throttle no more. -/
def dropHolds (s : State) (p : Nat) : State :=
  { s with therm := { s.therm with holds := s.therm.holds.filter fun c => c / 2 ≠ p } }

/-- R191, R396, R399: a site FENCED with its domain disabled. -/
def fenceSite (s : State) (p : Nat) : State :=
  recordFence (dropHolds ((powerOff s p).updSite p fun x => { x with st := .fenced }) p) p

/-- R191: a logical number is EMPTY. Packets in its die's router, and those for it, are gone. -/
def emptyDie (s : State) (d : Nat) : State :=
  let s1 := s.setLmap d { s.lmapAt d with empty := true }
  { s1 with pnet := { s1.pnet with
    packets := s1.pnet.packets.filter fun (m : MeshPkt) => m.here.toNat ≠ d && m.dst.toNat ≠ d,
    injWait := s1.pnet.injWait.filter fun (m : MeshPkt) => m.here.toNat ≠ d && m.dst.toNat ≠ d } }

/-- R191, R347: a die that fails at boot, or whose firmware check fails, is FENCED and is to be replaced. A spare that
holds no number takes no part (R11). -/
def fenceDie (s : State) (p : Nat) : State :=
  match s.dieAt p with
  | some d =>
    let s1 := emptyDie (fenceSite s p) d
    { s1 with pnet := { s1.pnet with queue := addNew s1.pnet.queue (BitVec.ofNat 6 d) } }
  | none => s

/-! ### Choosing a spare (R186, R192) -/

/-- R192: the spares for a column, in order. -/
def spareOrder : Nat → List Nat
  | 0 => [32, 33]
  | 1 => [33, 32, 34]
  | 2 => [33, 34]
  | 3 => [34]
  | 4 => [37]
  | 5 => [38, 37]
  | 6 => [38, 39, 37]
  | _ => [39, 38]

/-- R186: a capability word meets the firmware, and has the fabric numerical set. -/
def capFits (s : State) (cap : BitVec 64) : Bool :=
  decide (bitsAt cap.toNat 32 32 ≤ s.tack.fw.toNat) && (!s.pnet.fabricNum.getLsbD 0 || cap.getLsbD 8)

/-- R186, R192: a spare that may be chosen: SPARE, and eligible by its word once it has sent one. -/
def spareFits (s : State) (q : Nat) : Bool :=
  decide ((s.site q).st = .spare) && (!(s.site q).capKnown || capFits s (s.site q).cap)

/-- R192: the spare chosen next for a replacement. -/
def nextSpare (s : State) (r : Repl) : Option Nat :=
  (spareOrder (r.die.toNat % 8)).find? fun q => !(q ∈ r.tried) && spareFits s q

def setRepl (s : State) (r : Option Repl) : State := { s with pnet := { s.pnet with repl := r } }
def setPnetResult (s : State) (c : Nat) : State := { s with pnet := { s.pnet with result := BitVec.ofNat 4 c } }

/-- R193: the next spare is chosen and recorded, or the replacement ends without one. -/
def chooseSpare (s : State) (r : Repl) (code : Nat) : State :=
  match nextSpare s r with
  | some q =>
    let s1 := recordSub (s.updSite q fun x => { x with st := .activating }) r.die.toNat (some q)
    setRepl s1 (some { r with step := 3, spare := some q })
  | none => setPnetResult (setRepl (recordSub s r.die.toNat none) none) code

/-! ### The steps (R193) -/

/-- R118, R193: a pen's loads end with FAULT, and the pen is FAULTED with the abort actions; one that LOADING took out
of FREE keeps its grant. -/
def faultPen (s : State) (p : Nat) : State :=
  let s1 := s.updPen p fun x => { x with from_ := if x.st = .loading then .faulted else x.from_ }
  penFaulted (abandonLoads s1 p rFault) p

/-- R17, R145, R193 step 1: pens with stalls on the die fault, and chutes stored in its mangers abort. -/
def stopDie (s : State) (d : Nat) : State :=
  let pens := (List.range 64).filter fun p =>
    (s.pen p).granted && (s.pen p).dies.getLsbD d && decide ((s.pen p).st ≠ .free) && decide ((s.pen p).st ≠ .faulted)
  let s1 := s.forAll pens faultPen
  let cs := (s1.chutes.filter fun e => !e.2.stack && e.2.mangerStall / 64 = d && decide (e.2.st ≠ .disabled)).map (·.1)
  s1.forAll cs disableAbort

/-- R17: a UC record of the die for the pen that holds its stalls and runs, unless the die's own UC record stands. The
manual names no cause for it [63]. -/
def retireRecord (s : State) (d : Nat) : State :=
  let src := srcDie (s.siteOf d)
  let runs := (List.range 64).any fun p =>
    (s.pen p).granted && (s.pen p).dies.getLsbD d && decide ((s.pen p).st = .running)
  if runs && !((s.frec src).uncleared && decide (2 ≤ (s.frec src).cls.toNat)) then
    report s src (cDieRouter + Config.retireCause.toNat) 0
  else s

/-- R193 step 1, R183: the replacement of the first queued die begins and its tables are called for. -/
def startReplacement (s : State) (d : Die) (rest : List Die) : State :=
  let r : Repl := { die := d, site := ⟨s.siteOf d.toNat % 72, Nat.mod_lt _ (by decide)⟩, step := 1 }
  let s1 := stopDie (retireRecord { s with pnet := { s.pnet with queue := rest } } d.toNat) d.toNat
  switchTables (setRepl s1 (some r))

/-- R193 step 3: the domain is disabled, the site FENCED, the number EMPTY, and a spare chosen. -/
def leaveSite (s : State) (r : Repl) : State :=
  chooseSpare (emptyDie (fenceSite (endCondition s (srcDie r.site.val) cDieRegulator) r.site.val) r.die.toNat) r 1

/-- R193: a step from 5 to 8 has failed: the spare is FENCED and the next is tried. -/
def spareFails (s : State) (r : Repl) (q : Nat) : State :=
  chooseSpare (fenceSite s q) { r with tried := r.tried ++ [q], spare := none, half := 0 } 3

/-- R178, R188, R193 step 6: the modules at half width after a training that found `half` and repaired the lanes of
`reps`, those received and the other end's: a fifth repair in a direction makes a module half width, and positions that
die `d` does not use stay powered down. -/
def trainedHalf (d : Nat) (half : BitVec 18) (reps : List (Fin 18 × Nat × Nat)) : BitVec 18 :=
  (List.range 18).foldl (fun b m =>
    if modulePlaced d m &&
        (half.getLsbD m || reps.any fun e => decide (e.1.val = m) && (decide (4 < e.2.1) || decide (4 < e.2.2))) then
      b ||| BitVec.ofNat 18 (2 ^ m) else b) 0

/-- R187, R188, R193 step 6: the lanes that the training of module `m` of the spare for die `d` repaired, in a direction
that starts with none in use. -/
def trainSpareLanes (s : State) (q d m n k : Nat) : State :=
  let f := ((if m < 8 then farEndOf s d m else none)).getD (q, 18 + m)
  let s1 := s.updSite f.1 fun x => { x with modReps := tabErase x.modReps f.2 }
  repairLanes (repairLanes s1 q m (min n 4)) f.1 f.2 (min k 4)

/-- R187, R188, R193 step 6, R394: the spare's modules as training leaves them, with the lanes it repaired and the
margins of both ends' bands. -/
def trainSpare (s : State) (q d : Nat) (half : BitVec 18) (reps : List (Fin 18 × Nat × Nat)) : State :=
  let ms := (List.range 18).filter (modulePlaced d)
  let s0 := (ms.flatMap (moduleEndsOf s q d)).foldl takeMargin s
  let s1 := s0.updSite q fun x => { x with modHalf := half, modFailed := 0, modReps := [] }
  let s2 := ms.foldl (fun st m =>
    let e := ((reps.find? fun e => e.1.val = m).map (·.2)).getD (0, 0)
    trainSpareLanes st q d m e.1 e.2) s1
  ((List.range 18).filter fun m => half.getLsbD m).foldl (fun st m => report st (srcDie q) cModuleHalf m) s2

/-- R193 step 8, R175: the die's stalls are new, with wiped mangers. -/
def wipeDie (s : State) (d : Nat) : State :=
  { s with
    stalls := tabClear s.stalls (64 * d) (64 * d + 64),
    manger := tabClear s.manger (mangerKey (64 * d) 0) (mangerKey (64 * d + 64) 0),
    mangerInj := tabClear s.mangerInj (2 ^ 15 * (64 * d)) (2 ^ 15 * (64 * d + 64)),
    sinks := tabClear s.sinks (4 * (64 * d)) (4 * (64 * d + 64)) }

/-- R12, R146, R193 step 10, R433: the spare adopts the number: chutes, chute die registers, doorbell slots and PMU
window at reset values, and the mesh and hub modules as the training left them. -/
def adoptDie (s : State) (r : Repl) (q : Nat) : State :=
  let d := r.die.toNat
  let s1 := s.setLmap d { site := BitVec.ofNat 7 q, empty := false }
  let s2 := { s1 with
    chutes := tabClear s1.chutes (1024 * d) (1024 * d + 1024),
    doorbells := tabClear s1.doorbells (1024 * d) (1024 * d + 1024),
    chuteDies := tabClear s1.chuteDies d (d + 1),
    pmus := tabClear s1.pmus d (d + 1) }
  let s3 := s2.updSite q fun x => { x with st := if r.half = 0 then .active else .degraded }
  let far := fun (st : State) (m : Nat) =>
    match farEnd st q m with
    | some e => st.updSite e.1 fun x =>
        let b := BitVec.ofNat 18 (2 ^ e.2)
        let y := { x with modFailed := x.modFailed &&& ~~~b, modHalf := x.modHalf &&& ~~~b }
        if r.half.getLsbD m then degradeSite { y with modHalf := y.modHalf ||| b } else y
    | none => st
  let s4 := (List.range 8).foldl far s3
  match (List.range 24).find? fun h => hubDie h = d with
  | some h => s4.updHub h fun x => { x with modHalf := (r.half >>> 8).setWidth 8, modFailed := 0 }
  | none => s4

/-- REPLACEMENT_START (R193): one replacement at a time, in the order of the triggers. -/
def execReplacementStart (s : State) : Host.Outcome State Fault Refusal :=
  .next <|
    match s.pnet.repl, s.pnet.queue with
    | none, d :: rest => startReplacement s d rest
    | _, _ => s

/-- R174, R194: at step 10 the requests for the site's stack and OE go out. -/
def releaseSite (s : State) : State := releaseHeld (endWaits s)

/-- R193: the step after the last one completed ends. -/
def replacementStep (s : State) (r : Repl) (pass : Bool) (half : BitVec 18) (reps : List (Fin 18 × Nat × Nat))
    (cap : BitVec 64) : State :=
  let goto := fun (st : State) (n : Nat) => setRepl st (some { r with step := n })
  match r.step, r.spare with
  | 1, _ => if s.pnet.switching then s else goto s 2
  | 2, _ => leaveSite s r
  | 3, some q => if (s.site q).testing then s else goto s 4
  | 4, some q => if pass then goto (powerOn s q) 5 else spareFails s r q
  | 5, some q =>
    let h := trainedHalf r.die.toNat half reps
    if pass then setRepl (trainSpare s q r.die.toNat h reps) (some { r with step := 6, half := h })
    else spareFails s r q
  | 6, some q =>
    let s1 := s.updSite q fun x => { x with cap := cap, capKnown := true, rev := cap.setWidth 4 }
    if pass && capFits s cap then goto s1 7 else spareFails s1 r q
  | 7, some q => if pass then switchTables (goto (wipeDie s r.die.toNat) 8) else spareFails s r q
  | 8, some _ => if s.pnet.switching then s else goto s 9
  | 9, some q => releaseSite (setRepl (adoptDie s r q) (some { r with step := 10 }))
  | 10, some _ => setPnetResult (setRepl s none) 0
  | _, _ => s

/-- REPLACEMENT_STEP_DONE (R193). -/
def execReplacementStepDone (pass : Bool) (half : BitVec 18) (reps : List (Fin 18 × Nat × Nat)) (cap : BitVec 64) (s : State) :
    Host.Outcome State Fault Refusal :=
  .next <|
    match s.pnet.repl with
    | some r => replacementStep s r pass half reps cap
    | none => s

/-! ### Commands and capability words -/

/-- R191, R193, R195: RETIRE of a logical die. -/
def retireCmd (s : State) (d : Nat) : State :=
  let p := s.siteOf d
  if d < 64 && s.held d && (decide ((s.site p).st = .active) || decide ((s.site p).st = .degraded)) then
    setPnetResult (queueRetire s d) 0
  else setPnetResult s 2

/-- R191: READMIT of a site. -/
def readmitCmd (s : State) (p : Nat) : State :=
  if p < 72 && decide ((s.site p).st = .fenced) then
    setPnetResult (s.updSite p fun x => { x with readmit := true }) 0
  else setPnetResult s 2

/-- A value written to PNET_CMD (07 registers). -/
def pnetCommand (s : State) (op target : Nat) : State :=
  match op with
  | 1 => retireCmd s target
  | 2 => readmitCmd s target
  | _ => setPnetResult s 4

/-- RETIRE (R191, R193, R195). -/
def execRetire (target : BitVec 7) (s : State) : Host.Outcome State Fault Refusal :=
  .next <| pfAccess s fun st => (pnetCommand st 1 target.toNat).answer .ok

/-- READMIT (R191): the site returns at the next reset. -/
def execReadmit (target : BitVec 7) (s : State) : Host.Outcome State Fault Refusal :=
  .next <| pfAccess s fun st => (pnetCommand st 2 target.toNat).answer .ok

/-- PNET_BAD_OP (PNET_CMD): 1 and 2 are RETIRE and READMIT. -/
def execPnetBadOp (op : BitVec 4) (s : State) : Host.Outcome State Fault Refusal :=
  .next <| pfAccess s fun st => (pnetCommand st (if op = 1 || op = 2 then 0 else op.toNat) 0).answer .ok

/-- CAPABILITY_WORD (R185, R186, R191): a die that holds a number and whose MIN_FW is not met is FENCED. A spare's
word in a replacement is that of its step 7. -/
def execCapabilityWord (p : Site) (cap : BitVec 64) (s : State) : Host.Outcome State Fault Refusal :=
  .next <|
    let s1 := s.updSite p.val fun x => { x with cap := cap, capKnown := true, rev := cap.setWidth 4 }
    let st := (s.site p.val).st
    if (st = .active || st = .degraded || st = .activating) && decide (s.tack.fw.toNat < bitsAt cap.toNat 32 32) then
        fenceDie s1 p.val
    else s1

end Sys2Proof.Machine
end

