-- ==== Sys2Proof/Machine/Reset.lean ====
section
/-! DEFINITION. The resets and what survives them, the sparing map at a reset, and the stop of a save or a shutdown
(R173, R191, R341 to R343, R378, R397). -/

namespace Sys2Proof.Machine

open Sys2Proof

/-! ### The sparing map at a reset (R173, R191) -/

/-- R191, R173: sites and stacks whose READMIT is pending leave the sparing map; a die back at its own site gives up its
spare. -/
def readmitCal (s : State) (c : Cal) : Cal :=
  let back := fun (p : Nat) => (s.site p).readmit
  { c with
    fenced := c.fenced.filter fun p => !back p,
    subs := c.subs.filter fun e => !back (LmapE.resetAt e.1).site.toNat,
    lostStacks := c.lostStacks.filter fun h => !(s.hub h).readmit }

/-- R12, R191, R195: the sites and numbers as the sparing map has them. A substitution whose spare is FENCED is gone. -/
def applySparing (s : State) : State :=
  let c := s.tack.cal
  let s1 := c.fenced.foldl (fun st p => st.updSite p fun x => { x with st := .fenced }) s
  let s2 := ((List.range 64).filter fun d => (LmapE.resetAt d).site.toNat ∈ c.fenced).foldl
    (fun st d => st.setLmap d { LmapE.resetAt d with empty := true }) s1
  let s3 := (c.subs.filter fun e => !(e.2 ∈ c.fenced)).foldl (fun st e =>
    (st.setLmap e.1 { site := BitVec.ofNat 7 e.2, empty := false }).updSite e.2 fun x =>
      { x with st := .activating }) s2
  { s3 with pnet := { s3.pnet with subs := c.subs } }

/-! ### Resets (R341, R342) -/

/-- R357: the life-cycle state that fuses hold. -/
def lcCode (f : Fuses) : Nat := (([4, 3, 2, 1] : List Nat).find? fun k => bitsAt f.lc.toNat (2 * (k - 1)) 2 = 3).getD 0

/-- R359: the IEEE 1838 chain and core debug are open: in DEPLOYED after DEBUG_UNLOCK, in SCRAPPED never. -/
def debugAccess (f : Fuses) (unlocked : Bool) : Bool :=
  match lcCode f with
  | 2 => unlocked
  | 4 => false
  | _ => true

/-- R359, R363: a TAP instruction that reaches the chain or core debug. -/
def tapReaches (i : TapInstr) : Bool := decide (i = .chain) || decide (i = .coreDebug)

/-- R343, R363, R364: what a reset leaves of the tack die; `keep` says that what survives a warm reset does. -/
def resetTack (s : State) (keep : Bool) (cause : Nat) : Tack :=
  { (({} : Tack)) with
    cause := BitVec.ofNat 6 (2 ^ cause),
    nextSlot := if keep then s.tack.nextSlot else 0,
    everReady := keep && s.tack.everReady,
    debugOpen := keep && s.tack.debugOpen,
    mainGood := s.tack.mainGood,
    session := (Config.freeValue s.free).setWidth 32,
    nonce := (Config.freeValue (s.free + 1)).setWidth 32,
    bootFrom := s.time,
    tap := if tapReaches s.tack.tap && !debugAccess s.tack.fuses (keep && s.tack.debugOpen) then .bypass
      else s.tack.tap,
    fuses := s.tack.fuses, cal := s.tack.cal, logDue := s.tack.logDue }

/-- R348: a device again in the mode in which the controller starts. -/
def spiStart (d : SpiDev) : SpiDev := { d with mode := .s1 }

/-- R2, R341, R342, R371: the device after a reset but for the sparing map, with the limit that its fuses hold; fuses,
flash, MRAM and host memory are untouched, and over a warm reset the host die stays on. -/
def resetAll (s : State) (keep : Bool) (cause : Nat) : State :=
  { State.reset with
    pending := s.pending, free := s.free + 2, resp := s.resp,
    pins := { s.pins with saveDone := false },
    hostMem := s.hostMem, flash := s.flash, mram := s.mram, spi0 := spiStart s.spi0, spi1 := spiStart s.spi1,
    time := if keep then s.time else 0,
    tack := resetTack s keep cause,
    sys := { (({} : SysS)) with manager := keep && s.sys.manager, roleSet := keep && s.sys.roleSet },
    pnet := if keep && (s.site 36).powered then
      { (({} : Pnet)) with sites := [(36, { SiteS.resetAt 36 with powered := true })] } else {},
    host := if keep then { s.host with devState := 0, memActive := false, denied := 0, fns := [], dmas := [] } else {},
    pwr := { (({} : Pwr)) with
      mv := if keep && (s.site 36).powered then [(36, 750)] else [],
      limit := BitVec.ofNat 11 (pwrCap s), saveRes := s.pwr.saveRes, saveReason := s.pwr.saveReason,
      energy := if keep then s.pwr.energy else 0, energyRem := if keep then s.pwr.energyRem else 0 },
    therm := { (({} : Therm)) with shutdown := keep && s.therm.shutdown },
    flt := { (({} : Flt)) with hbSeen := keep && s.flt.hbSeen, hbLost := keep && s.flt.hbLost } }

/-- R2, R173, R191, R341, R342: the device after a reset. -/
def resetDevice (s : State) (keep : Bool) (cause : Nat) : State := keepCal (resetAll s keep cause) (readmitCal s)

/-- TACK_RESET_CAUSE bits (R366). -/
def causeCold : Nat := 0
def causeWarm : Nat := 1
def causePerst : Nat := 2
def causeLc : Nat := 3
def causeSave : Nat := 4
def causeDebug : Nat := 5

/-- R341, R345: a warm reset; boot begins at step 1. A device shut down for heat stays off (R397). -/
def warmReset (s : State) (cause : Nat) : State :=
  if s.therm.shutdown then s
  else
    let s1 := resetDevice s true cause
    { s1 with tack := { s1.tack with step := 1 } }

/-! ### The stop of a save or a shutdown (R17, R378, R397) -/

/-- R17, R378, R397: all work ends and every domain but the tack die's is disabled, the host die's with its link. What
the tack die holds stays. -/
def haltDevice (s : State) : State :=
  { State.reset with
    pending := s.pending, time := s.time, free := s.free, resp := s.resp, pins := s.pins,
    hostMem := s.hostMem, flash := s.flash, mram := s.mram, spi0 := s.spi0, spi1 := s.spi1, sys := s.sys,
    tack := { s.tack with readyNow := false, flashCmd := none, secBusy := false, secWait := none },
    pwr := { s.pwr with mv := [], lp := 0 }, therm := s.therm,
    flt := { s.flt with test := none } }

/-- The device runs: it neither saves nor holds after a save, and heat has not shut it down. -/
def deviceUp (s : State) : Bool := s.pwr.saving = 0 && !s.tack.hold && !s.therm.shutdown

end Sys2Proof.Machine
end

