-- ==== Sys2Proof/Machine/Save.lean ====
section
/-! DEFINITION. Fault records as bytes, the save record, and what boot makes of it (R358, R380 to R384, R405, R410). -/

namespace Sys2Proof.Machine

open Sys2Proof

/-! ### Fault records (R405, R410) -/

/-- R405: the FLAGS byte. -/
def FRec.flags (r : FRec) : Nat :=
  r.cls.toNat + 4 * bit (decide (r.conds ≠ [])) + 8 * bit r.escalated + 16 * bit r.injected + 32 * bit r.collide
    + 64 * bit r.valid + 128 * bit r.acked

/-- R405: the 64 bytes of a record, as a number. -/
def FRec.toLine (r : FRec) : Line :=
  BitVec.ofNat 512 (r.source.toNat + 2 ^ 16 * r.cause.toNat + 2 ^ 32 * r.flags + 2 ^ 40 * r.first.toNat
    + 2 ^ 48 * r.count.toNat + 2 ^ 64 * r.time.toNat + 2 ^ 128 * r.harness.toNat + 2 ^ 192 * r.addr.toNat
    + 2 ^ 256 * r.lastTime.toNat + 2 ^ 320 * (r.pen.toNat + 64 * bit r.penValid) + 2 ^ 336 * r.lastCause.toNat
    + 2 ^ 352 * r.token.toNat)

/-- R410: a log entry, and the log, newest first. -/
def logEntry (s : State) (h : Nat) : FRec := tabGet (fun _ => {}) s.flt.log (h % 512)
def logLines (s : State) : List Line :=
  (List.range (min 512 s.flt.head.toNat)).map fun i => (logEntry s (s.flt.head.toNat - 1 - i)).toLine

/-- R409, R410: the uncleared records, FE first, then UC, then CE, in ascending source number. -/
def unclearedRecords (s : State) : List FRec :=
  [3, 2, 1].flatMap fun c => (s.flt.recs.map (·.2)).filter fun r => r.uncleared && r.cls.toNat = c

/-- R410: the records a save adds to the log entries. -/
def recordLines (s : State) : List Line :=
  ((unclearedRecords s).take (711 - min 512 s.flt.head.toNat)).map FRec.toLine

/-! ### The values of a record (R382) -/

def siteCode : SiteState → Nat
  | .spare => 0
  | .activating => 1
  | .active => 2
  | .degraded => 3
  | .retiring => 4
  | .fenced => 5
  | .control => 7

def hubCode : HubState → Nat
  | .init => 0
  | .online => 1
  | .lost => 2
  | .excluded => 3

/-- R357: the life-cycle state in force. -/
def lcState (s : State) : Nat :=
  lcCode s.tack.fuses

/-- R207, R383: the pending crosstalk entries of an engine, up to 256. -/
def pendingXt (o : OeS) : List Nat := ((xtKeys o).filter (xtPending o)).take 256
def savedXt (o : OeS) (k : Nat) : Nat := k + 2 ^ 16 * (tabGet (fun _ => 0) o.xt k).toNat

/-- The OE part of a record. -/
def saveOe (s : State) (e : Nat) : List (Nat × Nat × Nat) :=
  let o := s.oe e
  let ks := pendingXt o
  [(0x18 + 2 * e, 2, ks.length)]
    ++ ((List.range 32).map fun n => (0xA0 + 32 * e + n, 1, laserCode (o.laser n).st))
    ++ ((List.range 32).flatMap fun n =>
      [(0x200 + 8 * (32 * e + n), 4, (tabGet (fun _ => 0) s.tack.cal.hours (32 * e + n)).toNat),
       (0x204 + 8 * (32 * e + n), 2, (o.laser n).bias.toNat)])
    ++ ((List.range 256).map fun r => (0x1200 + 2 * (256 * e + r), 2, (o.ring r).heater.toNat))
    ++ ((List.range 128).flatMap fun x =>
      let y := (s.link (8 * e + x / 16)).lane (x % 16)
      [(0x2200 + 384 * e + 3 * x, 1, y.tap1.toNat), (0x2201 + 384 * e + 3 * x, 1, y.tap2.toNat),
       (0x2202 + 384 * e + 3 * x, 1, y.tap3.toNat)])
    ++ (ks.zipIdx.map fun k => (0x2E00 + 1024 * e + 4 * k.2, 4, savedXt o k.1))

/-- R382: the shadow of a save record: offset, bytes and value of each field whose value is not 0, the fault entries,
the sequence, the reason and the CRC apart. -/
def saveValues (s : State) : List (Nat × Nat × Nat) :=
  let head := [(0x0, 4, 0x53565245), (0x9, 1, lcState s), (0xC, 4, s.tack.fw.toNat), (0x10, 8, s.time.toNat)]
  let sites := (List.range 72).map fun p => (0x40 + p, 1, siteCode (s.site p).st)
  let hubs := (List.range 24).flatMap fun h =>
    [(0x88 + h, 1, hubCode (s.hub h).st), (0x1000 + 8 * h, 4, (s.hub h).ce.toNat),
      (0x1004 + 8 * h, 4, (s.hub h).uc.toNat)]
  let links := (List.range 64).flatMap fun l =>
    let x := s.ll l
    let b := 0xA00 + 24 * l
    [(b, 4, x.replays.toNat), (b + 4, 4, x.crcErr.toNat), (b + 8, 4, x.dups.toNat), (b + 12, 4, x.overrun.toNat),
     (b + 16, 4, x.retrains.toNat), (b + 20, 4, x.unreach.toNat)]
  (head ++ sites ++ hubs ++ links ++ (List.range 8).flatMap (saveOe s)).filter fun f => f.2.2 ≠ 0

/-! ### MRAM (R381) -/

def commitWord : Nat := 0x5A5AA5A5
def mramSlot (i : Nat) : Nat := 0x1000 + 0x10000 * i

/-- Bytes of MRAM as a number, and a number written. -/
def mramNat (s : State) (a n : Nat) : Nat := memNat s.mram a n
def mramPut (s : State) (a n v : Nat) : State := { s with mram := memStore s.mram a (leBytes v n) }

/-- R382: the CRC of the record in a slot. -/
def recordCrc (s : State) (b : Nat) : BitVec 32 :=
  let n := mramNat s (b + 0x28) 2 + mramNat s (b + 0x2A) 2
  let body := memBytes s.mram b 0x2C ++ [0, 0, 0, 0] ++ memBytes s.mram (b + 0x30) (0x4E00 - 0x30)
  crc32 (body ++ memBytes s.mram (b + 0x4E00) (64 * n))

/-- R381: a slot is valid. -/
def slotValid (s : State) (i : Nat) : Bool :=
  let b := mramSlot i
  decide (mramNat s (b + 0xFFFC) 4 = commitWord) && decide ((recordCrc s b).toNat = mramNat s (b + 0x2C) 4)

def slotSeq (s : State) (i : Nat) : Nat := mramNat s (mramSlot i + 4) 4

/-- R381: the newest valid record's slot. -/
def newestSlot (s : State) : Option Nat :=
  match slotValid s 0, slotValid s 1 with
  | true, true => some (if slotSeq s 0 < slotSeq s 1 then 1 else 0)
  | true, false => some 0
  | false, true => some 1
  | false, false => none

/-- R381: the slot a save writes, and the sequence it gives. -/
def saveSlot (s : State) : Nat := if newestSlot s = some 0 then 1 else 0
def nextSeq (s : State) : Nat := ((newestSlot s).map fun i => (slotSeq s i + 1) % 2 ^ 32).getD 1

/-- A slot of MRAM erased. -/
def clearSlot (s : State) (i : Nat) : State :=
  { s with mram := tabClear s.mram (mramSlot i) (mramSlot i + 0x10000) }

/-- R378 steps 3 and 4, R382: the record written from the shadow, the log and the uncleared records. -/
def writeSave (s : State) : State :=
  let i := saveSlot s
  let b := mramSlot i
  let logs := logLines s
  let recs := recordLines s
  let fields := s.pwr.shadow ++ [(0x4, 4, nextSeq s), (0x8, 1, s.pwr.sagReason.toNat), (0x28, 2, logs.length),
    (0x2A, 2, recs.length)]
  let s1 := fields.foldl (fun st f => mramPut st (b + f.1) f.2.1 f.2.2) (clearSlot s i)
  let s2 := (logs ++ recs).zipIdx.foldl (fun st e => mramPut st (b + 0x4E00 + 64 * e.2) 64 e.1.toNat) s1
  let s3 := mramPut s2 (b + 0x2C) 4 (recordCrc s2 b).toNat
  mramPut s3 (b + 0xFFFC) 4 commitWord

/-! ### A record applied at boot (R384) -/

/-- R384 item 1: the sparing map, laser states and hours and pending crosstalk entries of a record go into the flash
calibration store. -/
def mergeRecord1 (s : State) (b : Nat) (c : Cal) : Cal :=
  let byte := fun (a : Nat) => mramNat s (b + a) 1
  let fenced := ((List.range 72).filter fun p => byte (0x40 + p) = 5).foldl addNew c.fenced
  let lost := ((List.range 24).filter fun h => byte (0x88 + h) = 2 || byte (0x88 + h) = 3).foldl addNew c.lostStacks
  let lasers := (List.range 256).foldl (fun t n => tabSet (fun _ => .off) t n (laserOf (byte (0xA0 + n)))) c.lasers
  let hours := (List.range 256).foldl
    (fun t n => tabSet (fun _ => 0) t n (BitVec.ofNat 32 (mramNat s (b + 0x200 + 8 * n) 4))) c.hours
  let xt := (List.range 8).foldl (fun t e =>
    (List.range (min 256 (mramNat s (b + 0x18 + 2 * e) 2))).foldl (fun u k =>
      let v := mramNat s (b + 0x2E00 + 1024 * e + 4 * k) 4
      tabSet (fun _ => 0) u (12288 * e + v % 2 ^ 14) (BitVec.ofNat 16 (v / 2 ^ 16))) t) c.xt
  { c with fenced := fenced, lostStacks := lost, lasers := lasers, hours := hours, xt := xt }

/-- R384 item 2, R233: the heater codes and equaliser sets of a record in place of the band tables. -/
def startsFrom (s : State) (b e : Nat) (o : OeS) : OeS :=
  { o with
    useSave := true,
    saveRing := (List.range 256).foldl (fun t r =>
      tabSet (fun _ => 0) t r (BitVec.ofNat 16 (mramNat s (b + 0x1200 + 2 * (256 * e + r)) 2))) [],
    saveEq := (List.range 384).foldl (fun t k =>
      tabSet (fun _ => 0) t k (BitVec.ofNat 8 (mramNat s (b + 0x2200 + 384 * e + k) 1))) [] }

/-- R384, R410: the newest valid record applied when its SEQUENCE exceeds CONSUMED_SEQ. -/
def applySave (s : State) : State :=
  match newestSlot s with
  | none => s
  | some i =>
    let b := mramSlot i
    let seq := slotSeq s i
    let s0 := { s with pwr := { s.pwr with saveSeq := BitVec.ofNat 32 seq } }
    if seq ≤ mramNat s 8 4 then s0
    else
      let logs := min 512 (mramNat s (b + 0x28) 2)
      let n := min 711 (logs + mramNat s (b + 0x2A) 2)
      let kept := keepCal s0 (mergeRecord1 s0 b)
      let s1 := { kept with
        pwr := { s0.pwr with applied := true },
        flt := { s0.flt with
          prev := (List.range n).map fun k => BitVec.ofNat 512 (mramNat s (b + 0x4E00 + 64 * k) 64), prevLog := logs } }
      mramPut ((List.range 8).foldl (fun st e => st.updOe e (startsFrom s b e)) s1) 8 4 seq

/-- R358: the MRAM header holds the fused state; a save record of another state is wiped. -/
def checkMramState (s : State) : State :=
  if mramNat s 4 1 = lcState s then s
  else mramPut (mramPut (clearSlot (clearSlot s 0) 1) 0 4 0x4D484452) 4 1 (lcState s)

end Sys2Proof.Machine
end

