-- ==== Sys2Proof/Machine/Power.lean ====
section
/-! DEFINITION. Rails, regulator domains, the package limit and the save (R368 to R387). -/

namespace Sys2Proof.Machine

open Sys2Proof

/-! ### Levels and limits (R2, R374 to R377) -/

/-- R376: the applied level. -/
def appliedLevel (s : State) : Nat := max s.pwr.lp.toNat s.therm.lt.toNat

/-- P1, the average of the last millisecond's P10, in mW. -/
def avgOf (xs : List Nat) : Nat := if xs = [] then 0 else xs.sum / xs.length

/-- R375: L_P after an evaluation; P1 is compared exactly, as the sum of the averages. -/
def nextLp (lp limit p10 : Nat) (xs : List Nat) (sinceRise : Nat) : Nat :=
  if 11 * limit * 1000 ≤ 10 * p10 then min 56 (lp + 8)
  else if limit * 1000 * xs.length < xs.sum then min 56 (lp + 1)
  else if 100 * xs.sum < 97 * limit * 1000 * xs.length && 10 ≤ sinceRise then lp - 1
  else lp

/-- POWER_EVALUATION (R375, R377, R387): P10 in mW and the rails in mV as measured. -/
def execPowerEvaluation (p10 : Nat) (mainMv holdMv auxMv : BitVec 16) (s : State) : Host.Outcome State Fault Refusal :=
  .next <|
    let w := s.pwr
    let limit := w.limit.toNat
    let xs := (p10 :: w.p10s).take 100
    let lp := nextLp w.lp.toNat limit p10 xs (w.sinceRise + 1)
    let above := lp = 56 && limit * 1000 * xs.length < xs.sum
    let nj := w.energyRem + 10 * p10
    let s1 := { s with pwr := { w with
      p10s := xs, lp := BitVec.ofNat 6 lp, sinceRise := if w.lp.toNat < lp then 0 else w.sinceRise + 1,
      at56 := if above then w.at56 + 1 else 0,
      pkgW := BitVec.ofNat 11 (min 2047 (avgOf xs / 1000)),
      mainMv := mainMv, holdMv := holdMv, auxMv := auxMv,
      energy := w.energy + BitVec.ofNat 64 (nj / 10 ^ 9), energyRem := nj % 10 ^ 9 } }
    if w.overRaised && xs.sum < limit * 1000 * xs.length then
      endCondition { s1 with pwr := { s1.pwr with overRaised := false } } srcPower cOverLimit
    else s1

/-- PWR_OVER_LIMIT (R377): 10 ms, a thousand evaluations, at 56 with P1 above LIMIT. -/
def execPwrOverLimit (s : State) : Host.Outcome State Fault Refusal :=
  .next <|
    if 1000 ≤ s.pwr.at56 && !s.pwr.overRaised then
      report { s with pwr := { s.pwr with overRaised := true } } srcPower cOverLimit 0
    else s

/-- R374: a value written to PWR_LIMIT. -/
def writeLimit (s : State) (v : Reg32) : State :=
  { s with pwr := { s.pwr with limit := BitVec.ofNat 11 (clampLimit s (bitsAt v.toNat 0 11)) } }

/-- PWR_LIMIT_WRITE (R374). -/
def execPwrLimitWrite (v : Reg32) (s : State) : Host.Outcome State Fault Refusal := .next <| pfAccess s fun s =>
    (writeLimit s v).answer .ok

/-! ### Domains (R373, R196) -/

/-- R17, R337, R402: the host die is lost: fatal to a manager. -/
def hostDieLost (s : State) : State :=
  let s1 := report { s with host := {} } (srcDie 36) cHostDieLost 0
  if s.sys.manager then enterFailed s1 else s1

/-- R191, R373: a compute die's domain fails: disabled, and a retire trigger. -/
def dieDomainFails (s : State) (p : Nat) : State :=
  let s1 := report s (srcDie p) cDieRegulator 0
  match s.dieAt p with
  | some d => queueRetire (powerOff (stopDie s1 d) p) d
  | none => powerOff s1 p

/-- The laser die of an engine has no power: no laser emits, so λ0 is lost (R196, R217). -/
def laserDieFails (s : State) (e : Nat) : State :=
  clockGone (s.updOe e fun o => (List.range 32).foldl (fun y n =>
    let x := y.laser n
    if x.st = .spent || x.st = .failed then y else y.setLaser n { x with st := .off, bias := 0, locked := false }) o) e

/-- REGULATOR_OUT_OF_RANGE (R373): the domain of unit `q` is disabled, with what R196 gives for its loss. -/
def execRegulatorOutOfRange (q : Fin 112) (s : State) : Host.Outcome State Fault Refusal :=
  .next <|
    let n := q.val
    if n = 35 then enterFailed (report s (srcDie 35) cTackInternal 0)
    else if n = 36 then hostDieLost (powerOff s 36)
    else if n < 72 then (if (s.site n).powered then dieDomainFails s n else s)
    else if n < 96 then stackLost (s.updHub (n - 72) fun x => { x with powered := false }) (n - 72)
    else if n < 104 then oeLost (s.updOe (n - 96) fun x => { x with powered := false }) (n - 96)
    else laserDieFails (s.updOe (n - 104) fun x => { x with laserOn := false }) (n - 104)

/-! ### PV_MAIN, the sag and the save (R369, R378 to R380, R385, R386) -/

/-- PV_MAIN_GOOD (R369, R346, R370): PV_HOLD charges from PV_MAIN. -/
def execPvMainGood (s : State) : Host.Outcome State Fault Refusal :=
  .next <|
    { s with
      pins := { s.pins with pwrOk := true, holdOff := false },
      tack := { s.tack with mainGood := true,
                            bootFrom := if s.tack.step = 3 && !s.tack.mainGood then s.time else s.tack.bootFrom } }

/-- R380: the shadow brought up to date. -/
def refreshShadow (s : State) : State := { s with pwr := { s.pwr with shadow := saveValues s } }

/-- SAVE_SHADOW_REFRESH (R380): in service. -/
def execSaveShadowRefresh (s : State) : Host.Outcome State Fault Refusal :=
  .next <| if deviceUp s && 3 ≤ s.tack.step.toNat then refreshShadow s else s

/-- R343, R378 step 5: SAVE_DONE asserted, and the hold. -/
def holdAfterSave (s : State) (res : Nat) (done : Bool) : State :=
  { s with
    pwr := { s.pwr with saving := 5, saveRes := BitVec.ofNat 2 res, saveReason := s.pwr.sagReason },
    pins := { s.pins with saveDone := done },
    tack := { s.tack with hold := true } }

/-- R369, R438: PV_MAIN (0), PWR_OK (1) or PV_AUX (2) is gone. -/
def supplyLost (s : State) (reason : BitVec 2) : State :=
  { s with
    pins := { s.pins with pwrOk := s.pins.pwrOk && reason ≠ 1, auxOff := s.pins.auxOff || reason = 2 },
    tack := { s.tack with mainGood := s.tack.mainGood && reason ≠ 0 && reason ≠ 1 } }

/-- SUPPLY_SAG (R378 steps 1 and 2, R386): before the end of boot step 2 the save is skipped; a second event starts no
save. Nothing runs in a cold reset (R342). -/
def execSupplySag (reason : BitVec 2) (s : State) : Host.Outcome State Fault Refusal :=
  .next <|
    if reason = 3 then s
    else if s.pwr.saving ≠ 0 || s.tack.hold || s.tack.step = 0 then supplyLost s reason
    else
      let h := supplyLost (haltDevice s) reason
      let s1 := { h with pwr := { h.pwr with saving := 2, sagReason := reason, sagAt := s.time } }
      if s.tack.step.toNat < 3 then holdAfterSave s1 3 true else s1

/-- R379, R385, R386: the save ends with no commit word in the slot being written; the older record stands. -/
def saveFails (s : State) : State := holdAfterSave (mramPut s (mramSlot (saveSlot s) + 0xFFFC) 4 0) 2 false

/-- SAVE_COMPLETE (R378 steps 3 to 5): with PV_HOLD below 7.0 V no commit word is written (R386). -/
def execSaveComplete (s : State) : Host.Outcome State Fault Refusal :=
  .next <|
    if s.pwr.saving = 2 && s.pins.holdOff then saveFails s
    else if s.pwr.saving = 2 then
      holdAfterSave { writeSave s with pwr := { s.pwr with saveSeq := BitVec.ofNat 32 (nextSeq s) } } 1 true
    else s

/-- PV_HOLD_EXHAUSTED (R379, R385, R386, R438): the slot being written has no commit word; the older record stands. With
PV_AUX off too, SAVE_DONE is asserted no longer. -/
def execPvHoldExhausted (s : State) : Host.Outcome State Fault Refusal :=
  .next <|
    let s1 := { s with pins := { s.pins with holdOff := true, saveDone := s.pins.saveDone && !s.pins.auxOff } }
    if s1.pwr.saving = 2 then saveFails s1 else s1

/-- R343, R345: a cold reset, with boot begun at step 1. -/
def coldBoot (s : State) : State :=
  let s1 := resetDevice s false causeCold
  { s1 with tack := { s1.tack with step := 1 } }

/-- SAVE_HOLD_EXIT (R341, R343): PWR_OK high and PV_MAIN good. A cold reset that came during the save acts now (R441). -/
def execSaveHoldExit (s : State) : Host.Outcome State Fault Refusal :=
  .next <|
    if s.tack.hold && s.tack.mainGood && s.pins.pwrOk && s.pins.coldResetN then
      if s.tack.coldDue then coldBoot s else warmReset s causeSave
    else s

end Sys2Proof.Machine
end

