-- ==== Sys2Proof/Machine/Thermal.lean ====
section
/-! DEFINITION. The thermal monitor's scan: channels, cross-checks, unit temperatures, bands, throttle level, shutdown
(R388 to R399), and the band of an engine (R222). Temperatures are in units of 0.125 °C. -/

namespace Sys2Proof.Machine

open Sys2Proof

/-! ### Channels and neighbours (R388 to R390) -/

def setSensor (s : State) (c : Nat) (x : Sensor) : State :=
  { s with therm := { s.therm with chans := tabSet (fun _ => {}) s.therm.chans c x } }
def setUnit (s : State) (q : Nat) (x : UnitT) : State :=
  { s with therm := { s.therm with units := tabSet (fun _ => {}) s.therm.units q x } }

/-- R371, R389: the domain of a unit is enabled; the tack die's always is. -/
def unitPowered (s : State) (q : Nat) : Bool :=
  if q = 35 then true
  else if q < 72 then (s.site q).powered
  else if q < 96 then (s.hub (q - 72)).powered
  else if q < 104 then (s.oe (q - 96)).powered
  else (s.oe (q - 104)).laserOn

/-- The unit of a diode or stack channel. -/
def chanUnit (c : Nat) : Nat := if c < 224 then c / 2 else 72 + (c - 230)

/-- R389: a channel that the scan reads. -/
def chanOn (s : State) (c : Nat) : Bool :=
  if 224 ≤ c && c < 230 then s.therm.pinEn.getLsbD (c - 224) else unitPowered s (chanUnit c)

/-- R390: sites within one site. -/
def nearSites (p q : Nat) : Bool :=
  p / 8 ≤ q / 8 + 1 && q / 8 ≤ p / 8 + 1 && p % 8 ≤ q % 8 + 1 && q % 8 ≤ p % 8 + 1

def diodesOf (q : Nat) : List Nat := [2 * q, 2 * q + 1]

/-- R390, R392: the neighbouring dies of a unit. -/
def nearUnits (s : State) (q : Nat) : List Nat :=
  if q < 72 then (List.range 72).filter fun p => p ≠ q && nearSites p q && unitPowered s p
  else if q < 96 then (if s.held (hubDie (q - 72)) then [s.siteOf (hubDie (q - 72))] else [])
  else if q < 104 then (104 + (q - 96)) :: (if s.held (oeDie (q - 96)) then [s.siteOf (oeDie (q - 96))] else [])
  else [96 + (q - 104)]

/-- R390: the channels of a channel's table row. -/
def rowChans (s : State) (c : Nat) : List Nat :=
  if c < 224 then
    let q := c / 2
    (diodesOf q).filter (· ≠ c) ++ (if 72 ≤ q && q < 96 then [230 + (q - 72)] else [])
      ++ (nearUnits s q).flatMap diodesOf
  else diodesOf (72 + (c - 230))

/-- R390: the neighbours: neither OFF nor SUSPECT. -/
def neighbours (s : State) (c : Nat) : List Nat :=
  (rowChans s c).filter fun n => chanOn s n && (s.sensor n).st ≠ 1

/-! ### Judging (R391) -/

/-- A reading put in its place among readings in ascending order. -/
def insertInt (x : Int) : List Int → List Int
  | [] => [x]
  | y :: ys => if x ≤ y then x :: y :: ys else y :: insertInt x ys

/-- Twice the median of some readings. -/
def median2 (xs : List Int) : Int :=
  let ys := xs.foldr insertInt []
  let n := ys.length
  if n % 2 = 1 then 2 * ys.getD (n / 2) 0 else ys.getD (n / 2 - 1) 0 + ys.getD (n / 2) 0

/-- R391: whether a channel disagrees; none when it is not judged. -/
def disagrees (s : State) (c : Nat) : Option Bool :=
  let ns := neighbours s c
  if ns.length < 2 then none
  else some (decide (128 < (2 * (s.sensor c).temp - median2 (ns.map fun n => (s.sensor n).temp)).natAbs))

/-- The scan's new readings: a channel that is off reads nothing, one that comes on is VALID. -/
def takeReadings (s : State) (rs : List (Nat × Int)) : State :=
  (List.range 254).foldl (fun st c =>
    let x := st.sensor c
    if !chanOn s c then setSensor st c { (({} : Sensor)) with temp := x.temp }
    else
      let t := ((rs.find? fun r => r.1 = c).map (·.2)).getD x.temp
      setSensor st c { x with st := if x.st = 2 then 0 else x.st, temp := max (-2048) (min 2047 t) }) s

/-- R391: a channel judged; `shorted` is an open or short at its front end. -/
def judge (old : Sensor) (dis : Option Bool) (shorted : Bool) : Sensor :=
  if old.st = 1 then
    let good := if shorted then 0 else match dis with
      | some false => old.good + 1
      | some true => 0
      | none => old.good
    if 100 ≤ good then { old with st := 0, good := 0, dis := 0 } else { old with good := good }
  else if shorted then { old with st := 1, good := 0 }
  else match dis with
    | some true => if old.dis.toNat + 1 = 3 then { old with dis := 3, st := 1, good := 0 }
        else { old with dis := old.dis + 1 }
    | _ => { old with dis := 0 }

/-- R391: a pin channel: FAULT after three scans open or short. -/
def judgePin (old : Sensor) (shorted : Bool) : Sensor :=
  if !shorted then { old with bad := 0 }
  else if 3 ≤ old.bad + 1 then { old with st := 3, bad := old.bad + 1 } else { old with bad := old.bad + 1 }

/-- Channels that become SUSPECT in a scan, from the state with its new readings. -/
def newSuspects (s : State) (opens : List Nat) : List Nat :=
  (List.range 254).filter fun c => (c < 224 || 230 ≤ c) && chanOn s c && (s.sensor c).st ≠ 1 &&
    decide ((judge (s.sensor c) (disagrees s c) (c < 224 && decide (c ∈ opens))).st = 1)

/-- R391: every channel judged against the readings and states that the scan began with. -/
def judgeAll (s : State) (opens : List Nat) : State :=
  (List.range 254).foldl (fun st c =>
    if !chanOn s c then st
    else if 224 ≤ c && c < 230 then setSensor st c (judgePin (s.sensor c) (decide (c ∈ opens)))
    else setSensor st c (judge (s.sensor c) (disagrees s c) (c < 224 && decide (c ∈ opens)))) s

/-- R391, R408: the records of channels that became SUSPECT, and the end of the condition. -/
def reportSuspects (s : State) (bad : List Nat) : State :=
  let s1 := bad.foldl (fun st c => report st srcTherm cThermSuspect c) s
  if s1.therm.chans.any fun e => e.2.st = 1 then s1 else endCondition s1 srcTherm cThermSuspect

/-! ### Temperatures and bands (R392, R393) -/

/-- The highest reading of a die's VALID diodes. -/
def validMax (s : State) (q : Nat) : Option Int :=
  (((diodesOf q).filter fun c => (s.sensor c).st = 0).map fun c => (s.sensor c).temp).max?

/-- R392: T_unit of a die and whether an estimate is in it. -/
def unitTemp (s : State) (q : Nat) : Int × Bool :=
  let est := ((nearUnits s q).filterMap (validMax s)).max?.map (· + 80)
  if (diodesOf q).all fun c => (s.sensor c).st = 0 then ((validMax s q).getD 0, false)
  else match validMax s q, est with
    | some v, some e => if v < e then (e, true) else (v, false)
    | some v, none => (v, false)
    | none, some e => (e, true)
    | none, none => (800, false)

/-- R393: the band of a temperature, and a band's lower edge. -/
def bandOf (t : Int) : Nat := if t < 360 then 0 else if t < 520 then 1 else if t < 680 then 2 else if t < 776 then 3
    else 4
def bandEdge : Nat → Int
  | 1 => 360
  | 2 => 520
  | 3 => 680
  | _ => 776

/-- R393, R396: a unit after a scan. -/
def nextUnit (x : UnitT) (t : Int) (est : Bool) : UnitT :=
  let b := x.band.toNat
  let hot := if bandOf t = 4 then some 0 else x.sinceT4.map (· + 1)
  let y := { x with temp := t, est := est, sinceT4 := hot.filter (· < 100) }
  if b < bandOf t then { y with band := BitVec.ofNat 3 (bandOf t), below := 0 }
  else if 0 < b && t ≤ bandEdge b - 24 then
    if 10 ≤ x.below + 1 then { y with band := BitVec.ofNat 3 (b - 1), below := 0 } else { y with below := x.below + 1 }
  else { y with below := 0 }

/-- R392: a stack's temperature: the higher of its channel and its hub's T_unit. -/
def stackTemp (s : State) (h : Nat) : Int := max (s.unit (72 + h)).temp (s.sensor (230 + h)).temp

/-- R168, R372, R392 to R394, R396: units, stacks and the settings their bands select. -/
def updateUnits (s : State) : State :=
  let s1 := (List.range 112).foldl (fun st q =>
    if unitPowered s q then
      let r := unitTemp s q
      setUnit st q (nextUnit (st.unit q) r.1 r.2)
    else setUnit st q { st.unit q with sinceT4 := ((st.unit q).sinceT4.map (· + 1)).filter (· < 100) }) s
  let s2 := (List.range 24).foldl (fun st h =>
    if unitPowered s (72 + h) then
      let u := nextUnit (st.unit (112 + h)) (stackTemp st h) false
      (setUnit st (112 + h) u).updHub h fun x => { x with band := u.band }
    else st) s1
  (List.range 72).foldl (fun st p => if (st.site p).powered then setMv st p (setPoint st p) else st) s2

/-! ### Throttle and HOLD (R395, R396) -/

/-- R395: T_hot. -/
def hottest (s : State) : Int :=
  let us := ((List.range 112).filter (unitPowered s)) ++ ((List.range 24).filter fun h =>
    unitPowered s (72 + h)).map (112 + ·)
  ((us.map fun q => (s.unit q).temp).max?).getD 0

/-- R395: L_T after a scan. -/
def nextLt (lt : Nat) (tHot : Int) (cool : Nat) (hold : Bool) : Nat :=
  if 824 ≤ tHot then min 56 (lt + 16)
  else if 776 ≤ tHot then min 56 (lt + 4)
  else if 10 ≤ cool && !hold then lt - 2
  else lt

/-- R396: a throttling die. -/
def throttling (s : State) (q : Nat) : Bool := 0 < s.therm.lt.toNat && (s.unit q).sinceT4.isSome

/-- R396: a channel that sets HOLD as it becomes SUSPECT. -/
def setsHold (s : State) (c : Nat) : Bool :=
  let q := chanUnit c
  throttling s q || (q < 72 && (List.range 72).any fun p => nearSites p q && throttling s p)

/-- R396: a channel that keeps HOLD: not VALID again, and its die not FENCED. -/
def keepsHold (s : State) (c : Nat) : Bool :=
  (s.sensor c).st ≠ 0 && !(chanUnit c < 72 && decide ((s.site (chanUnit c)).st = .fenced))

/-- R395, R396: the throttle level. -/
def updateThrottle (s : State) (bad : List Nat) : State :=
  let t := hottest s
  let holds := ((bad.filter (setsHold s)).foldl addNew s.therm.holds).filter (keepsHold s)
  let cool := if t < 752 then s.therm.cool + 1 else 0
  { s with therm := { s.therm with
    tHot := t, holds := holds, cool := min 10 cool,
    lt := BitVec.ofNat 6 (nextLt s.therm.lt.toNat t cool (decide (holds ≠ []))) } }

/-! ### Pins and shutdown (R397 to R399) -/

/-- R398: a pin channel against its PIN_HIGH. -/
def checkPin (s : State) (c : Nat) : State :=
  let x := s.sensor (224 + c)
  let high := (tabGet (fun _ => (0x280 : BitVec 12)) s.therm.pinHigh c).toInt
  let b := BitVec.ofNat 6 (2 ^ c)
  if !s.therm.pinEn.getLsbD c || x.st ≠ 0 then s
  else if high ≤ x.temp then
    if s.therm.pinOver.getLsbD c then s
    else report { s with therm := { s.therm with pinOver := s.therm.pinOver ||| b } } srcTherm cPinHigh (224 + c)
  else if x.temp ≤ high - 24 then { s with therm := { s.therm with pinOver := s.therm.pinOver &&& ~~~b } }
  else s

/-- R222, R392: the readings of an engine and its laser die: those of the two diodes of each, or its temperature where a
diode is not VALID. -/
def oeReadings (s : State) (e : Nat) : List Int :=
  [96 + e, 104 + e].flatMap fun q =>
    if (diodesOf q).all fun c => (s.sensor c).st = 0 then (diodesOf q).map fun c => (s.sensor c).temp
        else [(s.unit q).temp]

/-- R222, R393: scans in a row with every reading of an engine 3 °C or more below its band's lower edge. -/
def countCool (s : State) : State :=
  (List.range 8).foldl (fun st e =>
    let b := (s.oe e).band.toNat
    let low := 0 < b && (oeReadings s e).all fun t => t ≤ bandEdge b - 24
    st.updOe e fun o => { o with cool := if low then min 10 (o.cool + 1) else 0 }) s

/-- R397: scans in a row at 110 °C or more. -/
def countHot (s : State) : State :=
  (List.range 224).foldl (fun st c =>
    let x := st.sensor c
    setSensor st c { x with hot := if chanOn s c && x.st = 0 && 880 ≤ x.temp then min 2 (x.hot + 1) else 0 }) s

/-- R397, R402, R404: the record of a shutdown, with its diode; its pens enter FAULTED. During a save nothing more is
recorded (R410). -/
def shutdownRecord (s : State) (c : Nat) : State :=
  if s.therm.shutdown || s.pwr.saving ≠ 0 then s else enterFailed (report s srcTherm cShutdown c)

/-- R397, R399: the shutdown's actions; during a save the save completes and the log is written at the next boot. -/
def shutDown (s : State) : State :=
  if s.therm.shutdown then s
  else if s.pwr.saving ≠ 0 then
    { s with therm := { s.therm with shutdown := true }, tack := { s.tack with logDue := true } }
  else
    let s1 := haltDevice s
    storeLog { s1 with pens := s.pens, flt := { s1.flt with failed := true },
                       therm := { s1.therm with shutdown := true } } (logLines s)

/-- R397: the diode whose second reading in a row shuts the device down. -/
def hotDiode (s : State) : Option Nat := (s.therm.chans.find? fun e => decide (2 ≤ e.2.hot)).map (·.1)

/-- THERMAL_SCAN (R389 to R399, R418): `readings` by channel, and the channels that read open or short. The FE of a
shutdown is recorded first. -/
def execThermalScan (readings : List (Nat × Int)) (opens : List Nat) (s : State) : Host.Outcome State Fault Refusal :=
  .next <|
    let s1 := takeReadings s readings
    let bad := newSuspects s1 opens
    let s2 := countHot (judgeAll s1 opens)
    let s3 := match hotDiode s2 with
      | some c => shutdownRecord s2 c
      | none => s2
    let s4 := countCool (updateThrottle (updateUnits (reportSuspects s3 bad)) bad)
    let s5 := (List.range 6).foldl checkPin s4
    if (hotDiode s2).isSome then shutDown s5 else s5

/-! ### THERM_STATUS (R400) -/

/-- A temperature as 12 bits, signed. -/
def tempBits (t : Int) : Nat := (BitVec.ofInt 12 t).toNat

/-- THERM_STATUS.SUSPECT_COUNT. -/
def suspects (s : State) : Nat := (s.therm.chans.filter fun e => e.2.st = 1).length

/-- THERM_STATUS as it reads. -/
def thermStatus (s : State) : Nat :=
  let t := s.therm
  tempBits t.tHot + 2 ^ 12 * bandOf t.tHot + 2 ^ 15 * bit (decide (t.holds ≠ [])) + 2 ^ 16 * min 255 (suspects s)
    + 2 ^ 24 * bit t.shutdown

/-! ### Bands (R222) -/

/-- OE_BAND_CHANGE (R222, R393): up to the band of the highest reading; down one once every reading has stayed 3 °C
below the band's lower edge for 10 scans. -/
def execOeBandChange (e : Oe) (s : State) : Host.Outcome State Fault Refusal :=
  .next <|
    let o := s.oe e.toNat
    let top := bandOf ((oeReadings s e.toNat).max?.getD 0)
    let b := o.band.toNat
    if b < top then s.setOe e.toNat { o with band := BitVec.ofNat 3 top, cool := 0 }
    else if 0 < b && 10 ≤ o.cool then s.setOe e.toNat { o with band := BitVec.ofNat 3 (b - 1), cool := 0 }
    else s

end Sys2Proof.Machine
end

