-- ==== Sys2Proof/Machine/Faults.lean ====
section
/-! DEFINITION. The fault collector's commands: reports, acknowledgements, buckets, the heartbeat, injection, self-tests
(16_faults.md). -/

namespace Sys2Proof.Machine

open Sys2Proof

/-! ### Reports (R402 to R406) -/

/-- R403, R404: the group of causes of a source. -/
def sourceGroup (x : Nat) : Nat :=
  if x < 0x1000 then 1 else if x < 0x1048 then 2 else if x < 0x1060 then 3 else if x < 0x1068 then 4
  else if x < 0x1168 then 5 else if x < 0x1A00 then 6 else if x < 0x1A40 then 7
  else match x with
    | 0x1A40 => 0xA
    | 0x1A41 => 0xB
    | 0x1A42 => 0xC
    | 0x1A43 => 8
    | _ => 9

/-- R404: the number of causes of a group. -/
def groupSize : Nat → Nat
  | 1 => 10
  | 2 => 14
  | 3 => 5
  | 4 => 4
  | 5 => 3
  | 6 => 4
  | 7 => 12
  | 8 => 5
  | 9 => 3
  | 0xA => 3
  | 0xB => 2
  | 0xC => 3
  | _ => 0

/-- R403, R404: a source of the table with a cause of its group. -/
def reportKnown (x c : Nat) : Bool := srcKnown x && decide (c / 256 = sourceGroup x) &&
    decide (c % 256 < groupSize (c / 256))

/-- R191: a UC cause of a die's own logic is a retire trigger. -/
def retireCause (c : Nat) : Bool := c = cDieRouter || c = cDieSlice || c = cDieAdapter || c = cDieRegulator

/-- R191, R401, R402: the device's response to a detected report. -/
def respond (s : State) (x c : Nat) : State :=
  if causeClass s.sys.manager c = 3 then enterFailed s
  else if sourceGroup x = 2 && retireCause c then
    match s.dieAt (x - 0x1000) with
    | some d => queueRetire s d
    | none => s
  else s

/-- R413, R414: the checker of a stall's or a die's logic that reports a cause. -/
def causeChecker (c : Nat) : Option Nat :=
  if c = cMacResidue || c = cDieSlice then some 1
  else if c = cWindowParity || c = cDieAdapter then some 2
  else if c = cDieRouter then some 0
  else none

/-- R414: a report of a checker: on data whose check bits an arming inverted its syndrome is another, so the fault is
real and met the injection [80]. -/
def reportMet (s : State) (x c addr : Nat) : State :=
  match causeChecker c with
  | some k => if injMask s x k ≠ 0 then reportInjected (injUse s x k) x c addr true else report s x c addr
  | none => report s x c addr

/-- FAULT_REPORT (R223, R402, R404, R406, R414): a report of a real fault reaches the collector. An uncorrectable error
of a READY engine is its loss; THERM_SHUTDOWN shuts the device down (R397). -/
def execFaultReport (src cause : BitVec 16) (addr : BitVec 64) (s : State) : Host.Outcome State Fault Refusal :=
  .next <|
    let x := src.toNat
    let c := cause.toNat
    if !reportKnown x c || 1 < s.pwr.saving then s
    else if c = cHostDieLost then (if x = srcDie 36 then hostDieLost s else s)
    else if (c = cOeLost || c = cClockLost) && (s.oe (x - srcOe 0)).st = .ready then
      (if c = cOeLost then oeLost s (x - srcOe 0) else clockGone s (x - srcOe 0))
    else if c = cShutdown then shutDown (shutdownRecord s addr.toNat)
    else respond (reportMet s x c addr.toNat) x c

/-! ### Acknowledgement and conditions (R408) -/

/-- R408: a value written to the ACK of a source's record. -/
def ackRecord (s : State) (x : Nat) (v : Reg32) : State :=
  let r := s.frec x
  if !r.valid || bitsAt v.toNat 0 16 ≠ r.count.toNat then s
  else if r.conds = [] then s.setFrec x {} else s.setFrec x { r with acked := true }

/-- FAULT_ACK (R408). -/
def execFaultAck (src : BitVec 16) (v : Reg32) (s : State) : Host.Outcome State Fault Refusal :=
  .next <| pfAccess s fun s => (ackRecord s src.toNat v).answer .ok

/-- CONDITION_END (R408). -/
def execConditionEnd (src cause : BitVec 16) (s : State) : Host.Outcome State Fault Refusal :=
  .next <| endCondition s src.toNat cause.toNat

/-! ### Buckets and the heartbeat (R411, R412) -/

/-- BUCKET_LEAK (R411): one LEAK interval of bucket `b` of a source, or of a module as 18 p + m. -/
def execBucketLeak (b : BitVec 3) (unit : BitVec 16) (s : State) : Host.Outcome State Fault Refusal :=
  .next <|
    if (s.bucket b.toNat).leak = 0 then s
    else s.setLevel (levelKey b.toNat unit.toNat) (s.level (levelKey b.toNat unit.toNat) - 1)

/-- FAULT_HEARTBEAT (R412): any value. -/
def execFaultHeartbeat (_v : Reg32) (s : State) : Host.Outcome State Fault Refusal :=
  .next <| ({ s with flt := { s.flt with hbSeen := true, hbLost := false } }).answer .ok

/-- HEARTBEAT_LOST (R412): the watchdog expires. -/
def execHeartbeatLost (s : State) : Host.Outcome State Fault Refusal :=
  .next <| { s with flt := { s.flt with hbLost := true } }

/-! ### Injection (R413, R414) -/

/-- R413: the range of k of a source's checker. -/
def checkerBits (x chk : Nat) : Option Nat :=
  if !srcKnown x then none
  else match sourceGroup x, chk with
    | 1, 0 => some 8
    | 1, 1 => some 2
    | 1, 2 => some 4
    | 1, 3 => some 4
    | 2, 0 => some 8
    | 2, 1 => some 8
    | 2, 2 => some 8
    | 3, 0 => some 3
    | 7, 0 => some 4
    | _, _ => none

def setInjResult (s : State) (r : Nat) : State := { s with flt := { s.flt with injResult := BitVec.ofNat 2 r } }

/-- R414: DEPLOYED refuses an arming unless DEBUG_OPEN is set. -/
def injRefused (s : State) : Bool := decide (lcState s = 2) && !s.tack.debugOpen

/-- R413, R414: a value of INJ_MODE and MASK written to FAULT_INJ_CTRL. -/
def injControl (s : State) (mode : Nat) (mask : BitVec 8) : State :=
  let x := s.flt.injSource.toNat
  let chk := s.flt.injChecker.toNat
  if mode = 0 then
    let m := match checkerBits x chk with
      | some n => mask &&& BitVec.ofNat 8 (2 ^ n - 1)
      | none => 0
    { s with flt := { s.flt with arm := none, injShown := m } }
  else if injRefused s then setInjResult s 1
  else if mode = 3 then setInjResult s 2
  else match checkerBits x chk with
    | none => setInjResult s 2
    | some n =>
      let m := mask &&& BitVec.ofNat 8 (2 ^ n - 1)
      setInjResult { s with flt := { s.flt with
        arm := some { source := s.flt.injSource, checker := s.flt.injChecker, mask := m, continuous := decide (mode = 2) },
        injShown := m } } 0

/-- INJECT_DISARM (R413). -/
def execInjectDisarm (mask : BitVec 8) (s : State) : Host.Outcome State Fault Refusal :=
  .next <| pfAccess s fun s => (injControl s 0 mask).answer .ok

/-- INJECT_ONCE (R413). -/
def execInjectOnce (mask : BitVec 8) (s : State) : Host.Outcome State Fault Refusal :=
  .next <| pfAccess s fun s => (injControl s 1 mask).answer .ok

/-- INJECT_CONTINUOUS (R413). -/
def execInjectContinuous (mask : BitVec 8) (s : State) : Host.Outcome State Fault Refusal :=
  .next <| pfAccess s fun s => (injControl s 2 mask).answer .ok

/-- INJ_MODE_RESERVED (R413). -/
def execInjModeReserved (mask : BitVec 8) (s : State) : Host.Outcome State Fault Refusal :=
  .next <| pfAccess s fun s => (injControl s 3 mask).answer .ok

/-! ### Self-tests (R416, R419) -/

def testPass : Nat := 0
def testFail : Nat := 1
def testBusy : Nat := 2
def testBadOp : Nat := 3
def setTestResult (s : State) (r : Nat) : State := { s with flt := { s.flt with testResult := BitVec.ofNat 3 r } }

/-- A pen whose work bars a test. -/
def penBusy (st : PenState) (ready : Bool) : Bool :=
  st = .loading || st = .running || st = .draining || (ready && decide (st = .ready))

/-- R416: an ENABLED chute stores in a stall's manger. -/
def mangerInUse (s : State) (t : Nat) : Bool :=
  s.chutes.any fun e => decide (e.2.st = .enabled) && !e.2.stack && decide (e.2.mangerStall = t)

/-- R416: the conditions of the tests. -/
def stallTestOk (s : State) (t : Nat) : Bool :=
  !mangerInUse s t &&
    ((s.stall t).failed || match penOfDie s (t / 64) with
      | some p => !penBusy (s.pen p).st true
      | none => true)
def dieTestOk (s : State) (p : Nat) : Bool := p < 72 && (decide ((s.site p).st = .spare) ||
    decide ((s.site p).st = .fenced))
def memTestOk (s : State) (h : Nat) : Bool :=
  h < 24 && (decide ((s.hub h).st = .excluded) || decide ((s.hub h).st = .lost) ||
    (!(s.pens.any fun e => penBusy e.2.st false) && !(s.host.dmas.any fun e => e.2.st = 1 || e.2.st = 2)))

/-- R416: a test starts, or is refused BUSY. -/
def startTest (s : State) (ok : Bool) (t : Test) (begin : State → State) : State :=
  if ok && s.flt.test.isNone then begin { s with flt := { s.flt with test := some t } } else setTestResult s testBusy

/-- R416, R175: a stack zeroed with valid check symbols. -/
def zeroStack (s : State) (h : Nat) : State :=
  let mine := fun (line : Nat) => (s.hub h).st ≠ .excluded && hubOf s (64 * line) = h
  { s with ms := { s.ms with
    mem := s.ms.mem.filter fun e => !mine (e.1 / 64),
    poison := s.ms.poison.filter fun e => !mine e.1, inj := s.ms.inj.filter fun e => !mine e.1 } }

/-- R416: a stack with test patterns gone, and no write-back left: before the passes, and after them. -/
def testedStack (s : State) (h : Nat) : State := (zeroStack s h).updHub h fun x => { x with wb := [] }

/-- R11, R416: a value written to FAULT_TEST. The domain of a site under test is enabled. -/
def testCommand (s : State) (op : Nat) (target : BitVec 12) : State :=
  let n := target.toNat
  match op with
  | 1 => startTest s (stallTestOk s n) (.stall target) fun st => mangerWipe st n
  | 2 => startTest s (dieTestOk s n) (.die n) fun st => powerOn (st.updSite n fun x => { x with testing := true }) n
  | 3 => startTest s (memTestOk s n) (.stack n) fun st => testedStack st n
  | _ => setTestResult s testBadOp

/-- STALL_TEST (R416). -/
def execStallTest (target : BitVec 12) (s : State) : Host.Outcome State Fault Refusal :=
  .next <| pfAccess s fun st => (testCommand st 1 target).answer .ok

/-- DIE_TEST (R11, R416). -/
def execDieTest (target : BitVec 12) (s : State) : Host.Outcome State Fault Refusal :=
  .next <| pfAccess s fun st => (testCommand st 2 target).answer .ok

/-- MEM_TEST (R416). -/
def execMemTest (target : BitVec 12) (s : State) : Host.Outcome State Fault Refusal :=
  .next <| pfAccess s fun st => (testCommand st 3 target).answer .ok

/-- FAULT_TEST_BAD_OP (FAULT_TEST). -/
def execFaultTestBadOp (op : BitVec 4) (s : State) : Host.Outcome State Fault Refusal :=
  .next <| pfAccess s fun st => (testCommand st (if 1 ≤ op.toNat && op.toNat ≤ 3 then 0 else op.toNat) 0).answer .ok

/-- The test ends with a result. -/
def endTest (s : State) (pass : Bool) : State :=
  setTestResult { s with flt := { s.flt with test := none } } (if pass then testPass else testFail)

/-- R81, R191, R416: a pass clears FAILED of a stall, a fail sets it. -/
def stallTested (s : State) (t : Nat) (pass : Bool) : State :=
  let s1 := s.updStall t fun x => { x with
    failed := !pass,
    st := if !pass then .failed else if x.st = .failed || x.st = .fault then .idle else x.st }
  if pass then s1 else autoRetire s1 (t / 64)

/-- TEST_COMPLETE (R416). -/
def execTestComplete (pass : Bool) (s : State) : Host.Outcome State Fault Refusal :=
  .next <|
    match s.flt.test with
    | none => s
    | some (.stall t) => endTest (stallTested s t.toNat pass) pass
    | some (.die p) => endTest (powerOff (s.updSite p fun x => { x with testing := false }) p) pass
    | some (.stack h) => endTest (testedStack s h) pass

end Sys2Proof.Machine
end

