-- ==== Sys2Proof/Machine/Boot.lean ====
section
/-! DEFINITION. Resets, the boot steps, flash slots and stores, life cycle, tokens, test access, and the standards'
messages (13_boot_and_lifecycle.md, R335, R442). -/

namespace Sys2Proof.Machine

open Sys2Proof

/-! ### Slots (R351 to R355) -/

/-- R357, R359: the key hash that the life-cycle state selects. -/
def slotKeyHash (s : State) : Option (BitVec 384) :=
  match lcState s with
  | 0 => some Config.romKeyHash
  | 1 => some s.tack.fuses.keyHash
  | 2 => some s.tack.fuses.keyHash
  | 3 => some Config.romKeyHash
  | _ => none

/-- R354: a configuration image, unless it is not acceptable. -/
def imageOf (v : Nat) : Option Image :=
  let byte := fun (k : Nat) => bitsAt v (8 * k) 8
  let ok := 1 ≤ byte 1 && byte 1 ≤ 64 && byte 0 < byte 1 && byte 2 ≤ 2 && byte 3 < 8
    && bitsAt v 48 16 = 0 && bitsAt v 128 384 = 0
  if ok then some
    { device := BitVec.ofNat 6 (byte 0), size := BitVec.ofNat 7 (byte 1), role := BitVec.ofNat 2 (byte 2),
      cxlEn := bitAt (byte 3) 0, sriovEn := bitAt (byte 3) 1, perstWarm := bitAt (byte 3) 2,
      pkgLimit := BitVec.ofNat 16 (bitsAt v 32 16), linkEn := BitVec.ofNat 64 (bitsAt v 64 64) }
  else none

/-- R352 checks 2 to 7 on the slot whose bytes start at `b`, with the least SVN given: its image. -/
def slotImage (s : State) (b least : Nat) : Option Image :=
  let body := flashNat s (b + 0xC) 4
  let off := flashNat s (b + 0x10) 4
  let key := flashBytes s.flash (b + 0x50) 96
  if flashNat s b 4 ≠ 0x45424653 || slotKeyHash s ≠ some (Config.sha384 key)
      || !Config.ecdsaVerify (BitVec.ofNat 768 (leNat key)) (Config.sha384 (flashBytes s.flash b 0xB0))
        (BitVec.ofNat 768 (flashNat s (b + 0xB0) 96))
      || body % 4096 ≠ 0 || 0xFFE000 < body || body < off + 64
      || BitVec.ofNat 384 (flashNat s (b + 0x20) 48) ≠ Config.sha384 (flashBytes s.flash (b + 0x1000) body)
      || flashNat s (b + 0x8) 4 < least then none
  else imageOf (flashNat s (b + 0x1000 + off) 64)

/-- R352: the image of slot `i` when the slot is accepted. -/
def slotAccepted (s : State) (i : Nat) : Option Image :=
  if flashHas s (slotBase i) 0x1000000 && flashNat s (slotBase i + commitSector + 4092) 4 = flashCommit then
    slotImage s (slotBase i) s.tack.fuses.svn.toNat
  else none

/-- R351: a slot's SEQUENCE. -/
def slotSequence (s : State) (i : Nat) : Nat := flashNat s (slotBase i + commitSector) 4

/-- R353: the slot to boot with its image. -/
def chooseSlot (s : State) : Option (Nat × Image) :=
  let a := (slotAccepted s 0).map fun i => (0, i)
  let b := (slotAccepted s 1).map fun i => (1, i)
  let usual := match a, b with
    | some x, some y => some (if slotSequence s 0 < slotSequence s 1 then y else x)
    | some x, none => some x
    | none, y => y
  match s.tack.nextSlot.toNat with
  | 1 => if a.isSome then a else usual
  | 2 => if b.isSome then b else usual
  | _ => usual

/-! ### Resets (R341, R343, R345, R441) -/

/-- COLD_RESET (R341, R441): PV_AUX rising to good, or COLD_RESET_N low, which during a save waits for the hold, unless
both came in one control cycle. -/
def execColdReset (pin : Bool) (s : State) : Host.Outcome State Fault Refusal :=
  .next <|
    if pin && 1 ≤ s.pwr.saving && s.pwr.saving ≤ 4 && decide (s.pwr.sagAt ≠ s.time) then
      { s with pins := { s.pins with coldResetN := false }, tack := { s.tack with coldDue := true } }
    else
      let s1 := resetDevice s false causeCold
      { s1 with pins := { s1.pins with coldResetN := false, auxOff := s1.pins.auxOff && pin } }

/-- COLD_RESET_N_RELEASE (R290, R343, R345, R440): MGR_SEL is sampled, TIME starts, and boot begins at step 1, from a
hold with the cold reset that leaves it. -/
def execColdResetNRelease (mgrSel : Bool) (s : State) : Host.Outcome State Fault Refusal :=
  .next <|
    if s.pins.coldResetN then s
    else
      let s1 := { s with pins := { s.pins with coldResetN := true, mgrSel := mgrSel } }
      if 1 ≤ s.pwr.saving && s.pwr.saving ≤ 4 then s1
      else if s.tack.hold then coldBoot s1
      else { s1 with time := 0, tack := { s1.tack with step := 1, bootFrom := 0 } }

/-- R366: a value written to TACK_RESET: OP and KEY must match. -/
def resetCommand (s : State) (v : Reg32) : State :=
  if bitsAt v.toNat 0 4 = 1 && bitsAt v.toNat 8 8 = 0x5A then warmReset s causeWarm else s

/-- TACK_RESET_WARM (R341, R366). -/
def execTackResetWarm (v : Reg32) (s : State) : Host.Outcome State Fault Refusal :=
  .next <| pfCore s fun st => (resetCommand st v).answer .ok

/-! ### Boot steps (R345 to R347) -/

def bootNoImage : Nat := 1
def bootRefclk : Nat := 2
def bootStacks : Nat := 3
def bootControl : Nat := 4

def setStep (s : State) (n : Nat) : State := { s with tack := { s.tack with step := BitVec.ofNat 4 n } }

/-- R334, R347: boot stops with an FE record. -/
def bootFails (s : State) (code cause : Nat) : State :=
  let s1 := report s srcBoot cause 0
  { s1 with tack := { s1.tack with result := BitVec.ofNat 4 code }, host := { s1.host with devState := 2 } }

/-- R345 step 1, R347, R359, R371: the tack die's domain stands at its set point. -/
def bootStep1 (s0 : State) : State :=
  let s := setMv s0 35 (setPoint s0 35)
  if !s.pins.refclk then { s with tack := { s.tack with result := BitVec.ofNat 4 bootRefclk } }
  else if lcState s = 4 then s
  else setStep { s with tack := { s.tack with result := 0 } } 2

/-- R290: the role, fixed until the next cold reset. -/
def setManagerRole (s : State) (i : Image) : State :=
  if s.sys.roleSet then s
  else { s with sys := { s.sys with roleSet := true, manager := i.role = 1 || (i.role = 0 && s.pins.mgrSel) } }

/-- R249, R374, R344: the registers that the image resets. -/
def imageRegs (s : State) (i : Image) : State :=
  let s1 := (List.range 64).foldl (fun st l => st.updLink l fun k => { k with enable := i.linkEn.getLsbD l }) s
  { s1 with
    tack := { s1.tack with image := some i, perstWarm := i.perstWarm },
    pwr := { s1.pwr with limit := BitVec.ofNat 11 (if i.pkgLimit = 0 then pwrCap s else clampLimit s i.pkgLimit.toNat) } }

/-- R203: the state in which a boot finds a laser: SPENT and FAILED stay, every other is OFF. -/
def bootLaser (st : LaserState) : LaserState := if st = .spent || st = .failed then st else .off

/-- R225: a table of engine `e` as the calibration store has it, with keys from 0. -/
def calTab (t : Tab (BitVec 16)) (lo n : Nat) : Tab (BitVec 16) :=
  (t.filter fun x => lo ≤ x.1 && x.1 < lo + n).map fun x => (x.1 - lo, x.2)

/-- R203, R207, R222, R225, R345 step 2: an engine as the flash calibration store has it. -/
def calOe (c : Cal) (o : OeS) (e : Nat) : OeS :=
  let xt := calTab c.xt (12288 * e) 12288
  let tab := fun (t : Nat) => calTab c.oeTabs (32768 * e + 4096 * t) 4096
  let o1 := { o with
    xt := xt, xtFlash := xt, lockOff := tab 0, ffGain := tab 1, ffTau := tab 2, bandRing := tab 3, bandLaser := tab 4,
    bandEq := ((tab 5).map fun x => (x.1, x.2.setWidth 8)).filter fun x => x.2 ≠ 0 }
  (List.range 32).foldl (fun y n =>
    y.setLaser n { y.laser n with st := bootLaser (tabGet (fun _ => .off) c.lasers (32 * e + n)) }) o1

/-- R410: a log that a shutdown could not write goes to the log store now. -/
def writeLogDue (s : State) : State :=
  if s.tack.logDue then
    storeLog { s with tack := { s.tack with logDue := false } } (s.flt.prev.take s.flt.prevLog)
  else s

/-- R359, R360: the identity seed where the life-cycle state has identity keys. -/
def identitySeed (s : State) : Option (BitVec 256) :=
  if lcState s = 1 || lcState s = 2 then s.tack.fuses.seed else none

/-- R360, R361: the alias key of the running slot, and SPDM certificate slot 0: the chain of the identity store with the
alias certificate. -/
def deriveAlias (s : State) (b : Nat) : State :=
  let off := flashNat s (b + 0x10) 4
  let id := Config.sha384 (flashBytes s.flash b 0x1000 ++ flashBytes s.flash (b + 0x1000 + off) 64)
  let chain := (storeBody s idStore).getD []
  match identitySeed s with
  | some seed =>
    let key := Config.aliasKey seed id
    { s with tack := { s.tack with
      aliasKey := some key, slot0 := chain ++ Config.aliasCert (Config.identityKey seed) key } }
  | none => { s with tack := { s.tack with aliasKey := none, slot0 := [] } }

/-- R345 step 2: the firmware of slot `n` starts: the image, the save record, the stores, the port (step 3). -/
def startFirmware (s : State) (n : Nat) (i : Image) : State :=
  let b := slotBase n
  let s1 := { s with tack := { s.tack with
    slot := n = 1, fw := BitVec.ofNat 32 (flashNat s (b + 4) 4), runSvn := BitVec.ofNat 7 (flashNat s (b + 8) 4),
    nextSlot := 0, cal := readCal s } }
  let s2 := writeLogDue (applySave (imageRegs (setManagerRole (deriveAlias s1 b) i) i))
  let s3 := applySparing ((List.range 8).foldl (fun st e => st.updOe e fun o => calOe s2.tack.cal o e) s2)
  let late := s3.tack.cause = 1 && s3.tack.mainGood
  let s4 := { powerOn s3 36 with
    host := { s3.host with portOn := true },
    tack := { s3.tack with bootFrom := if late then s3.time else s3.tack.bootFrom } }
  refreshShadow (setStep s4 3)

/-- R345 step 2, R347, R348, R358: the flash is discovered; RECOVERY when no slot is valid. -/
def bootStep2 (s : State) : State :=
  let s1 := checkMramState (discoverFlash s)
  match chooseSlot s1 with
  | some x => startFirmware s1 x.1 x.2
  | none =>
    bootFails { powerOn s1 36 with tack := { s1.tack with recovery := true, nextSlot := 0 }, host := { s1.host with portOn := true } }
      bootNoImage cBootImage

/-- R347 rows 4 and 5 of the control dies: whether boot stops. -/
def controlFails (s : State) (o : BootFinding) : Bool := o.tackFailed || (o.hostFailed && s.sys.manager)

/-- R196, R347: a worker goes on without its host die. -/
def loseHost (s : State) (o : BootFinding) : State := if o.hostFailed then hostDieLost s else s

/-- R347: the sites that fail are FENCED. -/
def fenceFailed (s : State) (o : BootFinding) : State := o.failedSites.foldl (fun st p => fenceDie st p.val) s

/-- R345 step 4, R386: every domain enabled. -/
def bootPower (s : State) : State :=
  let ps := (List.range 72).filter fun p => (s.dieAt p).isSome
  let s1 := s.forAll ps powerOn
  let s2 := s1.forAll (List.range 24) fun st h => st.updHub h fun x => { x with powered := true }
  s2.forAll (List.range 8) fun st e => st.updOe e fun x => { x with powered := true, laserOn := true }

/-- R385: PV_HOLD measured. -/
def measureHold (s : State) (mv : BitVec 16) : State :=
  let s1 := { s with pwr := { s.pwr with holdMv := mv } }
  if mv.toNat < 10500 then report { s1 with pwr := { s1.pwr with holdLow := true } } srcPower cHoldLow 0 else s1

/-- R345 step 4. -/
def bootStep4 (s : State) (o : BootFinding) : State :=
  if controlFails s o then bootFails s bootControl cBootDie
  else setStep (measureHold (fenceFailed (bootPower (loseHost s o)) o) o.holdMv) 5

/-- R81, R193: stalls that fail their boot test. -/
def failStalls (s : State) (o : BootFinding) : State :=
  o.failedStalls.foldl (fun st t =>
    autoRetire (st.updStall t.toNat fun x => { x with failed := true, st := .failed }) (t.toNat / 64)) s

/-- R191, R193, R195: EMPTY numbers for which a spare is left are to be replaced. -/
def queueEmpty (s : State) : State :=
  let ds := (List.range 64).filter fun d =>
    !s.held d && (nextSpare s { die := BitVec.ofNat 6 d, site := ⟨0, by decide⟩, step := 1 }).isSome
  { s with pnet := { s.pnet with queue := ds.foldl (fun q d => addNew q (BitVec.ofNat 6 d)) s.pnet.queue } }

/-- R187, R188, R394: the training of the links, with the margins of the units' bands, which start as T0: what it
finds at the positions in use. -/
def trainModules (s : State) (o : BootFinding) : State :=
  o.modules.foldl (fun st e => if moduleUsed st e.1.val e.2.1.val then moduleTrained st e.1.val e.2.1.val e.2.2 else st)
    (trainUnits s ((List.range 104).filter fun q => (s.unit q).band ≠ 0))

/-- R188, R191: a die whose boot activation ends: DEGRADED with a module at half width or FAILED. -/
def activated (x : SiteS) : SiteS :=
  { x with st := if x.modHalf = 0 && x.modFailed = 0 then .active else .degraded }

/-- R182: the tables that the tack die computes before packets travel. -/
def bootTables (s : State) : State :=
  let s1 := switchTables s
  if s1.pnet.switching then
    let w := s1.pnet.want
    { s1 with pnet := { s1.pnet with
      tabs := (List.range 256).foldl (fun t n => tabSet (fun _ => {}) t n w) s1.pnet.tabs, switching := false } }
  else s1

/-- R345 step 5: it ends once every replacement has. -/
def bootStep5 (s : State) (o : BootFinding) : State :=
  if controlFails s o then bootFails s bootControl cBootDie
  else
    let s1 := failStalls (trainModules (fenceFailed (loseHost s o) o) o) o
    let s2 := if s1.pnet.repl.isNone && decide (s1.pnet.queue = []) then queueEmpty s1 else s1
    if s2.pnet.repl.isSome || decide (s2.pnet.queue ≠ []) then s2
    else
      let ps := (List.range 72).filter fun p => (s2.site p).st = .activating
      setStep (bootTables (s2.forAll ps fun st p => st.updSite p activated)) 6

/-- R175: the wipe of every stack of the map. -/
def wipeMemory (s : State) : State := { s with ms := { s.ms with mem := [], poison := [], inj := [] } }

/-- R173, R175, R189, R345 step 6: stacks that are left out, those that the training lost among them, and the wipe of
the others. -/
def bootHubs (s : State) (o : BootFinding) : State :=
  let out := fun (h : Nat) => (o.failedStacks.any fun x => x.val = h) || decide (h ∈ s.tack.cal.lostStacks)
    || !s.held (hubDie h) || decide ((s.hub h).st = .lost)
  let s1 := (List.range 24).foldl (fun st h =>
    st.updHub h fun x =>
      if out h then { x with st := .excluded } else { x with st := .online, wipeDone := true }) (wipeMemory s)
  keepCal s1 fun c => { c with lostStacks := ((List.range 24).filter out).foldl addNew c.lostStacks }

/-- R223, R345 step 7: an engine's lasers warm: each wavelength's primary, or its standby when the primary is gone; λ0
with neither is lost, and another wavelength with neither is reported. Drop rings with light search. -/
def warmEngine (s : State) (e : Nat) : State :=
  let o := s.oe e
  if !o.powered || !o.laserOn || o.st = .lost then s
  else if laserGone o (lpOf 0) && laserGone o (lsOf 0) then oeLost (s.updOe e fun x => { x with st := .lasers }) e
  else
    let o1 := (List.range 16).foldl (fun y i =>
      if !laserGone y (lpOf i) then warmLaser y (lpOf i)
      else if !laserGone y (lsOf i) then warmLaser y (lsOf i) else y) { o with st := .lasers }
    let gone := (List.range 16).filter fun i => laserGone o (lpOf i) && laserGone o (lsOf i)
    searchDrops (gone.foldl (fun st i => report st (srcLaser e (lsOf i)) cSpareUsed 0) (s.setOe e o1)) e

/-- R345 step 6, R347. -/
def bootStep6 (s : State) (o : BootFinding) : State :=
  let s1 := bootHubs s o
  if 5 ≤ ((List.range 24).filter fun h => (s1.hub h).st = .excluded).length then bootFails s1 bootStacks cBootStacks
  else setStep ((List.range 8).foldl warmEngine s1) 7

/-- R186: the fabric numerical set: MIXED_FP4_FP6 when every active die has it. -/
def fabricSet (s : State) : Nat :=
  bit ((List.range 64).all fun d => !s.held d || (s.site (s.siteOf d)).cap.getLsbD 8)

/-- R345 step 10, R334, R346: READY. -/
def bootReady (s : State) : State :=
  let ms := (s.time - s.tack.bootFrom).toNat / 625000
  let s1 := { s with
    pnet := { s.pnet with fabricNum := BitVec.ofNat 8 (fabricSet s) },
    host := { s.host with devState := 1, memActive := true },
    tack := { s.tack with step := 10, readyNow := true, everReady := true, bootTime := BitVec.ofNat 16 (min 65535 ms) } }
  raiseEvent s1 0 evReady 0 0

/-- BOOT_STEP_DONE (R345 to R347): the step reached completes. -/
def execBootStepDone (o : BootFinding) (s : State) : Host.Outcome State Fault Refusal :=
  .next <|
    if !deviceUp s || s.host.devState = 2 || s.flt.failed then s
    else match s.tack.step.toNat with
      | 1 => bootStep1 s
      | 2 => if s.tack.recovery then s else bootStep2 s
      | 3 => if s.tack.mainGood then setStep s 4 else s
      | 4 => bootStep4 s o
      | 5 => bootStep5 s o
      | 6 => bootStep6 s o
      | 7 => if (List.range 8).all fun e => (s.oe e).st ≠ .lasers then setStep s 8 else s
      | 8 => if (List.range 8).all fun e => (s.oe e).st ≠ .rings then setStep s 9 else s
      | 9 => bootReady s
      | _ => s

/-! ### Flash commands (R356, R366) -/

def fState : Nat := 1
def fBadImage : Nat := 2
def fErr : Nat := 3
def fBadOp : Nat := 4
def fRange : Nat := 5

def setFlashRes (s : State) (r : Nat) : State := { s with tack := { s.tack with flashRes := BitVec.ofNat 3 r } }

/-- R366: LEN and the device range of a flash command. -/
def flashLenOk (s : State) : Bool :=
  s.tack.flashLen.toNat ≤ 0x1000000 && s.tack.flashAddr.toNat + s.tack.flashLen.toNat ≤ memTop s

def startFlash (s : State) (write : Bool) (target : BitVec 4) (offset : BitVec 12) : State :=
  let c : FlashCmd :=
    { write := write, target := target, offset := offset, addr := s.tack.flashAddr, len := s.tack.flashLen }
  { s with tack := { s.tack with flashRes := 0, flashProg := 0, flashCmd := some c } }

/-- R356, R366: FLASH_WRITE; the slot is erased first (R350). -/
def flashWriteCmd (s : State) (target : BitVec 4) : State :=
  let t := target.toNat
  if s.tack.flashCmd.isSome then setFlashRes s fState
  else if 1 < t then setFlashRes s fBadOp
  else if !s.tack.recovery && decide (bit s.tack.slot = t) then setFlashRes s fState
  else if !flashLenOk s then setFlashRes s fRange
  else
    let s1 := startFlash s true target 0
    { s1 with flash := tabClear s1.flash (slotBase t) (slotBase t + 0x1000000) }

/-- R356, R366: FLASH_READ. -/
def flashReadCmd (s : State) (target : BitVec 4) (offset : BitVec 12) : State :=
  if s.tack.flashCmd.isSome then setFlashRes s fState
  else if 4 < target.toNat then setFlashRes s fBadOp
  else if !flashLenOk s || regionSize target.toNat < 4096 * offset.toNat + s.tack.flashLen.toNat then
      setFlashRes s fRange
  else startFlash s false target offset

/-- R366: a value written to TACK_FLASH_CMD. -/
def flashCommand (s : State) (op : Nat) (target : BitVec 4) (offset : BitVec 12) : State :=
  match op with
  | 1 => flashWriteCmd s target
  | 2 => flashReadCmd s target offset
  | _ => setFlashRes s fBadOp

/-- FLASH_WRITE (R356). -/
def execFlashWrite (target : BitVec 4) (s : State) : Host.Outcome State Fault Refusal :=
  .next <| pfCore s fun st => (flashCommand st 1 target 0).answer .ok

/-- FLASH_READ (R356). -/
def execFlashRead (target : BitVec 4) (offset : BitVec 12) (s : State) : Host.Outcome State Fault Refusal :=
  .next <| pfCore s fun st => (flashCommand st 2 target offset).answer .ok

/-- FLASH_BAD_OP (R366). -/
def execFlashBadOp (op : BitVec 4) (s : State) : Host.Outcome State Fault Refusal :=
  .next <| pfCore s fun st => (flashCommand st (if op.toNat = 1 || op.toNat = 2 then 0 else op.toNat) 0 0).answer .ok

/-- R356: one more than the highest SEQUENCE among the accepted slots. -/
def nextSequence (s : State) : Nat :=
  ((List.range 2).filter fun i => (slotAccepted s i).isSome).foldl (fun m i => max m (slotSequence s i + 1)) 0

/-- R356: the least SVN a written slot must have. -/
def leastSvn (s : State) : Nat := if s.tack.recovery then s.tack.fuses.svn.toNat else s.tack.runSvn.toNat

/-- R350, R356: the slot written, verified and, when it passes, committed. -/
def finishWrite (s : State) (c : FlashCmd) : State :=
  let b := slotBase c.target.toNat
  let r := readMem s c.addr.toNat (min commitSector c.len.toNat)
  if r.2.2 then setFlashRes r.1 fBadImage
  else
    let s1 := { r.1 with flash := flashStore r.1.flash b r.2.1 }
    if (slotImage s1 b (leastSvn s1)).isNone then setFlashRes s1 fBadImage
    else
      let f1 := flashStore s1.flash (b + commitSector) (leBytes (nextSequence s1) 4)
      setFlashRes { s1 with flash := flashStore f1 (b + commitSector + 4092) (leBytes flashCommit 4) } 0

/-- R356: the bytes a FLASH_READ copies, of a store those of its newest valid copy; none when no copy is valid. -/
def flashSource (s : State) (c : FlashCmd) : Option (List Byte) :=
  let t := c.target.toNat
  let off := 4096 * c.offset.toNat
  if t ≤ 1 then some (flashBytes s.flash (slotBase t + off) c.len.toNat)
  else (newestCopy s t).map fun k => flashBytes s.flash (regionBase t k + off) c.len.toNat

/-- R356: the read delivered to device memory. -/
def finishRead (s : State) (c : FlashCmd) : State :=
  match flashSource s c with
  | some bs => setFlashRes (writeMem s c.addr.toNat bs false) 0
  | none => setFlashRes s fErr

/-- FLASH_COMMAND_DONE (R174, R175, R356): the command ends, once the memory it copies to or from can be reached;
`err` says that the flash failed, as it does where no flash of R348 is [68]. -/
def execFlashCommandDone (err : Bool) (s : State) : Host.Outcome State Fault Refusal :=
  .next <|
    match s.tack.flashCmd with
    | none => s
    | some c =>
      if memBusy s c.addr.toNat c.len.toNat then s else
      let s1 := { s with tack := { s.tack with flashCmd := none, flashProg := 100 } }
      if err || !flashFitted s then setFlashRes s1 fErr else if c.write then finishWrite s1 c else finishRead s1 c

/-! ### Life cycle and tokens (R357 to R364, R367) -/

def secState : Nat := 1
def secAuth : Nat := 2
def secBad : Nat := 3

def setSecRes (s : State) (r : Nat) : State := { s with tack := { s.tack with secRes := BitVec.ofNat 3 r } }

/-- R364: SEC_NONCE changes after an attempt. -/
def newNonce (s : State) : State := { s.useFree with tack := { s.tack with nonce := s.freeNow.setWidth 32 } }

/-- R364: the token at SEC_TOKEN verifies under the key of a hash, for a target: the state after reading it. -/
def tokenOk (s : State) (target : Nat) (key : BitVec 384) : State × Bool :=
  let r := readMem s s.tack.token.toNat 112
  let v := leNat r.2.1
  let named := bitsAt v 0 64 = s.tack.fuses.serial.toNat && bitsAt v 64 8 = target &&
    bitsAt v 96 32 = s.tack.nonce.toNat
  (r.1, !r.2.2 && named &&
    Config.ecdsaVerify (Config.keyOfHash key) (Config.sha384 (r.2.1.take 16)) (BitVec.ofNat 768 (bitsAt v 128 768)))

/-- R174, R175: a command whose token memory cannot give yet waits for it; BUSY is set meanwhile. -/
def withToken (s : State) (op target : Nat) (key : BitVec 384) (pass : State → State) : State :=
  if memBusy s s.tack.token.toNat 112 then
    { s with tack := { s.tack with secBusy := true, secWait := some (op, target) } }
  else
    let r := tokenOk s (if op = 2 then 7 else target) key
    if r.2 then pass (newNonce r.1) else setSecRes (newNonce r.1) secAuth

/-- The device is READY. -/
def inReady (s : State) : Bool := s.tack.readyNow && !s.flt.failed

/-- R357: a token that a transition needs: the hash of its key. -/
def lcKey (s : State) (target : Nat) : Option (BitVec 384) :=
  match target with
  | 1 => some Config.romKeyHash
  | 3 => some s.tack.fuses.keyHash
  | _ => none

/-- R357: where a transition is allowed. -/
def lcAllowed (s : State) (target : Nat) : Bool :=
  decide (target = lcState s + 1) && decide (target ≤ 4) &&
    match target with
    | 2 => inReady s
    | 3 => inReady s || s.tack.recovery
    | _ => true

/-- R358: the transition: fuses, MRAM header and save record, identity seed, and the warm reset. -/
def advanceLc (s : State) (target : Nat) : State :=
  let f := s.tack.fuses
  let s1 := { s with tack := { s.tack with fuses := { f with
    lc := f.lc ||| BitVec.ofNat 8 (3 * 4 ^ (target - 1)), seed := if target < 3 then f.seed else none } } }
  warmReset (checkMramState (setSecRes s1 0)) causeLc

/-- LC_ADVANCE (R357, R358, R364): refused with STATE, or with AUTH for its token. -/
def lcAdvance (s0 : State) (target : Nat) : State :=
  if !lcAllowed s0 target then setSecRes (newNonce s0) secState
  else match lcKey s0 target with
    | none => advanceLc (newNonce s0) target
    | some key => withToken s0 1 target key fun st => advanceLc st target

/-- DEBUG_UNLOCK (R363, R364): in DEPLOYED; the warm reset comes before access opens. -/
def debugUnlock (s : State) : State :=
  if lcState s ≠ 2 then setSecRes (newNonce s) secState
  else
    withToken s 2 0 s.tack.fuses.keyHash fun st =>
      let s1 := warmReset st causeDebug
      { s1 with tack := { s1.tack with debugOpen := true } }

/-- ADVANCE_SVN (R362). -/
def raiseSvn (s : State) : State :=
  if inReady s then
    let f := s.tack.fuses
    setSecRes { s with tack := { s.tack with fuses := { f with svn := if f.svn < s.tack.runSvn then s.tack.runSvn else f.svn } } } 0
  else setSecRes s secState

/-- The SEC command of an OP. -/
def runSec (s : State) (op target : Nat) : State :=
  match op with
  | 1 => lcAdvance s target
  | 2 => debugUnlock s
  | 3 => raiseSvn s
  | _ => setSecRes s secBad

/-- R367: a value written to SEC_CMD; DESIGN CHOICE [79]: while one waits for its token another is refused with STATE. -/
def secCommand (s : State) (op target : Nat) : State :=
  if s.tack.secBusy && 1 ≤ op && op ≤ 3 then setSecRes s secState else runSec s op target

/-- R174, R364: a command that waited for its token goes on once memory gives it. -/
def resumeSec (s : State) : State :=
  match s.tack.secWait with
  | some w =>
    if memBusy s s.tack.token.toNat 112 then s
    else runSec { s with tack := { s.tack with secBusy := false, secWait := none } } w.1 w.2
  | none => s

/-- LC_ADVANCE (R357, R358). -/
def execLcAdvance (target : BitVec 3) (s : State) : Host.Outcome State Fault Refusal :=
  .next <| pfCore s fun st => (secCommand st 1 target.toNat).answer .ok

/-- DEBUG_UNLOCK (R363). -/
def execDebugUnlock (s : State) : Host.Outcome State Fault Refusal :=
  .next <| pfCore s fun st => (secCommand st 2 0).answer .ok

/-- ADVANCE_SVN (R362). -/
def execAdvanceSvn (s : State) : Host.Outcome State Fault Refusal :=
  .next <| pfCore s fun st => (secCommand st 3 0).answer .ok

/-- SEC_BAD_OP (R367). -/
def execSecBadOp (op : BitVec 4) (s : State) : Host.Outcome State Fault Refusal :=
  .next <| pfCore s fun st => (secCommand st (if 1 ≤ op.toNat && op.toNat ≤ 3 then 0 else op.toNat) 0).answer .ok

/-! ### Test access and messages (R335, R359, R363, R442) -/

/-- R359: the life-cycle state allows a TAP instruction; the chain and core debug have a column of their own. -/
def tapAllowed (s : State) (i : TapInstr) : Bool :=
  if tapReaches i then debugAccess s.tack.fuses s.tack.debugOpen
  else match lcState s with
    | 2 =>
      match i with
      | .idcode => true
      | .bypass => true
      | .samplePreload => true
      | .other => false
      | _ => !s.tack.everReady
    | 4 => decide (i = .idcode) || decide (i = .bypass)
    | _ => true

/-- R363: the dies in the chain behind the TAP, by the numbers of R389's units: those whose domain is enabled, while an
instruction selects it. -/
def chainDies (s : State) : List Nat :=
  if s.tack.tap = .chain then (List.range 112).filter (unitPowered s) else []

/-- TAP_INSTRUCTION (R359, R363, R439): a refused one selects BYPASS. `trstN` is TRST_N: nothing loads while it is low,
which holds the TAP in reset [3]. -/
def execTapInstruction (i : TapInstr) (trstN : Bool) (s : State) : Host.Outcome State Fault Refusal :=
  .next <| { s with
    pins := { s.pins with trstN := trstN },
    tack := { s.tack with tap := if trstN && tapAllowed s i then i else .bypass } }

/-- R335: the five measurements. -/
def measurements (s : State) : List (BitVec 384) :=
  let b := slotBase (bit s.tack.slot)
  let body := flashNat s (b + 0xC) 4
  let caps := (List.range 64).flatMap fun d => if s.held d then leBytes (s.site (s.siteOf d)).cap.toNat 8 else []
  [Config.romHash,
   Config.sha384 (flashBytes s.flash b (0x1000 + body)),
   Config.sha384 (flashBytes s.flash (b + 0x1000 + flashNat s (b + 0x10) 4) 64),
   Config.sha384 (BitVec.ofNat 8 (lcState s) :: BitVec.ofNat 8 (bit s.tack.debugOpen) :: leBytes s.tack.fuses.keyHash.toNat 48),
   Config.sha384 (caps ++ [s.pnet.fabricNum])]

/-- What the standards' answers rest on (R335, R361, R397, R409). -/
def standardView (s : State) : StandardView :=
  { measurements := measurements s, slot0 := s.tack.slot0, aliasKey := s.tack.aliasKey, sessionKey := s.tack.sessionKey,
    records := s.flt.recs.map fun e => e.2.toLine, thermStatus := thermStatus s }

/-- A message of a standard answered (R335, R442) [20]. -/
def answerMessage (s : State) (req : List Byte) : State :=
  s.useFree.answer (.message (Config.standardResponse s.free req (standardView s)))

/-- SPDM_REQUEST (R335, R336, R360): answered once the firmware runs; a request can set up a session, and IDE_KM can
make a stream Secure. -/
def execSpdmRequest (req : List Byte) (s : State) : Host.Outcome State Fault Refusal :=
  .next <|
    if !deviceUp s || s.tack.step.toNat < 3 then s.answer .none
    else
      let s0 := match Config.sessionKeyed s.free req with
        | some k => { s with tack := { s.tack with sessionKey := some k } }
        | none => s
      let s1 := match Config.ideKeyed s.free req with
        | some k => { s0 with host := { s0.host with ide := tabSet (fun _ => 0) s0.host.ide k.val 1 } }
        | none => s0
      answerMessage s1 req

/-- SMBUS_REQUEST (R442, R347): the target at 0x6A. -/
def execSmbusRequest (addr : BitVec 7) (req : List Byte) (s : State) : Host.Outcome State Fault Refusal :=
  .next <| if addr = 0x6A && s.tack.step ≠ 0 then answerMessage s req else s.answer .none

end Sys2Proof.Machine
end

