-- ==== Sys2Proof/Machine/Lanes.lean ====
section
/-! DEFINITION. The commands of the optical lanes: link states, training, the capability exchange, loss of light, lane
commands and the lane registers (09_optical_lanes.md, R280 to R282). -/

namespace Sys2Proof.Machine

open Sys2Proof

/-! ### Discovery and training (R239, R240, R237, R241) -/

/-- BEACON_TRANSMIT (R240): in DOWN and DETECT, with ENABLE set, the clock pattern on λ0 alone. -/
def execBeaconTransmit (l : LinkId) (s : State) : Host.Outcome State Fault Refusal :=
  .next <|
    let n := l.toNat
    let k := s.link n
    if (k.st = .down || k.st = .detect) && k.enable then
      s.setLink n (driveLanes s n (clockFrame { k with lastFrame := [] }))
    else s

/-- R239: a link in DOWN may leave it. -/
def mayLeaveDown (s : State) (l : Nat) : Bool := (s.link l).enable && decide ((s.oe (l / 8)).st = .ready)

/-- R239, R275: DOWN ends. -/
def leaveDown (s : State) (l : Nat) : State :=
  endCondition ((setLinkSt s l .detect).updLink l fun k => { k with downReason := 0 }) (srcLink l) cLinkDown

/-- BEACON_DETECTED (R239, R240). -/
def execBeaconDetected (l : LinkId) (s : State) : Host.Outcome State Fault Refusal :=
  .next <|
    match (s.link l.toNat).st with
    | .down => if mayLeaveDown s l.toNat then leaveDown s l.toNat else s
    | .detect => enterTrain s l.toNat
    | _ => s

/-- PARTNER_CLOCK_DETECTED (R239). -/
def execPartnerClockDetected (l : LinkId) (s : State) : Host.Outcome State Fault Refusal :=
  .next <|
    match (s.link l.toNat).st with
    | .down => if mayLeaveDown s l.toNat then leaveDown s l.toNat else s
    | .detect => enterTrain s l.toNat
    | .hold => setLinkSt s l.toNat .detect
    | _ => s

/-- R228: the open steps in a row from step `i` of a sweep, in which bit `i` says that step `i` is open. The steps are
those of one UI, so step 0 follows step 63. -/
def openRun (eye : BitVec 64) (i : Nat) : Nat :=
  (((List.range 64).map fun d => eye.getLsbD ((i + d) % 64)).takeWhile id).length

/-- R228: the centre of the widest open region of a sweep, the first of equal ones [66]; none with no open step. -/
def sweepCentre (eye : BitVec 64) : Option (BitVec 6) :=
  let best := (List.range 64).foldl (fun b i => if openRun eye b < openRun eye i then i else b) 0
  if openRun eye best = 0 then none else some (BitVec.ofNat 6 ((best + (openRun eye best - 1) / 2) % 64))

/-- R228: the lanes with light are phase-set by a sweep. -/
def sweepLanes (s : State) (l : Nat) (eyes : List (BitVec 64)) : State :=
  (List.range 16).foldl (fun st i => updLane st l i fun y =>
    match sweepCentre ((eyes[i]?).getD 0) with
    | some p => if y.los then y else { y with bitLock := true, phase := p }
    | none => y) s

/-- R235: λ0 light is present. -/
def clockLight (k : LinkS) : Bool := !(k.lane 0).los && !(k.lane 0).lol

/-- R239, R245: a FULL retrain is at a stage of its training. -/
def atStage (k : LinkS) (n : Nat) : Bool := k.st = .retrain && k.kind = some .full && k.stage = n

/-- TRAIN_COMPLETE (R228, R239, R245): the sweep of each lane. -/
def execTrainComplete (l : LinkId) (eyes : List (BitVec 64)) (s : State) : Host.Outcome State Fault Refusal :=
  .next <|
    let n := l.toNat
    let k := s.link n
    if !clockLight k then s
    else if k.st = .train then setLinkSt (sweepLanes s n eyes) n .align
    else if atStage k 0 then (sweepLanes s n eyes).updLink n fun y => { y with stage := 1 }
    else s

/-- R219, R247: the pilot result of a drop ring, UNSURE where a v1 partner sends no pilots. -/
def pilotSays (s : State) (l i : Nat) : Nat :=
  let k := s.link l
  if k.known && !k.version then 2 else ((s.oe (l / 8)).ring (dropRing l i)).pilotResult.toNat

/-- R219, R248: training or alignment words name another lane: the lane is left out. Unless its pilot says MATCH its
drop ring is mislocked; unless it says MISMATCH the mismatch is reported to the partner [66]. -/
def laneMismatch (s : State) (l i : Nat) : State :=
  let p := pilotSays s l i
  let s1 := updLane s l i fun y => { y with idMis := true, out := true, misSent := y.misSent || decide (p ≠ 1) }
  if p = 0 then s1 else declareMislock s1 (l / 8) (dropRing l i)

/-- R219: the partner reports a mismatch of a lane of this device, whose modulator ring is then mislocked. -/
def partnerMismatch (s : State) (l i : Nat) (told : Bool) : State :=
  if told then declareMislock s (l / 8) (txRing l i) else s

/-- R237: the firmware's lane search runs: in ALIGN, and within a FULL retrain. -/
def aligning (k : LinkS) : Bool := k.st = .align || atStage k 1

/-- R236: the first two bytes of a word complement each other, and the last two. -/
def w1Good (w : Reg32) : Bool :=
  bitsAt w.toNat 0 8 + bitsAt w.toNat 8 8 = 255 && bitsAt w.toNat 16 8 + bitsAt w.toNat 24 8 = 255

/-- R215, R236, R247: the map with which the partner retrains comes in the logical lanes of its training words. -/
def takeLogical (k : LinkS) (i : Nat) (w1 : Reg32) : LinkS :=
  let j := min 13 (bitsAt w1.toNat 16 8)
  let m := match laneWave k.rxMap j with
    | some w => if j < 13 then setRole k.rxMap w 13 else k.rxMap
    | none => k.rxMap
  if k.st = .retrain then { k with rxMap := setRole m i j } else k

/-- R236, R237: a lane after `blocks` training blocks in a row at its boundary; a block off it ends the run. -/
def countHits (y : Lane) (blocks : Nat) (w1 : Reg32) : Lane :=
  let z := { y with hits := BitVec.ofNat 4 (min 15 blocks), rxLane := if w1Good w1 then w1.setWidth 4 else y.rxLane }
  if 8 ≤ blocks then { z with wordLock := true } else z

/-- WORD_LOCK (R219, R236, R237): training blocks in a row at the boundary: at 8 the lane has its lock, and one that
names another lane is left out. -/
def execWordLock (l : LinkId) (i : Wave) (blocks : Nat) (w1 : Reg32) (told : Bool) (s : State) :
    Host.Outcome State Fault Refusal :=
  .next <|
    let n := l.toNat
    let k := i.toNat
    let s0 := partnerMismatch s n k told
    if !aligning (s0.link n) || k = 0 || !((s0.link n).lane k).bitLock then s0
    else
      let s1 := updLane s0 n k fun y => countHits y blocks w1
      if blocks < 8 || !w1Good w1 then s1
      else
        let s2 := s1.updLink n (takeLogical · k w1)
        if bitsAt w1.toNat 0 8 = k then s2 else laneMismatch s2 n k

/-- R237: SLIP moves the word boundary one UI later. A lane that has no lock after 32 of them is left out. -/
def slipLane (s : State) (l i : Nat) : State :=
  let search := aligning (s.link l)
  updLane s l i fun y => { y with
    offset := y.offset + 1, hits := 0, wordLock := false, slips := if search then y.slips + 1 else y.slips,
    out := y.out || (search && decide (32 ≤ y.slips + 1)) }

/-- SLIP (R237, R249). -/
def execSlip (l : LinkId) (i : Wave) (s : State) : Host.Outcome State Fault Refusal :=
  .next <| pfAccess s fun st => (slipLane st l.toNat i.toNat).answer .ok

/-- R236: the frame count in a W2 whose halves complement each other. -/
def w2Count (w : Reg32) : Option (BitVec 16) :=
  if bitsAt w.toNat 0 16 + bitsAt w.toNat 16 16 = 65535 then some (w.setWidth 16) else none

/-- R237: the lanes to deskew with their frame counts at one instant. -/
def deskewCounts (k : LinkS) (w2 : List Reg32) : List (Nat × BitVec 16) :=
  (List.range 16).filterMap fun i =>
    if 1 ≤ i && (k.lane i).wordLock && !(k.lane i).out then ((w2[i]?).bind w2Count).map fun c => (i, c) else none

/-- R237: how many frames each lane is ahead of the one that arrives last: frame counts are compared modulo 2^16. -/
def skewsOf (cs : List (Nat × BitVec 16)) : List (Nat × Nat) :=
  match cs with
  | [] => []
  | c0 :: _ =>
    let off := cs.map fun c => (c.1, (c.2 - c0.2).toInt)
    let last := off.foldl (fun m c => min m c.2) 0
    off.map fun c => (c.1, (c.2 - last).toNat)

/-- R237: deskew of the word-locked lanes within 16 frames, 512 UI. -/
def deskewLanes (s : State) (l : Nat) (w2 : List Reg32) : State :=
  let sk := skewsOf (deskewCounts (s.link l) w2)
  (List.range 16).foldl (fun (st : State) (i : Nat) => updLane st l i fun y =>
    match sk.find? fun c => c.1 = i && c.2 ≤ 16 with
    | some c => { y with deskewed := true, delay := (32 * c.2 : Int) }
    | none => { y with deskewed := false }) s

/-- Lanes locked and deskewed (R239, RX_MASK). -/
def lockedLanes (k : LinkS) : BitVec 16 :=
  BitVec.ofNat 16 (((List.range 16).map fun i =>
    if 1 ≤ i && (k.lane i).wordLock && (k.lane i).deskewed && !(k.lane i).out then 2 ^ i else 0).sum)

/-- R229, R230, R243, R244: an exchange begins, unscrambled, at 32 Gb/s, with a seed that is not 0: a free value. The
receive lanes' runs are those that a training block ends with [66]. -/
def beginExchange (k : LinkS) (seed : BitVec 31) : LinkS :=
  { clearExchange k with
    fast := false, scr := [], rxScr := [], txBits := [], oldBits := 0, rxBits := [],
    rxRuns := (List.range 15).map fun i => (i + 1, lastRun w3Train), seed := if seed = 0 then 1 else seed }

/-- R239, R245: the exchange of a link that comes up, or of a FULL retrain. -/
def enterExchange (s : State) (l : Nat) : State :=
  let seed := s.freeNow.setWidth 31
  if (s.link l).st = .retrain then s.useFree.updLink l fun k => { beginExchange k seed with stage := 2 }
  else (endHold (setLinkSt s.useFree l .exchange) l).updLink l fun k => beginExchange k seed

/-- Lanes locked and deskewed, counted. -/
def lockedCount (k : LinkS) : Nat := ((List.range 16).filter fun i => (lockedLanes k).getLsbD i).length

/-- ALIGN_COMPLETE (R237, R239, R245, R248): at least 8 lanes locked and deskewed, from W2 of each lane at one
instant. A FULL retrain with fewer takes the link DOWN. -/
def execAlignComplete (l : LinkId) (w2 : List Reg32) (s : State) : Host.Outcome State Fault Refusal :=
  .next <|
    let n := l.toNat
    if !aligning (s.link n) then s
    else
      let s1 := deskewLanes s n w2
      if 8 ≤ lockedCount (s1.link n) then enterExchange s1 n
      else if (s.link n).st = .retrain then enterDown s1 n dLanes
      else s

/-- STAGE_TIMEOUT (R239, R246): not while the exchange is held. -/
def execStageTimeout (l : LinkId) (s : State) : Host.Outcome State Fault Refusal :=
  .next <|
    let k := s.link l.toNat
    if (k.st = .train || k.st = .align || k.st = .exchange) && !k.held then
      (setLinkSt s l.toNat .detect).updLink l.toNat clearExchange
    else s

/-! ### The capability exchange (R243 to R246, R291, R292) -/

/-- R243: the partner a message describes. -/
def msgPartner (p : BitVec 512) : Partner :=
  { serial := p.extractLsb' 64 64, dev := BitVec.ofNat 6 (bitsAt p.toNat 128 6), port := BitVec.ofNat 6 (bitsAt p.toNat 136 6),
    manager := bitAt p.toNat 135, verMax := BitVec.ofNat 3 (min 7 (payByte p 2)),
    session := if payByte p 2 < 2 then 0 else p.extractLsb' 192 32 }

/-- R244: the version both accept. -/
def agreedVersion (k : LinkS) (p : BitVec 512) : Option Nat :=
  let v := min 2 (payByte p 2)
  if max (if k.v1Allow then 1 else 2) (payByte p 3) ≤ v then some v else none

/-- R291: the message is that of a second manager. -/
def twoManagers (s : State) (q : Partner) : Bool := s.sys.manager && q.manager

/-- R292: the number is this device's own, or another link's partner holds it under another SERIAL. -/
def dupNumber (s : State) (l : Nat) (q : Partner) : Bool :=
  q.dev.toNat = myDev s ||
    (List.range 64).any fun m => m ≠ l && (s.link m).known && (s.link m).partner.dev = q.dev &&
      decide ((s.link m).partner.serial ≠ q.serial)

/-- R246: the same identity. -/
def samePartner (a b : Partner) : Bool := a.serial = b.serial && a.dev = b.dev && a.port = b.port

/-- R246: the exchange holds. A FULL retrain holds in EXCHANGE. -/
def holdExchange (s : State) (l : Nat) (cand : Option Partner) : State :=
  (setLinkSt s l .exchange).updLink l fun k => { k with held := true, cand := cand, kind := none }

/-- R291: a worker records its manager. -/
def noteManager (s : State) (q : Partner) : State :=
  if !s.sys.manager && q.manager && !s.sys.mgrKnown then
    { s with sys := { s.sys with mgrKnown := true, mgrDev := q.dev } }
  else s

/-- R245, R248: a map without the lanes that a FULL retrain has not found again, which take the role given. -/
def keepLanes (m : BitVec 64) (mask : BitVec 16) (role : Nat) : BitVec 64 :=
  (List.range 16).foldl (fun y i => if 1 ≤ i && !mask.getLsbD i && roleAt y i ≠ 15 then setRole y i role else y) m

/-- R213, R247: what the agreed version changes at the engine: with a v1 partner no report gives FAR, and λ15 is
silenced. -/
def versionAt (s : State) (l : Nat) (v2 : Bool) : State :=
  if v2 then updRing s (l / 8) (txRing l 15) fun x =>
      { x with silenced := x.silenced && (decide (x.st ≠ .locked) || decide (0 < x.recStep)) }
  else (updRing s (l / 8) (txRing l 15) fun x => { x with silenced := true }).updOe (l / 8) fun o => { o with
    far := (List.range 16).foldl (fun t i => tabSet (fun _ => 0x8000) t (16 * (l % 8) + i) 0x8000) o.far }

/-- R241, R244 to R246, R263, R288: the message is accepted: the partner recorded, the lesser values agreed, the lanes
assigned; in a FULL retrain the maps are kept, but for the lanes that are lost. -/
def acceptMessage (s : State) (l : Nat) (q : Partner) (ver : Nat) (p : BitVec 512) : State :=
  let k := s.link l
  let x := s.ll l
  let v2 := ver = 2
  let vcs := max 2 (min (if v2 then 8 else 4) (min x.vcsMax.toNat (payByte p 5)))
  let theirs := BitVec.ofNat 16 (bitsAt p.toNat 48 16)
  let m := assignLanes (lockedLanes k &&& theirs) v2 (payByte p 19)
  let tx := if k.st = .retrain then keepLanes k.laneMap theirs 15 else m
  let rx := if k.st = .retrain then keepLanes k.rxMap (lockedLanes k) 13 else m
  let ack := bitAt p.toNat 144
  let s1 := (noteManager s q).setLink l { k with
    known := true, partner := q, version := v2, vcs := BitVec.ofNat 4 vcs, rxMask := theirs,
    pSeed := p.extractLsb' 160 31, pFast := v2 && bitAt p.toNat 33,
    pFlags := if v2 then BitVec.ofNat 3 (bitsAt p.toNat 224 3) else 0,
    held := false, cand := none, msgRx := true, ackRx := k.ackRx || ack, laneMap := tx, rxMap := rx }
  let s2 := versionAt (s1.setLl l (if k.vcs.toNat = vcs then x else remapVcs x vcs)) l v2
  if mapLanes tx < 8 || mapLanes rx < 8 then enterDown s2 l dLanes else s2

/-- R246, R291, R292: a message's identity checked. -/
def takeMessage (s : State) (l : Nat) (p : BitVec 512) : State :=
  let k := s.link l
  let q := msgPartner p
  match agreedVersion k p with
  | none => report (enterDown s l dVersion) (srcLink l) cLinkVersion 0
  | some ver =>
    let two := twoManagers s q
    let dup := dupNumber s l q
    if two || dup then
      if k.held then s
      else
        let s1 := holdExchange { s with sys := { s.sys with
          twoMgr := s.sys.twoMgr || two, dup := s.sys.dup || dup } } l none
        let s2 := if two then report s1 srcSystem cTwoManagers l else s1
        if dup then sendNoticeFor (report s2 srcSystem cDupNumber l) nDupNumber l q.dev.toNat else s2
    else if k.held && k.cand.isSome then s
    else if !k.known then acceptMessage s l q ver p
    else if !samePartner k.partner q then
      let s1 := holdExchange (s.updLink l fun y => { y with pChanged := true }) l (some q)
      sendNoticeFor (report s1 (srcLink l) cPartnerChanged 0) nPartnerChanged l q.dev.toNat
    else if k.partner.session = q.session then acceptMessage s l q ver p
    else
      let s1 := s.updLink l fun y => { y with pRestarted := true, partner := { y.partner with session := q.session } }
      let s2 := sendNotice s1 nPartnerRestarted l
      if holdsTraffic s l then holdExchange s2 l (some q)
      else acceptMessage (s2.updLl l fun x => { x with fresh := true }) l q ver p

/-- R240, R243, R244, R254: an EXCHANGE flit from its frames: before the partner's GO on the lanes of training, or of
the map that a retrain keeps; after it on the lanes agreed, scrambled. -/
def rxExchange (k : LinkS) (fl : RxFlit) : LinkS × Flit :=
  let r := rxTake { k with rxMap := if k.st = .retrain || k.goRx then k.rxMap else trainMap } fl
  ({ r.1 with rxMap := k.rxMap }, r.2)

/-- R243: a flit that carries a capability message. -/
def isCapability (f : Flit) : Bool := flitTyp f = 4 && bitsAt (flitPayload f).toNat 0 16 = 0x4F42

/-- CAPABILITY_MESSAGE (R243, R244, R246, R253, R254, R257): in ACTIVE only its slot and its ACK field count. -/
def execCapabilityMessage (l : LinkId) (fl : RxFlit) (s : State) : Host.Outcome State Fault Refusal :=
  .next <|
    let n := l.toNat
    let k := s.link n
    if k.st = .active then (rxArrive s n fl).1
    else if !inExchange k && !atStage k 3 then s
    else
      let x := rxExchange k fl
      let r := rxCheck (s.setLink n x.1) n x.2
      match r.2 with
      | some f => if isCapability f && inExchange k then takeMessage r.1 n (flitPayload f) else r.1
      | none => r.1

/-- GO_BLOCK (R239, R244, R245): the partner's GO: the exchange, its rate step or a QUICK retrain ends once this side's
has gone too. -/
def execGoBlock (l : LinkId) (s : State) : Host.Outcome State Fault Refusal :=
  .next <|
    let n := l.toNat
    let k := s.link n
    if k.st = .retrain && k.kind = some .quick then endQuick (s.setLink n (takeGo k)) n
    else if !inExchange k || !k.msgRx || k.held || stepping k then s
    else endExchange (s.setLink n (takeGo k)) n

/-- RATE_STEP_DONE (R228, R237, R244): the phase sweep and the realignment at 40 Gb/s; the second GO follows. -/
def execRateStepDone (l : LinkId) (eyes : List (BitVec 64)) (w2 : List Reg32) (s : State) :
    Host.Outcome State Fault Refusal :=
  .next <|
    let n := l.toNat
    if inExchange (s.link n) && stepping (s.link n) then
      (deskewLanes (sweepLanes s n eyes) n w2).updLink n fun y => { y with fast := true }
    else s

/-! ### Loss of light (R209, R217, R232, R234, R235, R239) -/

/-- CLOCK_LIGHT_LOST (R217, R235, R239, R248): λ0 has LOS or LOL. -/
def execClockLightLost (l : LinkId) (s : State) : Host.Outcome State Fault Refusal :=
  .next <|
    let e := l.toNat / 8
    if clockLight (s.link l.toNat) then s
    else
      let s1 := holdLink s l.toNat
      if (s.oe e).st = .ready && !(s.oe e).lit 0 && !lsAvailable (s.oe e) 0 then clockGone s1 e else s1

/-- LOS (R209, R234, R238). -/
def execLos (l : LinkId) (i : Wave) (s : State) : Host.Outcome State Fault Refusal :=
  .next <|
    let n := l.toNat
    let k := i.toNat
    let s1 := updLane s n k fun y => { y with los := true, deskewed := false, markers := 0 }
    updRing s1 (n / 8) (dropRing n k) freezeRing

/-- LOS_DEASSERT (R209, R223, R234): the drop ring of a wavelength never locked searches. -/
def execLosDeassert (l : LinkId) (i : Wave) (s : State) : Host.Outcome State Fault Refusal :=
  .next <|
    let n := l.toNat
    let k := i.toNat
    let s1 := updLane s n k fun y => { y with los := false }
    let r := dropRing n k
    let st := (s1.oe (n / 8)).st
    if ((s1.oe (n / 8)).ring r).st = .idle && st ≠ .off && st ≠ .lost then startSearch s1 (n / 8) r none else s1

/-- LOL (R234). -/
def execLol (l : LinkId) (i : Wave) (s : State) : Host.Outcome State Fault Refusal :=
  .next <| updLane s l.toNat i.toNat fun y => { y with lol := true }

/-- LOL_DEASSERT (R234): a data lane needs WORD_LOCK. -/
def execLolDeassert (l : LinkId) (i : Wave) (s : State) : Host.Outcome State Fault Refusal :=
  .next <|
    if i = 0 || ((s.link l.toNat).lane i.toNat).wordLock then updLane s l.toNat i.toNat fun y => { y with lol := false }
    else s

/-- LANE_FAILED (R235, R248), while λ0 light is present: moved to an idle spare, dropped, or with 8 lanes left a FULL
retrain. -/
def execLaneFailed (l : LinkId) (i : Wave) (s : State) : Host.Outcome State Fault Refusal :=
  .next <|
    let n := l.toNat
    let k := s.link n
    let w := i.toNat
    let j := roleAt k.rxMap w
    if k.st ≠ .active || 12 < j || !((k.lane w).los || (k.lane w).lol) || (k.lane w).out || !clockLight k then s
    else
      let s1 := report (updLane s n w fun y => { y with out := true }) (srcLink n) cLaneFailed w
      if usableSpares (s1.link n) = [] && mapLanes k.rxMap ≤ 8 then startRetrain s1 n .full
      else moveOrDrop (usableSpares (s1.link n)) (fun op wv => receiverLane s1 n op j wv) w

/-- HOLD_LIMIT_EXPIRY (R239). -/
def execHoldLimitExpiry (l : LinkId) (s : State) : Host.Outcome State Fault Refusal :=
  .next <| if (s.link l.toNat).st = .hold then enterDown s l.toNat dHold else s

/-! ### Retrains (R245, R246, R249) -/

/-- TRAINING_BLOCKS_RECEIVED (R245). -/
def execTrainingBlocksReceived (l : LinkId) (kind : RetrainKind) (s : State) : Host.Outcome State Fault Refusal :=
  .next <| if (s.link l.toNat).st = .active then startRetrain s l.toNat kind else s

/-- R245: what a QUICK retrain checks: every data lane has its word boundary and its deskew. -/
def quickOk (k : LinkS) : Bool :=
  (List.range 16).all fun i => 12 < roleAt k.rxMap i || ((k.lane i).wordLock && (k.lane i).deskewed)

/-- RETRAIN_COMPLETE (R245, R274): a QUICK retrain whose check passes sends GO, and one whose check fails goes on as a
FULL one; a FULL one ends once its training and exchange have. -/
def execRetrainComplete (l : LinkId) (s : State) : Host.Outcome State Fault Refusal :=
  .next <|
    let n := l.toNat
    let k := s.link n
    if k.st ≠ .retrain then s
    else if k.kind = some .full then (if k.stage = 3 then enterActive s n else s)
    else if quickOk k then s.setLink n { k with stage := 1 }
    else startRetrain s n .full

/-- The results of LINK_CMD. -/
def setLinkResult (s : State) (l r : Nat) : State := s.updLink l fun k => { k with cmdResult := BitVec.ofNat 2 r }

/-- R246: ACCEPT_PARTNER: only a hold for a changed or restarted partner, with no traffic held. -/
def acceptPartner (s : State) (l : Nat) : State :=
  let k := s.link l
  match k.cand with
  | some q =>
    if k.held && !holdsTraffic s l && !twoManagers s q && !dupNumber s l q then
      let s1 := (endHold (s.setLink l { k with known := true, partner := q }) l).updLl l fun x =>
        { x with fresh := true }
      setLinkResult s1 l 0
    else setLinkResult s l 1
  | none => setLinkResult s l 1

/-- R249: a value written to LINK_CMD. -/
def linkCommand (s : State) (l op : Nat) : State :=
  match op with
  | 1 => if (s.link l).st = .active then setLinkResult (startRetrain s l .full) l 0 else setLinkResult s l 1
  | 2 => acceptPartner s l
  | _ => setLinkResult s l 2

/-- RETRAIN (R245, R249). -/
def execRetrain (l : LinkId) (s : State) : Host.Outcome State Fault Refusal := .next <| pfAccess s fun st =>
    (linkCommand st l.toNat 1).answer .ok

/-- ACCEPT_PARTNER (R246). -/
def execAcceptPartner (l : LinkId) (s : State) : Host.Outcome State Fault Refusal := .next <| pfAccess s fun st =>
    (linkCommand st l.toNat 2).answer .ok

/-- LINK_CMD_BAD_OP (R249). -/
def execLinkCmdBadOp (l : LinkId) (op : BitVec 4) (s : State) : Host.Outcome State Fault Refusal :=
  .next <| pfAccess s fun st => (linkCommand st l.toNat (if op.toNat = 1 || op.toNat = 2 then 0
    else op.toNat)).answer .ok

/-! ### Registers (R8, R249) -/

/-- R248, R249: a value written to LINK_CTRL; clearing ENABLE enters DOWN at once. -/
def writeLinkCtrl (s : State) (l : Nat) (v : Reg32) : State :=
  let was := (s.link l).enable
  let s1 := s.updLink l fun k => { k with
    enable := v.getLsbD 0, v1Allow := v.getLsbD 1, holdLimit := BitVec.ofNat 10 (clampTo 1 1000 (bitsAt v.toNat 2 10)) }
  if was && !v.getLsbD 0 then enterDown s1 l dDisabled else s1

/-- LINK_CTRL_WRITE (R248, R249). -/
def execLinkCtrlWrite (l : LinkId) (v : Reg32) (s : State) : Host.Outcome State Fault Refusal :=
  .next <| pfAccess s fun s => (writeLinkCtrl s l.toNat v).answer .ok

/-- R8: 1 clears PARTNER_RESTARTED. -/
def clearRestarted (s : State) (l : Nat) (v : Reg32) : State :=
  s.updLink l fun k => { k with pRestarted := k.pRestarted && !v.getLsbD 5 }

/-- LINK_STATE_WRITE (R8). -/
def execLinkStateWrite (l : LinkId) (v : Reg32) (s : State) : Host.Outcome State Fault Refusal :=
  .next <| pfAccess s fun st => (clearRestarted st l.toNat v).answer .ok

/-- R8: 1 clears ID_MISMATCH. -/
def clearIdMis (s : State) (l i : Nat) (v : Reg32) : State :=
  updLane s l i fun y => { y with idMis := y.idMis && !v.getLsbD 9 }

/-- LINK_LANE_WRITE (R8). -/
def execLinkLaneWrite (l : LinkId) (i : Wave) (v : Reg32) (s : State) : Host.Outcome State Fault Refusal :=
  .next <| pfAccess s fun st => (clearIdMis st l.toNat i.toNat v).answer .ok

/-- LINK_LANE as it reads (R249). -/
def linkLaneReg (y : Lane) : Nat :=
  bit y.los + 2 * bit y.lol + 4 * bit y.bitLock + 8 * bit y.wordLock + 16 * bit y.deskewed + 2 ^ 5 * y.rxLane.toNat
    + 2 ^ 9 * bit y.idMis + 2 ^ 10 * y.phase.toNat + 2 ^ 16 * y.stuffErr.toNat

/-- R8: LINK_LANE, whose read clears STUFF_ERR. -/
def takeLane (s : State) (l i : Nat) : State × Nat :=
  (updLane s l i fun y => { y with stuffErr := 0 }, linkLaneReg ((s.link l).lane i))

/-- LINK_LANE_READ (R8). -/
def execLinkLaneRead (l : LinkId) (i : Wave) (s : State) : Host.Outcome State Fault Refusal :=
  .next <| pfAccess s fun st => answerRead (takeLane st l.toNat i.toNat)

/-! ### In service (R228, R232, R238) -/

/-- R232: one sign-sign LMS step of a tap, clamped to 127. -/
def lmsStep (tap : BitVec 8) (up : Bool) : BitVec 8 :=
  BitVec.ofInt 8 (max (-127) (min 127 (tap.toInt + if up then 1 else -1)))

/-- R232: the sample less what its taps subtract, for an amplitude and the three decisions before; bit k - 1 of
`decNeg` says that the decision k UI earlier was negative. -/
def equalised (y : Lane) (sample amp : Rat) (decNeg : BitVec 3) : Rat :=
  let sign := fun (k : Nat) => if decNeg.getLsbD k then (-1 : Rat) else 1
  sample - (((y.tap1.toInt : Rat) * sign 0 + (y.tap2.toInt : Rat) * sign 1 + (y.tap3.toInt : Rat) * sign 2) / 256) * amp

/-- R232: the error of an equalised sample is negative: it lies below the level of its own decision, half the amplitude
above or below 0 [66]. -/
def errNeg (v amp : Rat) : Bool := decide (v < if v < 0 then -(amp / 2) else amp / 2)

/-- EQUALISER_UPDATE (R232): sign-sign LMS of a lane whose adaptation is not held. -/
def execEqualiserUpdate (l : LinkId) (i : Wave) (sample amp : Rat) (decNeg : BitVec 3) (s : State) :
    Host.Outcome State Fault Refusal :=
  .next <|
    if i = 0 || eqStopped s l.toNat i.toNat then s
    else
      updLane s l.toNat i.toNat fun y =>
        let e := errNeg (equalised y sample amp decNeg) amp
        { y with tap1 := lmsStep y.tap1 (e = decNeg.getLsbD 0), tap2 := lmsStep y.tap2 (e = decNeg.getLsbD 1),
                 tap3 := lmsStep y.tap3 (e = decNeg.getLsbD 2) }

/-- PHASE_TRACKER_UPDATE (R228): one step; a whole UI changes the deskew delay. -/
def execPhaseTrackerUpdate (l : LinkId) (i : Wave) (later : Bool) (s : State) : Host.Outcome State Fault Refusal :=
  .next <|
    updLane s l.toNat i.toNat fun y =>
      if !y.bitLock then y
      else if later then { y with phase := y.phase + 1, delay := if y.phase = 63 then y.delay - 1 else y.delay }
      else { y with phase := y.phase - 1, delay := if y.phase = 0 then y.delay + 1 else y.delay }

/-- R238: a spare's lane after a marker whose sync word lies `slip` UI after the word boundary and whose first frame is
`ahead` frames ahead of the data lanes. -/
def markLane (y : Lane) (slip : BitVec 5) (ahead : Int) : Lane :=
  if slip = 0 && ahead = 0 then
    { y with markers := y.markers + 1, deskewed := y.deskewed || decide (2 ≤ y.markers + 1), wordLock := true }
  else { y with markers := 0, deskewed := false, offset := y.offset + slip, delay := y.delay + 32 * ahead }

/-- MARKER (R219, R236, R238): a marker's W1 and W2, where it lies, and the frame count of the deskewed data lanes at
its first word: two agreeing markers set DESKEWED; one that disagrees clears it and corrects boundary and offset. -/
def execMarker (l : LinkId) (i : Wave) (slip : BitVec 5) (w1 w2 : Reg32) (frame : BitVec 16) (told : Bool)
    (s : State) : Host.Outcome State Fault Refusal :=
  .next <|
    let n := l.toNat
    let s0 := partnerMismatch s n i.toNat told
    let k := s0.link n
    if k.st ≠ .active || !k.version || roleAt k.rxMap i.toNat ≠ 13 || (k.lane i.toNat).los || !w1Good w1 then s0
    else match w2Count w2 with
      | none => s0
      | some c =>
        let s1 := updLane s0 n i.toNat fun y => { markLane y slip (c - frame).toInt with rxLane := w1.setWidth 4 }
        if bitsAt w1.toNat 0 8 = i.toNat then s1 else laneMismatch s1 n i.toNat

/-! ### Lane commands received (R280 to R282) -/

/-- LANE_REQ (R280, R281). -/
def execLaneReq (l : LinkId) (fl : RxFlit) (s : State) : Host.Outcome State Fault Refusal :=
  .next <| rxMgmt s l.toNat fl 2 false (fun _ _ => true) fun st p => queueRxCmd st l.toNat (laneCmdOf p)

/-- R282: the transmitter can drive the target wavelength. -/
def canDrive (s : State) (l : Nat) (c : LaneCmd) : Bool :=
  let w := c.wave.toNat % 16
  c.op.toNat = lcDrop ||
    ((s.oe (l / 8)).lit w && decide (((s.oe (l / 8)).ring (txRing l w)).st ≠ .failed))

/-- R281, R282: a LANE_SET taken, or too late. -/
def takeLaneSet (s : State) (l : Nat) (p : BitVec 512) : State :=
  let eff := BitVec.ofNat 16 (bitsAt p.toNat 48 16)
  let c := { laneCmdOf p with eff := some eff }
  let s1 := pmuCount s (wOe (l / 8)) evLaneCmds (l % 8) 1
  let x := s1.ll l
  if x.cmdTx.isSome then s1
  else if (eff - x.txSlot).toInt < 256 || !canDrive s1 l c then
    (askRetrain s1 l).updLl l fun y => noteLane y c lrLate
  else s1.setLl l { x with cmdTx := some c }

/-- LANE_SET (R281, R282). -/
def execLaneSet (l : LinkId) (fl : RxFlit) (s : State) : Host.Outcome State Fault Refusal :=
  .next <| rxMgmt s l.toNat fl 3 false (fun _ _ => true) fun st p => takeLaneSet st l.toNat p

/-- R281, R282: a refused request ends. -/
def takeRefuse (s : State) (l : Nat) (p : BitVec 512) : State :=
  s.updLl l fun x =>
    match x.reqQ with
    | c :: _ => if c.id.toNat = payByte p 1 then endReq (noteLane x c (payByte p 5)) else x
    | [] => x

/-- LANE_REFUSE (R281). -/
def execLaneRefuse (l : LinkId) (fl : RxFlit) (s : State) : Host.Outcome State Fault Refusal :=
  .next <| rxMgmt s l.toNat fl 4 false (fun _ _ => true) fun st p => takeRefuse st l.toNat p

/-- DESKEW_WAIT_END (R281): LANE_SET once DESKEWED, else LANE_REFUSE, and the next command. -/
def execDeskewWaitEnd (l : LinkId) (s : State) : Host.Outcome State Fault Refusal :=
  .next <|
    let n := l.toNat
    let k := s.link n
    s.updLl n fun x =>
      match x.cmdRx with
      | some c =>
        if c.eff.isSome then x
        else if laneSettled k c then sendSet x c
        else
          let y := queueMgmt (noteLane { x with cmdRx := none } c lrNotDeskewed) (lanePayload 4 c lrNotDeskewed)
          nextRxCmd k y.cmdQ.length y
      | none => x

/-- LANE_MAP_EFFECTIVE (R281). -/
def execLaneMapEffective (l : LinkId) (tx : Bool) (s : State) : Host.Outcome State Fault Refusal :=
  .next <|
    if (s.link l.toNat).st ≠ .active then s
    else if tx then applyTxMap s l.toNat else applyRxMap s l.toNat

end Sys2Proof.Machine
end

