-- ==== Sys2Proof/Machine/Counters.lean ====
section
/-! DEFINITION. The commands of the PMU windows (R420 to R434). -/

namespace Sys2Proof.Machine

open Sys2Proof

/-- R420: the control-space offset of a PMU window. -/
def pmuBase (u : Nat) : Nat :=
  if u < 64 then 0x01000000 + 0x10000 * u
  else if u < 72 then 0x01400000 + 0x10000 * (u - 64)
  else if u < 96 then 0x01480000 + 0x10000 * (u - 72)
  else 0x01600000

/-- R428: a VF reaches the window of a compute die granted to one of its pens. -/
def pmuOwn (s : State) (f u : Nat) : Bool :=
  u < 64 && match penOfDie s u with
    | some p => penOwner s p = f
    | none => false

/-- R425: the counter loaded with its staged and its written bits. -/
def loadCounter (p : Pmu) (n : Nat) (v : Reg32) : Pmu :=
    p.setCount n (BitVec.ofNat 48 (v.toNat + 2 ^ 32 * (p.stageAt n).toNat))

/-- R425: the high bits staged. -/
def stageCounter (p : Pmu) (n : Nat) (v : Reg32) : Pmu :=
  { p with stage := tabSet (fun _ => 0) p.stage n (v.setWidth 16) }

/-- R424: the HI latch of a read of LO. -/
def latchCounter (p : Pmu) (n : Nat) : Pmu :=
  { p with latch := tabSet (fun _ => 0) p.latch n ((p.count n >>> 32).setWidth 16) }

/-- R434: the fields of PMU_CFG, and a value from them. -/
def cfgOf (v : Reg32) : PmuCfg :=
  { event := v.setWidth 10, sel := v.extractLsb' 10 6, selEn := v.getLsbD 16, en := v.getLsbD 17, ovfFreeze := v.getLsbD 18 }
def cfgReg (u n : Nat) (c : PmuCfg) : Nat :=
  c.event.toNat + 2 ^ 10 * c.sel.toNat + 2 ^ 16 * bit c.selEn + 2 ^ 17 * bit c.en + 2 ^ 18 * bit c.ovfFreeze
    + 2 ^ 19 * bit (pmuBad u n c)

/-- R426: a change of EVENT, SEL or SEL_EN freezes the counter for two cycles. -/
def writeCfg (p : Pmu) (n : Nat) (v : Reg32) : Pmu :=
  let c := p.cfgAt n
  let d := cfgOf v
  let changed := c.event ≠ d.event || c.sel ≠ d.sel || c.selEn ≠ d.selEn
  { p with cfg := tabSet (fun _ => {}) p.cfg n d, hold := if changed then tabSet (fun _ => 0) p.hold n 2 else p.hold }

/-- R8, R434: 1s clear OVF bits. -/
def writeOvf (p : Pmu) (v : Reg32) : Pmu := { p with ovf := p.ovf &&& ~~~(v.setWidth 16) }

/-- R424: PMU_CNTn_LO, whose read latches HI. -/
def readCount (s : State) (u n : Nat) : State × Nat :=
  if n < pmuCounters u then (s.updPmu u fun p => latchCounter p n, ((s.pmu u).count n).toNat % 2 ^ 32) else (s, 0)

/-- R8: PMU_SAMPLE_DROPPED, cleared by the read. -/
def takeSampleDropped (s : State) (u : Nat) : State × Nat :=
  (s.updPmu u fun p => { p with sDropped := 0 }, (s.pmu u).sDropped.toNat)

/-- PMU_CNT_LO_READ (R424). -/
def execPmuCntLoRead (f : Func) (u : Fin 97) (n : BitVec 4) (s : State) : Host.Outcome State Fault Refusal :=
  .next <|
    barAccess s f.toNat (pmuOwn s f.toNat u.val) (pmuBase u.val + 0x100 + 8 * n.toNat) fun st =>
      answerRead (readCount st u.val n.toNat)

/-- PMU_CNT_HI_WRITE (R425). -/
def execPmuCntHiWrite (f : Func) (u : Fin 97) (n : BitVec 4) (v : Reg32) (s : State) : Host.Outcome State Fault Refusal :=
  .next <|
    barAccess s f.toNat (pmuOwn s f.toNat u.val) (pmuBase u.val + 0x104 + 8 * n.toNat) fun st =>
      (if n.toNat < pmuCounters u.val then st.updPmu u.val fun p => stageCounter p n.toNat v else st).answer .ok

/-- PMU_CNT_LO_WRITE (R425). -/
def execPmuCntLoWrite (f : Func) (u : Fin 97) (n : BitVec 4) (v : Reg32) (s : State) : Host.Outcome State Fault Refusal :=
  .next <|
    barAccess s f.toNat (pmuOwn s f.toNat u.val) (pmuBase u.val + 0x100 + 8 * n.toNat) fun st =>
      (if n.toNat < pmuCounters u.val then st.updPmu u.val fun p => loadCounter p n.toNat v else st).answer .ok

/-- PMU_CFG_WRITE (R426). -/
def execPmuCfgWrite (f : Func) (u : Fin 97) (n : BitVec 4) (v : Reg32) (s : State) : Host.Outcome State Fault Refusal :=
  .next <|
    barAccess s f.toNat (pmuOwn s f.toNat u.val) (pmuBase u.val + 0x200 + 4 * n.toNat) fun st =>
      (if n.toNat < pmuCounters u.val then st.updPmu u.val fun p => writeCfg p n.toNat v else st).answer .ok

/-- PMU_CTRL_WRITE (R427). -/
def execPmuCtrlWrite (f : Func) (u : Fin 97) (v : Reg32) (s : State) : Host.Outcome State Fault Refusal :=
  .next <|
    barAccess s f.toNat (pmuOwn s f.toNat u.val) (pmuBase u.val) fun st =>
      (st.updPmu u.val fun p => { p with freeze := v.getLsbD 0 }).answer .ok

/-- PMU_OVF_WRITE (R8). -/
def execPmuOvfWrite (f : Func) (u : Fin 97) (v : Reg32) (s : State) : Host.Outcome State Fault Refusal :=
  .next <|
    barAccess s f.toNat (pmuOwn s f.toNat u.val) (pmuBase u.val + 4) fun st =>
      (st.updPmu u.val fun p => writeOvf p v).answer .ok

/-- R421, R426, R427: a counter that counts. -/
def counting (u : Nat) (p : Pmu) (n : Nat) : Bool :=
  n < pmuCounters u && !p.freeze && (p.cfgAt n).en && !pmuBad u n (p.cfgAt n) && p.holdAt n = 0 && (p.cfgAt n).event ≠ 0

/-- COUNTER_OVERFLOW (R421, R423, R427): the occurrences of a cycle pass 2^48 - 1. -/
def execCounterOverflow (u : Fin 97) (n : BitVec 4) (occ : Nat) (s : State) : Host.Outcome State Fault Refusal :=
  .next <|
    let p := s.pmu u.val
    if counting u.val p n.toNat && decide (2 ^ 48 ≤ (p.count n.toNat).toNat + occ) then
      s.updPmu u.val fun q => pmuAdd u.val q n.toNat occ 16
    else s

/-- PMU_SAMPLE_DROPPED_READ (R8). -/
def execPmuSampleDroppedRead (f : Func) (d : Die) (s : State) : Host.Outcome State Fault Refusal :=
  .next <|
    barAccess s f.toNat (pmuOwn s f.toNat d.toNat) (pmuBase d.toNat + 0x30C) fun st =>
      answerRead (takeSampleDropped st d.toNat)

end Sys2Proof.Machine
end

