-- ==== Sys2Proof/Machine/RegsDie.lean ====
section
/-! DEFINITION. The control space of stalls, pens, chutes, memory hubs, the panel network and the PMU windows: what each
offset reads and what a write does (03, 04 R121, 05 R155 to R157, 06, 07, 17 R434). -/

namespace Sys2Proof.Machine

open Sys2Proof

/-! ### LO/HI pairs (R6) -/

def loHalf (v : Nat) : Nat := v % 2 ^ 32
def hiHalf (v : Nat) : Nat := v / 2 ^ 32 % 2 ^ 32
def putLo (x : BitVec 64) (v : Reg32) : BitVec 64 := BitVec.ofNat 64 (hiHalf x.toNat * 2 ^ 32 + v.toNat)
def putHi (x : BitVec 64) (v : Reg32) : BitVec 64 := BitVec.ofNat 64 (v.toNat * 2 ^ 32 + loHalf x.toNat)

/-- A register whose low `n` bits read 0. -/
def dropLow (n : Nat) (v : Reg32) : Reg32 := BitVec.ofNat 32 (v.toNat / 2 ^ n * 2 ^ n)

/-- The register of a pair at offset `off`, when LO lies at `lo`. -/
def pairAt (v lo off : Nat) : Nat := if off = lo then loHalf v else hiHalf v

/-- Two 16-bit entries in one register. -/
def twoEntries (get : Nat → BitVec 16) (i : Nat) : Nat := (get i).toNat + 2 ^ 16 * (get (i + 1)).toNat

/-! ### Stalls (03 registers) -/

/-- STALL_STATE.STATE; a powered die's stall that never ran is IDLE, and one in FAULT that R81 marks FAILED reads
FAILED. -/
def stallCode : StallState → Nat
  | .off => 1
  | .idle => 1
  | .run => 2
  | .waitIn => 3
  | .waitOut => 4
  | .waitAnchor => 5
  | .fence => 6
  | .swap => 7
  | .fault => 8
  | .failed => 9

/-- The registers of stall `t`: the tack die answers 0 for a number that no powered die holds. -/
def readStall (s : State) (t off : Nat) : State × Nat :=
  let x := s.stall t
  if !s.diePowered (t / 64) then (s, 0)
  else match off with
    | 0x000 => (s, stallCode (if x.failed && decide (x.st = .fault) then .failed else x.st) + 2 ^ 4 * (t % 64)
        + 2 ^ 10 * (t / 64) + 2 ^ 16 * bit x.activeSlot + 2 ^ 17 * bit x.activeValid + 2 ^ 18 * bit x.shadowValid
        + 2 ^ 19 * bit (stallB0 s t))
    | 0x004 => (s, x.swaps.toNat)
    | 0x008 => (s, x.num.toNat)
    | 0x00C => takeWaits s t
    | 0x010 => readToken s t
    | 0x014 => (s, x.tokenHi.toNat)
    | _ => (s, 0)

def writeStall (s : State) (t off : Nat) (v : Reg32) : State := if off = 0x008 then clearNum s t v else s

/-! ### Pens (R121) -/

def shadowCode : ShadowState → Nat
  | .empty => 0
  | .loading => 1
  | .valid => 2

/-- PEN_STATE.AVAILABLE (R83). -/
def penAvailable (s : State) (p : Nat) : Nat := if (s.pen p).granted then (penStalls s p).length else 0

/-- The registers of pen `p`. -/
def readPen (s : State) (p off : Nat) : Nat :=
  let x := s.pen p
  match off with
  | 0x04 => penCode x.st + 2 ^ 3 * bit x.aborted + 2 ^ 4 * shadowCode x.shadow + 2 ^ 8 * x.result.toNat
      + 2 ^ 16 * penAvailable s p
  | 0x08 => x.drainLimit.toNat + 2 ^ 31 * bit x.pmuUser
  | 0x0C => x.detIndex.toNat + 2 ^ 16 * x.detSection.toNat
  | 0x10 => loHalf x.container.toNat
  | 0x14 => hiHalf x.container.toNat
  | 0x18 => loHalf x.dies.toNat
  | 0x1C => hiHalf x.dies.toNat
  | 0x20 => x.chutes.toNat
  | 0x24 => loHalf x.memBase.toNat
  | 0x28 => hiHalf x.memBase.toNat
  | 0x2C => loHalf x.memSize.toNat
  | 0x30 => hiHalf x.memSize.toNat
  | 0x34 => x.abTokens.toNat
  | 0x38 => x.abPackets.toNat + 2 ^ 16 * x.abTiles.toNat
  | 0x3C => x.abLines.toNat
  | _ => 0

/-- R121: the grant and the window of a pen change only while it is FREE. -/
def writeGrant (x : Pen) (off : Nat) (v : Reg32) : Pen :=
  if x.st ≠ .free then x
  else match off with
    | 0x18 => { x with dies := putLo x.dies v }
    | 0x1C => { x with dies := putHi x.dies v }
    | 0x20 => { x with chutes := v.setWidth 17 }
    | 0x24 => { x with memBase := putLo x.memBase (dropLow 11 v) }
    | 0x28 => { x with memBase := putHi x.memBase v }
    | 0x2C => { x with memSize := putLo x.memSize (dropLow 11 v) }
    | 0x30 => { x with memSize := putHi x.memSize v }
    | _ => x

/-- R84, R121: a write by the pen's owner (`own`) or by another: a command of another has no effect. -/
def writePen (s : State) (own : Bool) (p off : Nat) (v : Reg32) : State :=
  match off with
  | 0x00 => if own then penCommand (v.toNat % 16) p s else s
  | 0x08 => s.updPen p fun x => { x with
      drainLimit := BitVec.ofNat 17 (clampTo 1 100000 (v.toNat % 2 ^ 17)), pmuUser := v.getLsbD 31 }
  | 0x10 => s.updPen p fun x => { x with container := putLo x.container (dropLow 6 v) }
  | 0x14 => s.updPen p fun x => { x with container := putHi x.container v }
  | _ => s.updPen p fun x => writeGrant x off v

/-- R121: the placement table, two entries in each register. -/
def readPlaces (s : State) (p off : Nat) : Nat :=
  twoEntries (fun i => tabGet (fun _ => 0) s.placement (4096 * p + i)) (off / 2)

/-! ### Chutes (R155 to R157) -/

def chuteCode : ChuteState → Nat
  | .disabled => 0
  | .enabled => 1
  | .disabling => 2

/-- R133: the code of an outcome. -/
def pstatCode : PStat → Nat
  | .ok => 0
  | .flushed => 1
  | .flushedNew => 2
  | .aborted => 3
  | .poisoned => 4
  | .tooLong => 5
  | .refused => 6
  | .orphan => 7

/-- CHUTE_OPEN: the source of the open packet, else of the one being discarded. -/
def chuteOpenReg (x : Chute) : Nat :=
  let src := if x.opened then x.src else x.discards.headD x.src
  src.id.toNat + 2 ^ 14 * src.kind.toNat + 2 ^ 16 * src.dev.toNat + 2 ^ 22 * bit (decide (src ∈ x.discards))
    + 2 ^ 23 * bit (decide (src ∈ x.flushes))

/-- The descriptor of chute `c`. -/
def readChute (s : State) (c off : Nat) : Nat :=
  let x := s.chute c
  match off with
  | 0x00 => chuteCode x.st + 2 ^ 2 * x.depth.toNat + 2 ^ 7 * bit x.stack + 2 ^ 8 * bit x.eventEn + 2 ^ 9 * bit x.flowEn
      + 2 ^ 10 * x.flowPin.toNat + 2 ^ 13 * bit x.remoteOk
  | 0x04 => x.pen.toNat + 2 ^ 6 * bit x.penValid + 2 ^ 8 * x.func.toNat + 2 ^ 16 * x.vanished.toNat
  | 0x08 => loHalf x.base.toNat
  | 0x0C => hiHalf x.base.toNat
  | 0x10 => x.wp.toNat + 2 ^ 21 * x.wslot.toNat + 2 ^ 23 * bit x.opened
  | 0x14 => x.cp.toNat
  | 0x18 => x.rp.toNat
  | 0x1C => x.mp.toNat
  | 0x20 => x.fp.toNat
  | 0x24 => x.high.toNat
  | 0x28 => x.low.toNat
  | 0x2C => x.idle.toNat
  | 0x30 => bit x.xoff + 2 * bit x.hwmSeen + 2 ^ 2 * bit x.lwmSeen + 2 ^ 6 * pstatCode x.pstat
      + 2 ^ 16 * x.crossings.toNat
  | 0x34 => chuteOpenReg x
  | 0x38 => loHalf x.remoteSrc.toNat
  | 0x3C => hiHalf x.remoteSrc.toNat
  | _ => 0

/-- R144, R155: CHUTE_CFG; the buffer changes only while the chute is DISABLED, to a valid depth. -/
def writeChuteCfg (x : Chute) (v : Reg32) : Chute :=
  let d := bitsAt v.toNat 2 5
  let free := decide (x.st = .disabled)
  let y := if free && depthValid d then setDepth x d else x
  { y with
    stack := if free then v.getLsbD 7 else x.stack,
    eventEn := v.getLsbD 8, flowEn := v.getLsbD 9, flowPin := v.extractLsb' 10 3, remoteOk := v.getLsbD 13 }

/-- R139, R155: a write to a descriptor; the watermarks are evaluated again. -/
def writeChute (s : State) (c off : Nat) (v : Reg32) : State :=
  match off with
  | 0x00 => changeChute s c fun x => writeChuteCfg x v
  | 0x08 => s.updChute c fun x => if x.st = .disabled then { x with base := putLo x.base (dropLow 6 v) } else x
  | 0x0C => s.updChute c fun x => if x.st = .disabled then { x with base := putHi x.base v } else x
  | 0x24 => changeChute s c fun x => { x with high := v.setWidth 21 }
  | 0x28 => changeChute s c fun x => { x with low := v.setWidth 21 }
  | 0x2C => s.updChute c fun x => { x with idle := v }
  | 0x30 => s.updChute c fun x => { x with
      hwmSeen := x.hwmSeen && !v.getLsbD 1, lwmSeen := x.lwmSeen && !v.getLsbD 2 }
  | _ => s

/-- R325: what a VF may write of a chute of its own. -/
def vfWriteChute (s : State) (c off : Nat) (v : Reg32) : State :=
  if off = 0 then s.updChute c fun x => { x with eventEn := v.getLsbD 8 } else writeChute s c off v

/-- R156: a doorbell slot. -/
def readDoorbell (s : State) (c off : Nat) : Nat :=
  let d := s.doorbell c
  if off < 0x10 then bitsAt d.w.toNat (8 * off) 32
  else if off = 0x14 then d.result.toNat + 2 ^ 3 * pstatCode d.pstat
  else 0

/-- R152: the staged word as the command word gives it. -/
def stagedWord (w : Word16) (v : Reg32) : ChuteWord :=
  { data := w, first := v.getLsbD 4, last := v.getLsbD 5, len := v.extractLsb' 6 4, poison := false }

/-- R156: a write to a doorbell slot: a staged word's part, or a command of function `f`. -/
def writeDoorbell (s : State) (f : Func) (c off : Nat) (v : Reg32) : State :=
  let d := s.doorbell c
  if off < 0x10 then
    let old := bitsAt d.w.toNat (8 * off) 32
    s.setDoorbell c { d with w := BitVec.ofNat 128 (d.w.toNat - old * 2 ^ (8 * off) + v.toNat * 2 ^ (8 * off)) }
  else if off = 0x10 then doorbellGo s c f (v.toNat % 16) (stagedWord d.w v)
  else s

/-- The window of logical die `d` (R327): doorbells, chute registers, stalls. -/
def readDie (s : State) (d off : Nat) : State × Nat :=
  if 0x80000 ≤ off then readStall s (64 * d + (off - 0x80000) / 0x2000) (off % 0x2000)
  else if off = 0x50000 then (s, (s.chuteDie d).limit.toNat)
  else if off = 0x50004 then takeAbortLines s d
  else if 0x40000 ≤ off && off < 0x50000 then (s, readDoorbell s (1024 * d + (off - 0x40000) / 0x40) (off % 0x40))
  else (s, 0)

def writeDie (s : State) (f : Func) (d off : Nat) (v : Reg32) : State :=
  if 0x80000 ≤ off then writeStall s (64 * d + (off - 0x80000) / 0x2000) (off % 0x2000) v
  else if off = 0x50000 then
    s.setChuteDie d { s.chuteDie d with limit := BitVec.ofNat 17 (clampTo 1 100000 (v.toNat % 2 ^ 17)) }
  else if 0x40000 ≤ off && off < 0x50000 then writeDoorbell s f (1024 * d + (off - 0x40000) / 0x40) (off % 0x40) v
  else s

/-! ### Memory hubs (06 registers) -/

def readHub (s : State) (h off : Nat) : State × Nat :=
  let x := s.hub h
  match off with
  | 0x000 => (s, hubCode x.st + 2 ^ 2 * x.band.toNat + 2 ^ 5 * x.refresh.toNat + 2 ^ 7 * bit (stackSuspect s h)
      + 2 ^ 8 * x.modHalf.toNat + 2 ^ 16 * bit x.wipeDone)
  | 0x004 => (s, bit x.scrubEn + 2 * x.scrubHours.toNat + 2 ^ 9 * bit x.readmit)
  | 0x008 => (s, mapPosition s h + 2 ^ 5 * stackCount s)
  | 0x010 => (s, loHalf x.scrubPos.toNat)
  | 0x014 => (s, hiHalf x.scrubPos.toNat)
  | 0x018 => takeCe s h
  | 0x01C => takeUc s h
  | 0x020 => (s, loHalf x.errAddr.toNat)
  | 0x024 => (s, hiHalf x.errAddr.toNat)
  | _ => (s, 0)

def writeHub (s : State) (h off : Nat) (v : Reg32) : State := if off = 0x004 then writeMhCtrl s h v else s

/-! ### The panel network (07 registers) -/

/-- PNET_STATUS.SPARES_LEFT. -/
def sparesLeft (s : State) : Nat := ((List.range 72).filter fun p => (s.site p).st = .spare).length

def readPnet (s : State) (off : Nat) : Nat :=
  let n := s.pnet
  if off = 0 then n.autoRetire.toNat
  else if off = 8 then
    bit n.repl.isSome + 2 * min 7 n.queue.length + 2 ^ 4 * n.result.toNat + 2 ^ 8 * n.fabricNum.toNat
      + 2 ^ 16 * sparesLeft s + 2 ^ 19 * n.subs.length
  else if 0x100 ≤ off && off < 0x200 then
    let e := s.lmapAt ((off - 0x100) / 4)
    e.site.toNat + 2 ^ 7 * bit e.empty
  else if 0x200 ≤ off && off < 0x320 then
    let x := s.site ((off - 0x200) / 4)
    siteCode x.st + 2 ^ 3 * x.rev.toNat + 2 ^ 7 * bit x.readmit + 2 ^ 8 * x.repairs.toNat
  else if 0x400 ≤ off && off < 0x640 then pairAt (s.site ((off - 0x400) / 8)).cap.toNat 0 (off % 8)
  else if 0x800 ≤ off && off < 0xA40 then
    let x := s.site ((off - 0x800) / 8)
    if off % 8 = 0 then x.modHalf.toNat else x.modFailed.toNat
  else 0

/-- PNET_CTRL and PNET_CMD. An AUTO_RETIRE_STALLS below a die's present count of FAILED stalls retires nothing until
another of its stalls fails: DESIGN CHOICE [72]. -/
def writePnet (s : State) (off : Nat) (v : Reg32) : State :=
  match off with
  | 0 => { s with pnet := { s.pnet with autoRetire := v.setWidth 5 } }
  | 4 => pnetCommand s (bitsAt v.toNat 0 4) (bitsAt v.toNat 4 7)
  | _ => s

/-! ### PMU windows (R424 to R434) -/

/-- R429: the user page of window `u` shows its counters. -/
def userPage (s : State) (u : Nat) : Bool :=
  decide (u < 64) && match penOfDie s u with
    | some p => (s.pen p).pmuUser
    | none => false

/-- PMU_CNTn_LO or HI, at `off` from counter 0 (R424). -/
def readCntReg (s : State) (u off : Nat) : State × Nat :=
  if off % 8 = 0 then readCount s u (off / 8)
  else (s, if off / 8 < pmuCounters u then ((s.pmu u).latchAt (off / 8)).toNat else 0)

/-- The sampling registers of a compute die (R430, R431). -/
def readSample (s : State) (u off : Nat) : State × Nat :=
  let p := s.pmu u
  match off with
  | 0x0300 => (s, p.sCfg.toNat)
  | 0x0304 => (s, p.sHead.toNat)
  | 0x0308 => (s, p.sTail.toNat)
  | 0x030C => takeSampleDropped s u
  | _ =>
    if 0x8000 ≤ off && off < 0xC000 then
      (s, bitsAt (tabGet (fun _ => 0) p.buf ((off - 0x8000) / 0x20)).toNat (8 * (off % 0x20)) 32)
    else (s, 0)

def readPmu (s : State) (u off : Nat) : State × Nat :=
  let p := s.pmu u
  if 0xF000 ≤ off then
    if !userPage s u then (s, 0)
    else if off = 0xF004 then (s, p.ovf.toNat)
    else if 0xF100 ≤ off && off < 0xF180 then readCntReg s u (off - 0xF100)
    else (s, 0)
  else if off = 0 then (s, bit p.freeze)
  else if off = 4 then (s, p.ovf.toNat)
  else if 0x100 ≤ off && off < 0x180 then readCntReg s u (off - 0x100)
  else if 0x200 ≤ off && off < 0x240 then
    (s, if (off - 0x200) / 4 < pmuCounters u then cfgReg u ((off - 0x200) / 4) (p.cfgAt ((off - 0x200) / 4)) else 0)
  else if u < 64 then readSample s u off
  else (s, 0)

def writePmu (s : State) (u off : Nat) (v : Reg32) : State :=
  let n := if off < 0x200 then (off - 0x100) / 8 else (off - 0x200) / 4
  if off = 0 then s.updPmu u fun p => { p with freeze := v.getLsbD 0 }
  else if off = 4 then s.updPmu u fun p => writeOvf p v
  else if 0x100 ≤ off && off < 0x180 && n < pmuCounters u then
    s.updPmu u fun p => if off % 8 = 0 then loadCounter p n v else stageCounter p n v
  else if 0x200 ≤ off && off < 0x240 && n < pmuCounters u then s.updPmu u fun p => writeCfg p n v
  else if off = 0x300 && u < 64 then s.updPmu u fun p => { p with sCfg := v.setWidth 29 }
  else if off = 0x308 && u < 64 then s.updPmu u fun p => { p with sTail := v }
  else s

end Sys2Proof.Machine
end

