-- ==== Sys2Proof/Machine/RegsLink.lean ====
section
/-! DEFINITION. The control space of the optical engines and the links (08 R225, 09 R249, 10 R288). -/

namespace Sys2Proof.Machine

open Sys2Proof

/-! ### Optical engines (R206, R225) -/

def oeCode : OeState → Nat
  | .off => 0
  | .lasers => 1
  | .rings => 2
  | .ready => 3
  | .lost => 4

def ringCode : RingState → Nat
  | .idle => 0
  | .search => 1
  | .locked => 2
  | .frozen => 3
  | .failed => 4

/-- OE_LASER_STAT and OE_RING as they read. -/
def laserReg (x : Laser) : Nat :=
  laserCode x.st + 2 ^ 3 * x.bias.toNat + 2 ^ 13 * bit x.ageWarn + 2 ^ 14 * bit x.locked
def ringReg (x : Ring) : Nat :=
  x.heater.toNat + 2 ^ 16 * ringCode x.st + 2 ^ 19 * bit x.silenced + 2 ^ 20 * bit x.rail + 2 ^ 21 * bit x.mislock
    + 2 ^ 22 * x.pilot.toNat + 2 ^ 26 * x.pilotResult.toNat

/-- R206: an entry of the matrices that no write changes: the diagonal of K0, KL of bank 0 and KR of bank 15. -/
def xtFixed (key : Nat) : Bool :=
  let k := key / 768
  let b := key % 768 / 256
  (b = 0 && decide (key % 256 / 16 = key % 16)) || (b = 1 && k = 0) || (b = 2 && k = 15)

/-- One 16-bit entry of the tables at `off` (R225). -/
def readTable (o : OeS) (off : Nat) : BitVec 16 :=
  let t := (off - 0x20000) / 0x1000
  let w := off % 0x1000
  if off < 0x16000 then
    let key := (off - 0x10000) / 2
    xtEntry o (key / 768) (key % 768 / 256) (key % 256 / 16) (key % 16)
  else if off < 0x16200 then
    if (off - 0x16000) / 32 % 2 = 1 then 0 else tabGet (fun _ => 0) o.lockOff ((off - 0x16000) / 2)
  else if 0x18000 ≤ off && off < 0x18320 then tabGet (fun _ => 0) o.ffGain ((off - 0x18000) / 2)
  else if 0x18400 ≤ off && off < 0x18432 then tabGet (fun _ => 0) o.ffTau ((off - 0x18400) / 2)
  else if 0x20000 ≤ off && t < 5 then
    if w < 0x200 then tabGet (fun _ => 0) o.bandRing (256 * t + w / 2)
    else if w < 0x240 then tabGet (fun _ => 0) o.bandLaser (32 * t + (w - 0x200) / 2)
    else if 0x400 ≤ w && w < 0x580 then
      tabGet (fun _ => 0) o.bandEq (512 * t + (w - 0x400) + 1) ++ tabGet (fun _ => 0) o.bandEq (512 * t + (w - 0x400))
    else 0
  else 0

/-- The same entry written. -/
def writeTable (o : OeS) (off : Nat) (v : BitVec 16) : OeS :=
  let t := (off - 0x20000) / 0x1000
  let w := off % 0x1000
  if off < 0x16000 then
    let key := (off - 0x10000) / 2
    if xtFixed key then o else { o with xt := tabSet (fun _ => 0) o.xt key v }
  else if off < 0x16200 then
    if (off - 0x16000) / 32 % 2 = 1 then o
    else { o with lockOff := tabSet (fun _ => 0) o.lockOff ((off - 0x16000) / 2) v }
  else if 0x18000 ≤ off && off < 0x18320 then { o with ffGain := tabSet (fun _ => 0) o.ffGain ((off - 0x18000) / 2) v }
  else if 0x18400 ≤ off && off < 0x18432 then { o with ffTau := tabSet (fun _ => 0) o.ffTau ((off - 0x18400) / 2) v }
  else if 0x20000 ≤ off && t < 5 then
    if w < 0x200 then { o with bandRing := tabSet (fun _ => 0) o.bandRing (256 * t + w / 2) v }
    else if w < 0x240 then { o with bandLaser := tabSet (fun _ => 0) o.bandLaser (32 * t + (w - 0x200) / 2) v }
    else if 0x400 ≤ w && w < 0x580 then
      let k := 512 * t + (w - 0x400)
      { o with bandEq := tabSet (fun _ => 0) (tabSet (fun _ => 0) o.bandEq k (v.setWidth 8)) (k + 1) (v.extractLsb' 8 8) }
    else o
  else o

/-- The window of OE `e`. -/
def readOe (s : State) (e off : Nat) : Nat :=
  let o := s.oe e
  if off = 0x000 then
    oeCode o.st + 2 ^ 3 * o.band.toNat + 2 ^ 6 * bit (decide (o.spStep ≠ 0)) + 2 ^ 7 * min 7 o.spQueue.length
  else if off = 0x004 then
    bit o.ffEn + 2 * bit o.xtEn + 2 ^ 2 * bit o.autoSpare + 2 ^ 8 * o.loopKi.toNat
  else if off = 0x00C then o.spStep.toNat + 2 ^ 4 * o.spWave.toNat + 2 ^ 8 * o.spResult.toNat
  else if 0x100 ≤ off && off < 0x200 then
    let n := (off - 0x100) / 8
    if off % 8 = 0 then laserReg (o.laser n) else (tabGet (fun _ => 0) s.tack.cal.hours (32 * e + n)).toNat
  else if 0x1000 ≤ off && off < 0x1400 then ringReg (o.ring ((off - 0x1000) / 4))
  else if 0x2000 ≤ off && off < 0x2200 then
    let k := (off - 0x2000) / 4
    (tabGet (fun _ => 0x8000) o.near k).toNat + 2 ^ 16 * (tabGet (fun _ => 0x8000) o.far k).toNat
  else if 0x10000 ≤ off then (readTable o off).toNat + 2 ^ 16 * (readTable o (off + 2)).toNat
  else 0

def writeOe (s : State) (e off : Nat) (v : Reg32) : State :=
  if off = 0x004 then
    s.updOe e fun o => { o with
      ffEn := v.getLsbD 0, xtEn := v.getLsbD 1, autoSpare := v.getLsbD 2, loopKi := v.extractLsb' 8 8 }
  else if off = 0x008 then oeCommand s e (bitsAt v.toNat 0 4) (bitsAt v.toNat 4 8)
  else if 0x100 ≤ off && off < 0x200 then
    if off % 8 = 0 then clearAgeWarn s e ((off - 0x100) / 8) v else s
  else if 0x1000 ≤ off && off < 0x1400 then clearMislock s e ((off - 0x1000) / 4) v
  else if 0x10000 ≤ off then
    s.updOe e fun o => writeTable (writeTable o off (v.setWidth 16)) (off + 2) (v.extractLsb' 16 16)
  else s

/-! ### Links (R249, R288) -/

def linkCode : LinkState → Nat
  | .detect => 0
  | .train => 1
  | .align => 2
  | .exchange => 3
  | .active => 4
  | .retrain => 5
  | .hold => 6
  | .down => 7

/-- LINK_STATE as it reads. -/
def linkStateReg (k : LinkS) : Nat :=
  linkCode k.st + 2 ^ 3 * bit k.version + 2 ^ 4 * bit k.pChanged + 2 ^ 5 * bit k.pRestarted
    + 2 ^ 6 * mapLanes k.laneMap + 2 ^ 10 * min 2 (idleSpares k.laneMap).length + 2 ^ 12 * k.downReason.toNat
    + 2 ^ 16 * k.cmdResult.toNat

/-- LINK_PARTNER_ID as it reads. -/
def partnerReg (k : LinkS) : Nat :=
  k.partner.dev.toNat + 2 ^ 6 * k.partner.port.toNat + 2 ^ 12 * bit k.partner.manager + 2 ^ 13 * k.partner.verMax.toNat
    + 2 ^ 16 * k.vcs.toNat

/-- LINK_LL_STATUS as it reads. -/
def llStatusReg (s : State) (l : Nat) : Nat :=
  let x := s.ll l
  bit x.synced + 2 * bit (holdsTraffic s l) + 2 ^ 2 * bit x.encActive + 2 ^ 3 * bit (x.cmdTx.isSome || x.cmdRx.isSome)
    + 2 ^ 4 * x.replayCount.toNat + 2 ^ 8 * x.retrainFails.toNat + 2 ^ 10 * bit x.timerRaised
    + 2 ^ 12 * x.cmdResult.toNat + 2 ^ 16 * x.xoffFrom.toNat + 2 ^ 24 * x.xoffTo.toNat

/-- The link-layer registers of link `l`. -/
def readLl (s : State) (l off : Nat) : State × Nat :=
  let x := s.ll l
  match off with
  | 0x400 => (s, llStatusReg s l)
  | 0x404 => (s, x.nextTx.toNat + 2 ^ 12 * (x.oldest % 4096))
  | 0x408 => (s, x.nextRx.toNat + 2 ^ 12 * x.ackPub.toNat)
  | 0x40C => (s, x.replayLimit.toNat + 2 ^ 4 * x.replayTimeout.toNat + 2 ^ 16 * x.vcsMax.toNat + 2 ^ 20 * bit x.encEn
      + 2 ^ 21 * bit x.encReq + 2 ^ 22 * bit x.rateCap)
  | 0x410 => (s, x.opTimeout.toNat)
  | 0x418 => (s, x.drainLimit.toNat)
  | 0x41C => (s, x.rtt.toNat + 2 ^ 16 * x.xoffAt.toNat)
  | 0x420 => (s, x.credits.toNat + 2 ^ 13 * x.creditsSync.toNat)
  | 0x424 => (s, x.txSlot.toNat + 2 ^ 16 * x.rxSlot.toNat)
  | 0x428 => (s, x.laneOp.toNat + 2 ^ 2 * x.laneNo.toNat + 2 ^ 6 * x.laneWave.toNat + 2 ^ 10 * x.laneRes.toNat)
  | 0x430 => takeCounter s l .replays
  | 0x434 => takeCounter s l .crcErr
  | 0x438 => takeCounter s l .dups
  | 0x43C => takeCounter s l .overrun
  | 0x440 => takeCounter s l .retrains
  | 0x444 => takeCounter s l .unreachable
  | _ => (s, 0)

/-- R288: LINK_LL_CFG written; it takes effect at the next SYNC phase or exchange. -/
def writeLlCfg (x : LL) (v : Reg32) : LL :=
  { x with
    replayLimit := BitVec.ofNat 4 (clampTo 1 15 (bitsAt v.toNat 0 4)),
    replayTimeout := BitVec.ofNat 12 (clampTo 1 4095 (bitsAt v.toNat 4 12)),
    vcsMax := BitVec.ofNat 4 (clampTo 2 8 (bitsAt v.toNat 16 4)),
    encEn := v.getLsbD 20, encReq := v.getLsbD 21, rateCap := v.getLsbD 22 }

/-- R279, R288: a link-layer register written; a change of RATE_CAP retrains an ACTIVE link. -/
def writeLl (s : State) (l off : Nat) (v : Reg32) : State :=
  match off with
  | 0x40C =>
    let s1 := s.updLl l fun x => writeLlCfg x v
    if (s1.ll l).rateCap ≠ (s.ll l).rateCap && (s.link l).st = .active then startRetrain s1 l .full else s1
  | 0x410 => s.updLl l fun x => { x with opTimeout := BitVec.ofNat 14 (clampTo 1 10000 (v.toNat % 2 ^ 14)) }
  | 0x414 => llCommand s l (v.toNat % 16)
  | 0x418 => s.updLl l fun x => { x with drainLimit := BitVec.ofNat 17 (clampTo 1 100000 (v.toNat % 2 ^ 17)) }
  | _ => s

/-- The lane registers of link `l`. -/
def readLane (s : State) (l off : Nat) : State × Nat :=
  let k := s.link l
  let y := k.lane (off % 0x40 / 4)
  if off < 0x140 then takeLane s l (off % 0x40 / 4)
  else if off < 0x180 then
    (s, y.tap1.toNat + 2 ^ 8 * y.tap2.toNat + 2 ^ 16 * y.tap3.toNat + 2 ^ 24 * bit (eqStopped s l (off % 0x40 / 4)))
  else (s, 2 ^ 8 * y.offset.toNat + 2 ^ 13 * y.hits.toNat)

/-- The window of link `l`. -/
def readLink (s : State) (l off : Nat) : State × Nat :=
  let k := s.link l
  if 0x400 ≤ off then readLl s l off
  else if 0x100 ≤ off then (if off < 0x1C0 then readLane s l off else (s, 0))
  else match off with
    | 0x000 => (s, linkStateReg k)
    | 0x004 => (s, bit k.enable + 2 * bit k.v1Allow + 2 ^ 2 * k.holdLimit.toNat)
    | 0x010 => (s, loHalf k.partner.serial.toNat)
    | 0x014 => (s, hiHalf k.partner.serial.toNat)
    | 0x018 => (s, partnerReg k)
    | 0x01C => (s, k.partner.session.toNat)
    | 0x020 => (s, loHalf k.laneMap.toNat)
    | 0x024 => (s, hiHalf k.laneMap.toNat)
    | 0x028 => (s, k.rxMask.toNat)
    | _ => (s, 0)

def writeLink (s : State) (l off : Nat) (v : Reg32) : State :=
  if 0x400 ≤ off then writeLl s l off v
  else if off = 0x000 then clearRestarted s l v
  else if off = 0x004 then writeLinkCtrl s l v
  else if off = 0x008 then linkCommand s l (v.toNat % 16)
  else if 0x100 ≤ off && off < 0x140 then clearIdMis s l ((off - 0x100) / 4) v
  else if 0x180 ≤ off && off < 0x1C0 then (if v.getLsbD 0 then slipLane s l ((off - 0x180) / 4) else s)
  else s

end Sys2Proof.Machine
end

