-- ==== Sys2Proof/Machine/HostOps.lean ====
section
/-! DEFINITION. Functions, grants, the disable sequence and the steps of a DMA descriptor (R319 to R322, R331 to R333,
R337, R338). -/

namespace Sys2Proof.Machine

open Sys2Proof

/-! ### Grants (R320, R321) -/

/-- R320: the first chute of a grant, and the end of its range; a chute number has 16 bits. -/
def Fn.chuteLo (f : Fn) : Nat := 256 * f.gbase.toNat
def Fn.chuteHi (f : Fn) : Nat := min 65536 (256 * (f.gbase.toNat + f.gcount.toNat))

/-- R320: the memory window. -/
def Fn.memHi (f : Fn) : Nat := f.memBase.toNat + f.memSize.toNat

/-- R321: two grants share a part. -/
def grantsMeet (a b : Fn) : Bool :=
  decide (a.pens &&& b.pens ≠ 0) || decide (a.chans &&& b.chans ≠ 0)
    || (decide (max a.chuteLo b.chuteLo < min a.chuteHi b.chuteHi))
    || (decide (max a.memBase.toNat b.memBase.toNat < min a.memHi b.memHi))

/-- A channel executes no descriptor. -/
def Dma.idle (d : Dma) : Bool := d.cur.isNone

/-- R321: the checks of an ENABLE of VF `n`. -/
def enableOk (s : State) (n : Nat) : Bool :=
  let f := s.fn n
  (List.range 64).all (fun p => !f.pens.getLsbD p || decide ((s.pen p).st = .free))
    && s.chutes.all (fun e => e.1 < f.chuteLo || f.chuteHi ≤ e.1 || (decide (e.2.st = .disabled) && !e.2.penValid))
    && (List.range 32).all (fun c => !f.chans.getLsbD c || (s.dma c).idle)
    && decide (f.memHi ≤ memTop s)
    && (List.range 16).all (fun m => m = 0 || m = n || decide ((s.fn m).st ≠ .enabled) || !grantsMeet f (s.fn m))

def setFnResult (s : State) (n code : Nat) : State := s.updFn n fun f => { f with result := BitVec.ofNat 4 code }

/-- R340: the results of a function command. -/
def fnOk : Nat := 0
def fnConflict : Nat := 1
def fnState : Nat := 2
def fnBadOp : Nat := 3

/-- R340: the codes of STATE. -/
def fnCode : FnState → Nat
  | .disabled => 0
  | .enabled => 1
  | .disabling => 2

/-- R321: FUNC of a range of chutes. -/
def setFuncs (s : State) (lo hi n : Nat) : State :=
  (List.range (hi - lo)).foldl (fun st i => st.updChute (lo + i) fun x => { x with func := BitVec.ofNat 4 n }) s

/-- R321: a DISABLED VF is enabled when the checks pass. -/
def enableVf (s : State) (n : Nat) : State :=
  if enableOk s n then
    let f := s.fn n
    let s1 := (setFuncs s f.chuteLo f.chuteHi n).updFn n fun x =>
      { x with st := .enabled, result := BitVec.ofNat 4 fnOk }
    raiseEvent s1 0 evFuncState n (fnCode .enabled)
  else setFnResult s n fnConflict

/-! ### Disabling (R337, R338) -/

/-- The pens, chutes and channels of function `n`. -/
def fnPens (s : State) (n : Nat) : List Nat := (List.range 64).filter fun p => penOwner s p = n
def fnChutes (s : State) (n : Nat) : List Nat := (s.chutes.filter fun e => e.2.func.toNat = n).map (·.1)
def fnChans (s : State) (n : Nat) : List Nat := (List.range 32).filter fun c => chanOwner s c = n

/-- R338 steps 1 and 2. A pen that waits in FREE, STOPPED or FAULTED already has nothing to stop. -/
def beginDisable (s : State) (n : Nat) : State :=
  let s1 := s.updFn n fun f => { f with st := .disabling, result := BitVec.ofNat 4 fnOk }
  let ps := (fnPens s1 n).filter fun p =>
    (s1.pen p).st = .running || (s1.pen p).st = .loading || (s1.pen p).st = .ready
  let s2 := s1.forAll ps penStop
  s2.forAll ((fnChutes s2 n).filter fun c => (s2.chute c).st = .enabled) fun st c =>
    st.updChute c fun x => { x with st := .disabling }

/-- R338, R339 step 3: everything has settled, the BAR4 writes already received among it. -/
def disableSettled (s : State) (n : Nat) : Bool :=
  (fnPens s n).all (fun p => decide ((s.pen p).st = .stopped) || decide ((s.pen p).st = .free)
    || decide ((s.pen p).st = .faulted))
    && (fnChutes s n).all (fun c => decide ((s.chute c).st = .disabled))
    && (fnChans s n).all (fun c => (s.dma c).idle) && !bellWaits s (BitVec.ofNat 4 n)

/-- R153: a channel as a producer. -/
def dmaSource (s : State) (c : Nat) : Source := { kind := 1, dev := BitVec.ofNat 6 (myDev s), id := BitVec.ofNat 14 c }

/-- R338 step 4: a channel's descriptor abandoned; an H2C packet is aborted. -/
def abandonDma (s : State) (c : Nat) : State :=
  if (s.dma c).idle then s
  else (abortSource s (dmaSource s c)).1.updDma c fun d => { d with cur := none, st := 0 }

/-- R338 step 4: what still runs at the limit aborts. -/
def abortFunction (s : State) (n : Nat) : State :=
  let s1 := s.forAll ((fnPens s n).filter fun p => (s.pen p).st = .draining) fun st p => penStopped st p true
  let s2 := s1.forAll ((fnChutes s1 n).filter fun c => (s1.chute c).st = .disabling) disableAbort
  s2.forAll (fnChans s2 n) abandonDma

/-- R338 step 5: the EVQ and MSI-X state cleared. -/
def clearEvq (f : Fn) : Fn :=
  { f with evqBase := 0, evqEn := false, evqLog2 := 4, tail := 0, head := 0, ovf := false, dropped := 0, lost := 0,
           irq := false, msix0 := 0, msix1 := 0 }

/-- R338 step 5, R321: the function becomes DISABLED. -/
def endDisable (s : State) (n : Nat) : State :=
  let cs := fnChutes s n
  let ks := fnChans s n
  let s1 := s.forAll ((fnPens s n).filter fun p => (s.pen p).st ≠ .free) fun st p => giveBack (setResult st p 0) p
  let s2 := s1.forAll cs fun st c => st.updChute c fun x => { initChute x with func := 0 }
  let s3 := s2.forAll ks fun st c => st.updDma c fun d => { d with en := false, st := 3 }
  raiseEvent (s3.updFn n fun f => { clearEvq f with st := .disabled }) 0 evFuncState n (fnCode .disabled)

/-- R337: PERST_N and a hot reset: steps 1, 2, 4 and 5 at once. -/
def disableNow (s : State) (n : Nat) : State :=
  endDisable (abortFunction (if (s.fn n).st = .disabling then s else beginDisable s n) n) n

/-- R337: the VFs that a disable reaches. -/
def liveVfs (s : State) : List Nat :=
  ((List.range 15).map (· + 1)).filter fun n => decide ((s.fn n).st ≠ .disabled)

/-- The functions a disable of every function reaches: the VFs that are not DISABLED, then the PF. -/
def liveFns (s : State) : List Nat := liveVfs s ++ [0]

/-- R337: every function starts its disable. -/
def disableAll (s : State) : State :=
  s.forAll (liveFns s) fun st n => if (st.fn n).st = .disabling then st else beginDisable st n

/-- R337: every function disabled at once: all of them are DISABLING before the first one ends. -/
def disableAllNow (s : State) : State :=
  (disableAll s).forAll (liveFns s) fun st n => endDisable (abortFunction st n) n

/-! ### DMA descriptors (R332, R333) -/

def dHost (d : BitVec 256) : Nat := bitsAt d.toNat 0 64
def dDev (d : BitVec 256) : Nat := bitsAt d.toNat 64 64
def dLen (d : BitVec 256) : Nat := bitsAt d.toNat 128 32
def dOp (d : BitVec 256) : Nat := bitsAt d.toNat 160 8
def dEvent (d : BitVec 256) : Bool := d.getLsbD 168

/-- R332: STATUS. -/
def dmaOk : Nat := 1
def dmaRefused : Nat := 2
def dmaTruncated : Nat := 3
def dmaPoison : Nat := 4
def dmaBad : Nat := 5

/-- R332, R338: a channel starts its next descriptor. -/
def dmaMay (s : State) (c : Nat) : Bool :=
  let d := s.dma c
  d.en && d.head ≠ d.tail && d.idle && s.host.linkUp && decide ((s.fn (chanOwner s c)).st ≠ .disabling)
    && !ideDiscards s (chanOwner s c)

/-- R332: a descriptor that is malformed. -/
def dmaMalformed (d : BitVec 256) : Bool :=
  if dOp d = 1 || dOp d = 2 then
    !(64 ≤ dLen d && dLen d ≤ 2 ^ 24 && dLen d % 64 = 0 && dDev d % 64 = 0)
  else if dOp d = 3 || dOp d = 4 then !(1 ≤ dLen d && dLen d ≤ 65536)
  else true

/-- A descriptor in progress with its outcome known. -/
def dmaEnds (s : State) (c : Nat) (d : BitVec 256) (status done : Nat) : State :=
  s.updDma c fun x => { x with
    st := 1, cur := some { desc := d, status := BitVec.ofNat 8 status, done := BitVec.ofNat 32 done } }

/-- R320: a range of device memory lies in the function's window, or below MEM_TOP for the PF. -/
def dmaRange (s : State) (n a len : Nat) : Bool :=
  a + len ≤ memTop s && (n = 0 || ((s.fn n).memBase.toNat ≤ a && a + len ≤ (s.fn n).memHi))

/-- R332, R333: what descriptor `d` of operation `op` does once started; `run` is the operation. A malformed
descriptor is BAD whichever command names it, and one of another operation is not this command's. -/
def dmaStart (s : State) (c : Nat) (d : BitVec 256) (op : Nat) (run : State) : State :=
  if !dmaMay s c then s
  else if dOp d = op || dOp d = 0 || 4 < dOp d then (if dmaMalformed d then dmaEnds s c d dmaBad 0 else run)
  else s

/-- A descriptor that waits, with the host data it has read. -/
def dmaWait (s : State) (c : Nat) (d : BitVec 256) (ws : List Word16) : State :=
  s.updDma c fun x => { x with st := 2, cur := some { desc := d, words := ws } }

/-- The words of a line, and the lines of words. -/
def lineParts (l : Line) : List Word16 := (List.range 4).map fun i => l.extractLsb' (128 * i) 128
def wordLines (ws : List Word16) (n : Nat) : List Line :=
  (List.range n).map fun i =>
    (List.range 4).foldl (fun l k => l ||| ((ws.getD (4 * i + k) 0).setWidth 512 <<< (128 * k))) 0

/-- R174, R333 H2D: lines of host memory written to device memory. -/
def dmaH2d (s : State) (c : Nat) (d : BitVec 256) (data : List Line) : State :=
  let n := dLen d / 64
  if dmaRange s (chanOwner s c) (dDev d) (dLen d) then
    if memBusy s (dDev d) (dLen d) then dmaWait s c d (data.flatMap lineParts) else
    let s1 := (List.range n).foldl (fun st i => writeLine st (dDev d + 64 * i) (lineBytes (data.getD i 0)) false 0) s
    dmaEnds (pmuCount s1 wHost evDmaLines c n) c d dmaOk (dLen d)
  else dmaEnds s c d dmaRefused 0

/-- R333 D2H: `n` lines from device address `a` written to the host memory of function `f`, up to a poisoned one: the
state after, the lines moved, and whether one stopped it. -/
def dmaLinesOut (s : State) (f a h : Nat) : Nat → State × Nat × Bool
  | 0 => (s, 0, false)
  | n + 1 =>
    let r := readLine s a 0
    if r.poison then (report r.st srcHost cHostPoison a, 0, true)
    else
      let q := dmaLinesOut (hostStore r.st f h (lineBytes r.line)) f (a + 64) (h + 64) n
      (q.1, q.2.1 + 1, q.2.2)

/-- R174, R333 D2H. -/
def dmaD2h (s : State) (c : Nat) (d : BitVec 256) : State :=
  if dmaRange s (chanOwner s c) (dDev d) (dLen d) then
    if memBusy s (dDev d) (dLen d) then dmaWait s c d [] else
    let r := dmaLinesOut s (chanOwner s c) (dDev d) (dHost d) (dLen d / 64)
    dmaEnds (pmuCount r.1 wHost evDmaLines c r.2.1) c d (if r.2.2 then dmaPoison else dmaOk) (64 * r.2.1)
  else dmaEnds s c d dmaRefused 0

/-- R127, R333: the words of an H2C packet of `len` bytes. -/
def dmaWords (data : List Word16) (len : Nat) : List ChuteWord :=
  let n := (len + 15) / 16
  (List.range n).map fun i =>
    { data := data.getD i 0, first := i = 0, last := i + 1 = n,
      len := BitVec.ofNat 4 (if i + 1 = n then (len - 1) % 16 else 15), poison := false }

/-- R147: the packet of a remote chute as lines. -/
def dmaRemote (s : State) (src : Source) (ca : ChuteAddr) (data : List Word16) (len : Nat) : State :=
  let n := (len + 63) / 64
  (List.range n).foldl (fun st i =>
    let word := fun (k : Nat) => (data.getD (4 * i + k) 0).setWidth 512 <<< (128 * k)
    sendRemote st src ca (dataVc ca) (word 0 ||| word 1 ||| word 2 ||| word 3) (i = 0) (i + 1 = n)
      (if i + 1 = n then (len - 1) % 64 + 1 else 64) false) s

/-- R333 H2C: one packet pushed; a remote one waits whole for XOFF and for a link (R140). -/
def dmaH2c (s : State) (c : Nat) (d : BitVec 256) (data : List Word16) : State :=
  let src := dmaSource s c
  let ca := BitVec.ofNat 22 (dDev d)
  let k := bitsAt (dDev d) 0 16
  let moved := pmuCount s wHost evDmaLines c ((dLen d + 63) / 64)
  if isLocal s ca then
    if !funcMay s k (chanOwner s c) then dmaEnds (refuseChute s k) c d dmaRefused 0
    else if (s.chute k).st ≠ .enabled || !chuteHeld s (k / 1024) then dmaEnds (refuseChute s k) c d dmaRefused 0
    else dmaEnds (offerWords moved k src (dmaWords data (dLen d))) c d dmaOk (dLen d)
  else if chuteReady s src ca then dmaEnds (dmaRemote moved src ca data (dLen d)) c d dmaOk (dLen d)
  else dmaWait s c d data

/-- R137, R333 C2H: a packet read from a chute: the state after, its valid bytes, and whether a line came poisoned.
`fuel` bounds its lines. -/
def takePacket (s : State) (k : Nat) : Nat → State × List Byte × Bool
  | 0 => (s, [], false)
  | fuel + 1 =>
    if (s.chute k).ready = 0 then (s, [], false)
    else
      let r := chuteRead s k
      let s1 := if tagFirst r.line.tag then changeChute r.st k markChute else r.st
      if tagLast r.line.tag then
        (changeChute s1 k releaseChute, (lineBytes r.line.data).take (tagValid r.line.tag), r.line.poison || r.uc)
      else
        let q := takePacket s1 k fuel
        (q.1, lineBytes r.line.data ++ q.2.1, r.line.poison || r.uc || q.2.2)

/-- R333 C2H: the descriptor's packet once one is committed; until then the channel waits. -/
def dmaConsume (s : State) (c : Nat) (d : BitVec 256) : State :=
  let k := bitsAt (dDev d) 0 16
  if (s.chute k).st = .disabled || (s.chute k).ready = 0 || chuteWaits s k then dmaWait s c d []
  else
    let r := takePacket s k 1024
    let bs := r.2.1.take (dLen d)
    let s1 := hostStore r.1 (chanOwner s c) (dHost d) bs
    dmaEnds (pmuCount s1 wHost evDmaLines c ((bs.length + 63) / 64)) c d
      (if r.2.2 then dmaPoison else if dLen d < r.2.1.length then dmaTruncated else dmaOk) bs.length

/-- R151, R333 C2H: a local chute of the channel's function with PEN_VALID clear. -/
def dmaC2h (s : State) (c : Nat) (d : BitVec 256) : State :=
  let k := bitsAt (dDev d) 0 16
  if isLocal s (BitVec.ofNat 22 (dDev d)) && (s.chute k).func.toNat = chanOwner s c && !(s.chute k).penValid then
    dmaConsume s c d
  else if isLocal s (BitVec.ofNat 22 (dDev d)) && !funcMay s k (chanOwner s c) then
    dmaEnds (refuseChute s k) c d dmaRefused 0
  else dmaEnds s c d dmaRefused 0

/-- R130, R333: a channel that waited goes on when it can. -/
def dmaRetry (s : State) (c : Nat) : State :=
  match (s.dma c).cur with
  | some x =>
    if x.status ≠ 0 then s
    else if dOp x.desc = 1 then dmaH2d s c x.desc (wordLines x.words (dLen x.desc / 64))
    else if dOp x.desc = 2 then dmaD2h s c x.desc
    else if dOp x.desc = 4 then dmaConsume s c x.desc
    else
      let ca := BitVec.ofNat 22 (dDev x.desc)
      if chuteReady s (dmaSource s c) ca then
        let s1 := pmuCount s wHost evDmaLines c ((dLen x.desc + 63) / 64)
        dmaEnds (dmaRemote s1 (dmaSource s c) ca x.words (dLen x.desc)) c x.desc dmaOk (dLen x.desc)
      else s
  | none => s

/-- R333: words of the channel's packet still wait at a chute. -/
def dmaWaiting (s : State) (c : Nat) : Bool :=
  s.chutes.any fun e => e.2.waits (dmaSource s c)

/-- R332: the address of the descriptor at HEAD. -/
def dmaEntry (d : Dma) : Nat := d.ring.toNat + 32 * (d.head.toNat % 2 ^ d.log2.toNat)

/-- R332, R333, R338: the descriptor completes: DONE_BYTES, STATUS, HEAD, then DMA_DONE; nothing is written to a
function that is DISABLING. -/
def dmaFinish (s : State) (c : Nat) (x : DmaCur) : State :=
  let d := s.dma c
  let n := chanOwner s c
  let quiet := decide ((s.fn n).st = .disabling)
  let out := hostStore (hostStore s n (dmaEntry d + 28) (leBytes x.done.toNat 4)) n (dmaEntry d + 24) [x.status]
  let s1 := pmuCount (if quiet then s else out) wHost evDmaDescs c 1
  let s2 := s1.setDma c { d with
    head := d.head + 1, last := x.status.setWidth 3, cur := none, st := if d.en then 0 else 3 }
  if dEvent x.desc && !quiet then raiseEvent s2 n evDmaDone c (d.head.toNat % 2 ^ d.log2.toNat) else s2

end Sys2Proof.Machine
end

