-- ==== Sys2Proof/Machine/HostIf.lean ====
section
/-! DEFINITION. The commands of the host: configuration, BAR4, CXL.mem, functions, DMA, event rings and the port's
resets (12_host_interface.md, R344). -/

namespace Sys2Proof.Machine

open Sys2Proof

/-! ### The port (R316, R317, R334, R344) -/

/-- PCIE_LINK_UP (R316, R317, R340): the highest common rate in GT/s, the width, and whether the partner offers CXL. -/
def execPcieLinkUp (gts : Nat) (width : BitVec 5) (cxlPartner : Bool) (s : State) : Host.Outcome State Fault Refusal :=
  .next <|
    if !s.host.portOn || !s.pins.perstN || !s.pins.refclk || s.host.linkUp then s
    else
      let offers := match s.tack.image with | some i => i.cxlEn | none => false
      let cxl := offers && cxlPartner && decide (32 ≤ gts)
      let s1 := { s with host := { s.host with
        linkUp := true, width := width, flit := decide (64 ≤ gts), cxl := cxl, cxlVer := cxl && decide (64 ≤ gts),
        speed := if 64 ≤ gts then 3 else if 32 ≤ gts then 2 else if 16 ≤ gts then 1 else 0 } }
      (List.range 16).foldl flushLost s1

/-- The port loses its link; the standard's reset of the configuration space clears VF Enable (PRESUMED). -/
def portDown (s : State) : State :=
  { s with host := { s.host with
    linkUp := false, speed := 0, width := 0, flit := false, cxl := false, cxlVer := false, vfEnable := false, ide :=
      [] } }

/-- PCIE_LINK_DOWN (R337, R341): every function starts its disable. -/
def execPcieLinkDown (s : State) : Host.Outcome State Fault Refusal :=
  .next <| if s.host.linkUp then disableAll (portDown s) else s

/-- HOT_RESET (R337, R341): every function is disabled at once. -/
def execHotReset (s : State) : Host.Outcome State Fault Refusal :=
  .next <|
    if s.host.linkUp then disableAllNow { s with host := { s.host with vfEnable := false, ide := [] } } else s

/-- FLR (R337): of the PF, every function is disabled. -/
def execFlr (n : Func) (s : State) : Host.Outcome State Fault Refusal :=
  .next <|
    if !s.host.linkUp then s
    else if n = 0 then disableAll { s with host := { s.host with vfEnable := false } }
    else if (s.fn n.toNat).st = .enabled then beginDisable s n.toNat else s

/-- PERST_N (R337, R341, R344): until the first READY after a cold reset its falling edge resets the port alone, whose
VF Enable clears; from then on it is a warm reset with PERST_WARM set, else a host reset. The save hold ends by its own
way alone (R343). -/
def execPerstN (level : Bool) (s : State) : Host.Outcome State Fault Refusal :=
  .next <|
    let fell := s.pins.perstN && !level
    let s1 := { s with pins := { s.pins with perstN := level } }
    if !fell || s.tack.hold then s1
    else if !s.tack.everReady then (portDown s1).forAll (liveVfs s1) disableNow
    else if s.tack.perstWarm then warmReset s1 causePerst
    else disableAllNow (portDown s1)

/-- R319, R321: the function answers configuration requests. -/
def fnPresent (s : State) (f : Nat) : Bool := f = 0 || s.host.vfEnable

/-- CONFIG_REQUEST (R334): answered once the port trains, whatever the state of boot; the contents of the registers
belong to the standard, and a value read is a free value [20]. -/
def execConfigRequest (f : Func) (_reg : BitVec 12) (wr : Option Reg32) (s : State) : Host.Outcome State Fault Refusal :=
  .next <|
    if !s.host.linkUp || ideDiscards s f.toNat then s.answer .none
    else if !fnPresent s f.toNat then s.answer .ur
    else match wr with
      | some _ => s.answer .ok
      | none => s.useFree.answer (.val ((s.freeNow.setWidth 32).setWidth 64))

/-! ### BAR4 and CXL.mem (R318, R326) -/

/-- R323: the device address of a BAR4 offset. -/
def bar4Addr (s : State) (f off : Nat) : Nat := if f = 0 then off else (s.fn f).memBase.toNat + off

/-- R326: the limit of a function's BAR4. -/
def bar4Limit (s : State) (f : Nat) : Nat := if f = 0 then memTop s else (s.fn f).memSize.toNat

/-- R422: 64-byte units that `n` bytes at `a` touch. -/
def unitsOf (a n : Nat) : Nat := (a % 64 + n + 63) / 64

/-- R326: a BAR4 access that is served, or its unsupported request with the record of R166. -/
def bar4 (s : State) (f off n : Nat) (k : State → State) : State :=
  let a := bar4Addr s f off
  if ideDiscards s f then s.answer .none
  else if !barsOpen s f || !wipeComplete s then s.answer .ur
  else if bar4Limit s f < off + n || memTop s < a + n then
    (if memTop s < a + n then addressFault s (max a (memTop s)) else s).answer .ur
  else k s

/-- BAR4_READ (R326): a poisoned line completes with EP. -/
def execBar4Read (f : Func) (off : BitVec 64) (len : Nat) (s : State) : Host.Outcome State Fault Refusal :=
  .next <|
    bar4 s f.toNat off.toNat len fun st =>
      let a := bar4Addr st f.toNat off.toNat
      memRequest (pmuCount st wHost evHostRd 0 (unitsOf a len)) (.read a len 0)

/-- BAR4_WRITE (R326). -/
def execBar4Write (f : Func) (off : BitVec 64) (data : List Byte) (s : State) : Host.Outcome State Fault Refusal :=
  .next <|
    bar4 s f.toNat off.toNat data.length fun st =>
      let a := bar4Addr st f.toNat off.toNat
      memRequest (pmuCount st wHost evHostWr 0 (unitsOf a data.length)) (.write a data false 0 (some f))

/-- R318, R326: a CXL.mem access: a line from device address 0 to MEM_TOP. -/
def cxlMem (s : State) (a : Nat) (k : State → State) : State :=
  if !s.host.linkUp || !s.host.cxl then s
  else if !wipeComplete s then s.answer .ur
  else if memTop s ≤ a then (addressFault s a).answer .ur
  else k s

/-- CXL_MEM_READ (R318): an uncached read of the line; a poisoned one says so. -/
def execCxlMemRead (a : Addr) (s : State) : Host.Outcome State Fault Refusal :=
  .next <|
    cxlMem s a.toNat fun st =>
      memRequest (pmuCount st wHost evHostRd 0 1) (.read (a.toNat / 64 * 64) 64 0)

/-- CXL_MEM_WRITE (R318): a whole line, at its hub. -/
def execCxlMemWrite (a : Addr) (data : Line) (poison : Bool) (s : State) : Host.Outcome State Fault Refusal :=
  .next <|
    cxlMem s a.toNat fun st =>
      memRequest (pmuCount st wHost evHostWr 0 1) (.write (a.toNat / 64 * 64) (lineBytes data) poison 0 none)

/-! ### Functions (R321, R337 to R340) -/

/-- The BAR0 offset of function `n`'s block. -/
def fnOff (n : Nat) : Nat := 0x400100 + 0x40 * n

/-- VF_ENABLE_SET (R321): with SR-IOV in the image, every VF whose checks pass is enabled, in ascending order. -/
def execVfEnableSet (s : State) : Host.Outcome State Fault Refusal :=
  .next <|
    let sriov := match s.tack.image with | some i => i.sriovEn | none => false
    if !s.host.linkUp || !sriov || s.host.vfEnable then s
    else
      let s1 := { s with host := { s.host with vfEnable := true } }
      s1.forAll ((List.range 15).map (· + 1)) fun st n => if (st.fn n).st = .disabled then enableVf st n else st

/-- VF_ENABLE_CLEAR (R337): every VF starts its disable. -/
def execVfEnableClear (s : State) : Host.Outcome State Fault Refusal :=
  .next <|
    if !s.host.linkUp || !s.host.vfEnable then s
    else
      let s1 := { s with host := { s.host with vfEnable := false } }
      s1.forAll (((List.range 15).map (· + 1)).filter fun n => (s1.fn n).st = .enabled) beginDisable

/-- R321, R340: ENABLE of a DISABLED VF, while VF Enable is set. -/
def fnEnable (s : State) (n : Nat) : State :=
  if n ≠ 0 && s.host.vfEnable && decide ((s.fn n).st = .disabled) then enableVf s n else setFnResult s n fnState

/-- R337, R338: DISABLE of the PF, or of an ENABLED VF. -/
def fnDisable (s : State) (n : Nat) : State :=
  if (n = 0 && decide ((s.fn 0).st ≠ .disabling)) || decide ((s.fn n).st = .enabled) then beginDisable s n
  else setFnResult s n fnState

/-- R338, R340: WIPE of a DISABLED VF. -/
def fnWipe (s : State) (n : Nat) : State :=
  if n = 0 then setFnResult s 0 fnBadOp
  else if (s.fn n).st = .disabled && (s.fn n).wipe.isNone then
    s.updFn n fun x => { x with result := BitVec.ofNat 4 fnOk, wipe := some (x.memBase.toNat, x.memHi) }
  else setFnResult s n fnState

/-- R340: a value written to CMD; 0 is no command. -/
def fnCommand (s : State) (n cmd : Nat) : State :=
  match cmd with
  | 0 => s
  | 1 => fnEnable s n
  | 2 => fnDisable s n
  | 3 => fnWipe s n
  | _ => setFnResult s n fnBadOp

/-- FUNC_ENABLE (R321, R340). -/
def execFuncEnable (f n : Func) (s : State) : Host.Outcome State Fault Refusal :=
  .next <| coreAccess s f.toNat (n = f) (fnOff n.toNat) fun st => (fnCommand st n.toNat 1).answer .ok

/-- FUNC_DISABLE (R337, R338). -/
def execFuncDisable (f n : Func) (s : State) : Host.Outcome State Fault Refusal :=
  .next <| coreAccess s f.toNat (n = f) (fnOff n.toNat) fun st => (fnCommand st n.toNat 2).answer .ok

/-- WIPE (R338, R340). -/
def execWipe (f n : Func) (s : State) : Host.Outcome State Fault Refusal :=
  .next <| coreAccess s f.toNat (n = f) (fnOff n.toNat) fun st => (fnCommand st n.toNat 3).answer .ok

/-- WIPE_DONE (R174, R338): the window reads zero, once every hub it lies on is reached. -/
def execWipeDone (n : Func) (s : State) : Host.Outcome State Fault Refusal :=
  .next <|
    match (s.fn n.toNat).wipe with
    | some w =>
      if reqWaits s w.1 (min w.2 (memTop s) - w.1) then s
      else (zeroRange s w.1 (min w.2 (memTop s))).updFn n.toNat fun x => { x with wipe := none }
    | none => s

/-- FUNC_BAD_OP (R340): a reserved command. -/
def execFuncBadOp (f n : Func) (op : BitVec 4) (s : State) : Host.Outcome State Fault Refusal :=
  .next <|
    coreAccess s f.toNat (n = f) (fnOff n.toNat) fun st =>
      (fnCommand st n.toNat (if op.toNat ≤ 3 then 4 else op.toNat)).answer .ok

/-- FUNC_DRAIN_COMPLETE (R338 steps 3 and 5). -/
def execFuncDrainComplete (n : Func) (s : State) : Host.Outcome State Fault Refusal :=
  .next <|
    if (s.fn n.toNat).st = .disabling && disableSettled s n.toNat then endDisable s n.toNat else s

/-- FUNC_DRAIN_LIMIT_EXPIRY (R338 steps 4 and 5). -/
def execFuncDrainLimitExpiry (n : Func) (s : State) : Host.Outcome State Fault Refusal :=
  .next <| if (s.fn n.toNat).st = .disabling then endDisable (abortFunction s n.toNat) n.toNat else s

/-! ### DMA (R332, R333) -/

/-- DMA_TAIL_WRITE (R332). -/
def execDmaTailWrite (f : Func) (c : Chan) (v : Reg32) (s : State) : Host.Outcome State Fault Refusal :=
  .next <|
    coreAccess s f.toNat (chanOwner s c.toNat = f.toNat) (0x40100C + 0x40 * c.toNat) fun st =>
      (st.updDma c.toNat fun d => { d with tail := v }).answer .ok

/-- H2D (R333). -/
def execH2d (c : Chan) (desc : BitVec 256) (data : List Line) (s : State) : Host.Outcome State Fault Refusal :=
  .next <| dmaStart s c.toNat desc 1 (dmaH2d s c.toNat desc data)

/-- D2H (R333). -/
def execD2h (c : Chan) (desc : BitVec 256) (s : State) : Host.Outcome State Fault Refusal :=
  .next <| dmaStart s c.toNat desc 2 (dmaD2h s c.toNat desc)

/-- H2C (R333). -/
def execH2c (c : Chan) (desc : BitVec 256) (data : List Word16) (s : State) : Host.Outcome State Fault Refusal :=
  .next <| dmaStart s c.toNat desc 3 (dmaH2c s c.toNat desc data)

/-- C2H (R333). -/
def execC2h (c : Chan) (desc : BitVec 256) (s : State) : Host.Outcome State Fault Refusal :=
  .next <| dmaStart s c.toNat desc 4 (dmaC2h s c.toNat desc)

/-- DMA_DESCRIPTOR_COMPLETE (R333): a channel that waits goes on first; its words must have left. -/
def execDmaDescriptorComplete (c : Chan) (s : State) : Host.Outcome State Fault Refusal :=
  .next <|
    let s1 := dmaRetry s c.toNat
    match (s1.dma c.toNat).cur with
    | some x => if x.status = 0 || dmaWaiting s1 c.toNat then s1 else dmaFinish s1 c.toNat x
    | none => s1

/-! ### Event rings (R330, R340) -/

/-- R330: a value written to HEAD; one out of range is ignored. -/
def writeHead (s : State) (n : Nat) (v : Reg32) : State :=
  let x := s.fn n
  if (x.tail - v).toNat ≤ 2 ^ x.evqLog2.toNat then flushLost (s.setFn n { x with head := v, irq := false }) n else s

/-- HOST_EVQ_HEAD_WRITE (R330). -/
def execHostEvqHeadWrite (f n : Func) (v : Reg32) (s : State) : Host.Outcome State Fault Refusal :=
  .next <| coreAccess s f.toNat (n = f) (fnOff n.toNat + 0x38) fun st => (writeHead st n.toNat v).answer .ok

/-- HOST_EVQ_STATUS_WRITE (R8): 1 clears OVERFLOW. -/
def execHostEvqStatusWrite (f n : Func) (v : Reg32) (s : State) : Host.Outcome State Fault Refusal :=
  .next <|
    coreAccess s f.toNat (n = f) (fnOff n.toNat + 0x3C) fun st =>
      (st.updFn n.toNat fun x => { x with ovf := x.ovf && !v.getLsbD 0 }).answer .ok

/-- R8: HOST_EVQ_STATUS, whose read clears DROPPED. -/
def takeEvqStatus (s : State) (n : Nat) : State × Nat :=
  (s.updFn n fun x => { x with dropped := 0 }, bit (s.fn n).ovf + 2 ^ 16 * (s.fn n).dropped.toNat)

/-- R8, R325: HOST_DENIED, cleared by the read. -/
def takeDenied (s : State) : State × Nat :=
  ({ s with host := { s.host with denied := 0 } }, s.host.denied.toNat)

/-- HOST_EVQ_STATUS_READ (R8): returns and clears DROPPED. -/
def execHostEvqStatusRead (f n : Func) (s : State) : Host.Outcome State Fault Refusal :=
  .next <|
    coreAccess s f.toNat (n = f) (fnOff n.toNat + 0x3C) fun st => answerRead (takeEvqStatus st n.toNat)

/-- HOST_DENIED_READ (R8, R325). -/
def execHostDeniedRead (s : State) : Host.Outcome State Fault Refusal :=
  .next <| pfCore s fun st => answerRead (takeDenied st)

/-- HOST_IDE_FAIL (R336, R404): a Secure stream becomes Insecure; `addr` is the BAR offset or device address of the
packet that failed. -/
def execHostIdeFail (stream : Fin 5) (addr : BitVec 64) (s : State) : Host.Outcome State Fault Refusal :=
  .next <|
    if tabGet (fun _ => 0) s.host.ide stream.val = 1 then
      report { s with host := { s.host with ide := tabSet (fun _ => 0) s.host.ide stream.val 2 } } srcHost cIdeFail
        addr.toNat
    else s

end Sys2Proof.Machine
end

