-- ==== Sys2Proof/Machine/RegsSys.lean ====
section
/-! DEFINITION. The control space of the system, host, boot, security, fault, thermal and power blocks (11 R315, 12
R340, 13 R366 and R367, 14 R387, 15 R400, 16 R419). -/

namespace Sys2Proof.Machine

open Sys2Proof

/-! ### System (R315) -/

/-- R8: SYS_STATUS, whose read clears CSR_DROPPED. -/
def takeSysStatus (s : State) : State × Nat :=
  ({ s with sys := { s.sys with dropped := 0 } },
    bit s.sys.twoMgr + 2 * bit s.sys.dup + 2 ^ 2 * bit s.sys.shuffle + 2 ^ 16 * s.sys.dropped.toNat)

/-- R8: 1s clear the conditions of SYS_STATUS. -/
def clearSysStatus (s : State) (v : Reg32) : State :=
  { s with sys := { s.sys with
    twoMgr := s.sys.twoMgr && !v.getLsbD 0, dup := s.sys.dup && !v.getLsbD 1, shuffle := s.sys.shuffle &&
      !v.getLsbD 2 } }

/-- SYS_PEER as it reads. -/
def peerReg (s : State) (p : Nat) : Nat :=
  let x := s.peer p
  (groupOf s p).length + 2 ^ 7 * expectedLinks s (myDev s) p + 2 ^ 14 * x.via.toNat + 2 ^ 20 * bit x.viaValid
    + 2 ^ 21 * reachOf s p + 2 ^ 23 * bit x.seen

def readSys (s : State) (off : Nat) : State × Nat :=
  let y := s.sys
  if off = 0 then
    (s, myDev s + 2 ^ 6 * bit y.manager + 2 ^ 7 * y.mgrDev.toNat + 2 ^ 13 * bit y.mgrKnown + 2 ^ 14 * sysSize s)
  else if off = 4 then
    (s, bit y.autoRoute + 2 * bit y.noticeEn + 2 ^ 2 * bit y.intakeEn + 2 ^ 16 * y.intakeChute.toNat)
  else if off = 8 then takeSysStatus s
  else if 0x100 ≤ off && off < 0x200 then (s, peerReg s ((off - 0x100) / 4))
  else (s, 0)

def writeSys (s : State) (off : Nat) (v : Reg32) : State :=
  if off = 4 then
    { s with sys := { s.sys with
      autoRoute := v.getLsbD 0, noticeEn := v.getLsbD 1, intakeEn := v.getLsbD 2, intakeChute := v.extractLsb' 16 16 } }
  else if off = 8 then clearSysStatus s v
  else if 0x100 ≤ off && off < 0x200 then
    let p := (off - 0x100) / 4
    s.setPeer p { s.peer p with via := v.extractLsb' 14 6, viaValid := v.getLsbD 20 }
  else s

/-! ### The host die (R320, R340) -/

/-- HOST_STATUS as it reads (R402: FAILED once the device is). -/
def hostStatus (s : State) : Nat :=
  let h := s.host
  (if s.flt.failed then 2 else h.devState.toNat) + 2 ^ 2 * h.speed.toNat + 2 ^ 4 * h.width.toNat + 2 ^ 9 * bit h.flit
    + 2 ^ 10 * bit h.cxl + 2 ^ 11 * bit h.cxlVer + 2 ^ 12 * bit (h.ide.any fun e => decide (e.2 = 1))

/-- R320: what no VF holds, bit by bit. -/
def pfBits (n : Nat) (holder : Nat → Nat) : Nat := ((List.range n).map fun i => if holder i = 0 then 2 ^ i else 0).sum

/-- R320: the chute groups that no VF holds. -/
def pfGroups (s : State) : List Nat :=
  (List.range 256).filter fun g => holderOf s (fun f => f.chuteLo ≤ 256 * g && 256 * g < f.chuteHi) = 0

/-- R320, R340: the first group and the count of the PF's groups, when they are one range; the first of none, and a
range of groups that lie apart, have no stated value [4]. -/
def pfChutes (s : State) : State × Nat :=
  let gs := pfGroups s
  let low := s.freeNow.toNat % 2 ^ 8
  match gs with
  | [] => (s.useFree, low)
  | g :: _ =>
    if gs = List.range' g gs.length then (s, g + 2 ^ 8 * gs.length) else (s.useFree, s.freeNow.toNat % 2 ^ 17)

/-- R320, R340: the grant registers of the PF read what it holds. -/
def readPfGrant (s : State) (off : Nat) : State × Nat :=
  match off with
  | 0x04 => (s, loHalf (pfBits 64 (penOwner s)))
  | 0x08 => (s, hiHalf (pfBits 64 (penOwner s)))
  | 0x0C => pfChutes s
  | 0x18 => (s, loHalf (memTop s))
  | 0x1C => (s, hiHalf (memTop s))
  | 0x20 => (s, pfBits 32 (chanOwner s))
  | _ => (s, 0)

def readVfGrant (x : Fn) (off : Nat) : Nat :=
  match off with
  | 0x04 => loHalf x.pens.toNat
  | 0x08 => hiHalf x.pens.toNat
  | 0x0C => x.gbase.toNat + 2 ^ 8 * x.gcount.toNat
  | 0x10 => loHalf x.memBase.toNat
  | 0x14 => hiHalf x.memBase.toNat
  | 0x18 => loHalf x.memSize.toNat
  | 0x1C => hiHalf x.memSize.toNat
  | 0x20 => x.chans.toNat
  | _ => 0

/-- The block of function `n`. -/
def readFn (s : State) (n off : Nat) : State × Nat :=
  let x := s.fn n
  if off = 0x00 then (s, fnCode x.st + 2 ^ 2 * x.result.toNat + 2 ^ 6 * bit x.wipe.isSome)
  else if off < 0x24 then (if n = 0 then readPfGrant s off else (s, readVfGrant x off))
  else match off with
    | 0x24 => (s, x.drain.toNat)
    | 0x28 => (s, loHalf x.evqBase.toNat)
    | 0x2C => (s, hiHalf x.evqBase.toNat)
    | 0x30 => (s, bit x.evqEn + 2 * x.evqLog2.toNat)
    | 0x34 => (s, x.tail.toNat)
    | 0x38 => (s, x.head.toNat)
    | _ => takeEvqStatus s n

/-- R320: a grant written; it takes effect only while the VF is DISABLED. -/
def writeVfGrant (x : Fn) (off : Nat) (v : Reg32) : Fn :=
  match off with
  | 0x04 => { x with pens := putLo x.pens v }
  | 0x08 => { x with pens := putHi x.pens v }
  | 0x0C => { x with gbase := v.setWidth 8, gcount := BitVec.ofNat 9 (min 256 (bitsAt v.toNat 8 9)) }
  | 0x10 => { x with memBase := putLo x.memBase (dropLow 11 v) }
  | 0x14 => { x with memBase := putHi x.memBase v }
  | 0x18 => { x with memSize := putLo x.memSize (dropLow 11 v) }
  | 0x1C => { x with memSize := putHi x.memSize v }
  | _ => { x with chans := v }

def writeGrantReg (s : State) (n off : Nat) (v : Reg32) : State :=
  if n = 0 then s
  else if (s.fn n).st = .disabled then s.updFn n fun x => writeVfGrant x off v
  else setFnResult s n fnState

def writeFn (s : State) (n off : Nat) (v : Reg32) : State :=
  if off = 0x00 then fnCommand s n (bitsAt v.toNat 16 4)
  else if off < 0x24 then writeGrantReg s n off v
  else match off with
    | 0x24 => s.updFn n fun x => { x with drain := BitVec.ofNat 17 (clampTo 1 90000 (v.toNat % 2 ^ 17)) }
    | 0x28 => s.updFn n fun x => { x with evqBase := putLo x.evqBase (dropLow 12 v) }
    | 0x2C => s.updFn n fun x => { x with evqBase := putHi x.evqBase v }
    | 0x30 => flushLost (s.updFn n fun x => { x with
        evqEn := v.getLsbD 0, evqLog2 := BitVec.ofNat 5 (clampTo 4 16 (bitsAt v.toNat 1 5)) }) n
    | 0x38 => writeHead s n v
    | 0x3C => s.updFn n fun x => { x with ovf := x.ovf && !v.getLsbD 0 }
    | _ => s

/-- The block of DMA channel `c`. STATE is WAIT too while words of an H2C packet wait at a chute (R333). -/
def readDma (s : State) (c off : Nat) : Nat :=
  let d := s.dma c
  match off with
  | 0x00 => loHalf d.ring.toNat
  | 0x04 => hiHalf d.ring.toNat
  | 0x08 => bit d.en + 2 * d.log2.toNat
  | 0x0C => d.tail.toNat
  | 0x10 => d.head.toNat
  | 0x14 => (if d.cur.isSome && dmaWaiting s c then 2 else d.st.toNat) + 2 ^ 2 * d.last.toNat
  | _ => 0

/-- HOST_DMA_CFG: a channel without a descriptor in progress is STOPPED while EN is clear. -/
def writeDmaCfg (d : Dma) (v : Reg32) : Dma :=
  { d with
    en := v.getLsbD 0, log2 := BitVec.ofNat 4 (clampTo 4 15 (bitsAt v.toNat 1 4)),
    st := if d.cur.isSome || v.getLsbD 0 = d.en then d.st else if v.getLsbD 0 then 0 else 3 }

def writeDma (s : State) (c off : Nat) (v : Reg32) : State :=
  s.updDma c fun d => match off with
    | 0x00 => { d with ring := putLo d.ring (dropLow 12 v) }
    | 0x04 => { d with ring := putHi d.ring v }
    | 0x08 => writeDmaCfg d v
    | 0x0C => { d with tail := v }
    | _ => d

def readHost (s : State) (off : Nat) : State × Nat :=
  if off = 0 then (s, hostStatus s)
  else if off = 4 then takeDenied s
  else if 0x100 ≤ off && off < 0x500 then readFn s ((off - 0x100) / 0x40) (off % 0x40)
  else if 0x1000 ≤ off && off < 0x1800 then (s, readDma s ((off - 0x1000) / 0x40) (off % 0x40))
  else (s, 0)

def writeHost (s : State) (off : Nat) (v : Reg32) : State :=
  if 0x100 ≤ off && off < 0x500 then writeFn s ((off - 0x100) / 0x40) (off % 0x40) v
  else if 0x1000 ≤ off && off < 0x1800 then writeDma s ((off - 0x1000) / 0x40) (off % 0x40) v
  else s

/-! ### The TACK core and SEC (R366, R367) -/

def readTack (s : State) (off : Nat) : Nat :=
  let t := s.tack
  match off with
  | 0x000 => t.step.toNat + 2 ^ 4 * t.result.toNat + 2 ^ 8 * bit t.slot + 2 ^ 9 * bit t.recovery
  | 0x004 => t.fw.toNat
  | 0x008 => loHalf t.fuses.serial.toNat
  | 0x00C => hiHalf t.fuses.serial.toNat
  | 0x010 => t.cause.toNat
  | 0x018 => t.nextSlot.toNat + 2 ^ 2 * bit t.perstWarm
  | 0x01C => t.bootTime.toNat
  | 0x020 => loHalf t.flashAddr.toNat
  | 0x024 => hiHalf t.flashAddr.toNat
  | 0x028 => t.flashLen.toNat
  | 0x030 => bit t.flashCmd.isSome + 2 * t.flashRes.toNat + 2 ^ 4 * t.flashProg.toNat
  | _ => 0

def writeTack (s : State) (off : Nat) (v : Reg32) : State :=
  match off with
  | 0x014 => resetCommand s v
  | 0x018 => { s with tack := { s.tack with nextSlot := v.setWidth 2, perstWarm := v.getLsbD 2 } }
  | 0x020 => { s with tack := { s.tack with flashAddr := putLo s.tack.flashAddr (dropLow 6 v) } }
  | 0x024 => { s with tack := { s.tack with flashAddr := putHi s.tack.flashAddr v } }
  | 0x028 => { s with tack := { s.tack with flashLen := v.setWidth 25 } }
  | 0x02C => flashCommand s (v.toNat % 16) (v.extractLsb' 4 4) (v.extractLsb' 8 12)
  | _ => s

def readSec (s : State) (off : Nat) : Nat :=
  let t := s.tack
  if 0x040 ≤ off && off < 0x070 then bitsAt t.fuses.keyHash.toNat (8 * (off - 0x040)) 32
  else match off with
    | 0x000 => lcState s + 2 ^ 3 * bit t.debugOpen
    | 0x008 => bit t.secBusy + 2 * t.secRes.toNat
    | 0x010 => loHalf t.token.toNat
    | 0x014 => hiHalf t.token.toNat
    | 0x018 => t.fuses.svn.toNat + 2 ^ 8 * t.runSvn.toNat
    | 0x01C => t.nonce.toNat
    | _ => 0

def writeSec (s : State) (off : Nat) (v : Reg32) : State :=
  match off with
  | 0x004 => secCommand s (v.toNat % 16) (bitsAt v.toNat 4 3)
  | 0x010 => { s with tack := { s.tack with token := putLo s.tack.token (dropLow 6 v) } }
  | 0x014 => { s with tack := { s.tack with token := putHi s.tack.token v } }
  | _ => s

/-! ### Faults (R405, R419) -/

def alertCode : AlertMode → Nat
  | .high => 0
  | .low => 1
  | .toggling => 2

/-- FAULT_STATUS: uncleared records of a class. -/
def unclearedOf (s : State) (c : Nat) : Nat := (s.flt.recs.filter fun e => e.2.uncleared &&
    decide (e.2.cls.toNat = c)).length

/-- R413: INJ_MODE as it reads. -/
def injMode (s : State) : Nat :=
  match s.flt.arm with
  | some a => if a.continuous then 2 else 1
  | none => 0

/-- A register of a 64-byte record. -/
def lineReg (x : Line) (off : Nat) : Nat := bitsAt x.toNat (8 * (off % 0x40)) 32

def readFault (s : State) (off : Nat) : Nat :=
  let f := s.flt
  if 0xA0000 ≤ off then lineReg (f.prev.getD ((off - 0xA0000) / 0x40) 0) off
  else if 0x80000 ≤ off then
    (if off < 0x88000 then lineReg (tabGet (fun _ => {}) f.log ((off - 0x80000) / 0x40)).toLine off else 0)
  else if 0x10000 ≤ off then lineReg (s.frec ((off - 0x10000) / 0x40)).toLine off
  else if 0x100 ≤ off && off < 0x120 then
    let b := s.bucket ((off - 0x100) / 4)
    b.threshold.toNat + 2 ^ 16 * b.leak.toNat
  else match off with
    | 0x000 => min 0x3FF (unclearedOf s 2) + 2 ^ 10 * min 0xF (unclearedOf s 3) + 2 ^ 14 * alertCode (alertOf s)
        + 2 ^ 16 * bit f.hbLost + 2 ^ 17 * bit f.failed
    | 0x008 => f.head.toNat
    | 0x00C => f.prev.length + 2 ^ 16 * f.prevLog
    | 0x010 => f.injSource.toNat + 2 ^ 16 * f.injChecker.toNat
    | 0x014 => injMode s + 2 ^ 2 * f.injShown.toNat + 2 ^ 10 * f.injResult.toNat
    | 0x01C => bit f.test.isSome + 2 * f.testResult.toNat
    | _ => 0

/-- FAULT_BUCKET written: a THRESHOLD of 0 reads back 1. -/
def writeBucket (s : State) (b : Nat) (v : Reg32) : State :=
  let x : Bucket := { threshold := BitVec.ofNat 16 (max 1 (v.toNat % 2 ^ 16)), leak := v.extractLsb' 16 16 }
  { s with flt := { s.flt with buckets := tabSet Bucket.resetAt s.flt.buckets b x } }

/-- FAULT_HEARTBEAT written (R412). -/
def beat (s : State) : State := { s with flt := { s.flt with hbSeen := true, hbLost := false } }

def writeFault (s : State) (off : Nat) (v : Reg32) : State :=
  if 0x80000 ≤ off then s
  else if 0x10000 ≤ off then
    (if off % 0x40 = 0x3C && srcKnown ((off - 0x10000) / 0x40) then ackRecord s ((off - 0x10000) / 0x40) v else s)
  else if 0x100 ≤ off && off < 0x120 then writeBucket s ((off - 0x100) / 4) v
  else match off with
    | 0x004 => beat s
    | 0x010 => { s with flt := { s.flt with injSource := v.setWidth 16, injChecker := v.extractLsb' 16 4 } }
    | 0x014 => injControl s (v.toNat % 4) (v.extractLsb' 2 8)
    | 0x018 => testCommand s (v.toNat % 16) (v.extractLsb' 4 12)
    | _ => s

/-! ### Thermal (R400) -/

def readTherm (s : State) (off : Nat) : Nat :=
  let t := s.therm
  if off = 0 then thermStatus s
  else if off = 4 then t.pinEn.toNat
  else if 0x010 ≤ off && off < 0x028 then (tabGet (fun _ => 0x280) t.pinHigh ((off - 0x10) / 4)).toNat
  else if 0x400 ≤ off && off < 0x798 then
    let x := s.sensor ((off - 0x400) / 4)
    tempBits x.temp + 2 ^ 12 * x.st.toNat + 2 ^ 14 * x.dis.toNat
  else if 0x800 ≤ off && off < 0x9C0 then
    let x := s.unit ((off - 0x800) / 4)
    tempBits x.temp + 2 ^ 12 * x.band.toNat + 2 ^ 15 * bit x.est
  else if 0xA00 ≤ off && off < 0xA60 then
    let x := s.sensor (230 + (off - 0xA00) / 4)
    tempBits x.temp + 2 ^ 12 * x.st.toNat
  else 0

def writeTherm (s : State) (off : Nat) (v : Reg32) : State :=
  if off = 4 then { s with therm := { s.therm with pinEn := v.setWidth 6 } }
  else if 0x010 ≤ off && off < 0x028 then
    { s with therm := { s.therm with
      pinHigh := tabSet (fun _ => (0x280 : BitVec 12)) s.therm.pinHigh ((off - 0x10) / 4) (v.setWidth 12) } }
  else s

/-! ### Power (R387) -/

/-- PWR_DIE.STATE (R372): OFF, IDLE while no pen at work holds the die, else ON. -/
def dieState (s : State) (p : Nat) : Nat :=
  if !unitPowered s p then 0
  else if (s.site p).st = .control then 2
  else match (s.dieAt p).bind (penOfDie s) with
    | some k =>
      let st := (s.pen k).st
      if st = .loading || st = .ready || st = .running || st = .draining then 2 else 1
    | none => 1

def readPwr (s : State) (off : Nat) : Nat :=
  let w := s.pwr
  if 0x100 ≤ off && off < 0x220 then
    let p := (off - 0x100) / 4
    (tabGet (fun _ => 0) w.mv p).toNat + 2 ^ 10 * dieState s p
  else match off with
    | 0x000 => w.pkgW.toNat + 2 ^ 11 * appliedLevel s + 2 ^ 17 * bit (decide (0 < w.lp.toNat)) + 2 ^ 18 * bit w.holdLow
    | 0x004 => w.limit.toNat + 2 ^ 16 * pwrCap s
    | 0x008 => w.lp.toNat + 2 ^ 8 * s.therm.lt.toNat
    | 0x00C => w.mainMv.toNat + 2 ^ 16 * w.holdMv.toNat
    | 0x010 => w.auxMv.toNat
    | 0x014 => w.saveRes.toNat + 2 ^ 2 * w.saveReason.toNat + 2 ^ 4 * bit w.applied
    | 0x018 => w.saveSeq.toNat
    | 0x020 => loHalf w.energy.toNat
    | 0x024 => hiHalf w.energy.toNat
    | _ => 0

def writePwr (s : State) (off : Nat) (v : Reg32) : State := if off = 0x004 then writeLimit s v else s

end Sys2Proof.Machine
end

