-- ==== Sys2Proof/Machine/Control.lean ====
section
/-! DEFINITION. The control space as one map (R327), who may reach it (R325), and a write to a register (R7). -/

namespace Sys2Proof.Machine

open Sys2Proof

/-! ### The map (R327) -/

/-- The blocks of the control space, with the offset within each. -/
inductive Block
  | tack | sys | fault | therm | pwr | host | sec | pnet | none
  | pen (p : Nat)
  | places (p : Nat)
  | pmu (u : Nat)
  | chute (c : Nat)
  | die (d : Nat)
  | oe (e : Nat)
  | link (l : Nat)
  | hub (h : Nat)
  deriving DecidableEq, Repr

/-- R420, R327: the PMU window at an offset of the PMU range. -/
def pmuUnit (off : Nat) : Nat :=
  let k := (off - 0x01000000) / 0x10000
  if k < 0x40 then k else if k < 0x48 then 64 + (k - 0x40) else if k < 0x60 then 72 + (k - 0x48) else 96

/-- R327: the block at an offset and the offset within it. -/
def blockAt (off : Nat) : Block × Nat :=
  if off < 0x10000 then (.tack, off)
  else if off < 0x10200 then (.sys, off - 0x10000)
  else if off < 0x40000 then (.none, 0)
  else if off < 0x41000 then (.pen ((off - 0x40000) / 0x40), off % 0x40)
  else if off < 0x80000 then (.none, 0)
  else if off < 0x100000 then (.places ((off - 0x80000) / 0x2000), off % 0x2000)
  else if off < 0x200000 then (.fault, off - 0x100000)
  else if off < 0x300000 then (.therm, off - 0x200000)
  else if off < 0x400000 then (.pwr, off - 0x300000)
  else if off < 0x500000 then (.host, off - 0x400000)
  else if off < 0x600000 then (.sec, off - 0x500000)
  else if off < 0x01000000 then (.none, 0)
  else if off < 0x01610000 then (.pmu (pmuUnit off), off % 0x10000)
  else if off < 0x02000000 then (.none, 0)
  else if off < 0x02001000 then (.pnet, off - 0x02000000)
  else if off < 0x04000000 then (.none, 0)
  else if off < 0x04400000 then (.chute ((off - 0x04000000) / 0x40), off % 0x40)
  else if off < 0x08000000 then (.none, 0)
  else if off < 0x0C000000 then (.die ((off - 0x08000000) / 0x100000), off % 0x100000)
  else if off < 0x10000000 then (.none, 0)
  else if off < 0x10800000 then (.oe ((off - 0x10000000) / 0x100000), off % 0x100000)
  else if off < 0x11000000 then (.none, 0)
  else if off < 0x11400000 then (.link ((off - 0x11000000) / 0x10000), off % 0x10000)
  else if off < 0x12000000 then (.none, 0)
  else if off < 0x13800000 then (.hub ((off - 0x12000000) / 0x100000), off % 0x100000)
  else (.none, 0)

/-- R6, R327: a register read, with what the read changes. Reserved offsets read 0. -/
def readReg (s : State) (off : Nat) : State × Nat :=
  let o := (blockAt off).2
  match (blockAt off).1 with
  | .tack => (s, readTack s o)
  | .sys => readSys s o
  | .fault => (s, readFault s o)
  | .therm => (s, readTherm s o)
  | .pwr => (s, readPwr s o)
  | .host => readHost s o
  | .sec => (s, readSec s o)
  | .pnet => (s, readPnet s o)
  | .none => (s, 0)
  | .pen p => (s, readPen s p o)
  | .places p => (s, readPlaces s p o)
  | .pmu u => readPmu s u o
  | .chute c => (s, readChute s c o)
  | .die d => readDie s d o
  | .oe e => (s, readOe s e o)
  | .link l => readLink s l o
  | .hub h => readHub s h o

/-- R7, R327: a register written by function `f`; `mgr` says that the write comes from the manager (R84). Read-only
fields and reserved offsets ignore it. -/
def writeReg (s : State) (f : Func) (mgr : Bool) (off : Nat) (v : Reg32) : State :=
  let o := (blockAt off).2
  match (blockAt off).1 with
  | .tack => writeTack s o v
  | .sys => writeSys s o v
  | .fault => writeFault s o v
  | .therm => writeTherm s o v
  | .pwr => writePwr s o v
  | .host => writeHost s o v
  | .sec => writeSec s o v
  | .pnet => writePnet s o v
  | .none => s
  | .pen p => writePen s (mgr || decide (penOwner s p = f.toNat)) p o v
  | .places _ => s
  | .pmu u => writePmu s u o v
  | .chute c => if f = 0 then writeChute s c o v else vfWriteChute s c o v
  | .die d => writeDie s f d o v
  | .oe e => writeOe s e o v
  | .link l => writeLink s l o v
  | .hub h => writeHub s h o v

/-! ### Access (R324, R325, R334) -/

/-- R325: a VF's own part of the HOST block; `wr` tells a write, which the grant registers refuse. -/
def hostOwn (s : State) (f off : Nat) (wr : Bool) : Bool :=
  if 0x100 ≤ off && off < 0x500 then
    decide ((off - 0x100) / 0x40 = f)
      && (off % 0x40 = 0 || decide (0x28 ≤ off % 0x40) || (!wr && decide (off % 0x40 < 0x24)))
  else 0x1000 ≤ off && off < 0x1800 && decide (chanOwner s ((off - 0x1000) / 0x40) = f)

/-- R325: a VF may reach an offset; `wr` tells a write. -/
def vfMay (s : State) (f off : Nat) (wr : Bool) : Bool :=
  let o := (blockAt off).2
  match (blockAt off).1 with
  | .host => hostOwn s f o wr
  | .pen p => decide (penOwner s p = f)
  | .places p => decide (penOwner s p = f)
  | .chute c => decide ((s.chute c).func.toNat = f) && (!wr || o = 0x00 || o = 0x24 || o = 0x28 || o = 0x2C)
  | .die d => 0x40000 ≤ o && o < 0x50000 && decide ((s.chute (1024 * d + (o - 0x40000) / 0x40)).func.toNat = f)
  | .pmu u => pmuOwn s f u
  | _ => false

/-- R325: a VF may write at an offset, and it may read there. -/
def vfMayWrite (s : State) (f off : Nat) : Bool := vfMay s f off true
def vfMayRead (s : State) (f off : Nat) : Bool := vfMay s f off false

/-- R334: the ranges that serve before READY. -/
def coreRange (off : Nat) : Bool :=
  off < 0x10000 || (0x400000 ≤ off && off < 0x600000)

/-- R325, R334: one register of BAR0 reached by function `f`, which the table lets it reach if `own`. -/
def barGate (s : State) (f : Func) (own : Bool) (off : Nat) (k : State → State) : State :=
  if coreRange off then coreAccess s f.toNat own off k else barAccess s f.toNat own off k

/-- R324, R325, R334: a write of a function to BAR0. -/
def barWrite (s : State) (f : Func) (off : Nat) (v : Reg32) : State :=
  barGate s f (vfMayWrite s f.toNat off) off fun st => (writeReg st f false off v).answer .ok

/-- R324, R325, R334: a read of a function of BAR0. -/
def barRead (s : State) (f : Func) (off : Nat) : State :=
  barGate s f (vfMayRead s f.toNat off) off fun st => answerRead (readReg st off)

/-- R324: the register at `off` written with half `i` of the data, or read. -/
def barWord (s : State) (f : Func) (off : Nat) (data : Option (BitVec 64)) (i : Nat) : State :=
  match data with
  | some v => barWrite s f (off + 4 * i) (v.extractLsb' (32 * i) 32)
  | none => barRead s f (off + 4 * i)

/-- R324: what the host gets for the two halves of an 8-byte access: both values, or UR when either half has it, or
nothing when either is discarded [76]. -/
def bothHalves (lo hi : Resp) : Resp :=
  match lo, hi with
  | .val a, .val b => .val (a + b <<< 32)
  | .none, _ => .none
  | _, .none => .none
  | .ok, .ok => .ok
  | _, _ => .ur

/-- R324: an access of `size` bytes: the one register, or the LO register and then the HI register; any other size or
alignment is UR. -/
def barSized (s : State) (f : Func) (off size : Nat) (data : Option (BitVec 64)) : State :=
  if size = 4 && off % 4 = 0 then barWord s f off data 0
  else if size = 8 && off % 8 = 0 then
    let lo := barWord s f off data 0
    let hi := barWord lo f off data 1
    hi.answer (bothHalves lo.resp hi.resp)
  else if ideDiscards s f.toNat then s.answer .none
  else s.answer .ur

/-- REGISTER_WRITE (R7, R8, R324 to R327): an access of a function to BAR0, a write of `data` or a plain read [76]. -/
def execRegisterWrite (f : Func) (off : BitVec 30) (size : Nat) (data : Option (BitVec 64)) (s : State) :
    Host.Outcome State Fault Refusal :=
  .next <| barSized s f off.toNat size data

end Sys2Proof.Machine
end

