-- ==== Sys2Proof/Machine/Engine.lean ====
section
/-! DEFINITION. Sinks (R97, R102, R108) and the prepass engine (R103 to R107, R310). -/

namespace Sys2Proof.Machine

open Sys2Proof

/-! ### Sinks -/

/-- R97: blocks of an MX group that its data lines hold: 64, or what the packet's last line leaves. -/
def sinkBlocks (c grpLines : Nat) (l : TLine) : Nat :=
  if tagLast l.tag then (64 * (grpLines - 1) + tagValid l.tag) / fmtBlock c else 64

/-- R97: bytes written through a segment within the segment's bounds; none when refused (R62). -/
def sinkWrite (s : State) (h : Harness) (seg : Nat) (off : Nat) (bs : List Byte) (pass : Nat) (poison : Bool) :
    Option State :=
  match resolveAt s h seg off bs.length pass true with
  | some (.mem a) => some (writeMem s a bs poison)
  | _ => none

/-- R97, R102: a data line counted; after the pass's last line the notice is due, or with no DONE_BIND the pass
advances. -/
def sinkCount (k : Sink) (r : Route) : Sink :=
  let n := k.lines + 1
  if n < r.linesPerPass.toNat then { k with lines := n }
  else if r.doneBind = 0xFFFF then { k with lines := 0, scaleBytes := 0, pass := k.pass + 1 }
  else { k with lines := n, notice := true }

/-- R97: a line at a sink: a scale line is held; a data line is written, and the scale bytes of a group that ends. -/
def sinkTake (s : State) (t p : Nat) (r : Route) (mx : Bool) (c : Nat) (l : TLine) : Option State :=
  let k := s.sink (4 * t + p)
  let h := harnessOf s t
  if mx && k.scale.isNone then some (s.setSink (4 * t + p) { k with scale := some l, grpLines := 0 })
  else
    match sinkWrite s h r.dst.toNat (r.dataOff.toNat + 64 * k.lines) (lineBytes l.data) k.pass l.poison with
    | none => none
    | some s1 =>
      match k.scale with
      | none => some (s1.setSink (4 * t + p) (sinkCount k r))
      | some sc =>
        let g := k.grpLines + 1
        if tagLast l.tag || 64 * fmtBlock c ≤ 64 * g then
          let n := sinkBlocks c g l
          match sinkWrite s1 h r.dst.toNat (r.scaleOff.toNat + k.scaleBytes) ((lineBytes sc.data).take n) k.pass sc.poison with
          | none => none
          | some s2 =>
            some (s2.setSink (4 * t + p) (sinkCount { k with
              scale := none, grpLines := 0, scaleBytes := k.scaleBytes + n } r))
        else some (s1.setSink (4 * t + p) (sinkCount { k with grpLines := g } r))

/-- R108: the oldest line that a stall sent to a sink is one of port `port`'s: the stall's lines reach memory in the
order in which it sent them [26]. -/
def sinkTurn (s : State) (t : StallId) (port : PortId) : Bool :=
  match s.strq.find? fun m => m.toSink && decide (m.t = t) with
  | some m => decide (m.port = port)
  | none => false

/-- R174: the hubs that the next line of a sink and its scale bytes go to serve them now. -/
def sinkServed (s : State) (t : Nat) (r : Route) (k : Sink) : Bool :=
  let free := fun off n => match resolveAt s (harnessOf s t) r.dst.toNat off n k.pass true with
    | some p => placeReady s p
    | none => true
  free (r.dataOff.toNat + 64 * k.lines) 64 && free (r.scaleOff.toNat + k.scaleBytes) 1

/-- SINK_LINE (R97, R62, R108): the oldest line of the port's SINK route reaches memory. -/
def execSinkLine (t : StallId) (port : PortId) (s : State) : Host.Outcome State Fault Refusal :=
  .next <|
    match outDst s t.toNat port.toNat with
    | .sink r =>
      let k := sinkNow s t.toNat port.toNat
      if k.notice || !wipeComplete s || !sinkTurn s t port || !sinkServed s t.toNat r k then s
      else match popFirst (fun m => m.toSink && decide (m.t = t) && decide (m.port = port)) s.strq with
        | some (m, rest) =>
          let c := recOutFmt (s.stall t.toNat).record
          let s0 := { s with strq := rest }.setSink (4 * t.toNat + port.toNat) k
          match sinkTake s0 t.toNat port.toNat r (fmtMx c) c m.line with
          | some s1 => s1
          | none => grantFault { s with strq := rest } t.toNat (r.dataOff.toNat + 64 * k.lines)
        | none => s
    | _ => s

/-- SINK_PASS_NOTICE (R97, R102): a single-line packet of 4 bytes, the passes completed, into the DONE_BIND chute. -/
def execSinkPassNotice (t : StallId) (port : PortId) (s : State) : Host.Outcome State Fault Refusal :=
  .next <|
    let key := 4 * t.toNat + port.toNat
    let k := s.sink key
    match outDst s t.toNat port.toNat, penOfDie s (t.toNat / 64) with
    | .sink r, some p =>
      match (harnessOf s t.toNat).binds[r.doneBind.toNat]? with
      | some b =>
        let c : ChuteAddr := BitVec.ofNat 22 (bindAddr s p b)
        let src := stallSource s t.toNat port.toNat
        if !k.notice || k.offered || !chuteReady s src c then s
        else
          let line := BitVec.ofNat 512 ((k.pass + 1) % 2 ^ 32)
          if isLocal s c then
            let ch := bitsAt c.toNat 0 16
            let s1 := offerWords s ch src (lineWords line 4 true true false)
            s1.setSink key (if (s1.chute ch).waits src then { k with offered := true } else k.next)
          else sendRemote (s.setSink key k.next) src c (dataVc c) line true true 4 false
      | none => s
    | _, _ => s

/-! ### The prepass engine: triggers -/

def Pen.planRun (x : Pen) (i : Nat) : PlanRun := tabGet (fun _ => {}) x.plans i
def Pen.setPlanRun (x : Pen) (i : Nat) (v : PlanRun) : Pen := { x with plans := tabSet (fun _ => {}) x.plans i v }

/-- R106, R137: one committed packet read from a chute to its LAST line and released; its first line with whether any
line was poisoned. `fuel` bounds its lines. -/
def eatPacket (s : State) (c : Nat) : Nat → State × Option (Line × Bool)
  | 0 => (s, none)
  | fuel + 1 =>
    let x := s.chute c
    if x.ready = 0 || x.st = .disabled then (s, none)
    else
      let r := chuteRead s c
      if tagLast r.line.tag then (changeChute r.st c releaseChute, some (r.line.data, r.line.poison))
      else
        let q := eatPacket r.st c fuel
        (q.1, some (r.line.data, r.line.poison || (q.2.map (·.2)).getD false))

/-- R106: a trigger packet counted toward plan `i` of a pen. -/
def countTrigger (s : State) (p i : Nat) (pl : Plan) : State :=
  let x := s.pen p
  let run := x.planRun i
  if pl.trigCount.toNat ≤ run.trig + 1 then
    { s.setPen p (x.setPlanRun i { run with trig := 0 }) with ready := s.ready ++ [(BitVec.ofNat 6 p, i)] }
  else s.setPen p (x.setPlanRun i { run with trig := run.trig + 1 })

/-- R106: the plan names the chute. -/
def planTriggers (s : State) (p : Nat) (pl : Plan) (c : Nat) : Bool :=
  match (s.pen p).cur.binds[pl.trigger.toNat]? with
  | some b => bindAddr s p b = myDev s * 65536 + c
  | none => false

/-- R106, R115, R118: the engine works for a pen that is RUNNING, and for one that a STOP found swapping, whose stalls
may need anchors to reach their fences. -/
def engineServes (s : State) (p : Nat) : Bool :=
  let x := s.pen p
  decide (x.st = .running) || (decide (x.st = .draining) && x.swapping)

/-- ENGINE_TRIGGER_PACKET (R106, R115, R118, R174). -/
def execEngineTriggerPacket (c : ChuteId) (s : State) : Host.Outcome State Fault Refusal :=
  .next <|
    match (s.chute c.toNat).consumer with
    | .engine p =>
      if !engineServes s p.toNat || chuteWaits s c.toNat then s
      else match eatPacket s c.toNat (2 ^ 20) with
        | (s1, some _) =>
          ((s.pen p.toNat).cur.plans.zipIdx).foldl (fun st e =>
            if planTriggers s p.toNat e.1 c.toNat then countTrigger st p.toNat e.2 e.1 else st) s1
        | (_, none) => s
    | _ => s

/-! ### A run (R105) -/

/-- Bytes of a code of a pair: a scale byte, or an IEEE element. -/
def codeBytes (pair : Nat) : Nat := if pair ≤ 11 then 1 else if pair = 14 then 4 else 2

/-- R105: the code of the bytes of a position. -/
def codeOf (pair v : Nat) : Nat :=
  if pair ≤ 11 then scaleCode v else expCode (if pair = 12 then 6 else if pair = 13 then 7 else 8) v

/-- Lines read once each, with their poison. -/
def readLines (s : State) : List Nat → State × List (Nat × List Byte × Bool)
  | [] => (s, [])
  | a :: as =>
    let r := readLine s a 0
    let q := readLines r.st as
    (q.1, (a / 64, lineBytes r.line, r.poison) :: q.2)

/-- `n` bytes at an address from the lines read, and whether one came poisoned. -/
def fromLines (tab : List (Nat × List Byte × Bool)) (a n : Nat) : Nat × Bool :=
  let at1 := fun b => match tab.find? fun e => e.1 = b / 64 with
    | some e => (e.2.1.getD (b % 64) 0, e.2.2)
    | none => (0, false)
  (leNat ((List.range n).map fun i => (at1 (a + i)).1), (List.range n).any fun i => (at1 (a + i)).2)

/-- R104, R105: the addresses of an operand's code at K position `k` in run `p`. -/
def opAddrs (h : Harness) (pl : Plan) (op : Operand) (table k p : Nat) : List Nat :=
  match op.kind.toNat with
  | 0 =>
    match h.segs[op.seg.toNat]? with
    | some g =>
      let base := ((g.base.toNat : Int) + (p % g.passes.toNat : Nat) * g.stride.toInt).toNat
      (List.range op.rows.toNat).map fun r => base + op.base.toNat + r * op.rowStride.toNat + k * op.kStride.toNat
    | none => []
  | 1 => [table + p % pl.passCount.toNat * pl.kCount.toNat + k]
  | _ => []

/-- R105: opmax: the greatest code over the rows; the positions of a poisoned line take no part (R106). -/
def opMax (tab : List (Nat × List Byte × Bool)) (h : Harness) (pl : Plan) (op : Operand) (table k p : Nat) : Option Nat :=
  if op.kind.toNat = 2 then some 0
  else
    let one := fun a =>
      if op.kind.toNat = 1 then (let v := fromLines tab a 1; if v.2 then 0 else v.1)
      else (let v := fromLines tab a (codeBytes pl.pair.toNat); if v.2 then 0 else codeOf pl.pair.toNat v.1)
    let m := ((opAddrs h pl op table k p).map one).foldl max 0
    if m = 0 then none else some m

/-- R104, R105: the lines that an operand's codes of a run lie in: a static code is one byte. -/
def opLineAddrs (h : Harness) (pl : Plan) (op : Operand) (table k p : Nat) : List Nat :=
  let w := if op.kind.toNat = 1 then 1 else codeBytes pl.pair.toNat
  (opAddrs h pl op table k p).flatMap fun a => [a / 64 * 64, (a + w - 1) / 64 * 64]

/-- R105: the lines a run reads. -/
def planLines (h : Harness) (pl : Plan) (p : Nat) : List Nat :=
  ((List.range pl.kCount.toNat).flatMap fun k =>
    opLineAddrs h pl pl.a pl.tableA k p ++ opLineAddrs h pl pl.b pl.tableB k p).dedup

/-- R105: e_max of the clean positions of a run. -/
def planMax (tab : List (Nat × List Byte × Bool)) (h : Harness) (pl : Plan) (p : Nat) : Option Int :=
  (List.range pl.kCount.toNat).foldl (fun e k =>
    match opMax tab h pl pl.a pl.tableA k p, opMax tab h pl pl.b pl.tableB k p with
    | some ma, some mb => maxOpt e (some (boundExp pl.pair.toNat ma mb))
    | _, _ => e) none

/-- R70, R105, R106: the run's anchor lines are sent. -/
def finishPlan (s : State) (p i : Nat) (pl : Plan) (eMax : Option Int) (pois : Bool) : State :=
  let x := s.pen p
  let run := x.planRun i
  let msgs := pl.contrib.map fun c =>
    ({ t := x.cur.place.getD c 0, anchor := anchorOf eMax, poison := pois } : AnchorMsg)
  { s.setPen p (x.setPlanRun i { run with
      runs := run.runs + 1, waiting := false, eMax := none, pois := false,
      rx := run.rx.filter fun e => e.step.toNat ≠ run.runs % 2 ^ 32 }) with anchors := s.anchors ++ msgs }

/-- R310: the drove is complete once the own maximum has gone to every partner and a header of the step has come from
each. -/
def droveCheck (s : State) (p i : Nat) (pl : Plan) : State :=
  let run := (s.pen p).planRun i
  let mine := run.rx.filter fun e => e.step.toNat = run.runs % 2 ^ 32
  if run.waiting && run.due = [] && (partners s).all fun d => mine.any fun e => e.source.toNat = d then
    finishPlan s p i pl (mine.foldl (fun e m => maxOpt e m.eMax) run.eMax) (run.pois || mine.any (·.pois))
  else s

/-- R307, R310: the header line of phase MAX. -/
def maxHeader (dev : Nat) (pl : Plan) (step : Nat) (e : Option Int) : Line :=
  BitVec.ofNat 512 (pl.node.toNat + 2 ^ 16 * dev + 2 ^ 24 * 4 + 2 ^ 32 * (step % 2 ^ 32)
    + 2 ^ 128 * (BitVec.ofInt 16 (e.getD 0)).toNat + 2 ^ 144 * bit e.isNone)

/-- R153: the source of the prepass engine's packets. DESIGN CHOICE [70]: the table names no kind and no number for the
engine: the reserved kind 3 and number 0, of this device. -/
def tackSource (s : State) : Source := { kind := 3, dev := BitVec.ofNat 6 (myDev s) }

/-- R140, R148, R310, R312: the own maximum sent, on VC1, to the drove chute of every partner that it has yet to go to
and that has not sent XOFF. -/
def sendMaxima (s : State) (p i : Nat) (pl : Plan) : State :=
  let run := (s.pen p).planRun i
  let addr := fun (d : BitVec 6) => BitVec.ofNat 22 (d.toNat * 65536 + pl.drove.toNat % 65536)
  let go := run.due.filter fun d => droveStarts s (tackSource s) (addr d)
  let s1 := s.updPen p fun x => x.setPlanRun i { run with due := run.due.filter fun d => !(decide (d ∈ go)) }
  go.foldl (fun st d =>
    sendRemote st (tackSource s) (addr d) 1 (maxHeader (myDev s) pl run.runs run.eMax) true true 64 false) s1

/-- R310: the drove of maxima in progress goes on. -/
def droveGoesOn (s : State) (p i : Nat) (pl : Plan) : State := droveCheck (sendMaxima s p i pl) p i pl

/-- The plan of a drove of maxima that is in progress, with its pen and index: the engine serves one at a time (R106). -/
def engineDrove (s : State) : Option (Nat × Nat × Plan) :=
  s.pens.findSome? fun e => (e.2.plans.find? fun q => q.2.waiting).bind fun q =>
    (e.2.cur.plans[q.1]?).map fun pl => (e.1, q.1, pl)

/-- PLAN_RUN (R105, R106, R310): the drove in progress goes on, or the first ready plan runs. -/
def execPlanRun (s : State) : Host.Outcome State Fault Refusal :=
  .next <|
    match engineDrove s with
    | some (p, i, pl) => if engineServes s p then droveGoesOn s p i pl else s
    | none =>
      if !wipeComplete s then s
      else match popFirst (fun (e : PenId × Nat) => engineServes s e.1.toNat) s.ready with
        | none => s
        | some ((pid, i), rest) =>
          let p := pid.toNat
          let x := s.pen p
          let s0 := { s with ready := rest }
          match x.cur.plans[i]? with
          | none => s0
          | some pl =>
            let run := x.planRun i
            if (planLines x.cur pl run.runs).any fun a => reqWaits s a 64 then s else
            let r := readLines s0 (planLines x.cur pl run.runs)
            let e := planMax r.2 x.cur pl run.runs
            let pois := r.2.any (·.2.2)
            if pl.scope = 0 then finishPlan r.1 p i pl e pois
            else droveGoesOn (r.1.updPen p fun y => y.setPlanRun i { run with
              waiting := true, eMax := e, pois := pois, due := (partners s).map (BitVec.ofNat 6) }) p i pl

/-- R103, R310: the plans of scope DEVICES that have a chute as their drove chute, with pen and index. -/
def drovePlans (s : State) (c : Nat) : List (Nat × Nat × Plan) :=
  ((List.range 64).flatMap fun p => ((s.pen p).cur.plans.zipIdx).map fun e => (p, e.2, e.1)).filter fun q =>
    q.2.2.scope = 1 && decide (q.2.2.drove.toNat % 65536 = c) && engineServes s q.1

/-- R307, R310: a header of phase MAX kept for its step, one of each partner. -/
def takeMax (x : Pen) (i : Nat) (h : MaxHeader) : Pen :=
  let run := x.planRun i
  if run.rx.any fun e => e.step = h.step && e.source = h.source then x
  else x.setPlanRun i { run with rx := run.rx ++ [h] }

/-- DROVE_MAX (R174, R307, R310): a header line of a partner is consumed and combined; DROVE says which plan it is
for [55]. -/
def execDroveMax (c : ChuteId) (s : State) : Host.Outcome State Fault Refusal :=
  .next <|
    if drovePlans s c.toNat = [] || chuteWaits s c.toNat then s
    else match eatPacket s c.toNat (2 ^ 20) with
      | (_, none) => s
      | (s1, some (l, pois)) =>
        let src := bitsAt l.toNat 16 6
        if headerPhase l ≠ 4 || !(decide (src ∈ partners s)) then s1
        else match (drovePlans s c.toNat).find? fun q => q.2.2.node.toNat = bitsAt l.toNat 0 16 with
          | none => s1
          | some (p, i, pl) =>
            let e : Option Int := if bitAt l.toNat 144 then none else some (l.extractLsb' 128 16).toInt
            droveGoesOn (s1.updPen p fun x => takeMax x i
              { step := l.extractLsb' 32 32, source := BitVec.ofNat 6 src, eMax := e, pois := pois }) p i pl

end Sys2Proof.Machine
end

