-- ==== Sys2Proof/Machine/Remote.lean ====
section
/-! DEFINITION. Remote chute traffic: the control and data payloads that wait in a link's receive buffers (R140, R147 to
R150, R306). -/

namespace Sys2Proof.Machine

open Sys2Proof

/-- The item at the head of a VC's receive buffer; it stays there while the OE is held (R194). -/
def rxHead (s : State) (l v : Nat) : Option RxItem := if oeWaits s (l / 8) then none else ((s.ll l).rxQ v).head?

/-- R265, R269: the head leaves its buffer; a freed pool entry is returned at the latest with 64. -/
def popRx (s : State) (l v : Nat) : State :=
  let x := s.ll l
  match x.rxQ v with
  | it :: rest =>
    let freed := x.poolFreed + bit it.pool
    refreshXoff (s.setLl l { x.setRxQ v rest with
      poolFreed := freed, flowDue := x.flowDue || (it.pool && decide (64 ≤ freed)) }) l v
  | [] => s

def rxPktAt (s : State) (l v : Nat) : Option RxPkt := tabGet (fun _ => none) (s.ll l).rxPkt v
def setRxPkt (s : State) (l v : Nat) (p : Option RxPkt) : State :=
  s.updLl l fun x => { x with rxPkt := tabSet (fun _ => none) x.rxPkt v p }

/-- A control payload of an operation at the head of a buffer. -/
def headCtrl (s : State) (l v op : Nat) : Option (BitVec 512) :=
  match rxHead s l v with
  | some it => if it.typ = 2 && ctrlOp it.payload = op then some it.payload else none
  | none => none

/-- R306: a foreign packet may be forwarded: SRC_DEV is the partner of the link it came on, and this device's own group
to the addressed device is not empty. -/
def mayForward (s : State) (l : Nat) (src : Source) (chute : ChuteAddr) : Bool :=
  src.dev = (s.link l).partner.dev && groupOf s (bitsAt chute.toNat 16 6) ≠ []

/-- R276, R306: the packet arriving on a VC is forwarded to a link that cannot carry it now. -/
def forwardWaits (s : State) (l v : Nat) : Bool :=
  match (rxPktAt s l v).bind (·.fwd) with
  | some o => !linkGoesOn s o.toNat
  | none => false

/-- R149: the outcome at the chute, other than OK, reported to the producer. -/
def reportOutcome (s : State) (c : Nat) (src : Source) : State := statusOut s c src (s.chute c).pstat

/-- R129, R140: a remote OPEN as a FIRST word without data: another packet of the source is rewound. -/
def openRemotePacket (s : State) (c : Nat) (src : Source) : State :=
  let x := s.chute c
  let y := if x.opened then rewindOpen x .aborted false else x
  let z := { y with discards := y.discards.filter (· ≠ src), opened := true, src := src, words := 0, openPois := false,
                    wslot := 0, lineBuf := 0, order := y.order.filter (· ≠ src), cut := y.cut.filter (·.1 ≠ src) }
  if x.opened then
    marks x (noteRemote ((statusOut (chuteEvent s c evChuteRewinds) c src .aborted).setChute c z) c src) c
  else noteRemote (s.setChute c z) c src

/-- REMOTE_OPEN (R147, R149, R151, R194, R306): applied here, refused, forwarded, or left to wait for another packet or
for a link. -/
def execRemoteOpen (l : LinkId) (vc : BitVec 3) (s : State) : Host.Outcome State Fault Refusal :=
  .next <|
    let n := l.toNat
    let v := vc.toNat
    match headCtrl s n v 1 with
    | none => s
    | some p =>
      let chute := ctrlChute p
      let src := ctrlSource p
      let c := bitsAt chute.toNat 0 16
      if isLocal s chute then
        let x := s.chute c
        if x.st ≠ .enabled || !x.remoteOk || !chuteHeld s (c / 1024) then
          popRx (setRxPkt (sendStatus (refuseChute (leaveOrder s c src) c) src c 6) n v (some { chute := chute, src := src, refused := true })) n v
        else if firstWaits s x src then queueFirst s c src
        else
          let s1 := (openRemotePacket s c src).updChute c fun y => { y with rxLink := l }
          popRx (setRxPkt s1 n v (some { chute := chute, src := src })) n v
      else if mayForward s n src chute then
        match pairLink s src chute with
        | some o =>
          if !linkTakes s o then s
          else
            let s1 := pmuCount (forwardOpen s o v p src chute) (wOe (n / 8)) evLlForward (n % 8) 1
            popRx (setRxPkt s1 n v (some { chute := chute, src := src, fwd := some (BitVec.ofNat 6 o) })) n v
        | none => s
      else
        let s1 := sendCtrl0 s src.dev.toNat src
          (ctrlPayload chute.toNat 6 (myDev s) src.id.toNat src.kind.toNat 6) chute.toNat
        popRx (setRxPkt s1 n v (some { chute := chute, src := src, refused := true })) n v

/-- R147: the words of a data flit. -/
def remoteWords (payload : BitVec 512) : List ChuteWord := lineWords payload 64 false false false

/-- R147, R149: the four words of a data flit at the chute, and the outcome they bring: a packet ended, a word
refused, or one of no packet. -/
def applyRemoteLine (s : State) (c : Nat) (src : Source) (payload : BitVec 512) : Option State :=
  let before := s.chute c
  let r := pushLine s c src (remoteWords payload)
  if r.2 = .full then none
  else
    let own := before.opened && decide (before.src = src)
    let ended := own && !(r.1.chute c).opened
    let stray := !own && !(decide (src ∈ before.discards))
    some (if ended || stray || decide (r.2 = .refused) then reportOutcome r.1 c src else r.1)

/-- REMOTE_DATA (R130, R147, R306): a line that finds no space waits in its buffer. -/
def execRemoteData (l : LinkId) (vc : BitVec 3) (s : State) : Host.Outcome State Fault Refusal :=
  .next <|
    let n := l.toNat
    let v := vc.toNat
    match rxHead s n v with
    | none => s
    | some it =>
      if it.typ ≠ 1 then s
      else match rxPktAt s n v with
        | none => popRx s n v
        | some k =>
          if k.refused then popRx s n v
          else match k.fwd with
            | some o =>
              if linkGoesOn s o.toNat then popRx (forwardLine s o.toNat v it.payload k.src k.chute) n v else s
            | none =>
              match applyRemoteLine s (bitsAt k.chute.toNat 0 16) k.src it.payload with
              | some s1 => popRx s1 n v
              | none => s

/-- R127, R131: the last line of a remote packet stored again with its bytes past the `v` valid ones 0; a full line,
or a packet with no line, has none. -/
def padLast (s : State) (c v : Nat) : State :=
  let x := s.chute c
  if x.openLines = 0 || 64 ≤ v then s
  else storeChuteLine s c ((x.wp.toNat + 2 * x.size - 1) % x.size) (BitVec.ofNat 512 (x.lineBuf.toNat % 2 ^ (8 * v)))

/-- R131, R132, R142, R147, R151, R154: CLOSE as the LAST word at the chute. -/
def closeRemote (s : State) (c : Nat) (src : Source) (arg : Nat) : State :=
  let x := s.chute c
  if x.cut = some (src, s.time) then s
  else if wordRefused s c src false then reportOutcome (refuseChute s c) c src
  else if src ∈ x.discards then
    let s1 := s.setChute c { x with
      discards := x.discards.filter (· ≠ src), flushes := x.flushes.filter (· ≠ src),
      pstat := if src ∈ x.flushes then .flushed else x.pstat }
    if src ∈ x.flushes then reportOutcome s1 c src else s1
  else if x.opened && decide (x.src = src) then
    let s1 := s.setChute c { x with openPois := x.openPois || bitAt arg 7 }
    let v := arg % 64 + 1
    reportOutcome (marks x (commitOpen (if (s1.chute c).openPois then s1 else padLast s1 c v) c v) c) c src
  else reportOutcome (s.setChute c { x with pstat := .orphan }) c src

/-- REMOTE_CLOSE (R147, R306). -/
def execRemoteClose (l : LinkId) (vc : BitVec 3) (s : State) : Host.Outcome State Fault Refusal :=
  .next <|
    let n := l.toNat
    let v := vc.toNat
    match headCtrl s n v 2 with
    | none => s
    | some p =>
      if forwardWaits s n v then s else
      let s1 := match rxPktAt s n v with
        | none => s
        | some k =>
          if k.refused then s
          else match k.fwd with
            | some o => forwardEnd s o.toNat v p k.src k.chute
            | none => closeRemote s (bitsAt k.chute.toNat 0 16) k.src (ctrlArg p)
      popRx (setRxPkt s1 n v none) n v

/-- R132, R142, R151, R152: ABORT at the chute: from the source of the open packet, which is rewound; any other is
refused and changes neither DISCARD nor FLUSH_PENDING, which only a LAST word ends. -/
def abortRemote (s : State) (c : Nat) (src : Source) : State :=
  let x := s.chute c
  if x.opened && decide (x.src = src) && decide (x.st ≠ .disabled) && x.remoteOk && chuteHeld s (c / 1024) then
    statusOut (changeChute (chuteEvent s c evChuteRewinds) c fun y => rewindOpen y .aborted false) c src .aborted
  else reportOutcome (refuseChute s c) c src

/-- REMOTE_ABORT (R148, R306). -/
def execRemoteAbort (l : LinkId) (vc : BitVec 3) (s : State) : Host.Outcome State Fault Refusal :=
  .next <|
    let n := l.toNat
    let v := vc.toNat
    match headCtrl s n v 3 with
    | none => s
    | some p =>
      if forwardWaits s n v then s else
      let s1 := match rxPktAt s n v with
        | none => s
        | some k =>
          if k.refused then s
          else match k.fwd with
            | some o => forwardEnd s o.toNat v p k.src k.chute
            | none => abortRemote s (bitsAt k.chute.toNat 0 16) k.src
      popRx (setRxPkt s1 n v none) n v

/-! ### Messages on VC0 (R140, R149, R150, R306) -/

/-- R306: the pairs of a chute whose messages this device forwards: the message comes from the link's own partner. -/
def forwardsOf (s : State) (l : Nat) (p : BitVec 512) : List Source :=
  if (ctrlSource p).dev ≠ (s.link l).partner.dev then []
  else (s.sys.forwards.filter fun e => e.2 = ctrlChute p).map (·.1)

/-- R306: other devices that are in reach. -/
def otherDevs (s : State) (srcs : List Source) : List Nat :=
  (srcs.map (·.dev.toNat)).dedup.filter fun d => d ≠ myDev s && groupOf s d ≠ []

/-- R306: the devices that an XOFF or XON goes on to. -/
def xoffDevs (s : State) (l : Nat) (p : BitVec 512) : List Nat := otherDevs s (forwardsOf s l p)

/-- R306: the device that a STATUS goes on to: that of the latest packet of the producer it names. -/
def statusDevs (s : State) (l : Nat) (p : BitVec 512) : List Nat :=
  otherDevs s ((forwardsOf s l p).filter (sameProducer (ctrlSource p))).getLast?.toList

/-- R306: a message forwarded to devices on VC0. -/
def forwardMsg (s : State) (p : BitVec 512) (ds : List Nat) : State :=
  ds.foldl (fun st d => sendCtrl0 st d (ctrlSource p) p (ctrlChute p).toNat) s

/-- R140: a remote chute's XOFF or XON here, and onward. -/
def takeXoff (s : State) (l v : Nat) (p : BitVec 512) (on : Bool) : State :=
  let s1 := forwardMsg s p (xoffDevs s l p)
  popRx { s1 with xoffRemote := tabSet (fun _ => false) s1.xoffRemote (ctrlChute p).toNat on } l v

/-- REMOTE_XOFF (R140). -/
def execRemoteXoff (l : LinkId) (vc : BitVec 3) (s : State) : Host.Outcome State Fault Refusal :=
  .next <|
    match headCtrl s l.toNat vc.toNat 4 with
    | some p => takeXoff s l.toNat vc.toNat p true
    | none => s

/-- REMOTE_XON (R140). -/
def execRemoteXon (l : LinkId) (vc : BitVec 3) (s : State) : Host.Outcome State Fault Refusal :=
  .next <|
    match headCtrl s l.toNat vc.toNat 5 with
    | some p => takeXoff s l.toNat vc.toNat p false
    | none => s

/-- R133: an outcome from its code. -/
def pstatOf : Nat → PStat
  | 0 => .ok
  | 1 => .flushed
  | 2 => .flushedNew
  | 3 => .aborted
  | 4 => .poisoned
  | 5 => .tooLong
  | 6 => .refused
  | _ => .orphan

/-- REMOTE_STATUS (R149, R306): the producer endpoint's status here, or forwarded to the producer's device. -/
def execRemoteStatus (l : LinkId) (vc : BitVec 3) (s : State) : Host.Outcome State Fault Refusal :=
  .next <|
    match headCtrl s l.toNat vc.toNat 6 with
    | some p =>
      let q := ctrlSource p
      let ds := statusDevs s l.toNat p
      if ds ≠ [] then popRx (forwardMsg s p ds) l.toNat vc.toNat
      else popRx (setEpStat s { q with dev := BitVec.ofNat 6 (myDev s) } (pstatOf (ctrlArg p % 8))) l.toNat vc.toNat
    | none => s

/-- R150: a VC's buffer without the packet that the purge cut off. -/
def dropCutOff : List RxItem → List RxItem → List RxItem
  | [], _ => []
  | it :: rest, held =>
    if it.typ = 2 && (ctrlOp it.payload = 2 || ctrlOp it.payload = 3) then held ++ [it] ++ dropCutOff rest []
    else dropCutOff rest (held ++ [it])

/-- R129, R150: the sources of the OPENs that a purge drops wait at their chutes no more. -/
def dropOpens (s : State) (before kept : List RxItem) : State :=
  (before.filter fun it => it.typ = 2 && ctrlOp it.payload = 1 && !(decide (it ∈ kept))).foldl (fun st it =>
    if isLocal st (ctrlChute it.payload) then
      leaveOrder st (bitsAt (ctrlChute it.payload).toNat 0 16) (ctrlSource it.payload)
    else st) s

/-- R150, R269, R306: the purging device's packets rewound here, aborted onward, and what it cut off dropped; pool
entries it frees are returned at the latest with 64. -/
def takePurged (s : State) (l : Nat) (dev : Nat) : State :=
  let s1 := abortForwards (rewindFrom s dev) l
  (List.range 7).foldl (fun st n =>
    let v := n + 1
    let x := st.ll l
    let cut := dropCutOff (x.rxQ v) []
    let freed := ((x.rxQ v).filter (·.pool)).length - (cut.filter (·.pool)).length
    let st1 := (dropOpens st (x.rxQ v) cut).setLl l { x.setRxQ v cut with
      poolFreed := x.poolFreed + freed,
      flowDue := x.flowDue || (decide (0 < freed) && decide (64 ≤ x.poolFreed + freed)) }
    refreshXoff (if cut = [] then setRxPkt st1 l v none else st1) l v) s1

/-- REMOTE_PURGED (R150). -/
def execRemotePurged (l : LinkId) (vc : BitVec 3) (s : State) : Host.Outcome State Fault Refusal :=
  .next <|
    match headCtrl s l.toNat vc.toNat 7 with
    | some p => popRx (takePurged s l.toNat (ctrlSource p).dev.toNat) l.toNat vc.toNat
    | none => s

end Sys2Proof.Machine
end

