-- ==== Sys2Proof/Machine/System.lean ====
section
/-! DEFINITION. Worker control: CSR requests and responses, notices, relays, BAR2, the intake chute, and the TAG that
releases an encrypted group (R285, R294 to R299). -/

namespace Sys2Proof.Machine

open Sys2Proof

/-! ### Payload fields (R295) -/

def csrOp : Nat := 8
def rspOp : Nat := 9
def noticeOp : Nat := 0xA

def csrTag (p : BitVec 512) : Nat := payByte p 1
def csrDest (p : BitVec 512) : Nat := payByte p 2 % 64
def csrOrigin (p : BitVec 512) : Nat := payByte p 3 % 64
def csrAddr (p : BitVec 512) : Nat := bitsAt p.toNat 32 30
def csrKind (p : BitVec 512) : Nat := payByte p 8
def csrData (p : BitVec 512) : Nat := bitsAt p.toNat 96 32

/-! ### Accesses of the manager (R296) -/

/-- R296, R334: the PF's BAR0 answers an access that comes over a link: no host link is needed. -/
def csrServed (s : State) (off : Nat) : Bool :=
  decide ((s.fn 0).st ≠ .disabling) && off % 4 = 0 && (coreRange off || s.tack.readyNow)

/-- R296: a CSR_REQ performed: the state after, and the value read; none where BAR0 would answer UR. -/
def csrPerform (s : State) (p : BitVec 512) : State × Option Nat :=
  if !csrServed s (csrAddr p) then (s, none)
  else if csrKind p = 0 then
    let r := readReg s (csrAddr p)
    (r.1, some r.2)
  else if csrKind p = 1 then (writeReg s 0 true (csrAddr p) (BitVec.ofNat 32 (csrData p)), some 0)
  else (s, none)

/-- R296: the CSR_RSP of a request. -/
def csrAnswer (s : State) (p : BitVec 512) (r : Option Nat) : State :=
  sendMgmt s (csrOrigin p)
    (mgmtPayload rspOp (csrTag p) (csrOrigin p) (myDev s) (csrAddr p) (if r.isSome then 0 else 1) 0 0 (r.getD 0))

/-- R296: a CSR_REQ for this device: performed for its recorded manager, else REFUSED. -/
def takeCsrReq (s : State) (p : BitVec 512) : State :=
  if s.sys.mgrKnown && decide (s.sys.mgrDev.toNat = csrOrigin p) then
    let r := csrPerform s p
    csrAnswer r.1 p r.2
  else csrAnswer s p none

/-! ### BAR2 reads (R294, R296) -/

/-- R296: one completion with 0xFFFF_FFFF, or one discarded write, counted. -/
def countDropped (s : State) : State := { s with sys := { s.sys with dropped := satAdd 16 s.sys.dropped 1 } }

/-- R295: a CSR_REQ sent. -/
def sendCsr (s : State) (tag : BitVec 8) (dev : BitVec 6) (addr : BitVec 30) (kind data : Nat) : State :=
  sendMgmt s dev.toNat (mgmtPayload csrOp tag.toNat dev.toNat (myDev s) addr.toNat kind 0 0 data)

/-- R296: a read starts: sent while fewer than 32 are outstanding, else stalled. -/
def startRead (s : State) (r : CsrRead) : State :=
  if s.sys.reads.length < 32 then
    let q := { r with tag := freeTag s }
    let s1 := useTag s
    sendCsr { s1 with sys := { s1.sys with reads := s1.sys.reads ++ [q] } } q.tag q.dev q.addr 0 0
  else { s with sys := { s.sys with stalled := s.sys.stalled ++ [r] } }

/-- R294: a half of a read has its value: an 8-byte read goes on with HI, else the host has its answer. -/
def readHalf (s : State) (r : CsrRead) (v : Nat) : State × Option CsrRead :=
  match r.wide, r.lo with
  | true, none => (s, some { r with addr := r.addr + 4, lo := some (BitVec.ofNat 32 v) })
  | true, some lo => (s.answerVal (lo.toNat + 2 ^ 32 * (v % 2 ^ 32)), none)
  | false, _ => (s.answerVal (v % 2 ^ 32), none)

/-- R296: a read begins, or completes at once when its device is out of reach. An 8-byte read has two halves. -/
def beginRead (s : State) (r : CsrRead) : State :=
  if reachOf s r.dev.toNat ≠ 0 then startRead s r
  else
    let a := readHalf (countDropped s) r (2 ^ 32 - 1)
    match a.2 with
    | some q =>
      if reachOf a.1 q.dev.toNat ≠ 0 then startRead a.1 q else (readHalf (countDropped a.1) q (2 ^ 32 - 1)).1
    | none => a.1

/-- R296: reads that stall go out while fewer than 32 are outstanding. `fuel` bounds their number. -/
def startStalled : Nat → State → State
  | 0, s => s
  | fuel + 1, s =>
    match s.sys.stalled with
    | q :: rest =>
      if s.sys.reads.length < 32 then
        startStalled fuel (beginRead { s with sys := { s.sys with stalled := rest } } q)
      else s
    | [] => s

/-- R296: an outstanding read ends with a value, and those that stall go out. -/
def endRead (s : State) (r : CsrRead) (v : Nat) : State :=
  let s1 := { s with sys := { s.sys with reads := s.sys.reads.filter (·.tag ≠ r.tag) } }
  let a := readHalf s1 r v
  let s2 := match a.2 with
    | some q => beginRead a.1 q
    | none => a.1
  startStalled s2.sys.stalled.length s2

/-- R304: the manager learns from a SYS_PEER register of another device how many links it has, and an empty group. -/
def notePeer (s : State) (dev : BitVec 6) (off v : Nat) : State :=
  let d := BitVec.ofNat 6 ((off - 0x10100) / 4)
  let n := bitsAt v 0 7
  if off < 0x10100 || 0x10200 ≤ off || d = dev then s
  else
    let s1 := noteLinks s dev d (some n)
    if n = 0 then computeRoutes (addEmpty s1 dev d) else s1

/-- R296: a CSR_RSP for this device: it completes the read it answers; that of a write, or of a read that has ended,
changes nothing. A REFUSED read answers UR. -/
def takeCsrRsp (s : State) (p : BitVec 512) : State :=
  match s.sys.reads.find? fun r => r.tag.toNat = csrTag p && r.dev.toNat = csrOrigin p && r.addr.toNat = csrAddr p with
  | some r =>
    if csrKind p = 0 then endRead (notePeer s r.dev r.addr.toNat (csrData p)) r (csrData p)
    else (endRead s { r with wide := false } 0).answer .ur
  | none => s

/-- R298: a SYS_NOTICE for this device: the manager takes it. -/
def takeSysNotice (s : State) (p : BitVec 512) : State :=
  if s.sys.manager then takeNotice s (csrOrigin p) (csrKind p) (payByte p 9) (payByte p 10 % 64) else s

/-! ### Relays (R297) -/

def relayQ (s : State) (e : Nat) : List (DevNum × TxItem) := tabGet (fun _ => []) s.sys.relay e

/-- R297: a payload for another device that its own sender brought here, and not one relayed already. -/
def relayFirst (s : State) (l : Nat) (p : BitVec 512) : Bool :=
  csrDest p ≠ myDev s && decide (csrOrigin p = (s.link l).partner.dev.toNat)

/-- R297: the payloads to be relayed that a link has received and not yet passed on: of its open group (R285). -/
def heldRelays (s : State) (l : Nat) : Nat :=
  ((s.ll l).openRx.filter fun h => h.item.typ = 3 && decide (mgmtOp h.item.payload ∈ [csrOp, rspOp, noticeOp]) &&
    relayFirst s l h.item.payload).length

/-- R194, R297: there is room: the relay queue of the receiving link's OE holds 32 flits, those on their way to it
included. -/
def relayRoom (l : Nat) (s : State) (p : BitVec 512) : Bool :=
  let e := l / 8
  let waiting := (s.sys.ctlHeld.filter fun c => c.1 / 8 = e && relayFirst s c.1 c.2).length
  let open_ := ((List.range 8).map fun q => heldRelays s (8 * e + q)).sum
  !relayFirst s l p || decide ((relayQ s e).length + waiting + open_ < 32)

/-- R296, R298: a payload of worker control for this device, by its operation. -/
def takeOwnControl (s : State) (p : BitVec 512) : State :=
  match mgmtOp p with
  | 8 => takeCsrReq s p
  | 9 => takeCsrRsp s p
  | 0xA => takeSysNotice s p
  | _ => s

/-- R297: a payload of worker control: for this device, to be relayed, or a relayed one that has come to the wrong
device. -/
def routeControl (l : Nat) (s : State) (p : BitVec 512) : State :=
  if csrDest p = myDev s then takeOwnControl s p
  else if relayFirst s l p then
    let it : DevNum × TxItem := (BitVec.ofNat 6 (csrDest p), { typ := 3, payload := p })
    { s with sys := { s.sys with relay := tabSet (fun _ => []) s.sys.relay (l / 8) (relayQ s (l / 8) ++ [it]) } }
  else report s srcSystem cRelayLoop l

/-- R194: worker control from a link of a held OE waits at the OE, in order. -/
def takeControl (l : Nat) (s : State) (p : BitVec 512) : State :=
  if oeWaits s (l / 8) || s.sys.ctlHeld.any (fun c => c.1 = l) then
    { s with sys := { s.sys with ctlHeld := s.sys.ctlHeld ++ [(l, p)] } }
  else routeControl l s p

/-- R194: the first of the worker control that waits at an OE that is held no more. -/
def releaseControl (s : State) : State :=
  match s.sys.ctlHeld.findIdx? fun c => !oeWaits s (c.1 / 8) with
  | some n =>
    match s.sys.ctlHeld[n]? with
    | some c => routeControl c.1 { s with sys := { s.sys with ctlHeld := dropAt s.sys.ctlHeld n } } c.2
    | none => s
  | none => s

/-- CSR_REQ (R296, R297). -/
def execCsrReq (l : LinkId) (fl : RxFlit) (s : State) : Host.Outcome State Fault Refusal :=
  .next <| rxMgmt s l.toNat fl csrOp false (relayRoom l.toNat) (takeControl l.toNat)

/-- CSR_RSP (R296, R297). -/
def execCsrRsp (l : LinkId) (fl : RxFlit) (s : State) : Host.Outcome State Fault Refusal :=
  .next <| rxMgmt s l.toNat fl rspOp false (relayRoom l.toNat) (takeControl l.toNat)

/-- SYS_NOTICE (R297, R298). -/
def execSysNotice (l : LinkId) (fl : RxFlit) (s : State) : Host.Outcome State Fault Refusal :=
  .next <| rxMgmt s l.toNat fl noticeOp false (relayRoom l.toNat) (takeControl l.toNat)

/-! ### BAR2 (R294, R296) -/

/-- R294: the device a BAR2 offset lies in, and the BAR0 offset there. -/
def bar2Dev (off : BitVec 36) : BitVec 6 := off.extractLsb' 30 6
def bar2Off (off : BitVec 36) : BitVec 30 := off.setWidth 30

/-- R324: a naturally aligned access of 4 or 8 bytes. -/
def aligned (off : BitVec 36) (wide : Bool) : Bool := off.toNat % (if wide then 8 else 4) = 0

/-- R323, R334: BAR2 is the manager's. -/
def bar2 (s : State) (off : BitVec 36) (wide : Bool) (k : State → State) : State :=
  if !s.sys.manager || !aligned off wide then s.answer .ur else pfCore s k

/-- R294: a read of the own window: BAR0. -/
def ownRead (s : State) (off : Nat) (wide : Bool) : State :=
  if !(coreRange off || s.tack.readyNow) then s.answer .ur
  else
    let lo := readReg s off
    if !wide then answerRead lo
    else
      let hi := readReg lo.1 (off + 4)
      hi.1.answerVal (lo.2 + 2 ^ 32 * hi.2)

/-- R294: a write of the own window. -/
def ownWrite (s : State) (off : Nat) (v : BitVec 64) (wide : Bool) : State :=
  if !(coreRange off || s.tack.readyNow) then s.answer .ur
  else
    let s1 := writeReg s 0 true off (v.setWidth 32)
    (if wide then writeReg s1 0 true (off + 4) (v.extractLsb' 32 32) else s1).answer .ok

/-- BAR2_READ (R294, R296). -/
def execBar2Read (off : BitVec 36) (wide : Bool) (s : State) : Host.Outcome State Fault Refusal :=
  .next <|
    bar2 s off wide fun st =>
      if (bar2Dev off).toNat = myDev st then ownRead st (bar2Off off).toNat wide
      else beginRead (st.answer .none) { tag := 0, dev := bar2Dev off, addr := bar2Off off, wide := wide, lo := none }

/-- R296: one 4-byte write to another device, or a discarded one. -/
def csrWrite (s : State) (dev : BitVec 6) (addr : BitVec 30) (v : Nat) : State :=
  if reachOf s dev.toNat = 0 then countDropped s
  else sendCsr (useTag s) (freeTag s) dev addr 1 v

/-- BAR2_WRITE (R294, R296): the manager does not wait. -/
def execBar2Write (off : BitVec 36) (v : BitVec 64) (wide : Bool) (s : State) : Host.Outcome State Fault Refusal :=
  .next <|
    bar2 s off wide fun st =>
      if (bar2Dev off).toNat = myDev st then ownWrite st (bar2Off off).toNat v wide
      else
        let s1 := csrWrite st (bar2Dev off) (bar2Off off) (loHalf v.toNat)
        (if wide then csrWrite s1 (bar2Dev off) (bar2Off off + 4) (hiHalf v.toNat) else s1).answer .ok

/-- CSR_READ_TIMEOUT (R296): no CSR_RSP within 1 ms. -/
def execCsrReadTimeout (tag : BitVec 8) (s : State) : Host.Outcome State Fault Refusal :=
  .next <|
    match s.sys.reads.find? fun r => r.tag = tag with
    | some r => endRead (countDropped s) r (2 ^ 32 - 1)
    | none => s

/-! ### The intake chute (R299) -/

/-- R299: a packet's bytes as the header has them: the device address and the lines; none where they do not match, or
reach MEM_TOP. -/
def intakeRange (s : State) (bs : List Byte) : Option Nat :=
  let a := leNat (bs.take 8)
  let n := leNat ((bs.drop 8).take 4)
  if a % 64 = 0 && 1 ≤ n && n ≤ 1023 && decide ((bs.length + 63) / 64 = n + 1) && decide (a + 64 * n ≤ memTop s) then
      some a
  else none

/-- R299, R404: a packet taken from the chute is written to its range, or recorded as malformed with the number of the
link that brought the chute's last packet [75]. -/
def intakeTake (s : State) (range : Option Nat) (bs : List Byte) (pois : Bool) : State :=
  let link := (s.chute s.sys.intakeChute.toNat).rxLink.toNat
  match range with
  | some a => if pois then report s srcSystem cIntake link else writeMem s a (bs.drop 64) false
  | none => report s srcSystem cIntake link

/-- INTAKE_PACKET (R174, R299): the tack die consumes one packet of the intake chute, once its hubs can be reached. -/
def execIntakePacket (s : State) : Host.Outcome State Fault Refusal :=
  .next <|
    let c := s.sys.intakeChute.toNat
    if !s.sys.intakeEn || !wipeComplete s || (s.chute c).st = .disabled || (s.chute c).ready = 0 ||
        chuteWaits s c then s
    else
      let r := takePacket s c 1024
      let range := intakeRange s r.2.1
      if range.any fun a => reqWaits s a (r.2.1.length - 64) then s else intakeTake r.1 range r.2.1 r.2.2

/-! ### SYS_STATUS (R8, R315) -/

/-- SYS_STATUS_WRITE (R8). -/
def execSysStatusWrite (v : Reg32) (s : State) : Host.Outcome State Fault Refusal :=
  .next <| pfAccess s fun st => (clearSysStatus st v).answer .ok

/-- SYS_STATUS_READ (R8, R296). -/
def execSysStatusRead (s : State) : Host.Outcome State Fault Refusal :=
  .next <| pfAccess s fun st => answerRead (takeSysStatus st)

/-! ### TAG (R285) -/

/-- R285: a MGMT payload of a verified group. -/
def deliverMgmt (s : State) (l : Nat) (p : BitVec 512) : State :=
  match mgmtOp p with
  | 1 => takeMargins s l p
  | 2 => queueRxCmd s l (laneCmdOf p)
  | 3 => takeLaneSet s l p
  | 4 => takeRefuse s l p
  | 8 => takeControl l s p
  | 9 => takeControl l s p
  | 0xA => takeControl l s p
  | _ => s

/-- R285: a flit of a verified group is delivered. -/
def deliverHeld (l : Nat) (s : State) (h : HeldFlit) : State :=
  if h.item.typ = 3 then deliverMgmt s l h.item.payload else storeRx s l h.vc h.item

/-- R285: the TAG of the open group as this side computes it. -/
def rxTag (x : LL) : BitVec 128 :=
  Config.gcmTag x.keyRx (nonce x.saltRx x.grpRx) (x.openRx.map fun h =>
    BitVec.ofNat 544 (h.hdr.toNat + 2 ^ 32 * h.wire.toNat))

/-- R284, R285: the group closes; a new key that waits for the next group comes into use. -/
def nextGroup (x : LL) : LL :=
  let y := { x with openRx := [], grpRx := x.grpRx + 1 }
  if y.switchRx then useNewKey y else y

/-- R285: a verified group is delivered in order. -/
def releaseGroup (s : State) (l : Nat) : State :=
  (s.ll l).openRx.foldl (deliverHeld l) (s.updLl l nextGroup)

/-- R285: a group that fails is discarded, unacknowledged, and the link goes down. -/
def authFail (s : State) (l : Nat) : State :=
  let s1 := s.updLl l fun x => { x with nextRx := ackLimit x, openRx := [] }
  declareDown (report s1 (srcLink l) cAuthFail 0) l

/-- R256: a sequenced flit that is the next one. -/
def rxNext (x : LL) (f : Flit) : Bool :=
  !(x.syncOn && !x.gotPartner) && decide (flitSeq f = x.nextRx.toNat) && !purgedWaits x

/-- TAG (R285). -/
def execTag (l : LinkId) (fl : RxFlit) (s : State) : Host.Outcome State Fault Refusal :=
  .next <|
    let n := l.toNat
    rxOfType s n fl (fun f => flitTyp f = 3) fun st f =>
      let x := st.ll n
      let p := flitPayload f
      if nextInSeq x f && mgmtOp p ≠ 6 then st
      else if x.encActive && rxNext x f && p.extractLsb' 16 128 ≠ rxTag x then authFail st n
      else rxSequenced st n f true fun q => if (q.ll n).encActive then releaseGroup q n else q

end Sys2Proof.Machine
end

