-- ==== Sys2Proof/Machine/Dispatch.lean ====
section
/-! DEFINITION. The dispatch: one arm per command, each a direct call of its meaning. -/

namespace Sys2Proof.Machine

open Sys2Proof

/-- A command's effect on everything but the queue. -/
def exec (i : Instr) (s : State) : Host.Outcome State Fault Refusal :=
  match i with
  | .macToken t chk waits => Sys2Proof.Machine.execMacToken t chk waits s
  | .vecToken t chk => Sys2Proof.Machine.execVecToken t chk s
  | .uopNop t => Sys2Proof.Machine.execUopNop t s
  | .uopAdd t => Sys2Proof.Machine.execUopAdd t s
  | .uopSub t => Sys2Proof.Machine.execUopSub t s
  | .uopMul t => Sys2Proof.Machine.execUopMul t s
  | .uopFma t => Sys2Proof.Machine.execUopFma t s
  | .uopMax t => Sys2Proof.Machine.execUopMax t s
  | .uopMin t => Sys2Proof.Machine.execUopMin t s
  | .uopAbs t => Sys2Proof.Machine.execUopAbs t s
  | .uopNeg t => Sys2Proof.Machine.execUopNeg t s
  | .uopSel t => Sys2Proof.Machine.execUopSel t s
  | .uopCmplt t => Sys2Proof.Machine.execUopCmplt t s
  | .uopExp2 t => Sys2Proof.Machine.execUopExp2 t s
  | .uopLog2 t => Sys2Proof.Machine.execUopLog2 t s
  | .uopRcp t => Sys2Proof.Machine.execUopRcp t s
  | .uopRsqrt t => Sys2Proof.Machine.execUopRsqrt t s
  | .uopTanh t => Sys2Proof.Machine.execUopTanh t s
  | .uopRsum t => Sys2Proof.Machine.execUopRsum t s
  | .uopRmax t => Sys2Proof.Machine.execUopRmax t s
  | .uopRmin t => Sys2Proof.Machine.execUopRmin t s
  | .uopLacc t => Sys2Proof.Machine.execUopLacc t s
  | .uopRget t => Sys2Proof.Machine.execUopRget t s
  | .uopLget t => Sys2Proof.Machine.execUopLget t s
  | .uopBcast t => Sys2Proof.Machine.execUopBcast t s
  | .inputLine t port => Sys2Proof.Machine.execInputLine t port s
  | .routerCredit t port => Sys2Proof.Machine.execRouterCredit t port s
  | .outputLineSend t port => Sys2Proof.Machine.execOutputLineSend t port s
  | .anchorLine t => Sys2Proof.Machine.execAnchorLine t s
  | .fenceArrival t chk => Sys2Proof.Machine.execFenceArrival t chk s
  | .swapDrainDone t => Sys2Proof.Machine.execSwapDrainDone t s
  | .swapExchange t chk damaged => Sys2Proof.Machine.execSwapExchange t chk damaged s
  | .mangerWriteback t => Sys2Proof.Machine.execMangerWriteback t s
  | .mangerScrub t chk => Sys2Proof.Machine.execMangerScrub t chk s
  | .stallNumStatusWrite t v => Sys2Proof.Machine.execStallNumStatusWrite t v s
  | .stallBankConflictRead t => Sys2Proof.Machine.execStallBankConflictRead t s
  | .stallTokenLoRead t => Sys2Proof.Machine.execStallTokenLoRead t s
  | .load f p => Sys2Proof.Machine.execLoad f p s
  | .loadStreamDone => Sys2Proof.Machine.execLoadStreamDone s
  | .shadow f p => Sys2Proof.Machine.execShadow f p s
  | .start f p => Sys2Proof.Machine.execStart f p s
  | .stop f p => Sys2Proof.Machine.execStop f p s
  | .swap f p => Sys2Proof.Machine.execSwap f p s
  | .penRelease f p => Sys2Proof.Machine.execPenRelease f p s
  | .penCmdReserved f p cmd => Sys2Proof.Machine.execPenCmdReserved f p cmd s
  | .drainComplete p => Sys2Proof.Machine.execDrainComplete p s
  | .drainLimitExpiry p => Sys2Proof.Machine.execDrainLimitExpiry p s
  | .penFault p => Sys2Proof.Machine.execPenFault p s
  | .engineTriggerPacket c => Sys2Proof.Machine.execEngineTriggerPacket c s
  | .planRun => Sys2Proof.Machine.execPlanRun s
  | .sinkLine t port => Sys2Proof.Machine.execSinkLine t port s
  | .sinkPassNotice t port => Sys2Proof.Machine.execSinkPassNotice t port s
  | .droveMax c => Sys2Proof.Machine.execDroveMax c s
  | .push c r w => Sys2Proof.Machine.execPush c r w s
  | .waitingFirstOpen c => Sys2Proof.Machine.execWaitingFirstOpen c s
  | .spaceWaitEnd c => Sys2Proof.Machine.execSpaceWaitEnd c s
  | .abort c r => Sys2Proof.Machine.execAbort c r s
  | .mark c r => Sys2Proof.Machine.execMark c r s
  | .rewind c r => Sys2Proof.Machine.execRewind c r s
  | .release c r => Sys2Proof.Machine.execRelease c r s
  | .flush c r => Sys2Proof.Machine.execFlush c r s
  | .enable c r => Sys2Proof.Machine.execEnable c r s
  | .disable c r => Sys2Proof.Machine.execDisable c r s
  | .init c r => Sys2Proof.Machine.execInit c r s
  | .chuteBadOp c r op => Sys2Proof.Machine.execChuteBadOp c r op s
  | .consumerRead c chk => Sys2Proof.Machine.execConsumerRead c chk s
  | .watermarkWrite f c high v => Sys2Proof.Machine.execWatermarkWrite f c high v s
  | .disableLimitExpiry c => Sys2Proof.Machine.execDisableLimitExpiry c s
  | .chuteDisableComplete c => Sys2Proof.Machine.execChuteDisableComplete c s
  | .remoteOpen l vc => Sys2Proof.Machine.execRemoteOpen l vc s
  | .remoteData l vc => Sys2Proof.Machine.execRemoteData l vc s
  | .remoteClose l vc => Sys2Proof.Machine.execRemoteClose l vc s
  | .remoteAbort l vc => Sys2Proof.Machine.execRemoteAbort l vc s
  | .remoteXoff l vc => Sys2Proof.Machine.execRemoteXoff l vc s
  | .remoteXon l vc => Sys2Proof.Machine.execRemoteXon l vc s
  | .remoteStatus l vc => Sys2Proof.Machine.execRemoteStatus l vc s
  | .remotePurged l vc => Sys2Proof.Machine.execRemotePurged l vc s
  | .chuteStatusWrite f c v => Sys2Proof.Machine.execChuteStatusWrite f c v s
  | .chuteDieAbortLinesRead d => Sys2Proof.Machine.execChuteDieAbortLinesRead d s
  | .memRead a errs => Sys2Proof.Machine.execMemRead a errs s
  | .memWrite a data poison => Sys2Proof.Machine.execMemWrite a data poison s
  | .readModifyWrite a data poison errs => Sys2Proof.Machine.execReadModifyWrite a data poison errs s
  | .memCeWriteback h => Sys2Proof.Machine.execMemCeWriteback h s
  | .refresh h => Sys2Proof.Machine.execRefresh h s
  | .refreshRateChange h => Sys2Proof.Machine.execRefreshRateChange h s
  | .scrubRead h errs => Sys2Proof.Machine.execScrubRead h errs s
  | .stackLost h why => Sys2Proof.Machine.execStackLost h why s
  | .mhCtrlWrite h v => Sys2Proof.Machine.execMhCtrlWrite h v s
  | .mhCeCountRead h => Sys2Proof.Machine.execMhCeCountRead h s
  | .mhUcCountRead h => Sys2Proof.Machine.execMhUcCountRead h s
  | .meshPacket at_ cls dst payload => Sys2Proof.Machine.execMeshPacket at_ cls dst payload s
  | .routerTableSwitch d cls => Sys2Proof.Machine.execRouterTableSwitch d cls s
  | .retire target => Sys2Proof.Machine.execRetire target s
  | .readmit target => Sys2Proof.Machine.execReadmit target s
  | .pnetBadOp op => Sys2Proof.Machine.execPnetBadOp op s
  | .replacementStart => Sys2Proof.Machine.execReplacementStart s
  | .replacementStepDone pass half reps cap => Sys2Proof.Machine.execReplacementStepDone pass half reps cap s
  | .adapterRetry p m => Sys2Proof.Machine.execAdapterRetry p m s
  | .moduleRetrainDone p m out => Sys2Proof.Machine.execModuleRetrainDone p m out s
  | .capabilityWord p cap => Sys2Proof.Machine.execCapabilityWord p cap s
  | .spareLaser e target => Sys2Proof.Machine.execSpareLaser e target s
  | .relock e target => Sys2Proof.Machine.execRelock e target s
  | .oeBadOp e op => Sys2Proof.Machine.execOeBadOp e op s
  | .laserWarmDone e n => Sys2Proof.Machine.execLaserWarmDone e n s
  | .laserWarmTimeout e n => Sys2Proof.Machine.execLaserWarmTimeout e n s
  | .laserLockLoop e n step locked => Sys2Proof.Machine.execLaserLockLoop e n step locked s
  | .biasLoop e n bias => Sys2Proof.Machine.execBiasLoop e n bias s
  | .suddenLoss e n => Sys2Proof.Machine.execSuddenLoss e n s
  | .laserSparingStart e => Sys2Proof.Machine.execLaserSparingStart e s
  | .laserSparingStepDone e ok => Sys2Proof.Machine.execLaserSparingStepDone e ok s
  | .ringLoopUpdate e r err => Sys2Proof.Machine.execRingLoopUpdate e r err s
  | .ringReacquireTimeout e r => Sys2Proof.Machine.execRingReacquireTimeout e r s
  | .ringRelock e r => Sys2Proof.Machine.execRingRelock e r s
  | .ringRail e r => Sys2Proof.Machine.execRingRail e r s
  | .ringSearchStep e r dip centre pilotOk => Sys2Proof.Machine.execRingSearchStep e r dip centre pilotOk s
  | .pilotEvaluation e r levels => Sys2Proof.Machine.execPilotEvaluation e r levels s
  | .mislockRecoveryStepDone e r => Sys2Proof.Machine.execMislockRecoveryStepDone e r s
  | .activityWord e p w => Sys2Proof.Machine.execActivityWord e p w s
  | .feedForwardUpdate e => Sys2Proof.Machine.execFeedForwardUpdate e s
  | .oeSilentDie e p => Sys2Proof.Machine.execOeSilentDie e p s
  | .marginMeasure e port margins => Sys2Proof.Machine.execMarginMeasure e port margins s
  | .xtRefineWindow e res => Sys2Proof.Machine.execXtRefineWindow e res s
  | .xtCommit e => Sys2Proof.Machine.execXtCommit e s
  | .oeBandChange e => Sys2Proof.Machine.execOeBandChange e s
  | .oeLaserStatWrite e n v => Sys2Proof.Machine.execOeLaserStatWrite e n v s
  | .oeRingWrite e r v => Sys2Proof.Machine.execOeRingWrite e r v s
  | .beaconTransmit l => Sys2Proof.Machine.execBeaconTransmit l s
  | .beaconDetected l => Sys2Proof.Machine.execBeaconDetected l s
  | .partnerClockDetected l => Sys2Proof.Machine.execPartnerClockDetected l s
  | .trainComplete l eyes => Sys2Proof.Machine.execTrainComplete l eyes s
  | .alignComplete l w2 => Sys2Proof.Machine.execAlignComplete l w2 s
  | .capabilityMessage l fl => Sys2Proof.Machine.execCapabilityMessage l fl s
  | .goBlock l => Sys2Proof.Machine.execGoBlock l s
  | .rateStepDone l eyes w2 => Sys2Proof.Machine.execRateStepDone l eyes w2 s
  | .stageTimeout l => Sys2Proof.Machine.execStageTimeout l s
  | .clockLightLost l => Sys2Proof.Machine.execClockLightLost l s
  | .los l w => Sys2Proof.Machine.execLos l w s
  | .losDeassert l w => Sys2Proof.Machine.execLosDeassert l w s
  | .lol l w => Sys2Proof.Machine.execLol l w s
  | .lolDeassert l w => Sys2Proof.Machine.execLolDeassert l w s
  | .laneFailed l w => Sys2Proof.Machine.execLaneFailed l w s
  | .holdLimitExpiry l => Sys2Proof.Machine.execHoldLimitExpiry l s
  | .trainingBlocksReceived l kind => Sys2Proof.Machine.execTrainingBlocksReceived l kind s
  | .retrainComplete l => Sys2Proof.Machine.execRetrainComplete l s
  | .marker l w slip w1 w2 frame told => Sys2Proof.Machine.execMarker l w slip w1 w2 frame told s
  | .slip l w => Sys2Proof.Machine.execSlip l w s
  | .retrain l => Sys2Proof.Machine.execRetrain l s
  | .acceptPartner l => Sys2Proof.Machine.execAcceptPartner l s
  | .linkCmdBadOp l op => Sys2Proof.Machine.execLinkCmdBadOp l op s
  | .linkCtrlWrite l v => Sys2Proof.Machine.execLinkCtrlWrite l v s
  | .linkStateWrite l v => Sys2Proof.Machine.execLinkStateWrite l v s
  | .linkLaneWrite l w v => Sys2Proof.Machine.execLinkLaneWrite l w v s
  | .linkLaneRead l w => Sys2Proof.Machine.execLinkLaneRead l w s
  | .txSlot l => Sys2Proof.Machine.execTxSlot l s
  | .flowFlit l fl => Sys2Proof.Machine.execFlowFlit l fl s
  | .dataFlit l fl => Sys2Proof.Machine.execDataFlit l fl s
  | .ctrlFlit l fl => Sys2Proof.Machine.execCtrlFlit l fl s
  | .dataPool l fl => Sys2Proof.Machine.execDataPool l fl s
  | .ctrlPool l fl => Sys2Proof.Machine.execCtrlPool l fl s
  | .flitReservedType l fl => Sys2Proof.Machine.execFlitReservedType l fl s
  | .sync l fl => Sys2Proof.Machine.execSync l fl s
  | .ping l fl => Sys2Proof.Machine.execPing l fl s
  | .echo l fl ps => Sys2Proof.Machine.execEcho l fl ps s
  | .ackTimer l => Sys2Proof.Machine.execAckTimer l s
  | .replayTimerExpiry l => Sys2Proof.Machine.execReplayTimerExpiry l s
  | .flowForce l => Sys2Proof.Machine.execFlowForce l s
  | .creditReturnTimer l => Sys2Proof.Machine.execCreditReturnTimer l s
  | .probeTimeout l => Sys2Proof.Machine.execProbeTimeout l s
  | .retrainTimeout l => Sys2Proof.Machine.execRetrainTimeout l s
  | .operationTimeout l n => Sys2Proof.Machine.execOperationTimeout l n s
  | .purge l => Sys2Proof.Machine.execPurge l s
  | .linkDisable l => Sys2Proof.Machine.execLinkDisable l s
  | .rekey l => Sys2Proof.Machine.execRekey l s
  | .linkLlBadOp l op => Sys2Proof.Machine.execLinkLlBadOp l op s
  | .linkDisableComplete l => Sys2Proof.Machine.execLinkDisableComplete l s
  | .linkDrainLimitExpiry l => Sys2Proof.Machine.execLinkDrainLimitExpiry l s
  | .linkLlCounterRead l which => Sys2Proof.Machine.execLinkLlCounterRead l which s
  | .margin l fl => Sys2Proof.Machine.execMargin l fl s
  | .laneReq l fl => Sys2Proof.Machine.execLaneReq l fl s
  | .laneSet l fl => Sys2Proof.Machine.execLaneSet l fl s
  | .laneRefuse l fl => Sys2Proof.Machine.execLaneRefuse l fl s
  | .deskewWaitEnd l => Sys2Proof.Machine.execDeskewWaitEnd l s
  | .laneMapEffective l tx => Sys2Proof.Machine.execLaneMapEffective l tx s
  | .key l fl => Sys2Proof.Machine.execKey l fl s
  | .tag l fl => Sys2Proof.Machine.execTag l fl s
  | .keySwitch l fl => Sys2Proof.Machine.execKeySwitch l fl s
  | .csrReq l fl => Sys2Proof.Machine.execCsrReq l fl s
  | .csrRsp l fl => Sys2Proof.Machine.execCsrRsp l fl s
  | .sysNotice l fl => Sys2Proof.Machine.execSysNotice l fl s
  | .bar2Read off wide => Sys2Proof.Machine.execBar2Read off wide s
  | .bar2Write off v wide => Sys2Proof.Machine.execBar2Write off v wide s
  | .csrReadTimeout tag => Sys2Proof.Machine.execCsrReadTimeout tag s
  | .intakePacket => Sys2Proof.Machine.execIntakePacket s
  | .sysStatusWrite v => Sys2Proof.Machine.execSysStatusWrite v s
  | .sysStatusRead => Sys2Proof.Machine.execSysStatusRead s
  | .configRequest f reg wr => Sys2Proof.Machine.execConfigRequest f reg wr s
  | .bar4Read f off len => Sys2Proof.Machine.execBar4Read f off len s
  | .bar4Write f off data => Sys2Proof.Machine.execBar4Write f off data s
  | .cxlMemRead a => Sys2Proof.Machine.execCxlMemRead a s
  | .cxlMemWrite a data poison => Sys2Proof.Machine.execCxlMemWrite a data poison s
  | .pcieLinkDown => Sys2Proof.Machine.execPcieLinkDown s
  | .hotReset => Sys2Proof.Machine.execHotReset s
  | .flr n => Sys2Proof.Machine.execFlr n s
  | .perstN level => Sys2Proof.Machine.execPerstN level s
  | .vfEnableSet => Sys2Proof.Machine.execVfEnableSet s
  | .vfEnableClear => Sys2Proof.Machine.execVfEnableClear s
  | .funcEnable f n => Sys2Proof.Machine.execFuncEnable f n s
  | .funcDisable f n => Sys2Proof.Machine.execFuncDisable f n s
  | .wipe f n => Sys2Proof.Machine.execWipe f n s
  | .wipeDone n => Sys2Proof.Machine.execWipeDone n s
  | .funcBadOp f n op => Sys2Proof.Machine.execFuncBadOp f n op s
  | .funcDrainComplete n => Sys2Proof.Machine.execFuncDrainComplete n s
  | .funcDrainLimitExpiry n => Sys2Proof.Machine.execFuncDrainLimitExpiry n s
  | .dmaTailWrite f c v => Sys2Proof.Machine.execDmaTailWrite f c v s
  | .h2d c desc data => Sys2Proof.Machine.execH2d c desc data s
  | .d2h c desc => Sys2Proof.Machine.execD2h c desc s
  | .h2c c desc data => Sys2Proof.Machine.execH2c c desc data s
  | .c2h c desc => Sys2Proof.Machine.execC2h c desc s
  | .dmaDescriptorComplete c => Sys2Proof.Machine.execDmaDescriptorComplete c s
  | .hostEvqHeadWrite f n v => Sys2Proof.Machine.execHostEvqHeadWrite f n v s
  | .hostEvqStatusWrite f n v => Sys2Proof.Machine.execHostEvqStatusWrite f n v s
  | .hostEvqStatusRead f n => Sys2Proof.Machine.execHostEvqStatusRead f n s
  | .hostDeniedRead => Sys2Proof.Machine.execHostDeniedRead s
  | .spdmRequest req => Sys2Proof.Machine.execSpdmRequest req s
  | .hostIdeFail stream addr => Sys2Proof.Machine.execHostIdeFail stream addr s
  | .coldReset pin => Sys2Proof.Machine.execColdReset pin s
  | .coldResetNRelease mgrSel => Sys2Proof.Machine.execColdResetNRelease mgrSel s
  | .tackResetWarm v => Sys2Proof.Machine.execTackResetWarm v s
  | .bootStepDone o => Sys2Proof.Machine.execBootStepDone o s
  | .flashWrite target => Sys2Proof.Machine.execFlashWrite target s
  | .flashRead target offset => Sys2Proof.Machine.execFlashRead target offset s
  | .flashBadOp op => Sys2Proof.Machine.execFlashBadOp op s
  | .flashCommandDone err => Sys2Proof.Machine.execFlashCommandDone err s
  | .lcAdvance target => Sys2Proof.Machine.execLcAdvance target s
  | .debugUnlock => Sys2Proof.Machine.execDebugUnlock s
  | .advanceSvn => Sys2Proof.Machine.execAdvanceSvn s
  | .secBadOp op => Sys2Proof.Machine.execSecBadOp op s
  | .saveHoldExit => Sys2Proof.Machine.execSaveHoldExit s
  | .tapInstruction ins trstN => Sys2Proof.Machine.execTapInstruction ins trstN s
  | .smbusRequest addr req => Sys2Proof.Machine.execSmbusRequest addr req s
  | .pvMainGood => Sys2Proof.Machine.execPvMainGood s
  | .regulatorOutOfRange q => Sys2Proof.Machine.execRegulatorOutOfRange q s
  | .powerEvaluation p10 mainMv holdMv auxMv => Sys2Proof.Machine.execPowerEvaluation p10 mainMv holdMv auxMv s
  | .pwrOverLimit => Sys2Proof.Machine.execPwrOverLimit s
  | .pwrLimitWrite v => Sys2Proof.Machine.execPwrLimitWrite v s
  | .supplySag reason => Sys2Proof.Machine.execSupplySag reason s
  | .saveComplete => Sys2Proof.Machine.execSaveComplete s
  | .pvHoldExhausted => Sys2Proof.Machine.execPvHoldExhausted s
  | .saveShadowRefresh => Sys2Proof.Machine.execSaveShadowRefresh s
  | .thermalScan readings opens => Sys2Proof.Machine.execThermalScan readings opens s
  | .faultReport src cause addr => Sys2Proof.Machine.execFaultReport src cause addr s
  | .faultAck src v => Sys2Proof.Machine.execFaultAck src v s
  | .conditionEnd src cause => Sys2Proof.Machine.execConditionEnd src cause s
  | .bucketLeak b unit => Sys2Proof.Machine.execBucketLeak b unit s
  | .faultHeartbeat v => Sys2Proof.Machine.execFaultHeartbeat v s
  | .heartbeatLost => Sys2Proof.Machine.execHeartbeatLost s
  | .injectDisarm mask => Sys2Proof.Machine.execInjectDisarm mask s
  | .injectOnce mask => Sys2Proof.Machine.execInjectOnce mask s
  | .injectContinuous mask => Sys2Proof.Machine.execInjectContinuous mask s
  | .injModeReserved mask => Sys2Proof.Machine.execInjModeReserved mask s
  | .stallTest target => Sys2Proof.Machine.execStallTest target s
  | .dieTest target => Sys2Proof.Machine.execDieTest target s
  | .memTest target => Sys2Proof.Machine.execMemTest target s
  | .faultTestBadOp op => Sys2Proof.Machine.execFaultTestBadOp op s
  | .testComplete pass => Sys2Proof.Machine.execTestComplete pass s
  | .pmuCntLoRead f u n => Sys2Proof.Machine.execPmuCntLoRead f u n s
  | .pmuCntHiWrite f u n v => Sys2Proof.Machine.execPmuCntHiWrite f u n v s
  | .pmuCntLoWrite f u n v => Sys2Proof.Machine.execPmuCntLoWrite f u n v s
  | .pmuCfgWrite f u n v => Sys2Proof.Machine.execPmuCfgWrite f u n v s
  | .pmuCtrlWrite f u v => Sys2Proof.Machine.execPmuCtrlWrite f u v s
  | .pmuOvfWrite f u v => Sys2Proof.Machine.execPmuOvfWrite f u v s
  | .counterOverflow u n occ => Sys2Proof.Machine.execCounterOverflow u n occ s
  | .pmuSampleDroppedRead f d => Sys2Proof.Machine.execPmuSampleDroppedRead f d s
  | .registerWrite f off size data => Sys2Proof.Machine.execRegisterWrite f off size data s
  | .wordLock l w blocks w1 told => Sys2Proof.Machine.execWordLock l w blocks w1 told s
  | .equaliserUpdate l w sample amp decNeg => Sys2Proof.Machine.execEqualiserUpdate l w sample amp decNeg s
  | .phaseTrackerUpdate l w later => Sys2Proof.Machine.execPhaseTrackerUpdate l w later s
  | .pcieLinkUp gts width cxlPartner => Sys2Proof.Machine.execPcieLinkUp gts width cxlPartner s

end Sys2Proof.Machine
end

