-- ==== Sys2Proof/Machine/Tick.lean ====
section
/-! DEFINITION. What a step does when no command waits: one control-clock cycle passes [1]. TIME advances (R328,
R405), the counters of cycles count (R420 to R427), and the lasers age (OE_LASER_HOURS). -/

namespace Sys2Proof.Machine

open Sys2Proof

/-- R420: counting-clock cycles of a window in one control-clock cycle. -/
def cyclesPerTick (w : Nat) : Nat := if w < 64 then 2 else 1

/-- R376: the fabric cycle is one of the L empty ones of its window of 64: the first L, a choice [1]. -/
def throttledAt (s : State) (cycle : Nat) : Bool := cycle % 64 < appliedLevel s

/-- R376, R422: a stall of a RUNNING or DRAINING pen that is in RUN loses the cycle. -/
def stallThrottled (s : State) (t cycle : Nat) : Bool :=
  decide ((s.stall t).st = .run) && throttledAt s cycle &&
    match penOfDie s (t / 64) with
    | some p => decide ((s.pen p).st = .running) || decide ((s.pen p).st = .draining)
    | none => false

/-- R422, R433: a cycle event of stall `t`: an inserted cycle is no cycle in RUN. -/
def stallCycle (s : State) (ev t cycle : Nat) : Bool :=
  let st := (s.stall t).st
  (ev = evStallRun && decide (st = .run) && !stallThrottled s t cycle) || (ev = evWaitIn && decide (st = .waitIn)) ||
    (ev = evWaitOut && decide (st = .waitOut)) || (ev = evWaitAnchor && decide (st = .waitAnchor)) ||
    (ev = evThrottled && stallThrottled s t cycle)

/-- R422: CHUTE_XOFF_CYCLES: some chute of the die has XOFF set. -/
def dieXoff (s : State) (d : Nat) : Bool := s.chutes.any fun e => decide (e.1 / 1024 = d) && e.2.xoff

/-- R422: the occurrences in one cycle that a selection of a window counts. -/
def cycleCount (s : State) (w : Nat) (c : PmuCfg) (cycle : Nat) : Nat :=
  let ev := c.event.toNat
  let mine := fun (i : Nat) => !c.selEn || decide (c.sel.toNat = i)
  if ev = evCycles then 1
  else if ev = evChuteXoff then bit (dieXoff s w)
  else if ev = evInjectHeld then bit (s.pnet.injWait.any fun k => k.src.toNat = w)
  else if ev = evLlXoff then
    ((List.range 8).filter fun p => mine p && decide ((s.ll (8 * (w - 64) + p)).xoffFrom ≠ 0)).length
  else if evStallRun ≤ ev && ev ≤ evThrottled then
    ((List.range 64).filter fun i => mine i && stallCycle s ev (64 * w + i) cycle).length
  else 0

/-- R421, R426, R427: one cycle of counter `n`, of a window that was not frozen when the cycle began. -/
def cycleCounter (s : State) (w cycle : Nat) (p : Pmu) (n : Nat) : Pmu :=
  let c := p.cfgAt n
  if c.en && pmuAccepts w c.event.toNat && p.holdAt n = 0 then
    let k := cycleCount s w c cycle
    if k = 0 then p else pmuAdd w p n k 16
  else p

/-- R421, R426: one cycle of a window; a counter frozen by a change of selection comes one cycle nearer to counting. -/
def cycleWindow (s : State) (w cycle : Nat) (p : Pmu) : Pmu :=
  let q := if p.freeze then p else (List.range (pmuCounters w)).foldl (cycleCounter s w cycle) p
  { q with hold := tabMapListed (fun _ => 0) q.hold fun _ h => h - 1 }

/-- The cycles of a window in one control-clock cycle. -/
def tickWindow (s : State) (w : Nat) (p : Pmu) : Pmu :=
  (List.range (cyclesPerTick w)).foldl (fun q i => cycleWindow s w (cyclesPerTick w * s.time.toNat + i) q) p

def tickPmus (s : State) : State := { s with pmus := tabMapListed (fun _ => {}) s.pmus (tickWindow s) }

/-- Control-clock cycles of an hour. -/
def cyclesPerHour : Nat := 3600 * cyclesPerSecond

/-- R202: a laser that is READY or ACTIVE is a cycle older. -/
def Laser.older (x : Laser) : Laser :=
  if x.st = .ready || x.st = .active then { x with part := if x.part + 1 = cyclesPerHour then 0 else x.part + 1 } else x

/-- R202: the lasers of the engines whose hour ends with this cycle, as 32 e + n. -/
def hoursDone (s : State) : List Nat :=
  s.oes.flatMap fun o => (o.2.lasers.filter fun x =>
    (x.2.st = .ready || x.2.st = .active) && x.2.part + 1 = cyclesPerHour).map fun x => 32 * o.1 + x.1

/-- R202, OE_LASER_HOURS (R225): one cycle of the lasers that are READY or ACTIVE, and the hours in the flash
calibration store. -/
def ageLasers (s : State) : State :=
  let s1 := { s with
    oes := tabMapListed (fun _ => {}) s.oes fun _ o =>
      { o with lasers := tabMapListed (fun _ => {}) o.lasers fun _ x => x.older } }
  if hoursDone s = [] then s1
  else keepCal s1 fun c => { c with
    hours := (hoursDone s).foldl (fun t n => tabUpd (fun _ => 0) t n (· + 1)) c.hours }

/-- What waits inside the device goes on: mesh packets with a reservation (R180), the worker control of an engine that
is held no more (R194), and a SEC command whose token memory gives (R174). -/
def goOn (s : State) : State := resumeSec (releaseControl (injectWaiting s))

/-- DESIGN CHOICE [1]: with no command waiting one control-clock cycle passes. While COLD_RESET_N is low nothing runs
(R342). -/
def idleTick (s : State) : State :=
  if s.pins.coldResetN then
    let s1 := tickPmus s
    goOn (ageLasers { s1 with time := s1.time + 1 })
  else s

end Sys2Proof.Machine
end

