-- ==== Sys2Proof/Machine/Pins.lean ====
section
/-! DEFINITION. The low-speed outputs (18_package_and_pins.md, R438): what the state drives on FLOW, ALERT, SAVE_DONE
and SMB_ALERT_N. -/

namespace Sys2Proof.Machine

/-- What a low-speed output shows (R438). -/
inductive PinLevel
  | high | low | hiZ | toggling
  deriving DecidableEq, Repr

/-- The conditions of R438's table, in its order. -/
inductive PinRow
  | off | saving | holding | coldReset | shutdown | booting | running
  deriving DecidableEq, Repr

/-- R438: the first condition that applies. -/
def pinRow (s : State) : PinRow :=
  if s.pins.auxOff && s.pins.holdOff then .off
  else if 1 ≤ s.pwr.saving && s.pwr.saving ≤ 4 then .saving
  else if s.tack.hold && s.pins.saveDone then .holding
  else if !s.pins.coldResetN then .coldReset
  else if s.therm.shutdown then .shutdown
  else if !s.tack.readyNow && !s.flt.failed then .booting
  else .running

def levelOf (b : Bool) : PinLevel := if b then .high else .low

/-- R438: FLOW[k]. -/
def flowOut (s : State) (k : Nat) : PinLevel :=
  match pinRow s with
  | .running => levelOf (flowPin s k)
  | .off => .hiZ
  | _ => .high

/-- R412: ALERT's behaviour as a level. -/
def alertLevel (s : State) : PinLevel :=
  match alertOf s with
  | .high => .high
  | .low => .low
  | .toggling => .toggling

/-- R438: ALERT. -/
def alertOut (s : State) : PinLevel :=
  match pinRow s with
  | .off => .hiZ
  | .saving | .holding | .coldReset => .high
  | _ => alertLevel s

/-- R438: SAVE_DONE. -/
def saveDoneOut (s : State) : PinLevel :=
  match pinRow s with
  | .off => .hiZ
  | r => levelOf (decide (r = .holding))

/-- R438: SMB_ALERT_N (R409). -/
def smbAlertOut (s : State) : PinLevel :=
  match pinRow s with
  | .off => .hiZ
  | .coldReset => .hiZ
  | _ => levelOf (smbAlertN s)

end Sys2Proof.Machine
end

