-- ==== Sys2Proof/WellFormed.lean ====
section
/-! DEFINITION. Which commands are well formed: the bounds on operands that their types leave open. -/

namespace Sys2Proof

/-- R250, R251: the TYPE field of a flit. -/
def RxFlit.typeField (fl : RxFlit) : Nat := fl.bits.toNat % 16

/-- R250, R280: the operation of a MGMT flit in plain text, the first byte of its payload. -/
def RxFlit.opField (fl : RxFlit) : Nat := fl.bits.toNat / 2 ^ 32 % 256

/-- A flit of a type the table of R252 names. What its frames give is known to the link alone. -/
def RxFlit.isType (fl : RxFlit) (t : Nat) : Bool := fl.frames ≠ [] || fl.typeField = t

/-- R252: a flit of a reserved type. -/
def RxFlit.isReserved (fl : RxFlit) : Bool :=
  fl.frames ≠ [] || fl.typeField = 7 || fl.typeField = 8 || 11 ≤ fl.typeField

/-- A PROBE flit with a given KIND (R273). -/
def RxFlit.isProbe (fl : RxFlit) (kind : Nat) : Bool := fl.isType 6 && (fl.frames ≠ [] || decide (fl.opField = kind))

/-- A MGMT flit of an operation that stays plain under encryption (R285). -/
def RxFlit.isMgmt (fl : RxFlit) (op : Nat) : Bool := fl.isType 3 && (fl.frames ≠ [] || decide (fl.opField = op))

/-- A list of exactly `n` entries. -/
def listOf {α : Type} (n : Nat) (xs : List α) : Bool := xs.length = n

/-- What a boot step finds names each unit at most once. -/
def BootFinding.wf (o : BootFinding) : Bool :=
  decide o.failedSites.Nodup && decide o.failedStalls.Nodup && decide o.failedStacks.Nodup &&
    decide (o.modules.map fun e => (e.1, e.2.1)).Nodup

/-- A well-formed command. -/
def Instr.wf : Instr → Bool
  | .penCmdReserved _ _ cmd => cmd = 0 || 7 ≤ cmd.toNat
  | .chuteBadOp _ _ op => op = 0 || 10 ≤ op.toNat
  | .readModifyWrite a data _ _ => data ≠ [] && a.toNat % 64 + data.length ≤ 64
  | .pnetBadOp op => op = 0 || 3 ≤ op.toNat
  | .moduleRetrainDone _ _ (.repaired n k) => n ≤ 64 && k ≤ 64
  | .replacementStepDone _ _ reps _ => decide (reps.map (·.1)).Nodup && reps.all (·.2 ≤ 64)
  | .oeBadOp _ op => op = 0 || 3 ≤ op.toNat
  | .biasLoop _ _ bias => bias.toNat ≤ 1000
  | .pilotEvaluation _ _ levels => listOf 16 levels
  | .marginMeasure _ _ margins => listOf 16 margins
  | .trainComplete _ eyes => listOf 16 eyes
  | .alignComplete _ w2 => listOf 16 w2
  | .rateStepDone _ eyes w2 => listOf 16 eyes && listOf 16 w2
  | .capabilityMessage _ fl => fl.isType 4
  | .linkCmdBadOp _ op => op = 0 || 3 ≤ op.toNat
  | .flowFlit _ fl => fl.isType 0
  | .dataFlit _ fl => fl.isType 1
  | .ctrlFlit _ fl => fl.isType 2
  | .dataPool _ fl => fl.isType 9
  | .ctrlPool _ fl => fl.isType 10
  | .flitReservedType _ fl => fl.isReserved
  | .sync _ fl => fl.isType 5
  | .ping _ fl => fl.isProbe 1
  | .echo _ fl _ => fl.isProbe 2
  | .linkLlBadOp _ op => op = 0 || 4 ≤ op.toNat
  | .margin _ fl => fl.isType 3
  | .laneReq _ fl => fl.isType 3
  | .laneSet _ fl => fl.isType 3
  | .laneRefuse _ fl => fl.isType 3
  | .key _ fl => fl.isMgmt 5
  | .tag _ fl => fl.isMgmt 6
  | .keySwitch _ fl => fl.isMgmt 7
  | .csrReq _ fl => fl.isType 3
  | .csrRsp _ fl => fl.isType 3
  | .sysNotice _ fl => fl.isType 3
  | .bar4Read _ _ len => 0 < len
  | .bar4Write _ _ data => data ≠ []
  | .pcieLinkUp _ width _ => width.toNat ∣ 16
  | .funcBadOp _ _ op => 4 ≤ op.toNat
  | .bootStepDone o => o.wf
  | .flashBadOp op => op = 0 || 3 ≤ op.toNat
  | .secBadOp op => op = 0 || 4 ≤ op.toNat
  | .supplySag reason => reason ≠ 3
  | .thermalScan readings opens =>
    (readings.map (·.1)).Nodup && readings.all (fun r => r.1 < 254) && opens.all (· < 254)
  | .faultTestBadOp op => op = 0 || 4 ≤ op.toNat
  | .registerWrite _ _ size _ => 1 ≤ size && size ≤ 4096
  | .wordLock _ i .. => i ≠ 0
  | .equaliserUpdate _ i _ amp _ => i ≠ 0 && decide (0 < amp)
  | .macToken .. | .vecToken .. | .uopNop .. | .uopAdd .. | .uopSub .. | .uopMul .. | .uopFma .. | .uopMax ..
  | .uopMin .. | .uopAbs .. | .uopNeg .. | .uopSel .. | .uopCmplt .. | .uopExp2 .. | .uopLog2 .. | .uopRcp ..
  | .uopRsqrt .. | .uopTanh .. | .uopRsum .. | .uopRmax .. | .uopRmin .. | .uopLacc .. | .uopRget ..
  | .uopLget .. | .uopBcast .. | .inputLine .. | .routerCredit .. | .outputLineSend .. | .anchorLine ..
  | .fenceArrival .. | .swapDrainDone .. | .swapExchange .. | .mangerWriteback .. | .mangerScrub ..
  | .stallNumStatusWrite .. | .stallBankConflictRead .. | .stallTokenLoRead .. | .load .. | .loadStreamDone
  | .shadow .. | .start .. | .stop .. | .swap .. | .penRelease .. | .drainComplete .. | .drainLimitExpiry ..
  | .penFault .. | .engineTriggerPacket .. | .planRun | .sinkLine .. | .sinkPassNotice .. | .droveMax ..
  | .push .. | .waitingFirstOpen .. | .spaceWaitEnd .. | .abort .. | .mark .. | .rewind .. | .release ..
  | .flush .. | .enable .. | .disable .. | .init .. | .consumerRead .. | .watermarkWrite ..
  | .disableLimitExpiry .. | .chuteDisableComplete .. | .remoteOpen .. | .remoteData .. | .remoteClose ..
  | .remoteAbort .. | .remoteXoff .. | .remoteXon .. | .remoteStatus .. | .remotePurged ..
  | .chuteStatusWrite .. | .chuteDieAbortLinesRead .. | .memRead .. | .memWrite .. | .memCeWriteback ..
  | .refresh .. | .refreshRateChange .. | .scrubRead .. | .stackLost .. | .mhCtrlWrite .. | .mhCeCountRead ..
  | .mhUcCountRead .. | .meshPacket .. | .routerTableSwitch .. | .retire .. | .readmit .. | .replacementStart
  | .adapterRetry .. | .moduleRetrainDone _ _ .half | .moduleRetrainDone _ _ .failed
  | .capabilityWord .. | .spareLaser .. | .relock .. | .laserWarmDone .. | .laserWarmTimeout ..
  | .laserLockLoop .. | .suddenLoss .. | .laserSparingStart .. | .laserSparingStepDone .. | .ringLoopUpdate ..
  | .ringReacquireTimeout .. | .ringRelock .. | .ringRail .. | .ringSearchStep .. | .mislockRecoveryStepDone ..
  | .activityWord .. | .feedForwardUpdate .. | .oeSilentDie .. | .xtRefineWindow .. | .xtCommit ..
  | .oeBandChange .. | .oeLaserStatWrite .. | .oeRingWrite .. | .beaconTransmit .. | .beaconDetected ..
  | .partnerClockDetected .. | .goBlock .. | .stageTimeout .. | .clockLightLost .. | .los ..
  | .losDeassert .. | .lol .. | .lolDeassert .. | .laneFailed .. | .holdLimitExpiry ..
  | .trainingBlocksReceived .. | .retrainComplete .. | .marker .. | .slip .. | .retrain .. | .acceptPartner ..
  | .linkCtrlWrite .. | .linkStateWrite .. | .linkLaneWrite .. | .linkLaneRead .. | .txSlot .. | .ackTimer ..
  | .replayTimerExpiry .. | .flowForce .. | .creditReturnTimer .. | .probeTimeout .. | .retrainTimeout ..
  | .operationTimeout .. | .purge .. | .linkDisable .. | .rekey .. | .linkDisableComplete ..
  | .linkDrainLimitExpiry .. | .linkLlCounterRead .. | .deskewWaitEnd .. | .laneMapEffective .. | .bar2Read ..
  | .bar2Write .. | .csrReadTimeout .. | .intakePacket | .sysStatusWrite .. | .sysStatusRead
  | .configRequest .. | .cxlMemRead .. | .cxlMemWrite .. | .pcieLinkDown | .hotReset | .flr .. | .perstN ..
  | .vfEnableSet | .vfEnableClear | .funcEnable .. | .funcDisable .. | .wipe .. | .wipeDone ..
  | .funcDrainComplete .. | .funcDrainLimitExpiry .. | .dmaTailWrite .. | .h2d .. | .d2h .. | .h2c .. | .c2h ..
  | .dmaDescriptorComplete .. | .hostEvqHeadWrite .. | .hostEvqStatusWrite .. | .hostEvqStatusRead ..
  | .hostDeniedRead | .spdmRequest .. | .hostIdeFail .. | .coldReset .. | .coldResetNRelease ..
  | .tackResetWarm .. | .flashWrite .. | .flashRead .. | .flashCommandDone .. | .lcAdvance .. | .debugUnlock
  | .advanceSvn | .saveHoldExit | .tapInstruction .. | .smbusRequest .. | .pvMainGood | .regulatorOutOfRange ..
  | .powerEvaluation .. | .pwrOverLimit | .pwrLimitWrite .. | .saveComplete | .pvHoldExhausted
  | .saveShadowRefresh | .faultReport .. | .faultAck .. | .conditionEnd .. | .bucketLeak ..
  | .faultHeartbeat .. | .heartbeatLost | .injectDisarm .. | .injectOnce .. | .injectContinuous ..
  | .injModeReserved .. | .stallTest .. | .dieTest .. | .memTest .. | .testComplete .. | .pmuCntLoRead ..
  | .pmuCntHiWrite .. | .pmuCntLoWrite .. | .pmuCfgWrite .. | .pmuCtrlWrite .. | .pmuOvfWrite ..
  | .counterOverflow .. | .pmuSampleDroppedRead .. | .phaseTrackerUpdate .. => true

end Sys2Proof
end

