-- ==== Sys2Proof/Safety.lean ====
section
/-! DEFINITION. What counts as a safe run, and the terms in which claims are stated: a command that completes, the parts
of the state an operation changes, canonical memories, an open register interface. -/

namespace Sys2Proof.Machine

open Sys2Proof

/-- A safe step: it answers a next state. -/
def SafeStep (s : State) : Prop := ∃ t, step s = .next t

/-- The command answers a next state, of which `P` holds. -/
def Completes (c : Instr) (s : State) (P : State → Prop) : Prop := ∃ t, exec c s = .next t ∧ P t

/-! ### Parts of the state -/

/-- The parts of the state, one for each field of State. -/
inductive Part
  | pending | time | free | resp | pins | stalls | manger | mangerInj | strq | pens | placement | loadQ
  | loadNow | ready | anchors | sinks | chutes | doorbells | chuteDies | epStat | xoffRemote | ms | pnet | oes
  | links | lls | sys | host | hostMem | tack | flash | spi0 | spi1 | mram | pwr | therm | flt | pmus
  deriving DecidableEq, Repr

/-- A part is as it was. -/
def Part.same (s t : State) : Part → Prop
  | .pending => t.pending = s.pending
  | .time => t.time = s.time
  | .free => t.free = s.free
  | .resp => t.resp = s.resp
  | .pins => t.pins = s.pins
  | .stalls => t.stalls = s.stalls
  | .manger => t.manger = s.manger
  | .mangerInj => t.mangerInj = s.mangerInj
  | .strq => t.strq = s.strq
  | .pens => t.pens = s.pens
  | .placement => t.placement = s.placement
  | .loadQ => t.loadQ = s.loadQ
  | .loadNow => t.loadNow = s.loadNow
  | .ready => t.ready = s.ready
  | .anchors => t.anchors = s.anchors
  | .sinks => t.sinks = s.sinks
  | .chutes => t.chutes = s.chutes
  | .doorbells => t.doorbells = s.doorbells
  | .chuteDies => t.chuteDies = s.chuteDies
  | .epStat => t.epStat = s.epStat
  | .xoffRemote => t.xoffRemote = s.xoffRemote
  | .ms => t.ms = s.ms
  | .pnet => t.pnet = s.pnet
  | .oes => t.oes = s.oes
  | .links => t.links = s.links
  | .lls => t.lls = s.lls
  | .sys => t.sys = s.sys
  | .host => t.host = s.host
  | .hostMem => t.hostMem = s.hostMem
  | .tack => t.tack = s.tack
  | .flash => t.flash = s.flash
  | .spi0 => t.spi0 = s.spi0
  | .spi1 => t.spi1 = s.spi1
  | .mram => t.mram = s.mram
  | .pwr => t.pwr = s.pwr
  | .therm => t.therm = s.therm
  | .flt => t.flt = s.flt
  | .pmus => t.pmus = s.pmus

/-- Every part outside the list is as it was. -/
def OnlyChanges (ps : List Part) (s t : State) : Prop := ∀ p : Part, p ∉ ps → p.same s t

/-! ### Memories -/

/-- Every byte memory of the device, and host memory as the device has written it, is in canonical form. -/
def State.canonical (s : State) : Prop :=
  memWf s.ms.mem = true ∧ memWf s.manger = true ∧ memWf s.hostMem = true ∧ tabWf flashDefault s.flash = true ∧
    memWf s.mram = true

/-- A byte of device memory (R164), and of a stall's manger (R57). -/
def State.byteAt (s : State) (a : Nat) : Byte := tabGet memDefault s.ms.mem a
def State.mangerByte (s : State) (t off : Nat) : Byte := tabGet memDefault s.manger (mangerKey t off)

/-! ### The register interface (R324, R325, R334, R336) -/

/-- The host link serves a function: it is up, the function is not DISABLING, and its IDE stream is not Insecure. -/
def Served (s : State) (f : Nat) : Prop := barsOpen s f = true ∧ ideDiscards s f = false

/-- The PF reaches every register: the host link serves it, and the device has reported READY. -/
def PfOpen (s : State) : Prop := Served s 0 ∧ s.tack.readyNow = true

/-- The PF reaches the ranges that serve before READY. -/
def CoreOpen (s : State) : Prop := Served s 0

/-! ### Vocabulary of the statements -/

/-- A micro-op's turn: it is the one at the token's issue index, of a stall that works, no port that the token writes
is held, and a hub that the micro-op writes to is in reach (R69, R71, R174). -/
def UopTurn (t : StallId) (s : State) (k : VecTok) (u : Nat) : Prop :=
  let x := s.stall t.toNat
  x.vtok = some k ∧ recUop x.record k.uop = u ∧ penWorks s t.toNat = true ∧
    x.st ≠ .fault ∧ x.st ≠ .failed ∧ x.st ≠ .off ∧ vecHeld s t.toNat = false ∧ mwrHeld s t.toNat k u = false

/-- The lane operations of R75: the command, its operation code, what a lane computes and how many sources it reads. -/
def laneOps : List ((StallId → Instr) × Nat × (BitVec 32 → BitVec 32 → BitVec 32 → BitVec 32) × Nat) :=
  [(.uopAdd, 0x01, laneAdd, 2), (.uopSub, 0x02, laneSub, 2), (.uopMul, 0x03, laneMul, 2), (.uopFma, 0x04, laneFma, 3),
   (.uopMax, 0x05, laneMax, 2), (.uopMin, 0x06, laneMin, 2), (.uopAbs, 0x07, laneAbs, 1), (.uopNeg, 0x08, laneNeg, 1),
   (.uopSel, 0x09, laneSel, 3), (.uopCmplt, 0x0A, laneCmplt, 2), (.uopExp2, 0x10, laneTrans 0, 1),
   (.uopLog2, 0x11, laneTrans 1, 1), (.uopRcp, 0x12, laneTrans 2, 1), (.uopRsqrt, 0x13, laneTrans 3, 1),
   (.uopTanh, 0x14, laneTrans 4, 1)]

/-- The other operations of R75. -/
def otherOps : List ((StallId → Instr) × Nat) :=
  [(.uopNop, 0x00), (.uopRsum, 0x18), (.uopRmax, 0x19), (.uopRmin, 0x1A), (.uopLacc, 0x1B), (.uopRget, 0x1C),
   (.uopLget, 0x1D), (.uopBcast, 0x1E)]

/-- No injection is armed, and none is in the stall's active record (R413). -/
def NoInjection (s : State) (t : Nat) : Prop := s.flt.arm = none ∧ (s.stall t).active.inj = 0

/-- A pen's command is taken: it comes from the function that owns the pen, over open BARs, and the device has not
failed (R84, R324, R402). -/
def PenTaken (f : Func) (p : PenId) (s : State) : Prop :=
  Served s f.toNat ∧ s.tack.readyNow = true ∧ penOwner s p.toNat = f.toNat ∧ s.flt.failed = false

/-- A chute command reaches the chute: a host's through open BARs, from the PF or the chute's own function, once the
function's earlier BAR4 writes have reached their hubs (R151, R156, R324, R325, R331). -/
def RequestArrives (s : State) (c : ChuteId) : Requester → Prop
  | .host f => Served s f.toNat ∧ s.tack.readyNow = true ∧
      (f = 0 ∨ (s.chute c.toNat).func.toNat = f.toNat) ∧ bellWaits s f = false
  | _ => True

/-- A word of a source is looked at on its own: no earlier word of the source waits (R129, R130), it is not of a
packet cut off in this cycle (R154), REMOTE_OK lets another device's in (R151), and the stack of the line it goes to
is in reach (R174). -/
def WordReaches (s : State) (c : Nat) (src : Source) : Prop :=
  let x := s.chute c
  x.waits src = false ∧ x.cut ≠ some (src, s.time) ∧ (src.dev.toNat ≠ myDev s → x.remoteOk = true) ∧
    chuteLineWaits s c ((x.wp.toNat + if x.opened && x.wslot ≠ 0 then 2 * x.size - 1 else 0) % x.size) = false

/-- The doorbell slot of a host's command shows its result and the chute's PSTAT (R156). -/
def RequestAnswered (c : ChuteId) (r : Requester) (result : BitVec 3) (s' : State) : Prop :=
  match r with
  | .host _ => (s'.doorbell c.toNat).result = result ∧ (s'.doorbell c.toNat).pstat = (s'.chute c.toNat).pstat ∧
      s'.resp = .ok
  | _ => True

/-- R253: the flit that a receive command brings: the one its frames complete, or the one it carries. -/
def arrivingFlit (l : LinkId) (fl : RxFlit) (s : State) : Flit := (rxSlotFlit s l.toNat fl).2

/-- A flit with a good CRC arrives in a slot of an ACTIVE link, with nothing to free and no lane change due (R253, R254,
R257). -/
def FlitArrives (l : LinkId) (fl : RxFlit) (s : State) : Prop :=
  (s.link l.toNat).st = .active ∧ (s.ll l.toNat).cmdRx = none ∧ flitGood (arrivingFlit l fl s) = true ∧
    flitAck (arrivingFlit l fl s) = (s.ll l.toNat).oldest

/-- The flit is the next of its sequence (R256, R271, R277). -/
def NextInOrder (l : LinkId) (fl : RxFlit) (s : State) : Prop :=
  let x := s.ll l.toNat
  (x.syncOn = false ∨ x.gotPartner = true) ∧ flitSeq (arrivingFlit l fl s) = x.nextRx.toNat ∧ purgedWaits x = false

/-- A MGMT flit of an operation arrives, next in order, on a link that does not encrypt (R280, R295). -/
def MgmtArrives (l : LinkId) (fl : RxFlit) (op : Nat) (s : State) : Prop :=
  FlitArrives l fl s ∧ NextInOrder l fl s ∧ flitTyp (arrivingFlit l fl s) = 3 ∧
    mgmtOp (flitPayload (arrivingFlit l fl s)) = op ∧ (s.ll l.toNat).encActive = false ∧ (s.ll l.toNat).openRx = []

/-- The same, for the messages of the key exchange and the TAG, which are plain on every link (R285). -/
def KeyArrives (l : LinkId) (fl : RxFlit) (op : Nat) (s : State) : Prop :=
  FlitArrives l fl s ∧ NextInOrder l fl s ∧ flitTyp (arrivingFlit l fl s) = 3 ∧
    mgmtOp (flitPayload (arrivingFlit l fl s)) = op

/-- The flit is accepted: its slot and its sequence number are counted (R256). -/
def Accepted (l : LinkId) (s s' : State) : Prop :=
  (s'.ll l.toNat).nextRx = (s.ll l.toNat).nextRx + 1 ∧ (s'.ll l.toNat).rxSlot = (s.ll l.toNat).rxSlot + 1

/-- A range of device memory that holds sound data in ONLINE stacks (R161, R162). -/
def PlainSpan (s : State) (a n : Nat) : Prop :=
  s.flt.arm = none ∧ a + n ≤ memTop s ∧ ∀ i, i < n → (s.hub (hubOf s (a + i))).st = .online ∧
    s.poisonAt ((a + i) / 64) = false ∧ popCount (s.injAt ((a + i) / 64)).toNat 3 = 0

/-- The bytes stored from a device address, and no other byte (R162). -/
def StoresBytes (s s' : State) (a : Nat) (bs : List Byte) : Prop :=
  (∀ i, i < bs.length → s'.byteAt (a + i) = bs.getD i 0) ∧
    ∀ b, b < a ∨ a + bs.length ≤ b → s'.byteAt b = s.byteAt b

/-- A function reaches a function's block: over open BARs, the PF any, a VF its own (R324, R325). -/
def FnReach (f n : Func) (s : State) : Prop := Served s f.toNat ∧ (f = 0 ∨ n = f)

/-- An event's entry reached the ring of function `n`: TAIL has advanced by one (R328). -/
def EventWritten (n : Nat) (s s' : State) : Prop :=
  ringOpen s n = true → (s.fn n).lost = 0 → (s.fn n).st ≠ .disabling → (s'.fn n).tail = (s.fn n).tail + 1

/-- A record of a source shows a cause as its last (R406); during a save nothing is recorded (R410). -/
def Recorded (src cause : Nat) (s s' : State) : Prop :=
  s.pwr.saving ≤ 1 → (s'.frec src).lastCause = BitVec.ofNat 16 cause ∧ (s'.frec src).valid = true

end Sys2Proof.Machine
end

