-- ==== Sys2Proof/Certificates/Slice0/Obligations.lean ====
section
/-! DEFINITION. The statements about the model. -/

open Sys2Proof Sys2Proof.Machine

/-! ### Steps -/

/-- [1] A step with a command at the front of the queue is `exec` of that command on the state with the queue's rest.
The block's form; no rule of the spec. -/
def Obligations.StepRunsFrontCommand : Prop :=
  ∀ (c : Instr) (rest : List Instr) (s : State), s.pending = c :: rest →
    step s = exec c { s with pending := rest }

/-- [1] DESIGN CHOICE: with no command waiting a step is one control-clock cycle: TIME advances while COLD_RESET_N is
high, and nothing waits afterwards. -/
def Obligations.EmptyQueueTicksTheClock : Prop :=
  ∀ s : State, s.pending = [] → ∃ t, step s = .next t ∧ t.pending = [] ∧
    t.time = (if s.pins.coldResetN then s.time + 1 else s.time)

/-- [1], [2] No step stops: every command answers a next state in every state, be it the state as it was where the
command has no effect there, and leaves the queue as it is. That no command faults or is refused is the model's choice
(log [2]). -/
def Obligations.CommandsLeaveTheQueue : Prop :=
  (∀ s : State, SafeStep s) ∧ ∀ (c : Instr) (s : State), ∃ t, exec c s = .next t ∧ t.pending = s.pending

/-- After reset every memory is in canonical form, and no command waits. -/
def Obligations.ResetIsCanonical : Prop := State.reset.canonical ∧ State.reset.pending = []

/-- Every step keeps every memory in canonical form. -/
def Obligations.StepKeepsMemoriesCanonical : Prop :=
  ∀ s t : State, s.canonical → step s = .next t → t.canonical

/-! ### Stalls -/

/-- The PF's accesses to a stall's registers: 1s clear STALL_NUM_STATUS, STALL_BANK_CONFLICT clears on read, and a read
of STALL_TOKEN_LO latches the high bits of the count (R8, R49). That a number which no powered die holds reads 0 and
takes no write is the model's choice (log [6]). -/
def Obligations.StallRegisterAccesses : Prop :=
  ∀ (t : StallId) (v : Reg32) (s : State), PfOpen s →
    let x := s.stall t.toNat
    let on := s.diePowered (t.toNat / 64) = true
    (on →
      exec (.stallNumStatusWrite t v) s
        = .next ((s.setStall t.toNat { x with num := x.num &&& ~~~(v.setWidth 7) }).answer .ok) ∧
      exec (.stallBankConflictRead t) s
        = .next ((s.setStall t.toNat { x with waits := 0 }).answer (.val (x.waits.setWidth 64))) ∧
      exec (.stallTokenLoRead t) s
        = .next ((s.setStall t.toNat { x with tokenHi := x.tokens.extractLsb' 32 16 }).answer
            (.val ((x.tokens.setWidth 32).setWidth 64)))) ∧
    (¬ on →
      exec (.stallNumStatusWrite t v) s = .next (s.answer .ok) ∧
      exec (.stallBankConflictRead t) s = .next (s.answer (.val 0)) ∧
      exec (.stallTokenLoRead t) s = .next (s.answer (.val 0)))

/-- R71, R73, R75: a lane micro-op in its turn writes, in every lane of its destination register, its operation on the
sources' lanes; every other register, every other stall and every memory is unchanged. With another destination the
same vector goes there. R46, R71, R75: in its turn NOP does nothing but end; RSUM adds the 64 lanes to ACC[MOD[2:0]];
LACC adds each lane to its lane accumulator; RMAX, RMIN and BCAST spread one value; RGET and LGET finish, convert and
clear accumulators. That RGET and LGET set STALL_NUM_STATUS, and that a vector of which a line falls outside the
target of MWR is written nowhere, is the model's choice (log [59]), within `uopWrite` and `accFinish`. -/
def Obligations.MicroOpsWriteTheirResults : Prop :=
  (∀ (t : StallId) (s : State) (k : VecTok) (u : Nat), UopTurn t s k u →
    ∀ o ∈ laneOps, uopOpc u = o.2.1 →
      let x := s.stall t.toNat
      let a := vecSource x k u (uopSa u)
      let b := vecSource x k u (uopSb u)
      let c := vecSource x k u (uopSc u)
      let m := a.2 ||| (if 2 ≤ o.2.2.2 then b.2 else 0) ||| (if 3 ≤ o.2.2.2 then c.2 else 0)
      let v := vecOf fun i => o.2.2.1 (vecLane a.1 i) (vecLane b.1 i) (vecLane c.1 i)
      exec (o.1 t) s = .next (uopWrite s t.toNat k u v m) ∧
      (uopDst u < 0x18 → Completes (o.1 t) s fun s' =>
        (∀ i, i < 64 → vecLane (tabGet (fun _ => 0) (s'.stall t.toNat).vregs (uopDst u)) i
          = o.2.2.1 (vecLane a.1 i) (vecLane b.1 i) (vecLane c.1 i)) ∧
        tabGet (fun _ => 0) (s'.stall t.toNat).vpois (uopDst u) = m ∧
        (∀ d, d ≠ uopDst u → tabGet (fun _ => 0) (s'.stall t.toNat).vregs d = tabGet (fun _ => 0) x.vregs d) ∧
        (∀ t', t' ≠ t.toNat → s'.stall t' = s.stall t') ∧
        OnlyChanges [.stalls, .pmus, .free] s s')) ∧
  (∀ (t : StallId) (s : State) (k : VecTok) (u : Nat), UopTurn t s k u →
    let x := s.stall t.toNat
    let a := vecSource x k u (uopSa u)
    let i := uopMod u % 8
    let all : Bool → BitVec 64 := fun p => if p then BitVec.allOnes 64 else 0
    let sum := fun (y : Acc) => (List.range 64).foldl
      (fun z l => laneInto z x.anchor.toInt (vecLane a.1 l) (a.2.getLsbD l)) y
    (uopOpc u = 0x00 → exec (.uopNop t) s = .next (uopDone s t.toNat)) ∧
    (uopOpc u = 0x18 → Completes (.uopRsum t) s fun s' =>
      (s'.stall t.toNat).sacc = tabSet (fun _ => {}) x.sacc i (sum (tabGet (fun _ => {}) x.sacc i)) ∧
      (s'.stall t.toNat).vregs = x.vregs ∧ OnlyChanges [.stalls, .pmus, .free] s s') ∧
    (uopOpc u = 0x1B → Completes (.uopLacc t) s fun s' =>
      (∀ l, l < 64 → tabGet (fun _ => {}) (s'.stall t.toNat).lacc l
        = laneInto (tabGet (fun _ => {}) x.lacc l) x.anchor.toInt (vecLane a.1 l) (a.2.getLsbD l)) ∧
      (s'.stall t.toNat).vregs = x.vregs ∧ OnlyChanges [.stalls, .pmus, .free] s s') ∧
    (uopOpc u = 0x19 → exec (.uopRmax t) s
      = .next (uopWrite s t.toNat k u (vecOf fun _ => foldLanes laneMax a.1) (all (decide (a.2 ≠ 0))))) ∧
    (uopOpc u = 0x1A → exec (.uopRmin t) s
      = .next (uopWrite s t.toNat k u (vecOf fun _ => foldLanes laneMin a.1) (all (decide (a.2 ≠ 0))))) ∧
    (uopOpc u = 0x1E → exec (.uopBcast t) s
      = .next (uopWrite s t.toNat k u (vecOf fun _ => f32Canon (vecLane a.1 (uopMod u)))
          (all (a.2.getLsbD (uopMod u))))) ∧
    (uopOpc u = 0x1C →
      let r := accFinish x (tabGet (fun _ => {}) x.sacc i)
      exec (.uopRget t) s = .next (uopWrite
        (s.setStall t.toNat { x with sacc := tabSet (fun _ => {}) x.sacc i {}, num := x.num ||| r.2.1 })
        t.toNat k u (vecOf fun _ => r.1) (all r.2.2))) ∧
    (uopOpc u = 0x1D → Completes (.uopLget t) s fun s' =>
      uopDst u < 0x18 → (s'.stall t.toNat).lacc = [] ∧
        ∀ l, l < 64 → vecLane (tabGet (fun _ => 0) (s'.stall t.toNat).vregs (uopDst u)) l
          = (accFinish x (tabGet (fun _ => {}) x.lacc l)).1))

/-- R50, R49, R53: a MAC stall that has its anchor and, at two input ports, the blocks of a K step takes them, adds
every row against every column into the open window set, and retires the token; at the end of a tile the set closes.
No port of the stall brings partial sums [55]. -/
def Obligations.MacTokenAccumulates : Prop :=
  ∀ (t : StallId) (waits : Nat) (s : State) (p q : InPort) (rows cols : List OpBlk),
    let n := t.toNat
    let x := takeAnchor (s.stall n)
    let r := x.record
    let sh := tileShape r
    takesToken s n 0 = true → (s.stall n).closed = none → (s.stall n).join = none → partPorts s n = [] →
    (s.stall n).early = [] →
    x.anchorOk = true → NoInjection s n → recRowSrc r < 4 → recColSrc r < 4 → recRowSrc r ≠ recColSrc r →
    takeBlocks (recRowFmt r) sh.1 (x.inPort (recRowSrc r)) = some (p, rows) →
    takeBlocks (recColFmt r) sh.2 (x.inPort (recColSrc r)) = some (q, cols) →
    x.anchorPois = false → (∀ b ∈ rows ++ cols, b.poison = false) →
    Completes (.macToken t .clean waits) s fun s' =>
      let y := s'.stall n
      y.tokens = x.tokens + 1 ∧ y.inPort (recRowSrc r) = p ∧ y.inPort (recColSrc r) = q ∧ y.st = .run ∧
      (if agCompletes r 0 x.ag0 (opLines (recRowFmt r) sh.1) (recTileLevel r) then y.win = [] ∧ y.tileToks = 0
       else y.win = macStep (fmtMx (recRowFmt r)) x.anchor.toInt false rows cols x.win ∧
         y.tileToks = x.tileToks + 1) ∧
      (∀ t', t' ≠ n → s'.stall t' = s.stall t') ∧ OnlyChanges [.stalls, .pmus] s s'

/-- R71, R74: a VEC stall that has its anchor, no token in flight and a vector at each port that supplies one takes them
as one token, whose micro-ops then begin at index 0. -/
def Obligations.VecTokenTakesItsVectors : Prop :=
  ∀ (t : StallId) (s : State),
    let n := t.toNat
    let x := takeAnchor (s.stall n)
    let r := x.record
    let s1 := s.setStall n x
    takesToken s n 1 = true → (s.stall n).vtok = none → x.anchorOk = true → NoInjection s n → recReads r 0x1C = false →
    (∀ p ∈ vecPorts s1 n, (vecAvail r x p).isSome = true ∧ ∀ l ∈ (vecAvail r x p).getD [], l.poison = false) →
    (x.anchorPois && usesAnchor r) = false →
    Completes (.vecToken t .clean) s fun s' =>
      let y := s'.stall n
      y.st = .run ∧ y.tokens = x.tokens ∧
      (∃ k, y.vtok = some k ∧ k.uop = 0 ∧ k.outPois = false ∧ ∀ p ∈ vecPorts s1 n,
        k.ins[p]? = some (widen (vecFmt r p) (linesNat (((vecAvail r x p).getD []).map (·.data))))) ∧
      (∀ p, (y.inPort p).fifo = if p ∈ vecPorts s1 n then (x.inPort p).fifo.drop (vecLines r p)
        else (x.inPort p).fifo) ∧
      (∀ t', t' ≠ n → s'.stall t' = s.stall t') ∧ OnlyChanges [.stalls] s s'

/-- R65, R68, R70, R135: a line that is not idle joins its port's FIFO, an idle line is discarded, with a fence or
not, a regained credit is counted up to 16 (the model's number of credits, log [10]), an anchor line reaches
ANCHOR_PORT or starts the stall that waits for it, and a consumer endpoint reads the line at RP. Where a closed tile
waits for partial sums they then go in: the model's choice (log [55]), stated as what follows the arrival. R65, R66,
R69, R96: the head of an output port's stage leaves by its STREAM route to every destination, with the tag of its
place in the packet, and the port spends a credit. -/
def Obligations.LinesComeAndGo : Prop :=
  (∀ (t : StallId) (port : PortId) (s : State),
    let n := t.toNat
    let x := s.stall n
    (∀ m rest, portRoom x port.toNat = true →
      popFirst (fun (m : StrLine) => !m.toSink && decide (m.t = t) && decide (m.port = port)) s.strq = some (m, rest) →
      (m.line.tag ≠ 0 → (m.line.fence = false ∨ (x.inPort port.toNat).owed = 0) →
        let s1 := { s with strq := rest }.setStall n (x.setIn port.toNat { x.inPort port.toNat with
          fifo := (x.inPort port.toNat).fifo ++ [{ m.line with at_ := s.time }] })
        exec (.inputLine t port) s = .next (settleParts s1 n).1 ∧ (x.join = none → (settleParts s1 n).1 = s1)) ∧
      (m.line.tag = 0 → Completes (.inputLine t port) s fun s' =>
        x.join = none → s'.strq = rest ∧ OnlyChanges [.strq, .pmus] s s')) ∧
    (let o := x.outPort port.toNat
     o.credits ≤ 16 → exec (.routerCredit t port) s
      = .next (s.setStall n (x.setOut port.toNat { o with credits := min 16 (o.credits + 1) }))) ∧
    (∀ m rest, popFirst (fun (m : AnchorMsg) => decide (m.t = t)) s.anchors = some (m, rest) →
      (x.st ≠ .waitAnchor → portRoom x (recAnchorPort x.record) = true → Completes (.anchorLine t) s fun s' =>
        s'.anchors = rest ∧ OnlyChanges [.anchors, .stalls] s s' ∧
        ∃ l, l.data = m.anchor.setWidth 512 ∧ l.poison = m.poison ∧
          ((s'.stall n).inPort (recAnchorPort x.record)).fifo = (x.inPort (recAnchorPort x.record)).fifo ++ [l]) ∧
      (x.st = .waitAnchor → recAuto x.record = true → x.anchorOk = false →
        (x.inPort (recAnchorPort x.record)).fifo = [] → Completes (.anchorLine t) s fun s' =>
          (s'.stall n).anchor = m.anchor ∧ (s'.stall n).anchorPois = m.poison ∧ (s'.stall n).anchorOk = true ∧
          (s'.stall n).st = .run ∧ s'.anchors = rest ∧ OnlyChanges [.anchors, .stalls] s s')) ∧
    (∀ (c : ChuteId) (chk : StallCheck), (s.chute c.toNat).consumer = .stall t port → penRuns s n = true →
      x.working = true → x.join = none →
      portRoom x port.toNat = true → (s.chute c.toNat).ready ≠ 0 → (s.chute c.toNat).st ≠ .disabled →
      (s.chute c.toNat).stack = true →
      chuteLineWaits s c.toNat ((s.chute c.toNat).rp.toNat % (s.chute c.toNat).size) = false →
      Completes (.consumerRead c chk) s fun s' =>
        (s'.chute c.toNat).rp = (s.chute c.toNat).adv (s.chute c.toNat).rp 1 ∧
        (s'.chute c.toNat).wp = (s.chute c.toNat).wp ∧ (s'.chute c.toNat).cp = (s.chute c.toNat).cp ∧
        ∀ c', c' ≠ c.toNat → s'.chute c' = s.chute c')) ∧
  (∀ (t : StallId) (port : PortId) (s : State) (l : OutLine) (rest : List OutLine) (rs : List Route),
    let n := t.toNat
    let x := s.stall n
    let o := x.outPort port.toNat
    penWorks s n = true → x.st ≠ .fault → x.st ≠ .failed → 0 < o.credits → o.stage = l :: rest →
    outDst s n port.toNat = .stream rs →
    Completes (.outputLineSend t port) s fun s' =>
      s'.strq = s.strq ++ rs.map (fun q => (
        { toSink := false, t := (harnessOf s n).place.getD q.dst.toNat 0, port := q.dstPort.setWidth 2,
          line := { data := l.data, tag := placeTag (!o.opened) l.last l.valid, poison := l.poison, at_ := s.time } } :
        StrLine)) ∧
      ((s'.stall n).outPort port.toNat).credits = o.credits - 1 ∧
      (∀ t', t' ≠ n → s'.stall t' = s.stall t') ∧ OnlyChanges [.stalls, .strq, .pmus] s s')

/-- R78, R79, R77, R60: a fence at the head of FENCE_PORT stops token intake, or faults a stall with an open tile;
once drained the stall waits for SHADOW_VALID; the exchange changes the slots, counts the swap and clears the run; the
groom's scrub and the write-back of a corrected word. -/
def Obligations.StallSwapSteps : Prop :=
  ∀ (t : StallId) (s : State),
    let n := t.toNat
    let x := s.stall n
    (penWorks s n = true → x.working = true → fenceWaits x = true →
      (openTile x = false →
        exec (.fenceArrival t .clean) s = .next (s.setStall n { x with swapStep := 1, st := .fence })) ∧
      (openTile x = true → Completes (.fenceArrival t .clean) s fun s' =>
        (s'.stall n).st = .fault ∧ (s'.stall n).win = [] ∧ (s'.stall n).tileToks = 0 ∧ (s'.stall n).conv = [] ∧
        (s'.stall n).record = x.record)) ∧
    (x.swapStep = 1 → x.st ≠ .fault → swapDrained s n = true → (∀ p, p < 4 → (x.outPort p).blocks = []) →
      fencesReady s n = true →
      Completes (.swapDrainDone t) s fun s' =>
        (s'.stall n).swapStep = 2 ∧ (s'.stall n).st = (if (s'.stall n).shadowValid then .swap else .fence)) ∧
    (x.swapStep = 2 → x.shadowValid = true → x.st ≠ .fault →
      Completes (.swapExchange t .clean false) s fun s' =>
        let y := s'.stall n
        y.swaps = x.swaps + 1 ∧ y.activeSlot = !x.activeSlot ∧ y.activeValid = true ∧ y.shadowValid = false ∧
        y.swapStep = 0 ∧ y.win = [] ∧ y.vregs = [] ∧ y.sacc = [] ∧ y.lacc = [] ∧ y.anchorOk = false ∧
        y.ag0 = 0 ∧ y.ag1 = 0 ∧ y.ag2 = 0 ∧ y.tokens = x.tokens ∧ s'.manger = s.manger) ∧
    (∀ w rest, x.wb = w :: rest → s.flt.arm = none →
      exec (.mangerWriteback t) s = .next ({ s.setStall n { x with wb := rest } with
        mangerInj := tabSet (fun _ => 0) s.mangerInj (mangerWord n w.toNat) 0 })) ∧
    (x.st = .idle ∨ (x.st = .off ∧ s.diePowered (n / 64) = true) → (∀ e ∈ s.mangerInj, e.1 / 2 ^ 15 ≠ n) →
      exec (.mangerScrub t .clean) s = .next s ∧
      ∀ off : BitVec 18, Completes (.mangerScrub t (.mangerCe off)) s fun s' =>
        off / 8 * 8 ∈ (s'.stall n).wb ∧ s'.manger = s.manger)

/-! ### Pens -/

/-- R109, R111, R114, R115, R118: the commands a pen takes in each state. Loads join the loader's queue; START starts
the active harness afresh on every available stall; STOP drains, leaves READY, or abandons a load; SWAP puts a fence
into every fence root; RELEASE gives the grant and its chutes back. -/
def Obligations.PenCommandsMovePens : Prop :=
  ∀ (f : Func) (p : PenId) (s : State), PenTaken f p s →
    let n := p.toNat
    let x := s.pen n
    let others := fun (s' : State) => ∀ q, q ≠ n → s'.pen q = s.pen q
    (x.st = .free ∨ x.st = .stopped ∨ x.st = .faulted → s.loadNow.isSome = true →
      exec (.load f p) s = .next (State.answer { s.setPen n { x with from_ := x.st, st := .loading } with
        loadQ := s.loadQ ++ [{ pen := p, isShadow := false }] } .ok)) ∧
    (x.st = .running → s.loadNow.isSome = true →
      exec (.shadow f p) s = .next (State.answer { s.setPen n { x with shadow := .loading } with
        loadQ := s.loadQ ++ [{ pen := p, isShadow := true }] } .ok)) ∧
    (x.st = .ready ∨ x.st = .stopped → Completes (.start f p) s fun s' =>
      s'.pen n = { x with st := .running, aborted := false, result := 0, plans := [] } ∧ others s' ∧
      (∀ e ∈ s'.ready, e.1 ≠ p) ∧
      (∀ t ∈ penStalls s n, (s.stall t).st = .idle →
        let y := s'.stall t
        y.ag0 = 0 ∧ y.ag1 = 0 ∧ y.ag2 = 0 ∧ y.pass = 0 ∧ y.win = [] ∧ y.tileToks = 0 ∧ y.inp = [] ∧
        y.anchorOk = false ∧ y.vtok = none ∧ y.tokens = (s.stall t).tokens ∧
        y.st = (if recTakes y.record then .run else .idle) ∧ y.record = (s.stall t).record) ∧
      (∀ t, t ∉ penStalls s n → s'.stall t = s.stall t) ∧
      OnlyChanges [.pens, .ready, .stalls, .sinks, .resp] s s') ∧
    (x.st = .running → (∀ j ∈ s.loadNow.toList ++ s.loadQ, j.pen ≠ p) → Completes (.stop f p) s fun s' =>
      s'.pen n = { x with st := .draining, result := 0 } ∧ others s' ∧ OnlyChanges [.pens, .resp] s s') ∧
    (x.st = .running → (∃ j ∈ s.loadNow.toList ++ s.loadQ, j.pen = p) →
      (∀ j ∈ s.loadNow.toList ++ s.loadQ, j.pen = p → j.isShadow = true) → Completes (.stop f p) s fun s' =>
        (s'.pen n).st = .draining ∧ (s'.pen n).shadow = .empty ∧ (s'.pen n).result = 0x0C ∧
        ∀ j ∈ s'.loadNow.toList ++ s'.loadQ, j.pen ≠ p) ∧
    (x.st = .ready → Completes (.stop f p) s fun s' =>
      s'.pen n = { x with st := .stopped, result := 0 } ∧ others s' ∧
      OnlyChanges [.pens, .host, .hostMem, .pmus, .resp] s s') ∧
    (x.st = .loading → (∃ j ∈ s.loadNow.toList ++ s.loadQ, j.pen = p) →
      (∀ j ∈ s.loadNow.toList ++ s.loadQ, j.pen = p → j.isShadow = false) → Completes (.stop f p) s fun s' =>
        (s'.pen n).st = x.from_ ∧ (s'.pen n).result = 0x0C ∧
        ∀ j ∈ s'.loadNow.toList ++ s'.loadQ, j.pen ≠ p) ∧
    (x.st = .running → x.shadow = .valid → x.swapping = false → Completes (.swap f p) s fun s' =>
      s'.pen n = { x with swapping := true, result := 0 } ∧ others s' ∧
      (∀ t ∈ fenceRoots s n,
        let q := recFencePort (s.stall t).record
        (portRoom (s.stall t) q = true → ∃ l, l.fence = true ∧ l.tag ≠ 0 ∧
          s'.stall t = (s.stall t).setIn q { (s.stall t).inPort q with
            fifo := ((s.stall t).inPort q).fifo ++ [l] }) ∧
        (portRoom (s.stall t) q = false → s'.stall t = s.stall t ∧
          ∃ m ∈ s'.strq, m.toSink = false ∧ m.t.toNat = t ∧ m.port.toNat = q ∧ m.line.fence = true)) ∧
      (∀ t, t ∉ fenceRoots s n → s'.stall t = s.stall t) ∧ (∃ ms, s'.strq = s.strq ++ ms) ∧
      OnlyChanges [.pens, .stalls, .strq, .resp] s s') ∧
    (x.st = .ready ∨ x.st = .stopped ∨ x.st = .faulted → Completes (.penRelease f p) s fun s' =>
      (s'.pen n).st = .free ∧ (s'.pen n).granted = false ∧ (s'.pen n).result = 0 ∧ others s' ∧
      (∀ c, (s.chute c).penValid = true → (s.chute c).pen = p → (s'.chute c).penValid = false) ∧
      OnlyChanges [.pens, .chutes, .host, .hostMem, .pmus, .resp] s s')

/-- R84, R114, R121, R402: a command that the table does not list for the pen's state, a reserved command, and every
command while the device is FAILED set RESULT to STATE and do nothing else; a VF that does not own the pen is refused.
That a second SWAP during a swap answers STATE is the model's choice (log [60]). R109, R110, R114: a record that fails
its check, a poisoned container line, and a CRC that does not match refuse the load: the pen returns to the state it
came from with the code, and no slot changes; SHADOW_VALID alone may clear. -/
def Obligations.PenCommandsAndLoadsRefused : Prop :=
  (∀ (f : Func) (p : PenId) (v : BitVec 4) (s : State), Served s f.toNat → s.tack.readyNow = true →
    let x := s.pen p.toNat
    let refused := fun (c : Instr) => exec c s = .next ((s.setPen p.toNat { x with result := 0x0B }).answer .ok)
    (penOwner s p.toNat = f.toNat →
      (s.flt.failed = true ∨ (x.st ≠ .free ∧ x.st ≠ .stopped ∧ x.st ≠ .faulted) → refused (.load f p)) ∧
      (s.flt.failed = true ∨ x.st ≠ .running → refused (.shadow f p)) ∧
      (s.flt.failed = true ∨ (x.st ≠ .ready ∧ x.st ≠ .stopped) → refused (.start f p)) ∧
      (s.flt.failed = true ∨ (x.st ≠ .running ∧ x.st ≠ .loading ∧ x.st ≠ .ready) → refused (.stop f p)) ∧
      (s.flt.failed = true ∨ x.st ≠ .running ∨ x.shadow ≠ .valid ∨ x.swapping = true → refused (.swap f p)) ∧
      (s.flt.failed = true ∨ (x.st ≠ .ready ∧ x.st ≠ .stopped ∧ x.st ≠ .faulted) → refused (.penRelease f p)) ∧
      (Instr.wf (.penCmdReserved f p v) = true → refused (.penCmdReserved f p v))) ∧
    (penOwner s p.toNat ≠ f.toNat → f ≠ 0 → ∀ c ∈ [Instr.load f p, .shadow f p, .start f p, .stop f p, .swap f p,
        .penRelease f p, .penCmdReserved f p v],
      exec c s = .next (denyAccess s (0x40000 + 0x40 * p.toNat)))) ∧
  (∀ (s : State) (j : LoadJob), s.loadNow = some j → s.loadQ = [] → (s.pen j.pen.toNat).swapping = false →
    j.isShadow = false →
    let n := j.pen.toNat
    let x := s.pen n
    let addr := x.container.toNat
    let size := hTotal j.hdr.toNat
    let c := contOf (j.hdr.toNat + 2 ^ 1024 * contRaw s (addr + 128) (size - 128)) addr
    let bad := contCheck s c ⟨n, penOwner s n, j.place, penChutes s n⟩ x.memBase.toNat x.memSize.toNat
    let lines := fun m => (streamLines { s with loadNow := none } addr (streamOffs m)).2
    let refused := fun (code sec index : Nat) => Completes .loadStreamDone s fun s' =>
      (s'.pen n).st = x.from_ ∧ (s'.pen n).result = BitVec.ofNat 8 code ∧
      (s'.pen n).detSection = BitVec.ofNat 3 sec ∧ (s'.pen n).detIndex = BitVec.ofNat 16 index ∧
      s'.loadNow = none ∧ (∀ t, { s'.stall t with shadowValid := (s.stall t).shadowValid } = s.stall t) ∧
      s'.placement = s.placement ∧ (∀ q, q ≠ n → s'.pen q = s.pen q)
    (∀ t ∈ penStalls s n, (s.stall t).st ≠ .swap) → reqWaits s addr size = false →
    (∀ b, bad = some b → lines (min size b.ends) = none → refused b.code b.sec b.index) ∧
    (∀ o, lines (match bad with | some b => min size b.ends | none => size) = some o →
      refused 0x0A (locate c o).1 (locate c o).2) ∧
    (bad = none → lines size = none → contCrcOk c = false → refused 0x0A 0 0))

/-- R83, R109, R110: with the loader idle and the container's stacks in reach, LOAD reads the header at PEN_CONTAINER
once and checks it; a container that passes and has stalls is placed and streams; one that fails a check of step 1
sends the pen back with that check's code, and SHADOW reads EMPTY, which is the model's choice (log [60]). R110, R114,
R121: at the end of a stream whose records pass every check and whose CRC matches, a LOAD's placed stalls hold their
records, every other available stall is parked, and the pen is READY; a SHADOW load leaves the records in the shadow
slots and SHADOW reads VALID. -/
def Obligations.LoadsCheckAndComplete : Prop :=
  (∀ (f : Func) (p : PenId) (s : State), PenTaken f p s → s.loadNow = none → s.loadQ = [] →
    let n := p.toNat
    let x := s.pen n
    let s0 := s.setPen n { x with from_ := x.st, st := .loading }
    let addr := x.container.toNat
    let r := readMem s0 addr 128
    let k := leNat r.2.1
    let s2 := (readyStalls (takeGrant r.1 n) n false).updPen n fun y => { y with shadow := .empty }
    x.st = .free ∨ x.st = .stopped ∨ x.st = .faulted → addr + 128 ≤ memTop s → headWaits s addr = false →
      r.2.2 = false →
    (∀ place, headerCheck r.1 n addr k = none → hCount k ≤ (loadStalls s2 n).length →
      placement s2 n k (wideAt s2 addr k) = some place → Completes (.load f p) s fun s' =>
        s'.loadNow = some { pen := p, isShadow := false, hdr := BitVec.ofNat 1024 k, place := place } ∧ s'.loadQ = [] ∧
        (s'.pen n).st = .loading ∧ (s'.pen n).granted = true ∧ (∀ q, q ≠ n → s'.pen q = s.pen q) ∧
        (∀ t, (s'.stall t).active = (s.stall t).active) ∧
        OnlyChanges [.loadNow, .pens, .chutes, .stalls, .pmus, .ms, .flt, .host, .free, .tack, .resp] s s') ∧
    (∀ code, headerCheck r.1 n addr k = some code → Completes (.load f p) s fun s' =>
        s'.loadNow = none ∧ (s'.pen n).st = x.st ∧ (s'.pen n).result = BitVec.ofNat 8 code ∧
        (s'.pen n).detSection = 0 ∧ (s'.pen n).shadow = .empty ∧
          (∀ t, { s'.stall t with shadowValid := (s.stall t).shadowValid } = s.stall t) ∧
        (x.granted = true → x.swapping = false → ∀ t ∈ dieStalls s n, (s'.stall t).shadowValid = false) ∧
        ∀ q, q ≠ n → s'.pen q = s.pen q)) ∧
  (∀ (s : State) (j : LoadJob), s.loadNow = some j → s.loadQ = [] → (s.pen j.pen.toNat).swapping = false →
    let n := j.pen.toNat
    let x := s.pen n
    let addr := x.container.toNat
    let size := hTotal j.hdr.toNat
    let c := contOf (j.hdr.toNat + 2 ^ 1024 * contRaw s (addr + 128) (size - 128)) addr
    let v : PenView := ⟨n, penOwner s n, j.place, penChutes s n⟩
    contCheck s c v x.memBase.toNat x.memSize.toNat = none → contCrcOk c = true →
    (streamLines { s with loadNow := none } addr (streamOffs size)).2 = none →
    (∀ t ∈ penStalls s n, (s.stall t).st ≠ .swap) → reqWaits s addr size = false → j.place.Nodup →
      (∀ t ∈ j.place, t.toNat ∈ penStalls s n) →
    Completes .loadStreamDone s fun s' =>
      s'.loadNow = none ∧ (s'.pen n).result = 0 ∧ (∀ q, q ≠ n → s'.pen q = s.pen q) ∧
      (∀ t, t ∉ penStalls s n → s'.stall t = s.stall t) ∧
      (j.isShadow = false →
        (s'.pen n).st = .ready ∧ (s'.pen n).curBank ≠ x.curBank ∧
        { (s'.pen n).cur with paths := [] } = harnessOfCont c j.place ∧
        (∀ i t r, j.place[i]? = some t → c.stalls[i]? = some r →
          let y := s'.stall t.toNat
          y.record = r ∧ y.active.recIdx = i ∧ y.activeValid = true ∧ y.shadowValid = false ∧ y.st = .idle) ∧
        (∀ t ∈ penStalls s n, BitVec.ofNat 12 t ∉ j.place → (s'.stall t).record = parkedRecord)) ∧
      (j.isShadow = true →
        (s'.pen n).st = x.st ∧ (s'.pen n).shadow = .valid ∧
        (∀ i t r, j.place[i]? = some t → c.stalls[i]? = some r →
          let y := s'.stall t.toNat
          y.shadow.record = r ∧ y.shadow.recIdx = i ∧ y.shadowValid = true ∧ y.active = (s.stall t.toNat).active ∧
          y.tokens = (s.stall t.toNat).tokens) ∧
        (∀ t ∈ penStalls s n, BitVec.ofNat 12 t ∉ j.place → (s'.stall t).shadow.record = parkedRecord)))

/-- R114 to R119: a drain ends the pen in STOPPED, its limit aborts it there, and a stall of the pen in FAULT sends it
to FAULTED, or refuses its load; the pen's stalls hold no lines and no tokens, and no read or free pointer of a chute
moves. -/
def Obligations.DrainsAbortsAndFaults : Prop :=
  ∀ (p : PenId) (s : State),
    let n := p.toNat
    let x := s.pen n
    let swept := fun (s' : State) =>
      (∀ t ∈ grantStalls s n, let y := s'.stall t
        y.inp = [] ∧ y.vtok = none ∧ y.win = [] ∧ y.closed = none ∧ y.conv = [] ∧ y.out = none ∧
        y.record = (s.stall t).record ∧ y.failed = (s.stall t).failed ∧ y.tokens = (s.stall t).tokens) ∧
      (∀ m ∈ s'.strq, x.dies.getLsbD (m.t.toNat / 64) = false) ∧
      (∀ c, (s'.chute c).rp = (s.chute c).rp ∧ (s'.chute c).fp = (s.chute c).fp ∧ (s'.chute c).cp = (s.chute c).cp)
    (x.st = .draining → penDrained s n = true → Completes (.drainComplete p) s fun s' =>
      (s'.pen n).st = .stopped ∧ (s'.pen n).aborted = false ∧ (s'.pen n).swapping = false ∧ swept s' ∧
      (∀ q, q ≠ n → s'.pen q = s.pen q)) ∧
    (x.st = .draining → Completes (.drainLimitExpiry p) s fun s' =>
      (s'.pen n).st = .stopped ∧ (s'.pen n).aborted = true ∧ (s'.pen n).swapping = false ∧ swept s' ∧
      (∀ q, q ≠ n → s'.pen q = s.pen q)) ∧
    (∀ t ∈ grantStalls s n, (s.stall t).st = .fault → x.granted = true → s.loadNow = none → s.loadQ = [] →
      x.st = .ready ∨ x.st = .running ∨ x.st = .draining ∨ x.st = .stopped → Completes (.penFault p) s fun s' =>
        (s'.pen n).st = .faulted ∧ (s'.pen n).aborted = true ∧ (s'.pen n).shadow = .empty ∧ swept s' ∧
        (∀ u ∈ grantStalls s n, (s'.stall u).shadowValid = false) ∧ (∀ q, q ≠ n → s'.pen q = s.pen q)) ∧
    (∀ t ∈ grantStalls s n, (s.stall t).st = .fault → x.granted = true → x.st = .loading →
      (∃ j ∈ s.loadNow.toList ++ s.loadQ, j.pen = p) →
      (∀ j ∈ s.loadNow.toList ++ s.loadQ, j.pen = p → j.isShadow = false) → Completes (.penFault p) s fun s' =>
        (s'.pen n).st = x.from_ ∧ (s'.pen n).result = 0x0D ∧ (s'.stall t).failed = true)

/-! ### Chutes -/

/-- R136, R156: MARK sets MP = RP, REWIND sets RP = MP, RELEASE sets FP = RP and MP = RP, and each leaves the chute's
other pointers, its packet and every other chute as they are. R127, R129, R130, R132, R133, R142, R145: a PUSH with
FIRST opens a packet when none is open and no producer waits before; a word of the open packet extends it; a LAST word
commits it, or rewinds it for poison; a word of no packet is an orphan; a FIRST word at another source's packet waits,
or answers BUSY to the host; a chute that is DISABLED, or DISABLING for any but its open packet, refuses the word.
R132, R152, R156: ABORT by the producer that holds the open packet rewinds it to CP and reads back as ABORTED. -/
def Obligations.ChuteReadsAndPushes : Prop :=
  (∀ (c : ChuteId) (r : Requester) (s : State), chuteHeld s (c.toNat / 1024) = true → mayConsume s c.toNat r = true →
    RequestArrives s c r →
    let n := c.toNat
    let x := s.chute n
    let done := fun (s' : State) =>
      let y := s'.chute n
      y.wp = x.wp ∧ y.cp = x.cp ∧ y.opened = x.opened ∧ y.src = x.src ∧ y.st = x.st ∧ y.pstat = x.pstat ∧
      RequestAnswered c r 0 s' ∧ (∀ c', c' ≠ n → s'.chute c' = s.chute c') ∧
      OnlyChanges [.chutes, .doorbells, .resp, .host, .hostMem, .pmus, .lls, .free, .sys, .flt] s s'
    Completes (.mark c r) s (fun s' => let y := s'.chute n
      y.mp = x.rp ∧ y.rp = x.rp ∧ y.fp = x.fp ∧ done s') ∧
    Completes (.rewind c r) s (fun s' => let y := s'.chute n
      y.rp = x.mp ∧ y.mp = x.mp ∧ y.fp = x.fp ∧ done s') ∧
    Completes (.release c r) s (fun s' => let y := s'.chute n
      y.fp = x.rp ∧ y.mp = x.rp ∧ y.rp = x.rp ∧ done s')) ∧
  (∀ (c : ChuteId) (r : Requester) (w : ChuteWord) (s : State), chuteHeld s (c.toNat / 1024) = true →
    mayProduce s c.toNat r = true → RequestArrives s c r →
    let n := c.toNat
    let x := s.chute n
    let src := reqSource s r
    let host := fun (k : Requester) => match k with | .host _ => True | _ => False
    let others := fun (s' : State) => ∀ c', c' ≠ n → s'.chute c' = s.chute c'
    let stays := fun (y : Chute) => y.opened = x.opened ∧ y.src = x.src ∧ y.wp = x.wp ∧ y.cp = x.cp ∧ y.rp = x.rp ∧
      y.fp = x.fp
    let parts := [Part.chutes, .doorbells, .resp, .host, .hostMem, .pmus, .lls, .free, .sys, .flt]
    WordReaches s n src →
    (w.first = true → w.last = false → x.opened = false → x.wp = x.cp → x.st = .enabled → x.occ < x.size →
      x.xoff = false → firstWaits s x src = false → Completes (.push c r w) s fun s' =>
        let y := s'.chute n
        y.opened = true ∧ y.src = src ∧ y.words = 1 ∧ y.wslot = 1 ∧ y.wp = x.adv x.wp 1 ∧ y.cp = x.cp ∧ y.rp = x.rp ∧
        y.fp = x.fp ∧ y.discards = x.discards.filter (· ≠ src) ∧ RequestAnswered c r 0 s' ∧ others s' ∧
        OnlyChanges parts s s') ∧
    (x.st ≠ .disabled → x.opened = true → x.src = src → src ∉ x.discards → x.words < 4096 → w.first = false →
      (w.last = false → x.wslot = 1 ∨ x.wslot = 2 → Completes (.push c r w) s fun s' =>
        let y := s'.chute n
        y.opened = true ∧ y.words = x.words + 1 ∧ y.wslot = x.wslot + 1 ∧ y.wp = x.wp ∧ y.cp = x.cp ∧
        y.lineBuf = (x.lineBuf ||| (w.data.setWidth 512 <<< (128 * x.wslot.toNat))) ∧ others s' ∧
        OnlyChanges parts s s') ∧
      (w.last = true → x.wslot ≠ 0 → x.openPois = false → (host r ∨ w.poison = false) →
        Completes (.push c r w) s fun s' =>
        let y := s'.chute n
        y.opened = false ∧ y.cp = x.wp ∧ y.wp = x.wp ∧ y.rp = x.rp ∧ y.mp = x.mp ∧ y.fp = x.fp ∧ y.wslot = 0 ∧
        y.pstat = (if src ∈ x.flushes then .flushedNew else .ok) ∧ y.flushes = x.flushes.filter (· ≠ src) ∧
        y.vanished = x.vanished ∧ others s') ∧
      (w.last = true → x.wslot ≠ 0 → x.openPois = true → Completes (.push c r w) s fun s' =>
        let y := s'.chute n
        y.opened = false ∧ y.wp = x.cp ∧ y.cp = x.cp ∧ y.rp = x.rp ∧ y.fp = x.fp ∧ y.pstat = .poisoned ∧
        y.flushes = x.flushes.filter (· ≠ src) ∧ y.vanished = x.vanished + 1 ∧ y.discards = x.discards ∧ others s')) ∧
    (w.first = false → x.st = .enabled → src ∉ x.discards → (x.opened = false ∨ x.src ≠ src) →
      Completes (.push c r w) s fun s' => (s'.chute n).pstat = .orphan ∧ stays (s'.chute n) ∧ RequestAnswered c r 0 s' ∧
        others s') ∧
    (w.first = false → w.last = true → x.st ≠ .disabled → src ∈ x.discards → Completes (.push c r w) s fun s' =>
        let y := s'.chute n
        y.discards = x.discards.filter (· ≠ src) ∧ y.flushes = x.flushes.filter (· ≠ src) ∧
        y.pstat = (if src ∈ x.flushes then .flushed else x.pstat) ∧ stays y ∧ others s') ∧
    (w.first = true → x.st = .enabled → x.opened = true → x.src ≠ src → Completes (.push c r w) s fun s' =>
        let y := s'.chute n
        stays y ∧ y.pstat = x.pstat ∧ others s' ∧
        (host r → RequestAnswered c r 3 s' ∧ y.waiting = x.waiting) ∧
        (¬ host r → y.waiting = x.waiting ++ [⟨src, w⟩])) ∧
    (x.st = .disabled ∨ (x.st = .disabling ∧ (w.first = true ∨ ((x.opened = false ∨ x.src ≠ src) ∧ src ∉ x.discards))) →
      Completes (.push c r w) s fun s' => (s'.chute n).pstat = .refused ∧ stays (s'.chute n) ∧
        RequestAnswered c r 1 s' ∧
        others s')) ∧
  (∀ (c : ChuteId) (r : Requester) (s : State), chuteHeld s (c.toNat / 1024) = true → mayProduce s c.toNat r = true →
    RequestArrives s c r →
    let n := c.toNat
    let x := s.chute n
    x.st ≠ .disabled → x.opened = true → x.src = reqSource s r → Completes (.abort c r) s fun s' =>
      let y := s'.chute n
      y.opened = false ∧ y.wp = x.cp ∧ y.cp = x.cp ∧ y.wslot = 0 ∧ y.rp = x.rp ∧ y.fp = x.fp ∧ y.pstat = .aborted ∧
      y.vanished = x.vanished + 1 ∧ y.discards = x.discards ∧ RequestAnswered c r 0 s' ∧
      (∀ c', c' ≠ n → s'.chute c' = s.chute c') ∧
      OnlyChanges [.chutes, .doorbells, .resp, .host, .hostMem, .pmus, .lls, .free, .sys, .flt] s s')

/-- R124, R128, R131: a one-word packet whose line lies in a stack stores that line, and no other byte of memory, at
BASE plus 64 times the index WP named before it, with the word's LEN bytes and zeros after them. -/
def Obligations.ChutePacketStoresItsLine : Prop :=
  ∀ (c : ChuteId) (r : Requester) (w : ChuteWord) (s : State), chuteHeld s (c.toNat / 1024) = true →
    mayProduce s c.toNat r = true → RequestArrives s c r →
    let n := c.toNat
    let x := s.chute n
    let i := ((x.adv x.wp 1).toNat + 2 * x.size - 1) % x.size
    let at0 := (x.base.toNat + i * 64) / 64 * 64
    x.st = .enabled → x.opened = false → x.wp = x.cp → x.occ < x.size → x.xoff = false →
    WordReaches s n (reqSource s r) → firstWaits s x (reqSource s r) = false → x.stack = true → s.flt.arm = none →
      w.first = true → w.last = true →
    w.poison = false → x.base.toNat + i * 64 < memTop s → (s.hub (hubOf s (x.base.toNat + i * 64))).st = .online →
    Completes (.push c r w) s fun s' =>
      (∀ k, k < 64 → s'.byteAt (at0 + k) =
        (lineBytes (BitVec.ofNat 512 (w.data.toNat % 2 ^ (8 * (w.len.toNat + 1))))).getD k 0) ∧
      (∀ a, a < at0 ∨ at0 + 64 ≤ a → s'.byteAt a = s.byteAt a) ∧ s'.poisonAt (at0 / 64) = false ∧
      (s'.chute n).cp = x.adv x.wp 1 ∧ (s'.chute n).wp = x.adv x.wp 1 ∧ (s'.chute n).opened = false ∧
      (s'.chute n).pstat = (if reqSource s r ∈ x.flushes then .flushedNew else .ok) ∧
      (∀ c', c' ≠ n → s'.chute c' = s.chute c') ∧
      OnlyChanges [.chutes, .doorbells, .resp, .ms, .host, .hostMem, .pmus, .lls, .free, .flt, .sys] s s'

/-- R142, R144, R145, R152: FLUSH brings every pointer to FP and discards an open packet; INIT clears a DISABLED chute;
ENABLE and DISABLE change its state; a reserved opcode answers BAD_OP and changes nothing. -/
def Obligations.ChuteControlCommands : Prop :=
  ∀ (c : ChuteId) (r : Requester) (op : BitVec 4) (s : State), chuteHeld s (c.toNat / 1024) = true →
    mayControl s c.toNat r = true → RequestArrives s c r →
    let n := c.toNat
    let x := s.chute n
    let others := fun (s' : State) => ∀ c', c' ≠ n → s'.chute c' = s.chute c'
    let slot := [Part.chutes, .doorbells, .resp, .flt, .host]
    (x.st ≠ .disabled → flushBusy s n = false → Completes (.flush c r) s fun s' =>
      let y := s'.chute n
      y.wp = x.fp ∧ y.cp = x.fp ∧ y.rp = x.fp ∧ y.mp = x.fp ∧ y.fp = x.fp ∧ y.wslot = 0 ∧ y.opened = false ∧
      (x.opened = true → x.src ∈ y.discards ∧ x.src ∈ y.flushes) ∧
      (x.opened = false → y.discards = x.discards ∧ y.flushes = x.flushes) ∧ y.pstat = x.pstat ∧ y.st = x.st ∧
      RequestAnswered c r 0 s' ∧ others s' ∧
      OnlyChanges [.chutes, .doorbells, .resp, .host, .hostMem, .pmus, .lls, .free, .sys, .flt] s s') ∧
    (x.st = .disabled → Completes (.init c r) s fun s' =>
      let y := s'.chute n
      y.wp = 0 ∧ y.cp = 0 ∧ y.rp = 0 ∧ y.mp = 0 ∧ y.fp = 0 ∧ y.wslot = 0 ∧ y.vanished = 0 ∧ y.crossings = 0 ∧
      y.pstat = .ok ∧ y.hwmSeen = false ∧ y.lwmSeen = false ∧ y.discards = [] ∧ y.flushes = [] ∧ y.remoteSrc = 0 ∧
      y.st = .disabled ∧ y.depth = x.depth ∧ y.base = x.base ∧ y.high = x.high ∧ y.low = x.low ∧
      RequestAnswered c r 0 s' ∧ others s' ∧ OnlyChanges slot s s') ∧
    (x.st = .disabled → 2 ≤ x.depth.toNat → x.depth.toNat ≤ 20 → Completes (.enable c r) s fun s' =>
      s'.chute n = { x with st := .enabled } ∧ RequestAnswered c r 0 s' ∧ others s' ∧ OnlyChanges slot s s') ∧
    (x.st = .enabled → Completes (.disable c r) s fun s' =>
      s'.chute n = { x with st := .disabling } ∧ RequestAnswered c r 0 s' ∧ others s' ∧ OnlyChanges slot s s') ∧
    (Instr.wf (.chuteBadOp c r op) = true → Completes (.chuteBadOp c r op) s fun s' =>
      RequestAnswered c r 4 s' ∧ OnlyChanges [.doorbells, .resp] s s')

/-- R143: FLUSH is refused with BUSY while the consumer endpoint is a stall of a pen that is RUNNING or DRAINING: the
chute and every fault record stay, and only the requester sees it. -/
def Obligations.FlushBusyChangesNothing : Prop :=
  ∀ (c : ChuteId) (r : Requester) (s : State) (t : StallId) (q : PortId) (p : Nat),
    chuteHeld s (c.toNat / 1024) = true → mayControl s c.toNat r = true → RequestArrives s c r →
    (s.chute c.toNat).st ≠ .disabled → (s.chute c.toNat).consumer = .stall t q → penOfDie s (t.toNat / 64) = some p →
    (s.pen p).st = .running ∨ (s.pen p).st = .draining → Completes (.flush c r) s fun s' =>
      RequestAnswered c r 3 s' ∧ OnlyChanges [.doorbells, .resp] s s'

/-- R151, R152, R156: a command that its requester may not send, or that the chute's state does not allow, has no
effect but PSTAT REFUSED, and the doorbell slot of a host command reads REFUSED. -/
def Obligations.ChuteCommandsRefused : Prop :=
  ∀ (c : ChuteId) (r : Requester) (w : ChuteWord) (s : State), RequestArrives s c r →
    let n := c.toNat
    let x := s.chute n
    let refused := fun (i : Instr) => Completes i s fun s' =>
      s'.chute n = { x with pstat := .refused } ∧ (∀ c', c' ≠ n → s'.chute c' = s.chute c') ∧ RequestAnswered c r 1 s' ∧
      OnlyChanges [.chutes, .doorbells, .resp, .flt, .host] s s'
    (mayProduce s n r = false → refused (.push c r w) ∧ refused (.abort c r)) ∧
    (mayProduce s n r = true → (x.opened = false ∨ x.src ≠ reqSource s r) → refused (.abort c r)) ∧
    (mayConsume s n r = false → refused (.mark c r) ∧ refused (.rewind c r) ∧ refused (.release c r)) ∧
    (mayControl s n r = false ∨ x.st = .disabled → refused (.flush c r)) ∧
    (mayControl s n r = false ∨ x.st ≠ .disabled → refused (.init c r)) ∧
    (mayControl s n r = false ∨ x.st ≠ .disabled ∨ x.depth = 0 → refused (.enable c r)) ∧
    (mayControl s n r = false ∨ x.st ≠ .enabled → refused (.disable c r))

/-- R138, R139: a write to HIGH_WM or LOW_WM by the chute's function re-evaluates the marks: each crossing sets its SEEN
bit and counts, and XOFF follows; HIGH_WM 0 disables the marks. -/
def Obligations.WatermarkWriteCrossings : Prop :=
  ∀ (f : Func) (c : ChuteId) (high : Bool) (v : Reg32) (s : State), Served s f.toNat → s.tack.readyNow = true →
    f = 0 ∨ (s.chute c.toNat).func.toNat = f.toNat →
    let n := c.toNat
    let x := s.chute n
    let y := if high then { x with high := v.setWidth 21 } else { x with low := v.setWidth 21 }
    let up := !x.atHigh && y.atHigh
    let down := decide (y.high ≠ 0) && !x.atLow && y.atLow
    Completes (.watermarkWrite f c high v) s fun s' =>
      let z := s'.chute n
      z.high = y.high ∧ z.low = y.low ∧ z.xoff = y.nextXoff ∧ z.hwmSeen = (x.hwmSeen || up) ∧
      z.lwmSeen = (x.lwmSeen || down) ∧
      z.crossings = x.crossings + (if up then 1 else 0) + (if down then 1 else 0) ∧
      z.wp = x.wp ∧ z.cp = x.cp ∧ z.rp = x.rp ∧ z.mp = x.mp ∧ z.fp = x.fp ∧ s'.resp = .ok ∧
      (∀ c', c' ≠ n → s'.chute c' = s.chute c') ∧
      OnlyChanges [.chutes, .resp, .host, .hostMem, .pmus, .lls, .free, .sys, .flt] s s'

/-- R8, R145, R331: a DISABLING chute enters DISABLED once no packet is open and everything committed is read; its
limit aborts it, counting the lines it discards, a count that clears when read; 1s written to CHUTE_STATUS clear the
SEEN bits. A doorbell command waits behind an earlier BAR4 write of its function that waits for a hub. R129, R130,
R154: once no packet is open the waiting words are offered again in order, the first of them opening its packet; a
word that lacked space is placed once occupancy has fallen. -/
def Obligations.ChuteDisableAndWaitingWords : Prop :=
  (∀ (f : Func) (c : ChuteId) (d : Die) (v : Reg32) (s : State),
    let n := c.toNat
    let x := s.chute n
    let k := s.chuteDie (n / 1024)
    (x.st = .disabling → x.opened = false → x.rp = x.cp →
      exec (.chuteDisableComplete c) s = .next (s.setChute n { x with st := .disabled })) ∧
    (x.st = .disabling → Completes (.disableLimitExpiry c) s fun s' =>
      let y := s'.chute n
      y.st = .disabled ∧ y.opened = false ∧ y.cp = x.cp ∧ y.wp = (if x.opened then x.cp else x.wp) ∧ y.rp = x.cp ∧
      y.mp = x.cp ∧ y.fp = x.cp ∧ y.pstat = (if x.opened then .aborted else x.pstat) ∧
      (s'.chuteDie (n / 1024)).abortLines = satAdd 32 k.abortLines x.ready ∧
      (∀ c', c' ≠ n → s'.chute c' = s.chute c') ∧
      OnlyChanges [.chutes, .chuteDies, .host, .hostMem, .pmus, .lls, .free, .sys, .flt] s s') ∧
    (Served s 0 → s.tack.readyNow = true →
      exec (.chuteStatusWrite 0 c v) s = .next ((s.setChute n { x with
        hwmSeen := x.hwmSeen && !v.getLsbD 1, lwmSeen := x.lwmSeen && !v.getLsbD 2 }).answer .ok) ∧
      Completes (.chuteDieAbortLinesRead d) s fun s' =>
        s'.resp = .val ((s.chuteDie d.toNat).abortLines.setWidth 64) ∧ (s'.chuteDie d.toNat).abortLines = 0 ∧
        (s'.chuteDie d.toNat).limit = (s.chuteDie d.toNat).limit ∧ OnlyChanges [.chuteDies, .resp] s s') ∧
    (f ≠ 0 → Served s f.toNat → s.tack.readyNow = true →
      exec (.chuteStatusWrite f c v) s = .next (denyAccess s (0x04000000 + n * 0x40 + 0x30))) ∧
    (Served s f.toNat → s.tack.readyNow = true → f = 0 ∨ x.func.toNat = f.toNat → bellWaits s f = true →
      exec (.init c (.host f)) s = .next (State.answer { s with ms := { s.ms with
        bells := s.ms.bells ++ [{ f := f, c := c, op := 9, w := noWord }] } } .ok))) ∧
  (∀ (c : ChuteId) (s : State) (src : Source) (w : ChuteWord),
    let n := c.toNat
    let x := s.chute n
    chuteHeld s (n / 1024) = true → x.st = .enabled → x.xoff = false → w.last = false → w.poison = false →
    x.occ < x.size → x.cut ≠ some (src, s.time) → (src.dev.toNat ≠ myDev s → x.remoteOk = true) →
    chuteLineWaits s n (x.wp.toNat % x.size) = false →
    (x.opened = false → x.wp = x.cp → x.spaceWait = [] → x.waiting = [⟨src, w⟩] → w.first = true →
      firstWaits s x src = false →
      Completes (.waitingFirstOpen c) s fun s' =>
        let y := s'.chute n
        y.opened = true ∧ y.src = src ∧ y.waiting = [] ∧ y.words = 1 ∧ y.wp = x.adv x.wp 1 ∧ y.cp = x.cp ∧
        ∀ c', c' ≠ n → s'.chute c' = s.chute c') ∧
    (x.opened = true → x.src = src → src ∉ x.discards → x.wslot = 0 → x.words < 4096 → x.openLines < x.size →
      x.waiting = [] → x.spaceWait = [⟨src, w⟩] → w.first = false → Completes (.spaceWaitEnd c) s fun s' =>
        let y := s'.chute n
        y.opened = true ∧ y.spaceWait = [] ∧ y.words = x.words + 1 ∧ y.wp = x.adv x.wp 1 ∧ y.cp = x.cp ∧
        ∀ c', c' ≠ n → s'.chute c' = s.chute c'))

/-! ### Remote chutes -/

/-- R129, R140, R147, R151, R194: an OPEN at the head of a receive buffer opens its packet in a local chute that takes
it, is refused by one that does not, and waits while another source's packet is open. R127, R131, R132, R133, R147,
R148: the four words of a data line extend the packet its channel carries and store its line; CLOSE pads its last line
and commits it, and ABORT rewinds it; each leaves its receive buffer. -/
def Obligations.RemotePacketsOpenAndMove : Prop :=
  (∀ (l : LinkId) (vc : BitVec 3) (s : State) (it : RxItem) (rest : List RxItem),
    let v := vc.toNat
    let p := it.payload
    let chute := ctrlChute p
    let src := ctrlSource p
    let c := bitsAt chute.toNat 0 16
    let x := s.chute c
    let others := fun (s' : State) => ∀ c', c' ≠ c → s'.chute c' = s.chute c'
    oeWaits s (l.toNat / 8) = false → (s.ll l.toNat).rxQ v = it :: rest → it.typ = 2 → ctrlOp p = 1 →
    isLocal s chute = true → src.dev.toNat ≠ myDev s →
    (x.st = .enabled → x.remoteOk = true → chuteHeld s (c / 1024) = true → x.opened = false →
      firstWaits s x src = false → Completes (.remoteOpen l vc) s fun s' =>
        s'.chute c = { x with
          opened := true, src := src, words := 0, openPois := false, wslot := 0, lineBuf := 0,
          discards := x.discards.filter (· ≠ src), order := x.order.filter (· ≠ src),
          cut := x.cut.filter (·.1 ≠ src), rxLink := l,
          remoteSrc := x.remoteSrc ||| BitVec.ofNat 64 (2 ^ src.dev.toNat) } ∧
        (s'.ll l.toNat).rxQ v = rest ∧ rxPktAt s' l.toNat v = some { chute := chute, src := src } ∧ others s' ∧
        OnlyChanges [.chutes, .lls] s s') ∧
    (x.st ≠ .enabled ∨ x.remoteOk = false ∨ chuteHeld s (c / 1024) = false → Completes (.remoteOpen l vc) s fun s' =>
        s'.chute c = { x with pstat := .refused, order := x.order.filter (· ≠ src) } ∧ (s'.ll l.toNat).rxQ v = rest ∧
        rxPktAt s' l.toNat v = some { chute := chute, src := src, refused := true } ∧ others s') ∧
    (x.st = .enabled → x.remoteOk = true → chuteHeld s (c / 1024) = true → x.opened = true → x.src ≠ src →
      exec (.remoteOpen l vc) s = .next (s.setChute c { x with order := addNew x.order src }))) ∧
  (∀ (l : LinkId) (vc : BitVec 3) (s : State) (it : RxItem) (rest : List RxItem) (k : RxPkt),
    let v := vc.toNat
    let c := bitsAt k.chute.toNat 0 16
    let x := s.chute c
    let i := ((x.adv x.wp 1).toNat + 2 * x.size - 1) % x.size
    let at0 := (x.base.toNat + i * 64) / 64 * 64
    let last := (x.wp.toNat + 2 * x.size - 1) % x.size
    let at1 := (x.base.toNat + last * 64) / 64 * 64
    let n := ctrlArg it.payload % 64 + 1
    let others := fun (s' : State) => ∀ c', c' ≠ c → s'.chute c' = s.chute c'
    let reached := fun (k : Nat) => x.stack = true ∧ s.flt.arm = none ∧ x.base.toNat + k * 64 < memTop s ∧
      (s.hub (hubOf s (x.base.toNat + k * 64))).st = .online ∧ chuteLineWaits s c k = false
    oeWaits s (l.toNat / 8) = false → x.cut ≠ some (k.src, s.time) → (k.src.dev.toNat ≠ myDev s → x.remoteOk = true) →
    (s.ll l.toNat).rxQ v = it :: rest → rxPktAt s l.toNat v = some k → k.refused = false → k.fwd = none →
    x.st ≠ .disabled → chuteHeld s (c / 1024) = true → x.opened = true → x.src = k.src → k.src ∉ x.discards →
    (it.typ = 1 → x.wslot = 0 → x.words + 4 ≤ 4096 → x.openLines < x.size → x.occ < x.size → reached i →
      Completes (.remoteData l vc) s fun s' =>
        let y := s'.chute c
        y.words = x.words + 4 ∧ y.wslot = 0 ∧ y.wp = x.adv x.wp 1 ∧ y.cp = x.cp ∧ y.opened = true ∧
        (s'.ll l.toNat).rxQ v = rest ∧ others s' ∧
        (∀ j, j < 64 → s'.byteAt (at0 + j) = (lineBytes it.payload).getD j 0) ∧
        ∀ a, a < at0 ∨ at0 + 64 ≤ a → s'.byteAt a = s.byteAt a) ∧
    (it.typ = 2 → ctrlOp it.payload = 2 → x.openPois = false → bitAt (ctrlArg it.payload) 7 = false →
      (n = 64 ∨ x.openLines = 0 ∨ reached last) → Completes (.remoteClose l vc) s fun s' =>
        let y := s'.chute c
        y.cp = x.wp ∧ y.wp = x.wp ∧ y.opened = false ∧ y.rp = x.rp ∧ y.fp = x.fp ∧
        y.tags = tagLines x (ctrlArg it.payload % 64 + 1) ∧
        y.pstat = (if k.src ∈ x.flushes then .flushedNew else .ok) ∧ (s'.ll l.toNat).rxQ v = rest ∧
        rxPktAt s' l.toNat v = none ∧ others s' ∧
        (n = 64 ∨ x.openLines = 0 → s'.ms = s.ms) ∧
        (n < 64 → x.openLines ≠ 0 →
          (∀ j, j < 64 → s'.byteAt (at1 + j) = if j < n then (lineBytes x.lineBuf).getD j 0 else 0) ∧
          ∀ a, a < at1 ∨ at1 + 64 ≤ a → s'.byteAt a = s.byteAt a)) ∧
    (it.typ = 2 → ctrlOp it.payload = 3 → x.remoteOk = true → Completes (.remoteAbort l vc) s fun s' =>
        let y := s'.chute c
        y.wp = x.cp ∧ y.cp = x.cp ∧ y.opened = false ∧ y.pstat = .aborted ∧ y.vanished = x.vanished + 1 ∧
        y.rp = x.rp ∧ y.fp = x.fp ∧ (s'.ll l.toNat).rxQ v = rest ∧ rxPktAt s' l.toNat v = none ∧ others s' ∧
        OnlyChanges [.chutes, .lls, .host, .hostMem, .pmus, .free, .sys, .flt] s s'))

/-- R140, R149, R150: XOFF and XON stop and start this device's producers for a remote chute, STATUS reaches the
producer endpoint, and PURGED rewinds every open packet of the purging device. -/
def Obligations.RemoteMessagesTakeEffect : Prop :=
  ∀ (l : LinkId) (s : State) (it : RxItem) (rest : List RxItem),
    let p := it.payload
    let src := ctrlSource p
    oeWaits s (l.toNat / 8) = false → (s.ll l.toNat).rxQ 0 = it :: rest → it.typ = 2 → s.sys.forwards = [] →
    (ctrlOp p = 4 → Completes (.remoteXoff l 0) s fun s' =>
      remoteXoff s' (ctrlChute p).toNat = true ∧ (∀ a, a ≠ (ctrlChute p).toNat → remoteXoff s' a = remoteXoff s a) ∧
      (s'.ll l.toNat).rxQ 0 = rest ∧ OnlyChanges [.xoffRemote, .lls] s s') ∧
    (ctrlOp p = 5 → Completes (.remoteXon l 0) s fun s' =>
      remoteXoff s' (ctrlChute p).toNat = false ∧ (∀ a, a ≠ (ctrlChute p).toNat → remoteXoff s' a = remoteXoff s a) ∧
      (s'.ll l.toNat).rxQ 0 = rest ∧ OnlyChanges [.xoffRemote, .lls] s s') ∧
    (ctrlOp p = 6 → Completes (.remoteStatus l 0) s fun s' =>
      tabGet (fun _ => .ok) s'.epStat (epKey src) = pstatOf (ctrlArg p % 8) ∧
      (∀ k, k ≠ epKey src → tabGet (fun _ => PStat.ok) s'.epStat k = tabGet (fun _ => .ok) s.epStat k) ∧
      (s'.ll l.toNat).rxQ 0 = rest ∧ OnlyChanges [.epStat, .lls] s s') ∧
    (ctrlOp p = 7 → Completes (.remotePurged l 0) s fun s' =>
      (s'.ll l.toNat).rxQ 0 = rest ∧
      (∀ c, let x := s.chute c
        let y := s'.chute c
        y.rp = x.rp ∧ y.fp = x.fp ∧ y.cp = x.cp ∧
        if x.opened = true ∧ x.src.dev = src.dev then
          y.opened = false ∧ y.wp = x.cp ∧ y.pstat = .aborted ∧ y.vanished = x.vanished + 1 ∧ x.src ∈ y.discards
        else y.opened = x.opened ∧ y.wp = x.wp) ∧
      OnlyChanges [.chutes, .lls, .host, .hostMem, .pmus, .free, .sys, .flt] s s')

/-! ### Sinks and the prepass engine -/

/-- R62, R97, R102, R108: in its turn a SINK holds an MX scale line until its group ends, writes a data line at
DATA_OFFSET plus 64 times the lines of the pass so far, in the segment and pass of its route, and counts it; an
address outside the segment faults the stall. R97, R102, R128: when a pass's last line has reached memory the sink
commits a one-line packet of 4 bytes, tag 0xC3, whose bytes 0 to 3 are the passes completed, into its DONE_BIND chute,
and starts the next pass. -/
def Obligations.SinkWritesAndNotices : Prop :=
  (∀ (t : StallId) (port : PortId) (s : State) (r : Route) (m : StrLine) (rest : List StrLine),
    let n := t.toNat
    let key := 4 * n + port.toNat
    let k := sinkNow s n port.toNat
    let h := harnessOf s n
    let off := r.dataOff.toNat + 64 * k.lines
    outDst s n port.toNat = .sink r → k.notice = false → wipeComplete s = true → sinkTurn s t port = true →
    sinkServed s n r k = true →
    popFirst (fun (m : StrLine) => m.toSink && decide (m.t = t) && decide (m.port = port)) s.strq = some (m, rest) →
    (fmtMx (recOutFmt (s.stall n).record) = true → k.scale = none →
      Completes (.sinkLine t port) s fun s' => s'.sink key = { k with scale := some m.line, grpLines := 0 } ∧
        s'.strq = rest ∧ (∀ q, q ≠ key → s'.sink q = s.sink q) ∧ OnlyChanges [.strq, .sinks] s s') ∧
    (fmtMx (recOutFmt (s.stall n).record) = false → k.scale = none → s.flt.arm = none →
      ∀ a, resolveAt s h r.dst.toNat off 64 k.pass true = some (.mem a) → a % 64 = 0 → a < memTop s →
      (s.hub (hubOf s a)).st = .online → (m.line.poison = true → (s.hub (hubOf s a)).poisonedAt.length < 256) →
        Completes (.sinkLine t port) s fun s' =>
        s'.sink key = sinkCount k r ∧ s'.strq = rest ∧ (∀ q, q ≠ key → s'.sink q = s.sink q) ∧
        (∀ i, i < 64 → s'.byteAt (a + i) = (lineBytes m.line.data).getD i 0) ∧
        (∀ b, b < a ∨ a + 64 ≤ b → s'.byteAt b = s.byteAt b) ∧ s'.poisonAt (a / 64) = m.line.poison ∧
        OnlyChanges [.strq, .sinks, .ms, .pmus] s s') ∧
    (fmtMx (recOutFmt (s.stall n).record) = false → k.scale = none →
      (∀ a, resolveAt s h r.dst.toNat off 64 k.pass true ≠ some (.mem a)) → Completes (.sinkLine t port) s fun s' =>
        (s'.stall n).st = .fault ∧ s'.strq = rest ∧ s'.ms = s.ms ∧ ∀ q, s'.sink q = s.sink q)) ∧
  (∀ (t : StallId) (port : PortId) (s : State) (r : Route) (b : Binding) (p : Nat),
    let n := t.toNat
    let key := 4 * n + port.toNat
    let k := s.sink key
    let a := BitVec.ofNat 22 (bindAddr s p b)
    let c := bitsAt a.toNat 0 16
    let x := s.chute c
    let idx := x.cp.toNat % x.size
    let at0 := x.base.toNat + idx * 64
    let passes := fun (i : Nat) => BitVec.ofNat 8 ((k.pass + 1) / 256 ^ i)
    outDst s n port.toNat = .sink r → penOfDie s (n / 64) = some p → (harnessOf s n).binds[r.doneBind.toNat]? = some b →
    k.notice = true → k.offered = false → isLocal s a = true → chuteHeld s (c / 1024) = true → x.st = .enabled →
      x.xoff = false →
    x.opened = false → x.wp = x.cp → x.occ < x.size → x.spaceWait = [] → x.waiting = [] →
    firstWaits s x (stallSource s n port.toNat) = false → chuteLineWaits s c (x.wp.toNat % x.size) = false →
    Completes (.sinkPassNotice t port) s fun s' =>
      s'.sink key = { k with notice := false, lines := 0, scaleBytes := 0, pass := k.pass + 1 } ∧
      (let y := s'.chute c
       y.cp = x.adv x.wp 1 ∧ y.wp = x.adv x.wp 1 ∧ y.opened = false ∧
       tabGet (fun _ => 0) y.tags idx = 0xC3) ∧
      (x.stack = true → s.flt.arm = none → at0 < memTop s → (s.hub (hubOf s at0)).st = .online →
        ∀ i, i < 4 → s'.byteAt (at0 / 64 * 64 + i) = passes i) ∧
      (x.stack = false → ∀ i, i < 4 → s'.mangerByte x.mangerStall (x.mangerOff + idx * 64 + i) = passes i) ∧
      (∀ c', c' ≠ c → s'.chute c' = s.chute c') ∧ (∀ q, q ≠ key → s'.sink q = s.sink q))

/-- R33, R103, R105, R106: the engine runs the first ready plan of a RUNNING pen once: with SCOPE PEN (0) every
contributor gets the anchor of the greatest exponent bound, poisoned when a line read was, and the run count goes up
by 1; with SCOPE DEVICES (1) the run waits for its partners' maxima. R307, R310: the last partner's MAX header
completes the drove that its DROVE field names: every contributor gets the anchor of the greatest of the own maximum
and the partners'; a header of another phase, or of no partner, is only consumed. That each partner's drove chute is
the one with the same low 16 bits is the model's reading (log [26]). R106, R137: the prepass engine consumes a trigger
packet of a RUNNING pen, releases it, and counts it toward every plan that names the chute; a plan whose count reaches
TRIGGER_COUNT becomes ready and counts from 0 again. -/
def Obligations.PlansAndDroves : Prop :=
  (∀ (s : State) (p : PenId) (i : Nat) (rest : List (PenId × Nat)) (pl : Plan),
    let x := s.pen p.toNat
    let run := x.planRun i
    let r := readLines { s with ready := rest } (planLines x.cur pl run.runs)
    let e := planMax r.2 x.cur pl run.runs
    let pois := r.2.any (·.2.2)
    engineDrove s = none → wipeComplete s = true → s.ready = (p, i) :: rest → x.st = .running →
    x.cur.plans[i]? = some pl → (∀ a ∈ planLines x.cur pl run.runs, reqWaits s a 64 = false) →
    (pl.scope = 0 → Completes .planRun s fun s' =>
      s'.anchors = s.anchors ++ pl.contrib.map (fun c =>
        { t := x.cur.place.getD c 0, anchor := anchorOf e, poison := pois }) ∧
      ((s'.pen p.toNat).planRun i).runs = run.runs + 1 ∧ ((s'.pen p.toNat).planRun i).trig = run.trig ∧
      s'.ready = rest ∧ (∀ q, q ≠ p.toNat → s'.pen q = s.pen q) ∧
      OnlyChanges [.pens, .anchors, .ready, .ms, .flt, .host, .free, .pmus, .tack] s s') ∧
    (pl.scope = 1 → run.rx = [] → partners s ≠ [] → Completes .planRun s fun s' =>
      s'.anchors = s.anchors ∧ ((s'.pen p.toNat).planRun i).waiting = true ∧
      ((s'.pen p.toNat).planRun i).eMax = e ∧ ((s'.pen p.toNat).planRun i).runs = run.runs ∧ s'.ready = rest)) ∧
  (∀ (c : ChuteId) (s : State),
    let n := c.toNat
    let x := s.chute n
    let r := chuteRead s n
    let l := r.line.data
    let src := bitsAt l.toNat 16 6
    let e : Option Int := if bitAt l.toNat 144 then none else some (l.extractLsb' 128 16).toInt
    drovePlans s n ≠ [] → chuteWaits s n = false → x.ready ≠ 0 → x.st ≠ .disabled → tagLast r.line.tag = true →
    (∀ (p i : Nat) (pl : Plan),
      let pen := s.pen p
      let run := pen.planRun i
      headerPhase l = 4 → src ∈ partners s →
      (drovePlans s n).find? (fun q => decide (q.2.2.node.toNat = bitsAt l.toNat 0 16)) = some (p, i, pl) →
      run.waiting = true → run.rx = [] → run.due = [] → (partners s).length = 1 →
      l.extractLsb' 32 32 = BitVec.ofNat 32 run.runs → Completes (.droveMax c) s fun s' =>
        s'.anchors = s.anchors ++ pl.contrib.map (fun k =>
          { t := pen.cur.place.getD k 0, anchor := anchorOf (maxOpt run.eMax e),
            poison := run.pois || r.line.poison }) ∧
        ((s'.pen p).planRun i).runs = run.runs + 1 ∧ ((s'.pen p).planRun i).waiting = false ∧
        (s'.chute n).fp = x.adv x.rp 1) ∧
    (headerPhase l ≠ 4 ∨ src ∉ partners s → Completes (.droveMax c) s fun s' =>
        s'.anchors = s.anchors ∧ (s'.chute n).fp = x.adv x.rp 1 ∧ s'.pens = s.pens)) ∧
  (∀ (c : ChuteId) (s : State) (p : PenId),
    let n := c.toNat
    let x := s.chute n
    let pen := s.pen p.toNat
    let hit := fun (pl : Plan) => planTriggers s p.toNat pl n
    x.consumer = .engine p → pen.st = .running → x.ready ≠ 0 → x.st ≠ .disabled → chuteWaits s n = false →
    tagLast (tabGet (fun _ => 0) x.tags (x.rp.toNat % x.size)) = true →
    Completes (.engineTriggerPacket c) s fun s' =>
      (s'.chute n).rp = x.adv x.rp 1 ∧ (s'.chute n).fp = x.adv x.rp 1 ∧ (s'.chute n).mp = x.adv x.rp 1 ∧
      (∀ c', c' ≠ n → s'.chute c' = s.chute c') ∧
      (∀ i pl, pen.cur.plans[i]? = some pl →
        (s'.pen p.toNat).planRun i = if hit pl then
          { pen.planRun i with trig := if pl.trigCount.toNat ≤ (pen.planRun i).trig + 1 then 0
                                       else (pen.planRun i).trig + 1 }
        else pen.planRun i) ∧
      s'.ready = s.ready ++ ((pen.cur.plans.zipIdx.filter fun e =>
        hit e.1 && decide (e.1.trigCount.toNat ≤ (pen.planRun e.2).trig + 1)).map fun e => (p, e.2)) ∧
      (∀ q, q ≠ p.toNat → s'.pen q = s.pen q))

/-! ### Memory -/

/-- R164: MEM_TOP is N times 80 GiB; a 2 KiB granule g lies in the stack at position g mod N of the map order, at
stack-local address (g div N) × 2,048 plus the offset; every device address below MEM_TOP has one place and every
place one address. -/
def Obligations.AddressMap : Prop :=
  ∀ s : State,
    memTop s = stackCount s * (80 * 2 ^ 30) ∧ (stackCount s = 24 → memTop s = 0x1E000000000) ∧
    (∀ a, a < memTop s →
      (curOrder s)[a / 2048 % stackCount s]? = some (hubOf s a) ∧
      stackLocal s a = a / 2048 / stackCount s * 2048 + a % 2048 ∧
      deviceAddr s (hubOf s a) (stackLocal s a) = a) ∧
    (∀ h loc, h ∈ curOrder s → loc < 80 * 2 ^ 30 →
      deviceAddr s h loc < memTop s ∧ hubOf s (deviceAddr s h loc) = h ∧ stackLocal s (deviceAddr s h loc) = loc)

/-- R161, R166, R172, R174, R318, R323, R326: a read of a line waits for a hub that is being replaced; at its hub it
finds no error, one symbol in error, two or more, the POISON tag, a LOST stack or no stack, and answers, tags, counts
and reports as the table gives. BAR4 and CXL.mem reads give the bytes stored, or an unsupported request outside the
window or the map; that a BAR4 access which straddles its limit is refused whole, with one record, is the model's choice
(log [46]). -/
def Obligations.MemReadOutcomes : Prop :=
  ∀ (a : Addr) (errs : Nat) (s : State), wipeComplete s = true →
    let k := a.toNat / 64
    let reached := reqWaits s (k * 64) 64 = false
    let h := hubOf s (k * 64)
    let x := s.hub h
    let line := lineBytes (storedLine s (k * 64))
    let sound := popCount (s.injAt k).toNat 3 = 0
    (¬ reached → exec (.memRead a errs) s = .next { s with ms := { s.ms with
      waiting := s.ms.waiting ++ [.read (k * 64) 64 errs] } }) ∧
    (reached → k * 64 < memTop s → x.st = .online →
      (s.poisonAt k = true → Completes (.memRead a errs) s fun s' =>
        s'.resp = .data line true ∧ OnlyChanges [.pmus, .resp] s s') ∧
      (s.poisonAt k = false → errs = 0 → sound → Completes (.memRead a errs) s fun s' =>
        s'.resp = .data line false ∧ OnlyChanges [.pmus, .resp] s s') ∧
      (s.poisonAt k = false → errs = 1 → sound → Completes (.memRead a errs) s fun s' =>
        s'.resp = .data line false ∧ (s'.hub h).ce = satAdd 32 x.ce 1 ∧ k ∈ (s'.hub h).wb ∧
        s'.ms.mem = s.ms.mem ∧ s'.ms.poison = s.ms.poison ∧ s'.level (levelKey 0 (srcHub h)) =
          (if (s.bucket 0).threshold.toNat ≤ s.level (levelKey 0 (srcHub h)) + 1 then 0
           else s.level (levelKey 0 (srcHub h)) + 1) ∧
        OnlyChanges [.ms, .flt, .host, .pmus, .resp] s s') ∧
      (s.poisonAt k = false → 2 ≤ errs → sound → Completes (.memRead a errs) s fun s' =>
        (∃ bs, s'.resp = .data bs true) ∧ s'.poisonAt k = true ∧ (∀ j, j ≠ k → s'.poisonAt j = s.poisonAt j) ∧
        (s'.hub h).uc = satAdd 32 x.uc 1 ∧ (s.pwr.saving ≤ 1 → (s'.frec (srcHub h)).valid = true) ∧
        (∀ b, b / 64 ≠ k → s'.byteAt b = s.byteAt b) ∧
        OnlyChanges [.ms, .free, .flt, .host, .pmus, .tack, .flash, .resp] s s')) ∧
    (reached → k * 64 < memTop s → x.st = .lost → Completes (.memRead a errs) s fun s' =>
        (∃ bs, s'.resp = .data bs true) ∧ OnlyChanges [.free, .resp] s s') ∧
    (reached → memTop s ≤ k * 64 → Completes (.memRead a errs) s fun s' =>
        (∃ bs, s'.resp = .data bs true) ∧ (x.st ≠ .lost → Recorded (srcHub h) 0x303 s s') ∧
        OnlyChanges [.free, .flt, .host, .resp] s s') ∧
    (∀ (f : Func) (off : BitVec 64) (len : Nat), Served s f.toNat →
      let b := bar4Addr s f.toNat off.toNat
      let top := max b (memTop s)
      (off.toNat + len ≤ bar4Limit s f.toNat → b + len ≤ memTop s →
        (reqWaits s b len = false → PlainSpan s b len → Completes (.bar4Read f off len) s fun s' =>
          s'.resp = .data ((List.range len).map fun i => s.byteAt (b + i)) false ∧ OnlyChanges [.pmus, .resp] s s') ∧
        (reqWaits s b len = true → Completes (.bar4Read f off len) s fun s' =>
          s'.ms = { s.ms with waiting := s.ms.waiting ++ [.read b len 0] } ∧ OnlyChanges [.ms, .pmus] s s')) ∧
      (bar4Limit s f.toNat < off.toNat + len → b + len ≤ memTop s →
        exec (.bar4Read f off len) s = .next (s.answer .ur)) ∧
      (memTop s < b + len → Completes (.bar4Read f off len) s fun s' => s'.resp = .ur ∧
        ((s.hub (hubOf s top)).st ≠ .lost → Recorded (srcHub (hubOf s top)) 0x303 s s') ∧
        OnlyChanges [.flt, .host, .resp] s s')) ∧
    (s.host.linkUp = true → s.host.cxl = true →
      (k * 64 + 64 ≤ memTop s → reached → PlainSpan s (k * 64) 64 → Completes (.cxlMemRead a) s fun s' =>
        s'.resp = .data ((List.range 64).map fun i => s.byteAt (k * 64 + i)) false ∧ OnlyChanges [.pmus, .resp] s s') ∧
      (memTop s ≤ a.toNat → Completes (.cxlMemRead a) s fun s' => s'.resp = .ur ∧
        ((s.hub (hubOf s a.toNat)).st ≠ .lost → Recorded (srcHub (hubOf s a.toNat)) 0x303 s s') ∧
        OnlyChanges [.flt, .host, .resp] s s'))

/-- R161, R162, R170, R172, R318, R326: a full-line write stores its 64 bytes and its tag, a newly poisoned line
counts; bytes within a line are merged and a POISON tag is kept; a LOST stack discards a write; a corrected line is
written back as it reads; BAR4 and CXL.mem writes store their bytes. No other byte changes. That a BAR4 write
which straddles its limit is refused whole is the model's choice (log [46]). -/
def Obligations.MemWrites : Prop :=
  ∀ (a : Addr) (data : Line) (bs : List Byte) (p : Bool) (h : Hub) (s : State),
    let k := a.toNat / 64
    let up := wipeComplete s = true ∧ s.flt.arm = none ∧ k * 64 < memTop s
    let g := hubOf s (k * 64)
    (up → reqWaits s (k * 64) 64 = false → (s.hub g).st = .online →
      Completes (.memWrite a data p) s fun s' =>
        (∀ i, i < 64 → s'.byteAt (k * 64 + i) = (lineBytes data).getD i 0) ∧ s'.poisonAt k = p ∧ s'.injAt k = 0 ∧
        (∀ b, b / 64 ≠ k → s'.byteAt b = s.byteAt b) ∧ (∀ j, j ≠ k → s'.poisonAt j = s.poisonAt j) ∧ s'.resp = .ok ∧
        (s'.hub g).uc = (if p = true ∧ s.poisonAt k = false then satAdd 32 (s.hub g).uc 1 else (s.hub g).uc) ∧
        OnlyChanges (if p then [.ms, .pmus, .tack, .flash, .flt, .host, .resp] else [.ms, .pmus, .resp]) s s') ∧
    (up → reqWaits s a.toNat bs.length = false → (s.hub (hubOf s a.toNat)).st = .online → bs ≠ [] → bs.length < 64 →
      a.toNat % 64 + bs.length ≤ 64 → popCount (s.injAt k).toNat 3 = 0 →
      Completes (.readModifyWrite a bs p 0) s fun s' =>
        (∀ i, i < bs.length → s'.byteAt (a.toNat + i) = bs.getD i 0) ∧
        (∀ b, b < a.toNat ∨ a.toNat + bs.length ≤ b → s'.byteAt b = s.byteAt b) ∧
        s'.poisonAt k = (p || s.poisonAt k) ∧ (∀ j, j ≠ k → s'.poisonAt j = s.poisonAt j) ∧ s'.resp = .ok ∧
        (s.poisonAt k = true → p = false → s.pwr.saving ≤ 1 →
          (s'.frec (srcHub (hubOf s a.toNat))).lastCause = 0x302) ∧
        OnlyChanges [.ms, .pmus, .tack, .flash, .flt, .host, .resp] s s') ∧
    (wipeComplete s = true → reqWaits s (k * 64) 64 = false → k * 64 < memTop s →
      (s.hub (hubOf s (k * 64))).st = .lost →
      exec (.memWrite a data p) s = .next (s.answer .ok)) ∧
    (∀ n rest, (s.hub h.val).wb = n :: rest → (s.hub h.val).st = .online → s.flt.arm = none →
      hubOf s (n * 64) = h.val → Completes (.memCeWriteback h) s fun s' =>
        (s'.hub h.val).wb = (n :: rest).filter (· ≠ n) ∧ s'.injAt n = 0 ∧ (∀ b, s'.byteAt b = s.byteAt b) ∧
        (∀ j, s'.poisonAt j = s.poisonAt j) ∧ OnlyChanges [.ms] s s') ∧
    (∀ (f : Func) (off : BitVec 64), wipeComplete s = true → Served s f.toNat → bs ≠ [] →
      let b := bar4Addr s f.toNat off.toNat
      (off.toNat + bs.length ≤ bar4Limit s f.toNat → reqWaits s b bs.length = false → PlainSpan s b bs.length →
        Completes (.bar4Write f off bs) s fun s' =>
          StoresBytes s s' b bs ∧ s'.resp = .ok ∧ OnlyChanges [.ms, .pmus, .resp] s s') ∧
      (off.toNat + bs.length ≤ bar4Limit s f.toNat → b + bs.length ≤ memTop s → reqWaits s b bs.length = true →
        Completes (.bar4Write f off bs) s fun s' =>
          s'.ms = { s.ms with waiting := s.ms.waiting ++ [.write b bs false 0 (some f)] } ∧
          OnlyChanges [.ms, .pmus] s s') ∧
      (bar4Limit s f.toNat < off.toNat + bs.length → b + bs.length ≤ memTop s →
        exec (.bar4Write f off bs) s = .next (s.answer .ur))) ∧
    (up → s.host.linkUp = true → s.host.cxl = true → reqWaits s (k * 64) 64 = false →
      (s.hub g).st = .online → a.toNat < memTop s → Completes (.cxlMemWrite a data p) s fun s' =>
        StoresBytes s s' (k * 64) (lineBytes data) ∧ s'.poisonAt k = p ∧ s'.resp = .ok ∧
        OnlyChanges [.ms, .pmus, .tack, .flash, .flt, .host, .resp] s s')

/-- R8, R168 to R173: a refresh takes the rate its band set; scrub reads the next stack-local line in ascending order; a
stack is declared LOST and recorded; MH_CTRL and the counts that clear when read. -/
def Obligations.HubUpkeep : Prop :=
  ∀ (h : Hub) (v : Reg32) (s : State),
    let n := h.val
    let x := s.hub n
    let others := fun (s' : State) => ∀ g, g ≠ n → s'.hub g = s.hub g
    (x.st = .online → Completes (.refresh h) s fun s' =>
      s'.hub n = { x with refresh := x.nextRefresh } ∧ others s' ∧ OnlyChanges [.ms, .pmus] s s') ∧
    (x.st = .online → exec (.refreshRateChange h) s = .next (s.setHub n { x with
      nextRefresh := if (s.sensor (230 + n)).st = 1 then 2
        else if x.band.toNat ≤ 2 then 0 else if x.band.toNat = 3 then 1 else 2 })) ∧
    (∀ errs, x.scrubEn = true → x.st = .online → wipeComplete s = true → Completes (.scrubRead h errs) s fun s' =>
      (s'.hub n).scrubPos = BitVec.ofNat 64
        (if 80 * 2 ^ 30 ≤ x.scrubPos.toNat + 64 then 0 else x.scrubPos.toNat + 64) ∧
      (errs = 0 → popCount (s.injAt (deviceAddr s n x.scrubPos.toNat / 64)).toNat 3 = 0 →
        s'.ms.mem = s.ms.mem ∧ s'.ms.poison = s.ms.poison ∧ OnlyChanges [.ms, .pmus] s s')) ∧
    (∀ why, x.st = .online → (why = .poisonRate → 256 < x.poisonedAt.length) →
      (why = .unreachable → hubUnreachable s n = true) → s.ms.waiting = [] → s.ms.bells = [] →
      Completes (.stackLost h why) s fun s' =>
        s'.hub n = { x with st := .lost } ∧ others s' ∧ n ∈ s'.tack.cal.lostStacks ∧ s'.ms.mem = s.ms.mem ∧
        (s.pwr.saving ≤ 1 → (s'.frec (srcHub n)).lastCause = 0x304) ∧
        OnlyChanges [.ms, .tack, .flash, .flt, .host] s s') ∧
    (PfOpen s →
      exec (.mhCtrlWrite h v) s = .next ((s.setHub n { x with
        scrubEn := v.getLsbD 0, scrubHours := BitVec.ofNat 8 (max 1 (min 168 (bitsAt v.toNat 1 8))),
        readmit := x.readmit || v.getLsbD 9 }).answer .ok) ∧
      exec (.mhCeCountRead h) s = .next ((s.setHub n { x with ce := 0 }).answer (.val (x.ce.setWidth 64))) ∧
      exec (.mhUcCountRead h) s = .next ((s.setHub n { x with uc := 0 }).answer (.val (x.uc.setWidth 64))))

/-! ### The mesh and die replacement -/

/-- R180 to R183, R193: a packet joins the router of the die that injects it, once its destination has room; the
oldest such packet at a router that has the turn moves over its table's edge and is delivered at its destination; one
that a CTL packet keeps from the edge stays; one without room at its destination, or behind one of its die and class
that waits, waits to be injected (the model's choice, log [62]); an idle router takes the tables wanted; a packet for
the die itself is delivered at once. R187 to R189, R394, R411: an adapter retry adds to its module's bucket and, at
the threshold, begins a retrain, which ends with lane repairs in either direction, at half width, or FAILED, at both
ends of the edge; a fifth repair in a direction makes the module half width. That one record marks both ends is the
model's choice (log [31]). -/
def Obligations.MeshMovesAndRetrains : Prop :=
  (∀ (d dst : Die) (cls : MeshClass) (w : Line) (s : State),
    let pn := s.pnet
    let f := fun (p : MeshPkt) => decide (p.here = d) && decide (p.cls = cls) && decide (p.dst = dst) &&
      decide (p.payload = w)
    let b := tabAt s d.toNat (clsCode cls)
    let own : MeshPkt := { cls := cls, src := d, dst := dst, here := d, payload := w }
    let free := injectBehind s own = false ∧ roomReserved s cls dst = true
    (pn.packets.find? f = none → pn.switching = false → b.held.getLsbD d.toNat = true →
      b.held.getLsbD dst.toNat = true → inReplacement s d.toNat = false →
      (d = dst → free → Completes (.meshPacket d cls dst w) s fun s' =>
        s'.resp = .data (lineBytes w) false ∧ OnlyChanges [.pmus, .resp] s s') ∧
      (∀ n, d ≠ dst → b.hop d.toNat dst.toNat d.toNat = some n → edgeOpen s d.toNat (dirTo d.toNat n) = true →
        (free → Completes (.meshPacket d cls dst w) s fun s' =>
          s'.pnet = { pn with packets := pn.packets ++ [own] } ∧ OnlyChanges [.pnet, .pmus] s s') ∧
        (¬ free → exec (.meshPacket d cls dst w) s
          = .next { s with pnet := { pn with injWait := pn.injWait ++ [own] } }))) ∧
    (∀ p n, pn.packets.find? f = some p → s.flt.arm = none → b.hop p.src.toNat dst.toNat d.toNat = some n →
      edgeOpen s d.toNat (dirTo d.toNat n) = true →
      (hasTurn s d.toNat n p = true →
      (n = dst.toNat → Completes (.meshPacket d cls dst w) s fun s' =>
        s'.resp = .data (lineBytes w) false ∧ s'.pnet.packets.length + 1 = pn.packets.length ∧
        OnlyChanges [.pnet, .resp] s s') ∧
      (n ≠ dst.toNat → Completes (.meshPacket d cls dst w) s fun s' =>
        s'.pnet.packets = editPacket f (fun q => some { q with here := BitVec.ofNat 6 n }) pn.packets ∧
        OnlyChanges [.pnet] s s')) ∧
      (cls ≠ .ctl → ctlFirst s d.toNat n = true → exec (.meshPacket d cls dst w) s = .next s)) ∧
    (pn.switching = true → pn.want.held.getLsbD d.toNat = true → classIdle s d.toNat cls = true →
      (∀ e ∈ pn.retraining, 8 ≤ e.2) → Completes (.routerTableSwitch d cls) s fun s' =>
        tabAt s' d.toNat (clsCode cls) = pn.want ∧
        (∀ d' c, 4 * d' + c ≠ 4 * d.toNat + clsCode cls → tabAt s' d' c = tabAt s d' c) ∧
        s'.pnet.switching = !switched s' ∧ OnlyChanges [.pnet] s s')) ∧
  (∀ (p : Site) (m : Fin 18) (s : State),
    let key := levelKey 6 (18 * p.val + m.val)
    let f := farLanes s p.val m.val
    let ends := fun (s' : State) (g : SiteS → BitVec 18) => (g (s'.site p.val)).getLsbD m.val = true ∧
      ∀ e, farEnd s p.val m.val = some e → (g (s'.site e.1)).getLsbD e.2 = true
    let here := lanesUsed s p.val m.val
    let there := lanesUsed s f.1 f.2
    (moduleUsed s p.val m.val = true → (p.val, m.val) ∉ s.pnet.retraining → Completes (.adapterRetry p m) s fun s' =>
      (s'.level key = if (s.bucket 6).threshold.toNat ≤ s.level key + 1 then 0 else s.level key + 1) ∧
      s'.pnet = { s.pnet with retraining := if (s.bucket 6).threshold.toNat ≤ s.level key + 1
        then s.pnet.retraining ++ [(p.val, m.val)] else s.pnet.retraining } ∧
      OnlyChanges [.pnet, .flt, .pmus] s s') ∧
    ((p.val, m.val) ∈ s.pnet.retraining →
      (∀ n k, (s.site p.val).modHalf.getLsbD m.val = false →
        (here + n ≤ 4 → there + k ≤ 4 → Completes (.moduleRetrainDone p m (.repaired n k)) s fun s' =>
          (p.val, m.val) ∉ s'.pnet.retraining ∧ lanesUsed s' p.val m.val = here + n ∧
          lanesUsed s' f.1 f.2 = there + k ∧
          (s'.site p.val).repairs.toNat
            = min 255 ((s.site p.val).repairs.toNat + n + if f.1 = p.val then k else 0) ∧
          (s'.site p.val).modHalf = (s.site p.val).modHalf ∧ OnlyChanges [.pnet, .flt, .host] s s') ∧
        ((0 < n ∧ 4 < here + n) ∨ (0 < k ∧ 4 < there + k) →
          Completes (.moduleRetrainDone p m (.repaired n k)) s fun s' =>
          (p.val, m.val) ∉ s'.pnet.retraining ∧ ends s' (·.modHalf))) ∧
      ((s.site p.val).modHalf.getLsbD m.val = false → Completes (.moduleRetrainDone p m .half) s fun s' =>
        (p.val, m.val) ∉ s'.pnet.retraining ∧ ends s' (·.modHalf)) ∧
      Completes (.moduleRetrainDone p m .failed) s fun s' =>
        (p.val, m.val) ∉ s'.pnet.retraining ∧ ends s' (·.modFailed)))

/-- R185, R186, R191, R193, R195: PNET_CMD RETIRE queues a die in service and READMIT marks a FENCED site; another
target answers STATE (the model's choice, log [31]) and a reserved opcode BAD_OP; a capability word is recorded, and a
die in service, or activating at boot, that needs newer firmware is FENCED and queued. -/
def Obligations.PanelCommands : Prop :=
  ∀ (t : BitVec 7) (op : BitVec 4) (p : Site) (cap : BitVec 64) (s : State),
    let d := t.toNat
    let r := s.siteOf d
    let busy := fun (q : Nat) => (s.site q).st = .active ∨ (s.site q).st = .degraded
    let result := fun (c : BitVec 4) => State.answer { s with pnet := { s.pnet with result := c } } .ok
    (PfOpen s →
      (d < 64 → s.held d = true → busy r → Completes (.retire t) s fun s' =>
        s'.site r = { s.site r with st := .retiring } ∧ (∀ q, q ≠ r → s'.site q = s.site q) ∧
        s'.pnet.queue = addNew s.pnet.queue (BitVec.ofNat 6 d) ∧ s'.pnet.result = 0 ∧
        OnlyChanges [.pnet, .resp] s s') ∧
      (64 ≤ d ∨ s.held d = false ∨ ¬ busy r → exec (.retire t) s = .next (result 2)) ∧
      (d < 72 → (s.site d).st = .fenced → Completes (.readmit t) s fun s' =>
        s'.site d = { s.site d with readmit := true } ∧ (∀ q, q ≠ d → s'.site q = s.site q) ∧ s'.pnet.result = 0 ∧
        OnlyChanges [.pnet, .resp] s s') ∧
      (72 ≤ d ∨ (s.site d).st ≠ .fenced → exec (.readmit t) s = .next (result 2)) ∧
      (op ≠ 1 → op ≠ 2 → exec (.pnetBadOp op) s = .next (result 4))) ∧
    ((¬ busy p.val ∧ (s.site p.val).st ≠ .activating) ∨ bitsAt cap.toNat 32 32 ≤ s.tack.fw.toNat →
      exec (.capabilityWord p cap) s
        = .next (s.setSite p.val { s.site p.val with cap := cap, capKnown := true, rev := cap.setWidth 4 })) ∧
    (∀ k, busy p.val ∨ (s.site p.val).st = .activating → s.tack.fw.toNat < bitsAt cap.toNat 32 32 →
      s.dieAt p.val = some k →
      Completes (.capabilityWord p cap) s fun s' =>
        (s'.site p.val).st = .fenced ∧ (s'.site p.val).powered = false ∧ s'.held k = false ∧
        BitVec.ofNat 6 k ∈ s'.pnet.queue ∧ p.val ∈ s'.tack.cal.fenced)

/-- R12, R191 to R193: a replacement takes the first queued die, waits for the tables, fences the die's site and
empties its number, activates the next spare, trains and checks it, wipes it, waits for the tables again and gives it
the number; a spare that fails a step is FENCED and the next is tried. Which RESULT the end of the spares reads as,
NO_SPARE at once or ACT_FAILED after a spare that failed, is the model's choice (log [31]). -/
def Obligations.ReplacementSteps : Prop :=
  ∀ (ok : Bool) (half : BitVec 18) (reps : List (Fin 18 × Nat × Nat)) (cap : BitVec 64) (s : State),
    let done := Instr.replacementStepDone ok half reps cap
    (∀ d rest, s.pnet.repl = none → s.pnet.queue = d :: rest → Completes .replacementStart s fun s' =>
      ∃ r, s'.pnet.repl = some r ∧ r.die = d ∧ r.site.val = s.siteOf d.toNat % 72 ∧ r.step = 1 ∧
        rest <+: s'.pnet.queue) ∧
    (∀ r, s.pnet.repl = some r →
      (r.step = 1 → s.pnet.switching = false → Completes done s fun s' =>
        s'.pnet.repl = some { r with step := 2 } ∧ OnlyChanges [.pnet] s s') ∧
      (r.step = 2 → (s.site r.site.val).st ≠ .spare → Completes done s fun s' =>
        s'.held r.die.toNat = false ∧ (s'.site r.site.val).st = .fenced ∧ (s'.site r.site.val).powered = false ∧
        r.site.val ∈ s'.tack.cal.fenced ∧
        match nextSpare s r with
        | some q => s'.pnet.repl = some { r with step := 3, spare := some q } ∧ (s'.site q).st = .activating
        | none => s'.pnet.repl = none ∧ s'.pnet.result = 1) ∧
      (∀ q, r.spare = some q →
        (r.step = 3 → (s.site q).testing = false → Completes done s fun s' =>
          s'.pnet.repl = some { r with step := 4 } ∧ OnlyChanges [.pnet] s s') ∧
        (r.step = 4 → ok = true → Completes done s fun s' =>
          s'.pnet.repl = some { r with step := 5 } ∧ (s'.site q).powered = true) ∧
        (r.step = 5 → ok = true → Completes done s fun s' =>
          let h := trainedHalf r.die.toNat half reps
          s'.pnet.repl = some { r with step := 6, half := h } ∧ (s'.site q).modHalf = h ∧
          ∀ m : Fin 18, modulePlaced r.die.toNat m.val = false → h.getLsbD m.val = false) ∧
        (r.step = 6 → ok = true → capFits s cap = true → Completes done s fun s' =>
          s'.pnet.repl = some { r with step := 7 } ∧ (s'.site q).cap = cap ∧ OnlyChanges [.pnet] s s') ∧
        (r.step = 7 → ok = true → Completes done s fun s' =>
          s'.pnet.repl = some { r with step := 8 } ∧
          ∀ i off, i < 64 → off < 2 ^ 18 → s'.mangerByte (64 * r.die.toNat + i) off = 0) ∧
        (r.step = 8 → s.pnet.switching = false → Completes done s fun s' =>
          s'.pnet.repl = some { r with step := 9 } ∧ OnlyChanges [.pnet] s s') ∧
        (r.step = 9 → s.ms.waiting = [] → s.ms.bells = [] → Completes done s fun s' =>
          s'.pnet.repl = some { r with step := 10 } ∧ s'.held r.die.toNat = true ∧
          s'.siteOf r.die.toNat = (BitVec.ofNat 7 q).toNat ∧
          ∀ i, i < 1024 → s'.chute (1024 * r.die.toNat + i) = {}) ∧
        (r.step = 10 → Completes done s fun s' =>
          s'.pnet.repl = none ∧ s'.pnet.result = 0 ∧ OnlyChanges [.pnet] s s') ∧
        (r.step = 4 ∨ r.step = 5 ∨ r.step = 7 → ok = false → Completes done s fun s' =>
          (s'.site q).st = .fenced ∧ (s'.site q).powered = false ∧
          match s'.pnet.repl with
          | some r' => r'.step = 3 ∧ q ∈ r'.tried ∧ r'.spare ≠ some q
          | none => s'.pnet.result = 3)))

/-! ### The optical engines -/

/-- R8, R214, R220, R224, R225: OE_CMD SPARE_LASER queues a sparing and RELOCK starts a search; a target in recovery
answers STATE and a reserved opcode BAD_OP; 1s clear AGE_WARN and MISLOCK. That a target above 15 answers STATE is the
model's choice (log [33]), and so is the last first code of a search (log [65]). -/
def Obligations.OeCommandsAndRegisters : Prop :=
  ∀ (e : Oe) (t : BitVec 8) (r : RingId) (n : LaserId) (op : BitVec 4) (v : Reg32) (s : State), PfOpen s →
    let k := e.toNat
    let o := s.oe k
    let x := o.ring r.toNat
    let result := fun (c : BitVec 3) => (s.setOe k { o with spResult := c }).answer .ok
    let waits := fun (w : BitVec 4) => (o.spStep ≠ 0 ∧ o.spWave = w) ∨ w ∈ o.spQueue
    let others := fun (s' : State) => ∀ j, j ≠ k → s'.oe j = s.oe j
    (t.toNat ≤ 15 → ¬ waits (t.setWidth 4) → Completes (.spareLaser e t) s fun s' =>
      s'.oe k = { o with spQueue := o.spQueue ++ [t.setWidth 4], spResult := 0 } ∧ others s' ∧ s'.resp = .ok ∧
      OnlyChanges [.oes, .resp] s s') ∧
    (15 < t.toNat ∨ waits (t.setWidth 4) → exec (.spareLaser e t) s = .next (result 4)) ∧
    let first := max 3277 (bandStart o r.toNat - 3279)
    (x.recStep = 0 → x.st ≠ .search → 58982 < first → Completes (.relock e r) s fun s' =>
      ((s'.oe k).ring r.toNat).st = .failed ∧ (s'.oe k).spResult = 0 ∧ Recorded (srcRing k r.toNat) 0x602 s s' ∧
      ∀ q, q ≠ r.toNat → (s'.oe k).ring q = o.ring q) ∧
    (x.recStep = 0 → x.st ≠ .search → first ≤ 58982 → Completes (.relock e r) s fun s' =>
      ((s'.oe k).ring r.toNat).st = .search ∧ ((s'.oe k).ring r.toNat).bad = none ∧
      ((s'.oe k).ring r.toNat).heater = BitVec.ofNat 16 first ∧
      (s'.oe k).spResult = 0 ∧ (∀ q, q ≠ r.toNat → (s'.oe k).ring q = o.ring q) ∧ others s' ∧
      OnlyChanges (if x.rail then [.oes, .pmus, .flt, .resp] else [.oes, .pmus, .resp]) s s') ∧
    (0 < x.recStep ∨ x.st = .search → exec (.relock e r) s = .next (result 4)) ∧
    (op.toNat ≠ 1 → op.toNat ≠ 2 → exec (.oeBadOp e op) s = .next (result 3)) ∧
    exec (.oeLaserStatWrite e n v) s = .next ((s.setOe k (o.setLaser n.toNat { o.laser n.toNat with
      ageWarn := (o.laser n.toNat).ageWarn && !v.getLsbD 13 })).answer .ok) ∧
    exec (.oeRingWrite e r v) s = .next ((s.setOe k (o.setRing r.toNat { x with
      mislock := x.mislock && !v.getLsbD 21 })).answer .ok)

/-- R201 to R203, R214 to R217: a warming laser becomes READY or FAILED, which flash records; the heater and bias
loops; an ACTIVE laser that loses its lock is lost; AGE_WARN at 85 % and a sparing at 95 %; an ACTIVE laser that loses
light is FAILED and its sparing goes on at step 2, or waits behind another; a sparing starts with the first queued
wavelength and goes on step by step. That a laser's state is stored in flash as soon as it changes is the model's choice
(log [65]). -/
def Obligations.LaserEvents : Prop :=
  ∀ (e : Oe) (n : LaserId) (s : State),
    let k := e.toNat
    let m := n.toNat
    let o := s.oe k
    let x := o.laser m
    let others := fun (s' : State) => ∀ j, j ≠ k → s'.oe j = s.oe j
    let lasers := fun (s' : State) => ∀ j, j ≠ m → (s'.oe k).laser j = o.laser j
    let primaries := fun (s' : State) => ∀ j, j ≠ m → j ≠ 16 + m % 16 → (s'.oe k).laser j = o.laser j
    (x.st = .warming → o.st ≠ .lasers →
      exec (.laserWarmDone e n) s = .next (s.setOe k (o.setLaser m { x with st := .ready, locked := true })) ∧
      exec (.laserWarmTimeout e n) s
        = .next (recordLaser (s.setOe k (o.setLaser m { x with
          st := .failed, locked := false, bias := 0 })) k m .failed)) ∧
    (x.st = .warming → o.st = .lasers → Completes (.laserWarmDone e n) s fun s' =>
      ((s'.oe k).laser m).st = .active ∧ ((s'.oe k).laser m).locked = true ∧ lasers s' ∧ others s' ∧
      (m < 16 ∨ (s'.oe k).passed (m % 16) = m)) ∧
    (∀ step locked, x.st = .warming ∨ x.st = .ready ∨ x.st = .active →
      (x.st ≠ .active ∨ x.locked = false ∨ locked = true → exec (.laserLockLoop e n step locked) s
        = .next (s.setOe k (o.setLaser m { x with heater := x.heater + step, locked := locked }))) ∧
      (x.st = .active → x.locked = true → locked = false → Completes (.laserLockLoop e n step locked) s fun s' =>
        (s'.oe k).laser m = { x with heater := x.heater + step, st := .failed, locked := false, bias := 0 } ∧
          primaries s')) ∧
    (∀ b : BitVec 10, x.st = .active → b.toNat ≤ 1000 → Completes (.biasLoop e n b) s fun s' =>
      (s'.oe k).laser m = { x with bias := b, ageWarn := x.ageWarn || decide (850 ≤ b.toNat) } ∧ lasers s' ∧
      (950 ≤ b.toNat → o.autoSpare = true → x.noSpare = false → BitVec.ofNat 4 (m % 16) ∈ (s'.oe k).spQueue ∨
        (o.spStep ≠ 0 ∧ o.spWave.toNat = m % 16)) ∧
      (b.toNat < 950 → (s'.oe k).spQueue = o.spQueue) ∧ others s' ∧ OnlyChanges [.oes, .flt, .host] s s') ∧
    (x.st = .active → 0 < m → m < 16 → lsAvailable o m = true → (∀ q ∈ o.moved, q.spare ≠ some m) →
      Completes (.suddenLoss e n) s fun s' =>
      (s'.oe k).laser m = { x with st := .failed, locked := false, bias := 0 } ∧ primaries s' ∧
      tabGet (fun _ => LaserState.off) s'.tack.cal.lasers (32 * k + m) = .failed ∧
      (o.spStep = 0 ∨ (o.spWave.toNat = m ∧ o.spStep = 1) → (s'.oe k).spStep = 2 ∧ (s'.oe k).spWave.toNat = m ∧
        ((s'.oe k).laser (16 + m)).st ≠ .off) ∧
      (o.spStep ≠ 0 → o.spWave.toNat ≠ m → BitVec.ofNat 4 m ∈ (s'.oe k).spQueue) ∧
      (∀ p, p < 8 → (s.link (8 * k + p)).st = .active →
        (s'.link (8 * k + p)).st = .retrain ∧ (s'.link (8 * k + p)).kind = some .full ∧
        (roleAt (s.link (8 * k + p)).laneMap m < 13 → 13 ≤ roleAt (s'.link (8 * k + p)).laneMap m)) ∧
      (∀ p, p < 8 → ((s'.oe k).ring (16 * (2 * p) + m)).st ≠ .locked)) ∧
    (∀ w rest, oeRetraining s k = false → o.spStep = 0 → o.spQueue = w :: rest → 0 < w.toNat → w.toNat < 14 →
      lsAvailable o w.toNat = true → Completes (.laserSparingStart e) s fun s' =>
        (s'.oe k).spWave = w ∧ (s'.oe k).spQueue = rest.filter (· ≠ w) ∧ (s'.oe k).spResult = 0 ∧
        (o.lit w.toNat = true → (s'.oe k).spStep = 1 ∧ ∀ j, (s'.oe k).laser j = o.laser j) ∧
        (o.lit w.toNat = false → (s'.oe k).spStep = 2 ∧ ((s'.oe k).laser (16 + w.toNat)).st ≠ .off)) ∧
    (∀ ok, oeRetraining s k = false →
      let i := o.spWave.toNat
      let next := fun (j : BitVec 4) (P : State → Prop) => Completes (.laserSparingStepDone e ok) s fun s' =>
        (s'.oe k).spStep = j ∧ (s'.oe k).spWave = o.spWave ∧ others s' ∧ P s'
      (o.spStep = 1 → lsAvailable o i = true → next 2 fun s' =>
        ((s'.oe k).laser (16 + i)).st = (if (o.laser (16 + i)).st = .off then .warming else (o.laser (16 + i)).st)) ∧
      (o.spStep = 1 → lsAvailable o i = false → 0 < i → ok = false ∨ carriesLane s k i = false → next 0 fun s' =>
        ((s'.oe k).spResult = 1 ∨ (s'.oe k).spResult = 2) ∧ ((s'.oe k).laser (o.passed i)).st ≠ .active) ∧
      (o.spStep = 2 → ok = true → (o.laser (16 + i)).st = .ready → 0 < i → i < 14 → next 3 fun _ => True) ∧
      (o.spStep = 3 → next 4 fun s' =>
        ((s'.oe k).laser (16 + i)).st = .active ∧ (s'.oe k).passed i = 16 + i ∧
        ((s'.oe k).laser i).st ≠ .active ∧ ∀ p, p < 8 → ((s'.oe k).ring (16 * (2 * p) + i)).st ≠ .locked) ∧
      (o.spStep = 4 → 0 < i → i < 14 → next 5 fun s' => OnlyChanges [.oes] s s') ∧
      (o.spStep = 5 → ok = true → next 6 fun s' => OnlyChanges [.oes] s s') ∧
      (o.spStep = 6 → ok = true → next 7 fun s' => ∀ q ∈ (s'.oe k).moved, q.wave.toNat ≠ i) ∧
      (o.spStep = 7 → next 8 fun s' => ∀ j, j < 32 →
        tabGet (fun _ => LaserState.off) s'.tack.cal.lasers (32 * k + j) = (o.laser j).st) ∧
      (o.spStep = 8 → next 0 fun s' => (s'.oe k).spResult = 0 ∧ OnlyChanges [.oes] s s') ∧
      (o.spStep = 2 → ok = false → 0 < i → Completes (.laserSparingStepDone e ok) s fun s' =>
        ((s'.oe k).laser (16 + i)).st = .failed ∧
        (carriesLane s' k i = true → (s'.oe k).spStep = 1) ∧
        (carriesLane s' k i = false → (s'.oe k).spStep = 0 ∧
          ((s'.oe k).spResult = 1 ∨ (s'.oe k).spResult = 2))))

/-- R205, R208, R209, R218, R220: the ring loop integrates the clamped error of a LOCKED ring and drives its heater; a
FROZEN ring re-acquires or searches; relock, rail and mislock records; a search steps its heater until a dip with its
pilot locks the ring, and fails at once where its first code lies above the last. The last code of a search is the
model's choice (log [65]). -/
def Obligations.RingEvents : Prop :=
  ∀ (e : Oe) (r : RingId) (s : State),
    let k := e.toNat
    let n := r.toNat
    let o := s.oe k
    let x := o.ring n
    let ring := fun (s' : State) => (s'.oe k).ring n
    let rest := fun (s' : State) => (∀ q, q ≠ n → (s'.oe k).ring q = o.ring q) ∧ ∀ j, j ≠ k → s'.oe j = s.oe j
    let first := max 3277 (bandStart o n - 3279)
    let searching := fun (s' : State) (bad : Option Nat) =>
      (first ≤ 58982 → (ring s').st = .search ∧ (ring s').bad = bad ∧ (ring s').rail = false ∧
        (ring s').integ = (first : Rat) * 100 / 65535 ∧ (ring s').heater = BitVec.ofNat 16 first) ∧
      (58982 < first → (ring s').st = .failed)
    (∀ err, x.st = .locked → x.rail = false → Completes (.ringLoopUpdate e r err) s fun s' =>
      (ring s').integ = x.integ + ((o.loopKi.toNat : Rat) / 4096) * max (-1) (min 1 err) ∧
      (ring s').st = .locked ∧
      (ring s').heater = heaterCode (heaterPower (o.setRing n { x with integ := (ring s').integ }) n) ∧
      rest s' ∧ OnlyChanges [.oes] s s') ∧
    (∀ err, x.st = .frozen → ringLight s k n = true → Completes (.ringLoopUpdate e r err) s fun s' =>
      (ring s').st = .locked ∧ (ring s').heater = x.heater ∧ (ring s').integ = x.integ ∧ rest s') ∧
    (x.st = .frozen → ringLight s k n = true → Completes (.ringReacquireTimeout e r) s fun s' =>
      searching s' none ∧ rest s' ∧ OnlyChanges (if x.rail = false ∧ first ≤ 58982 then [.oes, .pmus]
        else [.oes, .pmus, .flt, .host]) s s') ∧
    (x.st = .locked → ringLight s k n = true → Completes (.ringRelock e r) s fun s' =>
      searching s' none ∧ (s.pwr.saving ≤ 1 → (s'.frec (srcRing k n)).lastCause = 0x600) ∧ rest s' ∧
      OnlyChanges [.oes, .pmus, .flt, .host] s s') ∧
    (x.st = .locked → x.rail = false → Completes (.ringRail e r) s fun s' =>
      ring s' = { x with rail := true } ∧ (s.pwr.saving ≤ 1 → (s'.frec (srcRing k n)).lastCause = 0x601) ∧ rest s' ∧
      OnlyChanges [.oes, .flt, .host] s s') ∧
    (∀ dip c ok, x.st = .search →
      (dip = false → x.heater.toNat + 66 ≤ searchEnd x n → Completes (.ringSearchStep e r dip c ok) s fun s' =>
        ring s' = setDemand x (x.heater.toNat + 66) ∧ rest s' ∧ OnlyChanges [.oes] s s') ∧
      (dip = false → searchEnd x n < x.heater.toNat + 66 → Completes (.ringSearchStep e r dip c ok) s fun s' =>
        ring s' = { x with st := .failed } ∧ (s.pwr.saving ≤ 1 → (s'.frec (srcRing k n)).lastCause = 0x602) ∧
        rest s') ∧
      (∀ code : Nat, lockCode o n c.toNat = code → dip = true → x.bad = none → 3277 ≤ c.toNat → 3277 ≤ code →
        code ≤ 58982 → ok = true → Completes (.ringSearchStep e r dip c ok) s fun s' =>
          (ring s').st = .locked ∧ (ring s').heater.toNat = code ∧ (ring s').integ = (code : Rat) * 100 / 65535 ∧
          (ring s').silenced = v1Silent s k n ∧ rest s') ∧
      (dip = true → ok = false → c.toNat + 1640 ≤ searchEnd x n → Completes (.ringSearchStep e r dip c ok) s fun s' =>
        ring s' = setDemand x (c.toNat + 1640) ∧ rest s' ∧ OnlyChanges [.oes] s s')) ∧
    (∀ levels, x.st = .locked → x.recStep = 0 → x.skip = 0 →
      (let l := s.link (8 * k + ringPort n)
       ringIsTx n = true ∨ l.st ≠ .active ∨ l.version = true) →
      let i := ringWave n
      (pilotResult i levels = 0 → Completes (.pilotEvaluation e r levels) s fun s' =>
        (ring s').pilotResult = 0 ∧ (ring s').pilot = BitVec.ofNat 4 (strongest levels) ∧
        (ring s').matches_ = x.matches_ + 1 ∧ (ring s').mismatches = 0 ∧ (ring s').mislock = x.mislock ∧ rest s' ∧
        OnlyChanges [.oes] s s') ∧
      (pilotResult i levels = 1 → x.mismatches = 1 → 0 < i → Completes (.pilotEvaluation e r levels) s fun s' =>
        (ring s').mislock = true ∧ (ring s').recStep = 1 ∧ (ring s').silenced = (x.silenced || ringIsTx n) ∧
        (ring s').bad = some x.heater.toNat ∧ (s.pwr.saving ≤ 1 → (s'.frec (srcRing k n)).lastCause = 0x603) ∧
        rest s' ∧ OnlyChanges [.oes, .flt, .host] s s')) ∧
    (x.recStep = 1 → Completes (.mislockRecoveryStepDone e r) s fun s' => (ring s').recStep = 2 ∧ rest s') ∧
    (x.recStep = 2 → Completes (.mislockRecoveryStepDone e r) s fun s' =>
      (ring s').recStep = 3 ∧ searching s' x.bad ∧ rest s') ∧
    (x.recStep = 3 → x.st = .locked → Completes (.mislockRecoveryStepDone e r) s fun s' =>
      (ring s').recStep = 0 ∧ (ring s').recLane = none ∧ (ring s').silenced = v1Silent s k n ∧ rest s') ∧
    (x.recStep = 3 → x.st = .failed → Completes (.mislockRecoveryStepDone e r) s fun s' =>
      let l := 8 * k + ringPort n
      let role := fun (y : State) => roleAt (if ringIsTx n then (y.link l).laneMap else (y.link l).rxMap) (ringWave n)
      ring s' = { x with recStep := 0, recLane := none, movedTo := none } ∧ rest s' ∧
      role s' = (if role s = 13 then 15 else role s) ∧ (∀ m, m ≠ l → s'.link m = s.link m) ∧
      OnlyChanges [.oes, .links] s s')

/-- R15, R17, R206, R207, R210, R211, R213, R222: an activity word of a powered die sets or adds to its slot's
estimate; the filters step and the heaters of the driven rings follow, each demand being the ring's integrator and its
bank's feed-forward term; a die gone silent holds its estimate; margins are stored and queued as a MARGIN message, and
the partner's are kept as FAR; crosstalk entries move by an eighth of a residual and are committed to flash; the band
rises to that of the highest reading and falls by one once every reading has stayed 3 °C below its edge for 10 scans. -/
def Obligations.OeEstimates : Prop :=
  ∀ (e : Oe) (s : State),
    let k := e.toNat
    let o := s.oe k
    let others := fun (s' : State) => ∀ j, j ≠ k → s'.oe j = s.oe j
    (∀ (p : Site) (w : BitVec 16) (i : Nat), activitySlot k p.val = some i → (s.site p.val).powered = true →
      let y := fun (s' : State) => (s'.oe k).slot i
      (w.setWidth 4 = (0 : BitVec 4) → Completes (.activityWord e p w) s fun s' =>
        (y s').p = (bitsAt w.toNat 4 12 : Nat) ∧ (y s').seq = 0 ∧ (y s').held = false ∧ (y s').silent = false ∧
        (∀ j, j ≠ i → (s'.oe k).slot j = o.slot j) ∧ others s' ∧ OnlyChanges [.oes, .flt] s s') ∧
      (w.setWidth 4 ≠ (0 : BitVec 4) → (o.slot i).held = false → w.setWidth 4 = (o.slot i).seq + 1 →
        Completes (.activityWord e p w) s fun s' =>
          (y s').p = (o.slot i).p + (w.extractLsb' 4 12).toInt ∧ (y s').seq = w.setWidth 4 ∧ (y s').held = false) ∧
      (w.setWidth 4 ≠ (0 : BitVec 4) → (o.slot i).held = false → w.setWidth 4 ≠ (o.slot i).seq + 1 →
        Completes (.activityWord e p w) s fun s' => (y s').p = (o.slot i).p ∧ (y s').held = true) ∧
      ((o.slot i).silent = false → Completes (.oeSilentDie e p) s fun s' =>
        y s' = { o.slot i with silent := true, held := true } ∧
        (s.pwr.saving ≤ 1 → (s'.frec (srcOe k)).lastCause = 0x400) ∧ others s' ∧
        OnlyChanges [.oes, .flt, .host] s s')) ∧
    (Completes (.feedForwardUpdate e) s fun s' =>
      let y := s'.oe k
      (∀ j, j < 25 → let tau := (tabGet (fun _ => 0) o.ffTau j).toNat
        (y.slot j).p = (o.slot j).p ∧
        (y.slot j).y = if tau = 0 then (o.slot j).y
          else (o.slot j).y + (((o.slot j).p : Rat) / 40 - (o.slot j).y) / (10 * tau)) ∧
      (∀ r, demand y r = (o.ring r).integ + (if o.ffEn then -((List.range 25).map fun n =>
        ((tabGet (fun _ => (0 : BitVec 16)) o.ffGain (25 * (r / 16) + n)).toInt : Rat) / 4096 * (y.slot n).y).sum
          else 0)) ∧
      (∀ r, (o.ring r).st = .locked ∨ (o.ring r).st = .frozen → (y.ring r).heater = heaterCode (heaterPower y r)) ∧
      (∀ r, (∀ q ∈ o.rings, q.1 = r → q.2.st ≠ .locked ∧ q.2.st ≠ .frozen) → y.ring r = o.ring r) ∧
      others s' ∧ OnlyChanges [.oes, .flt] s s') ∧
    (∀ (port : BitVec 3) (ms : List (BitVec 16)), ms.length = 16 → Completes (.marginMeasure e port ms) s fun s' =>
      (∀ i, i < 16 → tabGet (fun _ => 0x8000) (s'.oe k).near (16 * port.toNat + i) = ms.getD i 0x8000) ∧
      (∀ q, q / 16 ≠ port.toNat →
        tabGet (fun _ => (0x8000 : BitVec 16)) (s'.oe k).near q = tabGet (fun _ => 0x8000) o.near q) ∧
      (let l := 8 * k + port.toNat
       s'.ll l = (if (s.link l).st = .active ∧ (s.link l).version = true ∧ (s.link l).pFlags.getLsbD 1 = true then
         queueMgmt (s.ll l) (BitVec.ofNat 512 (1 + 2 ^ 16 * leNat (ms.flatMap fun m => leBytes m.toNat 2)))
           else s.ll l) ∧
       ∀ q, q ≠ l → s'.ll q = s.ll q) ∧
      others s' ∧ OnlyChanges [.oes, .lls] s s') ∧
    (∀ (l : LinkId) (fl : RxFlit), l.toNat / 8 = k → MgmtArrives l fl 1 s → Completes (.margin l fl) s fun s' =>
      Accepted l s s' ∧
      (∀ i, i < 16 → tabGet (fun _ => 0x8000) (s'.oe k).far (16 * (l.toNat % 8) + i)
        = BitVec.ofNat 16 (bitsAt (flitPayload (arrivingFlit l fl s)).toNat (16 + 16 * i) 16)) ∧
      (∀ q, q / 16 ≠ l.toNat % 8 →
        tabGet (fun _ => (0x8000 : BitVec 16)) (s'.oe k).far q = tabGet (fun _ => 0x8000) o.far q) ∧
      others s' ∧ OnlyChanges [.oes, .links, .lls, .flt, .host, .pmus] s s') ∧
    (∀ x : XtResidual, o.xtEn = true → bankQuiet o x.bank.toNat = true → 16 < x.residual.natAbs → x.residual % 8 = 0 →
      x.block = 1 → 0 < x.bank.toNat →
      let key := xtKey x.bank.toNat 1 x.row.toNat x.col.toNat
      Completes (.xtRefineWindow e [x]) s fun s' =>
        tabGet (fun _ => 0) (s'.oe k).xt key
          = BitVec.ofInt 16 (max (-32768) (min 32767 ((tabGet (fun _ => 0) o.xt key).toInt + x.residual / 8))) ∧
        (∀ q, q ≠ key → tabGet (fun _ => (0 : BitVec 16)) (s'.oe k).xt q = tabGet (fun _ => 0) o.xt q) ∧ others s' ∧
        OnlyChanges [.oes] s s') ∧
    (Completes (.xtCommit e) s fun s' =>
      (∀ q, tabGet (fun _ => (0 : BitVec 16)) (s'.oe k).xtFlash q
        = if xtPending o q then tabGet (fun _ => 0) o.xt q else tabGet (fun _ => 0) o.xtFlash q) ∧
      (s'.oe k).xt = o.xt ∧ others s' ∧ OnlyChanges [.oes, .tack, .flash] s s') ∧
    (let b := o.band.toNat
     let ts := oeReadings s k
     let top := bandOf (ts.max?.getD 0)
     Completes (.oeBandChange e) s fun s' =>
      s'.oe k = (if b < top then { o with band := BitVec.ofNat 3 top, cool := 0 }
        else if 0 < b ∧ 10 ≤ o.cool then { o with band := BitVec.ofNat 3 (b - 1), cool := 0 } else o) ∧
      others s' ∧ OnlyChanges [.oes] s s')

/-! ### Links: states and lanes -/

/-- R227, R228, R237, R239 to R246: the states a link passes through: the beacon, discovery, TRAIN with its phase
sweeps, ALIGN with its deskew, EXCHANGE with its GO blocks and the rate step between the first and the second, ACTIVE,
the QUICK retrain, which ends with GO, and the FULL retrain, HOLD and DOWN, each entered on its event. That a sweep
takes the first of equally wide open regions, and that a FULL retrain whose exchange is over waits for
RETRAIN_COMPLETE, are the model's choices (log [66]). -/
def Obligations.LinkStates : Prop :=
  ∀ (l : LinkId) (s : State),
    let n := l.toNat
    let k := s.link n
    let o := s.oe (n / 8)
    let goes := fun (c : Instr) (P : LinkS → Prop) => Completes c s fun s' => P (s'.link n) ∧ s'.chutes = s.chutes ∧
      s'.ms = s.ms ∧ ∀ m, m ≠ n → (s'.link m).st = (s.link m).st
    let swept := fun (eyes : List (BitVec 64)) (y : LinkS) => ∀ i p, i < 16 → (k.lane i).los = false →
      sweepCentre ((eyes[i]?).getD 0) = some p → (y.lane i).bitLock = true ∧ (y.lane i).phase = p
    let stage := k.st = .train ∨ k.st = .align ∨ k.st = .exchange
    ((k.st = .down ∨ k.st = .detect) → k.enable = true → Completes (.beaconTransmit l) s fun s' =>
      tabGet (fun _ => 0) (s'.link n).lastFrame 0 = (if (o.ring (txRing n 0)).silenced then 0 else 0x33333333) ∧
      (∀ i, i ≠ 0 → tabGet (fun _ => 0) (s'.link n).lastFrame i = 0) ∧ OnlyChanges [.links] s s') ∧
    ((k.st ≠ .down ∧ k.st ≠ .detect) ∨ k.enable = false → exec (.beaconTransmit l) s = .next s) ∧
    (k.st = .down → k.enable = true → o.st = .ready →
      goes (.beaconDetected l) (fun y => y.st = .detect ∧ y.downReason = 0) ∧
      goes (.partnerClockDetected l) (fun y => y.st = .detect ∧ y.downReason = 0)) ∧
    (k.st = .detect → goes (.beaconDetected l) (fun y => y.st = .train ∧ y.frames = 0) ∧
      goes (.partnerClockDetected l) (fun y => y.st = .train ∧ y.frames = 0)) ∧
    (k.st = .hold → goes (.partnerClockDetected l) (fun y => y.st = .detect) ∧
      goes (.holdLimitExpiry l) (fun y => y.st = .down ∧ y.downReason = 2)) ∧
    (∀ eyes, clockLight k = true →
      (k.st = .train → goes (.trainComplete l eyes) fun y => y.st = .align ∧ swept eyes y) ∧
      (atStage k 0 = true → goes (.trainComplete l eyes) fun y => y.st = .retrain ∧ y.stage = 1 ∧ swept eyes y)) ∧
    (∀ w2, aligning k = true → 8 ≤ lockedCount ((deskewLanes s n w2).link n) →
      goes (.alignComplete l w2) fun y =>
        y.st = (if k.st = .align then .exchange else .retrain) ∧ (k.st = .retrain → y.stage = 2) ∧
        y.fast = false ∧ y.msgRx = false ∧ y.seed ≠ 0 ∧
        ∀ c, c ∈ skewsOf (deskewCounts k w2) → c.2 ≤ 16 →
          (y.lane c.1).deskewed = true ∧ (y.lane c.1).delay = ((32 * c.2 : Nat) : Int)) ∧
    (∀ w2, lockedCount ((deskewLanes s n w2).link n) < 8 →
      (k.st = .align → goes (.alignComplete l w2) fun y => y.st = .align) ∧
      (atStage k 1 = true → goes (.alignComplete l w2) fun y => y.st = .down ∧ y.downReason = 3)) ∧
    (stage → k.held = false → goes (.stageTimeout l) fun y => y.st = .detect ∧ y.msgRx = false) ∧
    (inExchange k = true → k.kind ≠ some .quick → k.msgRx = true → k.held = false → stepping k = false →
      let ends := k.rateStep = true ∨ ratesUp s n = false
      (k.goTx = false → exec (.goBlock l) s = .next (s.setLink n (takeGo k))) ∧
      (k.goTx = true → ¬ends → goes (.goBlock l) fun y =>
        y = { takeGo k with goRx := false, goTx := false, rateStep := true }) ∧
      (k.goTx = true → ends → goes (.goBlock l) fun y =>
        y.rateStep = false ∧ y.fast = k.fast ∧ y.scr = k.scr ∧ y.rxScr = seeds k.pSeed ∧
        (k.st = .exchange → y.st = .active ∧ y.seen = true ∧ y.downReason = 0) ∧
        (k.st = .retrain → y.st = .retrain ∧ y.stage = 3))) ∧
    (stepping k = true → k.st = .exchange → exec (.goBlock l) s = .next s) ∧
    (∀ eyes w2, inExchange k = true → stepping k = true → goes (.rateStepDone l eyes w2) fun y =>
      y.st = k.st ∧ y.fast = true ∧ y.rateStep = true ∧ swept eyes y) ∧
    (∀ kind, k.st = .active → goes (.trainingBlocksReceived l kind) fun y =>
      y.st = .retrain ∧ y.kind = some kind ∧ y.frames = 0 ∧ y.fast = (k.fast && decide (kind = .quick)) ∧
      y.laneMap = k.laneMap ∧ y.partner = k.partner) ∧
    (k.st = .retrain → k.kind = some .quick →
      (quickOk k = true → exec (.retrainComplete l) s = .next (s.setLink n { k with stage := 1 })) ∧
      (k.goTx = false → exec (.goBlock l) s = .next (s.setLink n (takeGo k))) ∧
      (k.goTx = true → goes (.goBlock l) fun y =>
        y.st = .active ∧ y.kind = none ∧ y.fast = k.fast ∧ y.laneMap = k.laneMap ∧ y.rxMap = k.rxMap ∧
        y.scr = k.scr ∧ y.rxScr = k.rxScr) ∧
      (quickOk k = false → goes (.retrainComplete l) fun y =>
        y.st = .retrain ∧ y.kind = some .full ∧ y.laneMap = k.laneMap)) ∧
    (atStage k 3 = true → goes (.retrainComplete l) fun y =>
      y.st = .active ∧ y.kind = none ∧ y.laneMap = k.laneMap ∧ y.rxMap = k.rxMap) ∧
    (clockLight k = false → (o.st = .ready → o.lit 0 = true ∨ lsAvailable o 0 = true) →
      (k.st = .active ∨ k.st = .retrain → goes (.clockLightLost l) fun y =>
        y.st = .hold ∧ y.laneMap = k.laneMap ∧ y.partner = k.partner) ∧
      (stage → goes (.clockLightLost l) fun y => y.st = .detect)) ∧
    (clockLight k = true → exec (.clockLightLost l) s = .next s)

/-- R243, R244, R246, R254, R257: in EXCHANGE a good capability message of a partner that agrees on a version, and
that is neither a second manager nor a number in use, records the partner, its version and its channels, and assigns
the lanes; one with no version in common takes the link DOWN with a record; a bad CRC only counts. In ACTIVE it takes
its slot. -/
def Obligations.CapabilityMessages : Prop :=
  ∀ (l : LinkId) (fl : RxFlit) (s : State),
    let n := l.toNat
    let k := s.link n
    let f := (rxExchange k fl).2
    let p := flitPayload f
    let q := msgPartner p
    (k.st = .exchange → k.held = false → k.known = false →
      (flitGood f = true → isCapability f = true →
        (∀ ver, agreedVersion k p = some ver → twoManagers s q = false → dupNumber s n q = false →
          let m := assignLanes (lockedLanes k &&& BitVec.ofNat 16 (bitsAt p.toNat 48 16)) (ver = 2) (payByte p 19)
          8 ≤ mapLanes m → Completes (.capabilityMessage l fl) s fun s' =>
            let y := s'.link n
            y.st = .exchange ∧ y.known = true ∧ y.partner = q ∧ y.version = decide (ver = 2) ∧ y.msgRx = true ∧
            y.ackRx = (k.ackRx || bitAt p.toNat 144) ∧ y.pSeed = p.extractLsb' 160 31 ∧
            y.vcs = BitVec.ofNat 4 (max 2 (min (if ver = 2 then 8 else 4)
              (min (s.ll n).vcsMax.toNat (payByte p 5)))) ∧ y.laneMap = m ∧ y.rxMap = m ∧
            (∀ j, j ≠ n → s'.link j = s.link j) ∧ OnlyChanges [.links, .lls, .oes, .sys] s s') ∧
        (agreedVersion k p = none → Completes (.capabilityMessage l fl) s fun s' =>
          (s'.link n).st = .down ∧ (s'.link n).downReason = 4 ∧ (s'.link n).known = false ∧
          Recorded (srcLink n) 0x701 s s' ∧ ∀ j, j ≠ n → s'.link j = s.link j)) ∧
      (flitGood f = false → Completes (.capabilityMessage l fl) s fun s' =>
        (s'.ll n).crcErr = satAdd 32 (s.ll n).crcErr 1 ∧ s'.link n = (rxExchange k fl).1 ∧
        OnlyChanges [.links, .lls, .pmus] s s')) ∧
    (FlitArrives l fl s → Completes (.capabilityMessage l fl) s fun s' =>
      s'.ll n = { s.ll n with rxSlot := (s.ll n).rxSlot + 1 } ∧ s'.link n = (rxTake k fl).1 ∧
      (∀ j, j ≠ n → s'.link j = s.link j ∧ s'.ll j = s.ll j) ∧ OnlyChanges [.links, .lls] s s')

/-- R209, R219, R223, R228, R232, R234 to R238, R247: LOS and LOL come and go; a failed lane leaves the map; word
lock, the lane search, the equaliser's sign-sign step, the phase tracker and the markers of an idle spare change their
own lane; training words of another lane leave the lane out, mislock the drop ring unless its pilot says MATCH, and
are reported to the partner unless it says MISMATCH; the partner's report mislocks the modulator ring. The model's
readings are the signs of a step of a tap and of the phase (log [33]), and the error of a sample and how the partner's
report comes (log [66]). -/
def Obligations.LaneEvents : Prop :=
  ∀ (l : LinkId) (i : Wave) (s : State),
    let n := l.toNat
    let w := i.toNat
    let k := s.link n
    let y := k.lane w
    let lane := fun (c : Instr) (P : Lane → Prop) => Completes c s fun s' =>
      P ((s'.link n).lane w) ∧ (∀ j, j ≠ w → (s'.link n).lane j = k.lane j) ∧ (s'.link n).st = k.st ∧
      (s'.link n).laneMap = k.laneMap ∧ (∀ m, m ≠ n → s'.link m = s.link m) ∧
      OnlyChanges [.links, .oes, .pmus, .flt, .host] s s'
    let o := s.oe (n / 8)
    let pilot := pilotSays s n w
    let mislocked := fun (r : Nat) (s' : State) => (o.ring r).recStep = 0 → ((s'.oe (n / 8)).ring r).mislock = true ∧
      ((s'.oe (n / 8)).ring r).recStep = 1 ∧ Recorded (srcRing (n / 8) r) 0x603 s s'
    lane (.los l i) (fun z => z = { y with los := true, deskewed := false, markers := 0 }) ∧
    Completes (.los l i) s (fun s' => ((s'.oe (n / 8)).ring (dropRing n w)).st ≠ .locked) ∧
    lane (.losDeassert l i) (fun z => z = { y with los := false }) ∧
    ((o.ring (dropRing n w)).st = .idle → o.st ≠ .off → o.st ≠ .lost → Completes (.losDeassert l i) s fun s' =>
      ((s'.oe (n / 8)).ring (dropRing n w)).st
        = (if bandStart o (dropRing n w) ≤ 58982 + 3279 then .search else .failed)) ∧
    lane (.lol l i) (fun z => z = { y with lol := true }) ∧
    (w = 0 ∨ y.wordLock = true → lane (.lolDeassert l i) fun z => z = { y with lol := false }) ∧
    (∀ sample amp d, 0 < w →
      let e := errNeg (equalised y sample amp d) amp
      (y.los = false → y.lol = false → ((s.oe (n / 8)).ring (dropRing n w)).st = .locked →
        lane (.equaliserUpdate l i sample amp d) fun z => z = { y with
          tap1 := lmsStep y.tap1 (e = d.getLsbD 0), tap2 := lmsStep y.tap2 (e = d.getLsbD 1),
          tap3 := lmsStep y.tap3 (e = d.getLsbD 2) }) ∧
      (eqStopped s n w = true → exec (.equaliserUpdate l i sample amp d) s = .next s)) ∧
    (y.bitLock = true →
      lane (.phaseTrackerUpdate l i true) (fun z => z = { y with
        phase := y.phase + 1, delay := if y.phase = 63 then y.delay - 1 else y.delay }) ∧
      lane (.phaseTrackerUpdate l i false) (fun z => z = { y with
        phase := y.phase - 1, delay := if y.phase = 0 then y.delay + 1 else y.delay })) ∧
    (∀ slip w1 w2 frame c, k.st = .active → k.version = true → roleAt k.rxMap w = 13 → y.los = false →
      w1Good w1 = true → bitsAt w1.toNat 0 8 = w → w2Count w2 = some c →
      (slip = 0 → c = frame → lane (.marker l i slip w1 w2 frame false) fun z => z = { y with
        markers := y.markers + 1, deskewed := y.deskewed || decide (1 ≤ y.markers), wordLock := true,
        rxLane := w1.setWidth 4 }) ∧
      (slip ≠ 0 ∨ c ≠ frame → lane (.marker l i slip w1 w2 frame false) fun z => z = { y with
        markers := 0, deskewed := false, offset := y.offset + slip, delay := y.delay + 32 * (c - frame).toInt,
        rxLane := w1.setWidth 4 })) ∧
    (∀ (blocks : Nat) (v : Reg32), aligning k = true → 0 < w → y.bitLock = true →
      (blocks < 8 → w1Good v = true → lane (.wordLock l i blocks v false) fun z => z = { y with
        hits := BitVec.ofNat 4 blocks, rxLane := v.setWidth 4 }) ∧
      (w1Good v = true → 8 ≤ blocks →
        (bitsAt v.toNat 0 8 = w → lane (.wordLock l i blocks v false) (fun z => z = { y with
            hits := BitVec.ofNat 4 (min 15 blocks), wordLock := true, rxLane := v.setWidth 4 }) ∧
          (k.st = .retrain → bitsAt v.toNat 16 8 < 13 → Completes (.wordLock l i blocks v false) s fun s' =>
            roleAt (s'.link n).rxMap w = bitsAt v.toNat 16 8)) ∧
        (bitsAt v.toNat 0 8 ≠ w → Completes (.wordLock l i blocks v false) s fun s' =>
          ((s'.link n).lane w).idMis = true ∧ ((s'.link n).lane w).out = true ∧ (s'.link n).st = k.st ∧
          (pilot ≠ 1 → ((s'.link n).lane w).misSent = true) ∧ (pilot ≠ 0 → mislocked (dropRing n w) s')))) ∧
    (0 < w → (∀ blocks v, Completes (.wordLock l i blocks v true) s (mislocked (txRing n w))) ∧
      ∀ slip w1 w2 frame, Completes (.marker l i slip w1 w2 frame true) s (mislocked (txRing n w))) ∧
    (k.st = .active → clockLight k = true → roleAt k.rxMap w < 13 → y.los = true ∨ y.lol = true → y.out = false →
      (usableSpares (k.setLane w { y with out := true }) = [] → mapLanes k.rxMap ≤ 8 →
        Completes (.laneFailed l i) s fun s' => (s'.link n).st = .retrain ∧ (s'.link n).kind = some .full ∧
          Recorded (srcLink n) cLaneFailed s s') ∧
      (∀ sp rest, usableSpares (k.setLane w { y with out := true }) = sp :: rest → k.version = true →
        (s.ll n).cmdRx = none → (s.ll n).cmdQ = [] → (k.lane sp).deskewed = true →
          Completes (.laneFailed l i) s fun s' =>
          ((s'.link n).lane w).out = true ∧ (s'.link n).st = .active ∧ Recorded (srcLink n) cLaneFailed s s' ∧
          ∃ c, (s'.ll n).cmdRx = some c ∧ c.op = 1 ∧ c.lane.toNat = roleAt k.rxMap w ∧ c.wave.toNat = sp ∧
            c.eff = some ((s.ll n).rxSlot + 8192)))

/-- R8, R237, R245, R246, R248, R249: the PF's link commands and registers: RETRAIN starts a FULL retrain in ACTIVE,
ACCEPT_PARTNER records the held identity, a reserved command answers BAD_OP; clearing ENABLE takes the link DOWN; SLIP
moves a word boundary; 1s clear and reads clear their own bits. -/
def Obligations.LinkCommandsAndRegisters : Prop :=
  ∀ (l : LinkId) (i : Wave) (op : BitVec 4) (v : Reg32) (s : State), PfOpen s →
    let n := l.toNat
    let k := s.link n
    let y := k.lane i.toNat
    let put := fun (z : LinkS) => (s.setLink n z).answer .ok
    (k.st = .active → Completes (.retrain l) s fun s' =>
      (s'.link n).st = .retrain ∧ (s'.link n).kind = some .full ∧ (s'.link n).cmdResult = 0 ∧ s'.resp = .ok) ∧
    (k.st ≠ .active → exec (.retrain l) s = .next (put { k with cmdResult := 1 })) ∧
    (∀ q, k.cand = some q → k.held = true → holdsTraffic s n = false → twoManagers s q = false →
      dupNumber s n q = false → Completes (.acceptPartner l) s fun s' =>
        s'.link n = { k with
          known := true, partner := q, held := false, cand := none, pChanged := false, cmdResult := 0 } ∧
        (s'.ll n).fresh = true ∧ (∀ m, m ≠ n → s'.link m = s.link m) ∧ OnlyChanges [.links, .lls, .flt, .resp] s s') ∧
    (k.cand = none ∨ k.held = false → exec (.acceptPartner l) s = .next (put { k with cmdResult := 1 })) ∧
    (op.toNat ≠ 1 → op.toNat ≠ 2 → exec (.linkCmdBadOp l op) s = .next (put { k with cmdResult := 2 })) ∧
    (k.enable = false ∨ v.getLsbD 0 = true → exec (.linkCtrlWrite l v) s = .next (put { k with
      enable := v.getLsbD 0, v1Allow := v.getLsbD 1,
      holdLimit := BitVec.ofNat 10 (max 1 (min 1000 (bitsAt v.toNat 2 10))) })) ∧
    (k.enable = true → v.getLsbD 0 = false → Completes (.linkCtrlWrite l v) s fun s' =>
      (s'.link n).st = .down ∧ (s'.link n).downReason = 1 ∧ (s'.link n).enable = false ∧ s'.resp = .ok) ∧
    exec (.linkStateWrite l v) s = .next (put { k with pRestarted := k.pRestarted && !v.getLsbD 5 }) ∧
    exec (.linkLaneWrite l i v) s = .next (put (k.setLane i.toNat { y with idMis := y.idMis && !v.getLsbD 9 })) ∧
    exec (.slip l i) s = .next (put (k.setLane i.toNat { y with
      offset := y.offset + 1, hits := 0, wordLock := false, slips := if aligning k then y.slips + 1 else y.slips,
      out := y.out || (aligning k && decide (32 ≤ y.slips + 1)) })) ∧
    (Completes (.linkLaneRead l i) s fun s' =>
      s'.resp = .val (BitVec.ofNat 64 (linkLaneReg y)) ∧ bitsAt (linkLaneReg y) 16 8 = y.stuffErr.toNat ∧
      (s'.link n).lane i.toNat = { y with stuffErr := 0 } ∧
      (∀ j, j ≠ i.toNat → (s'.link n).lane j = k.lane j) ∧ OnlyChanges [.links, .resp] s s')

/-! ### The link layer -/

/-- R252, R254, R256, R258, R265, R267, R270, R285: a DATA or CTRL flit that is next in order is stored in its VC's
buffer or the pool, or joins the open group of an encrypted link; NEXT_RX advances, and ACK_PUB after the 32nd; a
duplicate, one with no room and one with a bad CRC leave buffers and NEXT_RX; a reserved type is accepted and
recorded. -/
def Obligations.TrafficFlitsAreStored : Prop :=
  (∀ e ∈ [(Instr.dataFlit, 1), (Instr.ctrlFlit, 2), (Instr.dataPool, 9), (Instr.ctrlPool, 10)],
    ∀ (l : LinkId) (fl : RxFlit) (s : State),
      let n := l.toNat
      let x := s.ll n
      let f := arrivingFlit l fl s
      let v := flitVc f
      let pool := decide (8 ≤ e.2)
      let p := flitPayload f
      let others := fun (s' : State) => (∀ m, m ≠ n → s'.ll m = s.ll m) ∧
        OnlyChanges [.links, .lls, .flt, .host, .pmus] s s'
      let queues := fun (s' : State) => ∀ u, (s'.ll n).rxQ u = x.rxQ u
      let d := (x.nextRx.toNat + 4096 - flitSeq f) % 4096
      flitTyp f = e.2 →
      (FlitArrives l fl s → NextInOrder l fl s → hasRoom x v pool = true → x.encActive = false → x.openRx = [] →
        Completes (e.1 l fl) s fun s' => Accepted l s s' ∧
          (s'.ll n).rxQ v = x.rxQ v ++ [{ typ := BitVec.ofNat 4 (e.2 % 8), payload := p, pool := pool }] ∧
          (∀ u, u ≠ v → (s'.ll n).rxQ u = x.rxQ u) ∧ (s'.ll n).replay = x.replay ∧
          (31 ≤ x.accepted → (s'.ll n).ackPub = x.nextRx + 1 ∧ (s'.ll n).accepted = 0) ∧
          (x.accepted < 31 → (s'.ll n).ackPub = x.ackPub ∧ (s'.ll n).accepted = x.accepted + 1) ∧ others s' ∧
          OnlyChanges [.links, .lls, .pmus] s s') ∧
      (FlitArrives l fl s → NextInOrder l fl s → hasRoom x v pool = true → x.encActive = true →
        Completes (e.1 l fl) s fun s' => Accepted l s s' ∧ queues s' ∧ others s' ∧
          (s'.ll n).openRx = x.openRx ++ [{ vc := v, hdr := flitHdr f, wire := p, item :=
            { typ := BitVec.ofNat 4 (e.2 % 8), payload :=
              p ^^^ Config.gcmStream x.keyRx (nonce x.saltRx x.grpRx) x.openRx.length,
              pool := pool } }]) ∧
      (FlitArrives l fl s → (x.syncOn = false ∨ x.gotPartner = true) → 0 < d → d ≤ 2048 →
        Completes (e.1 l fl) s fun s' => (s'.ll n).dups = satAdd 32 x.dups 1 ∧ (s'.ll n).flowDue = true ∧
          (s'.ll n).nextRx = x.nextRx ∧ queues s' ∧ others s') ∧
      (FlitArrives l fl s → NextInOrder l fl s → hasRoom x v pool = false →
        Completes (e.1 l fl) s fun s' => (s'.ll n).overrun = satAdd 32 x.overrun 1 ∧ (s'.ll n).nextRx = x.nextRx ∧
          queues s') ∧
      ((s.link n).st = .active → x.cmdRx = none → flitGood f = false →
        Completes (e.1 l fl) s fun s' => (s'.ll n).crcErr = satAdd 32 x.crcErr 1 ∧ (s'.ll n).nextRx = x.nextRx ∧
          (s'.ll n).replay = x.replay ∧ queues s' ∧ others s')) ∧
  ∀ (l : LinkId) (fl : RxFlit) (s : State), reservedType (flitTyp (arrivingFlit l fl s)) = true → FlitArrives l fl s →
    NextInOrder l fl s → Completes (.flitReservedType l fl) s fun s' => Accepted l s s' ∧
      Recorded (srcLink l.toNat) 0x703 s s' ∧ ∀ u, (s'.ll l.toNat).rxQ u = (s.ll l.toNat).rxQ u

/-- R266, R269, R271 to R273: a FLOW flit gives XOFF and credits; a PING makes an ECHO due, and its ECHO gives
LINK_RTT and XOFF_AT; a SYNC outside a phase asks for one in turn, and within one takes the partner's base, credits
and end. That a FRESH side ends the encryption in use, so that keys are agreed again, is the model's reading (log
[37]). -/
def Obligations.ControlFlitsTakeEffect : Prop :=
  ∀ (l : LinkId) (fl : RxFlit) (s : State), FlitArrives l fl s →
    let n := l.toNat
    let x := s.ll n
    let f := arrivingFlit l fl s
    let p := flitPayload f
    let slot := { x with rxSlot := x.rxSlot + 1 }
    let becomes := fun (c : Instr) (y : LL) => Completes c s fun s' =>
      s'.ll n = y ∧ (∀ m, m ≠ n → s'.ll m = s.ll m) ∧ OnlyChanges [.links, .lls] s s'
    (flitTyp f = 0 → becomes (.flowFlit l fl) { slot with
      xoffFrom := BitVec.ofNat 8 (payByte p 0),
      credits := BitVec.ofNat 13 (min 4096 (x.credits.toNat + bitsAt p.toNat 16 13)) }) ∧
    (flitTyp f = 6 → payByte p 0 = 1 →
      becomes (.ping l fl) { slot with echoDue := some (BitVec.ofNat 8 (payByte p 1)) }) ∧
    (flitTyp f = 5 → x.syncOn = false → becomes (.sync l fl) { slot with syncDue := true }) ∧
    (∀ ps, flitTyp f = 6 → payByte p 0 = 2 → x.probeOut = true → payByte p 1 = x.probeNo.toNat →
      let den := 31 * mapLanes (s.link n).laneMap * laneRate (s.link n)
      0 < den → Completes (.echo l fl ps) s fun s' =>
        (s'.ll n).probeOut = false ∧ (s'.ll n).rtt = BitVec.ofNat 16 (min 65535 (rttOf ps den)) ∧
        (s'.ll n).xoffAt.toNat = 512 - headroom s' n ∧ (s'.ll n).replay = x.replay) ∧
    (flitTyp f = 5 → x.syncOn = true → x.gotPartner = false → x.fresh = true ∨ bitAt p.toNat 32 = true →
      x.replay = [] →
      let base := BitVec.ofNat 12 (bitsAt p.toNat 0 12)
      let ours := fun (s' : State) => (s'.ll n).nextRx = base ∧ (s'.ll n).ackPub = base ∧ (s'.ll n).gotPartner = true ∧
        (s'.ll n).encActive = false ∧ (s'.ll n).credits = BitVec.ofNat 13 (bitsAt p.toNat 48 13)
      (bitAt p.toNat 33 = false → Completes (.sync l fl) s fun s' => ours s' ∧ (s'.ll n).synced = x.synced ∧
        OnlyChanges [.links, .lls] s s') ∧
      (bitAt p.toNat 33 = true → x.encReqNow = false → x.encNow = false → Completes (.sync l fl) s fun s' => ours s' ∧
        (s'.ll n).synced = true ∧ (s'.ll n).syncOn = false ∧ (s'.ll n).fresh = false ∧ (s'.ll n).probeDue = true ∧
        (s'.link n).st = .active))

/-- R258, R260, R261, R266, R269, R273, R274, R283, R287: the timers of a link: an acknowledgement is published, a
FLOW or a PING becomes due, a replay begins from the oldest flit, and at its limit a FULL retrain, then DOWN; a QUICK
retrain falls back to FULL and the third failed one takes the link DOWN; an operation that waits too long is reported
once. -/
def Obligations.LinkTimers : Prop :=
  ∀ (l : LinkId) (i : Nat) (s : State),
    let n := l.toNat
    let x := s.ll n
    let k := s.link n
    let down := fun (s' : State) => (s'.link n).st = .down ∧ (s'.link n).downReason = 5 ∧ (s'.link n).enable = false
    (x.openRx = [] → exec (.ackTimer l) s = .next (s.setLl n { x with
      ackPub := x.nextRx, accepted := 0, ackDue := x.ackDue || decide (x.nextRx ≠ x.ackPub) })) ∧
    exec (.flowForce l) s = .next (s.setLl n { x with flowDue := true }) ∧
    exec (.creditReturnTimer l) s = .next (s.setLl n { x with flowDue := x.flowDue || decide (0 < x.poolFreed) }) ∧
    (x.probeOut = true → k.st = .active →
      exec (.probeTimeout l) s = .next (s.setLl n { x with probeOut := false, probeDue := true })) ∧
    (k.st = .active → x.synced = true → x.replay ≠ [] →
      (x.replayCount.toNat < x.limitNow.toNat → Completes (.replayTimerExpiry l) s fun s' =>
        (s'.ll n).replayPos = some 0 ∧ (s'.ll n).replayCount = x.replayCount + 1 ∧
        (s'.ll n).replays = satAdd 32 x.replays 1 ∧ (s'.ll n).replay = x.replay ∧ s'.link n = k) ∧
      (x.limitNow.toNat ≤ x.replayCount.toNat → x.askedSeq ≠ some (BitVec.ofNat 12 x.oldest) →
        Completes (.replayTimerExpiry l) s fun s' => (s'.link n).st = .retrain ∧ (s'.link n).kind = some .full ∧
          (s'.ll n).retrains = satAdd 32 x.retrains 1 ∧ (s'.ll n).askedSeq = some (BitVec.ofNat 12 x.oldest) ∧
          (s'.ll n).replay = x.replay) ∧
      (x.limitNow.toNat ≤ x.replayCount.toNat → x.askedSeq = some (BitVec.ofNat 12 x.oldest) →
        Completes (.replayTimerExpiry l) s down)) ∧
    (k.st = .retrain →
      (k.kind = some .quick → Completes (.retrainTimeout l) s fun s' => (s'.link n).st = .retrain ∧
        (s'.link n).kind = some .full ∧ (s'.link n).stage = 0 ∧ (s'.link n).laneMap = k.laneMap ∧
        OnlyChanges [.links] s s') ∧
      (k.kind = some .full → x.retrainFails.toNat < 2 → Completes (.retrainTimeout l) s fun s' =>
        (s'.link n).st = .retrain ∧ (s'.link n).kind = some .full ∧ (s'.ll n).retrainFails = x.retrainFails + 1) ∧
      (k.kind = some .full → 2 ≤ x.retrainFails.toNat → Completes (.retrainTimeout l) s down)) ∧
    (∀ o, x.ops[i]? = some o → o.via = true → exec (.operationTimeout l i) s = .next s) ∧
    (∀ o, x.ops[i]? = some o → o.fired = false → o.via = false → k.st ≠ .retrain → k.st ≠ .hold →
      Completes (.operationTimeout l i) s fun s' => (s'.ll n).ops = x.ops.set i { o with fired := true } ∧
        (s'.ll n).unreach = satAdd 32 x.unreach 1 ∧ (s'.ll n).replay = x.replay)

/-- R8, R277, R278, R284, R288: LINK_LL_CMD: PURGE empties the link's buffers and asks for a fresh start, DISABLE
drains, REKEY starts a key exchange, each where the state allows it; a drained link, or one at its limit, goes DOWN
disabled; a counter reads and clears. -/
def Obligations.LinkLayerCommands : Prop :=
  ∀ (l : LinkId) (op : BitVec 4) (which : LlCounter) (s : State),
    let n := l.toNat
    let x := s.ll n
    let k := s.link n
    let result := fun (c : BitVec 2) => (s.setLl n { x with cmdResult := c }).answer .ok
    let empty := fun (s' : State) => (s'.ll n).replay = [] ∧ (∀ v, (s'.ll n).txQ v = []) ∧ (s'.ll n).ops = [] ∧
      (s'.ll n).purgedDue = true ∧ (s'.ll n).fresh = true ∧ (s'.ll n).nextRx = x.nextRx
    let off := fun (s' : State) => (s'.link n).st = .down ∧ (s'.link n).downReason = 1 ∧ (s'.link n).enable = false ∧
      (s'.ll n).draining = false
    (PfOpen s →
      (k.st ≠ .active → k.st ≠ .retrain → Completes (.purge l) s fun s' =>
        empty s' ∧ (s'.ll n).cmdResult = 0 ∧ s'.resp = .ok ∧ s'.link n = k) ∧
      (k.st = .active ∨ k.st = .retrain → exec (.purge l) s = .next (result 1)) ∧
      (k.st = .active →
        exec (.linkDisable l) s = .next ((s.setLl n { x with draining := true, cmdResult := 0 }).answer .ok)) ∧
      (k.st ≠ .active → exec (.linkDisable l) s = .next (result 1)) ∧
      (k.st = .active → x.encActive = true → Completes (.rekey l) s fun s' =>
        (s'.ll n).keyMsgs = [] ∧ (s'.ll n).cmdResult = 0 ∧ s'.resp = .ok ∧
        (s'.ll n).txQ 0 = x.txQ 0 ++ (match Config.keyReply [] with
          | some m => [{ typ := 3, payload := BitVec.ofNat 512 (5 + 2 ^ 16 * m.toNat) }]
          | none => []) ∧ OnlyChanges [.lls, .resp] s s') ∧
      (k.st ≠ .active ∨ x.encActive = false → exec (.rekey l) s = .next (result 1)) ∧
      (op.toNat = 0 ∨ 3 < op.toNat → exec (.linkLlBadOp l op) s = .next (result 2)) ∧
      let get : LL → BitVec 32 := match which with
        | .replays => LL.replays
        | .crcErr => LL.crcErr
        | .dups => LL.dups
        | .overrun => LL.overrun
        | .retrains => LL.retrains
        | .unreachable => LL.unreach
      Completes (.linkLlCounterRead l which) s fun s' => s'.resp = .val ((get x).setWidth 64) ∧ get (s'.ll n) = 0 ∧
        (s'.ll n).nextRx = x.nextRx ∧ (∀ m, m ≠ n → s'.ll m = s.ll m) ∧ OnlyChanges [.lls, .resp] s s') ∧
    (x.draining = true → k.st = .active → holdsTraffic s n = false → Completes (.linkDisableComplete l) s fun s' =>
      off s' ∧ (s'.ll n).nextRx = x.nextRx) ∧
    (x.draining = true → Completes (.linkDrainLimitExpiry l) s fun s' => off s' ∧ empty s')

/-- R236, R240, R243, R244, R259, R261, R262, R264, R266, R268, R273, R285: what a transmit slot carries:
the first flit that is due. A new sequenced flit takes NEXT_TX, joins the replay buffer and spends a credit where its
VC is XOFF; a flit of a replay goes out as stored; before ACTIVE the slot carries training blocks, the capability
message or the GO block. That a slot before ACTIVE is one frame of a block or one capability message, and when GO is
due, are the model's choices (log [66]); that a replayed flit keeps its old ACK, that a capability message carries
ACK_PUB, and that the count of freed entries starts again at each SYNC, are its readings (log [35]). -/
def Obligations.SlotsCarryFlits : Prop :=
  ∀ (l : LinkId) (s : State), s.flt.arm = none →
    let n := l.toNat
    let x := s.ll n
    let k := s.link n
    let carries := fun (f : Flit) (P : LL → Prop) => Completes (.txSlot l) s fun s' =>
      (s'.ll n).sent = some f ∧ P (s'.ll n) ∧ s'.link n = driveLanes s n (sendBits k f) ∧
        (∀ m, m ≠ n → s'.ll m = s.ll m)
    let plain := fun (typ : Nat) (p : BitVec 512) (y : LL) => carries (mkFlit typ 0 0 x.ackPub.toNat p) fun z =>
      z = { y with sent := z.sent, ackDue := false, lastVc0 := false, txSlot := x.txSlot + 1 }
    let puts := fun (y : LinkS) => exec (.txSlot l) s = .next (s.setLink n (driveLanes s n y))
    (k.st = .down ∨ k.st = .detect → exec (.txSlot l) s = .next s) ∧
    (k.st = .train ∨ k.st = .align ∨ k.st = .hold ∨ (k.st = .exchange ∧ stepping k = true) → puts (nextTrainFrame k)) ∧
    (k.st = .retrain → k.kind = some .quick → k.stage ≠ 1 ∨ k.goTx = true → puts (nextTrainFrame k)) ∧
    (k.st = .retrain → k.kind = some .full → k.stage < 2 ∨ stepping k = true → puts (nextTrainFrame k)) ∧
    (k.st = .retrain → k.kind = some .quick → k.stage = 1 → k.goTx = false →
      (k.goRx = false → puts (sendGo k)) ∧
      (k.goRx = true → Completes (.txSlot l) s fun s' => (s'.link n).st = .active ∧ (s'.link n).fast = k.fast)) ∧
    (k.st = .exchange ∨ (k.st = .retrain ∧ k.kind = some .full ∧ 2 ≤ k.stage) → stepping k = false →
      (goDue k = false →
        let f := mkFlit 4 0 0 x.ackPub.toNat (capMessage s n)
        exec (.txSlot l) s = .next ((s.setLink n (driveLanes s n
          (sendExchange { k with ackTx := k.ackTx || (k.msgRx && !k.held) } f))).setLl n
            { x with sent := some f, ackDue := false, sentEnc := x.encEn })) ∧
      (goDue k = true →
        (k.goRx = false → puts (sendGo k)) ∧
        (k.goRx = true → k.rateStep = false → ratesUp s n = true →
          puts { sendGo k with rateStep := true, goTx := false, goRx := false }) ∧
        (k.goRx = true → k.rateStep = true ∨ ratesUp s n = false → Completes (.txSlot l) s fun s' =>
          (k.st = .exchange → (s'.link n).st = .active) ∧
          (k.st = .retrain → (s'.link n).st = .retrain ∧ (s'.link n).stage = 3)))) ∧
    (k.st = .active → x.cmdTx = none →
      (x.syncDue = true ∨ (x.syncOn = true ∧ x.txSlot.toNat % 64 = 0) →
        plain 5 (syncPayload x) { x with syncDue := false, poolFreed := 0 }) ∧
      (x.syncDue = false → x.syncOn = false →
        (∀ b, x.echoDue = some b → plain 6 (BitVec.ofNat 512 (2 + 2 ^ 8 * b.toNat)) { x with echoDue := none }) ∧
        (x.echoDue = none → x.probeDue = true → plain 6 (BitVec.ofNat 512 (1 + 2 ^ 8 * x.probeNo.toNat))
          { x with probeDue := false, probeOut := true }) ∧
        (x.echoDue = none → x.probeDue = false →
          (x.purgedDue = true → x.synced = true → x.replay.length < 1820 → flowNow s n = false → x.encActive = false →
            let p := BitVec.ofNat 512 (2 ^ 22 * 7 + 2 ^ 32 * myDev s)
            x.xoffFrom.getLsbD 0 = false → carries (mkFlit 2 0 x.nextTx.toNat x.ackPub.toNat p) fun z =>
              z.purgedDue = false ∧ z.nextTx = x.nextTx + 1) ∧
          (vc0Flit s n = none → flowNow s n = false → ∀ i f, x.replayPos = some i → x.replay[i]? = some f →
            carries f fun z => z.replay = x.replay ∧ z.nextTx = x.nextTx ∧
              z.replayPos = if i + 1 < x.replay.length then some (i + 1) else none) ∧
          (vc0Flit s n = none → flowNow s n = true → plain 0 (flowPayload x)
            { x with flowDue := false, poolFreed := x.poolFreed - 4096 }))) ∧
      (chooseFlit s n = .tag → carries (mkFlit 3 0 x.nextTx.toNat x.ackPub.toNat (tagPayload x)) fun z =>
        z.openTx = [] ∧ z.grpTx = x.grpTx + 1 ∧ z.nextTx = x.nextTx + 1) ∧
      ∀ v i it, chooseFlit s n = .item v i → (x.txQ v)[i]? = some it →
        let pool := it.typ ≠ 3 ∧ x.xoffFrom.getLsbD v = true
        let f := mkFlit (if pool then it.typ.toNat + 8
          else it.typ.toNat) v x.nextTx.toNat x.ackPub.toNat (wirePayload x it)
        carries f fun z => z.nextTx = x.nextTx + 1 ∧ z.replay = x.replay ++ [f] ∧
          z.credits = (if pool then x.credits - 1 else x.credits) ∧ z.txQ v = (x.txQ v).eraseIdx i ∧
          (∀ u, u ≠ v → z.txQ u = x.txQ u) ∧ z.txSlot = x.txSlot + 1)

/-- R247, R280 to R282: a LANE_REQ that passes its checks and whose lane is DESKEWED is answered with LANE_SET 8,192
slots ahead, one that does not pass with LANE_REFUSE, another waits; a LANE_SET in good time is taken, a late one
retrains the link; LANE_REFUSE ends the request; a change takes effect at its slot. -/
def Obligations.LaneCommands : Prop :=
  ∀ (l : LinkId) (fl : RxFlit) (s : State),
    let n := l.toNat
    let x := s.ll n
    let k := s.link n
    let p := flitPayload (arrivingFlit l fl s)
    let c := laneCmdOf p
    let sends := fun (s' : State) (op : Nat) (q : LaneCmd) (reason : Nat) =>
      (s'.ll n).txQ 0 = x.txQ 0 ++ [{ typ := 3, payload := lanePayload op q reason }]
    let at_ := fun (q : LaneCmd) (from_ : BitVec 16) => { q with eff := some (from_ + 8192) }
    (MgmtArrives l fl 2 s → x.cmdQ = [] →
      (laneCheck k c ≠ 0 → Completes (.laneReq l fl) s fun s' => Accepted l s s' ∧ (s'.ll n).cmdRx = none ∧
        (s'.ll n).laneRes = BitVec.ofNat 3 (laneCheck k c) ∧ sends s' 4 c (laneCheck k c)) ∧
      (laneCheck k c = 0 → laneSettled k c = true → Completes (.laneReq l fl) s fun s' => Accepted l s s' ∧
        (s'.ll n).cmdRx = some (at_ c (x.rxSlot + 1)) ∧ sends s' 3 (at_ c (x.rxSlot + 1)) 0) ∧
      (laneCheck k c = 0 → laneSettled k c = false → Completes (.laneReq l fl) s fun s' => Accepted l s s' ∧
        (s'.ll n).cmdRx = some c ∧ (s'.ll n).txQ 0 = x.txQ 0)) ∧
    (MgmtArrives l fl 3 s → x.cmdTx = none →
      let eff := BitVec.ofNat 16 (bitsAt p.toNat 48 16)
      (256 ≤ (eff - x.txSlot).toInt → canDrive s n c = true → Completes (.laneSet l fl) s fun s' => Accepted l s s' ∧
        (s'.ll n).cmdTx = some { c with eff := some eff }) ∧
      ((eff - x.txSlot).toInt < 256 → Completes (.laneSet l fl) s fun s' =>
        (s'.link n).st = .retrain ∧ (s'.link n).kind = some .full ∧ (s'.ll n).cmdTx = none ∧ (s'.ll n).laneRes = 5)) ∧
    (∀ q rest, MgmtArrives l fl 4 s → x.reqQ = q :: rest → q.id.toNat = payByte p 1 →
      Completes (.laneRefuse l fl) s fun s' => Accepted l s s' ∧ (s'.ll n).reqQ = rest ∧
        (s'.ll n).laneRes = BitVec.ofNat 3 (payByte p 5)) ∧
    (∀ q, x.cmdRx = some q → q.eff = none →
      (laneSettled k q = true → Completes (.deskewWaitEnd l) s fun s' =>
        (s'.ll n).cmdRx = some (at_ q x.rxSlot) ∧ sends s' 3 (at_ q x.rxSlot) 0 ∧ OnlyChanges [.lls] s s') ∧
      (laneSettled k q = false → x.cmdQ = [] → Completes (.deskewWaitEnd l) s fun s' =>
        (s'.ll n).cmdRx = none ∧ sends s' 4 q 1 ∧ (s'.ll n).laneRes = 1 ∧ OnlyChanges [.lls] s s')) ∧
    (k.st = .active →
      (∀ q, x.cmdTx = some q → q.eff = some x.txSlot → Completes (.laneMapEffective l true) s fun s' =>
        (s'.link n).laneMap = applyCmd k.laneMap q ∧ (s'.link n).rxMap = k.rxMap ∧ (s'.ll n).cmdTx = none ∧
        ∀ m, m ≠ n → s'.link m = s.link m) ∧
      (∀ q, x.cmdRx = some q → q.eff = some x.rxSlot → Completes (.laneMapEffective l false) s fun s' =>
        (s'.link n).rxMap = applyCmd k.rxMap q ∧ (s'.link n).laneMap = k.laneMap ∧
        ∀ m, m ≠ n → s'.link m = s.link m))

/-- R284, R285: KEY messages go on, agree the keys or refuse the link; KEY_SWITCH brings the
new key in once no group is open; a TAG that verifies delivers the open group and counts it, and one that does not
discards it, rolls NEXT_RX back and takes the link DOWN. That these messages stay plain on every link, and the roll
back, are the model's readings (log [37]). -/
def Obligations.KeysAndTags : Prop :=
  ∀ (l : LinkId) (fl : RxFlit) (s : State),
    let n := l.toNat
    let x := s.ll n
    let p := flitPayload (arrivingFlit l fl s)
    let msgs := x.keyMsgs ++ [p.extractLsb' 16 496]
    let down := fun (s' : State) => (s'.link n).st = .down ∧ (s'.link n).downReason = 5 ∧ (s'.link n).enable = false
    (KeyArrives l fl 5 s →
      (Config.keyState msgs = 0 → Completes (.key l fl) s fun s' => Accepted l s s' ∧ (s'.ll n).keyMsgs = msgs ∧
        (s'.ll n).encActive = x.encActive ∧ OnlyChanges [.links, .lls, .pmus] s s') ∧
      (Config.keyState msgs = 1 → x.encActive = false → Completes (.key l fl) s fun s' => Accepted l s s' ∧
        (s'.ll n).encActive = true ∧ (s'.ll n).keyTx = Config.keyAgreed msgs true ∧
        (s'.ll n).keyRx = Config.keyAgreed msgs false ∧ (s'.ll n).saltTx = Config.saltAgreed msgs true ∧
        (s'.ll n).saltRx = Config.saltAgreed msgs false ∧ (s'.ll n).keyMsgs = [] ∧
        OnlyChanges [.links, .lls, .pmus] s s') ∧
      (Config.keyState msgs = 1 → x.encActive = true → Completes (.key l fl) s fun s' => Accepted l s s' ∧
        (s'.ll n).keyNextTx = some (Config.keyAgreed msgs true, Config.saltAgreed msgs true) ∧
        (s'.ll n).keyNextRx = some (Config.keyAgreed msgs false, Config.saltAgreed msgs false) ∧
          (s'.ll n).keyTx = x.keyTx ∧
        (s'.ll n).keyRx = x.keyRx ∧ OnlyChanges [.links, .lls, .pmus] s s') ∧
      (Config.keyState msgs = 2 → Completes (.key l fl) s down)) ∧
    (∀ key, KeyArrives l fl 7 s → x.openRx = [] → x.keyNextRx = some key → Completes (.keySwitch l fl) s fun s' =>
      Accepted l s s' ∧ (s'.ll n).keyRx = key.1 ∧ (s'.ll n).saltRx = key.2 ∧ (s'.ll n).keyNextRx = none ∧
        (s'.ll n).keyTx = x.keyTx ∧
      OnlyChanges [.links, .lls, .pmus] s s') ∧
    (KeyArrives l fl 6 s → x.encActive = true →
      (∀ h, x.openRx = [h] → h.item.typ ≠ 3 → x.switchRx = false →
        p.extractLsb' 16 128 = Config.gcmTag x.keyRx (nonce x.saltRx x.grpRx)
          [BitVec.ofNat 544 (h.hdr.toNat + 2 ^ 32 * h.wire.toNat)] →
        Completes (.tag l fl) s fun s' => Accepted l s s' ∧ (s'.ll n).openRx = [] ∧ (s'.ll n).grpRx = x.grpRx + 1 ∧
          (s'.ll n).rxQ h.vc = x.rxQ h.vc ++ [h.item] ∧ OnlyChanges [.links, .lls, .pmus] s s') ∧
      (p.extractLsb' 16 128 ≠ rxTag x → Completes (.tag l fl) s fun s' =>
        down s' ∧ (s'.ll n).openRx = [] ∧ (∀ v, (s'.ll n).rxQ v = x.rxQ v) ∧
        (s'.ll n).nextRx = (match x.openRx with
          | h :: _ => BitVec.ofNat 12 (bitsAt h.hdr.toNat 7 12)
          | [] => x.nextRx)))

/-! ### Systems -/

/-- R194, R295 to R298: a CSR_REQ of the recorded manager is performed and answered, another is REFUSED; a CSR_RSP
ends the read it answers; a SYS_NOTICE reaches the manager; a payload for another device that comes from its sender is
relayed where there is room; what comes from a link of a held OE waits at the OE. The link counts that the manager
learns from responses and notices, and how worker control waits, are the model's choices (log [67]). -/
def Obligations.WorkerControlFlits : Prop :=
  ∀ (l : LinkId) (fl : RxFlit) (s : State),
    let n := l.toNat
    let p := flitPayload (arrivingFlit l fl s)
    let here := csrDest p = myDev s
    let a := BitVec.ofNat 6 (csrOrigin p)
    let d := BitVec.ofNat 6 (payByte p 10 % 64)
    let free := oeWaits s (n / 8) = false ∧ ∀ c ∈ s.sys.ctlHeld, c.1 ≠ n
    let quiet := fun (a b : State) => (∀ m, m ≠ n → b.ll m = a.ll m) ∧ (b.ll n).txq = (a.ll n).txq ∧
      (b.ll n).nextRx = (a.ll n).nextRx ∧ OnlyChanges [.lls] a b
    let begun := fun (st : State) => Accepted l s st ∧ OnlyChanges [.links, .lls, .pmus] s st ∧
      (st.ll n).txq = (s.ll n).txq ∧ st.link n = (rxTake (s.link n) fl).1 ∧ ∀ m, m ≠ n → st.link m = s.link m
    (MgmtArrives l fl 8 s → here → free →
      (s.sys.mgrKnown = true → s.sys.mgrDev.toNat = csrOrigin p → csrServed s (csrAddr p) = true →
        (csrKind p = 0 → Completes (.csrReq l fl) s fun s' => ∃ st, begun st ∧
          quiet (csrAnswer (readReg st (csrAddr p)).1 p (some (readReg st (csrAddr p)).2)) s') ∧
        (csrKind p = 1 → Completes (.csrReq l fl) s fun s' => ∃ st, begun st ∧
          quiet (csrAnswer (writeReg st 0 true (csrAddr p) (BitVec.ofNat 32 (csrData p))) p (some 0)) s')) ∧
      (s.sys.mgrKnown = false ∨ s.sys.mgrDev.toNat ≠ csrOrigin p ∨ csrServed s (csrAddr p) = false ∨ 1 < csrKind p →
        Completes (.csrReq l fl) s fun s' => ∃ st, begun st ∧
          quiet (sendMgmt st (csrOrigin p)
            (mgmtPayload 9 (csrTag p) (csrOrigin p) (myDev s) (csrAddr p) 1 0 0 0)) s')) ∧
    (∀ r, MgmtArrives l fl 9 s → here → free → s.sys.stalled = [] → r.wide = false →
      s.sys.reads.find? (fun q => q.tag.toNat = csrTag p && q.dev.toNat = csrOrigin p && q.addr.toNat = csrAddr p)
        = some r →
      let peer := csrKind p = 0 ∧ 0x10100 ≤ csrAddr p ∧ csrAddr p < 0x10200
      let resp := if csrKind p = 0 then Resp.val (BitVec.ofNat 64 (csrData p)) else .ur
      (¬ peer → Completes (.csrRsp l fl) s fun s' => Accepted l s s' ∧ s'.resp = resp ∧
        s'.sys = { s.sys with reads := s.sys.reads.filter fun q => q.tag ≠ r.tag } ∧
        OnlyChanges [.links, .lls, .pmus, .sys, .resp] s s') ∧
      (let b := BitVec.ofNat 6 ((csrAddr p - 0x10100) / 4)
       peer → b ≠ r.dev → Completes (.csrRsp l fl) s fun s' => Accepted l s s' ∧ s'.resp = resp ∧
        s'.sys.reads = s.sys.reads.filter (fun q => q.tag ≠ r.tag) ∧
        (r.dev, b, bitsAt (csrData p) 0 7) ∈ s'.sys.linkCounts)) ∧
    (MgmtArrives l fl 10 s → here → free → s.sys.manager = true →
      let told := fun (P : State → Prop) => Completes (.sysNotice l fl) s fun s' =>
        Accepted l s s' ∧ EventWritten 0 s s' ∧ P s'
      (csrKind p = 1 → told fun s' => ∃ via, (a, d, via) ∈ s'.sys.empties) ∧
      (csrOrigin p ≠ myDev s →
        (csrKind p = 2 → told fun s' => ∀ e ∈ s'.sys.empties, ¬ (e.1 = a ∧ e.2.1 = d)) ∧
        (csrKind p = 3 → told fun s' =>
          (a, d, knownLinks s (csrOrigin p) (payByte p 10 % 64) - 1) ∈ s'.sys.linkCounts)) ∧
      (csrKind p = 0 ∨ 3 < csrKind p → told fun s' => s'.sys = s.sys)) ∧
    (∀ e ∈ [(Instr.csrReq, 8), (Instr.csrRsp, 9), (Instr.sysNotice, 10)], MgmtArrives l fl e.2 s →
      (¬ here → free → csrOrigin p = (s.link n).partner.dev.toNat → relayRoom n s p = true →
        Completes (e.1 l fl) s fun s' => Accepted l s s' ∧
          relayQ s' (n / 8) = relayQ s (n / 8) ++ [(BitVec.ofNat 6 (csrDest p), { typ := 3, payload := p })] ∧
          (∀ q, q ≠ n / 8 → relayQ s' q = relayQ s q) ∧ OnlyChanges [.links, .lls, .pmus, .sys] s s') ∧
      (¬ here → free → csrOrigin p ≠ (s.link n).partner.dev.toNat → Completes (e.1 l fl) s fun s' =>
        Accepted l s s' ∧ Recorded srcSystem cRelayLoop s s' ∧ s'.sys = s.sys) ∧
      (oeWaits s (n / 8) = true → relayRoom n s p = true → Completes (e.1 l fl) s fun s' => Accepted l s s' ∧
        s'.sys = { s.sys with ctlHeld := s.sys.ctlHeld ++ [(n, p)] } ∧
        OnlyChanges [.links, .lls, .pmus, .sys] s s') ∧
      (relayRoom n s p = false → Completes (e.1 l fl) s fun s' =>
        (s'.ll n).nextRx = (s.ll n).nextRx ∧ (s'.ll n).overrun = satAdd 32 (s.ll n).overrun 1 ∧ s'.sys = s.sys))

/-- R8, R294, R296, R299, R315: BAR2 reads and writes reach BAR0 of this device or go out as CSR_REQ; a device out of
reach, and a read that times out, read all ones and are counted; one packet of the intake chute is written to memory;
SYS_STATUS clears as written and DROPPED as read. -/
def Obligations.ManagerAccesses : Prop :=
  ∀ (off : BitVec 36) (v : BitVec 64) (w : Reg32) (tag : BitVec 8) (s : State),
    let d := bar2Dev off
    let a := bar2Off off
    let mine := d.toNat = myDev s
    let count := { s.sys with dropped := satAdd 16 s.sys.dropped 1 }
    let ones := Resp.val 0xFFFFFFFF
    let tagNow := freeTag s
    (s.sys.reads.length < 256 → ∀ q ∈ s.sys.reads, q.tag ≠ tagNow) ∧
    (CoreOpen s → s.sys.manager = true → off.toNat % 4 = 0 →
      (mine → coreRange a.toNat = true ∨ s.tack.readyNow = true →
        exec (.bar2Read off false) s = .next (answerRead (readReg s a.toNat)) ∧
        exec (.bar2Write off v false) s = .next ((writeReg s 0 true a.toNat (v.setWidth 32)).answer .ok) ∧
        (off.toNat % 8 = 0 →
          (let lo := readReg s a.toNat
           let hi := readReg lo.1 (a.toNat + 4)
           exec (.bar2Read off true) s = .next (hi.1.answerVal (lo.2 + 2 ^ 32 * hi.2))) ∧
          exec (.bar2Write off v true) s = .next ((writeReg (writeReg s 0 true a.toNat (v.setWidth 32)) 0 true
            (a.toNat + 4) (v.extractLsb' 32 32)).answer .ok))) ∧
      (¬ mine → reachOf s d.toNat ≠ 0 →
        (∀ wide, (wide = true → off.toNat % 8 = 0) →
          (s.sys.reads.length < 32 → exec (.bar2Read off wide) s = .next (sendMgmt
            (State.answer { s with sys := { s.sys with
              reads := s.sys.reads ++ [{ tag := tagNow, dev := d, addr := a, wide := wide, lo := none }],
              nextTag := tagNow + 1 } } .none) d.toNat
            (mgmtPayload 8 tagNow.toNat d.toNat (myDev s) a.toNat 0 0 0 0))) ∧
          (32 ≤ s.sys.reads.length → exec (.bar2Read off wide) s = .next (State.answer { s with sys := { s.sys with
            stalled := s.sys.stalled ++ [{ tag := 0, dev := d, addr := a, wide := wide, lo := none }] } } .none))) ∧
        exec (.bar2Write off v false) s = .next ((sendMgmt { s with sys := { s.sys with nextTag := tagNow + 1 } }
          d.toNat (mgmtPayload 8 tagNow.toNat d.toNat (myDev s) a.toNat 1 0 0 (v.toNat % 2 ^ 32))).answer .ok)) ∧
      (¬ mine → reachOf s d.toNat = 0 →
        exec (.bar2Read off false) s = .next (State.answer { s with sys := count } ones) ∧
        exec (.bar2Write off v false) s = .next (State.answer { s with sys := count } .ok))) ∧
    (s.sys.manager = false ∨ off.toNat % 4 ≠ 0 → exec (.bar2Read off false) s = .next (s.answer .ur) ∧
      exec (.bar2Write off v false) s = .next (s.answer .ur)) ∧
    (∀ r, s.sys.reads.find? (fun q => q.tag = tag) = some r → r.wide = false → s.sys.stalled = [] →
      exec (.csrReadTimeout tag) s = .next (State.answer { s with sys := { count with
        reads := s.sys.reads.filter fun q => q.tag ≠ r.tag } } ones)) ∧
    (let c := s.sys.intakeChute.toNat
     let r := takePacket s c 1024
     s.sys.intakeEn = true → wipeComplete s = true → (s.chute c).st ≠ .disabled → (s.chute c).ready ≠ 0 →
     chuteWaits s c = false →
       (∀ at_, intakeRange s r.2.1 = some at_ → reqWaits s at_ (r.2.1.length - 64) = false → r.2.2 = false →
         PlainSpan r.1 at_ (r.2.1.length - 64) →
         Completes .intakePacket s fun s' => StoresBytes r.1 s' at_ (r.2.1.drop 64) ∧ OnlyChanges [.ms, .pmus] r.1 s') ∧
       (∀ at_, intakeRange s r.2.1 = some at_ → reqWaits s at_ (r.2.1.length - 64) = true →
         exec .intakePacket s = .next s) ∧
       (intakeRange s r.2.1 = none → Completes .intakePacket s fun s' =>
         Recorded srcSystem cIntake r.1 s' ∧ OnlyChanges [.flt, .host] r.1 s')) ∧
    (PfOpen s →
      exec (.sysStatusWrite w) s = .next (State.answer { s with sys := { s.sys with
        twoMgr := s.sys.twoMgr && !w.getLsbD 0, dup := s.sys.dup && !w.getLsbD 1,
        shuffle := s.sys.shuffle && !w.getLsbD 2 } } .ok) ∧
      Completes .sysStatusRead s fun s' => ∃ x, s'.resp = .val (BitVec.ofNat 64 x) ∧
        bitsAt x 16 16 = s.sys.dropped.toNat ∧ bitAt x 0 = s.sys.twoMgr ∧ bitAt x 1 = s.sys.dup ∧
        bitAt x 2 = s.sys.shuffle ∧ s'.sys = { s.sys with dropped := 0 } ∧ OnlyChanges [.sys, .resp] s s')

/-! ### The host interface -/

/-- R316, R317, R321, R334, R336, R337, R341, R343, R344: the link comes up; a link down, a hot reset, an FLR and
PERST_N disable functions, or reset the device, but for a falling PERST_N in the save hold; VF Enable enables VFs that
pass their checks; configuration requests are answered, with a free value where one is read (log [20]), and discarded
on an Insecure stream. -/
def Obligations.HostPort : Prop :=
  ∀ (s : State),
    (∀ gts (width : BitVec 5) cxl, s.host.portOn = true → s.pins.perstN = true → s.pins.refclk = true →
      s.host.linkUp = false → Completes (.pcieLinkUp gts width cxl) s fun s' =>
        s'.host.linkUp = true ∧ s'.host.width = width ∧ (s'.host.flit = true ↔ 64 ≤ gts) ∧
        s'.host.speed = (if 64 ≤ gts then 3 else if 32 ≤ gts then 2 else if 16 ≤ gts then 1 else 0) ∧
        (s'.host.cxl = true ↔ (∃ i, s.tack.image = some i ∧ i.cxlEn = true) ∧ cxl = true ∧ 32 ≤ gts) ∧
        OnlyChanges [.host, .hostMem, .pmus] s s') ∧
    (s.host.linkUp = true →
      (Completes .pcieLinkDown s fun s' => s'.host.linkUp = false ∧ s'.host.vfEnable = false ∧
        (s'.fn 0).st = .disabling ∧ ∀ n, 1 ≤ n → n < 16 → (s.fn n).st = .enabled → (s'.fn n).st = .disabling) ∧
      (Completes .hotReset s fun s' => s'.host.linkUp = true ∧ s'.host.vfEnable = false ∧
        ∀ n, n < 16 → (s'.fn n).st = .disabled) ∧
      (Completes (.flr 0) s fun s' => s'.host.linkUp = true ∧ s'.host.vfEnable = false ∧
        (s'.fn 0).st = .disabling ∧ ∀ n, 1 ≤ n → n < 16 → (s.fn n).st = .enabled → (s'.fn n).st = .disabling) ∧
      (∀ n : Func, n ≠ 0 → (s.fn n.toNat).st = .enabled → Completes (.flr n) s fun s' =>
        (s'.fn n.toNat).st = .disabling ∧ ∀ m, m < 16 → m ≠ n.toNat → (s'.fn m).st = (s.fn m).st) ∧
      (∀ i, s.tack.image = some i → i.sriovEn = true → s.host.vfEnable = false → Completes .vfEnableSet s fun s' =>
        s'.host.vfEnable = true ∧ (s'.fn 0).st = (s.fn 0).st ∧ ∀ n, 1 ≤ n → n < 16 → (s.fn n).st = .disabled →
          ((s'.fn n).st = .enabled ∧ (s'.fn n).result = 0) ∨ ((s'.fn n).st = .disabled ∧ (s'.fn n).result = 1)) ∧
      (s.host.vfEnable = true → Completes .vfEnableClear s fun s' => s'.host.vfEnable = false ∧
        ∀ n, n < 16 → (s'.fn n).st = if 1 ≤ n ∧ (s.fn n).st = .enabled then .disabling else (s.fn n).st)) ∧
    (∀ level, s.pins.perstN = false ∨ level = true →
      exec (.perstN level) s = .next { s with pins := { s.pins with perstN := level } }) ∧
    (∀ level, s.tack.hold = true →
      exec (.perstN level) s = .next { s with pins := { s.pins with perstN := level } }) ∧
    (s.pins.perstN = true → s.tack.hold = false →
      (s.tack.everReady = false → Completes (.perstN false) s fun s' => s'.host.linkUp = false ∧
        s'.pins.perstN = false ∧ s'.host.vfEnable = false ∧ (s'.fn 0).st = (s.fn 0).st ∧
        (∀ n, 1 ≤ n → n < 16 → (s'.fn n).st = .disabled) ∧
        ((∀ n, 1 ≤ n → n < 16 → (s.fn n).st = .disabled) → OnlyChanges [.pins, .host] s s')) ∧
      (s.tack.everReady = true → s.tack.perstWarm = true → s.therm.shutdown = false →
        Completes (.perstN false) s fun s' => s'.pins.perstN = false ∧ s'.tack.step = 1 ∧ s'.tack.cause = 4 ∧
          s'.tack.readyNow = false ∧ s'.ms = State.reset.ms ∧ s'.time = s.time ∧ s'.host.linkUp = s.host.linkUp ∧
          OnlyChanges [.free, .pins, .stalls, .manger, .mangerInj, .strq, .pens, .placement, .loadQ, .loadNow, .ready,
            .anchors, .sinks, .chutes, .doorbells, .chuteDies, .epStat, .xoffRemote, .ms, .pnet, .oes, .links, .lls,
            .sys, .host, .tack, .flash, .spi0, .spi1, .pwr, .therm, .flt, .pmus] s s') ∧
      (s.tack.everReady = true → s.tack.perstWarm = false → Completes (.perstN false) s fun s' =>
        s'.host.linkUp = false ∧ s'.pins.perstN = false ∧ ∀ n, n < 16 → (s'.fn n).st = .disabled)) ∧
    (∀ (f : Func) (reg : BitVec 12) (w : Reg32),
      (∀ wr, s.host.linkUp = false ∨ ideDiscards s f.toNat = true →
        exec (.configRequest f reg wr) s = .next (s.answer .none)) ∧
      (s.host.linkUp = true → ideDiscards s f.toNat = false →
        (∀ wr, f ≠ 0 → s.host.vfEnable = false → exec (.configRequest f reg wr) s = .next (s.answer .ur)) ∧
        (f = 0 ∨ s.host.vfEnable = true →
          exec (.configRequest f reg (some w)) s = .next (s.answer .ok) ∧
          Completes (.configRequest f reg none) s fun s' => (∃ x : BitVec 32, s'.resp = .val (x.setWidth 64)) ∧
            OnlyChanges [.free, .resp] s s')))

/-- R8, R321, R330, R337, R338, R340: the function commands and the event-ring registers: ENABLE of a VF that passes
its checks gives it its chutes, DISABLE begins, WIPE zeroes the window; each answers STATE, CONFLICT or BAD_OP where
it may not; a drained function, or one at its limit, becomes DISABLED. -/
def Obligations.FunctionCommands : Prop :=
  ∀ (f n : Func) (op : BitVec 4) (v : Reg32) (s : State),
    let k := n.toNat
    let x := s.fn k
    let put := fun (y : Fn) => (s.setFn k y).answer .ok
    (FnReach f n s →
      (n ≠ 0 → s.host.vfEnable = true → x.st = .disabled → enableOk s k = true → Completes (.funcEnable f n) s fun s' =>
        (s'.fn k).st = .enabled ∧ (s'.fn k).result = 0 ∧
        (∀ c, x.chuteLo ≤ c → c < x.chuteHi → (s'.chute c).func.toNat = k) ∧
        (∀ c, c < x.chuteLo ∨ x.chuteHi ≤ c → s'.chute c = s.chute c) ∧ EventWritten 0 s s' ∧ s'.resp = .ok ∧
        OnlyChanges [.chutes, .host, .hostMem, .pmus, .resp] s s') ∧
      (n ≠ 0 → s.host.vfEnable = true → x.st = .disabled → enableOk s k = false →
        exec (.funcEnable f n) s = .next (put { x with result := 1 })) ∧
      (n = 0 ∨ s.host.vfEnable = false ∨ x.st ≠ .disabled →
        exec (.funcEnable f n) s = .next (put { x with result := 2 })) ∧
      (x.st = .enabled ∨ (n = 0 ∧ x.st ≠ .disabling) → Completes (.funcDisable f n) s fun s' =>
        (s'.fn k).st = .disabling ∧ (∀ m, m < 16 → m ≠ k → (s'.fn m).st = (s.fn m).st) ∧
        (∀ c, (s'.chute c).func.toNat = k → (s'.chute c).st ≠ .enabled) ∧ s'.resp = .ok) ∧
      (n ≠ 0 → x.st ≠ .enabled → exec (.funcDisable f n) s = .next (put { x with result := 2 })) ∧
      (n ≠ 0 → x.st = .disabled → x.wipe = none → exec (.wipe f n) s
        = .next (put { x with result := 0, wipe := some (x.memBase.toNat, x.memBase.toNat + x.memSize.toNat) })) ∧
      (n ≠ 0 → x.st ≠ .disabled ∨ x.wipe ≠ none → exec (.wipe f n) s = .next (put { x with result := 2 })) ∧
      (3 < op.toNat → exec (.funcBadOp f n op) s = .next (put { x with result := 3 })) ∧
      ((x.tail - v).toNat ≤ 2 ^ x.evqLog2.toNat → x.lost = 0 →
        exec (.hostEvqHeadWrite f n v) s = .next (put { x with head := v, irq := false })) ∧
      (2 ^ x.evqLog2.toNat < (x.tail - v).toNat → exec (.hostEvqHeadWrite f n v) s = .next (s.answer .ok)) ∧
      exec (.hostEvqStatusWrite f n v) s = .next (put { x with ovf := x.ovf && !v.getLsbD 0 }) ∧
      exec (.hostEvqStatusRead f n) s = .next ((s.setFn k { x with dropped := 0 }).answerVal
        (bit x.ovf + 2 ^ 16 * x.dropped.toNat))) ∧
    (CoreOpen s → exec .hostDeniedRead s = .next (State.answer { s with host := { s.host with denied := 0 } }
      (.val (BitVec.ofNat 64 s.host.denied.toNat)))) ∧
    (∀ lo hi, x.wipe = some (lo, hi) → reqWaits s lo (min hi (memTop s) - lo) = true →
      exec (.wipeDone n) s = .next s) ∧
    (∀ lo hi, x.wipe = some (lo, hi) → reqWaits s lo (min hi (memTop s) - lo) = false →
      Completes (.wipeDone n) s fun s' => s'.fn k = { x with wipe := none } ∧
      (∀ a, lo ≤ a → a < hi → a < memTop s → s'.byteAt a = 0) ∧
      (∀ a, a < lo ∨ hi ≤ a ∨ memTop s ≤ a → s'.byteAt a = s.byteAt a) ∧ OnlyChanges [.ms, .host] s s') ∧
    (let disabled := fun (s' : State) => (s'.fn k).st = .disabled ∧ (s'.fn k).evqEn = false ∧ (s'.fn k).tail = 0 ∧
       (s'.fn k).head = 0 ∧ (∀ c, (s.chute c).func.toNat = k → k ≠ 0 → (s'.chute c).func = 0 ∧
         (s'.chute c).st = .disabled)
     x.st = .disabling →
       (disableSettled s k = true → Completes (.funcDrainComplete n) s disabled) ∧
       Completes (.funcDrainLimitExpiry n) s fun s' => (s'.fn k).st = .disabled ∧ (s'.fn k).evqEn = false ∧
         (s'.fn k).tail = 0 ∧ (s'.fn k).head = 0)

/-- R174, R175, R332, R333: a DMA channel's TAIL is written; a started H2D, D2H, H2C or C2H descriptor moves its data
and ends with a status, waiting while its memory is out of reach; a malformed one is BAD and one out of range REFUSED;
on completion STATUS and DONE_BYTES are written, HEAD advances and DMA_DONE is raised. -/
def Obligations.DmaDescriptors : Prop :=
  ∀ (c : Chan) (d : BitVec 256) (s : State),
    let k := c.toNat
    let x := s.dma k
    let own := chanOwner s k
    let a := dDev d
    let len := dLen d
    let chans := fun (s' : State) => ∀ j, j ≠ k → s'.dma j = s.dma j
    let ends := fun (s' : State) (status done : Nat) => s'.dma k = { x with
      st := 1, cur := some { desc := d, status := BitVec.ofNat 8 status, done := BitVec.ofNat 32 done } } ∧ chans s'
    let host := fun (s' : State) (h : Nat) (bs : List Byte) =>
      (∀ i, i < bs.length → tabGet memDefault s'.hostMem (h + i) = bs.getD i 0) ∧
      ∀ b, b < h ∨ h + bs.length ≤ b → tabGet memDefault s'.hostMem b = tabGet memDefault s.hostMem b
    (∀ (f : Func) (v : Reg32), Served s f.toNat → f = 0 ∨ own = f.toNat →
      exec (.dmaTailWrite f c v) s = .next ((s.setDma k { x with tail := v }).answer .ok)) ∧
    (dmaMay s k = true →
      (∀ data, dOp d = 1 → dmaMalformed d = false →
        (dmaRange s own a len = true → memBusy s a len = false → PlainSpan s a len →
          Completes (.h2d c d data) s fun s' => ends s' 1 len ∧
          (∀ i, i < len → s'.byteAt (a + i) = (lineBytes (data.getD (i / 64) 0)).getD (i % 64) 0) ∧
          (∀ b, b < a ∨ a + len ≤ b → s'.byteAt b = s.byteAt b) ∧ OnlyChanges [.ms, .host, .pmus] s s') ∧
        (dmaRange s own a len = true → memBusy s a len = true → Completes (.h2d c d data) s fun s' =>
          s'.dma k = { x with st := 2, cur := some { desc := d, words := data.flatMap lineParts } } ∧ chans s' ∧
          OnlyChanges [.host] s s') ∧
        (dmaRange s own a len = false → Completes (.h2d c d data) s fun s' => ends s' 2 0 ∧ OnlyChanges [.host] s s')) ∧
      (dOp d = 2 → dmaMalformed d = false → dmaRange s own a len = true → memBusy s a len = false → PlainSpan s a len →
        Completes (.d2h c d) s fun s' =>
        ends s' 1 len ∧ host s' (dHost d) ((List.range len).map fun i => s.byteAt (a + i)) ∧
        OnlyChanges [.hostMem, .host, .pmus] s s') ∧
      (∀ data, dmaMalformed d = true → dOp d = 1 ∨ dOp d = 0 ∨ 4 < dOp d → Completes (.h2d c d data) s fun s' =>
        ends s' 5 0 ∧ OnlyChanges [.host] s s') ∧
      (∀ data, dOp d = 3 → dmaMalformed d = false →
        let ca := BitVec.ofNat 22 a
        let q := bitsAt a 0 16
        (isLocal s ca = true → funcMay s q own = true → (s.chute q).st = .enabled → chuteHeld s (q / 1024) = true →
          Completes (.h2c c d data) s fun s' => ends s' 1 len ∧
            s'.chutes = (offerWords (pmuCount s wHost evDmaLines k ((len + 63) / 64)) q (dmaSource s k)
              (dmaWords data len)).chutes) ∧
        (isLocal s ca = true → funcMay s q own = false ∨ (s.chute q).st ≠ .enabled →
          Completes (.h2c c d data) s fun s' =>
          ends s' 2 0) ∧
        (isLocal s ca = false → chuteReady s (dmaSource s k) ca = false → Completes (.h2c c d data) s fun s' =>
          s'.dma k = { x with st := 2, cur := some { desc := d, words := data } } ∧ chans s' ∧
            OnlyChanges [.host] s s')) ∧
      (dOp d = 4 → dmaMalformed d = false → isLocal s (BitVec.ofNat 22 a) = true →
        let q := bitsAt a 0 16
        (s.chute q).func.toNat = own → (s.chute q).penValid = false →
        ((s.chute q).ready = 0 → Completes (.c2h c d) s fun s' =>
          s'.dma k = { x with st := 2, cur := some { desc := d } } ∧ chans s' ∧ OnlyChanges [.host] s s') ∧
        ((s.chute q).st ≠ .disabled → (s.chute q).ready ≠ 0 → chuteWaits s q = false →
          let r := takePacket s q 1024
          let bs := r.2.1.take len
          r.2.2 = false → Completes (.c2h c d) s fun s' =>
            ends s' (if len < r.2.1.length then 3 else 1) bs.length ∧ s'.hostMem = memStore r.1.hostMem (dHost d) bs ∧
            s'.chutes = r.1.chutes))) ∧
    (∀ y, x.cur = some y → y.status ≠ 0 → dmaWaiting s k = false → (s.fn own).st ≠ .disabling →
      ideDiscards s own = false →
      Completes (.dmaDescriptorComplete c) s fun s' =>
        s'.dma k = { x with
          head := x.head + 1, last := y.status.setWidth 3, cur := none, st := if x.en then 0 else 3 } ∧
        chans s' ∧ (y.desc.getLsbD 168 = true → EventWritten own s s') ∧
        (y.desc.getLsbD 168 = false → let e := dmaEntry x + 24
          tabGet memDefault s'.hostMem e = y.status ∧
          (∀ i, i < 4 → tabGet memDefault s'.hostMem (e + 4 + i) = (leBytes y.done.toNat 4).getD i 0) ∧
          ∀ b, b ≠ e → (b < e + 4 ∨ e + 8 ≤ b) → tabGet memDefault s'.hostMem b = tabGet memDefault s.hostMem b) ∧
        OnlyChanges [.host, .hostMem, .pmus] s s')

/-! ### Reset, boot, flash and security -/

/-- R188, R290, R334, R341 to R348, R354, R366: what a cold and a warm reset leave, and the boot steps: slot and
image, PV_MAIN, power, self-tests, stacks, lasers, rings, READY; a step that fails stops boot with its result. -/
def Obligations.ResetsAndBoot : Prop :=
  ∀ s : State,
    let volatile := [Part.stalls, .manger, .mangerInj, .strq, .pens, .placement, .loadQ, .loadNow, .ready, .anchors,
      .sinks, .chutes, .doorbells, .chuteDies, .epStat, .xoffRemote, .ms, .oes, .links, .lls, .pmus]
    let reset := fun (s' : State) (cause : Nat) => (∀ p ∈ volatile, p.same State.reset s') ∧
      (∀ p, p ≠ 36 → s'.site p = State.reset.site p) ∧
      (∀ p ∈ [Part.pending, .hostMem, .mram], p.same s s') ∧ s'.tack.cal = readmitCal s s.tack.cal ∧
      (readmitCal s s.tack.cal = s.tack.cal → s'.flash = s.flash) ∧ s'.tack.cause.toNat = cause ∧
      s'.tack.readyNow = false ∧ s'.tack.fuses = s.tack.fuses ∧ s'.tack.hold = false ∧ s'.pins.saveDone = false
    let saving := 1 ≤ s.pwr.saving ∧ s.pwr.saving ≤ 4
    (∀ pin, ¬ (pin = true ∧ saving ∧ s.pwr.sagAt ≠ s.time) → Completes (.coldReset pin) s fun s' => reset s' 1 ∧
      s'.tack.step = 0 ∧
      s'.time = 0 ∧ s'.pins.coldResetN = false ∧ s'.tack.everReady = false ∧ s'.host = State.reset.host ∧
        s'.pnet = State.reset.pnet) ∧
    (saving → s.pwr.sagAt ≠ s.time → exec (.coldReset true) s = .next { s with
      pins := { s.pins with coldResetN := false }, tack := { s.tack with coldDue := true } }) ∧
    (∀ sel, s.pins.coldResetN = false → ¬ saving → s.tack.hold = false →
      exec (.coldResetNRelease sel) s = .next { s with
      pins := { s.pins with coldResetN := true, mgrSel := sel }, time := 0,
      tack := { s.tack with step := 1, bootFrom := 0 } }) ∧
    (CoreOpen s → ∀ v : Reg32,
      (bitsAt v.toNat 0 4 = 1 → bitsAt v.toNat 8 8 = 0x5A → s.therm.shutdown = false →
        Completes (.tackResetWarm v) s fun s' => reset s' 2 ∧ s'.tack.step = 1 ∧ s'.time = s.time ∧
          s'.tack.everReady = s.tack.everReady ∧ s'.host.linkUp = s.host.linkUp ∧ s'.resp = .ok) ∧
      (bitsAt v.toNat 0 4 ≠ 1 ∨ bitsAt v.toNat 8 8 ≠ 0x5A → exec (.tackResetWarm v) s = .next (s.answer .ok))) ∧
    (s.tack.hold = true → s.tack.mainGood = true → s.pins.pwrOk = true → s.pins.coldResetN = true →
      (s.tack.coldDue = true → Completes .saveHoldExit s fun s' => reset s' 1 ∧ s'.tack.step = 1 ∧ s'.time = 0) ∧
      (s.tack.coldDue = false → s.therm.shutdown = false → Completes .saveHoldExit s fun s' =>
        reset s' 16 ∧ s'.tack.step = 1 ∧ s'.time = s.time)) ∧
    (∀ o : BootFinding, deviceUp s = true → s.host.devState ≠ 2 → s.flt.failed = false →
      let boots := fun (n : Nat) (P : State → Prop) => Completes (.bootStepDone o) s fun s' =>
        s'.tack.step.toNat = n ∧ P s'
      let fails := fun (code cause : Nat) => Completes (.bootStepDone o) s fun s' =>
        s'.tack.step = s.tack.step ∧ s'.tack.result.toNat = code ∧ s'.host.devState = 2 ∧ Recorded srcBoot cause s s'
      let sound := o.tackFailed = false ∧ o.hostFailed = false ∧ o.failedSites = [] ∧ o.failedStalls = []
      let out := fun (h : Nat) => (o.failedStacks.any fun x => x.val = h) || decide (h ∈ s.tack.cal.lostStacks)
        || !s.held (hubDie h) || decide ((s.hub h).st = .lost)
      (s.tack.step = 1 → s.pins.refclk = true → lcState s ≠ 4 → boots 2 fun s' => s'.tack.result = 0 ∧
        tabGet (fun _ => 0) s'.pwr.mv 35 = 750 ∧ OnlyChanges [.tack, .pwr] s s') ∧
      (s.tack.step = 1 → s.pins.refclk = false → boots 1 fun s' =>
        s'.tack = { s.tack with result := 2 } ∧ OnlyChanges [.tack, .pwr] s s') ∧
      (s.tack.step = 2 → s.tack.recovery = false → chooseSlot (discoverFlash s) = none → fails 1 cBootImage) ∧
      (∀ n i, s.tack.step = 2 → s.tack.recovery = false → chooseSlot (discoverFlash s) = some (n, i) → boots 3 fun s' =>
        s'.spi0.mode = (if s.spi0.present && s.spi0.sfdpOk && s.spi0.octal then .d8 else .s1) ∧
        s'.tack.image = some i ∧ s'.tack.slot = decide (n = 1) ∧
        s'.tack.fw.toNat = flashNat s (0x01000000 * n + 4) 4 % 2 ^ 32 ∧ s'.host.portOn = true ∧
        (∀ l, l < 64 → (s'.link l).enable = i.linkEn.getLsbD l) ∧
        (s.sys.roleSet = false → (s'.sys.manager = true ↔ i.role = 1 ∨ (i.role = 0 ∧ s.pins.mgrSel = true))) ∧
        (s.sys.roleSet = true → s'.sys.manager = s.sys.manager)) ∧
      (s.tack.step = 3 → s.tack.mainGood = true → exec (.bootStepDone o) s
        = .next { s with tack := { s.tack with step := 4 } }) ∧
      (s.tack.step = 4 → sound → boots 5 fun s' => (∀ p, p < 72 → (s.dieAt p).isSome = true →
        (s'.site p).powered = true) ∧ (∀ h, h < 24 → (s'.hub h).powered = true) ∧
        s'.pwr.holdMv = o.holdMv ∧ s'.pwr.holdLow = (s.pwr.holdLow || decide (o.holdMv.toNat < 10500)) ∧
        ∀ e, e < 8 → (s'.oe e).powered = true ∧ (s'.oe e).laserOn = true) ∧
      (s.tack.step = 4 ∨ s.tack.step = 5 → o.tackFailed = true → fails 4 cBootDie) ∧
      (s.tack.step = 5 → sound → o.modules = [] → s.pnet.repl = none → s.pnet.queue = [] →
        (∀ d, d < 64 → s.held d = true) → (wantBasis s).cutOff = [] → boots 6 fun s' => ∀ p, p < 72 →
          (s'.site p).st = if (s.site p).st = .activating then
              (if (s.site p).modHalf = 0 ∧ (s.site p).modFailed = 0 then .active else .degraded)
            else (s.site p).st) ∧
      (s.tack.step = 6 → ((List.range 24).filter out).length < 5 → boots 7 fun s' => ∀ h, h < 24 →
        (out h = true → (s'.hub h).st = .excluded) ∧
        (out h = false → (s'.hub h).st = .online ∧ (s'.hub h).wipeDone = true)) ∧
      (s.tack.step = 6 → 5 ≤ ((List.range 24).filter out).length → fails 3 cBootStacks) ∧
      (s.tack.step = 7 → (∀ e, e < 8 → (s.oe e).st ≠ .lasers) → boots 8 fun s' => OnlyChanges [.tack] s s') ∧
      (s.tack.step = 8 → (∀ e, e < 8 → (s.oe e).st ≠ .rings) → boots 9 fun s' => OnlyChanges [.tack] s s') ∧
      (s.tack.step = 9 → boots 10 fun s' => s'.tack.readyNow = true ∧ s'.tack.everReady = true ∧
        s'.host.devState = 1 ∧ s'.host.memActive = true ∧ EventWritten 0 s s' ∧
        OnlyChanges [.tack, .host, .hostMem, .pnet, .pmus] s s'))

/-- R174, R335, R336, R348 to R364, R366, R367, R439, R442: flash commands start, refuse and end; a written slot is
committed only when its image verifies; a store reads as its newest valid copy; life-cycle transitions, debug unlock
and the SVN follow their states and tokens, and wait for a token that memory cannot give yet; TAP instructions and the
standards' messages are answered. That a security command is refused with STATE while another waits is the model's
choice (log [79]); the content of an answer is a free value (log [20]); a flash of less than 64 MiB fails its commands
(log [68]). -/
def Obligations.FlashAndSecurity : Prop :=
  ∀ (t : BitVec 4) (off : BitVec 12) (op : BitVec 4) (s : State),
    let n := t.toNat
    let k := s.tack
    let flash := fun (r : BitVec 3) => State.answer { s with tack := { k with flashRes := r } } .ok
    let cmd := fun (w : Bool) (o : BitVec 12) =>
      FlashCmd.mk w t o k.flashAddr k.flashLen
    let sec := fun (s' : State) (r : BitVec 3) => s'.tack.secRes = r ∧ s'.tack.step = k.step ∧ s'.resp = .ok ∧
      s'.tack.fuses = k.fuses
    let warm := fun (s' : State) (cause : BitVec 6) => s'.tack.step = 1 ∧ s'.tack.cause = cause ∧
      s'.tack.readyNow = false ∧ s'.time = s.time
    (CoreOpen s →
      (k.flashCmd = none →
        (n ≤ 1 → k.recovery = true ∨ bit k.slot ≠ n → flashLenOk s = true → Completes (.flashWrite t) s fun s' =>
          s'.tack.flashCmd = some (cmd true 0) ∧
          s'.tack.flashRes = 0 ∧ s'.resp = .ok ∧
          (∀ a, 0x01000000 * n ≤ a → a < 0x01000000 * (n + 1) → tabGet flashDefault s'.flash a = 0xFF) ∧
          (∀ a, a < 0x01000000 * n ∨ 0x01000000 * (n + 1) ≤ a →
            tabGet flashDefault s'.flash a = tabGet flashDefault s.flash a) ∧ OnlyChanges [.tack, .flash, .resp] s s') ∧
        (n ≤ 1 → k.recovery = false → bit k.slot = n → exec (.flashWrite t) s = .next (flash 1)) ∧
        (n ≤ 1 → k.recovery = true ∨ bit k.slot ≠ n → flashLenOk s = false →
          exec (.flashWrite t) s = .next (flash 5)) ∧
        (1 < n → exec (.flashWrite t) s = .next (flash 4)) ∧
        (n ≤ 4 → flashLenOk s = true → 4096 * off.toNat + k.flashLen.toNat ≤ regionSize n →
          Completes (.flashRead t off) s fun s' => s'.tack.flashCmd = some (cmd false off) ∧ s'.tack.flashRes = 0 ∧
            s'.resp = .ok ∧
            OnlyChanges [.tack, .resp] s s') ∧
        (n ≤ 4 → flashLenOk s = false ∨ regionSize n < 4096 * off.toNat + k.flashLen.toNat →
          exec (.flashRead t off) s = .next (flash 5)) ∧
        (4 < n → exec (.flashRead t off) s = .next (flash 4)) ∧
        (op.toNat ≠ 1 → op.toNat ≠ 2 → exec (.flashBadOp op) s = .next (flash 4))) ∧
      (k.flashCmd ≠ none → exec (.flashWrite t) s = .next (flash 1) ∧ exec (.flashRead t off) s = .next (flash 1) ∧
        (op.toNat ≠ 1 → op.toNat ≠ 2 → exec (.flashBadOp op) s = .next (flash 4))) ∧
      (k.secBusy = true → ∀ target, ∀ c ∈ [Instr.lcAdvance target, .debugUnlock, .advanceSvn],
        exec c s = .next (State.answer { s with tack := { k with secRes := 1 } } .ok)) ∧
      (k.secBusy = false →
      let waits := fun (s' : State) (w : Nat × Nat) => s'.tack = { k with secBusy := true, secWait := some w } ∧
        s'.resp = .ok ∧ OnlyChanges [.tack, .resp] s s'
      let out := memBusy s k.token.toNat 112 = true
      (∀ target, lcAllowed s target.toNat = false → Completes (.lcAdvance target) s fun s' => sec s' 1 ∧
        OnlyChanges [.tack, .free, .resp] s s') ∧
      (∀ target, lcAllowed s target.toNat = true → lcKey s target.toNat = none → s.therm.shutdown = false →
        Completes (.lcAdvance target) s fun s' => warm s' 8 ∧ lcState s' = target.toNat ∧ s'.resp = .ok) ∧
      (∀ target key, lcAllowed s target.toNat = true → lcKey s target.toNat = some key →
        (out → Completes (.lcAdvance target) s fun s' => waits s' (1, target.toNat)) ∧
        (¬ out → (tokenOk s target.toNat key).2 = true → s.therm.shutdown = false →
          Completes (.lcAdvance target) s fun s' => warm s' 8 ∧ lcState s' = target.toNat ∧
            (target = 3 → s'.tack.fuses.seed = none)) ∧
        (¬ out → (tokenOk s target.toNat key).2 = false → Completes (.lcAdvance target) s fun s' => sec s' 2)) ∧
      (lcState s ≠ 2 → Completes .debugUnlock s fun s' => sec s' 1 ∧ s'.tack.debugOpen = k.debugOpen) ∧
      (lcState s = 2 → out → Completes .debugUnlock s fun s' => waits s' (2, 0)) ∧
      (lcState s = 2 → ¬ out → (tokenOk s 7 k.fuses.keyHash).2 = true → s.therm.shutdown = false →
        Completes .debugUnlock s fun s' => warm s' 32 ∧ s'.tack.debugOpen = true) ∧
      (lcState s = 2 → ¬ out → (tokenOk s 7 k.fuses.keyHash).2 = false → Completes .debugUnlock s fun s' =>
        sec s' 2 ∧ s'.tack.debugOpen = k.debugOpen) ∧
      (inReady s = true → Completes .advanceSvn s fun s' =>
        s'.tack.fuses.svn.toNat = max k.fuses.svn.toNat k.runSvn.toNat ∧
        s'.tack.secRes = 0 ∧ s'.resp = .ok ∧ OnlyChanges [.tack, .resp] s s') ∧
      (inReady s = false → Completes .advanceSvn s fun s' => sec s' 1)) ∧
      (op.toNat = 0 ∨ 3 < op.toNat → exec (.secBadOp op) s
        = .next (State.answer { s with tack := { k with secRes := 3 } } .ok))) ∧
    (∀ c, k.flashCmd = some c → memBusy s c.addr.toNat c.len.toNat = true →
      exec (.flashCommandDone true) s = .next s ∧ exec (.flashCommandDone false) s = .next s) ∧
    (∀ c, k.flashCmd = some c → memBusy s c.addr.toNat c.len.toNat = false →
      let ended := fun (s' : State) (r : BitVec 3) => s'.tack.flashCmd = none ∧ s'.tack.flashRes = r ∧
        s'.tack.flashProg = 100
      (Completes (.flashCommandDone true) s fun s' => ended s' 3 ∧ OnlyChanges [.tack] s s') ∧
      (flashFitted s = false → Completes (.flashCommandDone false) s fun s' => ended s' 3 ∧ OnlyChanges [.tack] s s') ∧
      (flashFitted s = true → c.write = true → c.target.toNat ≤ 1 →
        PlainSpan s c.addr.toNat (min 0xFFF000 c.len.toNat) →
        let b := 0x01000000 * c.target.toNat
        let bytes := (List.range (min 0xFFF000 c.len.toNat)).map fun i => s.byteAt (c.addr.toNat + i)
        let f := flashStore s.flash b bytes
        (slotImage { s with flash := f } b (leastSvn s) ≠ none → Completes (.flashCommandDone false) s fun s' =>
          ended s' 0 ∧ flashNat s' (b + 0xFFFFFC) 4 = 0x5A5AA5A5 ∧
          (∀ a, a < b + 0xFFF000 ∨ b + 0x1000000 ≤ a → tabGet flashDefault s'.flash a = tabGet flashDefault f a) ∧
          OnlyChanges [.tack, .flash, .pmus] s s') ∧
        (slotImage { s with flash := f } b (leastSvn s) = none → Completes (.flashCommandDone false) s fun s' =>
          ended s' 2 ∧ s'.flash = f ∧ OnlyChanges [.tack, .flash, .pmus] s s')) ∧
      (flashFitted s = true → c.write = false → c.target.toNat ≤ 1 → PlainSpan s c.addr.toNat c.len.toNat →
        Completes (.flashCommandDone false) s fun s' => ended s' 0 ∧ StoresBytes s s' c.addr.toNat
          (flashBytes s.flash (0x01000000 * c.target.toNat + 4096 * c.offset.toNat) c.len.toNat) ∧
          OnlyChanges [.tack, .ms, .pmus] s s') ∧
      (flashFitted s = true → c.write = false → 1 < c.target.toNat →
        (newestCopy s c.target.toNat = none → Completes (.flashCommandDone false) s fun s' => ended s' 3 ∧
          OnlyChanges [.tack] s s') ∧
        ∀ j, newestCopy s c.target.toNat = some j → PlainSpan s c.addr.toNat c.len.toNat →
          Completes (.flashCommandDone false) s fun s' => ended s' 0 ∧ StoresBytes s s' c.addr.toNat
            (flashBytes s.flash (regionBase c.target.toNat j + 4096 * c.offset.toNat) c.len.toNat) ∧
            OnlyChanges [.tack, .ms, .pmus] s s')) ∧
    (∀ i trstN, exec (.tapInstruction i trstN) s = .next { s with
      pins := { s.pins with trstN := trstN },
      tack := { k with tap := if trstN && tapAllowed s i then i else .bypass } }) ∧
    (∀ req : List Byte,
      (deviceUp s = true → 3 ≤ k.step.toNat → Completes (.spdmRequest req) s fun s' => (∃ bs, s'.resp = .message bs) ∧
        OnlyChanges [.free, .host, .tack, .resp] s s') ∧
      (deviceUp s = false ∨ k.step.toNat < 3 → exec (.spdmRequest req) s = .next (s.answer .none)) ∧
      (k.step ≠ 0 → Completes (.smbusRequest 0x6A req) s fun s' => (∃ bs, s'.resp = .message bs) ∧
        OnlyChanges [.free, .resp] s s') ∧
      (∀ a, a ≠ 0x6A ∨ k.step = 0 → exec (.smbusRequest a req) s = .next (s.answer .none))) ∧
    (∀ (stream : Fin 5) (addr : BitVec 64), tabGet (fun _ => (0 : BitVec 2)) s.host.ide stream.val = 1 →
      Completes (.hostIdeFail stream addr) s fun s' => ((s.frec srcHost).valid = false → s.pwr.saving ≤ 1 →
          (s'.frec srcHost).addr = addr) ∧ tabGet (fun _ => (0 : BitVec 2)) s'.host.ide stream.val = 2 ∧
        Recorded srcHost cIdeFail s s' ∧ OnlyChanges [.host, .flt] s s')

/-! ### Power and heat -/

/-- R369, R373 to R375, R377, R378, R380, R385 to R387, R438: PV_MAIN; a domain out of range is lost with its unit;
L_P follows the measured power; the limit; a supply sag stops the device for a save, which commits its record, or is
cut short. -/
def Obligations.PowerAndSave : Prop :=
  ∀ s : State,
    let w := s.pwr
    exec .pvMainGood s = .next { s with pins := { s.pins with pwrOk := true, holdOff := false }, tack := { s.tack with
      mainGood := true, bootFrom := if s.tack.step = 3 && !s.tack.mainGood then s.time else s.tack.bootFrom } } ∧
    (∀ q : Fin 112, let n := q.val; let lost := Instr.regulatorOutOfRange q
      (n = 35 → Completes lost s fun s' => s'.flt.failed = true ∧ ∀ p, p < 64 →
        (s.pen p).st ≠ .free → s.flt.failed = false → (s'.pen p).st = .faulted) ∧
      (n = 36 → s.sys.manager = false → Completes lost s fun s' => s'.host.linkUp = false ∧
        (s'.site 36).powered = false ∧ Recorded (srcDie 36) cHostDieLost s s' ∧
        OnlyChanges [.host, .flt, .pnet, .pwr] s s') ∧
      (n < 72 → n ≠ 35 → n ≠ 36 → (s.site n).powered = true → Completes lost s fun s' =>
        (s'.site n).powered = false ∧ ∀ d, s.dieAt n = some d → s.held d = true → s.siteOf d = n →
          (s.site n).st = .active →
          (s'.site n).st = .retiring ∧ BitVec.ofNat 6 d ∈ s'.pnet.queue) ∧
      (n < 72 → n ≠ 35 → n ≠ 36 → (s.site n).powered = false → exec lost s = .next s) ∧
      (72 ≤ n → n < 96 → (s.hub (n - 72)).st = .online → s.ms.waiting = [] → s.ms.bells = [] →
        Completes lost s fun s' =>
        (s'.hub (n - 72)).st = .lost ∧ (s'.hub (n - 72)).powered = false ∧ n - 72 ∈ s'.tack.cal.lostStacks ∧
        Recorded (srcHub (n - 72)) cStackLost s s' ∧ OnlyChanges [.ms, .tack, .flash, .flt, .host] s s') ∧
      (96 ≤ n → n < 104 → (s.oe (n - 96)).st ≠ .lost → Completes lost s fun s' =>
        (s'.oe (n - 96)).st = .lost ∧ (s'.oe (n - 96)).powered = false ∧ Recorded (srcOe (n - 96)) cOeLost s s' ∧
        ∀ p, p < 8 → (s'.link (8 * (n - 96) + p)).st = .down) ∧
      (104 ≤ n → Completes lost s fun s' => (s'.oe (n - 104)).laserOn = false ∧
        ∀ i, i < 32 → ((s'.oe (n - 104)).laser i).st = .off ∨ ((s'.oe (n - 104)).laser i).st = .spent ∨
          ((s'.oe (n - 104)).laser i).st = .failed)) ∧
    (∀ p10 (mv hv av : BitVec 16), Completes (.powerEvaluation p10 mv hv av) s fun s' =>
      let xs := (p10 :: w.p10s).take 100
      let limit := 1000 * w.limit.toNat
      let lp := w.lp.toNat
      let high := 11 * limit ≤ 10 * p10
      let above := limit * xs.length < xs.sum
      s'.pwr.p10s = xs ∧ s'.pwr.mainMv = mv ∧ s'.pwr.holdMv = hv ∧ s'.pwr.auxMv = av ∧
      (high → s'.pwr.lp.toNat = min 56 (lp + 8)) ∧ (¬ high → above → s'.pwr.lp.toNat = min 56 (lp + 1)) ∧
      (¬ high → 100 * xs.sum < 97 * limit * xs.length → 10 ≤ w.sinceRise + 1 → s'.pwr.lp.toNat = lp - 1) ∧
      (¬ high → ¬ above → 97 * limit * xs.length ≤ 100 * xs.sum ∨ w.sinceRise + 1 < 10 → s'.pwr.lp = w.lp) ∧
      s'.pwr.limit = w.limit ∧ OnlyChanges [.pwr, .flt] s s') ∧
    (1000 ≤ w.at56 → w.overRaised = false → Completes .pwrOverLimit s fun s' =>
      Recorded srcPower cOverLimit s s' ∧ s'.pwr = { w with overRaised := true } ∧
        OnlyChanges [.pwr, .flt, .host] s s') ∧
    (PfOpen s → ∀ v : Reg32, exec (.pwrLimitWrite v) s = .next (State.answer { s with pwr := { w with
      limit := BitVec.ofNat 11 (max 800 (min (if s.tack.fuses.partQ then 1000
        else 1650) (bitsAt v.toNat 0 11))) } } .ok)) ∧
    (∀ reason : BitVec 2, w.saving = 0 → s.tack.hold = false → s.tack.step ≠ 0 → reason ≠ 3 →
      Completes (.supplySag reason) s fun s' => s'.pwr.sagReason = reason ∧ s'.pwr.sagAt = s.time ∧
        s'.tack.readyNow = false ∧
        s'.pins.pwrOk = (s.pins.pwrOk && decide (reason ≠ 1)) ∧
          s'.pins.auxOff = (s.pins.auxOff || decide (reason = 2)) ∧
        s'.tack.mainGood = (s.tack.mainGood && decide (reason ≠ 0 ∧ reason ≠ 1)) ∧
        (∀ p ∈ [Part.stalls, .manger, .pens, .chutes, .ms, .pnet, .oes, .links, .lls, .host, .pmus],
          p.same State.reset s') ∧
        (∀ p ∈ [Part.pending, .time, .hostMem, .flash, .spi0, .spi1, .mram, .sys, .therm], p.same s s') ∧
          s'.flt.recs = s.flt.recs ∧
        (3 ≤ s.tack.step.toNat → s'.pwr.saving = 2 ∧ s'.tack.hold = false) ∧
        (s.tack.step.toNat < 3 → s'.pwr.saving = 5 ∧ s'.pwr.saveRes = 3 ∧ s'.pwr.saveReason = reason ∧
          s'.tack.hold = true ∧ s'.pins.saveDone = true)) ∧
    (∀ reason : BitVec 2, w.saving ≠ 0 ∨ s.tack.hold = true ∨ s.tack.step = 0 → reason ≠ 3 →
      exec (.supplySag reason) s = .next { s with
        pins := { s.pins with
          pwrOk := s.pins.pwrOk && decide (reason ≠ 1), auxOff := s.pins.auxOff || decide (reason = 2) },
        tack := { s.tack with mainGood := s.tack.mainGood && decide (reason ≠ 0 ∧ reason ≠ 1) } }) ∧
    exec (.supplySag 3) s = .next s ∧
    (w.saving ≠ 2 → exec .pvHoldExhausted s = .next { s with pins := { s.pins with
      holdOff := true, saveDone := s.pins.saveDone && !s.pins.auxOff } }) ∧
    (w.saving = 2 →
      let b := mramSlot (saveSlot s)
      let held := fun (s' : State) (r : BitVec 2) (done : Bool) => s'.pwr.saving = 5 ∧ s'.pwr.saveRes = r ∧
        s'.pwr.saveReason = w.sagReason ∧
        s'.tack.hold = true ∧ s'.pins.saveDone = done ∧
        (∀ a, a < b ∨ b + 0x10000 ≤ a → tabGet memDefault s'.mram a = tabGet memDefault s.mram a) ∧
        OnlyChanges [.pwr, .tack, .pins, .mram] s s'
      (s.pins.holdOff = true → Completes .saveComplete s fun s' => held s' 2 false ∧ mramNat s' (b + 0xFFFC) 4 = 0) ∧
      (s.pins.holdOff = false → (∀ f ∈ w.shadow, f.1 + f.2.1 ≤ 0x4E00) →
        Completes .saveComplete s fun s' => held s' 1 true ∧
        mramNat s' (b + 0xFFFC) 4 = 0x5A5AA5A5 ∧ mramNat s' (b + 0x2C) 4 = (recordCrc s' b).toNat) ∧
      Completes .pvHoldExhausted s fun s' => held s' 2 false ∧ s'.pins.holdOff = true ∧
        mramNat s' (b + 0xFFFC) 4 = 0) ∧
    (deviceUp s = true → 3 ≤ s.tack.step.toNat →
      exec .saveShadowRefresh s = .next { s with pwr := { w with shadow := saveValues s } })

/-- R389, R392, R393, R395, R397: a scan stores the reading of each channel that is on; a die's temperature is the
higher of its two VALID diodes and its band rises with it; L_T follows the hottest unit; two scans in a row at 110 °C
on a VALID channel shut the device down, with its pens FAULTED; the scans that let an engine's band fall are counted. -/
def Obligations.ThermalScans : Prop :=
  ∀ (rs : List (Nat × Int)) (opens : List Nat) (s : State), s.therm.shutdown = false → s.pwr.saving = 0 →
    Completes (.thermalScan rs opens) s fun s' =>
      (∀ c, c < 254 → chanOn s c = true → (s'.sensor c).temp = max (-2048) (min 2047
        (((rs.find? fun r => r.1 = c).map (·.2)).getD (s.sensor c).temp))) ∧
      (∀ q, q < 72 → unitPowered s q = true → (s'.sensor (2 * q)).st = 0 → (s'.sensor (2 * q + 1)).st = 0 →
        let t := max (s'.sensor (2 * q)).temp (s'.sensor (2 * q + 1)).temp
        (s'.unit q).temp = t ∧ (s'.unit q).est = false ∧
        ((s.unit q).band.toNat < bandOf t → (s'.unit q).band = BitVec.ofNat 3 (bandOf t))) ∧
      (824 ≤ s'.therm.tHot → s'.therm.lt.toNat = min 56 (s.therm.lt.toNat + 16)) ∧
      (776 ≤ s'.therm.tHot → s'.therm.tHot < 824 → s'.therm.lt.toNat = min 56 (s.therm.lt.toNat + 4)) ∧
      (s'.therm.tHot < 752 → 10 ≤ s.therm.cool + 1 → s'.therm.holds = [] → s'.therm.lt.toNat = s.therm.lt.toNat - 2) ∧
      (752 ≤ s'.therm.tHot → s'.therm.tHot < 776 → s'.therm.lt = s.therm.lt) ∧
      (∀ c, c < 224 → chanOn s c = true → (s'.sensor c).st = 0 → 880 ≤ (s'.sensor c).temp → 1 ≤ (s.sensor c).hot →
        s'.therm.shutdown = true ∧ s'.flt.failed = true ∧ s'.tack.readyNow = false ∧ (s'.frec srcTherm).valid = true ∧
        (s'.frec srcTherm).cls = 3 ∧
        (s.flt.failed = false → ∀ p, p < 64 → (s.pen p).st ≠ .free → (s'.pen p).st = .faulted)) ∧
      (s'.therm.shutdown = false →
        (∀ e, e < 8 → let b := (s.oe e).band.toNat
          (s'.oe e).cool = if 0 < b ∧ ∀ t ∈ oeReadings s' e, t ≤ bandEdge b - 24 then min 10 ((s.oe e).cool + 1)
            else 0) ∧
        OnlyChanges [.therm, .ms, .pwr, .flt, .host, .oes] s s')

/-! ### Faults, injections and self-tests -/

/-- R8, R223, R330, R404 to R408, R411, R412: a report makes or joins its source's record and enters the log; a fatal
one fails the device, one of a READY engine's loss is that loss; an acknowledgement with the record's COUNT clears it,
or waits for its conditions; a bucket leaks; the heartbeat. -/
def Obligations.FaultRecords : Prop :=
  ∀ (src cause : BitVec 16) (addr : BitVec 64) (v : Reg32) (s : State),
    let x := src.toNat
    let c := cause.toNat
    let r := s.frec x
    let det := causeClass s.sys.manager c
    let others := fun (s' : State) => ∀ y, y ≠ x → s'.frec y = s.frec y
    let lost := (c = cOeLost ∨ c = cClockLost) ∧ (s.oe (x - srcOe 0)).st = .ready
    (reportKnown x c = true → s.pwr.saving ≤ 1 → det < 3 → c ≠ cHostDieLost → ¬ lost →
      Completes (.faultReport src cause addr) s fun s' =>
      let q := s'.frec x
      others s' ∧ s'.flt.head = s.flt.head + 1 ∧ tabGet (fun _ => {}) s'.flt.log (s.flt.head.toNat % 512) = q ∧
      q.valid = true ∧ q.acked = false ∧ q.lastCause = cause ∧ q.lastTime = s.time ∧
      (causeCondition c = true → cause ∈ q.conds) ∧
      (r.valid = false → q.source = src ∧ q.cause = cause ∧ q.cls.toNat = det ∧ q.first.toNat = det ∧ q.count = 1 ∧
        q.time = s.time ∧ q.addr = addr ∧ q.escalated = false ∧ q.injected = false) ∧
      (r.valid = true → q.count = satAdd 16 r.count 1 ∧ q.cause = r.cause ∧ q.addr = r.addr ∧ q.time = r.time ∧
        (det = r.cls.toNat → r.acked = false → q.cls = r.cls + 1 ∧ q.escalated = true) ∧
        (det = r.cls.toNat → r.acked = true → q.cls = r.cls) ∧
          (det ≠ r.cls.toNat → q.cls.toNat = max det r.cls.toNat)) ∧
      OnlyChanges [.flt, .host, .pnet] s s') ∧
    (reportKnown x c = true → s.pwr.saving ≤ 1 → lost → Completes (.faultReport src cause addr) s fun s' =>
      (s'.oe (x - srcOe 0)).st = .lost ∧ (s'.frec x).valid = true ∧ ∀ p, p < 8 →
        (s'.link (8 * (x - srcOe 0) + p)).st = .down) ∧
    (reportKnown x c = true → s.pwr.saving ≤ 1 → det = 3 → c ≠ cHostDieLost → s.flt.failed = false →
      (c = cShutdown → s.therm.shutdown = false ∧ s.pwr.saving = 0) →
      Completes (.faultReport src cause addr) s fun s' => s'.flt.failed = true ∧ s'.loadNow = none ∧ s'.loadQ = [] ∧
        (c = cShutdown → s'.therm.shutdown = true ∧ s'.tack.readyNow = false ∧ s'.host.linkUp = false) ∧ ∀ p, p < 64 →
          (s.pen p).st ≠ .free → (s'.pen p).st = .faulted) ∧
    (PfOpen s →
      (r.valid = true → bitsAt v.toNat 0 16 = r.count.toNat → r.conds = [] →
        exec (.faultAck src v) s = .next ((s.setFrec x {}).answer .ok)) ∧
      (r.valid = true → bitsAt v.toNat 0 16 = r.count.toNat → r.conds ≠ [] →
        exec (.faultAck src v) s = .next ((s.setFrec x { r with acked := true }).answer .ok)) ∧
      (r.valid = false ∨ bitsAt v.toNat 0 16 ≠ r.count.toNat → exec (.faultAck src v) s = .next (s.answer .ok))) ∧
    (cause ∈ r.conds →
      (r.acked = true → (∀ q ∈ r.conds, q = cause) → exec (.conditionEnd src cause) s = .next (s.setFrec x {})) ∧
      (r.acked = false ∨ (∃ q ∈ r.conds, q ≠ cause) → exec (.conditionEnd src cause) s
        = .next (s.setFrec x { r with conds := r.conds.filter fun q => q ≠ cause }))) ∧
    (cause ∉ r.conds → exec (.conditionEnd src cause) s = .next s) ∧
    (∀ b : BitVec 3, let key := levelKey b.toNat x
      ((s.bucket b.toNat).leak ≠ 0 → exec (.bucketLeak b src) s = .next (s.setLevel key (s.level key - 1))) ∧
      ((s.bucket b.toNat).leak = 0 → exec (.bucketLeak b src) s = .next s)) ∧
    exec (.faultHeartbeat v) s
      = .next (State.answer { s with flt := { s.flt with hbSeen := true, hbLost := false } } .ok) ∧
    exec .heartbeatLost s = .next { s with flt := { s.flt with hbLost := true } }

/-- R413, R414, R416: FAULT_INJ_CTRL arms the checker selected, or refuses; FAULT_TEST starts a self-test whose
conditions hold and wipes what it tests, or answers BUSY or BAD_OP; its end sets the result and the unit. -/
def Obligations.InjectionsAndTests : Prop :=
  ∀ (mask : BitVec 8) (t : BitVec 12) (op : BitVec 4) (s : State),
    let f := s.flt
    let n := t.toNat
    let put := fun (g : Flt) => State.answer { s with flt := g } .ok
    let result := fun (r : BitVec 3) => put { f with testResult := r }
    let chk := checkerBits f.injSource.toNat f.injChecker.toNat
    let arms := fun (c : Instr) (continuous : Bool) =>
      (∀ k, chk = some k → exec c s = .next (put { f with
        arm := some (Arming.mk f.injSource f.injChecker (mask &&& BitVec.ofNat 8 (2 ^ k - 1)) continuous),
        injShown := mask &&& BitVec.ofNat 8 (2 ^ k - 1), injResult := 0 })) ∧
      (chk = none → exec c s = .next (put { f with injResult := 2 }))
    (PfOpen s →
      (∀ k, chk = some k → exec (.injectDisarm mask) s
        = .next (put { f with arm := none, injShown := mask &&& BitVec.ofNat 8 (2 ^ k - 1) })) ∧
      (chk = none → exec (.injectDisarm mask) s = .next (put { f with arm := none, injShown := 0 })) ∧
      (injRefused s = false → arms (.injectOnce mask) false ∧ arms (.injectContinuous mask) true ∧
        exec (.injModeReserved mask) s = .next (put { f with injResult := 2 })) ∧
      (injRefused s = true → ∀ c ∈ [Instr.injectOnce mask, .injectContinuous mask, .injModeReserved mask],
        exec c s = .next (put { f with injResult := 1 })) ∧
      (f.test = none →
        (stallTestOk s n = true → Completes (.stallTest t) s fun s' => s'.flt = { f with test := some (.stall t) } ∧
          (∀ off, off < 2 ^ 18 → s'.mangerByte n off = 0) ∧
          (∀ u off, u ≠ n → off < 2 ^ 18 → s'.mangerByte u off = s.mangerByte u off) ∧ s'.resp = .ok ∧
          OnlyChanges [.flt, .manger, .mangerInj, .stalls, .resp] s s') ∧
        (dieTestOk s n = true → Completes (.dieTest t) s fun s' => s'.flt = { f with test := some (.die n) } ∧
          (s'.site n).testing = true ∧ (s'.site n).powered = true ∧ (∀ p, p ≠ n → s'.site p = s.site p) ∧
          s'.resp = .ok ∧ OnlyChanges [.flt, .pnet, .pwr, .resp] s s') ∧
        (memTestOk s n = true → Completes (.memTest t) s fun s' => s'.flt = { f with test := some (.stack n) } ∧
          (∀ a, (s.hub n).st ≠ .excluded → hubOf s (64 * (a / 64)) = n → s'.byteAt a = 0) ∧
          (∀ a, hubOf s (64 * (a / 64)) ≠ n → s'.byteAt a = s.byteAt a) ∧ s'.resp = .ok ∧
          OnlyChanges [.flt, .ms, .resp] s s')) ∧
      (f.test ≠ none ∨ stallTestOk s n = false → exec (.stallTest t) s = .next (result 2)) ∧
      (f.test ≠ none ∨ dieTestOk s n = false → exec (.dieTest t) s = .next (result 2)) ∧
      (f.test ≠ none ∨ memTestOk s n = false → exec (.memTest t) s = .next (result 2)) ∧
      (op.toNat = 0 ∨ 3 < op.toNat → exec (.faultTestBadOp op) s = .next (result 3))) ∧
    (∀ pass : Bool, let r : BitVec 3 := if pass then 0 else 1
      (∀ u, f.test = some (.stall u) → Completes (.testComplete pass) s fun s' =>
        s'.flt = { f with test := none, testResult := r } ∧
        (s'.stall u.toNat).failed = !pass ∧ ∀ w, w ≠ u.toNat → s'.stall w = s.stall w) ∧
      (∀ p, f.test = some (.die p) → Completes (.testComplete pass) s fun s' =>
        s'.flt = { f with test := none, testResult := r } ∧
        (s'.site p).testing = false ∧ (s'.site p).powered = false ∧ ∀ q, q ≠ p → s'.site q = s.site q) ∧
      (∀ h, f.test = some (.stack h) → Completes (.testComplete pass) s fun s' =>
        s'.flt = { f with test := none, testResult := r } ∧
        (∀ a, (s.hub h).st ≠ .excluded → hubOf s (64 * (a / 64)) = h → s'.byteAt a = 0) ∧
        (∀ a, hubOf s (64 * (a / 64)) ≠ h → s'.byteAt a = s.byteAt a) ∧ OnlyChanges [.flt, .ms] s s'))

/-! ### Counters and registers -/

/-- R8, R420 to R427, R434: the PMU windows: a read of a counter's low half latches its high half; a staged high half
loads with the low one; configuration, freeze and overflow bits; a counter that passes 2^48 - 1 wraps and sets its OVF
bit. R7, R324, R325, R334, R336: an access of 4 bytes to BAR0 writes or reads the register at its offset; one of 8
bytes is that of the LO register and then that of the HI register; one of another size or alignment, one over closed
BARs and one before READY outside the ranges that serve then are answered UR; one that a VF may not make is denied,
counted and answered UR; one on an Insecure stream is discarded. A write to SYS_CTRL sets its fields. That the two
halves of an 8-byte access give one answer is the model's choice (log [76]). -/
def Obligations.CountersAndRegisters : Prop :=
  (∀ (f : Func) (u : Fin 97) (d : Die) (n : BitVec 4) (v : Reg32) (s : State),
    let w := u.val
    let i := n.toNat
    let p := s.pmu w
    let c := p.cfgAt i
    let own := fun (k : Nat) => Served s f.toNat ∧ s.tack.readyNow = true ∧ (f = 0 ∨ pmuOwn s f.toNat k = true)
    let put := fun (q : Pmu) => (s.setPmu w q).answer .ok
    (own w →
      (i < pmuCounters w →
        exec (.pmuCntLoRead f u n) s = .next ((s.setPmu w { p with
          latch := tabSet (fun _ => 0) p.latch i ((p.count i >>> 32).setWidth 16)
          }).answerVal ((p.count i).toNat % 2 ^ 32)) ∧
        exec (.pmuCntHiWrite f u n v) s = .next (put { p with
          stage := tabSet (fun _ => 0) p.stage i (v.setWidth 16) }) ∧
        exec (.pmuCntLoWrite f u n v) s = .next (put { p with
          cnt := tabSet (fun _ => 0) p.cnt i (BitVec.ofNat 48 (v.toNat + 2 ^ 32 * (p.stageAt i).toNat)) }) ∧
        (Completes (.pmuCfgWrite f u n v) s fun s' =>
          let q := s'.pmu w
          q.cfgAt i = PmuCfg.mk (v.setWidth 10) (v.extractLsb' 10 6) (v.getLsbD 16) (v.getLsbD 17) (v.getLsbD 18) ∧
          (∀ j, j ≠ i → q.cfgAt j = p.cfgAt j) ∧ q.cnt = p.cnt ∧
          q.holdAt i = (if c.event = v.setWidth 10 ∧ c.sel = v.extractLsb' 10 6 ∧ c.selEn = v.getLsbD 16
            then p.holdAt i else 2) ∧ s'.resp = .ok ∧ (∀ k, k ≠ w → s'.pmu k = s.pmu k) ∧
          OnlyChanges [.pmus, .resp] s s')) ∧
      exec (.pmuCtrlWrite f u v) s = .next (put { p with freeze := v.getLsbD 0 }) ∧
      exec (.pmuOvfWrite f u v) s = .next (put { p with ovf := p.ovf &&& ~~~(v.setWidth 16) })) ∧
    (∀ occ, i < pmuCounters w → p.freeze = false → c.en = true → pmuBad w i c = false → p.holdAt i = 0 → c.event ≠ 0 →
      2 ^ 48 ≤ (p.count i).toNat + occ → Completes (.counterOverflow u n occ) s fun s' =>
        (s'.pmu w).count i = BitVec.ofNat 48 ((p.count i).toNat + occ) ∧ (s'.pmu w).ovf.getLsbD i = true ∧
        (c.ovfFreeze = true → (s'.pmu w).freeze = true) ∧ (∀ j, j < i → (s'.pmu w).count j = p.count j) ∧
        OnlyChanges [.pmus] s s') ∧
    (own d.toNat → exec (.pmuSampleDroppedRead f d) s = .next ((s.setPmu d.toNat { s.pmu d.toNat with
      sDropped := 0 }).answerVal
      (s.pmu d.toNat).sDropped.toNat))) ∧
  (∀ (f : Func) (off : BitVec 30) (v : Reg32) (data : BitVec 64) (s : State),
    let k := off.toNat
    let served := coreRange k = true ∨ s.tack.readyNow = true
    let refused := fun (c : Instr) => Completes c s fun s' => s'.resp = .ur ∧
      s'.host.denied = satAdd 32 s.host.denied 1 ∧ OnlyChanges [.host, .flt, .resp] s s'
    (Served s f.toNat → k % 4 = 0 → served →
      (f = 0 ∨ vfMayWrite s f.toNat k = true → exec (.registerWrite f off 4 (some data)) s
        = .next ((writeReg s f false k (data.extractLsb' 0 32)).answer .ok)) ∧
      (f = 0 ∨ vfMayRead s f.toNat k = true →
        exec (.registerWrite f off 4 none) s = .next (answerRead (readReg s k))) ∧
      (f ≠ 0 → vfMayWrite s f.toNat k = false → refused (.registerWrite f off 4 (some data))) ∧
      (f ≠ 0 → vfMayRead s f.toNat k = false → refused (.registerWrite f off 4 none))) ∧
    (∀ d : Option (BitVec 64),
      (k % 8 = 0 → ∀ a b, exec (.registerWrite f off 4 d) s = .next a →
        exec (.registerWrite f (off + 4) 4 (d.map fun x : BitVec 64 => BitVec.ushiftRight x 32)) a = .next b →
        exec (.registerWrite f off 8 d) s = .next (b.answer (bothHalves a.resp b.resp))) ∧
      (ideDiscards s f.toNat = false →
        (barsOpen s f.toNat = false ∨ ¬ served → exec (.registerWrite f off 4 d) s = .next (s.answer .ur)) ∧
        ∀ size, size ≠ 4 ∨ k % 4 ≠ 0 → size ≠ 8 ∨ k % 8 ≠ 0 →
          exec (.registerWrite f off size d) s = .next (s.answer .ur)) ∧
      (ideDiscards s f.toNat = true → exec (.registerWrite f off 4 d) s = .next (s.answer .none))) ∧
    (PfOpen s → exec (.registerWrite 0 0x10004 4 (some (v.setWidth 64))) s = .next (State.answer { s with sys := {
      s.sys with autoRoute := v.getLsbD 0, noticeEn := v.getLsbD 1, intakeEn := v.getLsbD 2, intakeChute :=
        v.extractLsb' 16 16 } } .ok)))
end

