-- ==== Sys2Proof/Laws/Flit.lean ====
section
/-! SUPPORT. Flits (R250, R251, R254): what a flit that was made says when it is read back. -/

namespace Sys2Proof.Laws

open Sys2Proof Sys2Proof.Machine

theorem flitHeader_lt (t v q a : Nat) : flitHeader t v q a < 2 ^ 31 := by unfold flitHeader; omega

/-- The low `k` bytes of a number do not depend on its higher bits. -/
theorem leBytes_add (k a b : Nat) : leBytes (a + 256 ^ k * b) k = leBytes a k := by
  induction k generalizing a with
  | zero => rfl
  | succ k ih =>
    have hb : BitVec.ofNat 8 (a + 256 ^ (k + 1) * b) = BitVec.ofNat 8 a := by
      apply BitVec.eq_of_toNat_eq
      simp only [BitVec.toNat_ofNat]
      rw [show 256 ^ (k + 1) * b = 2 ^ 8 * (256 ^ k * b) by rw [Nat.pow_succ]; ring, Nat.add_mul_mod_self_left]
    have hd : (a + 256 ^ (k + 1) * b) / 256 = a / 256 + 256 ^ k * b := by
      rw [show 256 ^ (k + 1) * b = 256 * (256 ^ k * b) by rw [Nat.pow_succ]; ring, Nat.add_mul_div_left _ _ (by omega)]
    simp only [leBytes, hb, hd, ih]

theorem mkFlit_toNat (t v q a : Nat) (p : BitVec 512) :
    (mkFlit t v q a p).toNat = flitHeader t v q a + 2 ^ 32 * p.toNat +
      2 ^ 544 * (crc32 (leBytes (flitHeader t v q a + 2 ^ 32 * p.toNat) 68)).toNat := by
  have h := flitHeader_lt t v q a
  have hp := p.isLt
  have hc := (crc32 (leBytes (flitHeader t v q a + 2 ^ 32 * p.toNat) 68)).isLt
  simp only [mkFlit, BitVec.toNat_ofNat]
  apply Nat.mod_eq_of_lt
  omega

/-- R254: a flit that was made has a good CRC. -/
@[simp] theorem flitGood_mkFlit (t v q a : Nat) (p : BitVec 512) : flitGood (mkFlit t v q a p) = true := by
  have h := flitHeader_lt t v q a
  have hp := p.isLt
  have hb : flitBodyCrc (mkFlit t v q a p) = crc32 (leBytes (flitHeader t v q a + 2 ^ 32 * p.toNat) 68) := by
    unfold flitBodyCrc
    rw [mkFlit_toNat, show (2 : Nat) ^ 544 = 256 ^ 68 by rw [show (256 : Nat) = 2 ^ 8 from rfl, ← pow_mul], leBytes_add]
  unfold flitGood
  rw [hb, decide_eq_true_iff]
  apply BitVec.eq_of_toNat_eq
  have hc := (crc32 (leBytes (flitHeader t v q a + 2 ^ 32 * p.toNat) 68)).isLt
  simp only [flitCrc, BitVec.extractLsb'_toNat, mkFlit_toNat, Nat.shiftRight_eq_div_pow]
  omega

@[simp] theorem flitPayload_mkFlit (t v q a : Nat) (p : BitVec 512) : flitPayload (mkFlit t v q a p) = p := by
  have h := flitHeader_lt t v q a
  have hp := p.isLt
  apply BitVec.eq_of_toNat_eq
  simp only [flitPayload, BitVec.extractLsb'_toNat, mkFlit_toNat, Nat.shiftRight_eq_div_pow]
  omega

@[simp] theorem flitTyp_mkFlit (t v q a : Nat) (p : BitVec 512) : flitTyp (mkFlit t v q a p) = t % 16 := by
  simp only [flitTyp, bitsAt, mkFlit_toNat, flitHeader]
  omega

@[simp] theorem flitVc_mkFlit (t v q a : Nat) (p : BitVec 512) : flitVc (mkFlit t v q a p) = v % 8 := by
  simp only [flitVc, bitsAt, mkFlit_toNat, flitHeader]
  omega

@[simp] theorem flitSeq_mkFlit (t v q a : Nat) (p : BitVec 512) : flitSeq (mkFlit t v q a p) = q % 4096 := by
  simp only [flitSeq, bitsAt, mkFlit_toNat, flitHeader]
  omega

@[simp] theorem flitAck_mkFlit (t v q a : Nat) (p : BitVec 512) : flitAck (mkFlit t v q a p) = a % 4096 := by
  simp only [flitAck, bitsAt, mkFlit_toNat, flitHeader]
  omega

/-- R253: with no frames and no whole flit in the stream, the flit that arrives is the one the command brings. -/
theorem arrivingFlit_whole (l : LinkId) (fl : RxFlit) (s : State) (h : fl.frames = [])
    (hm : (s.ll l.toNat).cmdRx = none) (hb : (s.link l.toNat).rxBits.length < 576) :
    arrivingFlit l fl s = fl.bits := by
  have a : applyRxMap s l.toNat = s := by simp [applyRxMap, hm]
  simp only [arrivingFlit, rxSlotFlit, a, rxTake, h, List.foldl_nil]
  rw [if_neg (by omega)]

end Sys2Proof.Laws
end

