-- ==== Sys2Proof/Laws/Tab.lean ====
section
/-! SUPPORT. Laws of sparse tables and byte memories: a read after a write, and the canonical form kept. -/

namespace Sys2Proof.Machine

open Sys2Proof

variable {α : Type} [DecidableEq α] (d : Nat → α)

omit [DecidableEq α] in
@[simp] theorem tabGet_nil (k : Nat) : tabGet d [] k = d k := rfl

omit [DecidableEq α] in
theorem tabGet_cons (e : Nat × α) (t : Tab α) (k : Nat) :
    tabGet d (e :: t) k = if e.1 = k then e.2 else tabGet d t k := rfl

/-! ### Reads after writes -/

omit [DecidableEq α] in
theorem tabGet_filter (t : Tab α) (p : Nat → Bool) (k : Nat) :
    tabGet d (t.filter fun e => p e.1) k = if p k then tabGet d t k else d k := by
  induction t with
  | nil => simp [tabGet]
  | cons e t ih =>
    by_cases he : p e.1 <;> by_cases hk : e.1 = k <;> simp_all [tabGet]

omit [DecidableEq α] in
@[simp] theorem tabGet_tabErase (t : Tab α) (k j : Nat) :
    tabGet d (tabErase t k) j = if j = k then d j else tabGet d t j := by
  have h := tabGet_filter d t (fun i => decide (i ≠ k)) j
  simp only [tabErase]
  rw [h]
  by_cases hj : j = k <;> simp [hj]

omit [DecidableEq α] in
@[simp] theorem tabGet_tabPut (t : Tab α) (k j : Nat) (v : α) :
    tabGet d (tabPut t k v) j = if j = k then v else tabGet d t j := by
  induction t with
  | nil => by_cases h : k = j <;> simp [tabPut, tabGet, h, eq_comm]
  | cons e t ih =>
    simp only [tabPut]
    split
    · next h => subst h; by_cases hj : e.1 = j <;> simp [tabGet, hj, Ne.symm]
    · split
      · by_cases hj : k = j <;> simp [tabGet, hj, eq_comm]
      · next h _ =>
        by_cases hj : e.1 = j
        · have : ¬ j = k := by omega
          simp [tabGet, hj, this]
        · simp [tabGet, hj, ih]

/-- A read after a write of the table: the value written at its key, and every other key as before. -/
@[simp] theorem tabGet_tabSet (t : Tab α) (k j : Nat) (v : α) :
    tabGet d (tabSet d t k v) j = if j = k then v else tabGet d t j := by
  unfold tabSet
  split
  · next h => subst h; rw [tabGet_tabErase]; by_cases hj : j = k <;> simp [hj]
  · rw [tabGet_tabPut]

theorem tabGet_tabUpd (t : Tab α) (k j : Nat) (f : α → α) :
    tabGet d (tabUpd d t k f) j = if j = k then f (tabGet d t k) else tabGet d t j := by
  simp [tabUpd]

omit [DecidableEq α] in
theorem tabGet_tabClear (t : Tab α) (lo hi k : Nat) :
    tabGet d (tabClear t lo hi) k = if lo ≤ k ∧ k < hi then d k else tabGet d t k := by
  unfold tabClear
  rw [tabGet_filter d t (fun i => decide (i < lo) || decide (hi ≤ i)) k]
  by_cases h1 : lo ≤ k <;> by_cases h2 : k < hi <;> simp [h1, h2]

/-! ### The canonical form -/

omit [DecidableEq α] in
theorem tabAbove_filter (k : Nat) (t : Tab α) (p : Nat × α → Bool) (h : tabAbove k t = true) :
    tabAbove k (t.filter p) = true := by
  simp only [tabAbove, List.all_eq_true] at *
  exact fun e he => h e (List.mem_filter.mp he).1

theorem tabWf_filter (t : Tab α) (p : Nat × α → Bool) (h : tabWf d t = true) : tabWf d (t.filter p) = true := by
  induction t with
  | nil => rfl
  | cons e t ih =>
    simp only [tabWf, Bool.and_eq_true, decide_eq_true_eq] at h
    simp only [List.filter_cons]
    split
    · simp [tabWf, h.1.1, tabAbove_filter e.1 t p h.1.2, ih h.2]
    · exact ih h.2

theorem tabWf_tabErase (t : Tab α) (k : Nat) (h : tabWf d t = true) : tabWf d (tabErase t k) = true :=
  tabWf_filter d t _ h

theorem tabWf_tabClear (t : Tab α) (lo hi : Nat) (h : tabWf d t = true) : tabWf d (tabClear t lo hi) = true :=
  tabWf_filter d t _ h

omit [DecidableEq α] in
theorem tabAbove_mono (j k : Nat) (t : Tab α) (hjk : j ≤ k) (h : tabAbove k t = true) : tabAbove j t = true := by
  simp only [tabAbove, List.all_eq_true, decide_eq_true_eq] at *
  exact fun e he => lt_of_le_of_lt hjk (h e he)

omit [DecidableEq α] in
theorem tabAbove_tabPut (j k : Nat) (t : Tab α) (v : α) (hjk : j < k) (h : tabAbove j t = true) :
    tabAbove j (tabPut t k v) = true := by
  induction t with
  | nil => simp [tabPut, tabAbove, hjk]
  | cons e t ih =>
    simp only [tabAbove, List.all_cons, Bool.and_eq_true, decide_eq_true_eq] at h ih
    simp only [tabPut]
    split
    · simp [tabAbove, hjk, h.2]
    · split
      · simp [tabAbove, hjk, h.1, h.2]
      · simp only [tabAbove, List.all_cons, Bool.and_eq_true, decide_eq_true_eq]
        exact ⟨h.1, ih h.2⟩

theorem tabWf_tabPut (t : Tab α) (k : Nat) (v : α) (hv : v ≠ d k) (h : tabWf d t = true) :
    tabWf d (tabPut t k v) = true := by
  induction t with
  | nil => simp [tabPut, tabWf, tabAbove, hv]
  | cons e t ih =>
    simp only [tabWf, Bool.and_eq_true, decide_eq_true_eq] at h
    simp only [tabPut]
    split
    · next he => subst he; simp [tabWf, hv, h.1.2, h.2]
    · split
      · next hne hlt =>
        have ha : tabAbove k t = true := tabAbove_mono k e.1 t (le_of_lt hlt) h.1.2
        have hc : tabAbove k (e :: t) = true := by
          simp only [tabAbove, List.all_cons, Bool.and_eq_true, decide_eq_true_eq] at ha ⊢
          exact ⟨hlt, ha⟩
        simp [tabWf, hv, hc, h.1.1, h.1.2, h.2]
      · next hne hlt =>
        have ha := tabAbove_tabPut e.1 k t v (by omega) h.1.2
        simp [tabWf, h.1.1, ha, ih h.2]

/-- A write keeps the canonical form. -/
theorem tabWf_tabSet (t : Tab α) (k : Nat) (v : α) (h : tabWf d t = true) : tabWf d (tabSet d t k v) = true := by
  unfold tabSet
  split
  · exact tabWf_tabErase d t k h
  · next hv => exact tabWf_tabPut d t k v hv h

theorem tabWf_tabUpd (t : Tab α) (k : Nat) (f : α → α) (h : tabWf d t = true) : tabWf d (tabUpd d t k f) = true :=
  tabWf_tabSet d t k _ h

/-! ### Byte memories -/

/-- Every memory operation keeps the canonical form. -/
theorem memWf_memStore (m : Mem) (a : Nat) (bs : List Byte) (h : memWf m = true) : memWf (memStore m a bs) = true := by
  induction bs generalizing m a with
  | nil => exact h
  | cons b bs ih => exact ih _ _ (tabWf_tabSet memDefault m a b h)

theorem memWf_tabClear (m : Mem) (lo hi : Nat) (h : memWf m = true) : memWf (tabClear m lo hi) = true :=
  tabWf_tabClear memDefault m lo hi h

/-- A byte after a store: the byte stored there, else the byte before. -/
theorem tabGet_memStore (m : Mem) (a : Nat) (bs : List Byte) (k : Nat) :
    tabGet memDefault (memStore m a bs) k
      = if a ≤ k ∧ k < a + bs.length then bs.getD (k - a) 0 else tabGet memDefault m k := by
  induction bs generalizing m a with
  | nil =>
    have : ¬ (a ≤ k ∧ k < a) := by omega
    simp [memStore, this]
  | cons b bs ih =>
    simp only [memStore, ih, tabGet_tabSet, List.length_cons]
    by_cases h1 : k = a
    · subst h1; simp
    · by_cases h2 : a + 1 ≤ k ∧ k < a + 1 + bs.length
      · have h3 : a ≤ k ∧ k < a + (bs.length + 1) := by omega
        have h4 : k - a = (k - (a + 1)) + 1 := by omega
        rw [if_pos h2, if_pos h3, h4]; rfl
      · have h3 : ¬ (a ≤ k ∧ k < a + (bs.length + 1)) := by omega
        rw [if_neg h2, if_neg h3, if_neg h1]

@[simp] theorem length_leBytes (v n : Nat) : (leBytes v n).length = n := by
  induction n generalizing v with
  | zero => rfl
  | succ n ih => simp [leBytes, ih]

@[simp] theorem length_lineBytes (x : Line) : (lineBytes x).length = 64 := length_leBytes _ _

/-- Reading back the bytes stored. -/
theorem memBytes_memStore (m : Mem) (a : Nat) (bs : List Byte) : memBytes (memStore m a bs) a bs.length = bs := by
  have key : ∀ (n : Nat) (m : Mem) (a : Nat) (xs : List Byte), xs.length = n →
      (∀ i, i < n → tabGet memDefault m (a + i) = xs.getD i 0) → memBytes m a n = xs := by
    intro n
    induction n with
    | zero => intro m a xs h _; exact (List.length_eq_zero_iff.mp h).symm
    | succ n ih =>
      intro m a xs h g
      match xs, h with
      | x :: xs, h =>
        have h0 : tabGet memDefault m a = x := g 0 (by omega)
        simp only [memBytes, h0, List.cons.injEq, true_and]
        refine ih m (a + 1) xs (by simpa using h) fun i hi => ?_
        have := g (i + 1) (by omega)
        rw [show a + 1 + i = a + (i + 1) by omega, this]; rfl
  refine key _ _ _ _ rfl fun i hi => ?_
  rw [tabGet_memStore, if_pos (by omega), Nat.add_sub_cancel_left]

theorem leNat_leBytes (v n : Nat) : leNat (leBytes v n) = v % 256 ^ n := by
  induction n generalizing v with
  | zero => simp [leBytes, leNat, Nat.mod_one]
  | succ n ih =>
    have h : 256 ^ (n + 1) = 256 * 256 ^ n := by rw [pow_succ, Nat.mul_comm]
    rw [h, Nat.mod_mul]
    simp [leBytes, leNat, ih]

/-- A line is the line of its bytes. -/
@[simp] theorem lineOf_lineBytes (x : Line) : lineOf (lineBytes x) = x := by
  have h : (256 : Nat) ^ 64 = 2 ^ (8 * 64) := by rw [show (256 : Nat) = 2 ^ 8 from rfl, ← Nat.pow_mul]
  have hx : x.toNat % 256 ^ 64 = x.toNat := by rw [h]; exact Nat.mod_eq_of_lt x.isLt
  rw [lineOf, lineBytes, leNat_leBytes, hx, BitVec.ofNat_toNat, BitVec.setWidth_eq]

end Sys2Proof.Machine
end

