-- ==== Sys2Proof/Laws/Frame.lean ====
section
/-! SUPPORT. What an operation changes: the parts it touches, and that it keeps every memory canonical. The rules by
which the lemma of an operation follows from those of the operations it calls. -/

namespace Sys2Proof.Machine

open Sys2Proof

/-- The list covers another. -/
def covers (qs ps : List Part) : Bool := qs.all fun q => ps.any fun p => p.ctorIdx == q.ctorIdx

theorem mem_of_covers {qs ps : List Part} (h : covers qs ps = true) {q : Part} (hq : q ∈ qs) : q ∈ ps := by
  simp only [covers, List.all_eq_true, List.any_eq_true, beq_iff_eq] at h
  obtain ⟨p, hp, e⟩ := h q hq
  have : p = q := by revert e; cases p <;> cases q <;> simp [Part.ctorIdx]
  exact this ▸ hp

/-- An operation that takes `s` to `t` changes only some parts, and keeps canonical memories canonical. -/
structure Moves (ps : List Part) (s t : State) : Prop where
  only : OnlyChanges ps s t
  canon : s.canonical → t.canonical

variable {ps qs : List Part} {s t u : State}

theorem Part.same_refl (s : State) (p : Part) : p.same s s := by cases p <;> rfl

theorem Part.same_trans {p : Part} (h : p.same s t) (h' : p.same t u) : p.same s u := by
  cases p <;> exact Eq.trans h' h

theorem Moves.refl (ps : List Part) (s : State) : Moves ps s s := ⟨fun p _ => Part.same_refl s p, id⟩

theorem Moves.trans (h : Moves ps s t) (h' : Moves ps t u) : Moves ps s u :=
  ⟨fun p hp => Part.same_trans (h.only p hp) (h'.only p hp), fun c => h'.canon (h.canon c)⟩

theorem Moves.mono (h : Moves qs s t) (hp : covers qs ps = true) : Moves ps s t :=
  ⟨fun p hn => h.only p fun hq => hn (mem_of_covers hp hq), h.canon⟩

/-- After the moves to `t`, an operation that changes parts of the list. -/
theorem Moves.step (h : Moves qs t u) (hp : covers qs ps = true) (h' : Moves ps s t) : Moves ps s u :=
  h'.trans (h.mono hp)

theorem Moves.ite {c : Prop} [Decidable c] (h : Moves ps s t) (h' : Moves ps s u) :
    Moves ps s (if c then t else u) := by split <;> assumption

theorem Moves.ite_fst {α : Type} {c : Prop} [Decidable c] {x y : State × α} (h : Moves ps s x.1)
    (h' : Moves ps s y.1) : Moves ps s (if c then x else y).1 := by split <;> assumption

theorem Moves.fold {α : Type} {f : State → α → State} {xs : List α} (hf : ∀ st x, Moves ps st (f st x))
    (h : Moves ps s t) : Moves ps s (xs.foldl f t) := by
  induction xs generalizing t with
  | nil => exact h
  | cons x xs ih => exact ih (h.trans (hf t x))

theorem Moves.fold_fst {α β : Type} {f : State × β → α → State × β} {xs : List α} {y : State × β}
    (hf : ∀ st x, Moves ps st.1 (f st x).1) (h : Moves ps s y.1) : Moves ps s (xs.foldl f y).1 := by
  induction xs generalizing y with
  | nil => exact h
  | cons x xs ih => exact ih (h.trans (hf y x))

/-- A part is in the list. -/
def listed (p : Part) (ps : List Part) : Bool := ps.any fun q => q.ctorIdx == p.ctorIdx

theorem mem_of_listed {p : Part} (h : listed p ps = true) : p ∈ ps :=
  mem_of_covers (qs := [p]) (by simpa [covers, listed] using h) (by simp)

/-- A record update: the parts it leaves, and the memories it keeps canonical. -/
theorem Moves.upd
    {x_pending : List Instr}
    {x_time : BitVec 64}
    {x_free : Nat}
    {x_resp : Resp}
    {x_pins : Pins}
    {x_stalls : Tab Stall}
    {x_manger : Mem}
    {x_mangerInj : Tab (BitVec 8)}
    {x_strq : List StrLine}
    {x_pens : Tab Pen}
    {x_placement : Tab (BitVec 16)}
    {x_loadQ : List LoadJob}
    {x_loadNow : Option LoadJob}
    {x_ready : List (PenId × Nat)}
    {x_anchors : List AnchorMsg}
    {x_sinks : Tab Sink}
    {x_chutes : Tab Chute}
    {x_doorbells : Tab Doorbell}
    {x_chuteDies : Tab ChuteDie}
    {x_epStat : Tab PStat}
    {x_xoffRemote : Tab Bool}
    {x_ms : MemSys}
    {x_pnet : Pnet}
    {x_oes : Tab OeS}
    {x_links : Tab LinkS}
    {x_lls : Tab LL}
    {x_sys : SysS}
    {x_host : HostS}
    {x_hostMem : Mem}
    {x_tack : Tack}
    {x_flash : Mem}
    {x_spi0 : SpiDev}
    {x_spi1 : SpiDev}
    {x_mram : Mem}
    {x_pwr : Pwr}
    {x_therm : Therm}
    {x_flt : Flt}
    {x_pmus : Tab Pmu}
    (h_pending : x_pending = t.pending)
    (h_time : x_time = t.time ∨ listed .time ps = true := by first | exact Or.inl rfl | exact Or.inr rfl)
    (h_free : x_free = t.free ∨ listed .free ps = true := by first | exact Or.inl rfl | exact Or.inr rfl)
    (h_resp : x_resp = t.resp ∨ listed .resp ps = true := by first | exact Or.inl rfl | exact Or.inr rfl)
    (h_pins : x_pins = t.pins ∨ listed .pins ps = true := by first | exact Or.inl rfl | exact Or.inr rfl)
    (h_stalls : x_stalls = t.stalls ∨ listed .stalls ps = true := by first | exact Or.inl rfl | exact Or.inr rfl)
    (h_manger : x_manger = t.manger ∨ listed .manger ps = true := by first | exact Or.inl rfl | exact Or.inr rfl)
    (h_mangerInj : x_mangerInj = t.mangerInj ∨ listed .mangerInj ps = true :=
      by first | exact Or.inl rfl | exact Or.inr rfl)
    (h_strq : x_strq = t.strq ∨ listed .strq ps = true := by first | exact Or.inl rfl | exact Or.inr rfl)
    (h_pens : x_pens = t.pens ∨ listed .pens ps = true := by first | exact Or.inl rfl | exact Or.inr rfl)
    (h_placement : x_placement = t.placement ∨ listed .placement ps = true :=
      by first | exact Or.inl rfl | exact Or.inr rfl)
    (h_loadQ : x_loadQ = t.loadQ ∨ listed .loadQ ps = true := by first | exact Or.inl rfl | exact Or.inr rfl)
    (h_loadNow : x_loadNow = t.loadNow ∨ listed .loadNow ps = true := by first | exact Or.inl rfl | exact Or.inr rfl)
    (h_ready : x_ready = t.ready ∨ listed .ready ps = true := by first | exact Or.inl rfl | exact Or.inr rfl)
    (h_anchors : x_anchors = t.anchors ∨ listed .anchors ps = true := by first | exact Or.inl rfl | exact Or.inr rfl)
    (h_sinks : x_sinks = t.sinks ∨ listed .sinks ps = true := by first | exact Or.inl rfl | exact Or.inr rfl)
    (h_chutes : x_chutes = t.chutes ∨ listed .chutes ps = true := by first | exact Or.inl rfl | exact Or.inr rfl)
    (h_doorbells : x_doorbells = t.doorbells ∨ listed .doorbells ps = true :=
      by first | exact Or.inl rfl | exact Or.inr rfl)
    (h_chuteDies : x_chuteDies = t.chuteDies ∨ listed .chuteDies ps = true :=
      by first | exact Or.inl rfl | exact Or.inr rfl)
    (h_epStat : x_epStat = t.epStat ∨ listed .epStat ps = true := by first | exact Or.inl rfl | exact Or.inr rfl)
    (h_xoffRemote : x_xoffRemote = t.xoffRemote ∨ listed .xoffRemote ps = true :=
      by first | exact Or.inl rfl | exact Or.inr rfl)
    (h_ms : x_ms = t.ms ∨ listed .ms ps = true := by first | exact Or.inl rfl | exact Or.inr rfl)
    (h_pnet : x_pnet = t.pnet ∨ listed .pnet ps = true := by first | exact Or.inl rfl | exact Or.inr rfl)
    (h_oes : x_oes = t.oes ∨ listed .oes ps = true := by first | exact Or.inl rfl | exact Or.inr rfl)
    (h_links : x_links = t.links ∨ listed .links ps = true := by first | exact Or.inl rfl | exact Or.inr rfl)
    (h_lls : x_lls = t.lls ∨ listed .lls ps = true := by first | exact Or.inl rfl | exact Or.inr rfl)
    (h_sys : x_sys = t.sys ∨ listed .sys ps = true := by first | exact Or.inl rfl | exact Or.inr rfl)
    (h_host : x_host = t.host ∨ listed .host ps = true := by first | exact Or.inl rfl | exact Or.inr rfl)
    (h_hostMem : x_hostMem = t.hostMem ∨ listed .hostMem ps = true := by first | exact Or.inl rfl | exact Or.inr rfl)
    (h_tack : x_tack = t.tack ∨ listed .tack ps = true := by first | exact Or.inl rfl | exact Or.inr rfl)
    (h_flash : x_flash = t.flash ∨ listed .flash ps = true := by first | exact Or.inl rfl | exact Or.inr rfl)
    (h_spi0 : x_spi0 = t.spi0 ∨ listed .spi0 ps = true := by first | exact Or.inl rfl | exact Or.inr rfl)
    (h_spi1 : x_spi1 = t.spi1 ∨ listed .spi1 ps = true := by first | exact Or.inl rfl | exact Or.inr rfl)
    (h_mram : x_mram = t.mram ∨ listed .mram ps = true := by first | exact Or.inl rfl | exact Or.inr rfl)
    (h_pwr : x_pwr = t.pwr ∨ listed .pwr ps = true := by first | exact Or.inl rfl | exact Or.inr rfl)
    (h_therm : x_therm = t.therm ∨ listed .therm ps = true := by first | exact Or.inl rfl | exact Or.inr rfl)
    (h_flt : x_flt = t.flt ∨ listed .flt ps = true := by first | exact Or.inl rfl | exact Or.inr rfl)
    (h_pmus : x_pmus = t.pmus ∨ listed .pmus ps = true := by first | exact Or.inl rfl | exact Or.inr rfl)
    (c_ms : memWf t.ms.mem = true → memWf x_ms.mem = true := by
      first
        | exact id
        | exact fun h => memWf_memStore _ _ _ h
        | exact fun h => memWf_tabClear _ _ _ h
        | exact fun h => tabWf_filter _ _ _ h)
    (c_manger : memWf t.manger = true → memWf x_manger = true := by
      first
        | exact id
        | exact fun h => memWf_memStore _ _ _ h
        | exact fun h => memWf_tabClear _ _ _ h
        | exact fun h => tabWf_filter _ _ _ h)
    (c_hostMem : memWf t.hostMem = true → memWf x_hostMem = true := by
      first
        | exact id
        | exact fun h => memWf_memStore _ _ _ h
        | exact fun h => memWf_tabClear _ _ _ h
        | exact fun h => tabWf_filter _ _ _ h)
    (c_flash : tabWf flashDefault t.flash = true → tabWf flashDefault x_flash = true := by
      first
        | exact id
        | exact fun h => memWf_memStore _ _ _ h
        | exact fun h => memWf_tabClear _ _ _ h
        | exact fun h => tabWf_filter _ _ _ h)
    (c_mram : memWf t.mram = true → memWf x_mram = true := by
      first
        | exact id
        | exact fun h => memWf_memStore _ _ _ h
        | exact fun h => memWf_tabClear _ _ _ h
        | exact fun h => tabWf_filter _ _ _ h)
    (h : Moves ps s t) :
    Moves ps s ⟨x_pending, x_time, x_free, x_resp, x_pins, x_stalls, x_manger, x_mangerInj, x_strq, x_pens,
      x_placement, x_loadQ, x_loadNow, x_ready, x_anchors, x_sinks, x_chutes, x_doorbells, x_chuteDies, x_epStat,
      x_xoffRemote, x_ms, x_pnet, x_oes, x_links, x_lls, x_sys, x_host, x_hostMem, x_tack, x_flash, x_spi0,
      x_spi1, x_mram, x_pwr, x_therm, x_flt, x_pmus⟩ := by
  refine h.trans ⟨fun p hp => ?_, fun c => ⟨c_ms c.1, c_manger c.2.1, c_hostMem c.2.2.1, c_flash c.2.2.2.1,
    c_mram c.2.2.2.2⟩⟩
  cases p
  case pending => exact h_pending
  case time => exact h_time.resolve_right fun e => hp (mem_of_listed e)
  case free => exact h_free.resolve_right fun e => hp (mem_of_listed e)
  case resp => exact h_resp.resolve_right fun e => hp (mem_of_listed e)
  case pins => exact h_pins.resolve_right fun e => hp (mem_of_listed e)
  case stalls => exact h_stalls.resolve_right fun e => hp (mem_of_listed e)
  case manger => exact h_manger.resolve_right fun e => hp (mem_of_listed e)
  case mangerInj => exact h_mangerInj.resolve_right fun e => hp (mem_of_listed e)
  case strq => exact h_strq.resolve_right fun e => hp (mem_of_listed e)
  case pens => exact h_pens.resolve_right fun e => hp (mem_of_listed e)
  case placement => exact h_placement.resolve_right fun e => hp (mem_of_listed e)
  case loadQ => exact h_loadQ.resolve_right fun e => hp (mem_of_listed e)
  case loadNow => exact h_loadNow.resolve_right fun e => hp (mem_of_listed e)
  case ready => exact h_ready.resolve_right fun e => hp (mem_of_listed e)
  case anchors => exact h_anchors.resolve_right fun e => hp (mem_of_listed e)
  case sinks => exact h_sinks.resolve_right fun e => hp (mem_of_listed e)
  case chutes => exact h_chutes.resolve_right fun e => hp (mem_of_listed e)
  case doorbells => exact h_doorbells.resolve_right fun e => hp (mem_of_listed e)
  case chuteDies => exact h_chuteDies.resolve_right fun e => hp (mem_of_listed e)
  case epStat => exact h_epStat.resolve_right fun e => hp (mem_of_listed e)
  case xoffRemote => exact h_xoffRemote.resolve_right fun e => hp (mem_of_listed e)
  case ms => exact h_ms.resolve_right fun e => hp (mem_of_listed e)
  case pnet => exact h_pnet.resolve_right fun e => hp (mem_of_listed e)
  case oes => exact h_oes.resolve_right fun e => hp (mem_of_listed e)
  case links => exact h_links.resolve_right fun e => hp (mem_of_listed e)
  case lls => exact h_lls.resolve_right fun e => hp (mem_of_listed e)
  case sys => exact h_sys.resolve_right fun e => hp (mem_of_listed e)
  case host => exact h_host.resolve_right fun e => hp (mem_of_listed e)
  case hostMem => exact h_hostMem.resolve_right fun e => hp (mem_of_listed e)
  case tack => exact h_tack.resolve_right fun e => hp (mem_of_listed e)
  case flash => exact h_flash.resolve_right fun e => hp (mem_of_listed e)
  case spi0 => exact h_spi0.resolve_right fun e => hp (mem_of_listed e)
  case spi1 => exact h_spi1.resolve_right fun e => hp (mem_of_listed e)
  case mram => exact h_mram.resolve_right fun e => hp (mem_of_listed e)
  case pwr => exact h_pwr.resolve_right fun e => hp (mem_of_listed e)
  case therm => exact h_therm.resolve_right fun e => hp (mem_of_listed e)
  case flt => exact h_flt.resolve_right fun e => hp (mem_of_listed e)
  case pmus => exact h_pmus.resolve_right fun e => hp (mem_of_listed e)

end Sys2Proof.Machine
end

