-- ==== Sys2Proof/Laws/State.lean ====
section
/-! SUPPORT. What each named update of State leaves: one lemma per field per update, and one per named read. -/

namespace Sys2Proof.Machine

open Sys2Proof

variable (s : State) (k j : Nat)

/-! ### State.setStall -/

section
variable (v : Stall)

@[simp] theorem setStall_pending : (s.setStall k v).pending = s.pending := rfl
@[simp] theorem setStall_time : (s.setStall k v).time = s.time := rfl
@[simp] theorem setStall_free : (s.setStall k v).free = s.free := rfl
@[simp] theorem setStall_resp : (s.setStall k v).resp = s.resp := rfl
@[simp] theorem setStall_pins : (s.setStall k v).pins = s.pins := rfl
@[simp] theorem setStall_manger : (s.setStall k v).manger = s.manger := rfl
@[simp] theorem setStall_mangerInj : (s.setStall k v).mangerInj = s.mangerInj := rfl
@[simp] theorem setStall_strq : (s.setStall k v).strq = s.strq := rfl
@[simp] theorem setStall_pens : (s.setStall k v).pens = s.pens := rfl
@[simp] theorem setStall_placement : (s.setStall k v).placement = s.placement := rfl
@[simp] theorem setStall_loadQ : (s.setStall k v).loadQ = s.loadQ := rfl
@[simp] theorem setStall_loadNow : (s.setStall k v).loadNow = s.loadNow := rfl
@[simp] theorem setStall_ready : (s.setStall k v).ready = s.ready := rfl
@[simp] theorem setStall_anchors : (s.setStall k v).anchors = s.anchors := rfl
@[simp] theorem setStall_sinks : (s.setStall k v).sinks = s.sinks := rfl
@[simp] theorem setStall_chutes : (s.setStall k v).chutes = s.chutes := rfl
@[simp] theorem setStall_doorbells : (s.setStall k v).doorbells = s.doorbells := rfl
@[simp] theorem setStall_chuteDies : (s.setStall k v).chuteDies = s.chuteDies := rfl
@[simp] theorem setStall_epStat : (s.setStall k v).epStat = s.epStat := rfl
@[simp] theorem setStall_xoffRemote : (s.setStall k v).xoffRemote = s.xoffRemote := rfl
@[simp] theorem setStall_ms : (s.setStall k v).ms = s.ms := rfl
@[simp] theorem setStall_pnet : (s.setStall k v).pnet = s.pnet := rfl
@[simp] theorem setStall_oes : (s.setStall k v).oes = s.oes := rfl
@[simp] theorem setStall_links : (s.setStall k v).links = s.links := rfl
@[simp] theorem setStall_lls : (s.setStall k v).lls = s.lls := rfl
@[simp] theorem setStall_sys : (s.setStall k v).sys = s.sys := rfl
@[simp] theorem setStall_host : (s.setStall k v).host = s.host := rfl
@[simp] theorem setStall_hostMem : (s.setStall k v).hostMem = s.hostMem := rfl
@[simp] theorem setStall_tack : (s.setStall k v).tack = s.tack := rfl
@[simp] theorem setStall_flash : (s.setStall k v).flash = s.flash := rfl
@[simp] theorem setStall_spi0 : (s.setStall k v).spi0 = s.spi0 := rfl
@[simp] theorem setStall_spi1 : (s.setStall k v).spi1 = s.spi1 := rfl
@[simp] theorem setStall_mram : (s.setStall k v).mram = s.mram := rfl
@[simp] theorem setStall_pwr : (s.setStall k v).pwr = s.pwr := rfl
@[simp] theorem setStall_therm : (s.setStall k v).therm = s.therm := rfl
@[simp] theorem setStall_flt : (s.setStall k v).flt = s.flt := rfl
@[simp] theorem setStall_pmus : (s.setStall k v).pmus = s.pmus := rfl
@[simp] theorem setStall_stall : (s.setStall k v).stall j = if j = k then v else s.stall j := by
  simp [State.setStall, State.stall]
@[simp] theorem setStall_pen : (s.setStall k v).pen j = s.pen j := rfl
@[simp] theorem setStall_sink : (s.setStall k v).sink j = s.sink j := rfl
@[simp] theorem setStall_chute : (s.setStall k v).chute j = s.chute j := rfl
@[simp] theorem setStall_doorbell : (s.setStall k v).doorbell j = s.doorbell j := rfl
@[simp] theorem setStall_chuteDie : (s.setStall k v).chuteDie j = s.chuteDie j := rfl
@[simp] theorem setStall_hub : (s.setStall k v).hub j = s.hub j := rfl
@[simp] theorem setStall_site : (s.setStall k v).site j = s.site j := rfl
@[simp] theorem setStall_lmapAt : (s.setStall k v).lmapAt j = s.lmapAt j := rfl
@[simp] theorem setStall_oe : (s.setStall k v).oe j = s.oe j := rfl
@[simp] theorem setStall_link : (s.setStall k v).link j = s.link j := rfl
@[simp] theorem setStall_ll : (s.setStall k v).ll j = s.ll j := rfl
@[simp] theorem setStall_peer : (s.setStall k v).peer j = s.peer j := rfl
@[simp] theorem setStall_fn : (s.setStall k v).fn j = s.fn j := rfl
@[simp] theorem setStall_dma : (s.setStall k v).dma j = s.dma j := rfl
@[simp] theorem setStall_frec : (s.setStall k v).frec j = s.frec j := rfl
@[simp] theorem setStall_level : (s.setStall k v).level j = s.level j := rfl
@[simp] theorem setStall_pmu : (s.setStall k v).pmu j = s.pmu j := rfl
@[simp] theorem setStall_sensor : (s.setStall k v).sensor j = s.sensor j := rfl
@[simp] theorem setStall_unit : (s.setStall k v).unit j = s.unit j := rfl
@[simp] theorem setStall_bucket : (s.setStall k v).bucket j = s.bucket j := rfl

end

/-! ### State.setPen -/

section
variable (v : Pen)

@[simp] theorem setPen_pending : (s.setPen k v).pending = s.pending := rfl
@[simp] theorem setPen_time : (s.setPen k v).time = s.time := rfl
@[simp] theorem setPen_free : (s.setPen k v).free = s.free := rfl
@[simp] theorem setPen_resp : (s.setPen k v).resp = s.resp := rfl
@[simp] theorem setPen_pins : (s.setPen k v).pins = s.pins := rfl
@[simp] theorem setPen_stalls : (s.setPen k v).stalls = s.stalls := rfl
@[simp] theorem setPen_manger : (s.setPen k v).manger = s.manger := rfl
@[simp] theorem setPen_mangerInj : (s.setPen k v).mangerInj = s.mangerInj := rfl
@[simp] theorem setPen_strq : (s.setPen k v).strq = s.strq := rfl
@[simp] theorem setPen_placement : (s.setPen k v).placement = s.placement := rfl
@[simp] theorem setPen_loadQ : (s.setPen k v).loadQ = s.loadQ := rfl
@[simp] theorem setPen_loadNow : (s.setPen k v).loadNow = s.loadNow := rfl
@[simp] theorem setPen_ready : (s.setPen k v).ready = s.ready := rfl
@[simp] theorem setPen_anchors : (s.setPen k v).anchors = s.anchors := rfl
@[simp] theorem setPen_sinks : (s.setPen k v).sinks = s.sinks := rfl
@[simp] theorem setPen_chutes : (s.setPen k v).chutes = s.chutes := rfl
@[simp] theorem setPen_doorbells : (s.setPen k v).doorbells = s.doorbells := rfl
@[simp] theorem setPen_chuteDies : (s.setPen k v).chuteDies = s.chuteDies := rfl
@[simp] theorem setPen_epStat : (s.setPen k v).epStat = s.epStat := rfl
@[simp] theorem setPen_xoffRemote : (s.setPen k v).xoffRemote = s.xoffRemote := rfl
@[simp] theorem setPen_ms : (s.setPen k v).ms = s.ms := rfl
@[simp] theorem setPen_pnet : (s.setPen k v).pnet = s.pnet := rfl
@[simp] theorem setPen_oes : (s.setPen k v).oes = s.oes := rfl
@[simp] theorem setPen_links : (s.setPen k v).links = s.links := rfl
@[simp] theorem setPen_lls : (s.setPen k v).lls = s.lls := rfl
@[simp] theorem setPen_sys : (s.setPen k v).sys = s.sys := rfl
@[simp] theorem setPen_host : (s.setPen k v).host = s.host := rfl
@[simp] theorem setPen_hostMem : (s.setPen k v).hostMem = s.hostMem := rfl
@[simp] theorem setPen_tack : (s.setPen k v).tack = s.tack := rfl
@[simp] theorem setPen_flash : (s.setPen k v).flash = s.flash := rfl
@[simp] theorem setPen_spi0 : (s.setPen k v).spi0 = s.spi0 := rfl
@[simp] theorem setPen_spi1 : (s.setPen k v).spi1 = s.spi1 := rfl
@[simp] theorem setPen_mram : (s.setPen k v).mram = s.mram := rfl
@[simp] theorem setPen_pwr : (s.setPen k v).pwr = s.pwr := rfl
@[simp] theorem setPen_therm : (s.setPen k v).therm = s.therm := rfl
@[simp] theorem setPen_flt : (s.setPen k v).flt = s.flt := rfl
@[simp] theorem setPen_pmus : (s.setPen k v).pmus = s.pmus := rfl
@[simp] theorem setPen_stall : (s.setPen k v).stall j = s.stall j := rfl
@[simp] theorem setPen_pen : (s.setPen k v).pen j = if j = k then v else s.pen j := by
  simp [State.setPen, State.pen]
@[simp] theorem setPen_sink : (s.setPen k v).sink j = s.sink j := rfl
@[simp] theorem setPen_chute : (s.setPen k v).chute j = s.chute j := rfl
@[simp] theorem setPen_doorbell : (s.setPen k v).doorbell j = s.doorbell j := rfl
@[simp] theorem setPen_chuteDie : (s.setPen k v).chuteDie j = s.chuteDie j := rfl
@[simp] theorem setPen_hub : (s.setPen k v).hub j = s.hub j := rfl
@[simp] theorem setPen_site : (s.setPen k v).site j = s.site j := rfl
@[simp] theorem setPen_lmapAt : (s.setPen k v).lmapAt j = s.lmapAt j := rfl
@[simp] theorem setPen_oe : (s.setPen k v).oe j = s.oe j := rfl
@[simp] theorem setPen_link : (s.setPen k v).link j = s.link j := rfl
@[simp] theorem setPen_ll : (s.setPen k v).ll j = s.ll j := rfl
@[simp] theorem setPen_peer : (s.setPen k v).peer j = s.peer j := rfl
@[simp] theorem setPen_fn : (s.setPen k v).fn j = s.fn j := rfl
@[simp] theorem setPen_dma : (s.setPen k v).dma j = s.dma j := rfl
@[simp] theorem setPen_frec : (s.setPen k v).frec j = s.frec j := rfl
@[simp] theorem setPen_level : (s.setPen k v).level j = s.level j := rfl
@[simp] theorem setPen_pmu : (s.setPen k v).pmu j = s.pmu j := rfl
@[simp] theorem setPen_sensor : (s.setPen k v).sensor j = s.sensor j := rfl
@[simp] theorem setPen_unit : (s.setPen k v).unit j = s.unit j := rfl
@[simp] theorem setPen_bucket : (s.setPen k v).bucket j = s.bucket j := rfl

end

/-! ### State.setSink -/

section
variable (v : Sink)

@[simp] theorem setSink_pending : (s.setSink k v).pending = s.pending := rfl
@[simp] theorem setSink_time : (s.setSink k v).time = s.time := rfl
@[simp] theorem setSink_free : (s.setSink k v).free = s.free := rfl
@[simp] theorem setSink_resp : (s.setSink k v).resp = s.resp := rfl
@[simp] theorem setSink_pins : (s.setSink k v).pins = s.pins := rfl
@[simp] theorem setSink_stalls : (s.setSink k v).stalls = s.stalls := rfl
@[simp] theorem setSink_manger : (s.setSink k v).manger = s.manger := rfl
@[simp] theorem setSink_mangerInj : (s.setSink k v).mangerInj = s.mangerInj := rfl
@[simp] theorem setSink_strq : (s.setSink k v).strq = s.strq := rfl
@[simp] theorem setSink_pens : (s.setSink k v).pens = s.pens := rfl
@[simp] theorem setSink_placement : (s.setSink k v).placement = s.placement := rfl
@[simp] theorem setSink_loadQ : (s.setSink k v).loadQ = s.loadQ := rfl
@[simp] theorem setSink_loadNow : (s.setSink k v).loadNow = s.loadNow := rfl
@[simp] theorem setSink_ready : (s.setSink k v).ready = s.ready := rfl
@[simp] theorem setSink_anchors : (s.setSink k v).anchors = s.anchors := rfl
@[simp] theorem setSink_chutes : (s.setSink k v).chutes = s.chutes := rfl
@[simp] theorem setSink_doorbells : (s.setSink k v).doorbells = s.doorbells := rfl
@[simp] theorem setSink_chuteDies : (s.setSink k v).chuteDies = s.chuteDies := rfl
@[simp] theorem setSink_epStat : (s.setSink k v).epStat = s.epStat := rfl
@[simp] theorem setSink_xoffRemote : (s.setSink k v).xoffRemote = s.xoffRemote := rfl
@[simp] theorem setSink_ms : (s.setSink k v).ms = s.ms := rfl
@[simp] theorem setSink_pnet : (s.setSink k v).pnet = s.pnet := rfl
@[simp] theorem setSink_oes : (s.setSink k v).oes = s.oes := rfl
@[simp] theorem setSink_links : (s.setSink k v).links = s.links := rfl
@[simp] theorem setSink_lls : (s.setSink k v).lls = s.lls := rfl
@[simp] theorem setSink_sys : (s.setSink k v).sys = s.sys := rfl
@[simp] theorem setSink_host : (s.setSink k v).host = s.host := rfl
@[simp] theorem setSink_hostMem : (s.setSink k v).hostMem = s.hostMem := rfl
@[simp] theorem setSink_tack : (s.setSink k v).tack = s.tack := rfl
@[simp] theorem setSink_flash : (s.setSink k v).flash = s.flash := rfl
@[simp] theorem setSink_spi0 : (s.setSink k v).spi0 = s.spi0 := rfl
@[simp] theorem setSink_spi1 : (s.setSink k v).spi1 = s.spi1 := rfl
@[simp] theorem setSink_mram : (s.setSink k v).mram = s.mram := rfl
@[simp] theorem setSink_pwr : (s.setSink k v).pwr = s.pwr := rfl
@[simp] theorem setSink_therm : (s.setSink k v).therm = s.therm := rfl
@[simp] theorem setSink_flt : (s.setSink k v).flt = s.flt := rfl
@[simp] theorem setSink_pmus : (s.setSink k v).pmus = s.pmus := rfl
@[simp] theorem setSink_stall : (s.setSink k v).stall j = s.stall j := rfl
@[simp] theorem setSink_pen : (s.setSink k v).pen j = s.pen j := rfl
@[simp] theorem setSink_sink : (s.setSink k v).sink j = if j = k then v else s.sink j := by
  simp [State.setSink, State.sink]
@[simp] theorem setSink_chute : (s.setSink k v).chute j = s.chute j := rfl
@[simp] theorem setSink_doorbell : (s.setSink k v).doorbell j = s.doorbell j := rfl
@[simp] theorem setSink_chuteDie : (s.setSink k v).chuteDie j = s.chuteDie j := rfl
@[simp] theorem setSink_hub : (s.setSink k v).hub j = s.hub j := rfl
@[simp] theorem setSink_site : (s.setSink k v).site j = s.site j := rfl
@[simp] theorem setSink_lmapAt : (s.setSink k v).lmapAt j = s.lmapAt j := rfl
@[simp] theorem setSink_oe : (s.setSink k v).oe j = s.oe j := rfl
@[simp] theorem setSink_link : (s.setSink k v).link j = s.link j := rfl
@[simp] theorem setSink_ll : (s.setSink k v).ll j = s.ll j := rfl
@[simp] theorem setSink_peer : (s.setSink k v).peer j = s.peer j := rfl
@[simp] theorem setSink_fn : (s.setSink k v).fn j = s.fn j := rfl
@[simp] theorem setSink_dma : (s.setSink k v).dma j = s.dma j := rfl
@[simp] theorem setSink_frec : (s.setSink k v).frec j = s.frec j := rfl
@[simp] theorem setSink_level : (s.setSink k v).level j = s.level j := rfl
@[simp] theorem setSink_pmu : (s.setSink k v).pmu j = s.pmu j := rfl
@[simp] theorem setSink_sensor : (s.setSink k v).sensor j = s.sensor j := rfl
@[simp] theorem setSink_unit : (s.setSink k v).unit j = s.unit j := rfl
@[simp] theorem setSink_bucket : (s.setSink k v).bucket j = s.bucket j := rfl

end

/-! ### State.setChute -/

section
variable (v : Chute)

@[simp] theorem setChute_pending : (s.setChute k v).pending = s.pending := rfl
@[simp] theorem setChute_time : (s.setChute k v).time = s.time := rfl
@[simp] theorem setChute_free : (s.setChute k v).free = s.free := rfl
@[simp] theorem setChute_resp : (s.setChute k v).resp = s.resp := rfl
@[simp] theorem setChute_pins : (s.setChute k v).pins = s.pins := rfl
@[simp] theorem setChute_stalls : (s.setChute k v).stalls = s.stalls := rfl
@[simp] theorem setChute_manger : (s.setChute k v).manger = s.manger := rfl
@[simp] theorem setChute_mangerInj : (s.setChute k v).mangerInj = s.mangerInj := rfl
@[simp] theorem setChute_strq : (s.setChute k v).strq = s.strq := rfl
@[simp] theorem setChute_pens : (s.setChute k v).pens = s.pens := rfl
@[simp] theorem setChute_placement : (s.setChute k v).placement = s.placement := rfl
@[simp] theorem setChute_loadQ : (s.setChute k v).loadQ = s.loadQ := rfl
@[simp] theorem setChute_loadNow : (s.setChute k v).loadNow = s.loadNow := rfl
@[simp] theorem setChute_ready : (s.setChute k v).ready = s.ready := rfl
@[simp] theorem setChute_anchors : (s.setChute k v).anchors = s.anchors := rfl
@[simp] theorem setChute_sinks : (s.setChute k v).sinks = s.sinks := rfl
@[simp] theorem setChute_doorbells : (s.setChute k v).doorbells = s.doorbells := rfl
@[simp] theorem setChute_chuteDies : (s.setChute k v).chuteDies = s.chuteDies := rfl
@[simp] theorem setChute_epStat : (s.setChute k v).epStat = s.epStat := rfl
@[simp] theorem setChute_xoffRemote : (s.setChute k v).xoffRemote = s.xoffRemote := rfl
@[simp] theorem setChute_ms : (s.setChute k v).ms = s.ms := rfl
@[simp] theorem setChute_pnet : (s.setChute k v).pnet = s.pnet := rfl
@[simp] theorem setChute_oes : (s.setChute k v).oes = s.oes := rfl
@[simp] theorem setChute_links : (s.setChute k v).links = s.links := rfl
@[simp] theorem setChute_lls : (s.setChute k v).lls = s.lls := rfl
@[simp] theorem setChute_sys : (s.setChute k v).sys = s.sys := rfl
@[simp] theorem setChute_host : (s.setChute k v).host = s.host := rfl
@[simp] theorem setChute_hostMem : (s.setChute k v).hostMem = s.hostMem := rfl
@[simp] theorem setChute_tack : (s.setChute k v).tack = s.tack := rfl
@[simp] theorem setChute_flash : (s.setChute k v).flash = s.flash := rfl
@[simp] theorem setChute_spi0 : (s.setChute k v).spi0 = s.spi0 := rfl
@[simp] theorem setChute_spi1 : (s.setChute k v).spi1 = s.spi1 := rfl
@[simp] theorem setChute_mram : (s.setChute k v).mram = s.mram := rfl
@[simp] theorem setChute_pwr : (s.setChute k v).pwr = s.pwr := rfl
@[simp] theorem setChute_therm : (s.setChute k v).therm = s.therm := rfl
@[simp] theorem setChute_flt : (s.setChute k v).flt = s.flt := rfl
@[simp] theorem setChute_pmus : (s.setChute k v).pmus = s.pmus := rfl
@[simp] theorem setChute_stall : (s.setChute k v).stall j = s.stall j := rfl
@[simp] theorem setChute_pen : (s.setChute k v).pen j = s.pen j := rfl
@[simp] theorem setChute_sink : (s.setChute k v).sink j = s.sink j := rfl
@[simp] theorem setChute_chute : (s.setChute k v).chute j = if j = k then v else s.chute j := by
  simp [State.setChute, State.chute]
@[simp] theorem setChute_doorbell : (s.setChute k v).doorbell j = s.doorbell j := rfl
@[simp] theorem setChute_chuteDie : (s.setChute k v).chuteDie j = s.chuteDie j := rfl
@[simp] theorem setChute_hub : (s.setChute k v).hub j = s.hub j := rfl
@[simp] theorem setChute_site : (s.setChute k v).site j = s.site j := rfl
@[simp] theorem setChute_lmapAt : (s.setChute k v).lmapAt j = s.lmapAt j := rfl
@[simp] theorem setChute_oe : (s.setChute k v).oe j = s.oe j := rfl
@[simp] theorem setChute_link : (s.setChute k v).link j = s.link j := rfl
@[simp] theorem setChute_ll : (s.setChute k v).ll j = s.ll j := rfl
@[simp] theorem setChute_peer : (s.setChute k v).peer j = s.peer j := rfl
@[simp] theorem setChute_fn : (s.setChute k v).fn j = s.fn j := rfl
@[simp] theorem setChute_dma : (s.setChute k v).dma j = s.dma j := rfl
@[simp] theorem setChute_frec : (s.setChute k v).frec j = s.frec j := rfl
@[simp] theorem setChute_level : (s.setChute k v).level j = s.level j := rfl
@[simp] theorem setChute_pmu : (s.setChute k v).pmu j = s.pmu j := rfl
@[simp] theorem setChute_sensor : (s.setChute k v).sensor j = s.sensor j := rfl
@[simp] theorem setChute_unit : (s.setChute k v).unit j = s.unit j := rfl
@[simp] theorem setChute_bucket : (s.setChute k v).bucket j = s.bucket j := rfl

end

/-! ### State.setDoorbell -/

section
variable (v : Doorbell)

@[simp] theorem setDoorbell_pending : (s.setDoorbell k v).pending = s.pending := rfl
@[simp] theorem setDoorbell_time : (s.setDoorbell k v).time = s.time := rfl
@[simp] theorem setDoorbell_free : (s.setDoorbell k v).free = s.free := rfl
@[simp] theorem setDoorbell_resp : (s.setDoorbell k v).resp = s.resp := rfl
@[simp] theorem setDoorbell_pins : (s.setDoorbell k v).pins = s.pins := rfl
@[simp] theorem setDoorbell_stalls : (s.setDoorbell k v).stalls = s.stalls := rfl
@[simp] theorem setDoorbell_manger : (s.setDoorbell k v).manger = s.manger := rfl
@[simp] theorem setDoorbell_mangerInj : (s.setDoorbell k v).mangerInj = s.mangerInj := rfl
@[simp] theorem setDoorbell_strq : (s.setDoorbell k v).strq = s.strq := rfl
@[simp] theorem setDoorbell_pens : (s.setDoorbell k v).pens = s.pens := rfl
@[simp] theorem setDoorbell_placement : (s.setDoorbell k v).placement = s.placement := rfl
@[simp] theorem setDoorbell_loadQ : (s.setDoorbell k v).loadQ = s.loadQ := rfl
@[simp] theorem setDoorbell_loadNow : (s.setDoorbell k v).loadNow = s.loadNow := rfl
@[simp] theorem setDoorbell_ready : (s.setDoorbell k v).ready = s.ready := rfl
@[simp] theorem setDoorbell_anchors : (s.setDoorbell k v).anchors = s.anchors := rfl
@[simp] theorem setDoorbell_sinks : (s.setDoorbell k v).sinks = s.sinks := rfl
@[simp] theorem setDoorbell_chutes : (s.setDoorbell k v).chutes = s.chutes := rfl
@[simp] theorem setDoorbell_chuteDies : (s.setDoorbell k v).chuteDies = s.chuteDies := rfl
@[simp] theorem setDoorbell_epStat : (s.setDoorbell k v).epStat = s.epStat := rfl
@[simp] theorem setDoorbell_xoffRemote : (s.setDoorbell k v).xoffRemote = s.xoffRemote := rfl
@[simp] theorem setDoorbell_ms : (s.setDoorbell k v).ms = s.ms := rfl
@[simp] theorem setDoorbell_pnet : (s.setDoorbell k v).pnet = s.pnet := rfl
@[simp] theorem setDoorbell_oes : (s.setDoorbell k v).oes = s.oes := rfl
@[simp] theorem setDoorbell_links : (s.setDoorbell k v).links = s.links := rfl
@[simp] theorem setDoorbell_lls : (s.setDoorbell k v).lls = s.lls := rfl
@[simp] theorem setDoorbell_sys : (s.setDoorbell k v).sys = s.sys := rfl
@[simp] theorem setDoorbell_host : (s.setDoorbell k v).host = s.host := rfl
@[simp] theorem setDoorbell_hostMem : (s.setDoorbell k v).hostMem = s.hostMem := rfl
@[simp] theorem setDoorbell_tack : (s.setDoorbell k v).tack = s.tack := rfl
@[simp] theorem setDoorbell_flash : (s.setDoorbell k v).flash = s.flash := rfl
@[simp] theorem setDoorbell_spi0 : (s.setDoorbell k v).spi0 = s.spi0 := rfl
@[simp] theorem setDoorbell_spi1 : (s.setDoorbell k v).spi1 = s.spi1 := rfl
@[simp] theorem setDoorbell_mram : (s.setDoorbell k v).mram = s.mram := rfl
@[simp] theorem setDoorbell_pwr : (s.setDoorbell k v).pwr = s.pwr := rfl
@[simp] theorem setDoorbell_therm : (s.setDoorbell k v).therm = s.therm := rfl
@[simp] theorem setDoorbell_flt : (s.setDoorbell k v).flt = s.flt := rfl
@[simp] theorem setDoorbell_pmus : (s.setDoorbell k v).pmus = s.pmus := rfl
@[simp] theorem setDoorbell_stall : (s.setDoorbell k v).stall j = s.stall j := rfl
@[simp] theorem setDoorbell_pen : (s.setDoorbell k v).pen j = s.pen j := rfl
@[simp] theorem setDoorbell_sink : (s.setDoorbell k v).sink j = s.sink j := rfl
@[simp] theorem setDoorbell_chute : (s.setDoorbell k v).chute j = s.chute j := rfl
@[simp] theorem setDoorbell_doorbell : (s.setDoorbell k v).doorbell j = if j = k then v else s.doorbell j := by
  simp [State.setDoorbell, State.doorbell]
@[simp] theorem setDoorbell_chuteDie : (s.setDoorbell k v).chuteDie j = s.chuteDie j := rfl
@[simp] theorem setDoorbell_hub : (s.setDoorbell k v).hub j = s.hub j := rfl
@[simp] theorem setDoorbell_site : (s.setDoorbell k v).site j = s.site j := rfl
@[simp] theorem setDoorbell_lmapAt : (s.setDoorbell k v).lmapAt j = s.lmapAt j := rfl
@[simp] theorem setDoorbell_oe : (s.setDoorbell k v).oe j = s.oe j := rfl
@[simp] theorem setDoorbell_link : (s.setDoorbell k v).link j = s.link j := rfl
@[simp] theorem setDoorbell_ll : (s.setDoorbell k v).ll j = s.ll j := rfl
@[simp] theorem setDoorbell_peer : (s.setDoorbell k v).peer j = s.peer j := rfl
@[simp] theorem setDoorbell_fn : (s.setDoorbell k v).fn j = s.fn j := rfl
@[simp] theorem setDoorbell_dma : (s.setDoorbell k v).dma j = s.dma j := rfl
@[simp] theorem setDoorbell_frec : (s.setDoorbell k v).frec j = s.frec j := rfl
@[simp] theorem setDoorbell_level : (s.setDoorbell k v).level j = s.level j := rfl
@[simp] theorem setDoorbell_pmu : (s.setDoorbell k v).pmu j = s.pmu j := rfl
@[simp] theorem setDoorbell_sensor : (s.setDoorbell k v).sensor j = s.sensor j := rfl
@[simp] theorem setDoorbell_unit : (s.setDoorbell k v).unit j = s.unit j := rfl
@[simp] theorem setDoorbell_bucket : (s.setDoorbell k v).bucket j = s.bucket j := rfl

end

/-! ### State.setChuteDie -/

section
variable (v : ChuteDie)

@[simp] theorem setChuteDie_pending : (s.setChuteDie k v).pending = s.pending := rfl
@[simp] theorem setChuteDie_time : (s.setChuteDie k v).time = s.time := rfl
@[simp] theorem setChuteDie_free : (s.setChuteDie k v).free = s.free := rfl
@[simp] theorem setChuteDie_resp : (s.setChuteDie k v).resp = s.resp := rfl
@[simp] theorem setChuteDie_pins : (s.setChuteDie k v).pins = s.pins := rfl
@[simp] theorem setChuteDie_stalls : (s.setChuteDie k v).stalls = s.stalls := rfl
@[simp] theorem setChuteDie_manger : (s.setChuteDie k v).manger = s.manger := rfl
@[simp] theorem setChuteDie_mangerInj : (s.setChuteDie k v).mangerInj = s.mangerInj := rfl
@[simp] theorem setChuteDie_strq : (s.setChuteDie k v).strq = s.strq := rfl
@[simp] theorem setChuteDie_pens : (s.setChuteDie k v).pens = s.pens := rfl
@[simp] theorem setChuteDie_placement : (s.setChuteDie k v).placement = s.placement := rfl
@[simp] theorem setChuteDie_loadQ : (s.setChuteDie k v).loadQ = s.loadQ := rfl
@[simp] theorem setChuteDie_loadNow : (s.setChuteDie k v).loadNow = s.loadNow := rfl
@[simp] theorem setChuteDie_ready : (s.setChuteDie k v).ready = s.ready := rfl
@[simp] theorem setChuteDie_anchors : (s.setChuteDie k v).anchors = s.anchors := rfl
@[simp] theorem setChuteDie_sinks : (s.setChuteDie k v).sinks = s.sinks := rfl
@[simp] theorem setChuteDie_chutes : (s.setChuteDie k v).chutes = s.chutes := rfl
@[simp] theorem setChuteDie_doorbells : (s.setChuteDie k v).doorbells = s.doorbells := rfl
@[simp] theorem setChuteDie_epStat : (s.setChuteDie k v).epStat = s.epStat := rfl
@[simp] theorem setChuteDie_xoffRemote : (s.setChuteDie k v).xoffRemote = s.xoffRemote := rfl
@[simp] theorem setChuteDie_ms : (s.setChuteDie k v).ms = s.ms := rfl
@[simp] theorem setChuteDie_pnet : (s.setChuteDie k v).pnet = s.pnet := rfl
@[simp] theorem setChuteDie_oes : (s.setChuteDie k v).oes = s.oes := rfl
@[simp] theorem setChuteDie_links : (s.setChuteDie k v).links = s.links := rfl
@[simp] theorem setChuteDie_lls : (s.setChuteDie k v).lls = s.lls := rfl
@[simp] theorem setChuteDie_sys : (s.setChuteDie k v).sys = s.sys := rfl
@[simp] theorem setChuteDie_host : (s.setChuteDie k v).host = s.host := rfl
@[simp] theorem setChuteDie_hostMem : (s.setChuteDie k v).hostMem = s.hostMem := rfl
@[simp] theorem setChuteDie_tack : (s.setChuteDie k v).tack = s.tack := rfl
@[simp] theorem setChuteDie_flash : (s.setChuteDie k v).flash = s.flash := rfl
@[simp] theorem setChuteDie_spi0 : (s.setChuteDie k v).spi0 = s.spi0 := rfl
@[simp] theorem setChuteDie_spi1 : (s.setChuteDie k v).spi1 = s.spi1 := rfl
@[simp] theorem setChuteDie_mram : (s.setChuteDie k v).mram = s.mram := rfl
@[simp] theorem setChuteDie_pwr : (s.setChuteDie k v).pwr = s.pwr := rfl
@[simp] theorem setChuteDie_therm : (s.setChuteDie k v).therm = s.therm := rfl
@[simp] theorem setChuteDie_flt : (s.setChuteDie k v).flt = s.flt := rfl
@[simp] theorem setChuteDie_pmus : (s.setChuteDie k v).pmus = s.pmus := rfl
@[simp] theorem setChuteDie_stall : (s.setChuteDie k v).stall j = s.stall j := rfl
@[simp] theorem setChuteDie_pen : (s.setChuteDie k v).pen j = s.pen j := rfl
@[simp] theorem setChuteDie_sink : (s.setChuteDie k v).sink j = s.sink j := rfl
@[simp] theorem setChuteDie_chute : (s.setChuteDie k v).chute j = s.chute j := rfl
@[simp] theorem setChuteDie_doorbell : (s.setChuteDie k v).doorbell j = s.doorbell j := rfl
@[simp] theorem setChuteDie_chuteDie : (s.setChuteDie k v).chuteDie j = if j = k then v else s.chuteDie j := by
  simp [State.setChuteDie, State.chuteDie]
@[simp] theorem setChuteDie_hub : (s.setChuteDie k v).hub j = s.hub j := rfl
@[simp] theorem setChuteDie_site : (s.setChuteDie k v).site j = s.site j := rfl
@[simp] theorem setChuteDie_lmapAt : (s.setChuteDie k v).lmapAt j = s.lmapAt j := rfl
@[simp] theorem setChuteDie_oe : (s.setChuteDie k v).oe j = s.oe j := rfl
@[simp] theorem setChuteDie_link : (s.setChuteDie k v).link j = s.link j := rfl
@[simp] theorem setChuteDie_ll : (s.setChuteDie k v).ll j = s.ll j := rfl
@[simp] theorem setChuteDie_peer : (s.setChuteDie k v).peer j = s.peer j := rfl
@[simp] theorem setChuteDie_fn : (s.setChuteDie k v).fn j = s.fn j := rfl
@[simp] theorem setChuteDie_dma : (s.setChuteDie k v).dma j = s.dma j := rfl
@[simp] theorem setChuteDie_frec : (s.setChuteDie k v).frec j = s.frec j := rfl
@[simp] theorem setChuteDie_level : (s.setChuteDie k v).level j = s.level j := rfl
@[simp] theorem setChuteDie_pmu : (s.setChuteDie k v).pmu j = s.pmu j := rfl
@[simp] theorem setChuteDie_sensor : (s.setChuteDie k v).sensor j = s.sensor j := rfl
@[simp] theorem setChuteDie_unit : (s.setChuteDie k v).unit j = s.unit j := rfl
@[simp] theorem setChuteDie_bucket : (s.setChuteDie k v).bucket j = s.bucket j := rfl

end

/-! ### State.setHub -/

section
variable (v : HubS)

@[simp] theorem setHub_pending : (s.setHub k v).pending = s.pending := rfl
@[simp] theorem setHub_time : (s.setHub k v).time = s.time := rfl
@[simp] theorem setHub_free : (s.setHub k v).free = s.free := rfl
@[simp] theorem setHub_resp : (s.setHub k v).resp = s.resp := rfl
@[simp] theorem setHub_pins : (s.setHub k v).pins = s.pins := rfl
@[simp] theorem setHub_stalls : (s.setHub k v).stalls = s.stalls := rfl
@[simp] theorem setHub_manger : (s.setHub k v).manger = s.manger := rfl
@[simp] theorem setHub_mangerInj : (s.setHub k v).mangerInj = s.mangerInj := rfl
@[simp] theorem setHub_strq : (s.setHub k v).strq = s.strq := rfl
@[simp] theorem setHub_pens : (s.setHub k v).pens = s.pens := rfl
@[simp] theorem setHub_placement : (s.setHub k v).placement = s.placement := rfl
@[simp] theorem setHub_loadQ : (s.setHub k v).loadQ = s.loadQ := rfl
@[simp] theorem setHub_loadNow : (s.setHub k v).loadNow = s.loadNow := rfl
@[simp] theorem setHub_ready : (s.setHub k v).ready = s.ready := rfl
@[simp] theorem setHub_anchors : (s.setHub k v).anchors = s.anchors := rfl
@[simp] theorem setHub_sinks : (s.setHub k v).sinks = s.sinks := rfl
@[simp] theorem setHub_chutes : (s.setHub k v).chutes = s.chutes := rfl
@[simp] theorem setHub_doorbells : (s.setHub k v).doorbells = s.doorbells := rfl
@[simp] theorem setHub_chuteDies : (s.setHub k v).chuteDies = s.chuteDies := rfl
@[simp] theorem setHub_epStat : (s.setHub k v).epStat = s.epStat := rfl
@[simp] theorem setHub_xoffRemote : (s.setHub k v).xoffRemote = s.xoffRemote := rfl
@[simp] theorem setHub_pnet : (s.setHub k v).pnet = s.pnet := rfl
@[simp] theorem setHub_oes : (s.setHub k v).oes = s.oes := rfl
@[simp] theorem setHub_links : (s.setHub k v).links = s.links := rfl
@[simp] theorem setHub_lls : (s.setHub k v).lls = s.lls := rfl
@[simp] theorem setHub_sys : (s.setHub k v).sys = s.sys := rfl
@[simp] theorem setHub_host : (s.setHub k v).host = s.host := rfl
@[simp] theorem setHub_hostMem : (s.setHub k v).hostMem = s.hostMem := rfl
@[simp] theorem setHub_tack : (s.setHub k v).tack = s.tack := rfl
@[simp] theorem setHub_flash : (s.setHub k v).flash = s.flash := rfl
@[simp] theorem setHub_spi0 : (s.setHub k v).spi0 = s.spi0 := rfl
@[simp] theorem setHub_spi1 : (s.setHub k v).spi1 = s.spi1 := rfl
@[simp] theorem setHub_mram : (s.setHub k v).mram = s.mram := rfl
@[simp] theorem setHub_pwr : (s.setHub k v).pwr = s.pwr := rfl
@[simp] theorem setHub_therm : (s.setHub k v).therm = s.therm := rfl
@[simp] theorem setHub_flt : (s.setHub k v).flt = s.flt := rfl
@[simp] theorem setHub_pmus : (s.setHub k v).pmus = s.pmus := rfl
@[simp] theorem setHub_stall : (s.setHub k v).stall j = s.stall j := rfl
@[simp] theorem setHub_pen : (s.setHub k v).pen j = s.pen j := rfl
@[simp] theorem setHub_sink : (s.setHub k v).sink j = s.sink j := rfl
@[simp] theorem setHub_chute : (s.setHub k v).chute j = s.chute j := rfl
@[simp] theorem setHub_doorbell : (s.setHub k v).doorbell j = s.doorbell j := rfl
@[simp] theorem setHub_chuteDie : (s.setHub k v).chuteDie j = s.chuteDie j := rfl
@[simp] theorem setHub_hub : (s.setHub k v).hub j = if j = k then v else s.hub j := by
  simp [State.setHub, State.hub]
@[simp] theorem setHub_site : (s.setHub k v).site j = s.site j := rfl
@[simp] theorem setHub_lmapAt : (s.setHub k v).lmapAt j = s.lmapAt j := rfl
@[simp] theorem setHub_oe : (s.setHub k v).oe j = s.oe j := rfl
@[simp] theorem setHub_link : (s.setHub k v).link j = s.link j := rfl
@[simp] theorem setHub_ll : (s.setHub k v).ll j = s.ll j := rfl
@[simp] theorem setHub_peer : (s.setHub k v).peer j = s.peer j := rfl
@[simp] theorem setHub_fn : (s.setHub k v).fn j = s.fn j := rfl
@[simp] theorem setHub_dma : (s.setHub k v).dma j = s.dma j := rfl
@[simp] theorem setHub_frec : (s.setHub k v).frec j = s.frec j := rfl
@[simp] theorem setHub_level : (s.setHub k v).level j = s.level j := rfl
@[simp] theorem setHub_pmu : (s.setHub k v).pmu j = s.pmu j := rfl
@[simp] theorem setHub_sensor : (s.setHub k v).sensor j = s.sensor j := rfl
@[simp] theorem setHub_unit : (s.setHub k v).unit j = s.unit j := rfl
@[simp] theorem setHub_bucket : (s.setHub k v).bucket j = s.bucket j := rfl
@[simp] theorem setHub_ms_mem : (s.setHub k v).ms.mem = s.ms.mem := rfl
@[simp] theorem setHub_ms_poison : (s.setHub k v).ms.poison = s.ms.poison := rfl
@[simp] theorem setHub_ms_inj : (s.setHub k v).ms.inj = s.ms.inj := rfl
@[simp] theorem setHub_ms_waiting : (s.setHub k v).ms.waiting = s.ms.waiting := rfl
@[simp] theorem setHub_ms_bells : (s.setHub k v).ms.bells = s.ms.bells := rfl

end

/-! ### State.setSite -/

section
variable (v : SiteS)

@[simp] theorem setSite_pending : (s.setSite k v).pending = s.pending := rfl
@[simp] theorem setSite_time : (s.setSite k v).time = s.time := rfl
@[simp] theorem setSite_free : (s.setSite k v).free = s.free := rfl
@[simp] theorem setSite_resp : (s.setSite k v).resp = s.resp := rfl
@[simp] theorem setSite_pins : (s.setSite k v).pins = s.pins := rfl
@[simp] theorem setSite_stalls : (s.setSite k v).stalls = s.stalls := rfl
@[simp] theorem setSite_manger : (s.setSite k v).manger = s.manger := rfl
@[simp] theorem setSite_mangerInj : (s.setSite k v).mangerInj = s.mangerInj := rfl
@[simp] theorem setSite_strq : (s.setSite k v).strq = s.strq := rfl
@[simp] theorem setSite_pens : (s.setSite k v).pens = s.pens := rfl
@[simp] theorem setSite_placement : (s.setSite k v).placement = s.placement := rfl
@[simp] theorem setSite_loadQ : (s.setSite k v).loadQ = s.loadQ := rfl
@[simp] theorem setSite_loadNow : (s.setSite k v).loadNow = s.loadNow := rfl
@[simp] theorem setSite_ready : (s.setSite k v).ready = s.ready := rfl
@[simp] theorem setSite_anchors : (s.setSite k v).anchors = s.anchors := rfl
@[simp] theorem setSite_sinks : (s.setSite k v).sinks = s.sinks := rfl
@[simp] theorem setSite_chutes : (s.setSite k v).chutes = s.chutes := rfl
@[simp] theorem setSite_doorbells : (s.setSite k v).doorbells = s.doorbells := rfl
@[simp] theorem setSite_chuteDies : (s.setSite k v).chuteDies = s.chuteDies := rfl
@[simp] theorem setSite_epStat : (s.setSite k v).epStat = s.epStat := rfl
@[simp] theorem setSite_xoffRemote : (s.setSite k v).xoffRemote = s.xoffRemote := rfl
@[simp] theorem setSite_ms : (s.setSite k v).ms = s.ms := rfl
@[simp] theorem setSite_oes : (s.setSite k v).oes = s.oes := rfl
@[simp] theorem setSite_links : (s.setSite k v).links = s.links := rfl
@[simp] theorem setSite_lls : (s.setSite k v).lls = s.lls := rfl
@[simp] theorem setSite_sys : (s.setSite k v).sys = s.sys := rfl
@[simp] theorem setSite_host : (s.setSite k v).host = s.host := rfl
@[simp] theorem setSite_hostMem : (s.setSite k v).hostMem = s.hostMem := rfl
@[simp] theorem setSite_tack : (s.setSite k v).tack = s.tack := rfl
@[simp] theorem setSite_flash : (s.setSite k v).flash = s.flash := rfl
@[simp] theorem setSite_spi0 : (s.setSite k v).spi0 = s.spi0 := rfl
@[simp] theorem setSite_spi1 : (s.setSite k v).spi1 = s.spi1 := rfl
@[simp] theorem setSite_mram : (s.setSite k v).mram = s.mram := rfl
@[simp] theorem setSite_pwr : (s.setSite k v).pwr = s.pwr := rfl
@[simp] theorem setSite_therm : (s.setSite k v).therm = s.therm := rfl
@[simp] theorem setSite_flt : (s.setSite k v).flt = s.flt := rfl
@[simp] theorem setSite_pmus : (s.setSite k v).pmus = s.pmus := rfl
@[simp] theorem setSite_stall : (s.setSite k v).stall j = s.stall j := rfl
@[simp] theorem setSite_pen : (s.setSite k v).pen j = s.pen j := rfl
@[simp] theorem setSite_sink : (s.setSite k v).sink j = s.sink j := rfl
@[simp] theorem setSite_chute : (s.setSite k v).chute j = s.chute j := rfl
@[simp] theorem setSite_doorbell : (s.setSite k v).doorbell j = s.doorbell j := rfl
@[simp] theorem setSite_chuteDie : (s.setSite k v).chuteDie j = s.chuteDie j := rfl
@[simp] theorem setSite_hub : (s.setSite k v).hub j = s.hub j := rfl
@[simp] theorem setSite_site : (s.setSite k v).site j = if j = k then v else s.site j := by
  simp [State.setSite, State.site]
@[simp] theorem setSite_lmapAt : (s.setSite k v).lmapAt j = s.lmapAt j := rfl
@[simp] theorem setSite_oe : (s.setSite k v).oe j = s.oe j := rfl
@[simp] theorem setSite_link : (s.setSite k v).link j = s.link j := rfl
@[simp] theorem setSite_ll : (s.setSite k v).ll j = s.ll j := rfl
@[simp] theorem setSite_peer : (s.setSite k v).peer j = s.peer j := rfl
@[simp] theorem setSite_fn : (s.setSite k v).fn j = s.fn j := rfl
@[simp] theorem setSite_dma : (s.setSite k v).dma j = s.dma j := rfl
@[simp] theorem setSite_frec : (s.setSite k v).frec j = s.frec j := rfl
@[simp] theorem setSite_level : (s.setSite k v).level j = s.level j := rfl
@[simp] theorem setSite_pmu : (s.setSite k v).pmu j = s.pmu j := rfl
@[simp] theorem setSite_sensor : (s.setSite k v).sensor j = s.sensor j := rfl
@[simp] theorem setSite_unit : (s.setSite k v).unit j = s.unit j := rfl
@[simp] theorem setSite_bucket : (s.setSite k v).bucket j = s.bucket j := rfl
@[simp] theorem setSite_pnet_autoRetire : (s.setSite k v).pnet.autoRetire = s.pnet.autoRetire := rfl
@[simp] theorem setSite_pnet_result : (s.setSite k v).pnet.result = s.pnet.result := rfl
@[simp] theorem setSite_pnet_fabricNum : (s.setSite k v).pnet.fabricNum = s.pnet.fabricNum := rfl
@[simp] theorem setSite_pnet_lmap : (s.setSite k v).pnet.lmap = s.pnet.lmap := rfl
@[simp] theorem setSite_pnet_repl : (s.setSite k v).pnet.repl = s.pnet.repl := rfl
@[simp] theorem setSite_pnet_queue : (s.setSite k v).pnet.queue = s.pnet.queue := rfl
@[simp] theorem setSite_pnet_tabs : (s.setSite k v).pnet.tabs = s.pnet.tabs := rfl
@[simp] theorem setSite_pnet_want : (s.setSite k v).pnet.want = s.pnet.want := rfl
@[simp] theorem setSite_pnet_switching : (s.setSite k v).pnet.switching = s.pnet.switching := rfl
@[simp] theorem setSite_pnet_packets : (s.setSite k v).pnet.packets = s.pnet.packets := rfl
@[simp] theorem setSite_pnet_injWait : (s.setSite k v).pnet.injWait = s.pnet.injWait := rfl
@[simp] theorem setSite_pnet_rr : (s.setSite k v).pnet.rr = s.pnet.rr := rfl
@[simp] theorem setSite_pnet_stripe : (s.setSite k v).pnet.stripe = s.pnet.stripe := rfl
@[simp] theorem setSite_pnet_margins : (s.setSite k v).pnet.margins = s.pnet.margins := rfl
@[simp] theorem setSite_pnet_retraining : (s.setSite k v).pnet.retraining = s.pnet.retraining := rfl
@[simp] theorem setSite_pnet_subs : (s.setSite k v).pnet.subs = s.pnet.subs := rfl

end

/-! ### State.setLmap -/

section
variable (v : LmapE)

@[simp] theorem setLmap_pending : (s.setLmap k v).pending = s.pending := rfl
@[simp] theorem setLmap_time : (s.setLmap k v).time = s.time := rfl
@[simp] theorem setLmap_free : (s.setLmap k v).free = s.free := rfl
@[simp] theorem setLmap_resp : (s.setLmap k v).resp = s.resp := rfl
@[simp] theorem setLmap_pins : (s.setLmap k v).pins = s.pins := rfl
@[simp] theorem setLmap_stalls : (s.setLmap k v).stalls = s.stalls := rfl
@[simp] theorem setLmap_manger : (s.setLmap k v).manger = s.manger := rfl
@[simp] theorem setLmap_mangerInj : (s.setLmap k v).mangerInj = s.mangerInj := rfl
@[simp] theorem setLmap_strq : (s.setLmap k v).strq = s.strq := rfl
@[simp] theorem setLmap_pens : (s.setLmap k v).pens = s.pens := rfl
@[simp] theorem setLmap_placement : (s.setLmap k v).placement = s.placement := rfl
@[simp] theorem setLmap_loadQ : (s.setLmap k v).loadQ = s.loadQ := rfl
@[simp] theorem setLmap_loadNow : (s.setLmap k v).loadNow = s.loadNow := rfl
@[simp] theorem setLmap_ready : (s.setLmap k v).ready = s.ready := rfl
@[simp] theorem setLmap_anchors : (s.setLmap k v).anchors = s.anchors := rfl
@[simp] theorem setLmap_sinks : (s.setLmap k v).sinks = s.sinks := rfl
@[simp] theorem setLmap_chutes : (s.setLmap k v).chutes = s.chutes := rfl
@[simp] theorem setLmap_doorbells : (s.setLmap k v).doorbells = s.doorbells := rfl
@[simp] theorem setLmap_chuteDies : (s.setLmap k v).chuteDies = s.chuteDies := rfl
@[simp] theorem setLmap_epStat : (s.setLmap k v).epStat = s.epStat := rfl
@[simp] theorem setLmap_xoffRemote : (s.setLmap k v).xoffRemote = s.xoffRemote := rfl
@[simp] theorem setLmap_ms : (s.setLmap k v).ms = s.ms := rfl
@[simp] theorem setLmap_oes : (s.setLmap k v).oes = s.oes := rfl
@[simp] theorem setLmap_links : (s.setLmap k v).links = s.links := rfl
@[simp] theorem setLmap_lls : (s.setLmap k v).lls = s.lls := rfl
@[simp] theorem setLmap_sys : (s.setLmap k v).sys = s.sys := rfl
@[simp] theorem setLmap_host : (s.setLmap k v).host = s.host := rfl
@[simp] theorem setLmap_hostMem : (s.setLmap k v).hostMem = s.hostMem := rfl
@[simp] theorem setLmap_tack : (s.setLmap k v).tack = s.tack := rfl
@[simp] theorem setLmap_flash : (s.setLmap k v).flash = s.flash := rfl
@[simp] theorem setLmap_spi0 : (s.setLmap k v).spi0 = s.spi0 := rfl
@[simp] theorem setLmap_spi1 : (s.setLmap k v).spi1 = s.spi1 := rfl
@[simp] theorem setLmap_mram : (s.setLmap k v).mram = s.mram := rfl
@[simp] theorem setLmap_pwr : (s.setLmap k v).pwr = s.pwr := rfl
@[simp] theorem setLmap_therm : (s.setLmap k v).therm = s.therm := rfl
@[simp] theorem setLmap_flt : (s.setLmap k v).flt = s.flt := rfl
@[simp] theorem setLmap_pmus : (s.setLmap k v).pmus = s.pmus := rfl
@[simp] theorem setLmap_stall : (s.setLmap k v).stall j = s.stall j := rfl
@[simp] theorem setLmap_pen : (s.setLmap k v).pen j = s.pen j := rfl
@[simp] theorem setLmap_sink : (s.setLmap k v).sink j = s.sink j := rfl
@[simp] theorem setLmap_chute : (s.setLmap k v).chute j = s.chute j := rfl
@[simp] theorem setLmap_doorbell : (s.setLmap k v).doorbell j = s.doorbell j := rfl
@[simp] theorem setLmap_chuteDie : (s.setLmap k v).chuteDie j = s.chuteDie j := rfl
@[simp] theorem setLmap_hub : (s.setLmap k v).hub j = s.hub j := rfl
@[simp] theorem setLmap_site : (s.setLmap k v).site j = s.site j := rfl
@[simp] theorem setLmap_lmapAt : (s.setLmap k v).lmapAt j = if j = k then v else s.lmapAt j := by
  simp [State.setLmap, State.lmapAt]
@[simp] theorem setLmap_oe : (s.setLmap k v).oe j = s.oe j := rfl
@[simp] theorem setLmap_link : (s.setLmap k v).link j = s.link j := rfl
@[simp] theorem setLmap_ll : (s.setLmap k v).ll j = s.ll j := rfl
@[simp] theorem setLmap_peer : (s.setLmap k v).peer j = s.peer j := rfl
@[simp] theorem setLmap_fn : (s.setLmap k v).fn j = s.fn j := rfl
@[simp] theorem setLmap_dma : (s.setLmap k v).dma j = s.dma j := rfl
@[simp] theorem setLmap_frec : (s.setLmap k v).frec j = s.frec j := rfl
@[simp] theorem setLmap_level : (s.setLmap k v).level j = s.level j := rfl
@[simp] theorem setLmap_pmu : (s.setLmap k v).pmu j = s.pmu j := rfl
@[simp] theorem setLmap_sensor : (s.setLmap k v).sensor j = s.sensor j := rfl
@[simp] theorem setLmap_unit : (s.setLmap k v).unit j = s.unit j := rfl
@[simp] theorem setLmap_bucket : (s.setLmap k v).bucket j = s.bucket j := rfl
@[simp] theorem setLmap_pnet_autoRetire : (s.setLmap k v).pnet.autoRetire = s.pnet.autoRetire := rfl
@[simp] theorem setLmap_pnet_result : (s.setLmap k v).pnet.result = s.pnet.result := rfl
@[simp] theorem setLmap_pnet_fabricNum : (s.setLmap k v).pnet.fabricNum = s.pnet.fabricNum := rfl
@[simp] theorem setLmap_pnet_sites : (s.setLmap k v).pnet.sites = s.pnet.sites := rfl
@[simp] theorem setLmap_pnet_repl : (s.setLmap k v).pnet.repl = s.pnet.repl := rfl
@[simp] theorem setLmap_pnet_queue : (s.setLmap k v).pnet.queue = s.pnet.queue := rfl
@[simp] theorem setLmap_pnet_tabs : (s.setLmap k v).pnet.tabs = s.pnet.tabs := rfl
@[simp] theorem setLmap_pnet_want : (s.setLmap k v).pnet.want = s.pnet.want := rfl
@[simp] theorem setLmap_pnet_switching : (s.setLmap k v).pnet.switching = s.pnet.switching := rfl
@[simp] theorem setLmap_pnet_packets : (s.setLmap k v).pnet.packets = s.pnet.packets := rfl
@[simp] theorem setLmap_pnet_injWait : (s.setLmap k v).pnet.injWait = s.pnet.injWait := rfl
@[simp] theorem setLmap_pnet_rr : (s.setLmap k v).pnet.rr = s.pnet.rr := rfl
@[simp] theorem setLmap_pnet_stripe : (s.setLmap k v).pnet.stripe = s.pnet.stripe := rfl
@[simp] theorem setLmap_pnet_margins : (s.setLmap k v).pnet.margins = s.pnet.margins := rfl
@[simp] theorem setLmap_pnet_retraining : (s.setLmap k v).pnet.retraining = s.pnet.retraining := rfl
@[simp] theorem setLmap_pnet_subs : (s.setLmap k v).pnet.subs = s.pnet.subs := rfl

end

/-! ### State.setOe -/

section
variable (v : OeS)

@[simp] theorem setOe_pending : (s.setOe k v).pending = s.pending := rfl
@[simp] theorem setOe_time : (s.setOe k v).time = s.time := rfl
@[simp] theorem setOe_free : (s.setOe k v).free = s.free := rfl
@[simp] theorem setOe_resp : (s.setOe k v).resp = s.resp := rfl
@[simp] theorem setOe_pins : (s.setOe k v).pins = s.pins := rfl
@[simp] theorem setOe_stalls : (s.setOe k v).stalls = s.stalls := rfl
@[simp] theorem setOe_manger : (s.setOe k v).manger = s.manger := rfl
@[simp] theorem setOe_mangerInj : (s.setOe k v).mangerInj = s.mangerInj := rfl
@[simp] theorem setOe_strq : (s.setOe k v).strq = s.strq := rfl
@[simp] theorem setOe_pens : (s.setOe k v).pens = s.pens := rfl
@[simp] theorem setOe_placement : (s.setOe k v).placement = s.placement := rfl
@[simp] theorem setOe_loadQ : (s.setOe k v).loadQ = s.loadQ := rfl
@[simp] theorem setOe_loadNow : (s.setOe k v).loadNow = s.loadNow := rfl
@[simp] theorem setOe_ready : (s.setOe k v).ready = s.ready := rfl
@[simp] theorem setOe_anchors : (s.setOe k v).anchors = s.anchors := rfl
@[simp] theorem setOe_sinks : (s.setOe k v).sinks = s.sinks := rfl
@[simp] theorem setOe_chutes : (s.setOe k v).chutes = s.chutes := rfl
@[simp] theorem setOe_doorbells : (s.setOe k v).doorbells = s.doorbells := rfl
@[simp] theorem setOe_chuteDies : (s.setOe k v).chuteDies = s.chuteDies := rfl
@[simp] theorem setOe_epStat : (s.setOe k v).epStat = s.epStat := rfl
@[simp] theorem setOe_xoffRemote : (s.setOe k v).xoffRemote = s.xoffRemote := rfl
@[simp] theorem setOe_ms : (s.setOe k v).ms = s.ms := rfl
@[simp] theorem setOe_pnet : (s.setOe k v).pnet = s.pnet := rfl
@[simp] theorem setOe_links : (s.setOe k v).links = s.links := rfl
@[simp] theorem setOe_lls : (s.setOe k v).lls = s.lls := rfl
@[simp] theorem setOe_sys : (s.setOe k v).sys = s.sys := rfl
@[simp] theorem setOe_host : (s.setOe k v).host = s.host := rfl
@[simp] theorem setOe_hostMem : (s.setOe k v).hostMem = s.hostMem := rfl
@[simp] theorem setOe_tack : (s.setOe k v).tack = s.tack := rfl
@[simp] theorem setOe_flash : (s.setOe k v).flash = s.flash := rfl
@[simp] theorem setOe_spi0 : (s.setOe k v).spi0 = s.spi0 := rfl
@[simp] theorem setOe_spi1 : (s.setOe k v).spi1 = s.spi1 := rfl
@[simp] theorem setOe_mram : (s.setOe k v).mram = s.mram := rfl
@[simp] theorem setOe_pwr : (s.setOe k v).pwr = s.pwr := rfl
@[simp] theorem setOe_therm : (s.setOe k v).therm = s.therm := rfl
@[simp] theorem setOe_flt : (s.setOe k v).flt = s.flt := rfl
@[simp] theorem setOe_pmus : (s.setOe k v).pmus = s.pmus := rfl
@[simp] theorem setOe_stall : (s.setOe k v).stall j = s.stall j := rfl
@[simp] theorem setOe_pen : (s.setOe k v).pen j = s.pen j := rfl
@[simp] theorem setOe_sink : (s.setOe k v).sink j = s.sink j := rfl
@[simp] theorem setOe_chute : (s.setOe k v).chute j = s.chute j := rfl
@[simp] theorem setOe_doorbell : (s.setOe k v).doorbell j = s.doorbell j := rfl
@[simp] theorem setOe_chuteDie : (s.setOe k v).chuteDie j = s.chuteDie j := rfl
@[simp] theorem setOe_hub : (s.setOe k v).hub j = s.hub j := rfl
@[simp] theorem setOe_site : (s.setOe k v).site j = s.site j := rfl
@[simp] theorem setOe_lmapAt : (s.setOe k v).lmapAt j = s.lmapAt j := rfl
@[simp] theorem setOe_oe : (s.setOe k v).oe j = if j = k then v else s.oe j := by
  simp [State.setOe, State.oe]
@[simp] theorem setOe_link : (s.setOe k v).link j = s.link j := rfl
@[simp] theorem setOe_ll : (s.setOe k v).ll j = s.ll j := rfl
@[simp] theorem setOe_peer : (s.setOe k v).peer j = s.peer j := rfl
@[simp] theorem setOe_fn : (s.setOe k v).fn j = s.fn j := rfl
@[simp] theorem setOe_dma : (s.setOe k v).dma j = s.dma j := rfl
@[simp] theorem setOe_frec : (s.setOe k v).frec j = s.frec j := rfl
@[simp] theorem setOe_level : (s.setOe k v).level j = s.level j := rfl
@[simp] theorem setOe_pmu : (s.setOe k v).pmu j = s.pmu j := rfl
@[simp] theorem setOe_sensor : (s.setOe k v).sensor j = s.sensor j := rfl
@[simp] theorem setOe_unit : (s.setOe k v).unit j = s.unit j := rfl
@[simp] theorem setOe_bucket : (s.setOe k v).bucket j = s.bucket j := rfl

end

/-! ### State.setLink -/

section
variable (v : LinkS)

@[simp] theorem setLink_pending : (s.setLink k v).pending = s.pending := rfl
@[simp] theorem setLink_time : (s.setLink k v).time = s.time := rfl
@[simp] theorem setLink_free : (s.setLink k v).free = s.free := rfl
@[simp] theorem setLink_resp : (s.setLink k v).resp = s.resp := rfl
@[simp] theorem setLink_pins : (s.setLink k v).pins = s.pins := rfl
@[simp] theorem setLink_stalls : (s.setLink k v).stalls = s.stalls := rfl
@[simp] theorem setLink_manger : (s.setLink k v).manger = s.manger := rfl
@[simp] theorem setLink_mangerInj : (s.setLink k v).mangerInj = s.mangerInj := rfl
@[simp] theorem setLink_strq : (s.setLink k v).strq = s.strq := rfl
@[simp] theorem setLink_pens : (s.setLink k v).pens = s.pens := rfl
@[simp] theorem setLink_placement : (s.setLink k v).placement = s.placement := rfl
@[simp] theorem setLink_loadQ : (s.setLink k v).loadQ = s.loadQ := rfl
@[simp] theorem setLink_loadNow : (s.setLink k v).loadNow = s.loadNow := rfl
@[simp] theorem setLink_ready : (s.setLink k v).ready = s.ready := rfl
@[simp] theorem setLink_anchors : (s.setLink k v).anchors = s.anchors := rfl
@[simp] theorem setLink_sinks : (s.setLink k v).sinks = s.sinks := rfl
@[simp] theorem setLink_chutes : (s.setLink k v).chutes = s.chutes := rfl
@[simp] theorem setLink_doorbells : (s.setLink k v).doorbells = s.doorbells := rfl
@[simp] theorem setLink_chuteDies : (s.setLink k v).chuteDies = s.chuteDies := rfl
@[simp] theorem setLink_epStat : (s.setLink k v).epStat = s.epStat := rfl
@[simp] theorem setLink_xoffRemote : (s.setLink k v).xoffRemote = s.xoffRemote := rfl
@[simp] theorem setLink_ms : (s.setLink k v).ms = s.ms := rfl
@[simp] theorem setLink_pnet : (s.setLink k v).pnet = s.pnet := rfl
@[simp] theorem setLink_oes : (s.setLink k v).oes = s.oes := rfl
@[simp] theorem setLink_lls : (s.setLink k v).lls = s.lls := rfl
@[simp] theorem setLink_sys : (s.setLink k v).sys = s.sys := rfl
@[simp] theorem setLink_host : (s.setLink k v).host = s.host := rfl
@[simp] theorem setLink_hostMem : (s.setLink k v).hostMem = s.hostMem := rfl
@[simp] theorem setLink_tack : (s.setLink k v).tack = s.tack := rfl
@[simp] theorem setLink_flash : (s.setLink k v).flash = s.flash := rfl
@[simp] theorem setLink_spi0 : (s.setLink k v).spi0 = s.spi0 := rfl
@[simp] theorem setLink_spi1 : (s.setLink k v).spi1 = s.spi1 := rfl
@[simp] theorem setLink_mram : (s.setLink k v).mram = s.mram := rfl
@[simp] theorem setLink_pwr : (s.setLink k v).pwr = s.pwr := rfl
@[simp] theorem setLink_therm : (s.setLink k v).therm = s.therm := rfl
@[simp] theorem setLink_flt : (s.setLink k v).flt = s.flt := rfl
@[simp] theorem setLink_pmus : (s.setLink k v).pmus = s.pmus := rfl
@[simp] theorem setLink_stall : (s.setLink k v).stall j = s.stall j := rfl
@[simp] theorem setLink_pen : (s.setLink k v).pen j = s.pen j := rfl
@[simp] theorem setLink_sink : (s.setLink k v).sink j = s.sink j := rfl
@[simp] theorem setLink_chute : (s.setLink k v).chute j = s.chute j := rfl
@[simp] theorem setLink_doorbell : (s.setLink k v).doorbell j = s.doorbell j := rfl
@[simp] theorem setLink_chuteDie : (s.setLink k v).chuteDie j = s.chuteDie j := rfl
@[simp] theorem setLink_hub : (s.setLink k v).hub j = s.hub j := rfl
@[simp] theorem setLink_site : (s.setLink k v).site j = s.site j := rfl
@[simp] theorem setLink_lmapAt : (s.setLink k v).lmapAt j = s.lmapAt j := rfl
@[simp] theorem setLink_oe : (s.setLink k v).oe j = s.oe j := rfl
@[simp] theorem setLink_link : (s.setLink k v).link j = if j = k then v else s.link j := by
  simp [State.setLink, State.link]
@[simp] theorem setLink_ll : (s.setLink k v).ll j = s.ll j := rfl
@[simp] theorem setLink_peer : (s.setLink k v).peer j = s.peer j := rfl
@[simp] theorem setLink_fn : (s.setLink k v).fn j = s.fn j := rfl
@[simp] theorem setLink_dma : (s.setLink k v).dma j = s.dma j := rfl
@[simp] theorem setLink_frec : (s.setLink k v).frec j = s.frec j := rfl
@[simp] theorem setLink_level : (s.setLink k v).level j = s.level j := rfl
@[simp] theorem setLink_pmu : (s.setLink k v).pmu j = s.pmu j := rfl
@[simp] theorem setLink_sensor : (s.setLink k v).sensor j = s.sensor j := rfl
@[simp] theorem setLink_unit : (s.setLink k v).unit j = s.unit j := rfl
@[simp] theorem setLink_bucket : (s.setLink k v).bucket j = s.bucket j := rfl

end

/-! ### State.setLl -/

section
variable (v : LL)

@[simp] theorem setLl_pending : (s.setLl k v).pending = s.pending := rfl
@[simp] theorem setLl_time : (s.setLl k v).time = s.time := rfl
@[simp] theorem setLl_free : (s.setLl k v).free = s.free := rfl
@[simp] theorem setLl_resp : (s.setLl k v).resp = s.resp := rfl
@[simp] theorem setLl_pins : (s.setLl k v).pins = s.pins := rfl
@[simp] theorem setLl_stalls : (s.setLl k v).stalls = s.stalls := rfl
@[simp] theorem setLl_manger : (s.setLl k v).manger = s.manger := rfl
@[simp] theorem setLl_mangerInj : (s.setLl k v).mangerInj = s.mangerInj := rfl
@[simp] theorem setLl_strq : (s.setLl k v).strq = s.strq := rfl
@[simp] theorem setLl_pens : (s.setLl k v).pens = s.pens := rfl
@[simp] theorem setLl_placement : (s.setLl k v).placement = s.placement := rfl
@[simp] theorem setLl_loadQ : (s.setLl k v).loadQ = s.loadQ := rfl
@[simp] theorem setLl_loadNow : (s.setLl k v).loadNow = s.loadNow := rfl
@[simp] theorem setLl_ready : (s.setLl k v).ready = s.ready := rfl
@[simp] theorem setLl_anchors : (s.setLl k v).anchors = s.anchors := rfl
@[simp] theorem setLl_sinks : (s.setLl k v).sinks = s.sinks := rfl
@[simp] theorem setLl_chutes : (s.setLl k v).chutes = s.chutes := rfl
@[simp] theorem setLl_doorbells : (s.setLl k v).doorbells = s.doorbells := rfl
@[simp] theorem setLl_chuteDies : (s.setLl k v).chuteDies = s.chuteDies := rfl
@[simp] theorem setLl_epStat : (s.setLl k v).epStat = s.epStat := rfl
@[simp] theorem setLl_xoffRemote : (s.setLl k v).xoffRemote = s.xoffRemote := rfl
@[simp] theorem setLl_ms : (s.setLl k v).ms = s.ms := rfl
@[simp] theorem setLl_pnet : (s.setLl k v).pnet = s.pnet := rfl
@[simp] theorem setLl_oes : (s.setLl k v).oes = s.oes := rfl
@[simp] theorem setLl_links : (s.setLl k v).links = s.links := rfl
@[simp] theorem setLl_sys : (s.setLl k v).sys = s.sys := rfl
@[simp] theorem setLl_host : (s.setLl k v).host = s.host := rfl
@[simp] theorem setLl_hostMem : (s.setLl k v).hostMem = s.hostMem := rfl
@[simp] theorem setLl_tack : (s.setLl k v).tack = s.tack := rfl
@[simp] theorem setLl_flash : (s.setLl k v).flash = s.flash := rfl
@[simp] theorem setLl_spi0 : (s.setLl k v).spi0 = s.spi0 := rfl
@[simp] theorem setLl_spi1 : (s.setLl k v).spi1 = s.spi1 := rfl
@[simp] theorem setLl_mram : (s.setLl k v).mram = s.mram := rfl
@[simp] theorem setLl_pwr : (s.setLl k v).pwr = s.pwr := rfl
@[simp] theorem setLl_therm : (s.setLl k v).therm = s.therm := rfl
@[simp] theorem setLl_flt : (s.setLl k v).flt = s.flt := rfl
@[simp] theorem setLl_pmus : (s.setLl k v).pmus = s.pmus := rfl
@[simp] theorem setLl_stall : (s.setLl k v).stall j = s.stall j := rfl
@[simp] theorem setLl_pen : (s.setLl k v).pen j = s.pen j := rfl
@[simp] theorem setLl_sink : (s.setLl k v).sink j = s.sink j := rfl
@[simp] theorem setLl_chute : (s.setLl k v).chute j = s.chute j := rfl
@[simp] theorem setLl_doorbell : (s.setLl k v).doorbell j = s.doorbell j := rfl
@[simp] theorem setLl_chuteDie : (s.setLl k v).chuteDie j = s.chuteDie j := rfl
@[simp] theorem setLl_hub : (s.setLl k v).hub j = s.hub j := rfl
@[simp] theorem setLl_site : (s.setLl k v).site j = s.site j := rfl
@[simp] theorem setLl_lmapAt : (s.setLl k v).lmapAt j = s.lmapAt j := rfl
@[simp] theorem setLl_oe : (s.setLl k v).oe j = s.oe j := rfl
@[simp] theorem setLl_link : (s.setLl k v).link j = s.link j := rfl
@[simp] theorem setLl_ll : (s.setLl k v).ll j = if j = k then v else s.ll j := by
  simp [State.setLl, State.ll]
@[simp] theorem setLl_peer : (s.setLl k v).peer j = s.peer j := rfl
@[simp] theorem setLl_fn : (s.setLl k v).fn j = s.fn j := rfl
@[simp] theorem setLl_dma : (s.setLl k v).dma j = s.dma j := rfl
@[simp] theorem setLl_frec : (s.setLl k v).frec j = s.frec j := rfl
@[simp] theorem setLl_level : (s.setLl k v).level j = s.level j := rfl
@[simp] theorem setLl_pmu : (s.setLl k v).pmu j = s.pmu j := rfl
@[simp] theorem setLl_sensor : (s.setLl k v).sensor j = s.sensor j := rfl
@[simp] theorem setLl_unit : (s.setLl k v).unit j = s.unit j := rfl
@[simp] theorem setLl_bucket : (s.setLl k v).bucket j = s.bucket j := rfl

end

/-! ### State.setPeer -/

section
variable (v : Peer)

@[simp] theorem setPeer_pending : (s.setPeer k v).pending = s.pending := rfl
@[simp] theorem setPeer_time : (s.setPeer k v).time = s.time := rfl
@[simp] theorem setPeer_free : (s.setPeer k v).free = s.free := rfl
@[simp] theorem setPeer_resp : (s.setPeer k v).resp = s.resp := rfl
@[simp] theorem setPeer_pins : (s.setPeer k v).pins = s.pins := rfl
@[simp] theorem setPeer_stalls : (s.setPeer k v).stalls = s.stalls := rfl
@[simp] theorem setPeer_manger : (s.setPeer k v).manger = s.manger := rfl
@[simp] theorem setPeer_mangerInj : (s.setPeer k v).mangerInj = s.mangerInj := rfl
@[simp] theorem setPeer_strq : (s.setPeer k v).strq = s.strq := rfl
@[simp] theorem setPeer_pens : (s.setPeer k v).pens = s.pens := rfl
@[simp] theorem setPeer_placement : (s.setPeer k v).placement = s.placement := rfl
@[simp] theorem setPeer_loadQ : (s.setPeer k v).loadQ = s.loadQ := rfl
@[simp] theorem setPeer_loadNow : (s.setPeer k v).loadNow = s.loadNow := rfl
@[simp] theorem setPeer_ready : (s.setPeer k v).ready = s.ready := rfl
@[simp] theorem setPeer_anchors : (s.setPeer k v).anchors = s.anchors := rfl
@[simp] theorem setPeer_sinks : (s.setPeer k v).sinks = s.sinks := rfl
@[simp] theorem setPeer_chutes : (s.setPeer k v).chutes = s.chutes := rfl
@[simp] theorem setPeer_doorbells : (s.setPeer k v).doorbells = s.doorbells := rfl
@[simp] theorem setPeer_chuteDies : (s.setPeer k v).chuteDies = s.chuteDies := rfl
@[simp] theorem setPeer_epStat : (s.setPeer k v).epStat = s.epStat := rfl
@[simp] theorem setPeer_xoffRemote : (s.setPeer k v).xoffRemote = s.xoffRemote := rfl
@[simp] theorem setPeer_ms : (s.setPeer k v).ms = s.ms := rfl
@[simp] theorem setPeer_pnet : (s.setPeer k v).pnet = s.pnet := rfl
@[simp] theorem setPeer_oes : (s.setPeer k v).oes = s.oes := rfl
@[simp] theorem setPeer_links : (s.setPeer k v).links = s.links := rfl
@[simp] theorem setPeer_lls : (s.setPeer k v).lls = s.lls := rfl
@[simp] theorem setPeer_host : (s.setPeer k v).host = s.host := rfl
@[simp] theorem setPeer_hostMem : (s.setPeer k v).hostMem = s.hostMem := rfl
@[simp] theorem setPeer_tack : (s.setPeer k v).tack = s.tack := rfl
@[simp] theorem setPeer_flash : (s.setPeer k v).flash = s.flash := rfl
@[simp] theorem setPeer_spi0 : (s.setPeer k v).spi0 = s.spi0 := rfl
@[simp] theorem setPeer_spi1 : (s.setPeer k v).spi1 = s.spi1 := rfl
@[simp] theorem setPeer_mram : (s.setPeer k v).mram = s.mram := rfl
@[simp] theorem setPeer_pwr : (s.setPeer k v).pwr = s.pwr := rfl
@[simp] theorem setPeer_therm : (s.setPeer k v).therm = s.therm := rfl
@[simp] theorem setPeer_flt : (s.setPeer k v).flt = s.flt := rfl
@[simp] theorem setPeer_pmus : (s.setPeer k v).pmus = s.pmus := rfl
@[simp] theorem setPeer_stall : (s.setPeer k v).stall j = s.stall j := rfl
@[simp] theorem setPeer_pen : (s.setPeer k v).pen j = s.pen j := rfl
@[simp] theorem setPeer_sink : (s.setPeer k v).sink j = s.sink j := rfl
@[simp] theorem setPeer_chute : (s.setPeer k v).chute j = s.chute j := rfl
@[simp] theorem setPeer_doorbell : (s.setPeer k v).doorbell j = s.doorbell j := rfl
@[simp] theorem setPeer_chuteDie : (s.setPeer k v).chuteDie j = s.chuteDie j := rfl
@[simp] theorem setPeer_hub : (s.setPeer k v).hub j = s.hub j := rfl
@[simp] theorem setPeer_site : (s.setPeer k v).site j = s.site j := rfl
@[simp] theorem setPeer_lmapAt : (s.setPeer k v).lmapAt j = s.lmapAt j := rfl
@[simp] theorem setPeer_oe : (s.setPeer k v).oe j = s.oe j := rfl
@[simp] theorem setPeer_link : (s.setPeer k v).link j = s.link j := rfl
@[simp] theorem setPeer_ll : (s.setPeer k v).ll j = s.ll j := rfl
@[simp] theorem setPeer_peer : (s.setPeer k v).peer j = if j = k then v else s.peer j := by
  simp [State.setPeer, State.peer]
@[simp] theorem setPeer_fn : (s.setPeer k v).fn j = s.fn j := rfl
@[simp] theorem setPeer_dma : (s.setPeer k v).dma j = s.dma j := rfl
@[simp] theorem setPeer_frec : (s.setPeer k v).frec j = s.frec j := rfl
@[simp] theorem setPeer_level : (s.setPeer k v).level j = s.level j := rfl
@[simp] theorem setPeer_pmu : (s.setPeer k v).pmu j = s.pmu j := rfl
@[simp] theorem setPeer_sensor : (s.setPeer k v).sensor j = s.sensor j := rfl
@[simp] theorem setPeer_unit : (s.setPeer k v).unit j = s.unit j := rfl
@[simp] theorem setPeer_bucket : (s.setPeer k v).bucket j = s.bucket j := rfl
@[simp] theorem setPeer_sys_manager : (s.setPeer k v).sys.manager = s.sys.manager := rfl
@[simp] theorem setPeer_sys_roleSet : (s.setPeer k v).sys.roleSet = s.sys.roleSet := rfl
@[simp] theorem setPeer_sys_mgrDev : (s.setPeer k v).sys.mgrDev = s.sys.mgrDev := rfl
@[simp] theorem setPeer_sys_mgrKnown : (s.setPeer k v).sys.mgrKnown = s.sys.mgrKnown := rfl
@[simp] theorem setPeer_sys_autoRoute : (s.setPeer k v).sys.autoRoute = s.sys.autoRoute := rfl
@[simp] theorem setPeer_sys_noticeEn : (s.setPeer k v).sys.noticeEn = s.sys.noticeEn := rfl
@[simp] theorem setPeer_sys_intakeEn : (s.setPeer k v).sys.intakeEn = s.sys.intakeEn := rfl
@[simp] theorem setPeer_sys_intakeChute : (s.setPeer k v).sys.intakeChute = s.sys.intakeChute := rfl
@[simp] theorem setPeer_sys_twoMgr : (s.setPeer k v).sys.twoMgr = s.sys.twoMgr := rfl
@[simp] theorem setPeer_sys_dup : (s.setPeer k v).sys.dup = s.sys.dup := rfl
@[simp] theorem setPeer_sys_shuffle : (s.setPeer k v).sys.shuffle = s.sys.shuffle := rfl
@[simp] theorem setPeer_sys_dropped : (s.setPeer k v).sys.dropped = s.sys.dropped := rfl
@[simp] theorem setPeer_sys_oeHeld : (s.setPeer k v).sys.oeHeld = s.sys.oeHeld := rfl
@[simp] theorem setPeer_sys_ctlHeld : (s.setPeer k v).sys.ctlHeld = s.sys.ctlHeld := rfl
@[simp] theorem setPeer_sys_relay : (s.setPeer k v).sys.relay = s.sys.relay := rfl
@[simp] theorem setPeer_sys_reads : (s.setPeer k v).sys.reads = s.sys.reads := rfl
@[simp] theorem setPeer_sys_stalled : (s.setPeer k v).sys.stalled = s.sys.stalled := rfl
@[simp] theorem setPeer_sys_nextTag : (s.setPeer k v).sys.nextTag = s.sys.nextTag := rfl
@[simp] theorem setPeer_sys_empties : (s.setPeer k v).sys.empties = s.sys.empties := rfl
@[simp] theorem setPeer_sys_linkCounts : (s.setPeer k v).sys.linkCounts = s.sys.linkCounts := rfl
@[simp] theorem setPeer_sys_forwards : (s.setPeer k v).sys.forwards = s.sys.forwards := rfl

end

/-! ### State.setFn -/

section
variable (v : Fn)

@[simp] theorem setFn_pending : (s.setFn k v).pending = s.pending := rfl
@[simp] theorem setFn_time : (s.setFn k v).time = s.time := rfl
@[simp] theorem setFn_free : (s.setFn k v).free = s.free := rfl
@[simp] theorem setFn_resp : (s.setFn k v).resp = s.resp := rfl
@[simp] theorem setFn_pins : (s.setFn k v).pins = s.pins := rfl
@[simp] theorem setFn_stalls : (s.setFn k v).stalls = s.stalls := rfl
@[simp] theorem setFn_manger : (s.setFn k v).manger = s.manger := rfl
@[simp] theorem setFn_mangerInj : (s.setFn k v).mangerInj = s.mangerInj := rfl
@[simp] theorem setFn_strq : (s.setFn k v).strq = s.strq := rfl
@[simp] theorem setFn_pens : (s.setFn k v).pens = s.pens := rfl
@[simp] theorem setFn_placement : (s.setFn k v).placement = s.placement := rfl
@[simp] theorem setFn_loadQ : (s.setFn k v).loadQ = s.loadQ := rfl
@[simp] theorem setFn_loadNow : (s.setFn k v).loadNow = s.loadNow := rfl
@[simp] theorem setFn_ready : (s.setFn k v).ready = s.ready := rfl
@[simp] theorem setFn_anchors : (s.setFn k v).anchors = s.anchors := rfl
@[simp] theorem setFn_sinks : (s.setFn k v).sinks = s.sinks := rfl
@[simp] theorem setFn_chutes : (s.setFn k v).chutes = s.chutes := rfl
@[simp] theorem setFn_doorbells : (s.setFn k v).doorbells = s.doorbells := rfl
@[simp] theorem setFn_chuteDies : (s.setFn k v).chuteDies = s.chuteDies := rfl
@[simp] theorem setFn_epStat : (s.setFn k v).epStat = s.epStat := rfl
@[simp] theorem setFn_xoffRemote : (s.setFn k v).xoffRemote = s.xoffRemote := rfl
@[simp] theorem setFn_ms : (s.setFn k v).ms = s.ms := rfl
@[simp] theorem setFn_pnet : (s.setFn k v).pnet = s.pnet := rfl
@[simp] theorem setFn_oes : (s.setFn k v).oes = s.oes := rfl
@[simp] theorem setFn_links : (s.setFn k v).links = s.links := rfl
@[simp] theorem setFn_lls : (s.setFn k v).lls = s.lls := rfl
@[simp] theorem setFn_sys : (s.setFn k v).sys = s.sys := rfl
@[simp] theorem setFn_hostMem : (s.setFn k v).hostMem = s.hostMem := rfl
@[simp] theorem setFn_tack : (s.setFn k v).tack = s.tack := rfl
@[simp] theorem setFn_flash : (s.setFn k v).flash = s.flash := rfl
@[simp] theorem setFn_spi0 : (s.setFn k v).spi0 = s.spi0 := rfl
@[simp] theorem setFn_spi1 : (s.setFn k v).spi1 = s.spi1 := rfl
@[simp] theorem setFn_mram : (s.setFn k v).mram = s.mram := rfl
@[simp] theorem setFn_pwr : (s.setFn k v).pwr = s.pwr := rfl
@[simp] theorem setFn_therm : (s.setFn k v).therm = s.therm := rfl
@[simp] theorem setFn_flt : (s.setFn k v).flt = s.flt := rfl
@[simp] theorem setFn_pmus : (s.setFn k v).pmus = s.pmus := rfl
@[simp] theorem setFn_stall : (s.setFn k v).stall j = s.stall j := rfl
@[simp] theorem setFn_pen : (s.setFn k v).pen j = s.pen j := rfl
@[simp] theorem setFn_sink : (s.setFn k v).sink j = s.sink j := rfl
@[simp] theorem setFn_chute : (s.setFn k v).chute j = s.chute j := rfl
@[simp] theorem setFn_doorbell : (s.setFn k v).doorbell j = s.doorbell j := rfl
@[simp] theorem setFn_chuteDie : (s.setFn k v).chuteDie j = s.chuteDie j := rfl
@[simp] theorem setFn_hub : (s.setFn k v).hub j = s.hub j := rfl
@[simp] theorem setFn_site : (s.setFn k v).site j = s.site j := rfl
@[simp] theorem setFn_lmapAt : (s.setFn k v).lmapAt j = s.lmapAt j := rfl
@[simp] theorem setFn_oe : (s.setFn k v).oe j = s.oe j := rfl
@[simp] theorem setFn_link : (s.setFn k v).link j = s.link j := rfl
@[simp] theorem setFn_ll : (s.setFn k v).ll j = s.ll j := rfl
@[simp] theorem setFn_peer : (s.setFn k v).peer j = s.peer j := rfl
@[simp] theorem setFn_fn : (s.setFn k v).fn j = if j = k then v else s.fn j := by
  simp [State.setFn, State.fn]
@[simp] theorem setFn_dma : (s.setFn k v).dma j = s.dma j := rfl
@[simp] theorem setFn_frec : (s.setFn k v).frec j = s.frec j := rfl
@[simp] theorem setFn_level : (s.setFn k v).level j = s.level j := rfl
@[simp] theorem setFn_pmu : (s.setFn k v).pmu j = s.pmu j := rfl
@[simp] theorem setFn_sensor : (s.setFn k v).sensor j = s.sensor j := rfl
@[simp] theorem setFn_unit : (s.setFn k v).unit j = s.unit j := rfl
@[simp] theorem setFn_bucket : (s.setFn k v).bucket j = s.bucket j := rfl
@[simp] theorem setFn_host_devState : (s.setFn k v).host.devState = s.host.devState := rfl
@[simp] theorem setFn_host_speed : (s.setFn k v).host.speed = s.host.speed := rfl
@[simp] theorem setFn_host_width : (s.setFn k v).host.width = s.host.width := rfl
@[simp] theorem setFn_host_flit : (s.setFn k v).host.flit = s.host.flit := rfl
@[simp] theorem setFn_host_cxl : (s.setFn k v).host.cxl = s.host.cxl := rfl
@[simp] theorem setFn_host_cxlVer : (s.setFn k v).host.cxlVer = s.host.cxlVer := rfl
@[simp] theorem setFn_host_linkUp : (s.setFn k v).host.linkUp = s.host.linkUp := rfl
@[simp] theorem setFn_host_portOn : (s.setFn k v).host.portOn = s.host.portOn := rfl
@[simp] theorem setFn_host_memActive : (s.setFn k v).host.memActive = s.host.memActive := rfl
@[simp] theorem setFn_host_ide : (s.setFn k v).host.ide = s.host.ide := rfl
@[simp] theorem setFn_host_denied : (s.setFn k v).host.denied = s.host.denied := rfl
@[simp] theorem setFn_host_dmas : (s.setFn k v).host.dmas = s.host.dmas := rfl
@[simp] theorem setFn_host_vfEnable : (s.setFn k v).host.vfEnable = s.host.vfEnable := rfl

end

/-! ### State.setDma -/

section
variable (v : Dma)

@[simp] theorem setDma_pending : (s.setDma k v).pending = s.pending := rfl
@[simp] theorem setDma_time : (s.setDma k v).time = s.time := rfl
@[simp] theorem setDma_free : (s.setDma k v).free = s.free := rfl
@[simp] theorem setDma_resp : (s.setDma k v).resp = s.resp := rfl
@[simp] theorem setDma_pins : (s.setDma k v).pins = s.pins := rfl
@[simp] theorem setDma_stalls : (s.setDma k v).stalls = s.stalls := rfl
@[simp] theorem setDma_manger : (s.setDma k v).manger = s.manger := rfl
@[simp] theorem setDma_mangerInj : (s.setDma k v).mangerInj = s.mangerInj := rfl
@[simp] theorem setDma_strq : (s.setDma k v).strq = s.strq := rfl
@[simp] theorem setDma_pens : (s.setDma k v).pens = s.pens := rfl
@[simp] theorem setDma_placement : (s.setDma k v).placement = s.placement := rfl
@[simp] theorem setDma_loadQ : (s.setDma k v).loadQ = s.loadQ := rfl
@[simp] theorem setDma_loadNow : (s.setDma k v).loadNow = s.loadNow := rfl
@[simp] theorem setDma_ready : (s.setDma k v).ready = s.ready := rfl
@[simp] theorem setDma_anchors : (s.setDma k v).anchors = s.anchors := rfl
@[simp] theorem setDma_sinks : (s.setDma k v).sinks = s.sinks := rfl
@[simp] theorem setDma_chutes : (s.setDma k v).chutes = s.chutes := rfl
@[simp] theorem setDma_doorbells : (s.setDma k v).doorbells = s.doorbells := rfl
@[simp] theorem setDma_chuteDies : (s.setDma k v).chuteDies = s.chuteDies := rfl
@[simp] theorem setDma_epStat : (s.setDma k v).epStat = s.epStat := rfl
@[simp] theorem setDma_xoffRemote : (s.setDma k v).xoffRemote = s.xoffRemote := rfl
@[simp] theorem setDma_ms : (s.setDma k v).ms = s.ms := rfl
@[simp] theorem setDma_pnet : (s.setDma k v).pnet = s.pnet := rfl
@[simp] theorem setDma_oes : (s.setDma k v).oes = s.oes := rfl
@[simp] theorem setDma_links : (s.setDma k v).links = s.links := rfl
@[simp] theorem setDma_lls : (s.setDma k v).lls = s.lls := rfl
@[simp] theorem setDma_sys : (s.setDma k v).sys = s.sys := rfl
@[simp] theorem setDma_hostMem : (s.setDma k v).hostMem = s.hostMem := rfl
@[simp] theorem setDma_tack : (s.setDma k v).tack = s.tack := rfl
@[simp] theorem setDma_flash : (s.setDma k v).flash = s.flash := rfl
@[simp] theorem setDma_spi0 : (s.setDma k v).spi0 = s.spi0 := rfl
@[simp] theorem setDma_spi1 : (s.setDma k v).spi1 = s.spi1 := rfl
@[simp] theorem setDma_mram : (s.setDma k v).mram = s.mram := rfl
@[simp] theorem setDma_pwr : (s.setDma k v).pwr = s.pwr := rfl
@[simp] theorem setDma_therm : (s.setDma k v).therm = s.therm := rfl
@[simp] theorem setDma_flt : (s.setDma k v).flt = s.flt := rfl
@[simp] theorem setDma_pmus : (s.setDma k v).pmus = s.pmus := rfl
@[simp] theorem setDma_stall : (s.setDma k v).stall j = s.stall j := rfl
@[simp] theorem setDma_pen : (s.setDma k v).pen j = s.pen j := rfl
@[simp] theorem setDma_sink : (s.setDma k v).sink j = s.sink j := rfl
@[simp] theorem setDma_chute : (s.setDma k v).chute j = s.chute j := rfl
@[simp] theorem setDma_doorbell : (s.setDma k v).doorbell j = s.doorbell j := rfl
@[simp] theorem setDma_chuteDie : (s.setDma k v).chuteDie j = s.chuteDie j := rfl
@[simp] theorem setDma_hub : (s.setDma k v).hub j = s.hub j := rfl
@[simp] theorem setDma_site : (s.setDma k v).site j = s.site j := rfl
@[simp] theorem setDma_lmapAt : (s.setDma k v).lmapAt j = s.lmapAt j := rfl
@[simp] theorem setDma_oe : (s.setDma k v).oe j = s.oe j := rfl
@[simp] theorem setDma_link : (s.setDma k v).link j = s.link j := rfl
@[simp] theorem setDma_ll : (s.setDma k v).ll j = s.ll j := rfl
@[simp] theorem setDma_peer : (s.setDma k v).peer j = s.peer j := rfl
@[simp] theorem setDma_fn : (s.setDma k v).fn j = s.fn j := rfl
@[simp] theorem setDma_dma : (s.setDma k v).dma j = if j = k then v else s.dma j := by
  simp [State.setDma, State.dma]
@[simp] theorem setDma_frec : (s.setDma k v).frec j = s.frec j := rfl
@[simp] theorem setDma_level : (s.setDma k v).level j = s.level j := rfl
@[simp] theorem setDma_pmu : (s.setDma k v).pmu j = s.pmu j := rfl
@[simp] theorem setDma_sensor : (s.setDma k v).sensor j = s.sensor j := rfl
@[simp] theorem setDma_unit : (s.setDma k v).unit j = s.unit j := rfl
@[simp] theorem setDma_bucket : (s.setDma k v).bucket j = s.bucket j := rfl
@[simp] theorem setDma_host_devState : (s.setDma k v).host.devState = s.host.devState := rfl
@[simp] theorem setDma_host_speed : (s.setDma k v).host.speed = s.host.speed := rfl
@[simp] theorem setDma_host_width : (s.setDma k v).host.width = s.host.width := rfl
@[simp] theorem setDma_host_flit : (s.setDma k v).host.flit = s.host.flit := rfl
@[simp] theorem setDma_host_cxl : (s.setDma k v).host.cxl = s.host.cxl := rfl
@[simp] theorem setDma_host_cxlVer : (s.setDma k v).host.cxlVer = s.host.cxlVer := rfl
@[simp] theorem setDma_host_linkUp : (s.setDma k v).host.linkUp = s.host.linkUp := rfl
@[simp] theorem setDma_host_portOn : (s.setDma k v).host.portOn = s.host.portOn := rfl
@[simp] theorem setDma_host_memActive : (s.setDma k v).host.memActive = s.host.memActive := rfl
@[simp] theorem setDma_host_ide : (s.setDma k v).host.ide = s.host.ide := rfl
@[simp] theorem setDma_host_denied : (s.setDma k v).host.denied = s.host.denied := rfl
@[simp] theorem setDma_host_fns : (s.setDma k v).host.fns = s.host.fns := rfl
@[simp] theorem setDma_host_vfEnable : (s.setDma k v).host.vfEnable = s.host.vfEnable := rfl

end

/-! ### State.setFrec -/

section
variable (v : FRec)

@[simp] theorem setFrec_pending : (s.setFrec k v).pending = s.pending := rfl
@[simp] theorem setFrec_time : (s.setFrec k v).time = s.time := rfl
@[simp] theorem setFrec_free : (s.setFrec k v).free = s.free := rfl
@[simp] theorem setFrec_resp : (s.setFrec k v).resp = s.resp := rfl
@[simp] theorem setFrec_pins : (s.setFrec k v).pins = s.pins := rfl
@[simp] theorem setFrec_stalls : (s.setFrec k v).stalls = s.stalls := rfl
@[simp] theorem setFrec_manger : (s.setFrec k v).manger = s.manger := rfl
@[simp] theorem setFrec_mangerInj : (s.setFrec k v).mangerInj = s.mangerInj := rfl
@[simp] theorem setFrec_strq : (s.setFrec k v).strq = s.strq := rfl
@[simp] theorem setFrec_pens : (s.setFrec k v).pens = s.pens := rfl
@[simp] theorem setFrec_placement : (s.setFrec k v).placement = s.placement := rfl
@[simp] theorem setFrec_loadQ : (s.setFrec k v).loadQ = s.loadQ := rfl
@[simp] theorem setFrec_loadNow : (s.setFrec k v).loadNow = s.loadNow := rfl
@[simp] theorem setFrec_ready : (s.setFrec k v).ready = s.ready := rfl
@[simp] theorem setFrec_anchors : (s.setFrec k v).anchors = s.anchors := rfl
@[simp] theorem setFrec_sinks : (s.setFrec k v).sinks = s.sinks := rfl
@[simp] theorem setFrec_chutes : (s.setFrec k v).chutes = s.chutes := rfl
@[simp] theorem setFrec_doorbells : (s.setFrec k v).doorbells = s.doorbells := rfl
@[simp] theorem setFrec_chuteDies : (s.setFrec k v).chuteDies = s.chuteDies := rfl
@[simp] theorem setFrec_epStat : (s.setFrec k v).epStat = s.epStat := rfl
@[simp] theorem setFrec_xoffRemote : (s.setFrec k v).xoffRemote = s.xoffRemote := rfl
@[simp] theorem setFrec_ms : (s.setFrec k v).ms = s.ms := rfl
@[simp] theorem setFrec_pnet : (s.setFrec k v).pnet = s.pnet := rfl
@[simp] theorem setFrec_oes : (s.setFrec k v).oes = s.oes := rfl
@[simp] theorem setFrec_links : (s.setFrec k v).links = s.links := rfl
@[simp] theorem setFrec_lls : (s.setFrec k v).lls = s.lls := rfl
@[simp] theorem setFrec_sys : (s.setFrec k v).sys = s.sys := rfl
@[simp] theorem setFrec_host : (s.setFrec k v).host = s.host := rfl
@[simp] theorem setFrec_hostMem : (s.setFrec k v).hostMem = s.hostMem := rfl
@[simp] theorem setFrec_tack : (s.setFrec k v).tack = s.tack := rfl
@[simp] theorem setFrec_flash : (s.setFrec k v).flash = s.flash := rfl
@[simp] theorem setFrec_spi0 : (s.setFrec k v).spi0 = s.spi0 := rfl
@[simp] theorem setFrec_spi1 : (s.setFrec k v).spi1 = s.spi1 := rfl
@[simp] theorem setFrec_mram : (s.setFrec k v).mram = s.mram := rfl
@[simp] theorem setFrec_pwr : (s.setFrec k v).pwr = s.pwr := rfl
@[simp] theorem setFrec_therm : (s.setFrec k v).therm = s.therm := rfl
@[simp] theorem setFrec_pmus : (s.setFrec k v).pmus = s.pmus := rfl
@[simp] theorem setFrec_stall : (s.setFrec k v).stall j = s.stall j := rfl
@[simp] theorem setFrec_pen : (s.setFrec k v).pen j = s.pen j := rfl
@[simp] theorem setFrec_sink : (s.setFrec k v).sink j = s.sink j := rfl
@[simp] theorem setFrec_chute : (s.setFrec k v).chute j = s.chute j := rfl
@[simp] theorem setFrec_doorbell : (s.setFrec k v).doorbell j = s.doorbell j := rfl
@[simp] theorem setFrec_chuteDie : (s.setFrec k v).chuteDie j = s.chuteDie j := rfl
@[simp] theorem setFrec_hub : (s.setFrec k v).hub j = s.hub j := rfl
@[simp] theorem setFrec_site : (s.setFrec k v).site j = s.site j := rfl
@[simp] theorem setFrec_lmapAt : (s.setFrec k v).lmapAt j = s.lmapAt j := rfl
@[simp] theorem setFrec_oe : (s.setFrec k v).oe j = s.oe j := rfl
@[simp] theorem setFrec_link : (s.setFrec k v).link j = s.link j := rfl
@[simp] theorem setFrec_ll : (s.setFrec k v).ll j = s.ll j := rfl
@[simp] theorem setFrec_peer : (s.setFrec k v).peer j = s.peer j := rfl
@[simp] theorem setFrec_fn : (s.setFrec k v).fn j = s.fn j := rfl
@[simp] theorem setFrec_dma : (s.setFrec k v).dma j = s.dma j := rfl
@[simp] theorem setFrec_frec : (s.setFrec k v).frec j = if j = k then v else s.frec j := by
  simp [State.setFrec, State.frec]
@[simp] theorem setFrec_level : (s.setFrec k v).level j = s.level j := rfl
@[simp] theorem setFrec_pmu : (s.setFrec k v).pmu j = s.pmu j := rfl
@[simp] theorem setFrec_sensor : (s.setFrec k v).sensor j = s.sensor j := rfl
@[simp] theorem setFrec_unit : (s.setFrec k v).unit j = s.unit j := rfl
@[simp] theorem setFrec_bucket : (s.setFrec k v).bucket j = s.bucket j := rfl
@[simp] theorem setFrec_flt_log : (s.setFrec k v).flt.log = s.flt.log := rfl
@[simp] theorem setFrec_flt_head : (s.setFrec k v).flt.head = s.flt.head := rfl
@[simp] theorem setFrec_flt_prev : (s.setFrec k v).flt.prev = s.flt.prev := rfl
@[simp] theorem setFrec_flt_prevLog : (s.setFrec k v).flt.prevLog = s.flt.prevLog := rfl
@[simp] theorem setFrec_flt_buckets : (s.setFrec k v).flt.buckets = s.flt.buckets := rfl
@[simp] theorem setFrec_flt_levels : (s.setFrec k v).flt.levels = s.flt.levels := rfl
@[simp] theorem setFrec_flt_hbLost : (s.setFrec k v).flt.hbLost = s.flt.hbLost := rfl
@[simp] theorem setFrec_flt_failed : (s.setFrec k v).flt.failed = s.flt.failed := rfl
@[simp] theorem setFrec_flt_hbSeen : (s.setFrec k v).flt.hbSeen = s.flt.hbSeen := rfl
@[simp] theorem setFrec_flt_injSource : (s.setFrec k v).flt.injSource = s.flt.injSource := rfl
@[simp] theorem setFrec_flt_injChecker : (s.setFrec k v).flt.injChecker = s.flt.injChecker := rfl
@[simp] theorem setFrec_flt_injResult : (s.setFrec k v).flt.injResult = s.flt.injResult := rfl
@[simp] theorem setFrec_flt_injShown : (s.setFrec k v).flt.injShown = s.flt.injShown := rfl
@[simp] theorem setFrec_flt_arm : (s.setFrec k v).flt.arm = s.flt.arm := rfl
@[simp] theorem setFrec_flt_testResult : (s.setFrec k v).flt.testResult = s.flt.testResult := rfl
@[simp] theorem setFrec_flt_test : (s.setFrec k v).flt.test = s.flt.test := rfl

end

/-! ### State.setLevel -/

section
variable (v : Nat)

@[simp] theorem setLevel_pending : (s.setLevel k v).pending = s.pending := rfl
@[simp] theorem setLevel_time : (s.setLevel k v).time = s.time := rfl
@[simp] theorem setLevel_free : (s.setLevel k v).free = s.free := rfl
@[simp] theorem setLevel_resp : (s.setLevel k v).resp = s.resp := rfl
@[simp] theorem setLevel_pins : (s.setLevel k v).pins = s.pins := rfl
@[simp] theorem setLevel_stalls : (s.setLevel k v).stalls = s.stalls := rfl
@[simp] theorem setLevel_manger : (s.setLevel k v).manger = s.manger := rfl
@[simp] theorem setLevel_mangerInj : (s.setLevel k v).mangerInj = s.mangerInj := rfl
@[simp] theorem setLevel_strq : (s.setLevel k v).strq = s.strq := rfl
@[simp] theorem setLevel_pens : (s.setLevel k v).pens = s.pens := rfl
@[simp] theorem setLevel_placement : (s.setLevel k v).placement = s.placement := rfl
@[simp] theorem setLevel_loadQ : (s.setLevel k v).loadQ = s.loadQ := rfl
@[simp] theorem setLevel_loadNow : (s.setLevel k v).loadNow = s.loadNow := rfl
@[simp] theorem setLevel_ready : (s.setLevel k v).ready = s.ready := rfl
@[simp] theorem setLevel_anchors : (s.setLevel k v).anchors = s.anchors := rfl
@[simp] theorem setLevel_sinks : (s.setLevel k v).sinks = s.sinks := rfl
@[simp] theorem setLevel_chutes : (s.setLevel k v).chutes = s.chutes := rfl
@[simp] theorem setLevel_doorbells : (s.setLevel k v).doorbells = s.doorbells := rfl
@[simp] theorem setLevel_chuteDies : (s.setLevel k v).chuteDies = s.chuteDies := rfl
@[simp] theorem setLevel_epStat : (s.setLevel k v).epStat = s.epStat := rfl
@[simp] theorem setLevel_xoffRemote : (s.setLevel k v).xoffRemote = s.xoffRemote := rfl
@[simp] theorem setLevel_ms : (s.setLevel k v).ms = s.ms := rfl
@[simp] theorem setLevel_pnet : (s.setLevel k v).pnet = s.pnet := rfl
@[simp] theorem setLevel_oes : (s.setLevel k v).oes = s.oes := rfl
@[simp] theorem setLevel_links : (s.setLevel k v).links = s.links := rfl
@[simp] theorem setLevel_lls : (s.setLevel k v).lls = s.lls := rfl
@[simp] theorem setLevel_sys : (s.setLevel k v).sys = s.sys := rfl
@[simp] theorem setLevel_host : (s.setLevel k v).host = s.host := rfl
@[simp] theorem setLevel_hostMem : (s.setLevel k v).hostMem = s.hostMem := rfl
@[simp] theorem setLevel_tack : (s.setLevel k v).tack = s.tack := rfl
@[simp] theorem setLevel_flash : (s.setLevel k v).flash = s.flash := rfl
@[simp] theorem setLevel_spi0 : (s.setLevel k v).spi0 = s.spi0 := rfl
@[simp] theorem setLevel_spi1 : (s.setLevel k v).spi1 = s.spi1 := rfl
@[simp] theorem setLevel_mram : (s.setLevel k v).mram = s.mram := rfl
@[simp] theorem setLevel_pwr : (s.setLevel k v).pwr = s.pwr := rfl
@[simp] theorem setLevel_therm : (s.setLevel k v).therm = s.therm := rfl
@[simp] theorem setLevel_pmus : (s.setLevel k v).pmus = s.pmus := rfl
@[simp] theorem setLevel_stall : (s.setLevel k v).stall j = s.stall j := rfl
@[simp] theorem setLevel_pen : (s.setLevel k v).pen j = s.pen j := rfl
@[simp] theorem setLevel_sink : (s.setLevel k v).sink j = s.sink j := rfl
@[simp] theorem setLevel_chute : (s.setLevel k v).chute j = s.chute j := rfl
@[simp] theorem setLevel_doorbell : (s.setLevel k v).doorbell j = s.doorbell j := rfl
@[simp] theorem setLevel_chuteDie : (s.setLevel k v).chuteDie j = s.chuteDie j := rfl
@[simp] theorem setLevel_hub : (s.setLevel k v).hub j = s.hub j := rfl
@[simp] theorem setLevel_site : (s.setLevel k v).site j = s.site j := rfl
@[simp] theorem setLevel_lmapAt : (s.setLevel k v).lmapAt j = s.lmapAt j := rfl
@[simp] theorem setLevel_oe : (s.setLevel k v).oe j = s.oe j := rfl
@[simp] theorem setLevel_link : (s.setLevel k v).link j = s.link j := rfl
@[simp] theorem setLevel_ll : (s.setLevel k v).ll j = s.ll j := rfl
@[simp] theorem setLevel_peer : (s.setLevel k v).peer j = s.peer j := rfl
@[simp] theorem setLevel_fn : (s.setLevel k v).fn j = s.fn j := rfl
@[simp] theorem setLevel_dma : (s.setLevel k v).dma j = s.dma j := rfl
@[simp] theorem setLevel_frec : (s.setLevel k v).frec j = s.frec j := rfl
@[simp] theorem setLevel_level : (s.setLevel k v).level j = if j = k then v else s.level j := by
  simp [State.setLevel, State.level]
@[simp] theorem setLevel_pmu : (s.setLevel k v).pmu j = s.pmu j := rfl
@[simp] theorem setLevel_sensor : (s.setLevel k v).sensor j = s.sensor j := rfl
@[simp] theorem setLevel_unit : (s.setLevel k v).unit j = s.unit j := rfl
@[simp] theorem setLevel_bucket : (s.setLevel k v).bucket j = s.bucket j := rfl
@[simp] theorem setLevel_flt_recs : (s.setLevel k v).flt.recs = s.flt.recs := rfl
@[simp] theorem setLevel_flt_log : (s.setLevel k v).flt.log = s.flt.log := rfl
@[simp] theorem setLevel_flt_head : (s.setLevel k v).flt.head = s.flt.head := rfl
@[simp] theorem setLevel_flt_prev : (s.setLevel k v).flt.prev = s.flt.prev := rfl
@[simp] theorem setLevel_flt_prevLog : (s.setLevel k v).flt.prevLog = s.flt.prevLog := rfl
@[simp] theorem setLevel_flt_buckets : (s.setLevel k v).flt.buckets = s.flt.buckets := rfl
@[simp] theorem setLevel_flt_hbLost : (s.setLevel k v).flt.hbLost = s.flt.hbLost := rfl
@[simp] theorem setLevel_flt_failed : (s.setLevel k v).flt.failed = s.flt.failed := rfl
@[simp] theorem setLevel_flt_hbSeen : (s.setLevel k v).flt.hbSeen = s.flt.hbSeen := rfl
@[simp] theorem setLevel_flt_injSource : (s.setLevel k v).flt.injSource = s.flt.injSource := rfl
@[simp] theorem setLevel_flt_injChecker : (s.setLevel k v).flt.injChecker = s.flt.injChecker := rfl
@[simp] theorem setLevel_flt_injResult : (s.setLevel k v).flt.injResult = s.flt.injResult := rfl
@[simp] theorem setLevel_flt_injShown : (s.setLevel k v).flt.injShown = s.flt.injShown := rfl
@[simp] theorem setLevel_flt_arm : (s.setLevel k v).flt.arm = s.flt.arm := rfl
@[simp] theorem setLevel_flt_testResult : (s.setLevel k v).flt.testResult = s.flt.testResult := rfl
@[simp] theorem setLevel_flt_test : (s.setLevel k v).flt.test = s.flt.test := rfl

end

/-! ### State.setPmu -/

section
variable (v : Pmu)

@[simp] theorem setPmu_pending : (s.setPmu k v).pending = s.pending := rfl
@[simp] theorem setPmu_time : (s.setPmu k v).time = s.time := rfl
@[simp] theorem setPmu_free : (s.setPmu k v).free = s.free := rfl
@[simp] theorem setPmu_resp : (s.setPmu k v).resp = s.resp := rfl
@[simp] theorem setPmu_pins : (s.setPmu k v).pins = s.pins := rfl
@[simp] theorem setPmu_stalls : (s.setPmu k v).stalls = s.stalls := rfl
@[simp] theorem setPmu_manger : (s.setPmu k v).manger = s.manger := rfl
@[simp] theorem setPmu_mangerInj : (s.setPmu k v).mangerInj = s.mangerInj := rfl
@[simp] theorem setPmu_strq : (s.setPmu k v).strq = s.strq := rfl
@[simp] theorem setPmu_pens : (s.setPmu k v).pens = s.pens := rfl
@[simp] theorem setPmu_placement : (s.setPmu k v).placement = s.placement := rfl
@[simp] theorem setPmu_loadQ : (s.setPmu k v).loadQ = s.loadQ := rfl
@[simp] theorem setPmu_loadNow : (s.setPmu k v).loadNow = s.loadNow := rfl
@[simp] theorem setPmu_ready : (s.setPmu k v).ready = s.ready := rfl
@[simp] theorem setPmu_anchors : (s.setPmu k v).anchors = s.anchors := rfl
@[simp] theorem setPmu_sinks : (s.setPmu k v).sinks = s.sinks := rfl
@[simp] theorem setPmu_chutes : (s.setPmu k v).chutes = s.chutes := rfl
@[simp] theorem setPmu_doorbells : (s.setPmu k v).doorbells = s.doorbells := rfl
@[simp] theorem setPmu_chuteDies : (s.setPmu k v).chuteDies = s.chuteDies := rfl
@[simp] theorem setPmu_epStat : (s.setPmu k v).epStat = s.epStat := rfl
@[simp] theorem setPmu_xoffRemote : (s.setPmu k v).xoffRemote = s.xoffRemote := rfl
@[simp] theorem setPmu_ms : (s.setPmu k v).ms = s.ms := rfl
@[simp] theorem setPmu_pnet : (s.setPmu k v).pnet = s.pnet := rfl
@[simp] theorem setPmu_oes : (s.setPmu k v).oes = s.oes := rfl
@[simp] theorem setPmu_links : (s.setPmu k v).links = s.links := rfl
@[simp] theorem setPmu_lls : (s.setPmu k v).lls = s.lls := rfl
@[simp] theorem setPmu_sys : (s.setPmu k v).sys = s.sys := rfl
@[simp] theorem setPmu_host : (s.setPmu k v).host = s.host := rfl
@[simp] theorem setPmu_hostMem : (s.setPmu k v).hostMem = s.hostMem := rfl
@[simp] theorem setPmu_tack : (s.setPmu k v).tack = s.tack := rfl
@[simp] theorem setPmu_flash : (s.setPmu k v).flash = s.flash := rfl
@[simp] theorem setPmu_spi0 : (s.setPmu k v).spi0 = s.spi0 := rfl
@[simp] theorem setPmu_spi1 : (s.setPmu k v).spi1 = s.spi1 := rfl
@[simp] theorem setPmu_mram : (s.setPmu k v).mram = s.mram := rfl
@[simp] theorem setPmu_pwr : (s.setPmu k v).pwr = s.pwr := rfl
@[simp] theorem setPmu_therm : (s.setPmu k v).therm = s.therm := rfl
@[simp] theorem setPmu_flt : (s.setPmu k v).flt = s.flt := rfl
@[simp] theorem setPmu_stall : (s.setPmu k v).stall j = s.stall j := rfl
@[simp] theorem setPmu_pen : (s.setPmu k v).pen j = s.pen j := rfl
@[simp] theorem setPmu_sink : (s.setPmu k v).sink j = s.sink j := rfl
@[simp] theorem setPmu_chute : (s.setPmu k v).chute j = s.chute j := rfl
@[simp] theorem setPmu_doorbell : (s.setPmu k v).doorbell j = s.doorbell j := rfl
@[simp] theorem setPmu_chuteDie : (s.setPmu k v).chuteDie j = s.chuteDie j := rfl
@[simp] theorem setPmu_hub : (s.setPmu k v).hub j = s.hub j := rfl
@[simp] theorem setPmu_site : (s.setPmu k v).site j = s.site j := rfl
@[simp] theorem setPmu_lmapAt : (s.setPmu k v).lmapAt j = s.lmapAt j := rfl
@[simp] theorem setPmu_oe : (s.setPmu k v).oe j = s.oe j := rfl
@[simp] theorem setPmu_link : (s.setPmu k v).link j = s.link j := rfl
@[simp] theorem setPmu_ll : (s.setPmu k v).ll j = s.ll j := rfl
@[simp] theorem setPmu_peer : (s.setPmu k v).peer j = s.peer j := rfl
@[simp] theorem setPmu_fn : (s.setPmu k v).fn j = s.fn j := rfl
@[simp] theorem setPmu_dma : (s.setPmu k v).dma j = s.dma j := rfl
@[simp] theorem setPmu_frec : (s.setPmu k v).frec j = s.frec j := rfl
@[simp] theorem setPmu_level : (s.setPmu k v).level j = s.level j := rfl
@[simp] theorem setPmu_pmu : (s.setPmu k v).pmu j = if j = k then v else s.pmu j := by
  simp [State.setPmu, State.pmu]
@[simp] theorem setPmu_sensor : (s.setPmu k v).sensor j = s.sensor j := rfl
@[simp] theorem setPmu_unit : (s.setPmu k v).unit j = s.unit j := rfl
@[simp] theorem setPmu_bucket : (s.setPmu k v).bucket j = s.bucket j := rfl

end

/-! ### State.answer -/

@[simp] theorem answer_pending (r : Resp) : (s.answer r).pending = s.pending := rfl
@[simp] theorem answer_time (r : Resp) : (s.answer r).time = s.time := rfl
@[simp] theorem answer_free (r : Resp) : (s.answer r).free = s.free := rfl
@[simp] theorem answer_pins (r : Resp) : (s.answer r).pins = s.pins := rfl
@[simp] theorem answer_stalls (r : Resp) : (s.answer r).stalls = s.stalls := rfl
@[simp] theorem answer_manger (r : Resp) : (s.answer r).manger = s.manger := rfl
@[simp] theorem answer_mangerInj (r : Resp) : (s.answer r).mangerInj = s.mangerInj := rfl
@[simp] theorem answer_strq (r : Resp) : (s.answer r).strq = s.strq := rfl
@[simp] theorem answer_pens (r : Resp) : (s.answer r).pens = s.pens := rfl
@[simp] theorem answer_placement (r : Resp) : (s.answer r).placement = s.placement := rfl
@[simp] theorem answer_loadQ (r : Resp) : (s.answer r).loadQ = s.loadQ := rfl
@[simp] theorem answer_loadNow (r : Resp) : (s.answer r).loadNow = s.loadNow := rfl
@[simp] theorem answer_ready (r : Resp) : (s.answer r).ready = s.ready := rfl
@[simp] theorem answer_anchors (r : Resp) : (s.answer r).anchors = s.anchors := rfl
@[simp] theorem answer_sinks (r : Resp) : (s.answer r).sinks = s.sinks := rfl
@[simp] theorem answer_chutes (r : Resp) : (s.answer r).chutes = s.chutes := rfl
@[simp] theorem answer_doorbells (r : Resp) : (s.answer r).doorbells = s.doorbells := rfl
@[simp] theorem answer_chuteDies (r : Resp) : (s.answer r).chuteDies = s.chuteDies := rfl
@[simp] theorem answer_epStat (r : Resp) : (s.answer r).epStat = s.epStat := rfl
@[simp] theorem answer_xoffRemote (r : Resp) : (s.answer r).xoffRemote = s.xoffRemote := rfl
@[simp] theorem answer_ms (r : Resp) : (s.answer r).ms = s.ms := rfl
@[simp] theorem answer_pnet (r : Resp) : (s.answer r).pnet = s.pnet := rfl
@[simp] theorem answer_oes (r : Resp) : (s.answer r).oes = s.oes := rfl
@[simp] theorem answer_links (r : Resp) : (s.answer r).links = s.links := rfl
@[simp] theorem answer_lls (r : Resp) : (s.answer r).lls = s.lls := rfl
@[simp] theorem answer_sys (r : Resp) : (s.answer r).sys = s.sys := rfl
@[simp] theorem answer_host (r : Resp) : (s.answer r).host = s.host := rfl
@[simp] theorem answer_hostMem (r : Resp) : (s.answer r).hostMem = s.hostMem := rfl
@[simp] theorem answer_tack (r : Resp) : (s.answer r).tack = s.tack := rfl
@[simp] theorem answer_flash (r : Resp) : (s.answer r).flash = s.flash := rfl
@[simp] theorem answer_spi0 (r : Resp) : (s.answer r).spi0 = s.spi0 := rfl
@[simp] theorem answer_spi1 (r : Resp) : (s.answer r).spi1 = s.spi1 := rfl
@[simp] theorem answer_mram (r : Resp) : (s.answer r).mram = s.mram := rfl
@[simp] theorem answer_pwr (r : Resp) : (s.answer r).pwr = s.pwr := rfl
@[simp] theorem answer_therm (r : Resp) : (s.answer r).therm = s.therm := rfl
@[simp] theorem answer_flt (r : Resp) : (s.answer r).flt = s.flt := rfl
@[simp] theorem answer_pmus (r : Resp) : (s.answer r).pmus = s.pmus := rfl
@[simp] theorem answer_stall (r : Resp) : (s.answer r).stall j = s.stall j := rfl
@[simp] theorem answer_pen (r : Resp) : (s.answer r).pen j = s.pen j := rfl
@[simp] theorem answer_sink (r : Resp) : (s.answer r).sink j = s.sink j := rfl
@[simp] theorem answer_chute (r : Resp) : (s.answer r).chute j = s.chute j := rfl
@[simp] theorem answer_doorbell (r : Resp) : (s.answer r).doorbell j = s.doorbell j := rfl
@[simp] theorem answer_chuteDie (r : Resp) : (s.answer r).chuteDie j = s.chuteDie j := rfl
@[simp] theorem answer_hub (r : Resp) : (s.answer r).hub j = s.hub j := rfl
@[simp] theorem answer_site (r : Resp) : (s.answer r).site j = s.site j := rfl
@[simp] theorem answer_lmapAt (r : Resp) : (s.answer r).lmapAt j = s.lmapAt j := rfl
@[simp] theorem answer_oe (r : Resp) : (s.answer r).oe j = s.oe j := rfl
@[simp] theorem answer_link (r : Resp) : (s.answer r).link j = s.link j := rfl
@[simp] theorem answer_ll (r : Resp) : (s.answer r).ll j = s.ll j := rfl
@[simp] theorem answer_peer (r : Resp) : (s.answer r).peer j = s.peer j := rfl
@[simp] theorem answer_fn (r : Resp) : (s.answer r).fn j = s.fn j := rfl
@[simp] theorem answer_dma (r : Resp) : (s.answer r).dma j = s.dma j := rfl
@[simp] theorem answer_frec (r : Resp) : (s.answer r).frec j = s.frec j := rfl
@[simp] theorem answer_level (r : Resp) : (s.answer r).level j = s.level j := rfl
@[simp] theorem answer_pmu (r : Resp) : (s.answer r).pmu j = s.pmu j := rfl
@[simp] theorem answer_sensor (r : Resp) : (s.answer r).sensor j = s.sensor j := rfl
@[simp] theorem answer_unit (r : Resp) : (s.answer r).unit j = s.unit j := rfl
@[simp] theorem answer_bucket (r : Resp) : (s.answer r).bucket j = s.bucket j := rfl

/-! ### State.answerVal -/

@[simp] theorem answerVal_pending (n : Nat) : (s.answerVal n).pending = s.pending := rfl
@[simp] theorem answerVal_time (n : Nat) : (s.answerVal n).time = s.time := rfl
@[simp] theorem answerVal_free (n : Nat) : (s.answerVal n).free = s.free := rfl
@[simp] theorem answerVal_pins (n : Nat) : (s.answerVal n).pins = s.pins := rfl
@[simp] theorem answerVal_stalls (n : Nat) : (s.answerVal n).stalls = s.stalls := rfl
@[simp] theorem answerVal_manger (n : Nat) : (s.answerVal n).manger = s.manger := rfl
@[simp] theorem answerVal_mangerInj (n : Nat) : (s.answerVal n).mangerInj = s.mangerInj := rfl
@[simp] theorem answerVal_strq (n : Nat) : (s.answerVal n).strq = s.strq := rfl
@[simp] theorem answerVal_pens (n : Nat) : (s.answerVal n).pens = s.pens := rfl
@[simp] theorem answerVal_placement (n : Nat) : (s.answerVal n).placement = s.placement := rfl
@[simp] theorem answerVal_loadQ (n : Nat) : (s.answerVal n).loadQ = s.loadQ := rfl
@[simp] theorem answerVal_loadNow (n : Nat) : (s.answerVal n).loadNow = s.loadNow := rfl
@[simp] theorem answerVal_ready (n : Nat) : (s.answerVal n).ready = s.ready := rfl
@[simp] theorem answerVal_anchors (n : Nat) : (s.answerVal n).anchors = s.anchors := rfl
@[simp] theorem answerVal_sinks (n : Nat) : (s.answerVal n).sinks = s.sinks := rfl
@[simp] theorem answerVal_chutes (n : Nat) : (s.answerVal n).chutes = s.chutes := rfl
@[simp] theorem answerVal_doorbells (n : Nat) : (s.answerVal n).doorbells = s.doorbells := rfl
@[simp] theorem answerVal_chuteDies (n : Nat) : (s.answerVal n).chuteDies = s.chuteDies := rfl
@[simp] theorem answerVal_epStat (n : Nat) : (s.answerVal n).epStat = s.epStat := rfl
@[simp] theorem answerVal_xoffRemote (n : Nat) : (s.answerVal n).xoffRemote = s.xoffRemote := rfl
@[simp] theorem answerVal_ms (n : Nat) : (s.answerVal n).ms = s.ms := rfl
@[simp] theorem answerVal_pnet (n : Nat) : (s.answerVal n).pnet = s.pnet := rfl
@[simp] theorem answerVal_oes (n : Nat) : (s.answerVal n).oes = s.oes := rfl
@[simp] theorem answerVal_links (n : Nat) : (s.answerVal n).links = s.links := rfl
@[simp] theorem answerVal_lls (n : Nat) : (s.answerVal n).lls = s.lls := rfl
@[simp] theorem answerVal_sys (n : Nat) : (s.answerVal n).sys = s.sys := rfl
@[simp] theorem answerVal_host (n : Nat) : (s.answerVal n).host = s.host := rfl
@[simp] theorem answerVal_hostMem (n : Nat) : (s.answerVal n).hostMem = s.hostMem := rfl
@[simp] theorem answerVal_tack (n : Nat) : (s.answerVal n).tack = s.tack := rfl
@[simp] theorem answerVal_flash (n : Nat) : (s.answerVal n).flash = s.flash := rfl
@[simp] theorem answerVal_spi0 (n : Nat) : (s.answerVal n).spi0 = s.spi0 := rfl
@[simp] theorem answerVal_spi1 (n : Nat) : (s.answerVal n).spi1 = s.spi1 := rfl
@[simp] theorem answerVal_mram (n : Nat) : (s.answerVal n).mram = s.mram := rfl
@[simp] theorem answerVal_pwr (n : Nat) : (s.answerVal n).pwr = s.pwr := rfl
@[simp] theorem answerVal_therm (n : Nat) : (s.answerVal n).therm = s.therm := rfl
@[simp] theorem answerVal_flt (n : Nat) : (s.answerVal n).flt = s.flt := rfl
@[simp] theorem answerVal_pmus (n : Nat) : (s.answerVal n).pmus = s.pmus := rfl
@[simp] theorem answerVal_stall (n : Nat) : (s.answerVal n).stall j = s.stall j := rfl
@[simp] theorem answerVal_pen (n : Nat) : (s.answerVal n).pen j = s.pen j := rfl
@[simp] theorem answerVal_sink (n : Nat) : (s.answerVal n).sink j = s.sink j := rfl
@[simp] theorem answerVal_chute (n : Nat) : (s.answerVal n).chute j = s.chute j := rfl
@[simp] theorem answerVal_doorbell (n : Nat) : (s.answerVal n).doorbell j = s.doorbell j := rfl
@[simp] theorem answerVal_chuteDie (n : Nat) : (s.answerVal n).chuteDie j = s.chuteDie j := rfl
@[simp] theorem answerVal_hub (n : Nat) : (s.answerVal n).hub j = s.hub j := rfl
@[simp] theorem answerVal_site (n : Nat) : (s.answerVal n).site j = s.site j := rfl
@[simp] theorem answerVal_lmapAt (n : Nat) : (s.answerVal n).lmapAt j = s.lmapAt j := rfl
@[simp] theorem answerVal_oe (n : Nat) : (s.answerVal n).oe j = s.oe j := rfl
@[simp] theorem answerVal_link (n : Nat) : (s.answerVal n).link j = s.link j := rfl
@[simp] theorem answerVal_ll (n : Nat) : (s.answerVal n).ll j = s.ll j := rfl
@[simp] theorem answerVal_peer (n : Nat) : (s.answerVal n).peer j = s.peer j := rfl
@[simp] theorem answerVal_fn (n : Nat) : (s.answerVal n).fn j = s.fn j := rfl
@[simp] theorem answerVal_dma (n : Nat) : (s.answerVal n).dma j = s.dma j := rfl
@[simp] theorem answerVal_frec (n : Nat) : (s.answerVal n).frec j = s.frec j := rfl
@[simp] theorem answerVal_level (n : Nat) : (s.answerVal n).level j = s.level j := rfl
@[simp] theorem answerVal_pmu (n : Nat) : (s.answerVal n).pmu j = s.pmu j := rfl
@[simp] theorem answerVal_sensor (n : Nat) : (s.answerVal n).sensor j = s.sensor j := rfl
@[simp] theorem answerVal_unit (n : Nat) : (s.answerVal n).unit j = s.unit j := rfl
@[simp] theorem answerVal_bucket (n : Nat) : (s.answerVal n).bucket j = s.bucket j := rfl

/-! ### State.useFree -/

@[simp] theorem useFree_pending : (s.useFree).pending = s.pending := rfl
@[simp] theorem useFree_time : (s.useFree).time = s.time := rfl
@[simp] theorem useFree_resp : (s.useFree).resp = s.resp := rfl
@[simp] theorem useFree_pins : (s.useFree).pins = s.pins := rfl
@[simp] theorem useFree_stalls : (s.useFree).stalls = s.stalls := rfl
@[simp] theorem useFree_manger : (s.useFree).manger = s.manger := rfl
@[simp] theorem useFree_mangerInj : (s.useFree).mangerInj = s.mangerInj := rfl
@[simp] theorem useFree_strq : (s.useFree).strq = s.strq := rfl
@[simp] theorem useFree_pens : (s.useFree).pens = s.pens := rfl
@[simp] theorem useFree_placement : (s.useFree).placement = s.placement := rfl
@[simp] theorem useFree_loadQ : (s.useFree).loadQ = s.loadQ := rfl
@[simp] theorem useFree_loadNow : (s.useFree).loadNow = s.loadNow := rfl
@[simp] theorem useFree_ready : (s.useFree).ready = s.ready := rfl
@[simp] theorem useFree_anchors : (s.useFree).anchors = s.anchors := rfl
@[simp] theorem useFree_sinks : (s.useFree).sinks = s.sinks := rfl
@[simp] theorem useFree_chutes : (s.useFree).chutes = s.chutes := rfl
@[simp] theorem useFree_doorbells : (s.useFree).doorbells = s.doorbells := rfl
@[simp] theorem useFree_chuteDies : (s.useFree).chuteDies = s.chuteDies := rfl
@[simp] theorem useFree_epStat : (s.useFree).epStat = s.epStat := rfl
@[simp] theorem useFree_xoffRemote : (s.useFree).xoffRemote = s.xoffRemote := rfl
@[simp] theorem useFree_ms : (s.useFree).ms = s.ms := rfl
@[simp] theorem useFree_pnet : (s.useFree).pnet = s.pnet := rfl
@[simp] theorem useFree_oes : (s.useFree).oes = s.oes := rfl
@[simp] theorem useFree_links : (s.useFree).links = s.links := rfl
@[simp] theorem useFree_lls : (s.useFree).lls = s.lls := rfl
@[simp] theorem useFree_sys : (s.useFree).sys = s.sys := rfl
@[simp] theorem useFree_host : (s.useFree).host = s.host := rfl
@[simp] theorem useFree_hostMem : (s.useFree).hostMem = s.hostMem := rfl
@[simp] theorem useFree_tack : (s.useFree).tack = s.tack := rfl
@[simp] theorem useFree_flash : (s.useFree).flash = s.flash := rfl
@[simp] theorem useFree_spi0 : (s.useFree).spi0 = s.spi0 := rfl
@[simp] theorem useFree_spi1 : (s.useFree).spi1 = s.spi1 := rfl
@[simp] theorem useFree_mram : (s.useFree).mram = s.mram := rfl
@[simp] theorem useFree_pwr : (s.useFree).pwr = s.pwr := rfl
@[simp] theorem useFree_therm : (s.useFree).therm = s.therm := rfl
@[simp] theorem useFree_flt : (s.useFree).flt = s.flt := rfl
@[simp] theorem useFree_pmus : (s.useFree).pmus = s.pmus := rfl
@[simp] theorem useFree_stall : (s.useFree).stall j = s.stall j := rfl
@[simp] theorem useFree_pen : (s.useFree).pen j = s.pen j := rfl
@[simp] theorem useFree_sink : (s.useFree).sink j = s.sink j := rfl
@[simp] theorem useFree_chute : (s.useFree).chute j = s.chute j := rfl
@[simp] theorem useFree_doorbell : (s.useFree).doorbell j = s.doorbell j := rfl
@[simp] theorem useFree_chuteDie : (s.useFree).chuteDie j = s.chuteDie j := rfl
@[simp] theorem useFree_hub : (s.useFree).hub j = s.hub j := rfl
@[simp] theorem useFree_site : (s.useFree).site j = s.site j := rfl
@[simp] theorem useFree_lmapAt : (s.useFree).lmapAt j = s.lmapAt j := rfl
@[simp] theorem useFree_oe : (s.useFree).oe j = s.oe j := rfl
@[simp] theorem useFree_link : (s.useFree).link j = s.link j := rfl
@[simp] theorem useFree_ll : (s.useFree).ll j = s.ll j := rfl
@[simp] theorem useFree_peer : (s.useFree).peer j = s.peer j := rfl
@[simp] theorem useFree_fn : (s.useFree).fn j = s.fn j := rfl
@[simp] theorem useFree_dma : (s.useFree).dma j = s.dma j := rfl
@[simp] theorem useFree_frec : (s.useFree).frec j = s.frec j := rfl
@[simp] theorem useFree_level : (s.useFree).level j = s.level j := rfl
@[simp] theorem useFree_pmu : (s.useFree).pmu j = s.pmu j := rfl
@[simp] theorem useFree_sensor : (s.useFree).sensor j = s.sensor j := rfl
@[simp] theorem useFree_unit : (s.useFree).unit j = s.unit j := rfl
@[simp] theorem useFree_bucket : (s.useFree).bucket j = s.bucket j := rfl

@[simp] theorem answer_resp (r : Resp) : (s.answer r).resp = r := rfl
@[simp] theorem answerVal_resp (n : Nat) : (s.answerVal n).resp = .val (BitVec.ofNat 64 n) := rfl
@[simp] theorem useFree_free : s.useFree.free = s.free + 1 := rfl

theorem updStall_def (f : Stall → Stall) : s.updStall k f = s.setStall k (f (s.stall k)) := rfl
theorem updPen_def (f : Pen → Pen) : s.updPen k f = s.setPen k (f (s.pen k)) := rfl
theorem updChute_def (f : Chute → Chute) : s.updChute k f = s.setChute k (f (s.chute k)) := rfl
theorem updHub_def (f : HubS → HubS) : s.updHub k f = s.setHub k (f (s.hub k)) := rfl
theorem updSite_def (f : SiteS → SiteS) : s.updSite k f = s.setSite k (f (s.site k)) := rfl
theorem updOe_def (f : OeS → OeS) : s.updOe k f = s.setOe k (f (s.oe k)) := rfl
theorem updLink_def (f : LinkS → LinkS) : s.updLink k f = s.setLink k (f (s.link k)) := rfl
theorem updLl_def (f : LL → LL) : s.updLl k f = s.setLl k (f (s.ll k)) := rfl
theorem updFn_def (f : Fn → Fn) : s.updFn k f = s.setFn k (f (s.fn k)) := rfl
theorem updDma_def (f : Dma → Dma) : s.updDma k f = s.setDma k (f (s.dma k)) := rfl
theorem updPmu_def (f : Pmu → Pmu) : s.updPmu k f = s.setPmu k (f (s.pmu k)) := rfl

/-! ### Entries of the nested tables -/

@[simp] theorem setIn_inPort (x : Stall) (v : InPort) : (x.setIn k v).inPort j = if j = k then v else x.inPort j := by
  simp [Stall.setIn, Stall.inPort]
@[simp] theorem setOut_outPort (x : Stall) (v : OutPort) : (x.setOut k v).outPort j = if j = k then v
  else x.outPort j := by
  simp [Stall.setOut, Stall.outPort]
@[simp] theorem setLaser_laser (x : OeS) (v : Laser) : (x.setLaser k v).laser j = if j = k then v else x.laser j := by
  simp [OeS.setLaser, OeS.laser]
@[simp] theorem setRing_ring (x : OeS) (v : Ring) : (x.setRing k v).ring j = if j = k then v else x.ring j := by
  simp [OeS.setRing, OeS.ring]
@[simp] theorem setSlot_slot (x : OeS) (v : PSlot) : (x.setSlot k v).slot j = if j = k then v else x.slot j := by
  simp [OeS.setSlot, OeS.slot]
@[simp] theorem setLane_lane (x : LinkS) (v : Lane) : (x.setLane k v).lane j = if j = k then v else x.lane j := by
  simp [LinkS.setLane, LinkS.lane]
@[simp] theorem setTxQ_txQ (x : LL) (v : List TxItem) : (x.setTxQ k v).txQ j = if j = k then v else x.txQ j := by
  simp [LL.setTxQ, LL.txQ]
@[simp] theorem setRxQ_rxQ (x : LL) (v : List RxItem) : (x.setRxQ k v).rxQ j = if j = k then v else x.rxQ j := by
  simp [LL.setRxQ, LL.rxQ]

end Sys2Proof.Machine
end

