-- ==== Sys2Proof/Tests/Slice0.lean ====
section
/-! SUPPORT. Tests: ill-formed commands refused, and for each statement with hypotheses a concrete state and operands
that meet them, clause by clause, with a field of the result that the rule gives. -/

namespace Sys2Proof.Tests

open Sys2Proof Sys2Proof.Machine

set_option Elab.async false

/-! ### Helpers -/

/-- The state after a command. -/
def after (c : Instr) (s : State) : State :=
  match exec c s with
  | .next t => t
  | _ => s

/-- A booted device: READY, the host link up, every die powered, every stack ONLINE and wiped. -/
def up : State := { State.reset with
  pins := { coldResetN := true, perstN := true },
  tack := { step := 10, readyNow := true, everReady := true, mainGood := true, image := some { sriovEn := true } },
  host := { linkUp := true, portOn := true, devState := 1 },
  pnet := { sites := (List.range 72).map fun p => (p, { SiteS.resetAt p with powered := true }) },
  ms := { hubs := (List.range 24).map fun h => (h, { st := .online, powered := true, wipeDone := true }) } }

/-- A record with fields given as byte offset and value. -/
def recOf (fs : List (Nat × Nat)) : BitVec 4096 := BitVec.ofNat 4096 (fs.foldl (fun n f => n + f.2 * 2 ^ (8 * f.1)) 0)

/-- A micro-op: operation, destination, sources a, b, c, modifier (R72). -/
def uop (opc dst a b c m : Nat) : Nat := opc * 2 ^ 26 + dst * 2 ^ 21 + a * 2 ^ 16 + b * 2 ^ 11 + c * 2 ^ 6 + m

/-- Pen 0 RUNNING with die 0 in its grant. -/
def running (h : Harness) : State := up.setPen 0 { st := .running, granted := true, dies := 1, bank0 := h }

theorem pfOpen_up : PfOpen up := by unfold PfOpen Served; decide +kernel

/-- A route record (R96) of a kind to a stall's port, or to a segment. -/
def routeTo (kind dst port : Nat) : Route :=
  { kind := BitVec.ofNat 8 kind, srcPort := 0, srcStall := 0, dst := BitVec.ofNat 16 dst, dstPort := BitVec.ofNat 8 port,
    fanout := 1, flags := 0, doneBind := 0, linesPerPass := 1, dataOff := 0, scaleOff := 0 }

/-! ### Ill-formed commands -/

/-- A flit of a type whose payload begins with a byte. -/
def rawFlit (typ op : Nat) : RxFlit := { bits := BitVec.ofNat 576 (typ + 2 ^ 32 * op) }

theorem test_wf_codes :
    (∀ k ∈ [1, 6], (Instr.penCmdReserved 0 0 (BitVec.ofNat 4 k)).wf = false) ∧ (Instr.penCmdReserved 0 0 7).wf = true ∧
    (∀ k ∈ [1, 9], (Instr.chuteBadOp 0 (.host 0) (BitVec.ofNat 4 k)).wf = false) ∧
      (Instr.chuteBadOp 0 (.host 0) 10).wf = true ∧
    (∀ k ∈ [1, 2], (Instr.pnetBadOp (BitVec.ofNat 4 k)).wf = false ∧ (Instr.oeBadOp 0 (BitVec.ofNat 4 k)).wf = false ∧
      (Instr.linkCmdBadOp 0 (BitVec.ofNat 4 k)).wf = false ∧ (Instr.flashBadOp (BitVec.ofNat 4 k)).wf = false) ∧
    (∀ k ∈ [1, 3], (Instr.linkLlBadOp 0 (BitVec.ofNat 4 k)).wf = false ∧
      (Instr.secBadOp (BitVec.ofNat 4 k)).wf = false ∧
      (Instr.faultTestBadOp (BitVec.ofNat 4 k)).wf = false ∧ (Instr.funcBadOp 0 0 (BitVec.ofNat 4 k)).wf = false) ∧
    (Instr.funcBadOp 0 0 4).wf = true ∧ (Instr.supplySag 3).wf = false ∧ (Instr.biasLoop 0 0 1001).wf = false ∧
    (Instr.moduleRetrainDone 0 0 (.repaired 65 0)).wf = false ∧
      (Instr.moduleRetrainDone 0 0 (.repaired 0 65)).wf = false ∧
    (Instr.replacementStepDone true 0 [(0, 65)] 0).wf = false ∧
      (Instr.replacementStepDone true 0 [(0, 1), (0, 2)] 0).wf = false := by decide +kernel

theorem test_wf_sizes :
    (Instr.readModifyWrite 63 [1, 2] false 0).wf = false ∧ (Instr.readModifyWrite 63 [] false 0).wf = false ∧
    (Instr.pilotEvaluation 0 0 []).wf = false ∧ (Instr.marginMeasure 0 0 []).wf = false ∧
    (Instr.trainComplete 0 []).wf = false ∧ (Instr.alignComplete 0 []).wf = false ∧
    (Instr.bar4Read 0 0 0).wf = false ∧ (Instr.bar4Write 0 0 []).wf = false ∧ (Instr.pcieLinkUp 32 3 false).wf = false ∧
    (Instr.bootStepDone ⟨false, false, 12000, [1, 1], [], [], []⟩).wf = false ∧
    (Instr.bootStepDone ⟨false, false, 12000, [], [1, 1], [], []⟩).wf = false ∧
    (Instr.bootStepDone ⟨false, false, 12000, [], [], [1, 1], []⟩).wf = false ∧
    (Instr.bootStepDone ⟨false, false, 12000, [], [], [], [(1, 0, .half), (1, 0, .failed)]⟩).wf = false ∧
    (Instr.rateStepDone 0 [] []).wf = false ∧ (Instr.thermalScan [(0, 1), (0, 2)] []).wf = false ∧
    (Instr.thermalScan [(254, 1)] []).wf = false ∧ (Instr.thermalScan [] [254]).wf = false ∧
    (Instr.registerWrite 0 2 0 none).wf = false ∧ (Instr.registerWrite 0 2 4097 none).wf = false ∧
    (Instr.wordLock 0 0 8 0 false).wf = false ∧ (Instr.equaliserUpdate 0 0 1 1 0).wf = false ∧
    (Instr.equaliserUpdate 0 1 1 0 0).wf = false := by decide +kernel

theorem test_wf_flits :
    (∀ e ∈ [(Instr.flowFlit, 0), (.dataFlit, 1), (.ctrlFlit, 2), (.margin, 3), (.laneReq, 3), (.laneSet, 3),
      (.laneRefuse, 3),
        (.csrReq, 3), (.csrRsp, 3), (.sysNotice, 3), (.capabilityMessage, 4), (.sync, 5), (.dataPool, 9),
          (.ctrlPool, 10)],
      (e.1 0 (rawFlit e.2 0)).wf = true ∧ (e.1 0 (rawFlit (e.2 + 1) 0)).wf = false) ∧
    (∀ e ∈ [(Instr.key, 3, 5), (.tag, 3, 6), (.keySwitch, 3, 7), (.ping, 6, 1), (fun l fl => .echo l fl 0, 6, 2)],
      (e.1 0 (rawFlit e.2.1 e.2.2)).wf = true ∧ (e.1 0 (rawFlit e.2.1 (e.2.2 + 1))).wf = false ∧
      (e.1 0 (rawFlit (e.2.1 + 1) e.2.2)).wf = false) ∧
    (∀ t ∈ [7, 8, 11, 15], (Instr.flitReservedType 0 (rawFlit t 0)).wf = true) ∧
    (∀ t ∈ [0, 1, 2, 3, 4, 5, 6, 9, 10], (Instr.flitReservedType 0 (rawFlit t 0)).wf = false) := by decide +kernel

/-- No row of the opcode table has bits. -/
theorem test_noWordSpells : decodeTableWord 16 0 = none ∧ up.withFetchWord 16 0 = up := ⟨rfl, rfl⟩

/-! ### Stalls -/

/-- The last stall, with its counters set; a die that is off. -/
def countStall : State := up.setStall 4095 { num := 0x7F, waits := 7, tokens := 0x123456789ABC }
def offDie : State := up.setSite 0 {}

theorem witness_StallRegisterAccesses : PfOpen countStall ∧ PfOpen offDie ∧ countStall.diePowered 63 = true ∧
    offDie.diePowered 0 = false ∧
    ((after (.stallNumStatusWrite 4095 0x41) countStall).stall 4095).num = 0x3E ∧
    (after (.stallBankConflictRead 4095) countStall).resp = .val 7 ∧
    (after (.stallTokenLoRead 4095) countStall).resp = .val 0x56789ABC ∧
    ((after (.stallTokenLoRead 4095) countStall).stall 4095).tokenHi = 0x1234 ∧
    (after (.stallTokenLoRead 0) offDie).resp = .val 0 := by
  unfold PfOpen Served; decide +kernel

/-- A VEC stall whose only micro-op is in its turn; V0, V1 and V3 hold three values in every lane. -/
def vecAt (u : Nat) (a b c : BitVec 32) : State :=
  (running {}).setStall 0
    { st := .run, activeValid := true, slot0 := { record := recOf [(0, 1), (6, 1), (384, u)] }, vtok := some {},
      vregs := [(0, vecOf fun _ => a), (1, vecOf fun _ => b), (3, vecOf fun _ => c)] }

/-- V`dst` lane 63 after a micro-op `opc` on V0, V1 and V3. -/
def laneAfter (c : Instr) (opc : Nat) (x y z : BitVec 32) : BitVec 32 :=
  vecLane (tabGet (fun _ => 0) ((after c (vecAt (uop opc 0x17 0 1 3 0) x y z)).stall 0).vregs 0x17) 63

theorem witness_MicroOpsWriteTheirResults :
    (∀ o ∈ laneOps, UopTurn 0 (vecAt (uop o.2.1 0x17 0 1 3 0) 0 0 0) {} (uop o.2.1 0x17 0 1 3 0) ∧
      uopOpc (uop o.2.1 0x17 0 1 3 0) = o.2.1 ∧ uopDst (uop o.2.1 0x17 0 1 3 0) < 0x18 ∧
      vecHeld (vecAt (uop o.2.1 0x17 0 1 3 0) 0 0 0) 0 = false) ∧
    ∀ o ∈ otherOps, UopTurn 0 (vecAt (uop o.2 0x17 0 1 3 0) 0 0 0) {} (uop o.2 0x17 0 1 3 0) ∧
      uopOpc (uop o.2 0x17 0 1 3 0) = o.2 ∧ vecHeld (vecAt (uop o.2 0x17 0 1 3 0) 0 0 0) 0 = false := by
  unfold UopTurn; decide +kernel

/-- R75 on binary32 values: 1, 2, 3, -1, the greatest finite value, the least positive value. -/
theorem test_lane_operations :
    laneAfter (.uopAdd 0) 0x01 0x3F800000 0x40000000 0 = 0x40400000 ∧
    laneAfter (.uopSub 0) 0x02 0x3F800000 0x40000000 0 = 0xBF800000 ∧
    laneAfter (.uopMul 0) 0x03 0x40400000 0x40000000 0 = 0x40C00000 ∧
    laneAfter (.uopFma 0) 0x04 0x40400000 0x40000000 0x3F800000 = 0x40E00000 ∧
    laneAfter (.uopMax 0) 0x05 0xBF800000 0x40000000 0 = 0x40000000 ∧
    laneAfter (.uopMin 0) 0x06 0xBF800000 0x40000000 0 = 0xBF800000 ∧
    laneAfter (.uopAbs 0) 0x07 0xBF800000 0 0 = 0x3F800000 ∧
    laneAfter (.uopNeg 0) 0x08 0x3F800000 0 0 = 0xBF800000 ∧
    laneAfter (.uopSel 0) 0x09 0x3F800000 0x40000000 0xBF800000 = 0x40000000 ∧
    laneAfter (.uopSel 0) 0x09 0x3F800000 0x40000000 0x3F800000 = 0x3F800000 ∧
    laneAfter (.uopCmplt 0) 0x0A 0x3F800000 0x40000000 0 = 0x3F800000 ∧
    laneAfter (.uopCmplt 0) 0x0A 0x40000000 0x3F800000 0 = 0 ∧
    laneAfter (.uopRmax 0) 0x19 0x40000000 0 0 = 0x40000000 ∧
    laneAfter (.uopBcast 0) 0x1E 0x40000000 0 0 = 0x40000000 := by decide +kernel

/-- A line whose tag ends no packet. -/
def dataLine (x : Line) : TLine := { data := x, tag := 0x3F }

/-- A MAC stall on two FP16 ports; AG0's level 0 has `n + 1` tuples. -/
def macAt (n : Nat) : State :=
  (running {}).setStall 0
    { st := .run, activeValid := true, slot0 := { record := recOf [(1, 0x66), (2, 6), (3, 8), (56, n)] },
      inp := [(0, { fifo := List.replicate 24 (dataLine 0x3C00) }),
        (1, { fifo := List.replicate 24 (dataLine 0x3C00) })] }

theorem witness_MacTokenAccumulates : ∀ n ∈ [0, 65535], let s := macAt n
    let x := takeAnchor (s.stall 0)
    takesToken s 0 0 = true ∧ (s.stall 0).closed = none ∧ (s.stall 0).join = none ∧ partPorts s 0 = [] ∧
      (s.stall 0).early = [] ∧
      x.anchorOk = true ∧ NoInjection s 0 ∧ recRowSrc x.record = 0 ∧
    recColSrc x.record = 1 ∧ x.anchorPois = false ∧ tileShape x.record = (24, 24) ∧
    agCompletes x.record 0 x.ag0 (opLines 6 24) (recTileLevel x.record) = decide (n = 0) ∧
    (takeBlocks 6 24 (x.inPort 0)).map (fun r => r.2.all fun b => !b.poison) = some true ∧
    (takeBlocks 6 24 (x.inPort 1)).map (fun r => r.2.all fun b => !b.poison) = some true := by
  unfold NoInjection; decide +kernel

/-- A VEC stall with one binary32 vector at IN0 and no token. -/
def vecIn : State :=
  (running { routes := [routeTo 0 0 0] }).setStall 0
    { st := .run, activeValid := true, slot0 := { record := recOf [(0, 1), (6, 1), (384, uop 1 2 0x18 0x18 0 0)] },
      inp := [(0, { fifo := List.replicate 5 (dataLine 1) })] }

theorem witness_VecTokenTakesItsVectors : let s := vecIn
    let x := takeAnchor (s.stall 0)
    let s1 := s.setStall 0 x
    takesToken s 0 1 = true ∧ (s.stall 0).vtok = none ∧ x.anchorOk = true ∧ NoInjection s 0 ∧
    recReads x.record 0x1C = false ∧ vecPorts s1 0 = [0] ∧
    (∀ p ∈ vecPorts s1 0, (vecAvail x.record x p).isSome = true ∧
      ∀ l ∈ (vecAvail x.record x p).getD [], l.poison = false) ∧
    (x.anchorPois && usesAnchor x.record) = false ∧
    (((after (.vecToken 0 .clean) s).stall 0).inPort 0).fifo = [dataLine 1] := by
  unfold NoInjection; decide +kernel

/-- Lines for IN3 of stall 0, tagged and idle; an anchor line; a stall that waits for it; a bound output port. -/
def lineFor (l : TLine) : State := { running {} with strq := [{ toSink := false, t := 0, port := 3, line := l }] }
def anchorFor (x : Stall) : State := { (running {}).setStall 0 x with anchors := [{ t := 0, anchor := 0x7FFF, poison := true }] }
def waitingStall : Stall := { st := .waitAnchor, activeValid := true, slot0 := { record := recOf [(0, 0x41)] } }
def readStall : State := ((running {}).setStall 0 { st := .run, activeValid := true }).setChute 5
  { st := .enabled, stack := true, depth := 4, cp := 1, wp := 1, consumer := .stall 0 3 }
def sendStall : State := (running { routes := [routeTo 0 1 3], place := [0, 1] }).setStall 0
  { st := .run, activeValid := true, slot0 := { record := recOf [(0, 1), (18, 0x4000)] },
    outp := [(3, { credits := 1, stage := [{ data := 5 }] })] }

theorem witness_LinesComeAndGo :
    ((lineFor (dataLine 1)).stall 0).inPort 3 = {} ∧ ((lineFor (dataLine 1)).stall 0).join = none ∧
    (∀ l ∈ [dataLine 1, { data := 0, tag := 0x3F, fence := true }, { data := 0, tag := 0, fence := true },
        { data := 0, tag := 0 }],
      portRoom ((lineFor l).stall 0) 3 = true ∧
      (popFirst (fun (m : StrLine) => !m.toSink && decide (m.t = 0) &&
        decide (m.port = 3)) (lineFor l).strq).isSome = true) ∧
    (((running {}).stall 0).outPort 3).credits ≤ 16 ∧
    (popFirst (fun (m : AnchorMsg) => decide (m.t = 0)) (anchorFor {}).anchors).isSome = true ∧
    ((anchorFor {}).stall 0).st ≠ .waitAnchor ∧ portRoom ((anchorFor {}).stall 0) 0 = true ∧
    (waitingStall.anchorOk = false ∧ (waitingStall.inPort 0).fifo = [] ∧ recAnchorPort waitingStall.record = 0) ∧
      recAuto ((anchorFor waitingStall).stall 0).record = true ∧
    ((after (.anchorLine 0) (anchorFor waitingStall)).stall 0).anchor = 0x7FFF ∧
    (penRuns readStall 0 = true ∧ (readStall.stall 0).working = true ∧
      (readStall.stall 0).join = none ∧ (readStall.chute 5).st ≠ .disabled ∧ (readStall.chute 5).stack = true ∧
        portRoom (readStall.stall 0) 3 = true ∧
      (readStall.chute 5).ready ≠ 0 ∧ chuteLineWaits readStall 5 0 = false ∧
        ((after (.consumerRead 5 .clean) readStall).chute 5).rp = 1) ∧
    penWorks sendStall 0 = true ∧ outDst sendStall 0 3 = .stream [routeTo 0 1 3] ∧
    ((sendStall.stall 0).outPort 3).credits = 1 ∧
    (after (.outputLineSend 0 3) sendStall).strq
      = [{ toSink := false, t := 1, port := 3, line := { data := 5, tag := 0x7F } }] := by decide +kernel

/-- A stall in each step of a swap. -/
def fenceStall : State := (running {}).setStall 0
  { st := .run, activeValid := true, inp := [(3, { fifo := [{ data := 0, tag := 0, fence := true }] })],
    slot0 := { record := recOf [(0, 1), (5, 0x0C)] } }
def openStall : State := (running {}).setStall 0
  { st := .run, activeValid := true, inp := [(3, { fifo := [{ data := 0, tag := 0x3F, fence := true }] })], tileToks := 2,
    slot0 := { record := recOf [(5, 0x0C)] } }
def drainedStall (valid : Bool) : State := (running {}).setStall 0
  { st := .fence, activeValid := true, swapStep := 1, shadowValid := valid }
def exchangeStall : State := (running {}).setStall 0
  { st := .swap, activeValid := true, shadowValid := true, swapStep := 2, tokens := 9, swaps := 0xFFFF }
def wbStall : State := (up.setStall 0 { st := .idle, wb := [0x3FFF8] })

theorem witness_StallSwapSteps :
    (penWorks fenceStall 0 = true ∧ (fenceStall.stall 0).working = true ∧ fenceWaits (fenceStall.stall 0) = true ∧
      openTile (fenceStall.stall 0) = false ∧ ((after (.fenceArrival 0 .clean) fenceStall).stall 0).st = .fence) ∧
    (fenceWaits (openStall.stall 0) = true ∧ penWorks openStall 0 = true ∧ openTile (openStall.stall 0) = true ∧
      ((after (.fenceArrival 0 .clean) openStall).stall 0).st = .fault) ∧
    (∀ v ∈ [true, false], swapDrained (drainedStall v) 0 = true ∧ fencesReady (drainedStall v) 0 = true ∧
      (∀ p, p < 4 → (((drainedStall v).stall 0).outPort p).blocks = []) ∧
      ((after (.swapDrainDone 0) (drainedStall v)).stall 0).st = if v then .swap else .fence) ∧
    ((after (.swapExchange 0 .clean false) exchangeStall).stall 0).swaps = 0 ∧
    ((after (.swapExchange 0 .clean false) exchangeStall).stall 0).activeSlot = true ∧
    (((up.stall 0).st = .off ∧ up.diePowered 0 = true) ∧
      0x10 ∈ ((after (.mangerScrub 0 (.mangerCe 0x12)) up).stall 0).wb) ∧ (wbStall.stall 0).st = .idle ∧
    wbStall.flt.arm = none ∧ (∀ e ∈ wbStall.mangerInj, e.1 / 2 ^ 15 ≠ 0) ∧
    ((after (.mangerWriteback 0) wbStall).stall 0).wb = [] ∧
    0x10 ∈ ((after (.mangerScrub 0 (.mangerCe 0x12)) wbStall).stall 0).wb := by decide +kernel

/-! ### Pens -/

/-- Pen 63 in a state, with die 0; a load is in progress for another pen. -/
def penIn (st : PenState) (shadow : ShadowState) : State :=
  { up.setPen 63 { st := st, granted := true, dies := 1, shadow := shadow } with loadNow := some { pen := 1, isShadow := false } }

/-- Pen 63 LOADING, its own load in progress, come from STOPPED. -/
def penLoading : State :=
  { up.setPen 63 { st := .loading, granted := true, dies := 1, from_ := .stopped } with
    loadNow := some { pen := 63, isShadow := false } }

/-- Pen 63 RUNNING with its SHADOW load in progress; and with FENCE_PORT of its fence root full. -/
def penShadowing : State := { penIn .running .loading with loadNow := some { pen := 63, isShadow := true } }
def penFull : State := (penIn .running .valid).setStall 0
  { inp := [(0, { fifo := List.replicate 128 { data := 0, tag := 0x3F } })] }

theorem witness_PenCommandsMovePens :
    (∀ j ∈ (penIn .running .empty).loadNow.toList ++ (penIn .running .empty).loadQ, j.pen ≠ 63) ∧
    (PenTaken 0 63 penShadowing ∧ (∃ j ∈ penShadowing.loadNow.toList ++ penShadowing.loadQ, j.pen = 63) ∧
      (∀ j ∈ penShadowing.loadNow.toList ++ penShadowing.loadQ, j.pen = 63 → j.isShadow = true) ∧
      ((after (.stop 0 63) penShadowing).pen 63).result = 0x0C) ∧
    (portRoom ((penIn .running .valid).stall 0) 0 = true ∧ PenTaken 0 63 penFull ∧ 0 ∈ fenceRoots penFull 63 ∧
      portRoom (penFull.stall 0) 0 = false ∧ (after (.swap 0 63) penFull).strq.length = 1) ∧
    (∀ st ∈ [PenState.free, .stopped, .faulted], PenTaken 0 63 (penIn st .empty) ∧
      (penIn st .empty).loadNow.isSome = true ∧ ((after (.load 0 63) (penIn st .empty)).pen 63).st = .loading) ∧
    PenTaken 0 63 (penIn .running .empty) ∧ ((after (.shadow 0 63) (penIn .running .empty)).pen 63).shadow = .loading ∧
    (∀ st ∈ [PenState.ready, .stopped], PenTaken 0 63 (penIn st .empty) ∧
      ((after (.start 0 63) (penIn st .empty)).pen 63).st = .running) := by
  unfold PenTaken Served; decide +kernel

theorem witness_PenCommandsMovePens_stop :
    ((after (.stop 0 63) (penIn .running .empty)).pen 63).st = .draining ∧
    ((after (.stop 0 63) (penIn .ready .empty)).pen 63).st = .stopped ∧
    PenTaken 0 63 penLoading ∧ (∃ j ∈ penLoading.loadNow.toList ++ penLoading.loadQ, j.pen = 63) ∧
    (∀ j ∈ penLoading.loadNow.toList ++ penLoading.loadQ, j.pen = 63 → j.isShadow = false) ∧
    ((after (.stop 0 63) penLoading).pen 63).result = 0x0C ∧
    PenTaken 0 63 (penIn .running .valid) ∧ ((penIn .running .valid).pen 63).swapping = false ∧
    0 ∈ fenceRoots (penIn .running .valid) 63 ∧ ((after (.swap 0 63) (penIn .running .valid)).pen 63).swapping = true ∧
    (∀ st ∈ [PenState.ready, .stopped, .faulted], PenTaken 0 63 (penIn st .empty) ∧
      ((after (.penRelease 0 63) (penIn st .empty)).pen 63).st = .free) := by
  unfold PenTaken Served; decide +kernel

/-- The CRC-32 with its register evaluated at each byte, which the kernel can follow. -/
def forced (c : BitVec 32) (k : BitVec 32 → BitVec 32) : BitVec 32 :=
  match c.toNat with
  | 0 => k 0
  | n + 1 => k (BitVec.ofNat 32 (n + 1))
def crcStrict : List Byte → BitVec 32 → BitVec 32
  | [], c => c
  | b :: bs, c => forced (crcByte c b) (crcStrict bs)

theorem forced_eq (c : BitVec 32) (k : BitVec 32 → BitVec 32) : forced c k = k c := by
  have h : ∀ n : Nat, c.toNat = n → BitVec.ofNat 32 n = c := fun n e => by subst e; simp
  unfold forced
  split <;> rename_i e
  · exact congrArg k (h 0 e)
  · exact congrArg k (h _ e)

theorem crcStrict_eq (bs : List Byte) (c : BitVec 32) : bs.foldl crcByte c = crcStrict bs c := by
  induction bs generalizing c with
  | nil => rfl
  | cons b bs ih => rw [crcStrict, forced_eq, List.foldl_cons, ih]

/-- A container of one record (R87, R91): MODE VEC with one NOP; the record's CRC and the container's are CRC-32 values
computed outside the model. -/
def goodRecord : BitVec 4096 := BitVec.ofNat 4096 (1 + 2 ^ 48 + 0xF5C03625 * 2 ^ 224)
def goodHead : Nat :=
  0x280000002800000028000000280000000800000000000000000000000010000000000000000000000000000000000000000ec50d26e00000280008001004e524845
def badHead : Nat :=
  0x2800000028000000280000002800000008000000000000000000000000100000000000000000000000000000000000000000000000000000280008001004e524845
def contOfRecord (head : Nat) (r : BitVec 4096) : Cont :=
  { k := head + 2 ^ 1024 * r.toNat, addr := 0x10000, stalls := [r], routes := [], binds := [], segs := [], planAt := [] }

/-- The container in memory at 0x10000, record byte 0 and header byte 0 given; the other bytes not zero. -/
def contMem (magic0 mode : Byte) : Mem :=
  [(0x10000, magic0), (0x10001, 72), (0x10002, 82), (0x10003, 78), (0x10005, 1), (0x10006, 128), (0x10008, 128),
    (0x10009, 2),
   (0x1000C, 0x6E), (0x1000D, 0xD2), (0x1000E, 0x50), (0x1000F, 0xEC), (0x10024, 1), (0x10030, 128), (0x10034, 128),
   (0x10035, 2), (0x10038, 128), (0x10039, 2), (0x1003C, 128), (0x1003D, 2), (0x10040, 128), (0x10041, 2),
     (0x10080, mode),
   (0x10086, 1), (0x1009C, 0x25), (0x1009D, 0x36), (0x1009E, 0xC0), (0x1009F, 0xF5)]

/-- Pen 0 FREE with the container, and pen 0 LOADING it from STOPPED, with a header the loader has read. -/
def freePen (magic0 : Byte) : State :=
  { up.setPen 0 { container := 0x10000, dies := 1, memSize := 0x10000000 } with ms := { up.ms with mem := contMem magic0 1 } }
def loadingPen (head : Nat) (mode : Byte) (shadow : Bool) (poison : Tab Bool) : State :=
  let s := up.setPen 0
    { st := if shadow then .running else .loading, granted := true, container := 0x10000, dies := 1, memSize := 0x10000000,
      from_ := .stopped }
  { s with ms := { s.ms with mem := contMem 0x45 mode, poison := poison },
           loadNow := some { pen := 0, isShadow := shadow, hdr := BitVec.ofNat 1024 head, place := [0] } }

/-- The container that LOAD_STREAM_DONE reads in such a state. -/
def contRead (s : State) : Cont :=
  let h := ((s.loadNow.map LoadJob.hdr).getD 0).toNat
  contOf (h + 2 ^ 1024 * contRaw s (0x10000 + 128) (hTotal h - 128)) 0x10000

theorem cont_ext (a b : Cont) (h : a.k = b.k ∧ a.addr = b.addr ∧ a.stalls = b.stalls ∧ a.routes = b.routes ∧
    a.binds = b.binds ∧ a.segs = b.segs ∧ a.planAt = b.planAt) : a = b := by
  obtain ⟨h1, h2, h3, h4, h5, h6, h7⟩ := h
  cases a; cases b
  simp only at h1 h2 h3 h4 h5 h6 h7
  subst h1 h2 h3 h4 h5 h6 h7
  rfl

theorem contRead_good (head : Nat) (h : head = goodHead ∨ head = badHead) (b : Bool) :
    contRead (loadingPen head 1 b []) = contOfRecord head goodRecord := by
  rcases h with rfl | rfl <;> cases b <;> exact cont_ext _ _ (by decide +kernel)

theorem stallCrcOk_good : stallCrcOk goodRecord = true := by
  unfold stallCrcOk crc32; simp only [crcStrict_eq]; decide +kernel

theorem contCrcOk_good : contCrcOk (contOfRecord goodHead goodRecord) = true := by
  unfold contCrcOk crc32; simp only [crcStrict_eq]; decide +kernel

theorem contCrcOk_bad : contCrcOk (contOfRecord badHead goodRecord) = false := by
  unfold contCrcOk crc32; simp only [crcStrict_eq]; decide +kernel

theorem witness_PenCommandsAndLoadsRefused :
    PfOpen (penIn .free .empty) ∧ penOwner (penIn .free .empty) 63 = 0 ∧
    Instr.wf (.penCmdReserved 0 63 0) = true ∧ Instr.wf (.penCmdReserved 0 63 7) = true ∧
    Instr.wf (.penCmdReserved 0 63 15) = true ∧
    (∀ c ∈ [Instr.shadow 0 63, .start 0 63, .stop 0 63, .swap 0 63, .penRelease 0 63, .penCmdReserved 0 63 7],
      ((after c (penIn .free .empty)).pen 63).result = 0x0B) ∧
    ((after (.load 0 63) (penIn .running .empty)).pen 63).result = 0x0B ∧
    (let s := up.setFn 1 { st := .enabled }
     barsOpen s 1 = true ∧ s.tack.readyNow = true ∧ penOwner s 63 ≠ 1 ∧ (after (.load 1 63) s).resp = .ur) := by
  unfold PfOpen Served; decide +kernel

/-- A record of a reserved mode is refused RECORD; a poisoned line, CHECKSUM. -/
theorem witness_LoadsRefused :
    (contCheck (loadingPen goodHead 3 false []) (contRead (loadingPen goodHead 3 false [])) ⟨0, 0, [0], []⟩ 0 0x10000000
      = some ⟨1, 0, 3, 640⟩) ∧
    (streamLines { loadingPen goodHead 3 false [] with loadNow := none } 0x10000 (streamOffs 640)).2 = none ∧
    ((after .loadStreamDone (loadingPen goodHead 3 false [])).pen 0).result = 3 ∧
    (streamLines { loadingPen goodHead 3 false [(0x402, true)] with loadNow := none } 0x10000 (streamOffs 640)).2 = some 128 ∧
    ((after .loadStreamDone (loadingPen goodHead 3 false [(0x402, true)])).pen 0).result = 0x0A := by decide +kernel

/-- A container of one record passes when its padding is zero and its record passes. -/
theorem contCheck_one (s : State) (v : PenView) (base size head : Nat) (r : BitVec 4096)
    (p : ∀ i ∈ [0, 1, 2, 3, 4, 5], padCheck (contOfRecord head r) i = none)
    (h : stallCheckRec (contOfRecord head r) [] 0 r = none) : contCheck s (contOfRecord head r) v base size = none := by
  unfold contCheck
  simp only [p 0 (by simp), p 1 (by simp), p 2 (by simp), p 3 (by simp), p 4 (by simp), p 5 (by simp)]
  simp only [contOfRecord] at h ⊢
  simp only [List.zipIdx, List.map, List.length, routeHeads, h, Option.map, List.cons_append, List.nil_append, firstOf]

theorem contCheck_good (s : State) : ∀ head ∈ [goodHead, badHead],
    contCheck s (contOfRecord head goodRecord) ⟨0, 0, [0], []⟩ 0 0x10000000 = none := by
  intro head hh
  apply contCheck_one
  · simp only [List.mem_cons, List.not_mem_nil, or_false] at hh
    rcases hh with rfl | rfl <;> decide +kernel
  · unfold stallCheckRec
    rw [stallCrcOk_good]
    simp only [List.mem_cons, List.not_mem_nil, or_false] at hh
    rcases hh with rfl | rfl <;> decide +kernel

/-- The good container of a LOAD and of a SHADOW load, and one whose checksum is wrong. -/
theorem witness_LoadsCheckAndComplete : ∀ b ∈ [false, true], ∀ head ∈ [goodHead, badHead],
    let s := loadingPen head 1 b []
    contRead s = contOfRecord head goodRecord ∧
    contCheck s (contRead s) ⟨0, penOwner s 0, [0], penChutes s 0⟩ 0 0x10000000 = none ∧
    contCrcOk (contRead s) = decide (head = goodHead) ∧
    ((s.pen 0).swapping = false ∧ (∀ t ∈ penStalls s 0, (s.stall t).st ≠ .swap) ∧ reqWaits s 0x10000 640 = false) ∧
    (streamLines { s with loadNow := none } 0x10000 (streamOffs 640)).2 = none ∧ 0 ∈ penStalls s 0 := by
  intro b _ head hh
  have h : head = goodHead ∨ head = badHead := by
    simpa only [List.mem_cons, List.not_mem_nil, or_false] using hh
  have v : penOwner (loadingPen head 1 b []) 0 = 0 ∧ penChutes (loadingPen head 1 b []) 0 = [] := by
    rcases h with rfl | rfl <;> cases b <;> decide +kernel
  refine ⟨contRead_good head h b, ?_, ?_, ?_, ?_, ?_⟩
  · rw [contRead_good head h b, v.1, v.2]; exact contCheck_good _ head hh
  · rw [contRead_good head h b]
    rcases h with rfl | rfl
    · rw [contCrcOk_good]; decide +kernel
    · rw [contCrcOk_bad]; decide +kernel
  · rcases h with rfl | rfl <;> cases b <;> decide +kernel
  · rcases h with rfl | rfl <;> cases b <;> decide +kernel
  · rcases h with rfl | rfl <;> cases b <;> decide +kernel

/-- A LOAD from FREE whose header passes, and one whose MAGIC is wrong. -/
theorem witness_LoadBegins :
    (∀ m ∈ [0x45, 1], let s := freePen m
      let s0 := s.setPen 0 { s.pen 0 with from_ := .free, st := .loading }
      let r := readMem s0 0x10000 128
      PenTaken 0 0 s ∧ s.loadNow = none ∧ s.loadQ = [] ∧ (s.pen 0).st = .free ∧ (s.pen 0).container = 0x10000 ∧
      0x10000 + 128 ≤ memTop s ∧ headWaits s 0x10000 = false ∧ r.2.2 = false ∧
      headerCheck r.1 0 0x10000 (leNat r.2.1) = if m = 1 then some 1 else none) ∧
    (let s := freePen 0x45
     let s0 := s.setPen 0 { s.pen 0 with from_ := .free, st := .loading }
     let r := readMem s0 0x10000 128
     let s2 := (readyStalls (takeGrant r.1 0) 0 false).updPen 0 fun y => { y with shadow := .empty }
     leNat r.2.1 = goodHead ∧ hCount goodHead ≤ (loadStalls s2 0).length ∧
     placement s2 0 goodHead (wideAt s2 0x10000 goodHead) = some [0]) := by
  unfold PenTaken Served; decide +kernel

/-- Pen 63 with a stall of its die in FAULT. -/
def faultIn (st : PenState) : State :=
  (up.setPen 63 { st := st, granted := true, dies := 2 ^ 63, from_ := .stopped }).setStall 4095 { st := .fault }

theorem witness_DrainsAbortsAndFaults :
    penDrained { penIn .draining .empty with loadNow := none } 63 = true ∧
    ((penIn .draining .empty).pen 63).st = .draining ∧
    (∀ st ∈ [PenState.ready, .running, .draining, .stopped], 4095 ∈ grantStalls (faultIn st) 63 ∧
      ((faultIn st).stall 4095).st = .fault ∧ ((faultIn st).pen 63).granted = true ∧ (faultIn st).loadNow = none) ∧
    (let s := { faultIn .loading with loadNow := some { pen := 63, isShadow := false } }
     ((after (.penFault 63) s).pen 63).result = 0x0D ∧ ((after (.penFault 63) s).stall 4095).failed = true) := by
  decide +kernel

/-! ### Chutes -/

/-- Chute 65535 (the last), of function 1, ENABLED, 16 lines; the PF, function 1 and a stall's endpoint as requesters. -/
def chuteIn (x : Chute) : State :=
  (up.setFn 1 { st := .enabled }).setChute 65535 { x with depth := 4, stack := true, func := 1 }
def word (first last poison : Bool) : ChuteWord :=
    { data := 0x1122334455667788, first := first, last := last, len := 3, poison := poison }
def openChute : Chute := { st := .enabled, opened := true, src := reqSource up (.host 0), words := 1, wslot := 1, wp := 1 }

theorem witness_ChuteReadsAndPushes :
    (∀ r ∈ [Requester.host 0, .host 1], chuteHeld (chuteIn { st := .enabled }) 63 = true ∧
      mayConsume (chuteIn { st := .enabled }) 65535 r = true ∧ mayProduce (chuteIn { st := .enabled }) 65535 r = true) ∧
    RequestArrives (chuteIn { st := .enabled }) 65535 (.host 0) ∧
      RequestArrives (chuteIn { st := .enabled }) 65535 (.host 1) ∧
    ((after (.mark 65535 (.host 0)) (chuteIn { st := .enabled, wp := 3, cp := 3, rp := 2, mp := 1 })).chute 65535).mp = 2 ∧
    ((after (.rewind 65535 (.host 0)) (chuteIn { st := .enabled, wp := 3, cp := 3, rp := 2, mp := 1 })).chute 65535).rp = 1 ∧
    ((after (.release 65535 (.host 0)) (chuteIn { st := .enabled, wp := 3, cp := 3, rp := 2, mp := 1 })).chute 65535).fp = 2 ∧
    (let s := chuteIn { st := .enabled }
     let x := s.chute 65535
     let src := reqSource s (.host 0)
     x.wp = x.cp ∧ x.occ < x.size ∧ x.xoff = false ∧ WordReaches s 65535 src ∧ firstWaits s x src = false ∧
     ((after (.push 65535 (.host 0) (word true false false)) s).chute 65535).opened = true ∧
     src ∉ x.discards ∧ ((after (.push 65535 (.host 0) (word false true false)) s).chute 65535).pstat = .orphan) ∧
    (let s := chuteIn openChute
     let x := s.chute 65535
     let src := reqSource s (.host 0)
     x.src = src ∧ src ∉ x.discards ∧ x.words < 4096 ∧ x.wslot = 1 ∧ WordReaches s 65535 src ∧
     ((after (.push 65535 (.host 0) (word false false false)) s).chute 65535).wslot = 2 ∧
     ((after (.push 65535 (.host 0) (word false true true)) s).chute 65535).cp = 1) := by
  unfold RequestArrives WordReaches Served; decide +kernel

/-- Words that end a poisoned packet or a discarded one, that meet another source's packet, and that are refused. -/
theorem witness_ChuteReadsAndPushes_ends :
    (let s := chuteIn { openChute with openPois := true }
     WordReaches s 65535 (reqSource s (.host 0)) ∧
     ((after (.push 65535 (.host 0) (word false true false)) s).chute 65535).pstat = .poisoned) ∧
    (∀ fl ∈ [[], [reqSource up (.host 0)]],
      let s := chuteIn { st := .enabled, discards := [reqSource up (.host 0)], flushes := fl }
      WordReaches s 65535 (reqSource s (.host 0)) ∧ reqSource s (.host 0) ∈ (s.chute 65535).discards ∧
      ((after (.push 65535 (.host 0) (word false true false)) s).chute 65535).discards = []) ∧
    (let s := chuteIn { openChute with src := { kind := 3 } }
     (∀ r ∈ [Requester.host 0, .dma 0], mayProduce s 65535 r = true ∧ (s.chute 65535).src ≠ reqSource s r ∧
       WordReaches s 65535 (reqSource s r)) ∧
     ((after (.push 65535 (.host 0) (word true true false)) s).doorbell 65535).result = 3 ∧
     ((after (.push 65535 (.dma 0) (word true true false)) s).chute 65535).waiting.length = 1) ∧
    (∀ x ∈ [({} : Chute), { st := .disabling }, { openChute with st := .disabling, src := { kind := 3 } }],
      WordReaches (chuteIn x) 65535 (reqSource (chuteIn x) (.host 0)) ∧
      ((after (.push 65535 (.host 0) (word true true false)) (chuteIn x)).doorbell 65535).result = 1) ∧
    (let s := chuteIn { openChute with st := .disabling }
     mayProduce s 65535 (.host 0) = true ∧ (s.chute 65535).src = reqSource s (.host 0) ∧
     ((after (.abort 65535 (.host 0)) s).chute 65535).pstat = .aborted) := by
  unfold WordReaches; decide +kernel

/-- A chute whose lines lie in a stack, at the last line of the memory of an even map. -/
def lineChute : State := chuteIn { st := .enabled, base := 0x40 }

theorem witness_ChutePacketStoresItsLine : RequestArrives lineChute 65535 (.host 0) ∧
    mayProduce lineChute 65535 (.host 0) = true ∧ (lineChute.chute 65535).occ < (lineChute.chute 65535).size ∧
    WordReaches lineChute 65535 (reqSource lineChute (.host 0)) ∧
    firstWaits lineChute (lineChute.chute 65535) (reqSource lineChute (.host 0)) = false ∧ lineChute.flt.arm = none ∧
    (let x := lineChute.chute 65535
     let i := ((x.adv x.wp 1).toNat + 2 * x.size - 1) % x.size
     x.base.toNat + i * 64 < memTop lineChute ∧
       (lineChute.hub (hubOf lineChute (x.base.toNat + i * 64))).st = .online) ∧
    (after (.push 65535 (.host 0) (word true true false)) lineChute).byteAt 0x40 = 0x88 ∧
    (after (.push 65535 (.host 0) (word true true false)) lineChute).byteAt 0x44 = 0 := by
  unfold RequestArrives WordReaches Served; decide +kernel

theorem witness_ChuteControlCommands :
    (∀ x ∈ [({ st := .enabled } : Chute), openChute], RequestArrives (chuteIn x) 65535 (.host 0) ∧
      mayControl (chuteIn x) 65535 (.host 0) = true ∧ flushBusy (chuteIn x) 65535 = false ∧
      ((after (.flush 65535 (.host 0)) (chuteIn x)).chute 65535).wp = 0) ∧
    mayControl (chuteIn {}) 65535 (.host 0) = true ∧
    ((after (.init 65535 (.host 0)) (chuteIn { crossings := 5 })).chute 65535).crossings = 0 ∧
    ((after (.enable 65535 (.host 0)) (chuteIn {})).chute 65535).st = .enabled ∧
    (∀ d ∈ [2, 20], let s := up.setChute 65535 { depth := d }
      ((after (.enable 65535 (.host 0)) s).chute 65535).st = .enabled) ∧
    ((after (.disable 65535 (.host 0)) (chuteIn { st := .enabled })).chute 65535).st = .disabling ∧
    (∀ op ∈ [0, 10, 15], Instr.wf (.chuteBadOp 65535 (.host 0) op) = true ∧
      ((after (.chuteBadOp 65535 (.host 0) op) (chuteIn {})).doorbell 65535).result = 4) := by
  unfold RequestArrives Served; decide +kernel

/-- Chute 0's consumer is a stall of a pen that is RUNNING, or DRAINING. -/
def busyChute (st : PenState) : State :=
  (up.setPen 0 { st := st, granted := true, dies := 1 }).setChute 0 { st := .enabled, depth := 2, consumer := .stall 0 0 }

theorem witness_FlushBusyChangesNothing : ∀ st ∈ [PenState.running, .draining], let s := busyChute st
    RequestArrives s 0 (.host 0) ∧ chuteHeld s 0 = true ∧ mayControl s 0 (.host 0) = true ∧ penOfDie s 0 = some 0 ∧
    ((after (.flush 0 (.host 0)) s).doorbell 0).result = 3 := by
  unfold RequestArrives Served; decide +kernel

theorem witness_ChuteCommandsRefused : let s := chuteIn { st := .enabled, depth := 4 }
    let r := Requester.stall 0 0
    RequestArrives s 65535 r ∧ mayProduce s 65535 r = false ∧ mayConsume s 65535 r = false ∧
    mayControl s 65535 r = false ∧ mayProduce s 65535 (.host 0) = true ∧ (s.chute 65535).opened = false ∧
    ((after (.push 65535 r (word true true false)) s).chute 65535).pstat = .refused ∧
    ((after (.abort 65535 (.host 0)) s).chute 65535).pstat = .refused ∧
    ((after (.init 65535 (.host 0)) s).chute 65535).pstat = .refused ∧
    ((after (.enable 65535 (.host 0)) (up.setChute 65535 {})).chute 65535).pstat = .refused ∧
    ((after (.flush 65535 (.host 0)) (chuteIn {})).chute 65535).pstat = .refused ∧
    ((after (.disable 65535 (.host 0)) (chuteIn {})).chute 65535).pstat = .refused := by
  unfold RequestArrives Served; decide +kernel

theorem witness_WatermarkWriteCrossings : let s := chuteIn { st := .enabled, wp := 4, cp := 4, high := 8 }
    barsOpen s 0 = true ∧ barsOpen s 1 = true ∧ s.tack.readyNow = true ∧ (s.chute 65535).func.toNat = 1 ∧
    ((after (.watermarkWrite 1 65535 true 4) s).chute 65535).crossings = 1 ∧
    ((after (.watermarkWrite 1 65535 true 4) s).chute 65535).xoff = true ∧
    ((after (.watermarkWrite 1 65535 true 5) s).chute 65535).crossings = 0 := by decide +kernel

theorem witness_ChuteDisableAndWaitingWords :
    ((after (.chuteDisableComplete 65535) (chuteIn { st := .disabling })).chute 65535).st = .disabled ∧
    ((after (.disableLimitExpiry 65535) (chuteIn { st := .disabling, opened := true, wp := 3, cp := 2 })).chuteDie 63).abortLines
      = 2 ∧
    (let s := chuteIn { hwmSeen := true, lwmSeen := true }
     barsOpen s 0 = true ∧ s.tack.readyNow = true ∧
       ((after (.chuteStatusWrite 0 65535 2) s).chute 65535).hwmSeen = false ∧
     ((after (.chuteStatusWrite 0 65535 2) s).chute 65535).lwmSeen = true) ∧
    (let s := up.setChuteDie 63 { abortLines := 9 }
     (after (.chuteDieAbortLinesRead 63) s).resp = .val 9) ∧
    (let s := up.setFn 15 { st := .enabled }
     barsOpen s 15 = true ∧ s.tack.readyNow = true ∧ (after (.chuteStatusWrite 15 65535 2) s).resp = .ur) ∧
    (let s := chuteIn { st := .enabled, order := [{ kind := 1 }], waiting := [⟨{ kind := 1 }, word true false false⟩] }
     let x := s.chute 65535
     chuteHeld s 63 = true ∧ x.xoff = false ∧ x.occ < x.size ∧ myDev s = 0 ∧ chuteLineWaits s 65535 0 = false ∧
     firstWaits s x { kind := 1 } = false ∧ ((after (.waitingFirstOpen 65535) s).chute 65535).opened = true) ∧
    (let s := chuteIn { st := .enabled, opened := true, src := { kind := 1 }, spaceWait := [⟨{ kind := 1 }, word false false false⟩] }
     (s.chute 65535).openLines < (s.chute 65535).size ∧ (s.chute 65535).wslot = 0 ∧ chuteLineWaits s 65535 0 = false ∧
     ((after (.spaceWaitEnd 65535) s).chute 65535).words = 1) ∧
    (let s := { chuteIn {} with ms := { (chuteIn {}).ms with bells := [⟨1, 5, 9, noWord⟩] } }
     barsOpen s 1 = true ∧ s.tack.readyNow = true ∧ bellWaits s 1 = true ∧
     (after (.init 65535 (.host 1)) s).ms.bells.length = 2) := by decide +kernel

/-! ### Remote chutes -/

/-- Link 63 with a payload at the head of VC 0's receive buffer. -/
def rxIn (s : State) (typ : BitVec 4) (p : BitVec 512) : State :=
  s.setLl 63 (LL.setRxQ {} 0 [{ typ := typ, payload := p, pool := false }])
def remoteSrc : Source := { kind := 1, dev := 5, id := 7 }
def ctrlOf (op arg : Nat) : BitVec 512 := ctrlPayload 65535 op 5 7 1 arg
def rxOpen (x : Chute) (typ : BitVec 4) (p : BitVec 512) : State :=
  let s := up.setChute 65535 { x with depth := 4, stack := true, remoteOk := true }
  s.setLl 63 { LL.setRxQ {} 0 [{ typ := typ, payload := p, pool := false }] with
    rxPkt := [(0, some { chute := 65535, src := remoteSrc })] }

theorem witness_RemotePacketsOpenAndMove :
    oeWaits up 7 = false ∧ remoteSrc.dev.toNat ≠ myDev up ∧ ctrlOp (ctrlOf 1 0) = 1 ∧
      ctrlSource (ctrlOf 1 0) = remoteSrc ∧ isLocal up (ctrlChute (ctrlOf 1 0)) = true ∧
    (let s := rxIn (up.setChute 65535 { st := .enabled, remoteOk := true, depth := 4 }) 2 (ctrlOf 1 0)
     chuteHeld s 63 = true ∧ firstWaits s (s.chute 65535) remoteSrc = false ∧
     ((after (.remoteOpen 63 0) s).chute 65535).src = remoteSrc ∧
     ((after (.remoteOpen 63 0) s).ll 63).rxQ 0 = []) ∧
    (∀ x ∈ [({ st := .disabled, remoteOk := true } : Chute), { st := .enabled }],
      ((after (.remoteOpen 63 0) (rxIn (up.setChute 65535 x) 2 (ctrlOf 1 0))).chute 65535).pstat = .refused) ∧
    (let s := rxIn (up.setChute 65535 { st := .enabled, remoteOk := true, depth := 4, opened := true }) 2 (ctrlOf 1 0)
     (s.chute 65535).src ≠ remoteSrc ∧ ((after (.remoteOpen 63 0) s).ll 63).rxQ 0 = (s.ll 63).rxQ 0 ∧
     ((after (.remoteOpen 63 0) s).chute 65535).order = [remoteSrc]) ∧
    (let s := rxOpen { st := .enabled, opened := true, src := remoteSrc, words := 4092 } 1 0x77
     let x := s.chute 65535
     x.words + 4 ≤ 4096 ∧ x.openLines < x.size ∧ x.occ < x.size ∧ 15 * 64 < memTop s ∧ s.flt.arm = none ∧
     chuteLineWaits s 65535 0 = false ∧
     (s.hub (hubOf s 0)).st = .online ∧ (after (.remoteData 63 0) s).byteAt 0 = 0x77) ∧
    (let s := rxOpen { st := .enabled, opened := true, src := remoteSrc, wp := 2, words := 8 } 2 (ctrlOf 2 63)
     bitAt (ctrlArg (ctrlOf 2 63)) 7 = false ∧ ((after (.remoteClose 63 0) s).chute 65535).cp = 2 ∧
     rxPktAt (after (.remoteClose 63 0) s) 63 0 = none) ∧
    (let s := rxOpen { st := .enabled, opened := true, src := remoteSrc, wp := 2, words := 8, lineBuf := 0x1122 } 2 (ctrlOf 2 0)
     let x := s.chute 65535
     ctrlArg (ctrlOf 2 0) % 64 + 1 = 1 ∧ x.openLines = 2 ∧ x.stack = true ∧ (x.wp.toNat + 2 * x.size - 1) % x.size = 1 ∧
     x.base.toNat + 1 * 64 < memTop s ∧ (s.hub (hubOf s 64)).st = .online ∧ chuteLineWaits s 65535 1 = false ∧
     (after (.remoteClose 63 0) s).byteAt 64 = 0x22 ∧ (after (.remoteClose 63 0) s).byteAt 65 = 0) ∧
    (let s := rxOpen { st := .enabled, opened := true, src := remoteSrc, wp := 2, words := 8 } 2 (ctrlOf 3 0)
     (s.chute 65535).remoteOk = true ∧ (s.chute 65535).cut ≠ some (remoteSrc, s.time) ∧
       remoteSrc ∉ (s.chute 65535).discards ∧
     ((after (.remoteAbort 63 0) s).chute 65535).wp = 0 ∧
       ((after (.remoteAbort 63 0) s).chute 65535).pstat = .aborted) := by
  decide +kernel

theorem witness_RemoteMessagesTakeEffect :
    (∀ op ∈ [4, 5, 6, 7], ctrlOp (ctrlOf op 5) = op) ∧ up.sys.forwards = [] ∧ oeWaits up 7 = false ∧
    remoteXoff (after (.remoteXoff 63 0) (rxIn up 2 (ctrlOf 4 0))) 65535 = true ∧
    remoteXoff (after (.remoteXon 63 0) (rxIn { up with xoffRemote := [(65535, true)] } 2 (ctrlOf 5 0))) 65535 = false ∧
    tabGet (fun _ => .ok) (after (.remoteStatus 63 0) (rxIn up 2 (ctrlOf 6 5))).epStat (epKey remoteSrc) = .tooLong ∧
    (let s := rxIn (up.setChute 9 { st := .enabled, depth := 4, opened := true, src := remoteSrc, wp := 1 }) 2 (ctrlOf 7 0)
     ((after (.remotePurged 63 0) s).chute 9).vanished = 1) := by decide +kernel

/-! ### Sinks and the prepass engine -/

/-- A binding of chute 9 in a role, and a segment of 1 KiB at 0x1000. -/
def bindIn (role : BitVec 8) : Binding :=
  { role := role, port := 0, stall := 0, chute := 9, depth := 0, storage := 0, seg := 0, high := 0, low := 0, idle := 0,
    flowPin := 0xFF }
def segIn : Segment := { base := 0x1000, size := 1024, stride := 0, passes := 1, access := 3 }

/-- A stall whose OUT3 feeds a SINK of a 1 KiB segment, with a line on its way; `out` is its output format. -/
def sinkStall (out dataOff : Nat) (notice : Bool) : State :=
  let r := { routeTo 1 0 0 with dataOff := BitVec.ofNat 64 dataOff, linesPerPass := 2 }
  let s := (running { routes := [r], binds := [bindIn 3], segs := [segIn] }).setStall 0
    { st := .run, activeValid := true, slot0 := { record := recOf [(2, out), (18, 0x4000)] } }
  { (s.setSink 3 { notice := notice, lines := if notice then 2 else 0 }).setChute 9 { st := .enabled, depth := 2 } with
    strq := [{ toSink := true, t := 0, port := 3, line := dataLine 0xAB }] }

theorem witness_SinkWritesAndNotices :
    (∀ e ∈ [(0, 0), (8, 0), (8, 960), (8, 961)], let s := sinkStall e.1 e.2 false
      (match outDst s 0 3 with | .sink _ => true | _ => false) = true ∧ (s.sink 3).notice = false ∧
        wipeComplete s = true ∧
      (sinkNow s 0 3) = s.sink 3 ∧ (s.sink 3).scale = none ∧ sinkTurn s 0 3 = true ∧
      (match outDst s 0 3 with | .sink r => sinkServed s 0 r (s.sink 3) | _ => false) = true ∧
      (popFirst (fun (m : StrLine) => m.toSink && decide (m.t = 0) && decide (m.port = 3)) s.strq).isSome = true) ∧
    fmtMx (recOutFmt ((sinkStall 0 0 false).stall 0).record) = true ∧
    fmtMx (recOutFmt ((sinkStall 8 0 false).stall 0).record) = false ∧
    ((after (.sinkLine 0 3) (sinkStall 0 0 false)).sink 3).scale = some (dataLine 0xAB) ∧
    resolveAt (sinkStall 8 960 false) (harnessOf (sinkStall 8 960 false) 0) 0 960 64 0 true = some (.mem 0x13C0) ∧
    0x13C0 % 64 = 0 ∧ (after (.sinkLine 0 3) (sinkStall 8 960 false)).byteAt 0x13C0 = 0xAB ∧
    resolveAt (sinkStall 8 961 false) (harnessOf (sinkStall 8 961 false) 0) 0 961 64 0 true = none ∧
    ((after (.sinkLine 0 3) (sinkStall 8 961 false)).stall 0).st = .fault ∧
    (let s := sinkStall 8 0 true
     penOfDie s 0 = some 0 ∧ isLocal s (BitVec.ofNat 22 (bindAddr s 0 (bindIn 3))) = true ∧
     chuteHeld s 0 = true ∧ (s.chute 9).occ < (s.chute 9).size ∧ (s.sink 3).notice = true ∧
     (s.sink 3).offered = false ∧ (s.chute 9).st = .enabled ∧ (s.chute 9).xoff = false ∧ (s.chute 9).opened = false ∧
     (s.chute 9).spaceWait = [] ∧ (s.chute 9).waiting = [] ∧ firstWaits s (s.chute 9) (stallSource s 0 3) = false ∧
       chuteLineWaits s 9 0 = false ∧
     ((after (.sinkPassNotice 0 3) s).sink 3).pass = 1 ∧ tabGet (fun _ =>
       0) ((after (.sinkPassNotice 0 3) s).chute 9).tags 0 = 0xC3 ∧ (s.chute 9).stack = false ∧
     (after (.sinkPassNotice 0 3) s).mangerByte (s.chute 9).mangerStall (s.chute 9).mangerOff = 1) ∧
    (let s := (sinkStall 8 0 true).setChute 9 { st := .enabled, depth := 2, stack := true, base := 0x4000 }
     s.flt.arm = none ∧ 0x4000 < memTop s ∧ (s.hub (hubOf s 0x4000)).st = .online ∧ chuteLineWaits s 9 0 = false ∧
     (after (.sinkPassNotice 0 3) s).byteAt 0x4000 = 1 ∧ (after (.sinkPassNotice 0 3) s).byteAt 0x4001 = 0) := by
  decide +kernel

/-- Pen 0 RUNNING a plan over one row of segment 0 and chute 9, whose trigger count is `n`. -/
def planOp : Operand := { kind := 0, seg := 0, rows := 1, base := 0, rowStride := 0, kStride := 1 }
def planIn (scope n : Nat) : Plan :=
  { node := 3, scope := BitVec.ofNat 8 scope, pair := 0, kCount := 2, passCount := 1, trigger := 0,
    trigCount := BitVec.ofNat 16 n, drove := 8, contrib := [0], a := planOp, b := planOp, tableA := 0, tableB := 0 }
def planPen (scope n : Nat) (run : PlanRun) : State :=
  let s := up.setPen 0
    { st := .running, granted := true, dies := 1, plans := [(0, run)],
      bank0 := { binds := [bindIn 2], segs := [segIn], plans := [planIn scope n], place := [4095] } }
  { s with ready := [(0, 0)], tack := { s.tack with image := some { size := 2 } } }

/-- The same with a one-line packet in a chute. -/
def withPacket (s : State) (c : Nat) (line : Line) (k : Consumer) : State :=
  let s1 := s.setChute c
    { st := .enabled, depth := 2, stack := true, base := 0x4000, wp := 1, cp := 1, tags := [(0, 0xFF)], consumer := k }
  { s1 with ms := { s1.ms with mem := memStore s1.ms.mem 0x4000 (lineBytes line) } }

/-- A MAX header of device 1 for step 0 with maximum 5, and a header of another kind. -/
def maxLine : Line := BitVec.ofNat 512 (3 + 2 ^ 16 + 2 ^ 24 * 4 + 2 ^ 128 * 5)
def otherLine : Line := BitVec.ofNat 512 (3 + 2 ^ 16 + 2 ^ 24 * 2)

theorem witness_PlansAndDroves :
    (∀ e ∈ [0, 1], engineDrove (planPen e 1 {}) = none ∧ wipeComplete (planPen e 1 {}) = true ∧
      (∀ a ∈ planLines ((planPen e 1 {}).pen 0).cur (planIn e 1) 0, reqWaits (planPen e 1 {}) a 64 = false) ∧
      ((planPen e 1 {}).pen 0).cur.plans[0]?.isSome = true) ∧
    (after .planRun (planPen 0 1 {})).anchors.length = 1 ∧ partners (planPen 1 1 {}) = [1] ∧
    (((after .planRun (planPen 1 1 {})).pen 0).planRun 0).waiting = true ∧
    (∀ e ∈ [(maxLine, 4), (otherLine, 2)],
      let s := withPacket (planPen 1 1 { waiting := true, eMax := some 2 }) 8 e.1 .none
      drovePlans s 8 = [(0, 0, planIn 1 1)] ∧ (drovePlans s 8).find? (fun q =>
        decide (q.2.2.node.toNat = bitsAt (chuteRead s 8).line.data.toNat 0 16)) = some (0, 0, planIn 1 1) ∧
      (s.chute 8).st ≠ .disabled ∧ bitsAt (chuteRead s 8).line.data.toNat 16 6 ∈ partners s ∧
      ((s.pen 0).planRun 0).due = [] ∧ (s.chute 8).ready ≠ 0 ∧ chuteWaits s 8 = false ∧
      tagLast (chuteRead s 8).line.tag = true ∧ headerPhase (chuteRead s 8).line.data = e.2 ∧
      (chuteRead s 8).line.data.extractLsb' 32 32 = 0 ∧ ((after (.droveMax 8) s).chute 8).fp = 1) ∧
    (after (.droveMax 8) (withPacket (planPen 1 1 { waiting := true, eMax := some 2 }) 8 maxLine .none)).anchors
      = [{ t := 4095, anchor := anchorOf (some 5), poison := false }] ∧
    (∀ n ∈ [1, 2], let s := withPacket (planPen 0 n {}) 9 0 (.engine 0)
      (s.chute 9).ready ≠ 0 ∧ chuteWaits s 9 = false ∧ (planTriggers s 0 (planIn 0 n) 9) = true ∧
      (((after (.engineTriggerPacket 9) s).pen 0).planRun 0).trig = (if n = 1 then 0 else 1) ∧
      (after (.engineTriggerPacket 9) s).ready.length = if n = 1 then 2 else 1) := by decide +kernel

/-! ### Memory -/

/-- A device with one line poisoned, hub 3 LOST; the last line of memory, and the first past it. -/
def memState : State :=
  let s := up.setHub 3 { st := .lost, wipeDone := true }
  { s with ms := { s.ms with poison := [(0, true)] } }
def lastLine : Addr := 0x1DFFFFFFFC0

theorem witness_AddressMap : memTop up = 0x1E000000000 ∧
    (curOrder up)[lastLine.toNat / 2048 % stackCount up]? = some (hubOf up lastLine.toNat) ∧
    deviceAddr up (hubOf up lastLine.toNat) (stackLocal up lastLine.toNat) = lastLine.toNat ∧ 23 ∈ curOrder up := by
  decide +kernel

/-- Hub 23's die is being replaced; function 1's window is its first 4 KiB of memory from 0x1000; CXL is trained. -/
def waitState : State := { up with pnet := { up.pnet with repl := some { die := 55, site := 63, step := 2 } } }
def heldLine : Addr := BitVec.ofNat 64 (deviceAddr up 23 0)
def fnState : State := up.setFn 1 { st := .enabled, memBase := 0x1000, memSize := 0x1000 }
def cxlState : State := { up with host := { up.host with cxl := true } }

theorem witness_MemReadOutcomes :
    (∀ a ∈ [0, 0x7C0, 0x1DFFFFFFFC0, 0x1E000000000], reqWaits memState a 64 = false) ∧ wipeComplete memState = true ∧
    lastLine.toNat / 64 * 64 < memTop memState ∧ ¬ (0x1E000000000 : Nat) / 64 * 64 < memTop memState ∧
    (memState.hub (hubOf memState 0)).st = .online ∧ (memState.hub (hubOf memState lastLine.toNat)).st = .online ∧
    memState.poisonAt 0 = true ∧ memState.poisonAt (lastLine.toNat / 64) = false ∧
    popCount (memState.injAt (lastLine.toNat / 64)).toNat 3 = 0 ∧
    (after (.memRead 0 0) memState).resp = .data (List.replicate 64 0) true ∧
    (after (.memRead lastLine 0) memState).resp = .data (List.replicate 64 0) false ∧
    ((after (.memRead lastLine 1) memState).hub (hubOf memState lastLine.toNat)).ce = 1 ∧
    (after (.memRead lastLine 2) memState).poisonAt (lastLine.toNat / 64) = true ∧
    (∃ a ∈ (List.range 24).map fun g => 2048 * g, (memState.hub (hubOf memState a)).st = .lost) ∧
    ((after (.memRead 0x1E000000000 0) memState).frec (srcHub (hubOf memState 0x1E000000000))).lastCause = 0x303 := by
  decide +kernel

theorem witness_MemReadOutcomes_windows :
    wipeComplete waitState = true ∧ reqWaits waitState (heldLine.toNat / 64 * 64) 64 = true ∧
    (after (.memRead heldLine 0) waitState).ms.waiting.length = 1 ∧
    PlainSpan fnState 0x1FFC 4 ∧ Served fnState 1 ∧ Served up 0 ∧ Served waitState 0 ∧
      bar4Addr fnState 1 0xFFC = 0x1FFC ∧
    0xFFC + 4 ≤ bar4Limit fnState 1 ∧ reqWaits fnState 0x1FFC 4 = false ∧
    (after (.bar4Read 1 0xFFC 4) fnState).resp = .data [0, 0, 0, 0] false ∧
    bar4Limit fnState 1 < 0xFFD + 4 ∧ (after (.bar4Read 1 0xFFD 4) fnState).resp = .ur ∧
    (after (.bar4Read 0 heldLine 4) waitState).ms.waiting = [.read heldLine.toNat 4 0] ∧
    memTop up < bar4Addr up 0 0x1DFFFFFFFFD + 4 ∧ (after (.bar4Read 0 0x1DFFFFFFFFD 4) up).resp = .ur ∧
    PlainSpan cxlState lastLine.toNat 64 ∧ reqWaits cxlState lastLine.toNat 64 = false ∧ wipeComplete cxlState = true ∧
    cxlState.host.linkUp = true ∧ (after (.cxlMemRead lastLine) cxlState).resp = .data (List.replicate 64 0) false ∧
    (after (.cxlMemRead 0x1E000000000) cxlState).resp = .ur := by
  unfold PlainSpan Served; decide +kernel

theorem witness_MemWrites :
    (after (.memWrite lastLine 0x1234 true) up).byteAt lastLine.toNat = 0x34 ∧
    (after (.memWrite lastLine 0x1234 true) up).poisonAt (lastLine.toNat / 64) = true ∧
    reqWaits up lastLine.toNat 64 = false ∧ reqWaits up 0x3F 1 = false ∧ up.flt.arm = none ∧
      (0x3F : Nat) % 64 + [(7 : Byte)].length ≤ 64 ∧
    (after (.readModifyWrite 0x3F [7] false 0) up).byteAt 0x3F = 7 ∧
    (after (.readModifyWrite 0x3F [7] false 0) memState).poisonAt 0 = true ∧
    (let h := hubOf up 0
     let s := up.setHub h { st := .online, wipeDone := true, wb := [0] }
     ((after (.memCeWriteback (Fin.ofNat 24 h)) s).hub h).wb = []) ∧
    (let a := BitVec.ofNat 64 (deviceAddr up 3 0)
     reqWaits memState a.toNat 64 = false ∧ (memState.hub (hubOf memState a.toNat)).st = .lost ∧
     (after (.memWrite a 1 false) memState).resp = .ok) ∧
    wipeComplete up = true ∧ wipeComplete waitState = true ∧
    (after (.bar4Write 1 0xFFC [1, 2, 3, 4]) fnState).byteAt 0x1FFF = 4 ∧
    (after (.bar4Write 1 0xFFD [1, 2, 3, 4]) fnState).resp = .ur ∧
    (after (.bar4Write 0 heldLine [9]) waitState).ms.waiting = [.write heldLine.toNat [9] false 0 (some 0)] ∧
    (after (.cxlMemWrite lastLine 7 true) cxlState).byteAt lastLine.toNat = 7 := by decide +kernel

/-- Hub 23 with values, its scrub at the last line of the stack. -/
def busyHub : State := up.setHub 23
  { st := .online, powered := true, wipeDone := true, nextRefresh := 2, band := 3, ce := 5, uc := 6, scrubPos := 0x13FFFFFFC0 }

theorem witness_HubUpkeep :
    ((after (.refresh 23) busyHub).hub 23).refresh = 2 ∧
    ((after (.refreshRateChange 23) busyHub).hub 23).nextRefresh = 1 ∧
    (busyHub.hub 23).scrubEn = true ∧ wipeComplete busyHub = true ∧
    ((after (.scrubRead 23 0) busyHub).hub 23).scrubPos = 0 ∧
    busyHub.ms.waiting = [] ∧ busyHub.ms.bells = [] ∧ ((after (.stackLost 23 .internal) busyHub).hub 23).st = .lost ∧
    ((after (.stackLost 23 .poisonRate) (up.setHub 23 { st := .online, poisonedAt := List.replicate 257 0 })).hub 23).st = .lost ∧
    hubUnreachable (up.setLmap 55 { site := 63, empty := true }) 23 = true ∧
    (barsOpen busyHub 0 = true ∧ ideDiscards busyHub 0 = false) ∧
      ((after (.mhCtrlWrite 23 0) busyHub).hub 23).scrubHours = 1 ∧
    (after (.mhCeCountRead 23) busyHub).resp = .val 5 ∧ ((after (.mhUcCountRead 23) busyHub).hub 23).uc = 0 := by
  decide +kernel

/-! ### The mesh and die replacement -/

/-- A packet from die 0 for die 63 at a die; a module retraining; a switch under way. -/
def meshAt (h : Die) : State := { up with pnet := { up.pnet with packets :=
  [{ cls := .str, src := 0, dst := 63, here := h, payload := 9 }] } }
def retrainAt : State := { up with pnet := { up.pnet with retraining := [(71, 0)] } }

theorem witness_MeshMovesAndRetrains :
    (tabAt up 0 (clsCode .req)).hop 0 63 0 = some 1 ∧ edgeOpen up 0 (dirTo 0 1) = true ∧
    (tabAt up 0 (clsCode .req)).held.getLsbD 63 = true ∧
    (let s := { up with pnet := { up.pnet with injWait := [{ cls := .req, src := 0, dst := 9, here := 0, payload := 1 }] } }
     injectBehind s { cls := .req, src := 0, dst := 63, here := 0, payload := 9 } = true ∧
     edgeOpen s 0 (dirTo 0 1) = true ∧ (after (.meshPacket 0 .req 63 9) s).pnet.injWait.length = 2) ∧
    injectBehind up { cls := .req, src := 0, dst := 63, here := 0, payload := 9 } = false ∧
    (∀ d ∈ [0, 5], (tabAt up d 0).held.getLsbD d = true ∧ inReplacement up d = false) ∧
    (tabAt up 55 (clsCode .str)).hop 0 63 55 = some 63 ∧ edgeOpen (meshAt 55) 55 (dirTo 55 63) = true ∧
    (meshAt 55).pnet.packets.all (hasTurn (meshAt 55) 55 63) = true ∧
      (after (.meshPacket 55 .str 63 9) (meshAt 55)).pnet.packets = [] ∧
    (tabAt up 6 (clsCode .str)).hop 0 63 6 = some 7 ∧ edgeOpen (meshAt 6) 6 (dirTo 6 7) = true ∧
    (meshAt 6).pnet.packets.all (hasTurn (meshAt 6) 6 7) = true ∧
    ((after (.meshPacket 6 .str 63 9) (meshAt 6)).pnet.packets.map fun p => p.here) = [7] ∧
    (let s := { up with pnet := { up.pnet with switching := true, want := { failedEdges := [(0, 0)] } } }
     classIdle s 63 .str = true ∧ tabAt (after (.routerTableSwitch 63 .str) s) 63 (clsCode .str) = { failedEdges := [(0, 0)] }) ∧
    moduleUsed up 71 0 = true ∧ (after (.adapterRetry 71 0) up).level (levelKey 6 (18 * 71)) = 1 ∧
    (71, 0) ∈ (after (.adapterRetry 71 0) (up.setLevel (levelKey 6 (18 * 71)) 31)).pnet.retraining ∧
    ((after (.moduleRetrainDone 71 0 (.repaired 4 4)) retrainAt).site 71).repairs = 4 ∧
    farEnd retrainAt 71 0 = some (70, 2) ∧
    (lanesUsed retrainAt 71 0 = 0 ∧ (retrainAt.site 71).modHalf.getLsbD 0 = false ∧
      ((after (.moduleRetrainDone 71 0 (.repaired 4 4)) retrainAt).site 71).modHalf.getLsbD 0 = false ∧
      ∀ e ∈ [(5, 0), (0, 5)], let t := after (.moduleRetrainDone 71 0 (.repaired e.1 e.2)) retrainAt
        (t.site 71).modHalf.getLsbD 0 = true ∧ (t.site 70).modHalf.getLsbD 2 = true) ∧
    ((after (.moduleRetrainDone 71 0 .half) retrainAt).site 71).modHalf.getLsbD 0 = true ∧
    ((after (.moduleRetrainDone 71 0 .failed) retrainAt).site 71).modFailed.getLsbD 0 = true := by decide +kernel

/-- With no packet under way to a die, its room is not taken. -/
theorem witness_MeshRoom : roomReserved up .req 5 = true ∧ roomReserved up .req 63 = true ∧ up.pnet.packets = [] := by
  simp [roomReserved, show up.pnet.packets = [] from rfl]

theorem witness_PanelCommands :
    PfOpen up ∧ up.held 63 = true ∧ up.siteOf 63 = 71 ∧ (up.site 71).st = .active ∧ (up.site 32).st = .spare ∧
    ((after (.retire 63) up).site 71).st = .retiring ∧ (after (.retire 64) up).pnet.result = 2 ∧
    (let s := up.setSite 71 { st := .fenced }
     ((after (.readmit 71) s).site 71).readmit = true ∧ (after (.readmit 72) s).pnet.result = 2) ∧
    (after (.readmit 71) up).pnet.result = 2 ∧
    (∀ op ∈ [0, 3, 15], (after (.pnetBadOp op) up).pnet.result = 4) ∧
    ((after (.capabilityWord 71 5) up).site 71).cap = 5 ∧ up.dieAt 71 = some 63 ∧
    up.tack.fw.toNat < bitsAt (2 ^ 32) 32 32 ∧
    (let s := up.setSite 71 { st := .activating }
     s.dieAt 71 = some 63 ∧ ((after (.capabilityWord 71 (BitVec.ofNat 64 (2 ^ 32))) s).site 71).st = .fenced) ∧
    ((after (.capabilityWord 71 (BitVec.ofNat 64 (2 ^ 32))) up).site 71).st = .fenced := by
  unfold PfOpen Served; decide +kernel

/-- A replacement of die 63 whose steps up to `n` are done, with a spare from step 3 on. -/
def replAt (n : Nat) : State :=
  let s := if n = 2 then up else up.setSite 39 { st := .activating }
  { s with pnet := { s.pnet with repl := some { die := 63, site := 71, step := n, spare := if n = 2 then none else some 39 } } }

theorem witness_ReplacementSteps :
    up.pnet.repl = none ∧ ({ up.pnet with queue := [63] }).queue = [63] ∧
    (∀ n ∈ [1, 2, 3, 6, 8, 9, 10], (replAt n).pnet.switching = false ∧ (replAt n).tack.fw = 0 ∧
      (replAt n).ms.waiting = [] ∧ (replAt n).ms.bells = []) ∧
    nextSpare (replAt 2) { die := 63, site := 71, step := 2 } = some 39 ∧ ((replAt 2).site 71).st ≠ .spare ∧
    ((replAt 3).site 39).testing = false ∧ capFits (replAt 6) 0 = true ∧
    (∀ n ∈ [1, 2, 3, 4, 5, 6, 8], ((after (.replacementStepDone true 3 [] 0) (replAt n)).pnet.repl.map fun r =>
      r.step) = some (n + 1)) ∧
    ((after (.replacementStepDone true 3 [] 0) (replAt 2)).site 71).st = .fenced ∧
    (after (.replacementStepDone true 3 [] 0) (replAt 10)).pnet.repl = none ∧
    (∀ n ∈ [4, 5, 7], ((after (.replacementStepDone false 3 [] 0) (replAt n)).site 39).st = .fenced) :=
      by decide +kernel

/-! ### The optical engines -/

def oeIn (o : OeS) : State := up.setOe 7 o

theorem witness_OeCommandsAndRegisters :
    PfOpen (oeIn {}) ∧ (15 : BitVec 8).toNat ≤ 15 ∧ ((after (.spareLaser 7 15) (oeIn {})).oe 7).spQueue = [15] ∧
    ((after (.spareLaser 7 16) (oeIn {})).oe 7).spResult = 4 ∧
    ((after (.spareLaser 7 3) (oeIn { spQueue := [3] })).oe 7).spResult = 4 ∧
    ((after (.spareLaser 7 3) (oeIn { spStep := 2, spWave := 3 })).oe 7).spResult = 4 ∧
    (((after (.relock 7 255) (oeIn { bandRing := [(255, 0x8000)] })).oe 7).ring 255).heater = 0x7331 ∧
    (((after (.relock 7 255) (oeIn { bandRing := [(255, 0xFFFF)] })).oe 7).ring 255).st = .failed ∧
    ((after (.relock 7 255) (oeIn { rings := [(255, { recStep := 1 })] })).oe 7).spResult = 4 ∧
    ((after (.relock 7 255) (oeIn { rings := [(255, { st := .search })] })).oe 7).spResult = 4 ∧
    (∀ op ∈ [0, 3, 15], ((after (.oeBadOp 7 op) (oeIn {})).oe 7).spResult = 3) ∧
    (((after (.oeLaserStatWrite 7 31 0x2000) (oeIn { lasers := [(31, { ageWarn := true })] })).oe 7).laser 31).ageWarn = false ∧
    (((after (.oeRingWrite 7 255 0x200000) (oeIn { rings := [(255, { mislock := true })] })).oe 7).ring 255).mislock = false := by
  unfold PfOpen Served; decide +kernel

/-- Laser `n` of OE 7 in a state, its standbys OFF. -/
def laserIn (oe : OeState) (n : Nat) (st : LaserState) : State :=
  oeIn { st := oe, lasers := [(n, { st := st, bias := 100 })] }
/-- A sparing of wavelength 13 whose step `n` is done. -/
def sparingAt (n : Nat) : State :=
  oeIn { st := .ready, spStep := BitVec.ofNat 4 n, spWave := 13, lasers := [(13, { st := .active }), (29, { st := .ready })] }

theorem witness_LaserEvents :
    (((after (.laserWarmDone 7 31) (laserIn .ready 31 .warming)).oe 7).laser 31).st = .ready ∧
    (((after (.laserWarmTimeout 7 31) (laserIn .ready 31 .warming)).oe 7).laser 31).st = .failed ∧
    (((after (.laserWarmDone 7 15) (laserIn .lasers 15 .warming)).oe 7).laser 15).st = .active ∧
    (∀ st ∈ [LaserState.warming, .ready, .active],
      (((after (.laserLockLoop 7 31 (-3) true) (laserIn .ready 31 st)).oe 7).laser 31).heater = -3) ∧
    (let x : Laser := { st := .active, locked := true }
     (((after (.laserLockLoop 7 31 0 false) (oeIn { st := .ready, lasers := [(31, x)] })).oe 7).laser 31).st = .failed) ∧
    ((laserIn .ready 1 .active).oe 7).autoSpare = true ∧ (((laserIn .ready 1 .active).oe 7).laser 1).noSpare = false ∧
    (∀ b ∈ [849, 850, 949, 950, 1000], let s := after (.biasLoop 7 1 b) (laserIn .ready 1 .active)
      ((s.oe 7).laser 1).ageWarn = decide (850 ≤ b.toNat) ∧ (s.oe 7).spQueue = if 950 ≤ b.toNat then [1] else []) ∧
    lsAvailable ((laserIn .ready 15 .active).oe 7) 15 = true ∧
    (((after (.suddenLoss 7 15) (laserIn .ready 15 .active)).oe 7).laser 15).st = .failed ∧
    (up.link 63).st ≠ .active ∧
    ((after (.suddenLoss 7 13) (laserIn .ready 13 .active)).oe 7).spStep = 2 ∧
    ((after (.suddenLoss 7 13) (oeIn { st := .ready, spStep := 2, spWave := 12, lasers := [(13, { st := .active })] })).oe
      7).spQueue = [13] ∧
    (let s := oeIn { st := .ready, spQueue := [13], lasers := [(13, { st := .failed })] }
     (s.oe 7).lit 13 = false ∧ lsAvailable (s.oe 7) 13 = true ∧ ((after (.laserSparingStart 7) s).oe 7).spStep = 2) ∧
    (let s := oeIn { st := .ready, spStep := 1, spWave := 13, lasers := [(13, { st := .active }), (29, { st := .failed })] }
     oeRetraining s 7 = false ∧ lsAvailable (s.oe 7) 13 = false ∧ carriesLane s 7 13 = false ∧
     ((after (.laserSparingStepDone 7 true) s).oe 7).spStep = 0) ∧
    (let s := oeIn { st := .ready, spQueue := [13], lasers := [(13, { st := .active })] }
     oeRetraining s 7 = false ∧ lsAvailable (s.oe 7) 13 = true ∧ ((after (.laserSparingStart 7) s).oe 7).spStep = 1) ∧
    (∀ n ∈ [1, 2, 3, 4, 5, 6, 7], oeRetraining (sparingAt n) 7 = false ∧
      ((after (.laserSparingStepDone 7 true) (sparingAt n)).oe 7).spStep = BitVec.ofNat 4 (n + 1)) ∧
    ((after (.laserSparingStepDone 7 true) (sparingAt 8)).oe 7).spStep = 0 ∧
    (((after (.laserSparingStepDone 7 false) (sparingAt 2)).oe 7).laser 29).st = .failed := by decide +kernel

/-- Ring 225 (port 7, modulator, wavelength 1) of OE 7, with light. -/
def ringIn (x : Ring) : State :=
  oeIn { st := .ready, rings := [(225, x)], lasers := [(1, { st := .active })], bandRing := [(225, 0x8000)] }
def ringOf (s : State) : Ring := (s.oe 7).ring 225

theorem witness_RingEvents :
    ringIsTx 225 = true ∧ ringWave 225 = 1 ∧
    (ringOf (ringIn { st := .locked })).rail = false ∧
    (∀ st ∈ [RingState.frozen, .locked], ringLight (ringIn { st := st }) 7 225 = true) ∧
    (ringOf (after (.ringLoopUpdate 7 225 1) (ringIn { st := .frozen }))).st = .locked ∧
    (ringOf (after (.ringReacquireTimeout 7 225) (ringIn { st := .frozen }))).st = .search ∧
    (ringOf (after (.ringRelock 7 225) (ringIn { st := .locked }))).heater = 0x7331 ∧
    (ringOf (after (.ringRail 7 225) (ringIn { st := .locked }))).rail = true ∧
    (∀ h ∈ [58916, 58917], (ringOf (ringIn { st := .search, heater := BitVec.ofNat 16 h })).heater.toNat + 66 ≤
      searchEnd (ringOf (ringIn { st := .search })) 225 ↔ h = 58916) ∧
    (ringOf (after (.ringSearchStep 7 225 false 0 false) (ringIn { st := .search, heater := 58916 }))).heater = 58982 ∧
    (ringOf (after (.ringSearchStep 7 225 false 0 false) (ringIn { st := .search, heater := 58917 }))).st = .failed ∧
    (∀ c ∈ [3277, 58982], (ringOf (after (.ringSearchStep 7 225 true (BitVec.ofNat 16 c) true) (ringIn { st := .search }))).st
      = .locked) ∧
    lockCode ((ringIn {}).oe 7) 225 3277 = 3277 ∧
    (ringOf (after (.ringSearchStep 7 225 true 30000 true)
      (oeIn { st := .ready, rings := [(225, { st := .search })], lasers := [(1, { st := .active })], lockOff := [(225, 0xFF00)] }))
      ).heater = 29744 ∧
    (57342 : Nat) + 1640 ≤ searchEnd (ringOf (ringIn { st := .search })) 225 ∧
    (ringOf (after (.ringSearchStep 7 225 true 57342 false) (ringIn { st := .search }))).heater = 58982 ∧
    (let ls : List Int := [-500, -100, -500, -500, -500, -500, -500, -500, -500, -500, -500, -500, -500, -500, -500,
      -500]
     let bad : List Int := [-100, -500, -500, -500, -500, -500, -500, -500, -500, -500, -500, -500, -500, -500, -500,
       -500]
     (ringOf (ringIn { st := .locked })).skip = 0 ∧ (up.link 63).st ≠ .active ∧ pilotResult 1 ls = 0 ∧
       pilotResult 1 bad = 1 ∧
     (ringOf (after (.pilotEvaluation 7 225 ls) (ringIn { st := .locked }))).pilot = 1 ∧
     (ringOf (after (.pilotEvaluation 7 225 bad) (ringIn { st := .locked, mismatches := 1 }))).mislock = true) ∧
    (ringOf (after (.mislockRecoveryStepDone 7 225) (ringIn { recStep := 1 }))).recStep = 2 ∧
    (ringOf (after (.mislockRecoveryStepDone 7 225) (ringIn { recStep := 2, bad := some 9 }))).bad = some 9 ∧
    (∀ st ∈ [RingState.locked, .failed], (ringOf (after (.mislockRecoveryStepDone 7 225) (ringIn { recStep := 3, st := st }))).recStep
      = 0) := by decide +kernel

/-- The rings of banks 14 and 15 of OE 7 are all LOCKED. -/
def quietOe : State := oeIn { rings := (List.range 32).map fun r => (r + 224, { st := .locked }) }

/-- OE 7 in a band, its two dies' diodes working: one reads a temperature in eighths of a degree, the rest 40 °C. -/
def readingAt (t : Int) (band cool : Nat) : State :=
  { oeIn { band := BitVec.ofNat 3 band, cool := cool } with
    therm := { chans := [206, 207, 222, 223].map fun c => (c, { st := 0, temp := if c = 206 then t else 320 }) } }

theorem witness_OeEstimates :
    activitySlot 7 71 = some 12 ∧ activitySlot 7 55 = some 2 ∧ activitySlot 7 47 = none ∧
    (((after (.activityWord 7 71 0x7FF0) up).oe 7).slot 12).p = 2047 ∧
    (((after (.activityWord 7 71 0xFFF1) up).oe 7).slot 12).p = -1 ∧
    (((after (.activityWord 7 71 0xFFF2) up).oe 7).slot 12).held = true ∧
    (((after (.oeSilentDie 7 71) up).oe 7).slot 12).silent = true ∧ (up.site 71).powered = true ∧
    (up.oe 7).rings = [] ∧ (((after (.feedForwardUpdate 7) up).oe 7).slot 24).p = 0 ∧
    tabGet (fun _ => 0x8000) ((after (.marginMeasure 7 7 (List.replicate 16 5)) up).oe 7).near 127 = 5 ∧
    bankQuiet (up.oe 7) 15 = false ∧ bankQuiet (quietOe.oe 7) 15 = true ∧
    tabGet (fun _ => 0) ((after (.xtRefineWindow 7 [{ bank := 15, block := 1, row := 15, col := 15, residual := -24 }]) quietOe).oe
      7).xt (xtKey 15 1 15 15) = 0xFFFD ∧
    xtPending ((oeIn { xt := [(5, 65)] }).oe 7) 5 = true ∧ xtPending ((oeIn { xt := [(5, 64)] }).oe 7) 5 = false ∧
    tabGet (fun _ => 0) ((after (.xtCommit 7) (oeIn { xt := [(5, 65)] })).oe 7).xtFlash 5 = 65 ∧
    (∀ e ∈ [(800, 0, 0, 4), (336, 1, 10, 0), (336, 1, 9, 1)],
      ((after (.oeBandChange 7) (readingAt e.1 e.2.1 e.2.2.1)).oe 7).band.toNat = e.2.2.2) := by decide +kernel

/-! ### Links -/

/-- Link 63 with a state of its own, its link layer, and OE 7 READY. -/
def linkIn (k : LinkS) (x : LL := {}) : State :=
    ((up.setLink 63 k).setLl 63 x).setOe 7 { st := .ready, lasers := [(15, { st := .active })] }
/-- An eye open at steps 60 to 62, whose centre is 61; W2 of a frame count. -/
def eye61 : BitVec 64 := 0x7000000000000000
def w2Of (n : Nat) : Reg32 := BitVec.ofNat 32 (n + 2 ^ 16 * (65535 - n))
def lanesAll (y : Lane) : Tab Lane := (List.range 16).map fun i => (i, y)
def lnk (s : State) : LinkS := s.link 63
def llOf (s : State) : LL := s.ll 63
/-- Lanes that have locked, and the map v2 assigns to fifteen of them (R241). -/
def okLane : Lane := { los := false, lol := false, bitLock := true, wordLock := true, deskewed := true }
def map15 : BitVec 64 := 0xDDCBA9876543210E
/-- A flit received whole. -/
def flit (typ vc seq ack : Nat) (p : BitVec 512) : RxFlit := { bits := mkFlit typ vc seq ack p }

theorem test_assignLanes :
    assignLanes 0xFFFF true 2 = map15 ∧ assignLanes 0xFFFF true 1 = 0xFDCBA9876543210E ∧
    assignLanes 0x7FFF false 1 = 0xFDCBA9876543210E ∧ mapLanes map15 = 13 := by decide +kernel

/-- R254: the CRC of a CTRL flit of VC 2 that carries 0x1234, worked out apart from the model (IEEE 802.3). -/
theorem test_flitCrc : flitGood (BitVec.ofNat 576 (0x21 + 2 ^ 32 * 0x1234 + 2 ^ 544 * 0xE6C3074A)) = true ∧
    flitGood (BitVec.ofNat 576 (0x21 + 2 ^ 32 * 0x1235 + 2 ^ 544 * 0xE6C3074A)) = false := by decide +kernel

theorem witness_LinkStates :
    (∀ st ∈ [LinkState.down, .detect],
      tabGet (fun _ => 0) (lnk (after (.beaconTransmit 63) (linkIn { st := st, enable := true }))).lastFrame 0 = 0x33333333) ∧
    (∀ k ∈ [({ st := .down, enable := false } : LinkS), { st := .train, enable := true, lastFrame := [(0, 1)] }],
      (lnk (after (.beaconTransmit 63) (linkIn k))).lastFrame = k.lastFrame) ∧
    (∀ c ∈ [Instr.beaconDetected 63, .partnerClockDetected 63],
      (lnk (after c (linkIn { st := .down, enable := true, downReason := 2 }))).st = .detect ∧
      (lnk (after c (linkIn { st := .detect }))).st = .train) ∧
    (lnk (after (.partnerClockDetected 63) (linkIn { st := .hold }))).st = .detect ∧
    (lnk (after (.holdLimitExpiry 63) (linkIn { st := .hold }))).downReason = 2 ∧
    sweepCentre eye61 = some 61 ∧
    (∀ k ∈ [({ st := .train } : LinkS), { st := .retrain, kind := some .full }],
      let s := linkIn { k with lanes := [(0, okLane), (15, { los := false })] }
      let t := after (.trainComplete 63 (List.replicate 16 eye61)) s
      clockLight (lnk s) = true ∧ (k.st = .train ∨ atStage (lnk s) 0 = true) ∧
        ((lnk t).st = .align ∨ (lnk t).stage = 1) ∧
      ((lnk t).lane 15).phase = 61) ∧
    (∀ k ∈ [({ st := .align } : LinkS), { st := .retrain, kind := some .full, stage := 1 }],
      let s := linkIn { k with lanes := lanesAll okLane }
      let w2 := (List.range 16).map fun i => if i = 1 then w2Of 65535 else if i ≤ 8 then w2Of 16 else w2Of 15
      let w3 := (List.range 16).map fun i => w2Of (100 * i)
      aligning (lnk s) = true ∧ lockedCount ((deskewLanes s 63 w2).link 63) = 8 ∧
        lockedCount ((deskewLanes s 63 w3).link 63) < 8 ∧
      ((lnk (after (.alignComplete 63 w2) s)).lane 15).delay = 512 ∧
      (lnk (after (.alignComplete 63 w3) s)).st = (if k.st = .align then .align else .down)) ∧
    (∀ st ∈ [LinkState.train, .align, .exchange], (lnk (after (.stageTimeout 63) (linkIn { st := st }))).st = .detect ∧
      clockLight (lnk (linkIn { st := st })) = false ∧
        (lnk (after (.clockLightLost 63) (linkIn { st := st }))).st = .detect) := by
  decide +kernel

theorem witness_LinkStates_active :
    ((linkIn {}).oe 7).lit 0 = false ∧ lsAvailable ((linkIn {}).oe 7) 0 = true ∧
    (let k : LinkS := { st := .exchange, msgRx := true, goTx := true, version := true, pFast := true }
     inExchange k = true ∧ stepping k = false ∧
     (lnk (after (.goBlock 63) (linkIn { k with goTx := false }))).goRx = true ∧
     ratesUp (linkIn k) 63 = true ∧ (lnk (after (.goBlock 63) (linkIn k))).rateStep = true ∧
     (lnk (after (.goBlock 63) (linkIn k))).goTx = false ∧ ratesUp (linkIn k { rateCap := true }) 63 = false ∧
     (lnk (after (.goBlock 63) (linkIn k { rateCap := true }))).st = .active ∧
     stepping { k with rateStep := true } = true ∧
     (let t := lnk (after (.rateStepDone 63 (List.replicate 16 eye61) (List.replicate 16 (w2Of 0)))
        (linkIn { k with rateStep := true, goTx := false }))
      t.fast = true ∧ t.rateStep = true) ∧
     (lnk (after (.goBlock 63) (linkIn { k with rateStep := true, fast := true }))).st = .active ∧
     (lnk (after (.goBlock 63) (linkIn { k with st := .retrain, kind := some .full, stage := 2, version := false }))).stage
       = 3) ∧
    (∀ kd ∈ [RetrainKind.quick, .full], (lnk (after (.trainingBlocksReceived 63 kd) (linkIn { st := .active }))).kind = some kd) ∧
    (∀ y ∈ [okLane, {}], let s := linkIn { st := .retrain, kind := some .quick, laneMap := map15, rxMap := map15, lanes := lanesAll y }
      quickOk (lnk s) = y.wordLock ∧
      (lnk (after (.retrainComplete 63) s)).stage = (if y.wordLock then 1 else 0) ∧
      (lnk (after (.retrainComplete 63) s)).kind = some (if y.wordLock then .quick else .full)) ∧
    (let k : LinkS := { st := .retrain, kind := some .quick, stage := 1, goTx := true }
     (lnk (after (.goBlock 63) (linkIn k))).st = .active ∧
     (lnk (after (.goBlock 63) (linkIn { k with goTx := false }))).goRx = true) ∧
    (let s := linkIn { st := .retrain, kind := some .full, stage := 3, laneMap := map15 }
     atStage (lnk s) 3 = true ∧ (lnk (after (.retrainComplete 63) s)).st = .active) ∧
    (∀ st ∈ [LinkState.active, .retrain], clockLight (lnk (linkIn { st := st, laneMap := map15 })) = false ∧
      (lnk (after (.clockLightLost 63) (linkIn { st := st, laneMap := map15 }))).st = .hold) ∧
    clockLight (lnk (linkIn { st := .active, lanes := [(0, okLane)] })) = true := by decide +kernel

/-- A capability message of device 5: its versions, SERIAL 9, port 4, every lane locked, both spares. -/
def capMsg (hi lo : Nat) : BitVec 512 :=
  BitVec.ofNat 512 (0x4F42 + 2 ^ 16 * hi + 2 ^ 24 * lo + 2 ^ 32 * 3 + 2 ^ 40 * 8 + 2 ^ 48 * 0xFFFE + 2 ^ 64 * 9 + 2 ^ 128 * 5
    + 2 ^ 136 * 4 + 2 ^ 152 * 2 + 2 ^ 160 * 77 + 2 ^ 192 * 3)

theorem witness_CapabilityMessages :
    (let s := linkIn { st := .exchange, lanes := lanesAll okLane }
     flitGood (flit 4 0 0 0 (capMsg 2 1)).bits = true ∧ flitTyp (flit 4 0 0 0 (capMsg 2 1)).bits = 4 ∧
     bitsAt (capMsg 2 1).toNat 0 16 = 0x4F42 ∧ agreedVersion (lnk s) (capMsg 2 1) = some 2 ∧
     agreedVersion (lnk s) (capMsg 1 1) = some 1 ∧ agreedVersion (lnk s) (capMsg 3 3) = none ∧
     twoManagers s (msgPartner (capMsg 2 1)) = false ∧ dupNumber s 63 (msgPartner (capMsg 2 1)) = false ∧
     8 ≤ mapLanes (assignLanes (lockedLanes (lnk s) &&& 0xFFFE) true 2) ∧
     (lnk (after (.capabilityMessage 63 (flit 4 0 0 0 (capMsg 2 1))) s)).laneMap = map15 ∧
     (lnk (after (.capabilityMessage 63 (flit 4 0 0 0 (capMsg 2 1))) s)).vcs = 8 ∧
     (lnk (after (.capabilityMessage 63 (flit 4 0 0 0 (capMsg 1 1))) s)).vcs = 4 ∧
     (lnk (after (.capabilityMessage 63 (flit 4 0 0 0 (capMsg 2 1))) s)).partner.serial = 9 ∧
     (lnk (after (.capabilityMessage 63 (flit 4 0 0 0 (capMsg 3 3))) s)).downReason = 4 ∧
     flitGood 1 = false ∧ (llOf (after (.capabilityMessage 63 { bits := 1 }) s)).crcErr = 1) ∧
    (let fl := flit 4 0 0 0 (capMsg 2 1)
     FlitArrives 63 fl (linkIn { st := .active }) ∧ (rxExchange (lnk (linkIn {})) fl).2 = fl.bits ∧
     (llOf (after (.capabilityMessage 63 fl) (linkIn { st := .active }))).rxSlot = 1) := by
  unfold FlitArrives; decide +kernel

/-- Link 63 ACTIVE with the v2 map and lanes in order. -/
def act (y : Lane := okLane) (x : LL := {}) : State :=
  linkIn { st := .active, version := true, laneMap := map15, rxMap := map15, lanes := lanesAll y } x

theorem witness_LaneEvents :
    ((lnk (after (.los 63 15) (act))).lane 15).los = true ∧ ((lnk (after (.los 63 15) (act))).lane 14).los = false ∧
    ((lnk (after (.losDeassert 63 15) (act {}))).lane 15).los = false ∧
    ((lnk (after (.lol 63 15) (act))).lane 15).lol = true ∧
    ((lnk (after (.lolDeassert 63 15) (act { okLane with lol := true }))).lane 15).lol = false ∧
    dropRing 63 15 = 255 ∧
    (let s := (act { okLane with tap1 := 127, tap2 := 0x81 }).updOe 7 fun o =>
      { o with rings := [(255, { st := .locked })] }
     ((s.oe 7).ring (dropRing 63 15)).st = .locked ∧
     -- 2 less 127/256 and -127/256 of 1 is 2, above half the amplitude: every step follows its decision
     equalised ((lnk s).lane 15) 2 1 0 = 2 ∧ errNeg 2 1 = false ∧
     ((lnk (after (.equaliserUpdate 63 15 2 1 5) s)).lane 15).tap1 = 126 ∧
     ((lnk (after (.equaliserUpdate 63 15 2 1 5) s)).lane 15).tap2 = 0x82 ∧
     ((lnk (after (.equaliserUpdate 63 15 2 1 5) s)).lane 15).tap3 = 0xFF ∧
     ((lnk (after (.equaliserUpdate 63 15 (1 / 4) 1 2) s)).lane 15).tap1 = 126 ∧
     eqStopped (act) 63 15 = true) ∧
    okLane.bitLock = true ∧
    ((lnk (after (.phaseTrackerUpdate 63 15 true) (act { okLane with phase := 63, delay := 4 }))).lane 15).delay = 3 ∧
    ((lnk (after (.phaseTrackerUpdate 63 15 false) (act { okLane with delay := 4 }))).lane 15).phase = 63 ∧
    roleAt map15 15 = 13 ∧ w1Good 0xF20DF10F = false ∧ w1Good 0xF20DF00F = true ∧ w2Count (w2Of 513) = some 513 ∧
    ((lnk (after (.marker 63 15 0 0xF20DF00F (w2Of 513) 513 false) (act { okLane with deskewed := false, markers := 1 }))).lane 15).deskewed
      = true ∧
    ((lnk (after (.marker 63 15 31 0xF20DF00F (w2Of 513) 513 false) (act))).lane 15).offset = 31 ∧
    ((lnk (after (.marker 63 15 0 0xF20DF00F (w2Of 513) 514 false) (act))).lane 15).delay = -32 ∧
    (let s := linkIn { st := .align, lanes := lanesAll { okLane with wordLock := false } }
     aligning (lnk s) = true ∧ w1Good 0xF30CF00F = true ∧
     ((lnk (after (.wordLock 63 15 8 0xF30CF00F false) s)).lane 15).hits = 8 ∧
     ((lnk (after (.wordLock 63 15 99 0xF30CF00F false) s)).lane 15).hits = 15 ∧
     ((lnk (after (.wordLock 63 14 8 0xF30CF00F false) s)).lane 14).idMis = true) ∧
    (∀ p ∈ [0, 1, 2],
      let s := (linkIn { st := .align, lanes := lanesAll okLane }).updOe 7 fun o =>
        { o with rings := [(254, { pilotResult := BitVec.ofNat 2 p })] }
      let t := after (.wordLock 63 14 8 0xF30CF00F false) s
      dropRing 63 14 = 254 ∧ pilotSays s 63 14 = p ∧ aligning (lnk s) = true ∧
      ((lnk (after (.wordLock 63 14 7 0xF30CF00F false) s)).lane 14).hits = 7 ∧
      ((lnk t).lane 14).misSent = decide (p ≠ 1) ∧ ((t.oe 7).ring 254).mislock = decide (p ≠ 0) ∧
      txRing 63 14 = 238 ∧
      ∀ c ∈ [Instr.wordLock 63 14 0 0 true, .marker 63 14 0 0 0 0 true], (((after c s).oe 7).ring 238).mislock = true) ∧
    (∀ b ∈ [62261, 62262], let s := (act {}).updOe 7 fun o => { o with bandRing := [(255, BitVec.ofNat 16 b)] }
      ((s.oe 7).ring 255).st = .idle ∧ bandStart (s.oe 7) 255 = b ∧
      (((after (.losDeassert 63 15) s).oe 7).ring 255).st = if b = 62261 then .search else .failed) ∧
    (let s := linkIn { st := .retrain, kind := some .full, stage := 1, rxMap := map15, lanes := lanesAll { okLane with wordLock := false } }
     aligning (lnk s) = true ∧ roleAt (lnk (after (.wordLock 63 15 8 0xF30CF00F false) s)).rxMap 15 = 12) ∧
    (let s := linkIn { st := .active, rxMap := 0xFFFFFFFF6543210E, lanes := (0, okLane) :: (lanesAll { okLane with los := true }).drop 1 }
     clockLight (lnk s) = true ∧
         usableSpares ((lnk s).setLane 1 { (lnk s).lane 1 with out := true }) = [] ∧ mapLanes (lnk s).rxMap ≤ 8 ∧
     (lnk (after (.laneFailed 63 1) s)).kind = some .full) ∧
    (let s := (act).updLink 63 fun k => k.setLane 13 { okLane with lol := true }
     clockLight (lnk s) = true ∧
         usableSpares ((lnk s).setLane 13 { (lnk s).lane 13 with out := true }) = [14, 15] ∧ roleAt map15 13 = 12 ∧
     ((llOf (after (.laneFailed 63 13) s)).cmdRx).map (fun c => (c.lane, c.wave, c.eff)) = some (12, 14,
       some 8192)) := by
  decide +kernel

theorem witness_LinkCommandsAndRegisters :
    (lnk (after (.retrain 63) (act))).st = .retrain ∧ (lnk (after (.retrain 63) (linkIn {}))).cmdResult = 1 ∧
    (let q : Partner := { serial := 9, dev := 5 }
     let s := linkIn { st := .exchange, held := true, cand := some q }
     holdsTraffic s 63 = false ∧ twoManagers s q = false ∧ dupNumber s 63 q = false ∧
     (lnk (after (.acceptPartner 63) s)).partner = q) ∧
    (lnk (after (.acceptPartner 63) (linkIn {}))).cmdResult = 1 ∧
      (lnk (after (.linkCmdBadOp 63 15) (linkIn {}))).cmdResult = 2 ∧
    (lnk (after (.linkCtrlWrite 63 1) (linkIn {}))).holdLimit = 1 ∧
    (lnk (after (.linkCtrlWrite 63 0xFFD) (linkIn {}))).holdLimit = 1000 ∧
    (lnk (after (.linkCtrlWrite 63 0) (linkIn { st := .active, enable := true }))).downReason = 1 ∧
    (lnk (after (.linkStateWrite 63 0x20) (linkIn { pRestarted := true }))).pRestarted = false ∧
    ((lnk (after (.linkLaneWrite 63 15 0x200) (act { idMis := true }))).lane 15).idMis = false ∧
    ((lnk (after (.slip 63 15) (act { okLane with offset := 31 }))).lane 15).offset = 0 ∧
    (let s := act { stuffErr := 7 }
     (after (.linkLaneRead 63 15) s).resp = .val (BitVec.ofNat 64 (linkLaneReg ((lnk s).lane 15))) ∧
     ((lnk (after (.linkLaneRead 63 15) s)).lane 15).stuffErr = 0) := by decide +kernel

/-! ### The link layer -/

/-- Link 63 ACTIVE with a link layer of its own. -/
def llIn (x : LL) : State := act okLane x
def rxOf (n : Nat) (pool : Bool) : List RxItem := List.replicate n { typ := 1, payload := 7, pool := pool }

theorem witness_TrafficFlitsAreStored :
    (∀ e ∈ [(Instr.dataFlit, 1), (Instr.ctrlFlit, 2), (Instr.dataPool, 9), (Instr.ctrlPool, 10)],
      ∀ v ∈ [0, 7],
      let x : LL := { nextRx := 4095, nextTx := 5, accepted := 31, xoffAt := 480 }
      let fl := flit e.2 v 4095 5 0x1234
      FlitArrives 63 fl (llIn x) ∧ NextInOrder 63 fl (llIn x) ∧ hasRoom x (flitVc fl.bits) (decide (8 ≤ e.2)) = true ∧
      flitTyp fl.bits = e.2 ∧ (llOf (after (e.1 63 fl) (llIn x))).nextRx = 0 ∧
      (llOf (after (e.1 63 fl) (llIn x))).ackPub = 0 ∧
      ((llOf (after (e.1 63 fl) (llIn x))).rxQ v).map (fun i => i.payload) = [0x1234] ∧
      (llOf (after (e.1 63 fl) (llIn { x with accepted := 30 }))).accepted = 31 ∧
      ((llOf (after (e.1 63 fl) (llIn { x with encActive := true }))).openRx).length = 1 ∧
      (llOf (after (e.1 63 (flit e.2 v 2047 5 0x1234)) (llIn x))).dups = 1 ∧
      (llOf (after (e.1 63 (flit e.2 v 2046 5 0x1234)) (llIn x))).dups = 0 ∧
      (llOf (after (e.1 63 { bits := 1 }) (llIn x))).crcErr = 1) ∧
    (let x : LL := { rxq := [(7, rxOf 512 false)] }
     hasRoom x 7 false = false ∧ hasRoom x 7 true = true ∧ hasRoom { rxq := [(7, rxOf 511 false)] } 7 false = true ∧
     (llOf (after (.dataFlit 63 (flit 1 7 0 0 1)) (llIn x))).overrun = 1) ∧
    (∀ t ∈ [7, 8, 11, 15], let fl := flit t 3 0 0 1
      reservedType (flitTyp fl.bits) = true ∧ NextInOrder 63 fl (llIn {}) ∧
      ((after (.flitReservedType 63 fl) (llIn {})).frec (srcLink 63)).lastCause = 0x703) := by
  unfold FlitArrives NextInOrder
  decide +kernel

theorem witness_ControlFlitsTakeEffect :
    FlitArrives 63 (flit 0 0 0 0 0x10000081) (llIn {}) ∧
    (llOf (after (.flowFlit 63 (flit 0 0 0 0 0x10000081)) (llIn { credits := 4000 }))).xoffFrom = 0x81 ∧
    (llOf (after (.flowFlit 63 (flit 0 0 0 0 0x10000081)) (llIn { credits := 4000 }))).credits = 4096 ∧
    (llOf (after (.ping 63 (flit 6 0 0 0 0xFF01)) (llIn {}))).echoDue = some 255 ∧
    (llOf (after (.sync 63 (flit 5 0 0 0 0)) (llIn {}))).syncDue = true ∧
    0 < 31 * mapLanes map15 * laneRate (lnk (llIn {})) ∧
    (llOf (after (.echo 63 (flit 6 0 0 0 0xFF02) 100000) (llIn { probeOut := true, probeNo := 255 }))).rtt = 102 ∧
    (llOf (after (.echo 63 (flit 6 0 0 0 0xFF02) 0) (llIn { probeOut := true, probeNo := 255 }))).rtt = 2 ∧
    (let p : BitVec 512 := BitVec.ofNat 512 (4095 + 2 ^ 32 + 2 ^ 48 * 4096)
     let q : BitVec 512 := BitVec.ofNat 512 (4095 + 2 ^ 32 * 3 + 2 ^ 48 * 4096)
     let x : LL := { syncOn := true }
     bitAt p.toNat 32 = true ∧ bitAt p.toNat 33 = false ∧ bitAt q.toNat 33 = true ∧
     (llOf (after (.sync 63 (flit 5 0 0 0 p)) (llIn x))).nextRx = 4095 ∧
     (llOf (after (.sync 63 (flit 5 0 0 0 p)) (llIn x))).credits = 4096 ∧
     (llOf (after (.sync 63 (flit 5 0 0 0 p)) (llIn x))).synced = false ∧
     (llOf (after (.sync 63 (flit 5 0 0 0 q)) (llIn x))).synced = true) := by
  unfold FlitArrives
  decide +kernel

theorem witness_LinkTimers :
    (llOf (after (.ackTimer 63) (llIn { nextRx := 9, accepted := 9 }))).ackPub = 9 ∧
    (llOf (after (.flowForce 63) (llIn {}))).flowDue = true ∧
    (llOf (after (.creditReturnTimer 63) (llIn { poolFreed := 1 }))).flowDue = true ∧
    (llOf (after (.creditReturnTimer 63) (llIn {}))).flowDue = false ∧
    (llOf (after (.probeTimeout 63) (llIn { probeOut := true }))).probeDue = true ∧
    (let x : LL := { synced := true, replay := [mkFlit 1 0 7 0 1], limitNow := 4 }
     (llOf (after (.replayTimerExpiry 63) (llIn { x with replayCount := 3 }))).replayPos = some 0 ∧
     (lnk (after (.replayTimerExpiry 63) (llIn { x with replayCount := 4 }))).kind = some .full ∧
     (llOf (after (.replayTimerExpiry 63) (llIn { x with replayCount := 4 }))).askedSeq = some 7 ∧ x.oldest = 7 ∧
     (lnk (after (.replayTimerExpiry 63) (llIn { x with replayCount := 4, askedSeq := some 7 }))).downReason = 5) ∧
    (let s := fun (kd : RetrainKind) (x : LL) => linkIn { st := .retrain, kind := some kd } x
     (lnk (after (.retrainTimeout 63) (s .quick {}))).kind = some .full ∧
     (llOf (after (.retrainTimeout 63) (s .full { retrainFails := 1 }))).retrainFails = 2 ∧
     (lnk (after (.retrainTimeout 63) (s .full { retrainFails := 2 }))).downReason = 5) ∧
    (let o : OpTimer := { src := { kind := 0, dev := 0, id := 0 }, chute := 0, vc := 1 }
     (llOf (after (.operationTimeout 63 0) (llIn { ops := [o] }))).unreach = 1 ∧
     (llOf (after (.operationTimeout 63 0) (llIn { ops := [{ o with fired := true }] }))).unreach = 0 ∧
     (llOf (after (.operationTimeout 63 0) (llIn { ops := [{ o with via := true }] }))).unreach = 0) :=
       by decide +kernel

theorem witness_LinkLayerCommands :
    (let it : TxItem := { typ := 1, payload := 1 }
     let x : LL := { replay := [mkFlit 1 0 7 0 1], txq := [(3, [it])] }
     (llOf (after (.purge 63) (linkIn { st := .down } x))).replay = [] ∧
     (llOf (after (.purge 63) (linkIn { st := .down } x))).purgedDue = true ∧
     (llOf (after (.purge 63) (llIn x))).cmdResult = 1 ∧
     (llOf (after (.linkDisable 63) (llIn x))).draining = true ∧
     (llOf (after (.linkDisable 63) (linkIn { st := .retrain } x))).cmdResult = 1) ∧
    (lnk (llIn { encActive := true })).st = .active ∧
    (llOf (after (.rekey 63) (llIn {}))).cmdResult = 1 ∧
    (∀ op ∈ [0, 4, 15], (llOf (after (.linkLlBadOp 63 (BitVec.ofNat 4 op)) (llIn {}))).cmdResult = 2) ∧
    (∀ w ∈ [(LlCounter.replays, 1), (.crcErr, 2), (.dups, 3), (.overrun, 4), (.retrains, 5), (.unreachable, 6)],
      (after (.linkLlCounterRead 63 w.1)
        (llIn { replays := 1, crcErr := 2, dups := 3, overrun := 4, retrains := 5, unreach := 6 })).resp = .val w.2) ∧
    holdsTraffic (llIn { draining := true }) 63 = false ∧
    (lnk (after (.linkDisableComplete 63) (llIn { draining := true }))).downReason = 1 ∧
    (llOf (after (.linkDrainLimitExpiry 63) (llIn { draining := true, replay := [1] }))).replay = [] :=
      by decide +kernel

/-- The type, VC, sequence number and payload of the flit that a slot carried. -/
def slotOf (s : State) : Option (Nat × Nat × Nat × BitVec 512) :=
  (llOf (after (.txSlot 63) s)).sent.map fun f => (flitTyp f, flitVc f, flitSeq f, flitPayload f)

theorem witness_SlotsCarryFlits :
    (llIn {}).flt.arm = none ∧
    slotOf (linkIn { st := .exchange }) = some (4, 0, 0, capMessage (linkIn { st := .exchange }) 63) ∧
    slotOf (llIn { syncOn := true, txSlot := 63 }) = some (0, 0, 0, 0) ∧
    slotOf (llIn { syncOn := true, txSlot := 64, fresh := false, nextTx := 9 })
      = some (5, 0, 0, syncPayload { nextTx := 9, fresh := false }) ∧
    slotOf (llIn { echoDue := some 9 }) = some (6, 0, 0, 0x902) ∧
    slotOf (llIn { probeDue := true, probeNo := 9 }) = some (6, 0, 0, 0x901) := by decide +kernel

theorem witness_SlotsCarryFlits_resend :
    (let x : LL := { synced := true, purgedDue := true, nextTx := 4095 }
     flowNow (llIn x) 63 = false ∧ slotOf (llIn x) = some (2, 0, 4095,
       BitVec.ofNat 512 (2 ^ 22 * 7 + 2 ^ 32 * myDev up))) ∧
    (let x : LL := { synced := true, replay := [mkFlit 1 3 7 0 5], replayPos := some 0 }
     vc0Flit (llIn x) 63 = none ∧ flowNow (llIn x) 63 = false ∧ slotOf (llIn x) = some (1, 3, 7, 5)) ∧
    (let x : LL := { flowDue := true, poolFreed := 4097, xoffTo := 2 }
     vc0Flit (llIn x) 63 = none ∧ slotOf (llIn x) = some (0, 0, 0, 0x10000002) ∧
     (llOf (after (.txSlot 63) (llIn x))).poolFreed = 1) := by decide +kernel

theorem witness_SlotsCarryFlits_items :
    (let it : TxItem := { typ := 1, payload := 77 }
     let x : LL := { synced := true, txq := [(3, [it])], nextTx := 4095 }
     let y : LL := { x with xoffFrom := 8, credits := 1 }
     chooseFlit (llIn x) 63 = .item 3 0 ∧ slotOf (llIn x) = some (1, 3, 4095, 77) ∧
     chooseFlit (llIn y) 63 = .item 3 0 ∧ slotOf (llIn y) = some (9, 3, 4095, 77) ∧
     (llOf (after (.txSlot 63) (llIn y))).credits = 0 ∧ (llOf (after (.txSlot 63) (llIn y))).nextTx = 0 ∧
     chooseFlit (llIn { y with credits := 0 }) 63 = .flow) ∧
    (let z : LL := { synced := true, encActive := true, openTx := List.replicate 32 5 }
     chooseFlit (llIn z) 63 = .tag) := by decide +kernel

/-- Link 63 in a state, with the exchange's progress given. -/
def exch (ackTx ackRx goRx goTx : Bool) (k : LinkS := {}) : State :=
  linkIn { k with st := .exchange, msgRx := true, ackTx := ackTx, ackRx := ackRx, goRx := goRx, goTx := goTx }

theorem witness_SlotsCarryFlits_before :
    (∀ st ∈ [LinkState.down, .detect], after (.txSlot 63) (linkIn { st := st }) = linkIn { st := st }) ∧
    (∀ st ∈ [LinkState.train, .align, .hold], (lnk (after (.txSlot 63) (linkIn { st := st }))).frames = 1) ∧
    (let k : LinkS := { st := .exchange, rateStep := true }
     stepping k = true ∧ (lnk (after (.txSlot 63) (linkIn k))).frames = 1) ∧
    (let s := linkIn { st := .retrain, kind := some .quick }
     tabGet (fun _ => 0) (lnk (after (.txSlot 63) s)).lastFrame 15 = 0x6B2C94D3) ∧
    (∀ g ∈ [2, 3], let s := linkIn { st := .retrain, kind := some .full, stage := g, rateStep := decide (g = 3) }
      (lnk (after (.txSlot 63) s)).st = .retrain) ∧
    (∀ go ∈ [true, false], let t := lnk (after (.txSlot 63) (linkIn { st := .retrain, kind := some .quick, stage := 1, goRx := go }))
      t.st = (if go then .active else .retrain) ∧ (go = false → t.goTx = true)) ∧
    (goDue (lnk (exch false true false false)) = false ∧
      (lnk (after (.txSlot 63) (exch false true false false))).ackTx = true) ∧
    (goDue (lnk (exch true true false false)) = true ∧
      (lnk (after (.txSlot 63) (exch true true false false))).goTx = true) ∧
    (let s := exch true true true false
     goDue (lnk s) = true ∧ ratesUp s 63 = false ∧ (lnk (after (.txSlot 63) s)).st = .active) ∧
    (let s := exch true true true false { version := true, pFast := true }
     goDue (lnk s) = true ∧ ratesUp s 63 = true ∧ (lnk (after (.txSlot 63) s)).rateStep = true ∧
     (lnk (after (.txSlot 63) s)).goTx = false) ∧
    (goDue (lnk (exch true true false true)) = false ∧ (slotOf (exch true true false true)).isSome = true) ∧
    (let s := exch true true true false { version := true, pFast := true, rateStep := true, fast := true }
     goDue (lnk s) = true ∧ stepping (lnk s) = false ∧ (lnk (after (.txSlot 63) s)).st = .active) := by decide +kernel

/-- A link of two data lanes whose receiver agrees, with 64 bits to send; the words of its last frame. -/
def twoLanes : LinkS :=
  { st := .active, laneMap := 0xFFFFFFFFFFFFF10E, rxMap := 0xFFFFFFFFFFFFF10E, scr := seeds 0x1234567, rxScr := seeds 0x1234567,
    frames := 5, txBits := (List.range 64).map fun i => (0x8F1E2D3C00000001 : BitVec 64).getLsbD i }
def frameWords (k : LinkS) : List (Wave × Reg32) :=
  (List.range 3).map fun i => (BitVec.ofNat 4 i, tabGet (fun _ => 0) k.lastFrame i)

/-- R229 to R231, R253: what a frame puts on the lanes, the receiver gives back. -/
theorem test_frameCarriesBits : (rxFrame twoLanes (frameWords (sendFrame twoLanes))).rxBits = twoLanes.txBits ∧
    (sendFrame twoLanes).txBits = [] := by decide +kernel

theorem witness_LaneCommands :
    (let c : LaneCmd := { id := 9, op := 1, lane := 12, wave := 15 }
     let s := llIn {}
     let fl := fun (q : LaneCmd) => flit 3 0 0 0 (lanePayload 2 q 0)
     MgmtArrives 63 (fl c) 2 s ∧ laneCmdOf (lanePayload 2 c 0) = c ∧ laneCheck (lnk s) c = 0 ∧
       laneSettled (lnk s) c = true ∧
     ((llOf (after (.laneReq 63 (fl c)) s)).cmdRx.map fun q => (q.wave, q.eff)) = some (15, some 8193) ∧
     laneCheck (lnk s) { c with lane := 13 } = 4 ∧
       (llOf (after (.laneReq 63 (fl { c with lane := 13 })) s)).laneRes = 4 ∧
     (let t := act { okLane with deskewed := false }
      laneSettled (lnk t) c = false ∧ (llOf (after (.laneReq 63 (fl c)) t)).cmdRx = some c) ∧
     (let set := fun (eff : BitVec 16) => flit 3 0 0 0 (lanePayload 3 { c with eff := some eff } 0)
      MgmtArrives 63 (set 256) 3 s ∧ canDrive s 63 c = true ∧
      ((llOf (after (.laneSet 63 (set 256)) s)).cmdTx.map fun q => q.eff) = some (some 256) ∧
      (lnk (after (.laneSet 63 (set 255)) s)).kind = some .full) ∧
     (let r := flit 3 0 0 0 (lanePayload 4 c 2)
      MgmtArrives 63 r 4 (llIn { reqQ := [c] }) ∧ payByte (lanePayload 4 c 2) 1 = 9 ∧
      (llOf (after (.laneRefuse 63 r) (llIn { reqQ := [c] }))).laneRes = 2) ∧
     (llOf (after (.deskewWaitEnd 63) (llIn { cmdRx := some c, rxSlot := 1 }))).cmdRx = some { c with eff := some 8193 } ∧
     (llOf (after (.deskewWaitEnd 63) (act {} { cmdRx := some c }))).laneRes = 1 ∧
     roleAt (lnk (after (.laneMapEffective 63 true) (llIn { cmdTx := some { c with eff := some 7 }, txSlot := 7 }))).laneMap 15 = 12 ∧
     roleAt (lnk (after (.laneMapEffective 63 false) (llIn { cmdRx := some { c with eff := some 7 }, rxSlot := 7 }))).rxMap 13 = 13)
    := by
  unfold MgmtArrives FlitArrives NextInOrder
  decide +kernel

/-- The TAG a receiver expects, in a TAG payload. -/
def tagFlit (t : BitVec 128) : RxFlit := flit 3 0 2 0 (BitVec.ofNat 512 (6 + 2 ^ 16 * t.toNat))

theorem tagFlit_tag (t : BitVec 128) : (flitPayload (tagFlit t).bits).extractLsb' 16 128 = t ∧
    mgmtOp (flitPayload (tagFlit t).bits) = 6 := by
  have h := t.isLt
  constructor
  · apply BitVec.eq_of_toNat_eq
    simp only [tagFlit, flit, Laws.flitPayload_mkFlit, BitVec.extractLsb'_toNat, BitVec.toNat_ofNat,
      Nat.shiftRight_eq_div_pow]
    omega
  · simp only [tagFlit, flit, Laws.flitPayload_mkFlit, mgmtOp, payByte, bitsAt, BitVec.toNat_ofNat]
    omega

/-- A flit with any payload, next in order, arrives on a link where nothing waits. -/
theorem arrives_any (typ seq : Nat) (p : BitVec 512) (s : State) (h : (s.link 63).st = .active) (hc : (s.ll 63).cmdRx = none)
    (hb : (s.link 63).rxBits = []) (hr : (s.ll 63).oldest = 0) (hs : (s.ll 63).syncOn = false)
    (hn : (s.ll 63).nextRx.toNat = seq) (hq : seq < 4096) (hp : purgedWaits (s.ll 63) = false) :
    FlitArrives 63 (flit typ 0 seq 0 p) s ∧ NextInOrder 63 (flit typ 0 seq 0 p) s ∧
      arrivingFlit 63 (flit typ 0 seq 0 p) s = (flit typ 0 seq 0 p).bits := by
  have short : (s.link 63).rxBits.length < 576 := by rw [hb]; decide
  have e := Laws.arrivingFlit_whole 63 (flit typ 0 seq 0 p) s rfl hc short
  refine ⟨⟨h, hc, ?_, ?_⟩, ⟨.inl hs, ?_, hp⟩, e⟩
  · rw [e]; simp [flit]
  · rw [e]; simpa [flit] using hr.symm
  · rw [e]; simpa [flit, Nat.mod_eq_of_lt hq] using hn.symm

def heldFlit : HeldFlit := { vc := 3, hdr := 0xB1, wire := 9, item := { typ := 1, payload := 5, pool := false } }
def tagLl : LL := { encActive := true, openRx := [heldFlit], nextRx := 2 }

theorem tag_arrives (t : BitVec 128) : KeyArrives 63 (tagFlit t) 6 (llIn tagLl) ∧
    arrivingFlit 63 (tagFlit t) (llIn tagLl) = (tagFlit t).bits := by
  obtain ⟨a, b, e⟩ := arrives_any 3 2 (BitVec.ofNat 512 (6 + 2 ^ 16 * t.toNat)) (llIn tagLl) (by decide +kernel)
    (by decide +kernel) (by decide +kernel) (by decide +kernel) (by decide +kernel) (by decide +kernel) (by decide) (by decide +kernel)
  refine ⟨⟨a, b, ?_, ?_⟩, e⟩
  · exact e ▸ (by simp [flit])
  · exact e ▸ (tagFlit_tag _).2

/-- A report of margins arrives. -/
theorem witness_OeEstimates_margin : let p : BitVec 512 := BitVec.ofNat 512 (1 + 2 ^ 256 * 0x1234)
    (63 : LinkId).toNat / 8 = 7 ∧ MgmtArrives 63 (flit 3 0 0 0 p) 1 (llIn {}) ∧
    tabGet (fun _ => 0) ((after (.margin 63 (flit 3 0 0 0 p)) (llIn {})).oe 7).far 127 = 0x1234 := by
  unfold MgmtArrives FlitArrives NextInOrder; decide +kernel

/-- KEY and KEY_SWITCH arrive; a TAG arrives with the right or another value. What `Config.keyState` answers
is open, so its three cases have no witness of their own: for every payload one of the values it answers is met. -/
theorem witness_KeysAndTags :
    KeyArrives 63 (flit 3 0 0 0 5) 5 (llIn {}) ∧ KeyArrives 63 (flit 3 0 0 0 5) 5 (llIn { encActive := true }) ∧
    (let s := llIn { encActive := true, keyNextRx := some (77, 88) }
     KeyArrives 63 (flit 3 0 0 0 7) 7 s ∧ (llOf (after (.keySwitch 63 (flit 3 0 0 0 7)) s)).keyRx = 77 ∧
      (llOf (after (.keySwitch 63 (flit 3 0 0 0 7)) s)).saltRx = 88) ∧
    (let t := Config.gcmTag tagLl.keyRx (nonce tagLl.saltRx tagLl.grpRx) [BitVec.ofNat 544 (heldFlit.hdr.toNat + 2 ^ 32 * heldFlit.wire.toNat)]
     KeyArrives 63 (tagFlit t) 6 (llIn tagLl) ∧
       (flitPayload (arrivingFlit 63 (tagFlit t) (llIn tagLl))).extractLsb' 16 128 = t) ∧
    heldFlit.item.typ ≠ 3 ∧ KeyArrives 63 (tagFlit (rxTag tagLl + 1)) 6 (llIn tagLl) ∧
    (flitPayload (arrivingFlit 63 (tagFlit (rxTag tagLl + 1)) (llIn tagLl))).extractLsb' 16 128 ≠ rxTag tagLl := by
  refine ⟨?_, ?_, ?_, ⟨(tag_arrives _).1, ?_⟩, by decide, (tag_arrives _).1, ?_⟩
  · unfold KeyArrives FlitArrives NextInOrder; decide +kernel
  · unfold KeyArrives FlitArrives NextInOrder; decide +kernel
  · unfold KeyArrives FlitArrives NextInOrder; decide +kernel
  · rw [(tag_arrives _).2]; exact (tagFlit_tag _).1
  · rw [(tag_arrives _).2, (tagFlit_tag _).1]; simp

/-! ### Systems -/

/-- Link 63 ACTIVE to device 5; the manager is device 5, or this device. -/
def sysIn (y : SysS) : State :=
  { linkIn { st := .active, version := true, known := true, partner := { dev := 5 }, laneMap := map15, rxMap := map15 } with
    sys := y }
def ctl (op tag dest origin addr kind data : Nat) : RxFlit :=
    flit 3 0 0 0 (mgmtPayload op tag dest origin addr kind 63 7 data)

theorem witness_WorkerControlFlits :
    (∀ kind ∈ [0, 1, 2], let s := sysIn { mgrKnown := true, mgrDev := 5 }
      let fl := ctl 8 255 0 5 0x3FFFFFFC kind 0x12345678
      MgmtArrives 63 fl 8 s ∧ csrDest (flitPayload fl.bits) = myDev s ∧ csrOrigin (flitPayload fl.bits) = 5 ∧
      csrKind (flitPayload fl.bits) = kind ∧ csrServed s (csrAddr (flitPayload fl.bits)) = true ∧
      csrServed s 0x3FFFFFFD = false ∧ oeWaits s 7 = false ∧ s.sys.ctlHeld = []) := by
  unfold MgmtArrives FlitArrives NextInOrder
  decide +kernel

theorem witness_WorkerControlFlits_csr :
    (let s := sysIn { mgrKnown := true, mgrDev := 5 }
     (((llOf (after (.csrReq 63 (ctl 8 255 0 5 0x3FFFFFFC 0 0)) s)).txQ 0).map fun i => i.payload)
       = [mgmtPayload 9 255 5 0 0x3FFFFFFC 0 0 0 0] ∧
     (((llOf (after (.csrReq 63 (ctl 8 255 0 5 0x3FFFFFFC 2 0)) s)).txQ 0).map fun i => i.payload)
       = [mgmtPayload 9 255 5 0 0x3FFFFFFC 1 0 0 0]) ∧
    (let r : CsrRead := { tag := 255, dev := 5, addr := 0x3FFFFFFC, wide := false, lo := none }
     let s := sysIn { manager := true, reads := [r] }
     let fl := fun (kind : Nat) => ctl 9 255 0 5 0x3FFFFFFC kind 0xFFFFFFFF
     MgmtArrives 63 (fl 0) 9 s ∧ csrTag (flitPayload (fl 0).bits) = 255 ∧
     (after (.csrRsp 63 (fl 0)) s).resp = .val 0xFFFFFFFF ∧ (after (.csrRsp 63 (fl 1)) s).resp = .ur) ∧
    (let r : CsrRead := { tag := 255, dev := 5, addr := 0x101FC, wide := false, lo := none }
     let s := sysIn { manager := true, reads := [r] }
     let fl := ctl 9 255 0 5 0x101FC 0 0x203
     MgmtArrives 63 fl 9 s ∧ (5, 63, 3) ∈ (after (.csrRsp 63 fl) s).sys.linkCounts) := by
  unfold MgmtArrives FlitArrives NextInOrder
  decide +kernel

theorem witness_WorkerControlFlits_notice :
    (∀ kind ∈ [1, 2, 3], let fl := ctl 10 0 0 5 0 kind 0
      MgmtArrives 63 fl 10 (sysIn { manager := true, empties := [(5, 7, none)] })) ∧
    (5, 7, 3) ∈ (after (.sysNotice 63 (ctl 10 0 0 5 0 3 0)) (sysIn { manager := true, linkCounts := [(5, 7, 4)] })).sys.linkCounts ∧
    ((after (.sysNotice 63 (ctl 10 0 0 5 0 1 0)) (sysIn { manager := true })).sys.empties.map fun e =>
      (e.1, e.2.1)) = [(5, 7)] ∧
    (after (.sysNotice 63 (ctl 10 0 0 5 0 2 0)) (sysIn { manager := true, empties := [(5, 7, none)] })).sys.empties = [] := by
  unfold MgmtArrives FlitArrives NextInOrder
  decide +kernel

theorem witness_WorkerControlFlits_relay :
    (∀ e ∈ [(Instr.csrReq, 8), (Instr.csrRsp, 9), (Instr.sysNotice, 10)],
      MgmtArrives 63 (ctl e.2 0 9 5 0 0 0) e.2 (sysIn {}) ∧ MgmtArrives 63 (ctl e.2 0 9 6 0 0 0) e.2 (sysIn {}) ∧
      csrDest (flitPayload (ctl e.2 0 9 5 0 0 0).bits) ≠ myDev (sysIn {}) ∧
      (relayQ (after (e.1 63 (ctl e.2 0 9 5 0 0 0)) (sysIn {})) 7).length = 1 ∧
      ((after (e.1 63 (ctl e.2 0 9 6 0 0 0)) (sysIn {})).frec srcSystem).lastCause = BitVec.ofNat 16 cRelayLoop ∧
      relayRoom 63 (sysIn {}) (flitPayload (ctl e.2 0 9 5 0 0 0).bits) = true) := by
  unfold MgmtArrives FlitArrives NextInOrder
  decide +kernel

/-- The same with the die of OE 7 in replacement, and with its relay queue full. -/
theorem witness_WorkerControlFlits_held :
    (let s := { sysIn {} with pnet := { up.pnet with repl := some { die := 63, site := 71, step := 2 } } }
     oeWaits s 7 = true ∧ relayRoom 63 s (flitPayload (ctl 8 0 9 5 0 0 0).bits) = true ∧
     MgmtArrives 63 (ctl 8 0 9 5 0 0 0) 8 s ∧ (after (.csrReq 63 (ctl 8 0 9 5 0 0 0)) s).sys.ctlHeld.length = 1) ∧
    (let s := sysIn { relay := [(7, List.replicate 32 (9, { typ := 3, payload := 0 }))] }
     relayRoom 63 s (flitPayload (ctl 8 0 9 5 0 0 0).bits) = false ∧ MgmtArrives 63 (ctl 8 0 9 5 0 0 0) 8 s ∧
     (llOf (after (.csrReq 63 (ctl 8 0 9 5 0 0 0)) s)).overrun = 1) := by
  unfold MgmtArrives FlitArrives NextInOrder
  decide +kernel

/-- Chute 9 holds a packet for the intake: the address 0x40, one line, and the line (R299). -/
def intakeIn (n : Nat) : State :=
  { up.setChute 9 { st := .enabled, depth := 4, stack := true, base := 0x900, wp := 2, cp := 2, tags := [(0, 0x7F), (1, 0xBF)] } with
    ms := { up.ms with mem := (if n = 0 then [(0x900, 0x40)] else [(0x900, 0x40), (0x908, BitVec.ofNat 8 n)]) ++ [(0x940, 0x99)] },
    sys := { intakeEn := true, intakeChute := 9 } }

/-- The same while the die of the hub that holds 0x40 is replaced. -/
def intakeHeld : State :=
  let d := BitVec.ofNat 6 (hubDie (hubOf up 0x40))
  { intakeIn 1 with pnet := { up.pnet with repl := some { die := d, site := 0, step := 2 } } }

theorem witness_ManagerAccesses :
    CoreOpen up ∧ PfOpen up ∧
    (let s := sysIn { manager := true }
     bar2Dev 0x3FFFFFFC = 0 ∧ (0x3FFFFFFC : BitVec 36).toNat % 4 = 0 ∧ CoreOpen s ∧
     (after (.bar2Read 0x3FFFFFFC false) s).resp = .val 0 ∧ (0x3FFFFFF8 : BitVec 36).toNat % 8 = 0 ∧
     (after (.bar2Read 0x3FFFFFF8 true) s).resp = .val 0 ∧
     (after (.bar2Write 0x3FFFFFF8 0x100000002 true) s).resp = .ok ∧
     reachOf s 5 = 1 ∧ bar2Dev 0x17FFFFFF8 = 5 ∧
     (∀ w ∈ [false, true], (after (.bar2Read 0x17FFFFFF8 w) s).resp = .none ∧
       (after (.bar2Read 0x17FFFFFF8 w) s).sys.reads.length = 1) ∧
     reachOf s 63 = 0 ∧ bar2Dev 0xFC0000000 = 63 ∧ (after (.bar2Read 0xFC0000000 false) s).resp = .val 0xFFFFFFFF ∧
     (after (.bar2Read 0x17FFFFFFA false) s).resp = .ur ∧
     (after (.bar2Read 0x17FFFFFF8 false) (sysIn {})).resp = .ur) ∧
    (let r : CsrRead := { tag := 255, dev := 5, addr := 0, wide := false, lo := none }
     let s := sysIn { manager := true, reads := List.replicate 32 r }
     (after (.bar2Read 0x17FFFFFF8 false) s).sys.stalled.length = 1 ∧
     (after (.csrReadTimeout 255) (sysIn { reads := [r], dropped := 0xFFFF })).sys.dropped = 0xFFFF ∧
     (after (.csrReadTimeout 255) (sysIn { reads := [r] })).resp = .val 0xFFFFFFFF) ∧
    (after (.sysStatusWrite 5) { up with sys := { twoMgr := true, dup := true, shuffle := true } }).sys.dup = true ∧
    (after .sysStatusRead { up with sys := { dup := true, dropped := 3 } }).resp = .val 0x30002 := by
  refine ⟨?_, pfOpen_up, ?_⟩
  · unfold CoreOpen Served; decide +kernel
  · unfold CoreOpen Served; decide +kernel

theorem witness_ManagerAccesses_intake :
    (intakeIn 1).sys.intakeEn = true ∧ wipeComplete (intakeIn 1) = true ∧ ((intakeIn 1).chute 9).ready ≠ 0 ∧
    chuteWaits (intakeIn 1) 9 = false ∧ chuteWaits intakeHeld 9 = false ∧ wipeComplete intakeHeld = true ∧
    (let r := takePacket intakeHeld 9 1024
     intakeRange intakeHeld r.2.1 = some 0x40 ∧ reqWaits intakeHeld 0x40 (r.2.1.length - 64) = true) ∧
    (let r := takePacket (intakeIn 1) 9 1024
     intakeRange (intakeIn 1) r.2.1 = some 0x40 ∧ reqWaits (intakeIn 1) 0x40 (r.2.1.length - 64) = false ∧
       r.2.2 = false ∧ PlainSpan r.1 0x40 (r.2.1.length - 64)) ∧
    (after .intakePacket (intakeIn 1)).byteAt 0x40 = 0x99 ∧
    (let r := takePacket (intakeIn 0) 9 1024
     intakeRange (intakeIn 0) r.2.1 = none) ∧
    ((after .intakePacket (intakeIn 0)).frec srcSystem).lastCause = BitVec.ofNat 16 cIntake := by
  unfold PlainSpan
  decide +kernel

/-! ### The host interface -/

def hostIn (h : HostS) : State := { up with host := h }
/-- A function table with every function ENABLED, VF Enable set. -/
def allOn : HostS :=
  { linkUp := true, portOn := true, vfEnable := true, devState := 1,
    fns := (List.range 16).map fun n => (n, { st := .enabled, pens := BitVec.ofNat 64 (2 ^ n), memBase := 64, memSize := 64 }) }

theorem witness_HostPort :
    (let s := { hostIn { portOn := true } with tack := { up.tack with image := some { cxlEn := true } } }
     s.host.linkUp = false ∧ s.pins.refclk = true ∧ (after (.pcieLinkUp 64 16 true) s).host.speed = 3 ∧
       (after (.pcieLinkUp 64 16 true) s).host.cxl = true ∧
     (after (.pcieLinkUp 31 16 true) s).host.cxl = false ∧ (after (.pcieLinkUp 32 16 true) s).host.speed = 2) ∧
    ((after .pcieLinkDown (hostIn allOn)).fn 15).st = .disabling ∧
      ((after .hotReset (hostIn allOn)).fn 15).st = .disabled ∧
    ((after (.flr 0) (hostIn allOn)).fn 15).st = .disabling ∧ ((after (.flr 15) (hostIn allOn)).fn 14).st = .enabled ∧
    ((after .vfEnableClear (hostIn allOn)).fn 0).st = .enabled ∧
    ((after .vfEnableSet up).fn 15).st = .enabled ∧
    (after (.perstN true) { up with pins := { up.pins with perstN := false } }).pins.perstN = true ∧
    (∀ w ∈ [false, true], let s := { up with tack := { up.tack with perstWarm := w } }
      s.tack.hold = false ∧ s.therm.shutdown = false ∧ (after (.perstN false) s).host.linkUp = w) ∧
    (after (.perstN false) { up with tack := { up.tack with hold := true, perstWarm := true } }).tack.readyNow = true ∧
    ((after (.perstN false) { hostIn allOn with tack := { up.tack with everReady := false } }).fn 15).st = .disabled ∧
    ideDiscards (hostIn allOn) 15 = false ∧
    (after (.perstN false) { up with tack := { up.tack with everReady := false } }).host.linkUp = false ∧
    (after (.configRequest 0 0 none) (hostIn {})).resp = .none ∧ (after (.configRequest 15 0xFFF none) up).resp = .ur ∧
    (after (.configRequest 15 0xFFF (some 5)) (hostIn allOn)).resp = .ok := by decide +kernel

theorem witness_FunctionCommands :
    FnReach 0 15 (hostIn allOn) ∧ FnReach 15 15 (hostIn allOn) ∧
    (let s := fun (x : Fn) => hostIn { allOn with fns := [(15, x)] }
     let big : Fn := { gbase := 255, gcount := 1, memBase := 0 }
     enableOk (s big) 15 = true ∧ FnReach 0 15 (s big) ∧ ((after (.funcEnable 0 15) (s big)).fn 15).st = .enabled ∧
     big.chuteLo ≤ 65535 ∧ 65535 < big.chuteHi ∧ ((after (.funcEnable 0 15) (s big)).chute 65535).func = 15 ∧
     ((after (.funcEnable 0 15) (s big)).chute 65279).func = 0 ∧
     enableOk (s { memSize := 0xFFFFFFFFFFFFFFFF }) 15 = false ∧
     ((after (.funcEnable 0 15) (s { memSize := 0xFFFFFFFFFFFFFFFF })).fn 15).result = 1 ∧
     ((after (.funcEnable 0 0) (s {})).fn 0).result = 2 ∧ ((after (.funcDisable 0 0) (s {})).fn 0).st = .disabling ∧
     ((after (.funcDisable 0 15) (s {})).fn 15).result = 2 ∧
     ((after (.wipe 0 15) (s { memBase := 64, memSize := 64 })).fn 15).wipe = some (64, 128) ∧
     ((after (.wipe 0 15) (s { st := .enabled })).fn 15).result = 2 ∧
     ((after (.funcBadOp 0 15 4) (s {})).fn 15).result = 3 ∧
     ((after (.hostEvqHeadWrite 0 15 4) (s { evqLog2 := 4, tail := 20 })).fn 15).head = 4 ∧
     ((after (.hostEvqHeadWrite 0 15 3) (s { evqLog2 := 4, tail := 20 })).fn 15).head = 0 ∧
     ((after (.hostEvqStatusWrite 0 15 1) (s { ovf := true })).fn 15).ovf = false ∧
     (after (.hostEvqStatusRead 0 15) (s { ovf := true, dropped := 2 })).resp = .val 0x20001) ∧
    (after .hostDeniedRead (hostIn { allOn with denied := 9 })).resp = .val 9 ∧
    (let t : State := { hostIn { allOn with fns := [(15, { wipe := some (65, 67) })] } with
       ms := { up.ms with mem := [(64, 1), (65, 2), (66, 3), (67, 4)] } }
     reqWaits t 65 2 = false ∧ (after (.wipeDone 15) t).ms.mem = [(64, 1), (67, 4)] ∧ 66 < memTop t ∧
     (let u := { t with pnet := intakeHeld.pnet }
      reqWaits u 65 2 = true ∧ ((after (.wipeDone 15) u).fn 15).wipe = some (65, 67))) ∧
    (let s := hostIn { allOn with fns := [(15, { st := .disabling, tail := 3 })] }
     disableSettled s 15 = true ∧ ((after (.funcDrainComplete 15) s).fn 15).tail = 0 ∧
     ((after (.funcDrainLimitExpiry 15) s).fn 15).st = .disabled) := by
  unfold FnReach Served
  decide +kernel

/-- A DMA descriptor (R332): host address, device address, length, operation, EVENT. -/
def descr (host dev len op ev : Nat) : BitVec 256 :=
  BitVec.ofNat 256 (host + 2 ^ 64 * dev + 2 ^ 128 * len + 2 ^ 160 * op + 2 ^ 168 * ev)
/-- Channel 31 with one descriptor to start. -/
def dmaIn (x : Dma) : State := hostIn { allOn with fns := [], dmas := [(31, { x with en := true, tail := x.head + 1 })] }

theorem witness_DmaDescriptors :
    (after (.dmaTailWrite 0 31 9) (dmaIn {})).dma 31 = { en := true, tail := 9 } ∧
      dmaMay (dmaIn { head := 0xFFFFFFFF }) 31 = true ∧
    chanOwner (dmaIn {}) 31 = 0 ∧ ideDiscards (dmaIn {}) 0 = false ∧ barsOpen (dmaIn {}) 0 = true ∧
    (∀ op ∈ [1, 2], dmaMalformed (descr 0x1000 0x40 64 op 0) = false ∧ dOp (descr 0x1000 0x40 64 op 0) = op ∧
      dmaRange (dmaIn {}) 0 0x40 64 = true ∧ dmaMalformed (descr 0x1000 0x40 63 op 0) = true) ∧
    PlainSpan (dmaIn {}) 0x40 64 ∧ memBusy (dmaIn {}) 0x40 64 = false ∧
    (let s := { dmaIn {} with pnet := intakeHeld.pnet }
     dmaMay s 31 = true ∧ memBusy s 0x40 64 = true ∧
       ((after (.h2d 31 (descr 0x1000 0x40 64 1 0) [0x77]) s).dma 31).st = 2) ∧
    (after (.h2d 31 (descr 0x1000 0x40 64 1 0) [0x77]) (dmaIn {})).byteAt 0x40 = 0x77 ∧
    dmaRange (dmaIn {}) 0 0xFFFFFFFFFFFFFFC0 64 = false ∧
    (((after (.h2d 31 (descr 0 0xFFFFFFFFFFFFFFC0 64 1 0) [0]) (dmaIn {})).dma 31).cur.map fun x => x.status) = some 2 ∧
    (((after (.h2d 31 (descr 0 0 63 1 0) [0]) (dmaIn {})).dma 31).cur.map fun x => x.status) = some 5 ∧
    (((after (.h2d 31 (descr 0 0 64 5 0) [0]) (dmaIn {})).dma 31).cur.map fun x => x.status) = some 5 ∧
    (let s := { dmaIn {} with ms := { up.ms with mem := [(0x40, 0x66)] } }
     tabGet memDefault (after (.d2h 31 (descr 0x1000 0x40 64 2 0)) s).hostMem 0x1000 = 0x66) ∧
    (let s := (dmaIn {}).setChute 65535 { st := .enabled, depth := 4, stack := true }
     let d := descr 0 65535 17 3 0
     isLocal s 65535 = true ∧ funcMay s 65535 0 = true ∧ chuteHeld s 63 = true ∧ dmaMalformed d = false ∧
       (s.chute 65535).st = .enabled ∧
     (((after (.h2c 31 d [1, 2]) s).dma 31).cur.map fun x => (x.status, x.done)) = some (1, 17) ∧
     ((after (.h2c 31 d [1, 2]) s).chute 65535).cp = 1 ∧
     (((after (.h2c 31 d [1, 2]) (dmaIn {})).dma 31).cur.map fun x => x.status) = some 2 ∧
     isLocal s (BitVec.ofNat 22 (2 ^ 16 * 5)) = false ∧
       chuteReady s (dmaSource s 31) (BitVec.ofNat 22 (2 ^ 16 * 5)) = false ∧
     ((after (.h2c 31 (descr 0 (2 ^ 16 * 5) 17 3 0) [1, 2]) s).dma 31).st = 2) ∧
    (let x : Chute := { st := .enabled, depth := 4, stack := true, base := 0x100, wp := 1, cp := 1, tags := [(0, 0xFF)] }
     let s := (dmaIn {}).setChute 65535 x
     let r := takePacket s 65535 1024
     r.2.1.length = 64 ∧ r.2.2 = false ∧ chuteWaits s 65535 = false ∧ (s.chute 65535).func.toNat = 0 ∧
       (s.chute 65535).penValid = false ∧ (s.chute 65535).ready ≠ 0 ∧
     (((after (.c2h 31 (descr 0x1000 65535 63 4 0)) s).dma 31).cur.map fun x => (x.status, x.done)) = some (3, 63) ∧
     (((after (.c2h 31 (descr 0x1000 65535 64 4 0)) s).dma 31).cur.map fun x => (x.status, x.done)) = some (1, 64) ∧
     ((after (.c2h 31 (descr 0x1000 65534 64 4 0)) s).dma 31).st = 2) ∧
    (let s := dmaIn { head := 15, ring := 0x1000, cur := some { desc := descr 0 0 64 1 1, status := 1, done := 64 } }
     dmaWaiting s 31 = false ∧ ((after (.dmaDescriptorComplete 31) s).dma 31).head = 16 ∧
     tabGet memDefault (after (.dmaDescriptorComplete 31) s).hostMem (0x1000 + 32 * 15 + 24) = 1) := by
  unfold PlainSpan
  decide +kernel

/-! ### Reset, boot, flash and security -/

/-- A device at a boot step, its supplies good, at rest before it. -/
def bootAt (k : Nat) : State :=
  { State.reset with pins := { coldResetN := true }, tack := { step := BitVec.ofNat 4 k, mainGood := true } }
def finding (hs : List Hub) : BootFinding :=
  { tackFailed := false, hostFailed := false, holdMv := 12000, failedSites := [], failedStalls := [], failedStacks := hs,
    modules := [] }

theorem witness_ResetsAndBoot :
    ¬ (1 ≤ up.pwr.saving) ∧ (after (.coldReset true) up).tack.step = 0 ∧ (after (.coldReset true) up).tack.cause = 1 ∧
    (∀ k ∈ [1, 4], let s := { up with time := 9, pwr := { saving := k } }
      s.pwr.sagAt ≠ s.time ∧
      (after (.coldReset true) s).tack.coldDue = true ∧ (after (.coldReset true) s).tack.step = 10 ∧
      (after (.coldReset false) s).tack.step = 0) ∧
    (after (.coldReset true) { up with pwr := { saving := 5 } }).tack.step = 0 ∧
    (after (.coldResetNRelease true) State.reset).tack.step = 1 ∧
      (after (.coldResetNRelease true) State.reset).pins.mgrSel = true ∧
    CoreOpen up ∧ (after (.tackResetWarm 0x5A01) up).tack.cause = 2 ∧
      (after (.tackResetWarm 0x5A01) up).host.linkUp = true ∧
    (∀ v ∈ [0x5A02, 0x5B01], (after (.tackResetWarm (BitVec.ofNat 32 v)) up).tack.step = 10) ∧
    (∀ due ∈ [(true, 1), (false, 16)], let s := { up with tack := { up.tack with hold := true, coldDue := due.1 } }
      (after .saveHoldExit s).tack.cause = BitVec.ofNat 6 due.2 ∧ (after .saveHoldExit s).tack.hold = false) := by
  unfold CoreOpen Served
  decide +kernel

/-- The step after a finding, its result, and DEV_STATE. -/
def bootRes (o : BootFinding) (s : State) : Nat × Nat × Nat :=
  let t := after (.bootStepDone o) s
  (t.tack.step.toNat, t.tack.result.toNat, t.host.devState.toNat)

/-- A slot is accepted only where `Config.ecdsaVerify` and `Config.sha384` say so, which is open: the clause of step 2
with a slot has no witness of its own. -/
theorem witness_ResetsAndBoot_steps :
    deviceUp (bootAt 1) = true ∧ lcState (bootAt 1) = 1 ∧ bootRes (finding []) (bootAt 1) = (2, 0, 0) ∧
    bootRes (finding []) { bootAt 1 with pins := { coldResetN := true, refclk := false } } = (1, 2, 0) ∧
    chooseSlot (discoverFlash (bootAt 2)) = none ∧ bootRes (finding []) (bootAt 2) = (2, 1, 2) ∧
    bootRes (finding []) (bootAt 3) = (4, 0, 0) ∧ bootRes (finding []) (bootAt 4) = (5, 0, 0) ∧
    bootRes { finding [] with tackFailed := true } (bootAt 5) = (5, 4, 2) ∧
    (let s := after (.bootStepDone (finding [])) (bootAt 4)
     s.pnet.repl = none ∧ s.pnet.queue = [] ∧ (∀ d, d < 64 → s.held d = true) ∧ (wantBasis s).cutOff = [] ∧
       bootRes (finding []) s = (6, 0, 0)) ∧
    ((List.range 24).filter fun h => decide (h ∈ (bootAt 6).tack.cal.lostStacks) ||
      !(bootAt 6).held (hubDie h)).length = 0 ∧
    bootRes (finding [0, 1, 2, 23]) (bootAt 6) = (7, 0, 0) ∧
    ((after (.bootStepDone (finding [0, 1, 2, 23])) (bootAt 6)).hub 23).st = .excluded ∧
    bootRes (finding [0, 1, 2, 3, 4]) (bootAt 6) = (6, 3, 2) ∧
    (∀ k ∈ [7, 8], (∀ e, e < 8 → ((bootAt k).oe e).st ≠ .lasers ∧ ((bootAt k).oe e).st ≠ .rings) ∧
      bootRes (finding []) (bootAt k) = (k + 1, 0, 0)) ∧
    bootRes (finding []) (bootAt 9) = (10, 0, 1) := by decide +kernel

def tackIn (t : Tack) : State := { up with tack := { t with step := 10, readyNow := true, everReady := true, mainGood := true } }

theorem witness_FlashAndSecurity :
    CoreOpen (tackIn {}) ∧ flashLenOk (tackIn { flashLen := 0x1000000 }) = true ∧
      flashLenOk (tackIn { flashLen := 0x1000001 }) = false ∧
    (after (.flashWrite 1) (tackIn { flashLen := 4096 })).tack.flashCmd.isSome = true ∧
    (after (.flashWrite 0) (tackIn {})).tack.flashRes = 1 ∧
      (after (.flashWrite 1) (tackIn { flashLen := 0x1000001 })).tack.flashRes = 5 ∧
    (after (.flashWrite 2) (tackIn {})).tack.flashRes = 4 ∧
    (after (.flashRead 4 15) (tackIn { flashLen := 4096 })).tack.flashCmd.isSome = true ∧
    (after (.flashRead 4 16) (tackIn { flashLen := 4096 })).tack.flashRes = 5 ∧
    (after (.flashRead 5 0) (tackIn {})).tack.flashRes = 4 ∧ (after (.flashBadOp 15) (tackIn {})).tack.flashRes = 4 ∧
    (let c : FlashCmd := { write := false, target := 1, offset := 0, addr := 64, len := 2 }
     let s := tackIn { flashCmd := some c }
     (after (.flashWrite 1) s).tack.flashRes = 1 ∧ (after (.flashCommandDone true) s).tack.flashRes = 3 ∧
     memBusy s 64 2 = false ∧ flashFitted s = true ∧
     (let w := { s with ms := {} }
      memBusy w 64 2 = true ∧ (after (.flashCommandDone true) w).tack.flashCmd = some c) ∧
     (let w := { s with spi0 := {} }
      flashFitted w = false ∧ memBusy w 64 2 = false ∧ (after (.flashCommandDone false) w).tack.flashRes = 3) ∧
     PlainSpan s 64 2 ∧ (after (.flashCommandDone false) s).byteAt 65 = 0xFF ∧
     (let w := tackIn { flashCmd := some { c with write := true } }
      PlainSpan w 64 2 ∧ slotImage { w with flash := flashStore w.flash 0x01000000 [0, 0] } 0x01000000 (leastSvn w) = none ∧
      (after (.flashCommandDone false) w).tack.flashRes = 2)) := by
  unfold CoreOpen PlainSpan Served
  decide +kernel

/-- The identity store with one valid copy of an empty body. -/
def idFlash : Tab Byte :=
  let b := regionBase 4 0
  ([0x54, 0x53, 0x43, 0x4C] : List Byte).zipIdx.map (fun e => (b + e.2, e.1))
    ++ (List.range 12).map (fun i => (b + 4 + i, (0 : Byte)))
    ++ ([0xA5, 0xA5, 0x5A, 0x5A] : List Byte).zipIdx.map (fun e => (b + 0xFFFC + e.2, e.1))

theorem witness_FlashAndSecurity_stores :
    let s := tackIn { flashCmd := some { write := false, target := 4, offset := 0, addr := 64, len := 4 } }
    newestCopy s 4 = none ∧ (after (.flashCommandDone false) s).tack.flashRes = 3 ∧ flashFitted s = true ∧
    memBusy s 64 4 = false ∧ PlainSpan s 64 4 ∧ newestCopy { s with flash := idFlash } 4 = some 0 ∧
    (after (.flashCommandDone false) { s with flash := idFlash }).byteAt 67 = 0x4C := by
  unfold PlainSpan; decide +kernel

/-- While a security command waits for its token, and one whose token memory cannot give yet. -/
theorem witness_FlashAndSecurity_waits :
    (after .advanceSvn (tackIn { secBusy := true })).tack.secRes = 1 ∧
    (let s := { tackIn { fuses := { lc := 0xF } } with ms := {} }
     lcState s = 2 ∧ memBusy s s.tack.token.toNat 112 = true ∧ lcAllowed s 3 = true ∧ (lcKey s 3).isSome = true ∧
     (after (.lcAdvance 3) s).tack.secBusy = true ∧ (after .debugUnlock s).tack.secWait = some (2, 0)) :=
       by decide +kernel

/-- A token verifies only where `Config.ecdsaVerify` says so, which is open: the clauses of a good token have no
witness of their own. -/
theorem witness_FlashAndSecurity_lifeCycle :
    lcAllowed (tackIn {}) 3 = false ∧ (after (.lcAdvance 3) (tackIn {})).tack.secRes = 1 ∧
    (let s := tackIn {}
     lcAllowed s 2 = true ∧ lcKey s 2 = none ∧ lcState (after (.lcAdvance 2) s) = 2 ∧
       (after (.lcAdvance 2) s).tack.cause = 8) ∧
    (let s := tackIn { fuses := { lc := 0 } }
     lcAllowed s 1 = true ∧ (lcKey s 1).isSome = true) ∧
    lcState (tackIn {}) ≠ 2 ∧ (after .debugUnlock (tackIn {})).tack.secRes = 1 ∧
    (let s := tackIn { fuses := { lc := 0xF } }
     lcState s = 2 ∧ (tokenOk s 7 s.tack.fuses.keyHash).2 = false ∧ (after .debugUnlock s).tack.secRes = 2 ∧
     lcAllowed s 3 = true ∧ (tokenOk s 3 s.tack.fuses.keyHash).2 = false ∧ (after (.lcAdvance 3) s).tack.secRes = 2) ∧
    inReady (tackIn {}) = true ∧ (after .advanceSvn (tackIn { runSvn := 96 })).tack.fuses.svn = 96 ∧
    (after (.secBadOp 4) (tackIn {})).tack.secRes = 3 ∧ (after (.secBadOp 0) (tackIn {})).tack.secRes = 3 ∧
    (∀ i ∈ [(TapInstr.idcode, TapInstr.idcode), (.extest, .bypass), (.other, .bypass)],
      (after (.tapInstruction i.1 false) (tackIn {})).tack.tap = .bypass ∧
        (after (.tapInstruction i.1 true) (tackIn { fuses := { lc := 0xF } })).tack.tap = i.2) ∧
    deviceUp up = true ∧ (after (.spdmRequest [0x10]) (bootAt 2)).resp = .none ∧
    (after (.smbusRequest 0x6B []) up).resp = .none ∧ (after (.smbusRequest 0x6A []) State.reset).resp = .none ∧
    ((after (.hostIdeFail 4 0x77) { up with host := { ide := [(4, 1)] } }).frec srcHost).addr = 0x77 ∧
    tabGet (fun _ => 0) (after (.hostIdeFail 4 0x77) { up with host := { ide := [(4, 1)] } }).host.ide 4 = 2 :=
      by decide +kernel

/-! ### Power and heat -/

/-- A device with its mesh as after boot: every die holds its own number. -/
def booted : State := after (.bootStepDone (finding [])) (after (.bootStepDone (finding [])) (bootAt 4))

theorem witness_PowerAndSave :
    (after .pvMainGood { up with tack := { step := 3 } }).tack.mainGood = true ∧
    (after (.regulatorOutOfRange 35) up).flt.failed = true ∧ (after (.regulatorOutOfRange 36) up).host.linkUp = false ∧
    (let s := booted
     ∃ d, s.dieAt 0 = some d ∧ s.held d = true ∧ s.siteOf d = 0 ∧ (s.site 0).st = .active ∧ (s.site 0).powered = true) ∧
    ((after (.regulatorOutOfRange 0) booted).site 0).st = .retiring ∧ (State.reset.site 71).powered = false ∧
    ((after (.regulatorOutOfRange 72) up).hub 0).st = .lost ∧ ((after (.regulatorOutOfRange 95) up).hub 23).st = .lost ∧
    (up.hub 23).st = .online ∧ up.ms.waiting = [] ∧ up.ms.bells = [] ∧
    (let s := up.setOe 7 { st := .ready }
     ((after (.regulatorOutOfRange 103) s).oe 7).st = .lost ∧
       ((after (.regulatorOutOfRange 111) s).oe 7).laserOn = false) ∧
    (∀ p ∈ [(1815000, 8), (1814999, 1), (1650000, 0), (1600501, 0), (1600499, 0)],
      let w := after (.powerEvaluation p.1 1 2 3) up
      w.pwr.lp = BitVec.ofNat 6 p.2) ∧
    (after (.powerEvaluation 1600499 1 2 3) { up with pwr := { lp := 5, sinceRise := 9 } }).pwr.lp = 4 ∧
    (after (.powerEvaluation 1600500 1 2 3) { up with pwr := { lp := 5, sinceRise := 9 } }).pwr.lp = 5 ∧
    (after (.powerEvaluation 1600499 1 2 3) { up with pwr := { lp := 5, sinceRise := 8 } }).pwr.lp = 5 ∧
    (after .pwrOverLimit { up with pwr := { at56 := 1000 } }).pwr.overRaised = true ∧
    (after .pwrOverLimit { up with pwr := { at56 := 999 } }).pwr.overRaised = false ∧
    (∀ v ∈ [(799, 800), (1651, 1650), (1234, 1234)],
      (after (.pwrLimitWrite (BitVec.ofNat 32 v.1)) up).pwr.limit = BitVec.ofNat 11 v.2) ∧
    (∀ k ∈ [(2, 5), (3, 2)], (after (.supplySag 1) (bootAt k.1)).pwr.saving = k.2 ∧
      (after (.supplySag 1) (bootAt k.1)).pins.pwrOk = false) ∧
    (∀ f ∈ ({ up with pwr := { saving := 2, shadow := [(0x4DFC, 4, 9)] } } : State).pwr.shadow, f.1 + f.2.1 ≤ 0x4E00) ∧
    (after .pvHoldExhausted { up with pwr := { saving := 2 } }).pwr.saveRes = 2 ∧
    (after .pvHoldExhausted up).pins.holdOff = true ∧
    ((after (.supplySag 1) up).pwr.sagReason = 1 ∧ (after (.supplySag 1) up).pwr.saving = 2) ∧
    (∀ off ∈ [false, true], let s := { up with pins := { up.pins with holdOff := off }, pwr := { saving := 2, sagReason := 2 } }
      s.pwr.shadow = [] ∧ (after .saveComplete s).pwr.saveRes = (if off then 2 else 1) ∧
      (after .saveComplete s).pwr.saveReason = 2) ∧
    (after (.supplySag 3) up).pwr.saving = 0 ∧
      (after (.supplySag 0) { up with pwr := { saving := 2 } }).tack.mainGood = false ∧
    ((after (.regulatorOutOfRange 36) { up with sys := { manager := false } }).site 36).powered = false ∧
    ((after (.regulatorOutOfRange 103) (up.setOe 7 { st := .off })).oe 7).st = .lost ∧
    (after (.supplySag 2) { up with pwr := { saving := 2 } }).pins.auxOff = true ∧
    (after (.supplySag 0) { up with pwr := { saving := 2 } }).pwr.saving = 2 ∧
    deviceUp up = true ∧ 3 ≤ up.tack.step.toNat := by decide +kernel

/-- A device with one site powered, its two diodes with a state of their own. -/
def hotIn (q : Nat) (y : Sensor) (lt : BitVec 6) (cool : Nat) : State :=
  { State.reset with
    therm := { chans := [(2 * q, y), (2 * q + 1, y)], lt := lt, cool := cool },
    pnet := { sites := [(q, { SiteS.resetAt q with powered := true })] } }

theorem witness_ThermalScans :
    (let s := hotIn 71 {} 0 0
     let t := after (.thermalScan [(142, 5000), (143, -3000)] []) s
     s.therm.shutdown = false ∧ s.pwr.saving = 0 ∧ chanOn s 142 = true ∧ unitPowered s 71 = true ∧
     (t.sensor 142).temp = 2047 ∧ (t.sensor 143).temp = -2048) ∧
    (let at_ := fun (x : Int) (lt : BitVec 6) (cool : Nat) =>
       after (.thermalScan [(0, x), (1, x)] []) (hotIn 0 { temp := x, st := 0 } lt cool)
     ((at_ 824 0 0).sensor 0).st = 0 ∧ (at_ 824 0 0).therm.tHot = 824 ∧ (at_ 824 0 0).therm.lt = 16 ∧
     ((at_ 824 0 0).unit 0).temp = 824 ∧ ((at_ 824 0 0).unit 0).band = 4 ∧
     (at_ 823 0 0).therm.lt = 4 ∧ (at_ 776 0 0).therm.lt = 4 ∧ (at_ 775 5 0).therm.lt = 5 ∧ (at_ 752 5 9).therm.lt = 5 ∧
     (at_ 751 5 9).therm.lt = 3 ∧ (at_ 751 5 9).therm.holds = [] ∧ (at_ 751 5 8).therm.lt = 5) ∧
    (let s := hotIn 0 { temp := 880, st := 0, hot := 1 } 0 0
     (after (.thermalScan [(0, 880), (1, 880)] []) s).therm.shutdown = true ∧
     (after (.thermalScan [(0, 879), (1, 879)] []) s).therm.shutdown = false ∧
     s.flt.failed = false ∧ ((after (.thermalScan [(0, 880), (1,
       880)] []) (s.setPen 63 { st := .ready })).pen 63).st = .faulted) ∧
    (let s := (hotIn 0 {} 0 0).setOe 7 { band := 2, cool := 9 }
     ((after (.thermalScan [] []) s).oe 7).cool = 10 ∧
     ∀ t ∈ oeReadings (after (.thermalScan [] []) s) 7, t ≤ bandEdge 2 - 24) := by decide +kernel

/-! ### Faults, injections and self-tests -/

def fltIn (f : Flt) : State := { up with flt := f }

theorem witness_FaultRecords :
    reportKnown 0x0FFF cMangerUc = true ∧
    (let r : FRec := { valid := true, cls := 2, count := 0xFFFF, cause := 0x102, conds := [5] }
     let a := fun (s : State) => (after (.faultReport 0x0FFF (BitVec.ofNat 16 cMangerUc) 9) s).frec 0x0FFF
     causeClass false cMangerUc = 2 ∧ (a (fltIn {})).cls = 2 ∧ (a (fltIn {})).count = 1 ∧ (a (fltIn {})).addr = 9 ∧
     (a (fltIn { recs := [(0x0FFF, r)] })).cls = 3 ∧ (a (fltIn { recs := [(0x0FFF, r)] })).count = 0xFFFF ∧
     (a (fltIn { recs := [(0x0FFF, { r with acked := true })] })).cls = 2 ∧
     (a (fltIn { recs := [(0x0FFF, { r with cls := 1 })] })).cls = 2 ∧
     (after (.faultReport 0x0FFF (BitVec.ofNat 16 cMangerUc) 9) (fltIn { head := 0xFFFFFFFF })).flt.head = 0 ∧
     PfOpen (fltIn {}) ∧ bitsAt (0xFFFF : Reg32).toNat 0 16 = r.count.toNat ∧
     (after (.faultAck 0x0FFF 0xFFFF) (fltIn { recs := [(0x0FFF, r)] })).frec 0x0FFF = { r with acked := true } ∧
     (after (.faultAck 0x0FFF 0xFFFF) (fltIn { recs := [(0x0FFF, { r with conds := [] })] })).flt.recs = [] ∧
     (after (.faultAck 0x0FFF 1) (fltIn { recs := [(0x0FFF, r)] })).frec 0x0FFF = r ∧
     (after (.conditionEnd 0x0FFF 5) (fltIn { recs := [(0x0FFF, { r with acked := true })] })).flt.recs = [] ∧
     (after (.conditionEnd 0x0FFF 5) (fltIn { recs := [(0x0FFF, r)] })).frec 0x0FFF = { r with conds := [] } ∧
     (after (.conditionEnd 0x0FFF 6) (fltIn { recs := [(0x0FFF, r)] })).frec 0x0FFF = r) ∧
    (∀ c ∈ [cBootImage], reportKnown 0x1A40 c = true ∧ causeClass false c = 3 ∧
      (after (.faultReport 0x1A40 (BitVec.ofNat 16 c) 0) up).flt.failed = true) ∧
    (reportKnown srcTherm cShutdown = true ∧ causeClass false cShutdown = 3 ∧ up.therm.shutdown = false ∧
      up.pwr.saving = 0 ∧
      (after (.faultReport (BitVec.ofNat 16 srcTherm) (BitVec.ofNat 16 cShutdown) 0) up).therm.shutdown = true) ∧
    (let s := up.setOe 7 { st := .ready }
     reportKnown (srcOe 7) cOeLost = true ∧ causeClass false cOeLost < 3 ∧ (s.oe (srcOe 7 - srcOe 0)).st = .ready ∧
     ((after (.faultReport (BitVec.ofNat 16 (srcOe 7)) (BitVec.ofNat 16 cOeLost) 0) s).oe 7).st = .lost) ∧
    ((fltIn {}).bucket 0).leak ≠ 0 ∧ ((fltIn {}).bucket 7).leak = 0 ∧
    (after (.bucketLeak 0 0x0FFF) (fltIn { levels := [(0x0FFF, 2)] })).flt.levels = [(0x0FFF, 1)] ∧
    (after (.faultHeartbeat 1) (fltIn { hbLost := true })).flt.hbLost = false ∧
      (after .heartbeatLost up).flt.hbLost = true := by
  unfold PfOpen Served
  decide +kernel

theorem witness_InjectionsAndTests :
    PfOpen up ∧
    (let f : Flt := { injSource := 0x0FFF, injChecker := 1 }
     checkerBits f.injSource.toNat f.injChecker.toNat = some 2 ∧ checkerBits 0x0FFF 15 = none ∧
       injRefused (fltIn f) = false ∧
     (after (.injectOnce 0xFF) (fltIn f)).flt.injShown = 3 ∧ (after (.injectDisarm 0xFE) (fltIn f)).flt.injShown = 2 ∧
     (after (.injectDisarm 0xFE) (fltIn { f with injChecker := 15 })).flt.injShown = 0 ∧
     (after (.injectContinuous 1) (fltIn { f with injChecker := 15 })).flt.injResult = 2 ∧
     (let s := { fltIn f with tack := { up.tack with fuses := { lc := 0xF } } }
      injRefused s = true ∧ (after (.injectOnce 1) s).flt.injResult = 1)) ∧
    stallTestOk up 4095 = true ∧ (after (.stallTest 4095) up).flt.test = some (.stall 4095) ∧
    (let s := up.setSite 71 { up.site 71 with st := .spare }
     dieTestOk s 71 = true ∧ ((after (.dieTest 71) s).site 71).testing = true) ∧
    dieTestOk up 72 = false ∧ (after (.dieTest 72) up).flt.testResult = 2 ∧ memTestOk up 23 = true ∧
    memTestOk up 24 = false ∧ (after (.memTest 24) up).flt.testResult = 2 ∧
    (after (.stallTest 4095) (fltIn { test := some (.die 1) })).flt.testResult = 2 ∧
    (∀ op ∈ [0, 4], (after (.faultTestBadOp (BitVec.ofNat 4 op)) up).flt.testResult = 3) ∧
    ((after (.testComplete false) (fltIn { test := some (.stall 4095) })).stall 4095).failed = true ∧
    ((after (.testComplete true) (fltIn { test := some (.die 71) })).site 71).powered = false ∧
    (let s := fltIn { test := some (.stack 23) }
     let a := deviceAddr s 23 64
     (after (.testComplete false) s).flt.testResult = 1 ∧ (s.hub 23).st ≠ .excluded ∧ hubOf s (64 * (a / 64)) = 23 ∧
     (after (.testComplete false) { s with ms := { s.ms with mem := [(a, 5)] } }).byteAt a = 0) := by
  unfold PfOpen Served
  decide +kernel

/-! ### Counters and registers -/

def pmuIn (w : Nat) (p : Pmu) : State := up.setPmu w p

theorem witness_CountersAndRegisters :
    barsOpen up 0 = true ∧ up.tack.readyNow = true ∧ pmuCounters 96 = 8 ∧ pmuCounters 63 = 16 ∧
    (after (.pmuCntLoRead 0 96 7) (pmuIn 96 { cnt := [(7, 0x123456789ABC)] })).resp = .val 0x56789ABC ∧
    ((after (.pmuCntLoRead 0 96 7) (pmuIn 96 { cnt := [(7, 0x123456789ABC)] })).pmu 96).latchAt 7 = 0x1234 ∧
    ((after (.pmuCntLoWrite 0 63 15 7) (pmuIn 63 { stage := [(15, 0xFFFF)] })).pmu 63).count 15 = 0xFFFF00000007 ∧
    ((after (.pmuCntHiWrite 0 63 15 0x1FFFF) up).pmu 63).stageAt 15 = 0xFFFF ∧
    (((after (.pmuCfgWrite 0 63 15 0x70801) up).pmu 63).cfgAt 15).sel = 2 ∧
    ((after (.pmuCfgWrite 0 63 15 0x70801) up).pmu 63).holdAt 15 = 2 ∧
    ((after (.pmuCtrlWrite 0 96 1) up).pmu 96).freeze = true ∧
    ((after (.pmuOvfWrite 0 96 0x81) (pmuIn 96 { ovf := 0x83 })).pmu 96).ovf = 2 ∧
    (let c : PmuCfg := { event := 1, en := true, ovfFreeze := true }
     pmuBad 63 15 c = false ∧
     (let s := pmuIn 63 { cfg := [(15, c)], cnt := [(15, 0xFFFFFFFFFFFF)] }
      ((after (.counterOverflow 63 15 1) s).pmu 63).count 15 = 0 ∧
        ((after (.counterOverflow 63 15 1) s).pmu 63).ovf = 0x8000 ∧
      ((after (.counterOverflow 63 15 1) s).pmu 63).freeze = true)) ∧
    (after (.pmuSampleDroppedRead 0 63) (pmuIn 63 { sDropped := 4 })).resp = .val 4 ∧
    (let s := (up.setFn 1 { st := .enabled })
     barsOpen s 1 = true ∧ vfMayWrite s 1 0x10004 = false ∧ (after (.registerWrite 1 0x10004 4 (some 1)) s).resp = .ur ∧
     (after (.registerWrite 1 0x10004 4 (some 1)) s).host.denied = 1) ∧
    ((after (.registerWrite 0 0x10000 8 (some 0x9000400000000)) up).sys.intakeChute = 9 ∧
      (after (.registerWrite 0 0x10004 4 none) { up with sys := { autoRoute := false, noticeEn := false, intakeEn := true } }).resp = .val 4 ∧
      (after (.registerWrite 0 0x10008 8 none) up).resp ≠ .ur ∧
        (after (.registerWrite 0 0x10004 2 none) up).resp = .ur ∧
      ideDiscards up 0 = false ∧ vfMayRead (up.setFn 1 { st := .enabled }) 1 0x10004 = false ∧
      (after (.registerWrite 1 0x10004 4 none) (up.setFn 1 { st := .enabled })).host.denied = 1) ∧
    coreRange 0x600000 = false ∧ coreRange 0x5FFFFC = true ∧
      (after (.registerWrite 0 0x10005 4 (some 1)) up).resp = .ur ∧
    (after (.registerWrite 0 0x10004 4 (some 1)) (bootAt 5)).resp = .ur ∧
    (after (.registerWrite 0 0x10004 4 (some 0x00090004)) up).sys.intakeChute = 9 ∧
    (after (.registerWrite 0 0x10004 4 (some 0x00090004)) up).sys.autoRoute = false := by decide +kernel

end Sys2Proof.Tests
end

namespace Sys2Proof.Machine
open Sys2Proof

/-! ### Accesses that the host link serves (R324, R325, R334, R336) -/

variable {s : State} {f : Nat} {own : Bool} {off : Nat} {k : State → State}

/-- An access over open BARs, by the PF or by a VF to what is its own, has its effect. -/
theorem barAccess_of_served (h : Served s f) (hr : s.tack.readyNow = true) (ho : f = 0 ∨ own = true) :
    barAccess s f own off k = k s := by
  obtain ⟨hopen, hide⟩ := h
  rcases ho with rfl | rfl <;> simp [barAccess, hopen, hide, hr]

/-- The same in the ranges that serve before READY. -/
theorem coreAccess_of_served (h : Served s f) (ho : f = 0 ∨ own = true) : coreAccess s f own off k = k s := by
  obtain ⟨hopen, hide⟩ := h
  rcases ho with rfl | rfl <;> simp [coreAccess, hopen, hide]

theorem pfAccess_of_open (h : PfOpen s) : pfAccess s k = k s := barAccess_of_served h.1 h.2 (.inl rfl)

theorem pfCore_of_open (h : CoreOpen s) : pfCore s k = k s := coreAccess_of_served h (.inl rfl)

/-- An access that a VF may not make is denied. -/
theorem barAccess_of_denied (h : Served s f) (hr : s.tack.readyNow = true) (hf : 0 < f) (ho : own = false) :
    barAccess s f own off k = denyAccess s off := by
  obtain ⟨hopen, hide⟩ := h
  simp [barAccess, hopen, hide, hr, hf, ho]

theorem coreAccess_of_denied (h : Served s f) (hf : 0 < f) (ho : own = false) :
    coreAccess s f own off k = denyAccess s off := by
  obtain ⟨hopen, hide⟩ := h
  simp [coreAccess, hopen, hide, hf, ho]

/-! ### Values read -/

theorem answerVal_toNat {w : Nat} (s : State) (x : BitVec w) : s.answerVal x.toNat = s.answer (.val (x.setWidth 64)) := by
  simp [State.answerVal, State.answer]

theorem answerVal_low {w : Nat} (s : State) (x : BitVec w) (n : Nat) :
    s.answerVal (x.toNat % 2 ^ n) = s.answer (.val ((x.setWidth n).setWidth 64)) := by
  rw [← BitVec.toNat_setWidth, answerVal_toNat]

end Sys2Proof.Machine

namespace Sys2Proof.Machine
open Sys2Proof

/-! ### Registers of a stall (R8, R49) -/

section
variable {s : State} {t : Nat} (v : Reg32)

theorem clearNum_of_powered (h : s.diePowered (t / 64) = true) :
    clearNum s t v = s.setStall t { s.stall t with num := (s.stall t).num &&& ~~~(v.setWidth 7) } := if_pos h

theorem clearNum_of_unpowered (h : ¬ s.diePowered (t / 64) = true) : clearNum s t v = s := if_neg h

theorem takeWaits_of_powered (h : s.diePowered (t / 64) = true) :
    takeWaits s t = (s.setStall t { s.stall t with waits := 0 }, (s.stall t).waits.toNat) := if_pos h

theorem takeWaits_of_unpowered (h : ¬ s.diePowered (t / 64) = true) : takeWaits s t = (s, 0) := if_neg h

theorem readToken_of_powered (h : s.diePowered (t / 64) = true) :
    readToken s t = (s.setStall t { s.stall t with tokenHi := (s.stall t).tokens.extractLsb' 32 16 },
      (s.stall t).tokens.toNat % 2 ^ 32) := by
  simp [readToken, h, updStall_def, bitsAt]

theorem readToken_of_unpowered (h : ¬ s.diePowered (t / 64) = true) : readToken s t = (s, 0) := if_neg h

end

/-- Settles O6: over open BARs each command is its register's access, and that is the one of the stall's die or, for a
number without a powered die, that of no register. -/
theorem stallRegisterAccesses : Obligations.StallRegisterAccesses := by
  intro t v s h x on
  have hWrite : exec (.stallNumStatusWrite t v) s = .next ((clearNum s t.toNat v).answer .ok) :=
    congrArg Host.Outcome.next (pfAccess_of_open h)
  have hWaits : exec (.stallBankConflictRead t) s = .next (answerRead (takeWaits s t.toNat)) :=
    congrArg Host.Outcome.next (pfAccess_of_open h)
  have hToken : exec (.stallTokenLoRead t) s = .next (answerRead (readToken s t.toNat)) :=
    congrArg Host.Outcome.next (pfAccess_of_open h)
  rw [hWrite, hWaits, hToken]
  refine ⟨fun hon => ?_, fun hoff => ?_⟩
  · rw [clearNum_of_powered v hon, takeWaits_of_powered hon, readToken_of_powered hon]
    exact ⟨rfl, congrArg _ (answerVal_toNat _ _), congrArg _ (answerVal_low _ _ 32)⟩
  · rw [clearNum_of_unpowered v hoff, takeWaits_of_unpowered hoff, readToken_of_unpowered hoff]
    exact ⟨rfl, rfl, rfl⟩

end Sys2Proof.Machine

namespace Sys2Proof.Machine
open Sys2Proof

/-! ### Parts that an operation leaves -/

section
variable {ps : List Part} {s t : State}

theorem Moves.same (h : Moves ps s t) (p : Part) (hp : listed p ps = false) : p.same s t := by
  refine h.only p fun hm => ?_
  rw [listed, List.any_eq_false] at hp
  exact hp p hm (by simp)

theorem Moves.link (h : Moves ps s t) (j : Nat) (hp : listed .links ps = false) : t.link j = s.link j :=
  congrArg (tabGet _ · j) (h.same .links hp)
theorem Moves.ll (h : Moves ps s t) (j : Nat) (hp : listed .lls ps = false) : t.ll j = s.ll j :=
  congrArg (tabGet _ · j) (h.same .lls hp)
theorem Moves.oe (h : Moves ps s t) (j : Nat) (hp : listed .oes ps = false) : t.oe j = s.oe j :=
  congrArg (tabGet _ · j) (h.same .oes hp)
theorem Moves.chute (h : Moves ps s t) (j : Nat) (hp : listed .chutes ps = false) : t.chute j = s.chute j :=
  congrArg (tabGet _ · j) (h.same .chutes hp)
theorem Moves.pen (h : Moves ps s t) (j : Nat) (hp : listed .pens ps = false) : t.pen j = s.pen j :=
  congrArg (tabGet _ · j) (h.same .pens hp)
theorem Moves.frec (h : Moves ps s t) (j : Nat) (hp : listed .flt ps = false) : t.frec j = s.frec j :=
  congrArg (fun x : Flt => tabGet _ x.recs j) (h.same .flt hp)
theorem Moves.fn (h : Moves ps s t) (j : Nat) (hp : listed .host ps = false) : t.fn j = s.fn j :=
  congrArg (fun x : HostS => tabGet _ x.fns j) (h.same .host hp)
theorem Moves.hub (h : Moves ps s t) (j : Nat) (hp : listed .ms ps = false) : t.hub j = s.hub j :=
  congrArg (fun x : MemSys => tabGet _ x.hubs j) (h.same .ms hp)

end

/-! ### The parts that an update changes

Each by its own lemma and not by the rule `Moves.upd`: its default arguments are tactic blocks, whose evaluation waits
for the kernel to have checked all that stands before them. -/

/-- An operation that leaves the parts outside a list, and every byte memory. -/
theorem Moves.of_same {ps : List Part} {s t : State} (h : ∀ p, listed p ps = false → p.same s t)
    (hms : t.ms.mem = s.ms.mem) (hmanger : t.manger = s.manger) (hhost : t.hostMem = s.hostMem)
    (hflash : t.flash = s.flash) (hmram : t.mram = s.mram) : Moves ps s t where
  only := fun p hp => h p (Bool.eq_false_iff.mpr fun hl => hp (mem_of_listed hl))
  canon := fun hc => by
    unfold State.canonical at hc ⊢
    rwa [hms, hmanger, hhost, hflash, hmram]

section
variable (s : State)

theorem stalls_moves (x : Tab Stall) : Moves [.stalls] s { s with stalls := x } :=
  .of_same (fun p hp => by
    cases p
    case stalls => exact nomatch hp
    all_goals rfl) rfl rfl rfl rfl rfl
theorem pens_moves (x : Tab Pen) : Moves [.pens] s { s with pens := x } :=
  .of_same (fun p hp => by
    cases p
    case pens => exact nomatch hp
    all_goals rfl) rfl rfl rfl rfl rfl
theorem sinks_moves (x : Tab Sink) : Moves [.sinks] s { s with sinks := x } :=
  .of_same (fun p hp => by
    cases p
    case sinks => exact nomatch hp
    all_goals rfl) rfl rfl rfl rfl rfl
theorem chutes_moves (x : Tab Chute) : Moves [.chutes] s { s with chutes := x } :=
  .of_same (fun p hp => by
    cases p
    case chutes => exact nomatch hp
    all_goals rfl) rfl rfl rfl rfl rfl
theorem doorbells_moves (x : Tab Doorbell) : Moves [.doorbells] s { s with doorbells := x } :=
  .of_same (fun p hp => by
    cases p
    case doorbells => exact nomatch hp
    all_goals rfl) rfl rfl rfl rfl rfl
theorem chuteDies_moves (x : Tab ChuteDie) : Moves [.chuteDies] s { s with chuteDies := x } :=
  .of_same (fun p hp => by
    cases p
    case chuteDies => exact nomatch hp
    all_goals rfl) rfl rfl rfl rfl rfl
theorem epStat_moves (x : Tab PStat) : Moves [.epStat] s { s with epStat := x } :=
  .of_same (fun p hp => by
    cases p
    case epStat => exact nomatch hp
    all_goals rfl) rfl rfl rfl rfl rfl
theorem pnet_moves (x : Pnet) : Moves [.pnet] s { s with pnet := x } :=
  .of_same (fun p hp => by
    cases p
    case pnet => exact nomatch hp
    all_goals rfl) rfl rfl rfl rfl rfl
theorem oes_moves (x : Tab OeS) : Moves [.oes] s { s with oes := x } :=
  .of_same (fun p hp => by
    cases p
    case oes => exact nomatch hp
    all_goals rfl) rfl rfl rfl rfl rfl
theorem links_moves (x : Tab LinkS) : Moves [.links] s { s with links := x } :=
  .of_same (fun p hp => by
    cases p
    case links => exact nomatch hp
    all_goals rfl) rfl rfl rfl rfl rfl
theorem lls_moves (x : Tab LL) : Moves [.lls] s { s with lls := x } :=
  .of_same (fun p hp => by
    cases p
    case lls => exact nomatch hp
    all_goals rfl) rfl rfl rfl rfl rfl
theorem sys_moves (x : SysS) : Moves [.sys] s { s with sys := x } :=
  .of_same (fun p hp => by
    cases p
    case sys => exact nomatch hp
    all_goals rfl) rfl rfl rfl rfl rfl
theorem host_moves (x : HostS) : Moves [.host] s { s with host := x } :=
  .of_same (fun p hp => by
    cases p
    case host => exact nomatch hp
    all_goals rfl) rfl rfl rfl rfl rfl
theorem flt_moves (x : Flt) : Moves [.flt] s { s with flt := x } :=
  .of_same (fun p hp => by
    cases p
    case flt => exact nomatch hp
    all_goals rfl) rfl rfl rfl rfl rfl
theorem pmus_moves (x : Tab Pmu) : Moves [.pmus] s { s with pmus := x } :=
  .of_same (fun p hp => by
    cases p
    case pmus => exact nomatch hp
    all_goals rfl) rfl rfl rfl rfl rfl
theorem resp_moves (x : Resp) : Moves [.resp] s { s with resp := x } :=
  .of_same (fun p hp => by
    cases p
    case resp => exact nomatch hp
    all_goals rfl) rfl rfl rfl rfl rfl
theorem free_moves (x : Nat) : Moves [.free] s { s with free := x } :=
  .of_same (fun p hp => by
    cases p
    case free => exact nomatch hp
    all_goals rfl) rfl rfl rfl rfl rfl

/-- A change of the memory system, or of host memory, that keeps its bytes canonical. -/
theorem ms_moves (x : MemSys) (h : memWf s.ms.mem = true → memWf x.mem = true) : Moves [.ms] s { s with ms := x } where
  only := fun p hp => by
    cases p
    case ms => exact absurd (by simp) hp
    all_goals rfl
  canon := fun ⟨hms, hrest⟩ => ⟨h hms, hrest⟩

theorem hostMem_moves (x : Mem) (h : memWf s.hostMem = true → memWf x = true) :
    Moves [.hostMem] s { s with hostMem := x } where
  only := fun p hp => by
    cases p
    case hostMem => exact absurd (by simp) hp
    all_goals rfl
  canon := fun ⟨hms, hmanger, hhost, hrest⟩ => ⟨hms, hmanger, h hhost, hrest⟩

variable (k : Nat)

theorem setStall_moves (v : Stall) : Moves [.stalls] s (s.setStall k v) := stalls_moves s _
theorem setPen_moves (v : Pen) : Moves [.pens] s (s.setPen k v) := pens_moves s _
theorem setSink_moves (v : Sink) : Moves [.sinks] s (s.setSink k v) := sinks_moves s _
theorem setChute_moves (v : Chute) : Moves [.chutes] s (s.setChute k v) := chutes_moves s _
theorem setDoorbell_moves (v : Doorbell) : Moves [.doorbells] s (s.setDoorbell k v) := doorbells_moves s _
theorem setChuteDie_moves (v : ChuteDie) : Moves [.chuteDies] s (s.setChuteDie k v) := chuteDies_moves s _
theorem setSite_moves (v : SiteS) : Moves [.pnet] s (s.setSite k v) := pnet_moves s _
theorem setOe_moves (v : OeS) : Moves [.oes] s (s.setOe k v) := oes_moves s _
theorem setLink_moves (v : LinkS) : Moves [.links] s (s.setLink k v) := links_moves s _
theorem setLl_moves (v : LL) : Moves [.lls] s (s.setLl k v) := lls_moves s _
theorem setPeer_moves (v : Peer) : Moves [.sys] s (s.setPeer k v) := sys_moves s _
theorem setFn_moves (v : Fn) : Moves [.host] s (s.setFn k v) := host_moves s _
theorem setDma_moves (v : Dma) : Moves [.host] s (s.setDma k v) := host_moves s _
theorem setFrec_moves (v : FRec) : Moves [.flt] s (s.setFrec k v) := flt_moves s _
theorem setPmu_moves (v : Pmu) : Moves [.pmus] s (s.setPmu k v) := pmus_moves s _
theorem setLevel_moves (n : Nat) : Moves [.flt] s (s.setLevel k n) := flt_moves s _
theorem setHub_moves (v : HubS) : Moves [.ms] s (s.setHub k v) := ms_moves s _ id
theorem answer_moves (r : Resp) : Moves [.resp] s (s.answer r) := resp_moves s _
theorem answerVal_moves (n : Nat) : Moves [.resp] s (s.answerVal n) := resp_moves s _
theorem useFree_moves : Moves [.free] s s.useFree := free_moves s _

end

/-! ### Counters, events and records -/

section
variable (s : State)

theorem pmuCount_moves (w ev inst k : Nat) : Moves [.pmus] s (pmuCount s w ev inst k) := setPmu_moves s _ _

theorem hostStore_moves (f a : Nat) (bs : List Byte) : Moves [.hostMem] s (hostStore s f a bs) := by
  unfold hostStore
  exact .ite (.refl _ s) (hostMem_moves s _ (memWf_memStore _ _ _))

theorem ringEntry_moves (n typ src info : Nat) :
    Moves [.host, .hostMem, .pmus] s (ringEntry s n typ src info) :=
  ((hostStore_moves s _ _ _).mono rfl).trans
    (((setFn_moves _ _ _).mono rfl).trans ((pmuCount_moves _ _ _ _ _).mono rfl))

theorem flushLost_moves (n : Nat) : Moves [.host, .hostMem, .pmus] s (flushLost s n) := by
  unfold flushLost
  split
  · exact (ringEntry_moves s _ _ _ _).trans ((setFn_moves _ _ _).mono rfl)
  · exact .refl _ s

theorem raiseEvent_moves (n typ src info : Nat) :
    Moves [.host, .hostMem, .pmus] s (raiseEvent s n typ src info) := by
  unfold raiseEvent
  split
  · exact .refl _ s
  · extract_lets s1
    refine (flushLost_moves s n).trans ?_
    split
    · exact ringEntry_moves _ _ _ _ _
    · exact ((setFn_moves _ _ _).mono rfl).trans ((pmuCount_moves _ _ _ _ _).mono rfl)

theorem reportWith_moves (src cause addr : Nat) (inj col : Bool) :
    Moves [.flt, .host] s (reportWith s src cause addr inj col) := by
  unfold reportWith
  extract_lets old r s1 flt s2
  have h2 : Moves [.flt, .host] s s2 := ((setFrec_moves s src r).trans (flt_moves s1 _)).mono rfl
  exact .ite (h2.trans ((setFn_moves _ _ _).mono rfl)) h2

theorem report_moves (src cause addr : Nat) : Moves [.flt, .host] s (report s src cause addr) := by
  unfold report
  split
  · exact .refl _ s
  · exact reportWith_moves s _ _ _ _ _

theorem reportInjected_moves (src cause addr : Nat) (col : Bool) :
    Moves [.flt, .host] s (reportInjected s src cause addr col) := by
  unfold reportInjected
  split
  · exact .refl _ s
  · exact reportWith_moves s _ _ _ _ _

theorem endCondition_moves (src cause : Nat) : Moves [.flt] s (endCondition s src cause) := by
  unfold endCondition
  extract_lets r cs
  exact .ite (.ite (setFrec_moves s _ _) (setFrec_moves s _ _)) (.refl _ s)

theorem injUse_moves (src chk : Nat) : Moves [.flt] s (injUse s src chk) := by
  unfold injUse
  split
  · exact .ite (flt_moves s _) (.refl _ s)
  · exact .refl _ s

theorem bucketAdd_moves (b unit : Nat) : Moves [.flt] s (bucketAdd s b unit).1 :=
  .ite_fst (setLevel_moves s _ _) (setLevel_moves s _ _)

theorem bucketReport_moves (b src cause addr : Nat) : Moves [.flt, .host] s (bucketReport s b src cause addr) := by
  have h := (bucketAdd_moves s b src).mono (ps := [.flt, .host]) rfl
  exact .ite (h.trans (report_moves _ _ _ _)) h

end

/-! ### What is queued toward other devices -/

section
variable (s : State)

theorem queueTx_moves (l v : Nat) (it : TxItem) : Moves [.lls, .sys] s (queueTx s l v it) := by
  unfold queueTx
  exact .ite ((sys_moves s _).mono rfl) ((setLl_moves s _ _).mono rfl)

theorem sendMgmt_moves (d : Nat) (p : BitVec 512) : Moves [.lls, .sys] s (sendMgmt s d p) := by
  unfold sendMgmt
  split
  · exact queueTx_moves s _ _ _
  · exact .refl _ s

theorem sendCtrl0_moves (dev : Nat) (src : Source) (p : BitVec 512) (c : Nat) :
    Moves [.lls, .sys] s (sendCtrl0 s dev src p c) := by
  unfold sendCtrl0
  extract_lets g k
  split
  · exact queueTx_moves s _ _ _
  · exact .refl _ s

end
end Sys2Proof.Machine

namespace Sys2Proof.Machine
open Sys2Proof

/-! ### Notices and routes (R298, R304) -/

section
variable (s : State)

theorem writeVia_moves (a d : Nat) (v : Option Nat) : Moves [.lls, .sys] s (writeVia s a d v) := by
  unfold writeVia
  split
  · exact (setPeer_moves s _ _).mono rfl
  · have h : Moves [.lls, .sys] s (useTag s) := (sys_moves s _).mono rfl
    exact h.trans (sendMgmt_moves _ _ _)

theorem addEmpty_moves (a d : DevNum) : Moves [.sys] s (addEmpty s a d) := by
  unfold addEmpty
  exact .ite (.refl _ s) (sys_moves s _)

theorem noteLinks_moves (a d : DevNum) (n : Option Nat) : Moves [.sys] s (noteLinks s a d n) := sys_moves s _

theorem ownEmpties_moves : Moves [.sys] s (ownEmpties s) :=
  .fold (fun st _ => addEmpty_moves st _ _) (.refl _ s)

theorem computeRoutes_moves : Moves [.lls, .sys] s (computeRoutes s) := by
  unfold computeRoutes
  split
  · exact .refl _ s
  · refine .fold (fun st e => ?_) ((ownEmpties_moves s).mono rfl)
    extract_lets v st1 src
    exact .ite (.refl _ st) ((writeVia_moves st _ _ _).trans ((sys_moves st1 _).mono rfl))

theorem takeNotice_moves (dev ev link partner : Nat) :
    Moves [.host, .hostMem, .pmus, .lls, .sys] s (takeNotice s dev ev link partner) := by
  unfold takeNotice
  extract_lets s1 a d had sys s2
  have h1 : Moves [.host, .hostMem, .pmus, .lls, .sys] s s1 := (raiseEvent_moves s _ _ _ _).mono rfl
  have h2 : Moves [.host, .hostMem, .pmus, .lls, .sys] s s2 :=
    .step (noteLinks_moves _ _ _ _) rfl (.step (sys_moves s1 _) rfl h1)
  refine .ite ?_ (.ite ?_ (.ite ?_ h1))
  · exact .step (computeRoutes_moves _) rfl (.step (addEmpty_moves _ _ _) rfl h1)
  · exact .step (computeRoutes_moves _) rfl (.ite (.step (writeVia_moves _ _ _ _) rfl h2) h2)
  · exact .step (noteLinks_moves _ _ _ _) rfl h1

theorem sendNoticeFor_moves (ev l partner : Nat) :
    Moves [.host, .hostMem, .pmus, .lls, .sys] s (sendNoticeFor s ev l partner) := by
  unfold sendNoticeFor
  exact .ite (.refl _ s) (.ite (takeNotice_moves s _ _ _ _) (.ite ((sendMgmt_moves s _ _).mono rfl) (.refl _ s)))

theorem sendNotice_moves (ev l : Nat) : Moves [.host, .hostMem, .pmus, .lls, .sys] s (sendNotice s ev l) :=
  sendNoticeFor_moves s _ _ _

end

/-! ### The states of a link (R239, R246, R271 to R275) -/

section
variable (s : State) (l : Nat)

theorem leftActive_moves : Moves [.host, .hostMem, .pmus, .lls, .sys] s (leftActive s l) := by
  have h := (setLl_moves s l { dropLaneCmds (s.ll l) with synced := false, syncOn := false, replayPos := none }).mono
    (ps := [.host, .hostMem, .pmus, .lls, .sys]) rfl
  exact .ite (h.trans (sendNotice_moves _ _ _)) h

theorem setLinkSt_moves (st : LinkState) :
    Moves [.links, .host, .hostMem, .pmus, .lls, .sys] s (setLinkSt s l st) := by
  unfold setLinkSt
  extract_lets old s1
  have h : Moves [.links, .host, .hostMem, .pmus, .lls, .sys] s s1 := (setLink_moves s _ _).mono rfl
  exact .ite (.step (leftActive_moves _ _) rfl h) h

theorem endHold_moves : Moves [.links, .flt] s (endHold s l) := by
  unfold endHold
  extract_lets k s1
  have h : Moves [.links, .flt] s s1 := (setLink_moves s _ _).mono rfl
  exact .ite (.step (endCondition_moves _ _ _) rfl h) h

theorem enterDown_moves (reason : Nat) :
    Moves [.links, .host, .hostMem, .pmus, .lls, .sys, .flt] s (enterDown s l reason) :=
  .step (setLink_moves _ _ _) rfl (.step (endHold_moves _ _) rfl ((setLinkSt_moves s l .down).mono rfl))

theorem trainLanes_moves : Moves [.links] s (trainLanes s l) :=
  .fold (fun st _ => setLink_moves st _ _) (.refl _ s)

theorem startRetrain_moves (kind : RetrainKind) :
    Moves [.links, .host, .hostMem, .pmus, .lls, .sys] s (startRetrain s l kind) := by
  unfold startRetrain
  extract_lets s1
  have h : Moves [.links, .host, .hostMem, .pmus, .lls, .sys] s s1 :=
    .step (setLink_moves _ _ _) rfl (setLinkSt_moves s l .retrain)
  exact .ite (.step (trainLanes_moves _ _) rfl h) h

/-- Only the state of the link itself changes, and what its lanes last sent. -/
@[simp] theorem setLinkSt_link (st : LinkState) (j : Nat) : (setLinkSt s l st).link j =
    if j = l then { s.link l with
      st := st, lastFrame := if st = .down || st = .detect then [] else (s.link l).lastFrame } else s.link j := by
  unfold setLinkSt
  extract_lets old s1
  have h : s1.link j = if j = l then _ else s.link j := setLink_link s l j _
  split
  · exact ((leftActive_moves s1 l).link j rfl).trans h
  · exact h

@[simp] theorem endHold_link (j : Nat) : (endHold s l).link j =
    if j = l then { s.link l with held := false, cand := none, pChanged := false } else s.link j := by
  unfold endHold
  extract_lets k s1
  have h : s1.link j = if j = l then _ else s.link j := setLink_link s l j _
  split
  · exact ((endCondition_moves s1 _ _).link j rfl).trans h
  · exact h

/-- A link that has entered DOWN (R239, R249). -/
def downLink (k : LinkS) (reason : Nat) : LinkS :=
  { clearExchange { k with st := .down, lastFrame := [], held := false, cand := none, pChanged := false } with
    downReason := BitVec.ofNat 3 reason, kind := none }

@[simp] theorem enterDown_link (reason j : Nat) : (enterDown s l reason).link j =
    if j = l then downLink (s.link l) reason else s.link j := by
  unfold enterDown
  rw [updLink_def, setLink_link]
  split
  · simp [downLink]
  · simp [*]

/-- The lanes are all that the start of training changes. -/
theorem trainLanes_link : ∃ t, (trainLanes s l).link l = { s.link l with lanes := t } := by
  refine List.foldlRecOn (motive := fun st : State => ∃ t, st.link l = { s.link l with lanes := t })
    (List.range 15) _ ⟨_, rfl⟩ fun st ⟨t, ht⟩ n _ => ?_
  simp [updLink_def, LinkS.setLane, ht]

theorem startRetrain_link (kind : RetrainKind) : ∃ t, (startRetrain s l kind).link l =
    { clearExchange { s.link l with st := .retrain } with
      kind := some kind, stage := 0, frames := 0, fast := (s.link l).fast && decide (kind = .quick), lanes := t } := by
  unfold startRetrain
  extract_lets s1
  have h : s1.link l = { clearExchange { s.link l with st := .retrain } with
      kind := some kind, stage := 0, frames := 0, fast := (s.link l).fast && decide (kind = .quick) } := by
    simp [s1, updLink_def, clearExchange]
  split
  · obtain ⟨t, ht⟩ := trainLanes_link s1 l
    exact ⟨t, by rw [ht, h]⟩
  · exact ⟨_, h⟩

end
end Sys2Proof.Machine

namespace Sys2Proof.Machine
open Sys2Proof

/-! ### LINK_CMD and the lane registers (R246, R248, R249) -/

section
variable {s : State} {l : Nat}

theorem setLinkResult_eq (r : Nat) :
    setLinkResult s l r = s.setLink l { s.link l with cmdResult := BitVec.ofNat 2 r } := rfl

theorem acceptPartner_refused (h : (s.link l).cand = none ∨ (s.link l).held = false) :
    acceptPartner s l = setLinkResult s l 1 := by
  unfold acceptPartner
  extract_lets k
  rcases h with h | h
  · simp [k, h]
  · split
    · simp [k, h]
    · rfl

theorem acceptPartner_taken {q : Partner} (hc : (s.link l).cand = some q) (hh : (s.link l).held = true)
    (ht : holdsTraffic s l = false) (hm : twoManagers s q = false) (hd : dupNumber s l q = false) :
    acceptPartner s l = setLinkResult ((endHold (s.setLink l { s.link l with known := true, partner := q }) l).updLl l
      fun x => { x with fresh := true }) l 0 := by
  simp [acceptPartner, hc, hh, ht, hm, hd]

theorem linkCommand_retrain (h : (s.link l).st = .active) :
    linkCommand s l 1 = setLinkResult (startRetrain s l .full) l 0 := if_pos h

/-- RETRAIN starts a FULL retrain and answers OK (R245, R249). -/
theorem linkCommand_retrain_link (h : (s.link l).st = .active) : let k := (linkCommand s l 1).link l
    k.st = .retrain ∧ k.kind = some .full ∧ k.cmdResult = 0 := by
  obtain ⟨t, ht⟩ := startRetrain_link s l .full
  rw [linkCommand_retrain h, setLinkResult_eq, setLink_link, if_pos rfl, ht]
  exact ⟨rfl, rfl, rfl⟩

theorem linkCommand_retrain_refused (h : (s.link l).st ≠ .active) : linkCommand s l 1 = setLinkResult s l 1 := if_neg h

/-- A reserved operation (R249). -/
theorem linkCommand_reserved {op : Nat} (h1 : op ≠ 1) (h2 : op ≠ 2) :
    linkCommand s l (if op = 1 || op = 2 then 0 else op) = setLinkResult s l 2 := by
  simp [linkCommand, h1, h2]

theorem writeLinkCtrl_stays {v : Reg32} (h : (s.link l).enable = false ∨ v.getLsbD 0 = true) :
    writeLinkCtrl s l v = s.setLink l { s.link l with
      enable := v.getLsbD 0, v1Allow := v.getLsbD 1,
      holdLimit := BitVec.ofNat 10 (max 1 (min 1000 (bitsAt v.toNat 2 10))) } := by
  unfold writeLinkCtrl
  extract_lets was s1
  have hc : (was && !v.getLsbD 0) = false := by rcases h with h | h <;> simp [was, h]
  rw [hc]
  rfl

theorem writeLinkCtrl_down {v : Reg32} (h : (s.link l).enable = true) (hv : v.getLsbD 0 = false) :
    (writeLinkCtrl s l v).link l = downLink { s.link l with
      enable := false, v1Allow := v.getLsbD 1,
      holdLimit := BitVec.ofNat 10 (clampTo 1 1000 (bitsAt v.toNat 2 10)) } dDisabled := by
  unfold writeLinkCtrl
  extract_lets was s1
  have hc : (was && !v.getLsbD 0) = true := by simp only [was, h, hv]; rfl
  rw [if_pos hc, enterDown_link, if_pos rfl, show s1.link l = _ from (setLink_link s l l _).trans (if_pos rfl), hv]

/-- The fields of LINK_LANE read back STUFF_ERR in bits 16 to 23. -/
theorem linkLaneReg_stuffErr (y : Lane) : bitsAt (linkLaneReg y) 16 8 = y.stuffErr.toNat := by
  have hb : ∀ b, bit b ≤ 1 := fun b => by cases b <;> decide
  have hlos := hb y.los
  have hlol := hb y.lol
  have hbit := hb y.bitLock
  have hword := hb y.wordLock
  have hdesk := hb y.deskewed
  have hid := hb y.idMis
  have hlane := y.rxLane.isLt
  have hphase := y.phase.isLt
  have herr := y.stuffErr.isLt
  simp only [bitsAt, linkLaneReg]
  omega

end

/-- Settles O41: each command by its own equation over open BARs, and those that leave ACTIVE through what RETRAIN and
DOWN make of the link. -/
theorem linkCommandsAndRegisters : Obligations.LinkCommandsAndRegisters := by
  intro l i op v s h n k y put
  have hRetrain : exec (.retrain l) s = .next ((linkCommand s n 1).answer .ok) :=
    congrArg Host.Outcome.next (pfAccess_of_open h)
  have hAccept : exec (.acceptPartner l) s = .next ((acceptPartner s n).answer .ok) :=
    congrArg Host.Outcome.next (pfAccess_of_open h)
  have hBadOp : exec (.linkCmdBadOp l op) s = .next ((linkCommand s n (if op.toNat = 1 || op.toNat = 2 then 0
      else op.toNat)).answer .ok) := congrArg Host.Outcome.next (pfAccess_of_open h)
  have hCtrl : exec (.linkCtrlWrite l v) s = .next ((writeLinkCtrl s n v).answer .ok) :=
    congrArg Host.Outcome.next (pfAccess_of_open h)
  have hRead : exec (.linkLaneRead l i) s = .next (answerRead (takeLane s n i.toNat)) :=
    congrArg Host.Outcome.next (pfAccess_of_open h)
  refine ⟨fun hst => ⟨_, hRetrain, ?_⟩, fun hst => ?_, fun q hc hh ht hm hd => ⟨_, hAccept, ?_⟩, fun hno => ?_,
    fun h1 h2 => ?_, fun hv => ?_, fun hen hv => ⟨_, hCtrl, ?_⟩, congrArg Host.Outcome.next (pfAccess_of_open h),
    congrArg Host.Outcome.next (pfAccess_of_open h), congrArg Host.Outcome.next (pfAccess_of_open h), ⟨_, hRead, ?_⟩⟩
  · obtain ⟨hst', hkind, hres⟩ := linkCommand_retrain_link hst
    exact ⟨hst', hkind, hres, rfl⟩
  · rw [hRetrain, linkCommand_retrain_refused hst]
    rfl
  · rw [acceptPartner_taken hc hh ht hm hd, setLinkResult_eq, updLl_def]
    have hMoves : Moves [.links, .flt] s (endHold (s.setLink n { k with known := true, partner := q }) n) :=
      .step (endHold_moves _ _) rfl ((setLink_moves s _ _).mono rfl)
    refine ⟨by simp [k], by simp, fun m hm => by simp [hm], Moves.only ?_⟩
    exact .step (answer_moves _ _) rfl (.step (setLink_moves _ _ _) rfl (.step (setLl_moves _ _ _) rfl (hMoves.mono rfl)))
  · rw [hAccept, acceptPartner_refused hno]
    rfl
  · rw [hBadOp, linkCommand_reserved h1 h2]
    rfl
  · rw [hCtrl, writeLinkCtrl_stays hv]
  · have hlink := writeLinkCtrl_down hen hv
    refine ⟨?_, ?_, ?_, rfl⟩ <;> rw [answer_link, hlink] <;> rfl
  · refine ⟨rfl, linkLaneReg_stuffErr y, ?_, fun j hj => ?_, Moves.only ?_⟩
    · simp [answerRead, takeLane, updLane, updLink_def, k, y, n]
    · simp [answerRead, takeLane, updLane, updLink_def, k, n, hj]
    · exact .step (answerVal_moves _ _) rfl ((setLink_moves s _ _).mono rfl)

end Sys2Proof.Machine

namespace Sys2Proof.Machine
open Sys2Proof

/-! ### Records (R406) -/

section
variable (s : State)

/-- A report outside a save makes or joins its source's record, which tells its cause as the last. -/
theorem report_recorded (src cause addr : Nat) : Recorded src cause s (report s src cause addr) := by
  intro hs
  have hf : ((report s src cause addr).frec src) = if (s.frec src).valid
      then mergeRecord s (s.frec src) cause false false else newRecord s src cause addr false false := by
    unfold report reportWith
    rw [if_neg (by omega)]
    extract_lets old r s1 flt s2
    have h2 : s2.frec src = r := (tabGet_tabSet _ _ _ _ _).trans (if_pos rfl)
    split <;> exact h2
  rw [hf]
  split
  · next hv => exact ⟨rfl, hv⟩
  · exact ⟨rfl, rfl⟩

/-- A record that an operation leaves tells what it told. -/
theorem Recorded.trans_eq {src cause : Nat} {s t u : State} (h : Recorded src cause s t)
    (hu : u.frec src = t.frec src) : Recorded src cause s u := fun hs => by rw [hu]; exact h hs

end

/-! ### Rings and their searches (R209, R220, R223) -/

section
variable (s : State) (e r : Nat)

theorem updRing_oe (f : Ring → Ring) (j : Nat) : (updRing s e r f).oe j =
    if j = e then (s.oe e).setRing r (f ((s.oe e).ring r)) else s.oe j := setOe_oe _ _ _ _

/-- Of the ring that changes, what is written; the other rings of its engine stay. -/
theorem updRing_ring (f : Ring → Ring) (q : Nat) : ((updRing s e r f).oe e).ring q =
    if q = r then f ((s.oe e).ring r) else (s.oe e).ring q := by
  rw [updRing_oe, if_pos rfl, setRing_ring]

theorem updRing_moves (f : Ring → Ring) : Moves [.oes] s (updRing s e r f) := setOe_moves s _ _

theorem setSpResult_moves (n : Nat) : Moves [.oes] s (setSpResult s e n) := setOe_moves s _ _

theorem setSpResult_oe (n j : Nat) : (setSpResult s e n).oe j =
    if j = e then { s.oe e with spResult := BitVec.ofNat 3 n } else s.oe j := setOe_oe _ _ _ _

theorem setSpResult_ring (n q : Nat) : ((setSpResult s e n).oe e).ring q = (s.oe e).ring q := by
  rw [setSpResult_oe, if_pos rfl]
  rfl

/-- RINGS may end; no ring changes with it. -/
theorem settleRings_ring (q : Nat) : ((settleRings s e).oe e).ring q = (s.oe e).ring q := by
  unfold settleRings
  split
  · rw [updOe_def, setOe_oe, if_pos rfl]
    rfl
  · rfl

theorem settleRings_moves : Moves [.oes] s (settleRings s e) := .ite (setOe_moves s _ _) (.refl _ s)

theorem clearRail_oe : (clearRail s e r).oe =
    if ((s.oe e).ring r).rail then (updRing s e r fun x => { x with rail := false }).oe else s.oe := by
  unfold clearRail
  split
  · exact funext fun j => (endCondition_moves _ _ _).oe j rfl
  · rfl

theorem clearRail_moves :
    Moves (if ((s.oe e).ring r).rail then [.oes, .flt] else [.oes]) s (clearRail s e r) := by
  unfold clearRail
  split
  · exact .step (endCondition_moves _ _ _) rfl ((updRing_moves s e r _).mono rfl)
  · exact .refl _ s

/-- R220: the first code of a search of a ring. -/
def firstCode (o : OeS) (r : Nat) : Nat := max 3277 (bandStart o r - 3279)

/-- A ring that searches, before its first code is set. -/
def searching (s : State) (e r : Nat) (bad : Option Nat) : State :=
  pmuCount (updRing s e r (beginSearch (s.oe e) r bad)) (wOe e) evRelocks (ringPort r) 1

theorem startSearch_eq (bad : Option Nat) : startSearch s e r bad =
    if 58982 < firstCode (s.oe e) r then failSearch (searching s e r bad) e r
    else clearRail (updRing (searching s e r bad) e r fun x => setDemand x (firstCode (s.oe e) r)) e r := rfl

theorem searching_moves (bad : Option Nat) : Moves [.oes, .pmus] s (searching s e r bad) :=
  .step (pmuCount_moves _ _ _ _ _) rfl ((updRing_moves s e r _).mono rfl)

theorem searching_oe (bad : Option Nat) (j : Nat) :
    (searching s e r bad).oe j = (updRing s e r (beginSearch (s.oe e) r bad)).oe j :=
  (pmuCount_moves _ _ _ _ _).oe j rfl

theorem searching_ring (bad : Option Nat) (q : Nat) : ((searching s e r bad).oe e).ring q =
    if q = r then beginSearch (s.oe e) r bad ((s.oe e).ring r) else (s.oe e).ring q := by
  rw [searching_oe, updRing_ring]

/-- R220: of a search that fails at once, the ring and its record. -/
theorem failSearch_ring (q : Nat) : ((failSearch s e r).oe e).ring q =
    if q = r then { (s.oe e).ring r with st := .failed } else (s.oe e).ring q := by
  rw [failSearch, settleRings_ring, (report_moves _ _ _ _).oe _ rfl, updRing_ring]

theorem failSearch_recorded : Recorded (srcRing e r) cRingFailed s (failSearch s e r) :=
  (report_recorded (updRing s e r fun x => { x with st := .failed }) _ _ _).trans_eq ((settleRings_moves _ _).frec _ rfl)

/-- R220: RELOCK of such a ring records it as failed. -/
theorem failed_recorded : Recorded (srcRing e r) cRingFailed s
    ((setSpResult (failSearch (searching s e r none) e r) e spOk).answer .ok) := by
  have h : Recorded (srcRing e r) cRingFailed s (failSearch (searching s e r none) e r) := by
    have hpwr : (searching s e r none).pwr = s.pwr := (searching_moves s e r none).same .pwr rfl
    intro hs
    exact failSearch_recorded _ e r (by rw [hpwr]; exact hs)
  exact h.trans_eq (by rw [answer_frec, (setSpResult_moves _ e spOk).frec _ rfl])

/-- R209, R220: a search that begins at its first code; RAIL clears where it was set. -/
def searchFrom (s : State) (e r code : Nat) : State := clearRail (updRing s e r fun x => setDemand x code) e r

theorem searchFrom_ring (code q : Nat) : ((searchFrom s e r code).oe e).ring q =
    if q = r then { setDemand ((s.oe e).ring r) code with rail := false } else (s.oe e).ring q := by
  unfold searchFrom
  rw [clearRail_oe]
  split
  · rw [updRing_ring]
    split <;> simp [*, updRing_ring]
  · next hrail =>
    rw [updRing_ring] at hrail ⊢
    split
    · simp_all [setDemand]
    · rfl

theorem searchFrom_oe_ne (code : Nat) {j : Nat} (hj : j ≠ e) : (searchFrom s e r code).oe j = s.oe j := by
  unfold searchFrom
  rw [clearRail_oe]
  split <;> simp [updRing_oe, hj]

theorem searchFrom_moves (code : Nat) :
    Moves (if ((s.oe e).ring r).rail then [.oes, .flt] else [.oes]) s (searchFrom s e r code) := by
  have hrail : ((updRing s e r fun x => setDemand x code).oe e |>.ring r).rail = ((s.oe e).ring r).rail := by
    rw [updRing_ring, if_pos rfl]
    rfl
  have h := clearRail_moves (updRing s e r fun x => setDemand x code) e r
  rw [hrail] at h
  split at h
  · next hr => rw [if_pos hr]; exact h.step rfl ((updRing_moves s e r _).mono rfl)
  · next hr => rw [if_neg hr]; exact h.step rfl (updRing_moves s e r _)

/-! ### OE_CMD (R214, R220, R224, R225) -/

/-- A reserved operation of OE_CMD. -/
theorem oeCommand_reserved {op : Nat} (h1 : op ≠ 1) (h2 : op ≠ 2) (t : Nat) :
    oeCommand s e (if op = 1 || op = 2 then 0 else op) t = setSpResult s e spBadOp := by
  simp [oeCommand, h1, h2]

/-- R214, R224: a sparing of a wavelength runs or waits. -/
def sparingWaits (o : OeS) (w : BitVec 4) : Prop := (o.spStep ≠ 0 ∧ o.spWave = w) ∨ w ∈ o.spQueue

/-- The model's test of a wavelength, as a number up to 15, is that. -/
theorem sparingWaits_iff (o : OeS) {t : BitVec 8} (ht : t.toNat ≤ 15) :
    ((o.spStep ≠ 0 && o.spWave.toNat = t.toNat) || BitVec.ofNat 4 t.toNat ∈ o.spQueue) = true ↔
      sparingWaits o (t.setWidth 4) := by
  have hw : o.spWave.toNat = t.toNat ↔ o.spWave = t.setWidth 4 := by
    rw [← BitVec.toNat_inj, BitVec.toNat_setWidth, Nat.mod_eq_of_lt (by omega)]
  rw [Bool.or_eq_true, Bool.and_eq_true, decide_eq_true_iff, decide_eq_true_iff, decide_eq_true_iff, hw,
    BitVec.ofNat_toNat, sparingWaits]

theorem cmdSpareLaser_refused {t : BitVec 8} (h : 15 < t.toNat ∨ sparingWaits (s.oe e) (t.setWidth 4)) :
    cmdSpareLaser s e t.toNat = setSpResult s e spState := by
  refine if_pos ?_
  rw [Bool.or_assoc, Bool.or_eq_true, decide_eq_true_iff]
  rcases Nat.lt_or_ge 15 t.toNat with ht | ht
  · exact .inl ht
  · exact .inr ((sparingWaits_iff _ ht).mpr (h.resolve_left (by omega)))

theorem cmdSpareLaser_queued {t : BitVec 8} (ht : t.toNat ≤ 15) (h : ¬ sparingWaits (s.oe e) (t.setWidth 4)) :
    cmdSpareLaser s e t.toNat = setSpResult (s.setOe e { s.oe e with
      spQueue := (s.oe e).spQueue ++ [t.setWidth 4] }) e spOk := by
  have hno := (sparingWaits_iff _ ht).not.mpr h
  have hq : queueSparing s e t.toNat = s.setOe e { s.oe e with
      spQueue := (s.oe e).spQueue ++ [BitVec.ofNat 4 t.toNat] } := if_neg hno
  rw [BitVec.ofNat_toNat] at hq
  rw [← hq]
  refine if_neg ?_
  rw [Bool.or_assoc, Bool.or_eq_true, decide_eq_true_iff]
  exact not_or.mpr ⟨by omega, hno⟩

theorem cmdRelock_refused (h : 0 < ((s.oe e).ring r).recStep ∨ ((s.oe e).ring r).st = .search) :
    cmdRelock s e r = setSpResult s e spState := if_pos (by simpa using h)

theorem cmdRelock_fails (h : ((s.oe e).ring r).recStep = 0) (hst : ((s.oe e).ring r).st ≠ .search)
    (hf : 58982 < firstCode (s.oe e) r) :
    cmdRelock s e r = setSpResult (failSearch (searching s e r none) e r) e spOk := by
  unfold cmdRelock
  rw [if_neg (by simp [h, hst]), startSearch_eq, if_pos hf]

theorem cmdRelock_begins (h : ((s.oe e).ring r).recStep = 0) (hst : ((s.oe e).ring r).st ≠ .search)
    (hf : firstCode (s.oe e) r ≤ 58982) :
    cmdRelock s e r = setSpResult (searchFrom (searching s e r none) e r (firstCode (s.oe e) r)) e spOk := by
  unfold cmdRelock
  rw [if_neg (by simp [h, hst]), startSearch_eq, if_neg (Nat.not_lt.mpr hf)]
  rfl

end

/-- Settles O34: SPARE_LASER by the model's test of its wavelength, RELOCK by the first code of its search, the others
by their own equations. -/
theorem oeCommandsAndRegisters : Obligations.OeCommandsAndRegisters := by
  intro e t r n op v s h k o x result waits others
  have hSpare : exec (.spareLaser e t) s = .next ((cmdSpareLaser s k t.toNat).answer .ok) :=
    congrArg Host.Outcome.next (pfAccess_of_open h)
  have hRelock : exec (.relock e r) s = .next ((cmdRelock s k r.toNat).answer .ok) :=
    congrArg Host.Outcome.next (pfAccess_of_open h)
  have hBadOp : exec (.oeBadOp e op) s = .next ((oeCommand s k (if op.toNat = 1 || op.toNat = 2 then 0
      else op.toNat) 0).answer .ok) := congrArg Host.Outcome.next (pfAccess_of_open h)
  refine ⟨fun ht hw => ⟨_, hSpare, ?_⟩, fun hw => ?_, fun hrec hst hf => ⟨_, hRelock, ?_⟩,
    fun hrec hst hf => ⟨_, hRelock, ?_⟩, fun hx => ?_, fun h1 h2 => ?_, congrArg Host.Outcome.next (pfAccess_of_open h),
    congrArg Host.Outcome.next (pfAccess_of_open h)⟩
  · rw [cmdSpareLaser_queued s k ht hw]
    refine ⟨?_, fun j hj => ?_, rfl, Moves.only ?_⟩
    · rw [answer_oe, setSpResult_oe, if_pos rfl, setOe_oe, if_pos rfl]
      rfl
    · rw [answer_oe, setSpResult_oe, if_neg hj, setOe_oe, if_neg hj]
    · exact .step (answer_moves _ _) rfl (.step (setSpResult_moves _ _ _) rfl ((setOe_moves s _ _).mono rfl))
  · rw [hSpare, cmdSpareLaser_refused s k hw]
    rfl
  · rw [cmdRelock_fails s k r.toNat hrec hst hf]
    have hring (q : Nat) := failSearch_ring (searching s k r.toNat none) k r.toNat q
    refine ⟨?_, ?_, ?_, fun q hq => ?_⟩
    · rw [answer_oe, setSpResult_ring, hring, if_pos rfl]
    · rw [answer_oe, setSpResult_oe, if_pos rfl]
      rfl
    · exact failed_recorded s k r.toNat
    · rw [answer_oe, setSpResult_ring, hring, if_neg hq, searching_ring, if_neg hq]
  · rw [cmdRelock_begins s k r.toNat hrec hst hf]
    have hring (q : Nat) := searchFrom_ring (searching s k r.toNat none) k r.toNat (firstCode (s.oe k) r.toNat) q
    have hr := (hring r.toNat).trans (if_pos rfl)
    rw [searching_ring, if_pos rfl] at hr
    refine ⟨?_, ?_, ?_, ?_, fun q hq => ?_, fun j hj => ?_, Moves.only ?_⟩
    · rw [answer_oe, setSpResult_ring, hr]
      rfl
    · rw [answer_oe, setSpResult_ring, hr]
      rfl
    · rw [answer_oe, setSpResult_ring, hr]
      rfl
    · rw [answer_oe, setSpResult_oe, if_pos rfl]
      rfl
    · rw [answer_oe, setSpResult_ring, hring, if_neg hq, searching_ring, if_neg hq]
    · rw [answer_oe, setSpResult_oe, if_neg hj, searchFrom_oe_ne _ _ _ _ hj, searching_oe, updRing_oe, if_neg hj]
    · have hrail : (((searching s k r.toNat none).oe k).ring r.toNat).rail = x.rail := by
        rw [searching_ring, if_pos rfl]
        rfl
      have hm := searchFrom_moves (searching s k r.toNat none) k r.toNat (firstCode (s.oe k) r.toNat)
      rw [hrail] at hm
      have hs := searching_moves s k r.toNat none
      split
      · next hx =>
        rw [if_pos hx] at hm
        exact .step (answer_moves _ _) rfl (.step (setSpResult_moves _ _ _) rfl (hm.step rfl (hs.mono rfl)))
      · next hx =>
        rw [if_neg hx] at hm
        exact .step (answer_moves _ _) rfl (.step (setSpResult_moves _ _ _) rfl (hm.step rfl (hs.mono rfl)))
  · rw [hRelock, cmdRelock_refused s k r.toNat hx]
    rfl
  · rw [hBadOp, oeCommand_reserved s k h1 h2]
    rfl

end Sys2Proof.Machine

namespace Sys2Proof.Machine
open Sys2Proof

/-! ### Counters that advance (R421, R423, R427) -/

/-- What an advance of a counter and of those chained to it leaves: the settings, the counters below it and the OVF bits
that are set. -/
structure PmuGrows (n : Nat) (p q : Pmu) : Prop where
  cfg : q.cfg = p.cfg
  below : ∀ j, j < n → q.count j = p.count j
  ovf : ∀ b, p.ovf.getLsbD b = true → q.ovf.getLsbD b = true

section
variable {n m : Nat} {p q r : Pmu}

theorem PmuGrows.refl (n : Nat) (p : Pmu) : PmuGrows n p p := ⟨rfl, fun _ _ => rfl, fun _ h => h⟩

theorem PmuGrows.trans (h : PmuGrows n p q) (h' : PmuGrows m q r) (hm : n ≤ m) : PmuGrows n p r :=
  ⟨h'.cfg.trans h.cfg, fun j hj => (h'.below j (by omega)).trans (h.below j hj), fun b hb => h'.ovf b (h.ovf b hb)⟩

@[simp] theorem setCount_count (v : BitVec 48) (j : Nat) : (p.setCount n v).count j = if j = n then v else p.count j := by
  simp [Pmu.setCount, Pmu.count]

theorem setCount_grows (v : BitVec 48) : PmuGrows n p (p.setCount n v) :=
  ⟨rfl, fun j hj => by rw [setCount_count, if_neg (by omega)], fun _ h => h⟩

end

/-- R423: counter `n` at 2^48 and its OVF bit, before what it feeds. -/
def overflowed (p : Pmu) (n v : Nat) : Pmu :=
  { p.setCount n (BitVec.ofNat 48 v) with ovf := p.ovf ||| BitVec.ofNat 16 (2 ^ n) }

/-- R423: the counter chained to the one below it advances. -/
def chainOn (w : Nat) (q : Pmu) (n o fuel : Nat) : Pmu :=
  if n + 1 < pmuCounters w && (q.cfgAt (n + 1)).event.toNat = evChain && (q.cfgAt (n + 1)).en && q.holdAt (n + 1) = 0
  then pmuAdd w q (n + 1) o fuel else q

/-- R427: OVF_FREEZE stops the unit. -/
def freezeAt (q : Pmu) (n : Nat) : Pmu := if (q.cfgAt n).ovfFreeze then { q with freeze := true } else q

theorem pmuAdd_succ (w : Nat) (p : Pmu) (n k fuel : Nat) : pmuAdd w p n k (fuel + 1) =
    if ((p.count n).toNat + k) / 2 ^ 48 = 0 then p.setCount n (BitVec.ofNat 48 ((p.count n).toNat + k))
    else freezeAt (chainOn w (overflowed p n ((p.count n).toNat + k)) n (((p.count n).toNat + k) / 2 ^ 48) fuel) n := rfl

theorem overflowed_grows (p : Pmu) (n v : Nat) : PmuGrows n p (overflowed p n v) :=
  ⟨rfl, (setCount_grows (p := p) _).below, fun b hb => by simp [overflowed, hb]⟩

theorem freezeAt_grows (q : Pmu) (n m : Nat) : PmuGrows m q (freezeAt q n) := by
  unfold freezeAt
  split
  · exact ⟨rfl, fun _ _ => rfl, fun _ h => h⟩
  · exact .refl m q

theorem freezeAt_freeze {q : Pmu} {n : Nat} (h : (q.cfgAt n).ovfFreeze = true) : (freezeAt q n).freeze = true := by
  simp [freezeAt, h]

theorem pmuAdd_grows (w fuel : Nat) (p : Pmu) (n k : Nat) : PmuGrows n p (pmuAdd w p n k fuel) := by
  induction fuel generalizing p n k with
  | zero => exact .refl n p
  | succ fuel ih =>
    rw [pmuAdd_succ]
    split
    · exact setCount_grows _
    · have hchain (q : Pmu) (o : Nat) : PmuGrows (n + 1) q (chainOn w q n o fuel) := by
        unfold chainOn
        split
        · exact ih _ _ _
        · exact .refl _ _
      exact ((overflowed_grows p n _).trans (hchain _ _) n.le_succ).trans (freezeAt_grows _ n n) n.le_refl

theorem chainOn_grows (w : Nat) (q : Pmu) (n o fuel : Nat) : PmuGrows (n + 1) q (chainOn w q n o fuel) := by
  unfold chainOn
  split
  · exact pmuAdd_grows _ _ _ _ _
  · exact .refl _ _

/-- R421, R423: the count of a counter that passes 2^48 - 1, with its OVF bit and what OVF_FREEZE does. -/
theorem pmuAdd_overflow (w : Nat) (p : Pmu) (n k fuel : Nat) (hn : n < 16) (h : 2 ^ 48 ≤ (p.count n).toNat + k) :
    let q := pmuAdd w p n k (fuel + 1)
    q.count n = BitVec.ofNat 48 ((p.count n).toNat + k) ∧ q.ovf.getLsbD n = true ∧
      ((p.cfgAt n).ovfFreeze = true → q.freeze = true) := by
  have ho : ¬ ((p.count n).toNat + k) / 2 ^ 48 = 0 := by omega
  simp only [pmuAdd_succ, if_neg ho]
  have hchain := chainOn_grows w (overflowed p n ((p.count n).toNat + k)) n (((p.count n).toNat + k) / 2 ^ 48) fuel
  have hall := hchain.trans (freezeAt_grows _ n (n + 1)) (Nat.le_refl _)
  refine ⟨?_, hall.ovf n ?_, fun hf => ?_⟩
  · rw [hall.below n n.lt_succ_self]
    exact (setCount_count _ _).trans (if_pos rfl)
  · simp only [overflowed, BitVec.getLsbD_or, BitVec.getLsbD_ofNat, hn, decide_true, Nat.testBit_two_pow_self,
      Bool.true_and, Bool.or_true]
  · refine freezeAt_freeze ?_
    rw [Pmu.cfgAt, hchain.cfg]
    exact hf

/-! ### The PMU windows (R420 to R427) -/

section
variable {s : State} {u n : Nat}

theorem readCount_eq (h : n < pmuCounters u) : readCount s u n =
    (s.setPmu u (latchCounter (s.pmu u) n), ((s.pmu u).count n).toNat % 2 ^ 32) := if_pos h

/-- R426: a change of selection holds the counter for two cycles. -/
theorem writeCfg_holdAt (p : Pmu) (v : Reg32) : (writeCfg p n v).holdAt n =
    if (p.cfgAt n).event = v.setWidth 10 ∧ (p.cfgAt n).sel = v.extractLsb' 10 6 ∧ (p.cfgAt n).selEn = v.getLsbD 16
    then p.holdAt n else 2 := by
  have hsame : ((p.cfgAt n).event ≠ (cfgOf v).event || (p.cfgAt n).sel ≠ (cfgOf v).sel ||
      (p.cfgAt n).selEn ≠ (cfgOf v).selEn) = true ↔
      ¬ ((p.cfgAt n).event = v.setWidth 10 ∧ (p.cfgAt n).sel = v.extractLsb' 10 6 ∧ (p.cfgAt n).selEn = v.getLsbD 16) := by
    rw [Bool.or_eq_true, Bool.or_eq_true, decide_eq_true_iff, decide_eq_true_iff, decide_eq_true_iff, cfgOf]
    tauto
  unfold writeCfg Pmu.holdAt
  extract_lets c d changed
  by_cases h : changed = true
  · rw [if_pos h, if_neg (hsame.mp h), tabGet_tabSet, if_pos rfl]
  · rw [if_neg h, if_pos (not_not.mp (hsame.not.mp h))]

theorem writeCfg_cfgAt (p : Pmu) (v : Reg32) (j : Nat) :
    (writeCfg p n v).cfgAt j = if j = n then cfgOf v else p.cfgAt j := tabGet_tabSet _ _ _ _ _

theorem counting_of {p : Pmu} (hn : n < pmuCounters u) (hf : p.freeze = false) (hen : (p.cfgAt n).en = true)
    (hb : pmuBad u n (p.cfgAt n) = false) (hh : p.holdAt n = 0) (he : (p.cfgAt n).event ≠ 0) :
    counting u p n = true := by
  simp only [counting, hn, hf, hen, hb, hh, decide_true, Bool.not_false, Bool.and_true, Bool.true_and]
  exact decide_eq_true he

end

/-! ### Accesses to BAR0 (R324, R325, R334, R336) -/

section
variable (s : State)

theorem reportWith_denied (src cause addr : Nat) (inj col : Bool) :
    (reportWith s src cause addr inj col).host.denied = s.host.denied := by
  unfold reportWith
  extract_lets old r s1 flt s2
  split <;> rfl

theorem report_denied (src cause addr : Nat) : (report s src cause addr).host.denied = s.host.denied := by
  unfold report
  split
  · rfl
  · exact reportWith_denied s _ _ _ _ _

theorem bucketReport_denied (b src cause addr : Nat) :
    (bucketReport s b src cause addr).host.denied = s.host.denied := by
  have h : (bucketAdd s b src).1.host = s.host := (bucketAdd_moves s b src).same .host rfl
  unfold bucketReport
  extract_lets r
  split
  · rw [report_denied, h]
  · rw [h]

theorem denyAccess_denied (off : Nat) : (denyAccess s off).host.denied = satAdd 32 s.host.denied 1 :=
  bucketReport_denied _ _ _ _ _

theorem denyAccess_moves (off : Nat) : Moves [.host, .flt, .resp] s (denyAccess s off) :=
  .step (answer_moves _ _) rfl (.step (bucketReport_moves _ _ _ _ _) rfl ((host_moves s _).mono rfl))

end

section
variable {s : State} {f : Func} {own : Bool} {off : Nat} {k : State → State}

theorem barGate_of_served (h : Served s f.toNat) (hs : coreRange off = true ∨ s.tack.readyNow = true)
    (ho : f.toNat = 0 ∨ own = true) : barGate s f own off k = k s := by
  unfold barGate
  split
  · exact coreAccess_of_served h ho
  · next hc => exact barAccess_of_served h (hs.resolve_left hc) ho

theorem barGate_of_denied (h : Served s f.toNat) (hs : coreRange off = true ∨ s.tack.readyNow = true)
    (hf : 0 < f.toNat) (ho : own = false) : barGate s f own off k = denyAccess s off := by
  unfold barGate
  split
  · exact coreAccess_of_denied h hf ho
  · next hc => exact barAccess_of_denied h (hs.resolve_left hc) hf ho

theorem barGate_of_closed (hi : ideDiscards s f.toNat = false)
    (h : barsOpen s f.toNat = false ∨ ¬ (coreRange off = true ∨ s.tack.readyNow = true)) :
    barGate s f own off k = s.answer .ur := by
  rcases h with h | h
  · simp [barGate, coreAccess, barAccess, hi, h]
  · obtain ⟨hc, hr⟩ := not_or.mp h
    simp [barGate, barAccess, hi, hc, hr]

theorem barGate_of_discarded (hi : ideDiscards s f.toNat = true) : barGate s f own off k = s.answer .none := by
  simp [barGate, coreAccess, barAccess, hi]

end

section
variable {s : State} {f : Func} {off size : Nat} {data : Option (BitVec 64)}

theorem barWord_write (h : Served s f.toNat) (hs : coreRange off = true ∨ s.tack.readyNow = true)
    (ho : f.toNat = 0 ∨ vfMayWrite s f.toNat off = true) (x : BitVec 64) :
    barWord s f off (some x) 0 = (writeReg s f false off (x.extractLsb' 0 32)).answer .ok := barGate_of_served h hs ho

theorem barWord_read (h : Served s f.toNat) (hs : coreRange off = true ∨ s.tack.readyNow = true)
    (ho : f.toNat = 0 ∨ vfMayRead s f.toNat off = true) : barWord s f off none 0 = answerRead (readReg s off) :=
  barGate_of_served h hs ho

/-- A word's access is a gate's, whether it writes or reads. -/
theorem barWord_closed (hi : ideDiscards s f.toNat = false)
    (h : barsOpen s f.toNat = false ∨ ¬ (coreRange off = true ∨ s.tack.readyNow = true)) :
    barWord s f off data 0 = s.answer .ur := by
  cases data <;> exact barGate_of_closed hi h

theorem barWord_discarded (hi : ideDiscards s f.toNat = true) : barWord s f off data 0 = s.answer .none := by
  cases data <;> exact barGate_of_discarded hi

theorem barSized_word (h : off % 4 = 0) : barSized s f off 4 data = barWord s f off data 0 :=
  if_pos (by simp [h])

theorem barSized_double (h : off % 8 = 0) : barSized s f off 8 data =
    (barWord (barWord s f off data 0) f off data 1).answer
      (bothHalves (barWord s f off data 0).resp (barWord (barWord s f off data 0) f off data 1).resp) := by
  simp [barSized, h]

theorem barSized_bad (h4 : size ≠ 4 ∨ off % 4 ≠ 0) (h8 : size ≠ 8 ∨ off % 8 ≠ 0) (hi : ideDiscards s f.toNat = false) :
    barSized s f off size data = s.answer .ur := by
  have h4' : ¬ (size = 4 ∧ off % 4 = 0) := by tauto
  have h8' : ¬ (size = 8 ∧ off % 8 = 0) := by tauto
  simp [barSized, h4', h8', hi]

theorem barSized_closed (hi : ideDiscards s f.toNat = false)
    (h : barsOpen s f.toNat = false ∨ ¬ (coreRange off = true ∨ s.tack.readyNow = true)) :
    barSized s f off 4 data = s.answer .ur := by
  by_cases hk : off % 4 = 0
  · rw [barSized_word hk, barWord_closed hi h]
  · exact barSized_bad (.inr hk) (.inl (by decide)) hi

theorem barSized_discarded (hi : ideDiscards s f.toNat = true) : barSized s f off 4 data = s.answer .none := by
  by_cases hk : off % 4 = 0
  · rw [barSized_word hk, barWord_discarded hi]
  · simp [barSized, hk, hi]

/-- The HI register of an 8-byte access is the next word's, with the high half of the data. -/
theorem barWord_high : barWord s f off data 1 = barWord s f (off + 4) (data.map fun x => BitVec.ushiftRight x 32) 0 := by
  cases data with
  | none => rfl
  | some x =>
    have hx : x.extractLsb' 32 32 = (BitVec.ushiftRight x 32).extractLsb' 0 32 := by
      ext i hi
      simp [BitVec.getElem_extractLsb']
    exact congrArg (barWrite s f (off + 4)) hx

end
/-- Settles O60: the PMU windows by what their commands make of a window, and BAR0 by the gate that each word passes. -/
theorem countersAndRegisters : Obligations.CountersAndRegisters := by
  refine ⟨?_, ?_⟩
  · intro f u d n v s w i p c own put
    refine ⟨fun ⟨hsv, hr, ho⟩ => ?_, fun occ hi hf hen hb hh he hocc => ?_, fun ⟨hsv, hr, ho⟩ => ?_⟩
    · have ho' : f.toNat = 0 ∨ pmuOwn s f.toNat w = true := ho.imp_left (congrArg BitVec.toNat)
      refine ⟨fun hi => ⟨?_, ?_, ?_, _, congrArg Host.Outcome.next (barAccess_of_served hsv hr ho'), ?_⟩,
        congrArg Host.Outcome.next (barAccess_of_served hsv hr ho'),
        congrArg Host.Outcome.next (barAccess_of_served hsv hr ho')⟩
      · refine congrArg Host.Outcome.next ((barAccess_of_served hsv hr ho').trans ?_)
        rw [readCount_eq hi]
        rfl
      · refine congrArg Host.Outcome.next ((barAccess_of_served hsv hr ho').trans ?_)
        rw [if_pos hi]
        rfl
      · refine congrArg Host.Outcome.next ((barAccess_of_served hsv hr ho').trans ?_)
        rw [if_pos hi]
        rfl
      · rw [if_pos hi, updPmu_def]
        refine ⟨?_, fun j hj => ?_, ?_, ?_, rfl, fun j hj => ?_, Moves.only ?_⟩
        · rw [answer_pmu, setPmu_pmu, if_pos rfl, writeCfg_cfgAt, if_pos rfl]
          rfl
        · rw [answer_pmu, setPmu_pmu, if_pos rfl, writeCfg_cfgAt, if_neg hj]
        · rw [answer_pmu, setPmu_pmu, if_pos rfl]
          rfl
        · rw [answer_pmu, setPmu_pmu, if_pos rfl]
          exact writeCfg_holdAt _ v
        · rw [answer_pmu, setPmu_pmu, if_neg hj]
        · exact .step (answer_moves _ _) rfl ((setPmu_moves s _ _).mono rfl)
    · have hcount : (counting w p i && decide (2 ^ 48 ≤ (p.count i).toNat + occ)) = true := by
        rw [counting_of hi hf hen hb hh he, decide_eq_true hocc]
        rfl
      obtain ⟨hcnt, hovf, hfrz⟩ := pmuAdd_overflow w p i occ 15 n.isLt hocc
      refine ⟨_, congrArg Host.Outcome.next (if_pos hcount), ?_⟩
      rw [updPmu_def]
      refine ⟨?_, ?_, fun hc => ?_, fun j hj => ?_, (setPmu_moves s _ _).only⟩
      · rw [setPmu_pmu, if_pos rfl, hcnt]
      · rw [setPmu_pmu, if_pos rfl, hovf]
      · rw [setPmu_pmu, if_pos rfl, hfrz hc]
      · rw [setPmu_pmu, if_pos rfl, (pmuAdd_grows w 16 p i occ).below j hj]
    · exact congrArg Host.Outcome.next (barAccess_of_served hsv hr (ho.imp_left (congrArg BitVec.toNat)))
  · intro f off v data s k served refused
    refine ⟨fun hsv hk hs => ?_, fun d => ⟨?_, fun hi => ?_, fun hi => ?_⟩, fun h => ?_⟩
    · have hf0 : f = 0 → f.toNat = 0 := congrArg BitVec.toNat
      have hpos (hf : f ≠ 0) : 0 < f.toNat := Nat.pos_of_ne_zero fun h => hf (BitVec.eq_of_toNat_eq h)
      have hdeny : (denyAccess s k).resp = .ur ∧ (denyAccess s k).host.denied = satAdd 32 s.host.denied 1 ∧
          OnlyChanges [.host, .flt, .resp] s (denyAccess s k) :=
        ⟨rfl, denyAccess_denied s k, (denyAccess_moves s k).only⟩
      have hword (d : Option (BitVec 64)) : exec (.registerWrite f off 4 d) s = .next (barWord s f k d 0) :=
        congrArg Host.Outcome.next (barSized_word hk)
      refine ⟨fun ho => ?_, fun ho => ?_, fun hf ho => ⟨_, ?_, hdeny⟩, fun hf ho => ⟨_, ?_, hdeny⟩⟩
      · exact (hword _).trans (congrArg Host.Outcome.next (barWord_write hsv hs (ho.imp_left hf0) data))
      · exact (hword _).trans (congrArg Host.Outcome.next (barWord_read hsv hs (ho.imp_left hf0)))
      · exact (hword _).trans (congrArg Host.Outcome.next (barGate_of_denied hsv hs (hpos hf) ho))
      · exact (hword _).trans (congrArg Host.Outcome.next (barGate_of_denied hsv hs (hpos hf) ho))
    · intro hk a b ha hb
      have hk4 : k % 4 = 0 := by omega
      have hoff : (off + 4).toNat = k + 4 := by
        have hlt := off.isLt
        have hk8 : off.toNat % 8 = 0 := hk
        rw [BitVec.toNat_add]
        show (off.toNat + 4) % 2 ^ 30 = off.toNat + 4
        omega
      have ha' : barWord s f k d 0 = a :=
        (barSized_word hk4).symm.trans (Host.Outcome.next.inj ha)
      have hb' : barWord a f (k + 4) (d.map fun x => BitVec.ushiftRight x 32) 0 = b := by
        refine (barSized_word (by omega)).symm.trans ?_
        rw [← hoff]
        exact Host.Outcome.next.inj hb
      refine congrArg Host.Outcome.next ((barSized_double hk).trans ?_)
      rw [ha', barWord_high, hb']
    · exact ⟨fun h => congrArg Host.Outcome.next (barSized_closed hi h),
        fun size h4 h8 => congrArg Host.Outcome.next (barSized_bad h4 h8 hi)⟩
    · exact congrArg Host.Outcome.next (barSized_discarded hi)
    · have hv : (v.setWidth 64).extractLsb' 0 32 = v := by
        ext i hi
        have hi' : i < 64 := by omega
        simp [BitVec.getElem_extractLsb', hi, hi']
      have hword : exec (.registerWrite 0 0x10004 4 (some (v.setWidth 64))) s
          = .next (barWord s 0 0x10004 (some (v.setWidth 64)) 0) :=
        congrArg Host.Outcome.next (barSized_word rfl)
      rw [hword, barWord_write h.1 (.inr h.2) (.inl rfl), hv]
      rfl

end Sys2Proof.Machine

namespace Sys2Proof.Machine
open Sys2Proof

/-! ### What sending leaves of a link's layer (R256, R277, R278) -/

/-- Every link has the NEXT_RX that it had, and drains where it drained. -/
def RxKept (s t : State) : Prop :=
  ∀ j, (t.ll j).nextRx = (s.ll j).nextRx ∧ (t.ll j).draining = (s.ll j).draining

section
variable {s t u : State}

theorem RxKept.refl (s : State) : RxKept s s := fun _ => ⟨rfl, rfl⟩

theorem RxKept.trans (h : RxKept s t) (h' : RxKept t u) : RxKept s u := fun j =>
  ⟨(h' j).1.trans (h j).1, (h' j).2.trans (h j).2⟩

theorem RxKept.ite {c : Prop} [Decidable c] (h : RxKept s t) (h' : RxKept s u) : RxKept s (if c then t else u) := by
  split <;> assumption

theorem RxKept.fold {α : Type} {f : State → α → State} (hf : ∀ st x, RxKept st (f st x)) (xs : List α) (h : RxKept s t) :
    RxKept s (xs.foldl f t) := by
  induction xs generalizing t with
  | nil => exact h
  | cons x xs ih => exact ih (h.trans (hf t x))

/-- An operation that changes no link-layer state moves none. -/
theorem Moves.rxKept {ps : List Part} (h : Moves ps s t) (hp : listed .lls ps = false) : RxKept s t :=
  fun j => ⟨congrArg LL.nextRx (h.ll j hp), congrArg LL.draining (h.ll j hp)⟩

/-- A change of one link's layer that leaves it. -/
theorem setLl_rxKept (s : State) (l : Nat) {x : LL} (hn : x.nextRx = (s.ll l).nextRx)
    (hd : x.draining = (s.ll l).draining) : RxKept s (s.setLl l x) := by
  intro j
  rw [setLl_ll]
  split
  · next hj => rw [hn, hd, hj]; exact ⟨rfl, rfl⟩
  · exact ⟨rfl, rfl⟩

end

section
variable (s : State)

theorem queueTx_rxKept (l v : Nat) (it : TxItem) : RxKept s (queueTx s l v it) := by
  unfold queueTx
  split
  · exact .refl _
  · exact setLl_rxKept s l rfl rfl

theorem sendMgmt_rxKept (d : Nat) (p : BitVec 512) : RxKept s (sendMgmt s d p) := by
  unfold sendMgmt
  split
  · exact queueTx_rxKept s _ _ _
  · exact .refl s

theorem sendCtrl0_rxKept (dev : Nat) (src : Source) (p : BitVec 512) (c : Nat) : RxKept s (sendCtrl0 s dev src p c) := by
  unfold sendCtrl0
  extract_lets g k
  split
  · exact queueTx_rxKept s _ _ _
  · exact .refl s

theorem writeVia_rxKept (a d : Nat) (v : Option Nat) : RxKept s (writeVia s a d v) := by
  unfold writeVia
  split
  · exact ((setPeer_moves s _ _).rxKept rfl)
  · exact RxKept.trans (fun _ => ⟨rfl, rfl⟩) (sendMgmt_rxKept (useTag s) _ _)

theorem computeRoutes_rxKept : RxKept s (computeRoutes s) := by
  unfold computeRoutes
  split
  · exact .refl s
  · refine .fold (fun st e => ?_) _ ((ownEmpties_moves s).rxKept rfl)
    extract_lets v st1 src
    exact .ite (.refl st) ((writeVia_rxKept st _ _ _).trans fun _ => ⟨rfl, rfl⟩)

theorem takeNotice_rxKept (dev ev link partner : Nat) : RxKept s (takeNotice s dev ev link partner) := by
  unfold takeNotice
  extract_lets s1 a d had sys s2
  have h1 : RxKept s s1 := ((raiseEvent_moves s _ _ _ _).rxKept rfl)
  have h2 : RxKept s s2 := h1.trans ((noteLinks_moves _ _ _ _).rxKept rfl)
  refine .ite ?_ (.ite ?_ (.ite ?_ h1))
  · exact (h1.trans ((addEmpty_moves _ _ _).rxKept rfl)).trans (computeRoutes_rxKept _)
  · exact (RxKept.ite (h2.trans (writeVia_rxKept _ _ _ _)) h2).trans (computeRoutes_rxKept _)
  · exact h1.trans ((noteLinks_moves _ _ _ _).rxKept rfl)

theorem sendNotice_rxKept (ev l : Nat) : RxKept s (sendNotice s ev l) := by
  unfold sendNotice sendNoticeFor
  exact .ite (.refl s) (.ite (takeNotice_rxKept s _ _ _ _) (.ite (sendMgmt_rxKept s _ _) (.refl s)))

theorem leftActive_rxKept (l : Nat) : RxKept s (leftActive s l) := by
  have h : RxKept s (s.setLl l { dropLaneCmds (s.ll l) with synced := false, syncOn := false, replayPos := none }) :=
    setLl_rxKept s l rfl rfl
  exact .ite (h.trans (sendNotice_rxKept _ _ _)) h

theorem enterDown_rxKept (l reason : Nat) : RxKept s (enterDown s l reason) := by
  have hst : RxKept s (setLinkSt s l .down) := by
    unfold setLinkSt
    extract_lets old s1
    have h : RxKept s s1 := ((setLink_moves s _ _).rxKept rfl)
    exact .ite (h.trans (leftActive_rxKept _ _)) h
  exact (hst.trans ((endHold_moves _ _).rxKept rfl)).trans ((setLink_moves _ _ _).rxKept rfl)

end

/-! ### The marks of a chute (R138 to R140) -/

section
variable (s : State) (c : Nat)

theorem chuteEvent_moves (ev : Nat) : Moves [.pmus] s (chuteEvent s c ev) := pmuCount_moves s _ _ _ _

theorem sendXoff_moves (dev : Nat) (on : Bool) : Moves [.lls, .sys, .free] s (sendXoff s dev c on) :=
  .step (sendCtrl0_moves _ _ _ _ _) rfl ((useFree_moves s).mono rfl)

theorem sendXoff_rxKept (dev : Nat) (on : Bool) : RxKept s (sendXoff s dev c on) :=
  RxKept.trans ((useFree_moves s).rxKept rfl) (sendCtrl0_rxKept _ _ _ _ _)

/-- XOFF and XON as they are sent, before REMOTE_SRC clears (R140). -/
def sendMarks (s : State) (c : Nat) (on : Bool) : State :=
  (List.range 64).foldl (fun st k => if (s.chute c).remoteSrc.getLsbD k then sendXoff st k c on else st) s

theorem notifyXoff_eq (on : Bool) : notifyXoff s c on =
    if on then sendMarks s c on else (sendMarks s c on).updChute c fun y => { y with remoteSrc := 0 } := rfl

theorem sendMarks_moves (on : Bool) : Moves [.lls, .sys, .free] s (sendMarks s c on) :=
  .fold (fun st k => .ite (sendXoff_moves st c k on) (.refl _ st)) (.refl _ s)

theorem sendMarks_rxKept (on : Bool) : RxKept s (sendMarks s c on) :=
  .fold (fun st k => .ite (sendXoff_rxKept st c k on) (.refl st)) _ (.refl s)

theorem notifyXoff_moves (on : Bool) : Moves [.chutes, .lls, .sys, .free] s (notifyXoff s c on) := by
  have h := (sendMarks_moves s c on).mono (ps := [.chutes, .lls, .sys, .free]) rfl
  exact .ite h (.step (setChute_moves _ _ _) rfl h)

theorem notifyXoff_rxKept (on : Bool) : RxKept s (notifyXoff s c on) :=
  .ite (sendMarks_rxKept s c on) ((sendMarks_rxKept s c on).trans ((setChute_moves _ _ _).rxKept rfl))

theorem crossing_moves (up : Bool) : Moves [.chutes, .host, .hostMem, .pmus] s (crossing s c up) := by
  have h := (setChute_moves s c { s.chute c with
    hwmSeen := (s.chute c).hwmSeen || up, lwmSeen := (s.chute c).lwmSeen || !up,
    crossings := (s.chute c).crossings + 1 }).mono (ps := [.chutes, .host, .hostMem, .pmus]) rfl
  exact .ite (.step (raiseEvent_moves _ _ _ _ _) rfl h) h

theorem sliceCheck_moves (old : Chute) : Moves [.flt, .host] s (sliceCheck old s c) := by
  unfold sliceCheck
  extract_lets x
  exact .ite (.refl _ s) (.ite (.step (reportInjected_moves _ _ _ _ _) rfl ((injUse_moves s _ _).mono rfl))
    ((injUse_moves s _ _).mono rfl))

/-- The parts that an evaluation of marks may change. -/
def markParts : List Part := [.chutes, .host, .hostMem, .pmus, .lls, .free, .sys, .flt]

theorem marks_moves (old : Chute) : Moves markParts s (marks old s c) := by
  unfold marks
  extract_lets x xoff s1 s2 s3
  have h1 : Moves markParts s s1 := .step (setChute_moves _ _ _) rfl ((sliceCheck_moves s c old).mono rfl)
  have h2 : Moves markParts s s2 := .ite (.step (crossing_moves _ _ _) rfl h1) h1
  have h3 : Moves markParts s s3 := .ite (.step (crossing_moves _ _ _) rfl h2) h2
  exact .ite h3 (.step (notifyXoff_moves _ _ _) rfl h3)

theorem marks_rxKept (old : Chute) : RxKept s (marks old s c) := by
  unfold marks
  extract_lets x xoff s1 s2 s3
  have h1 : RxKept s s1 := ((sliceCheck_moves s c old).rxKept rfl).trans ((setChute_moves _ _ _).rxKept rfl)
  have h2 : RxKept s s2 := .ite (h1.trans ((crossing_moves _ _ _).rxKept rfl)) h1
  have h3 : RxKept s s3 := .ite (h2.trans ((crossing_moves _ _ _).rxKept rfl)) h2
  exact .ite h3 (h3.trans (notifyXoff_rxKept _ _ _))

theorem changeChute_moves (f : Chute → Chute) : Moves markParts s (changeChute s c f) :=
  .step (marks_moves _ _ _) rfl ((setChute_moves s _ _).mono rfl)

theorem changeChute_rxKept (f : Chute → Chute) : RxKept s (changeChute s c f) :=
  ((setChute_moves s _ _).rxKept rfl).trans (marks_rxKept _ _ _)

end

/-! ### Packets given up (R132, R149, R150, R277) -/

section
variable (s : State)

theorem statusOut_moves (c : Nat) (src : Source) (p : PStat) : Moves [.lls, .sys] s (statusOut s c src p) :=
  .ite (.refl _ s) (sendCtrl0_moves s _ _ _ _)

theorem statusOut_rxKept (c : Nat) (src : Source) (p : PStat) : RxKept s (statusOut s c src p) :=
  .ite (.refl s) (sendCtrl0_rxKept s _ _ _ _)

theorem abortAtChute_moves (c : Nat) (src : Source) : Moves markParts s (abortAtChute s c src) := by
  unfold abortAtChute
  extract_lets x s1
  have h : Moves markParts s s1 := .ite (.step (statusOut_moves _ _ _ _) rfl (.step (changeChute_moves _ _ _) rfl
    ((chuteEvent_moves s _ _).mono rfl))) (.refl _ s)
  exact .step (setChute_moves _ _ _) rfl h

theorem abortAtChute_rxKept (c : Nat) (src : Source) : RxKept s (abortAtChute s c src) := by
  unfold abortAtChute
  extract_lets x s1
  have h : RxKept s s1 := .ite ((((chuteEvent_moves s _ _).rxKept rfl).trans (changeChute_rxKept _ _ _)).trans
    (statusOut_rxKept _ _ _ _)) (.refl s)
  exact h.trans ((setChute_moves _ _ _).rxKept rfl)

theorem rewindFrom_moves (dev : Nat) : Moves markParts s (rewindFrom s dev) := by
  refine .fold (fun st e => ?_) (.refl _ s)
  extract_lets st1
  have h : Moves markParts st st1 := .ite (abortAtChute_moves st _ _) (.refl _ st)
  exact .ite (.step (setChute_moves _ _ _) rfl h) h

theorem rewindFrom_rxKept (dev : Nat) : RxKept s (rewindFrom s dev) := by
  refine .fold (fun st e => ?_) _ (.refl s)
  extract_lets st1
  have h : RxKept st st1 := .ite (abortAtChute_rxKept st _ _) (.refl st)
  exact .ite (h.trans ((setChute_moves _ _ _).rxKept rfl)) h

theorem forwardEnd_moves (l v : Nat) (p : BitVec 512) (src : Source) (chute : ChuteAddr) :
    Moves [.lls, .sys] s (forwardEnd s l v p src chute) :=
  .step (setLl_moves _ _ _) rfl (queueTx_moves s _ _ _)

theorem forwardEnd_rxKept (l v : Nat) (p : BitVec 512) (src : Source) (chute : ChuteAddr) :
    RxKept s (forwardEnd s l v p src chute) :=
  (queueTx_rxKept s _ _ _).trans (setLl_rxKept _ _ rfl rfl)

theorem abortForwards_moves (l : Nat) : Moves [.lls, .sys] s (abortForwards s l) := by
  refine .fold (fun st e => ?_) (.refl _ s)
  split
  · split
    · exact .step (setLl_moves _ _ _) rfl (forwardEnd_moves st _ _ _ _ _)
    · exact .refl _ st
  · exact .refl _ st

theorem abortForwards_rxKept (l : Nat) : RxKept s (abortForwards s l) := by
  refine .fold (fun st e => ?_) _ (.refl s)
  split
  · split
    · exact (forwardEnd_rxKept st _ _ _ _ _).trans (setLl_rxKept _ _ rfl rfl)
    · exact .refl st
  · exact .refl st

theorem abortOp_moves (o : OpTimer) : Moves [.lls, .sys, .epStat] s (abortOp s o) :=
  .ite ((sendCtrl0_moves s _ _ _ _).mono rfl) ((epStat_moves s _).mono rfl)

theorem abortOp_rxKept (o : OpTimer) : RxKept s (abortOp s o) :=
  .ite (sendCtrl0_rxKept s _ _ _ _) fun _ => ⟨rfl, rfl⟩

/-- R277: what a purge does before the link's own buffers empty. -/
def purgeOthers (s : State) (l : Nat) : State :=
  abortForwards (rewindFrom ((s.ll l).ops.foldl abortOp s) (s.link l).partner.dev.toNat) l

/-- A link's layer after a purge (R277). -/
def purgedLl (y : LL) : LL :=
  { y with
    replay := [], replayPos := none, txq := [], ops := [], mid := [], openTx := [], purgedDue := true, fresh := true,
    replayCount := 0, askedSeq := none }

end
end Sys2Proof.Machine

namespace Sys2Proof.Machine
open Sys2Proof

/-! ### Two writes of one entry -/

/-- The second of two entries put at a key replaces the first. -/
theorem tabPut_tabPut {α : Type} (t : Tab α) (k : Nat) (v w : α) : tabPut (tabPut t k v) k w = tabPut t k w := by
  induction t with
  | nil => simp [tabPut]
  | cons e t ih =>
    by_cases he : e.1 = k
    · simp [tabPut, he]
    · by_cases hk : k < e.1
      · simp [tabPut, he, hk]
      · simp [tabPut, he, hk, ih]

theorem tabSet_tabSet {α : Type} [DecidableEq α] (d : Nat → α) (t : Tab α) (k : Nat) {v w : α} (hv : v ≠ d k)
    (hw : w ≠ d k) : tabSet d (tabSet d t k v) k w = tabSet d t k w := by
  rw [tabSet, if_neg hw, tabSet, if_neg hv, tabPut_tabPut, tabSet, if_neg hw]

theorem setLl_setLl (s : State) (l : Nat) {x y : LL} (hx : x ≠ {}) (hy : y ≠ {}) :
    (s.setLl l x).setLl l y = s.setLl l y :=
  congrArg (fun t => { s with lls := t }) (tabSet_tabSet (fun _ => {}) s.lls l hx hy)

/-! ### LINK_LL_CMD (R277, R278, R284, R288) -/

section
variable (s : State) (l : Nat)

theorem purgeLink_eq : purgeLink s l = (purgeOthers s l).setLl l (purgedLl ((purgeOthers s l).ll l)) := rfl

theorem purgeOthers_moves : Moves (.epStat :: markParts) s (purgeOthers s l) :=
  .step (abortForwards_moves _ _) rfl (.step (rewindFrom_moves _ _) rfl
    (.fold (fun st o => (abortOp_moves st o).mono rfl) (.refl _ s)))

theorem purgeOthers_rxKept : RxKept s (purgeOthers s l) :=
  ((RxKept.fold abortOp_rxKept _ (.refl s)).trans (rewindFrom_rxKept _ _)).trans (abortForwards_rxKept _ _)

theorem purgeLink_link (j : Nat) : (purgeLink s l).link j = s.link j := (purgeOthers_moves s l).link j rfl

/-- R277: a purge empties the buffers of the link and leaves its NEXT_RX. -/
structure Purged (x y : LL) : Prop where
  replay : y.replay = []
  txQ : ∀ v, y.txQ v = []
  ops : y.ops = []
  purgedDue : y.purgedDue = true
  fresh : y.fresh = true
  nextRx : y.nextRx = x.nextRx
  draining : y.draining = x.draining

theorem purgeLink_purged : Purged (s.ll l) ((purgeLink s l).ll l) := by
  rw [purgeLink_eq, setLl_ll, if_pos rfl]
  obtain ⟨hrx, hdr⟩ := purgeOthers_rxKept s l l
  exact ⟨rfl, fun _ => rfl, rfl, rfl, rfl, hrx, hdr⟩

/-! #### A link that leaves service (R278) -/

theorem disabledDown_link : (disabledDown s l).link l = { downLink (s.link l) dDisabled with enable := false } := by
  simp [disabledDown, updLl_def, updLink_def]

theorem disabledDown_nextRx : ((disabledDown s l).ll l).nextRx = (s.ll l).nextRx := by
  simp only [disabledDown, updLl_def, setLl_ll, if_true, updLink_def, setLink_ll]
  exact (enterDown_rxKept s l dDisabled l).1

theorem disabledDown_draining : ((disabledDown s l).ll l).draining = false := by
  rw [disabledDown, updLl_def, setLl_ll, if_pos rfl]

/-! #### The commands -/

theorem setLlResult_eq (r : Nat) : setLlResult s l r = s.setLl l { s.ll l with cmdResult := BitVec.ofNat 2 r } := rfl

variable {s l}

theorem llPurge_refused (h : (s.link l).st = .active ∨ (s.link l).st = .retrain) : llPurge s l = setLlResult s l 1 :=
  if_pos (by simpa using h)

theorem llPurge_done (ha : (s.link l).st ≠ .active) (hr : (s.link l).st ≠ .retrain) :
    llPurge s l = setLlResult (purgeLink s l) l 0 := if_neg (by simp [ha, hr])

/-- R278: the link drains; the result is the command's last word. -/
theorem llDisable_drains (h : (s.link l).st = .active) :
    llDisable s l = s.setLl l { s.ll l with draining := true, cmdResult := 0 } := by
  have hne (x : LL) (hx : x.draining = true) : x ≠ {} := fun he => by simp [he] at hx
  rw [llDisable, if_pos h, setLlResult_eq, updLl_def, setLl_ll, if_pos rfl]
  refine setLl_setLl s l (hne _ ?_) (hne _ ?_) <;> rfl

theorem llDisable_refused (h : (s.link l).st ≠ .active) : llDisable s l = setLlResult s l 1 := if_neg h

theorem llRekey_refused (h : (s.link l).st ≠ .active ∨ (s.ll l).encActive = false) : llRekey s l = setLlResult s l 1 :=
  if_neg (by rcases h with h | h <;> simp [h])

theorem llRekey_starts (ha : (s.link l).st = .active) (he : (s.ll l).encActive = true) :
    llRekey s l = setLlResult (startKeys s l) l 0 := if_pos (by simp [ha, he])

/-- R284: the first message of an exchange, if there is one. -/
def firstKey : List TxItem :=
  (Config.keyReply []).toList.map fun m => { typ := 3, payload := BitVec.ofNat 512 (5 + 2 ^ 16 * m.toNat) }

/-- R284: the exchange starts with no messages, and with the first KEY queued. -/
theorem startKeys_ll : let y := (startKeys s l).ll l
    y.keyMsgs = [] ∧ y.txQ 0 = (s.ll l).txQ 0 ++ firstKey := by
  cases h : Config.keyReply [] with
  | none =>
    have hs : startKeys s l = s.setLl l { s.ll l with keyMsgs := [] } := by rw [startKeys, h]; rfl
    rw [hs, setLl_ll, if_pos rfl, firstKey, h]
    exact ⟨rfl, (List.append_nil _).symm⟩
  | some m =>
    have hs : startKeys s l = s.setLl l { (s.ll l).setTxQ 0 ((s.ll l).txQ 0 ++
        [{ typ := 3, payload := BitVec.ofNat 512 (5 + 2 ^ 16 * m.toNat) }]) with keyMsgs := [] } := by
      rw [startKeys, h]
      rfl
    rw [hs, setLl_ll, if_pos rfl, firstKey, h]
    exact ⟨rfl, setTxQ_txQ _ _ _ _⟩

theorem startKeys_moves : Moves [.lls] s (startKeys s l) := by
  unfold startKeys
  split
  · exact setLl_moves s _ _
  · exact setLl_moves s _ _

theorem llCommand_reserved {op : Nat} (h : op = 0 ∨ 3 < op) :
    llCommand s l (if 1 ≤ op && op ≤ 3 then 0 else op) = setLlResult s l 2 := by
  rcases h with rfl | h
  · rfl
  · obtain ⟨k, rfl⟩ : ∃ k, op = k + 4 := ⟨op - 4, by omega⟩
    rw [if_neg (by simp)]
    rfl

/-- R8, R288: what a counter shows. -/
def llCounter (x : LL) : LlCounter → BitVec 32
  | .replays => x.replays
  | .crcErr => x.crcErr
  | .dups => x.dups
  | .overrun => x.overrun
  | .retrains => x.retrains
  | .unreachable => x.unreach

/-- R8: the counter cleared. -/
def clearCounter (x : LL) : LlCounter → LL
  | .replays => { x with replays := 0 }
  | .crcErr => { x with crcErr := 0 }
  | .dups => { x with dups := 0 }
  | .overrun => { x with overrun := 0 }
  | .retrains => { x with retrains := 0 }
  | .unreachable => { x with unreach := 0 }

theorem llCounter_clearCounter (x : LL) (which : LlCounter) : llCounter (clearCounter x which) which = 0 := by
  cases which <;> rfl

theorem clearCounter_nextRx (x : LL) (which : LlCounter) : (clearCounter x which).nextRx = x.nextRx := by
  cases which <;> rfl

theorem takeCounter_eq (which : LlCounter) :
    takeCounter s l which = (s.setLl l (clearCounter (s.ll l) which), (llCounter (s.ll l) which).toNat) := by
  cases which <;> rfl

end
/-- Settles O45: each command where the link's state takes it and where it does not; a purge and the end of a drain
through what they make of the link. -/
theorem linkLayerCommands : Obligations.LinkLayerCommands := by
  intro l op which s n x k result empty off
  refine ⟨fun h => ?_, fun hd ha ht => ?_, fun hd => ?_⟩
  · have hPurge : exec (.purge l) s = .next ((llPurge s n).answer .ok) :=
      congrArg Host.Outcome.next (pfAccess_of_open h)
    have hRekey : exec (.rekey l) s = .next ((llRekey s n).answer .ok) :=
      congrArg Host.Outcome.next (pfAccess_of_open h)
    have hDisable : exec (.linkDisable l) s = .next ((llDisable s n).answer .ok) :=
      congrArg Host.Outcome.next (pfAccess_of_open h)
    have hBadOp : exec (.linkLlBadOp l op) s = .next ((llCommand s n (if 1 ≤ op.toNat && op.toNat ≤ 3 then 0
        else op.toNat)).answer .ok) := congrArg Host.Outcome.next (pfAccess_of_open h)
    have hRead : exec (.linkLlCounterRead l which) s = .next (answerRead (takeCounter s n which)) :=
      congrArg Host.Outcome.next (pfAccess_of_open h)
    refine ⟨fun ha hr => ⟨_, hPurge, ?_⟩, fun hst => ?_, fun ha => ?_, fun ha => ?_, fun ha he => ⟨_, hRekey, ?_⟩,
      fun hst => ?_, fun hop => ?_, ?_⟩
    · obtain ⟨hreplay, htxq, hops, hdue, hfresh, hrx, -⟩ := purgeLink_purged s n
      rw [llPurge_done ha hr, setLlResult_eq]
      have hll : (State.answer ((purgeLink s n).setLl n { (purgeLink s n).ll n with cmdResult := BitVec.ofNat 2 0 })
          .ok).ll n = { (purgeLink s n).ll n with cmdResult := BitVec.ofNat 2 0 } := (setLl_ll _ _ _ _).trans (if_pos rfl)
      exact ⟨⟨(congrArg LL.replay hll).trans hreplay, fun v => (congrArg (LL.txQ · v) hll).trans (htxq v),
        (congrArg LL.ops hll).trans hops, (congrArg LL.purgedDue hll).trans hdue, (congrArg LL.fresh hll).trans hfresh,
        (congrArg LL.nextRx hll).trans hrx⟩, congrArg LL.cmdResult hll, rfl, by
          rw [answer_link, setLl_link, purgeLink_link]⟩
    · rw [hPurge, llPurge_refused hst]
      rfl
    · rw [hDisable, llDisable_drains ha]
    · rw [hDisable, llDisable_refused ha]
      rfl
    · obtain ⟨hmsgs, htx⟩ := startKeys_ll (s := s) (l := n)
      rw [llRekey_starts ha he, setLlResult_eq]
      refine ⟨?_, ?_, rfl, ?_, Moves.only ?_⟩
      · rw [answer_ll, setLl_ll, if_pos rfl]
        exact hmsgs
      · rw [answer_ll, setLl_ll, if_pos rfl]
        rfl
      · rw [answer_ll, setLl_ll, if_pos rfl]
        refine htx.trans (congrArg (x.txQ 0 ++ ·) ?_)
        unfold firstKey
        rcases Config.keyReply [] with _ | m <;> rfl
      · exact .step (answer_moves _ _) rfl (.step (setLl_moves _ _ _) rfl (startKeys_moves.mono rfl))
    · rw [hRekey, llRekey_refused hst]
      rfl
    · rw [hBadOp, llCommand_reserved hop]
      rfl
    · intro get
      have hget (y : LL) : get y = llCounter y which := by cases which <;> rfl
      rw [takeCounter_eq] at hRead
      refine ⟨_, hRead, ?_, ?_, ?_, fun m hm => ?_, Moves.only ?_⟩
      · rw [hget]
        exact congrArg State.resp (answerVal_toNat _ _)
      · rw [hget, answerRead, answerVal_ll, setLl_ll, if_pos rfl, llCounter_clearCounter]
      · rw [answerRead, answerVal_ll, setLl_ll, if_pos rfl, clearCounter_nextRx]
      · rw [answerRead, answerVal_ll, setLl_ll, if_neg hm]
      · exact .step (answerVal_moves _ _) rfl ((setLl_moves s _ _).mono rfl)
  · have hdrained : ((s.ll n).draining && decide ((s.link n).st = .active) && !holdsTraffic s n) = true := by
      rw [show (s.ll n).draining = true from hd, show (s.link n).st = .active from ha, ht]
      rfl
    have hlink := disabledDown_link s n
    exact ⟨disabledDown s n, congrArg Host.Outcome.next (if_pos hdrained), ⟨congrArg LinkS.st hlink,
      congrArg LinkS.downReason hlink, congrArg LinkS.enable hlink, disabledDown_draining s n⟩, disabledDown_nextRx s n⟩
  · have hlink := (purgeLink_link (disabledDown s n) n n).trans (disabledDown_link s n)
    obtain ⟨hreplay, htxq, hops, hdue, hfresh, hrx, hdr⟩ := purgeLink_purged (disabledDown s n) n
    exact ⟨_, congrArg Host.Outcome.next (if_pos hd), ⟨congrArg LinkS.st hlink, congrArg LinkS.downReason hlink,
      congrArg LinkS.enable hlink, hdr.trans (disabledDown_draining s n)⟩,
      hreplay, htxq, hops, hdue, hfresh, hrx.trans (disabledDown_nextRx s n)⟩

end Sys2Proof.Machine

namespace Sys2Proof.Machine
open Sys2Proof

/-! ### What a report leaves (R406) -/

/-- R406: the record that a report of a real fault makes or joins. -/
def metRecord (s : State) (x c addr : Nat) (col : Bool) : FRec :=
  if (s.frec x).valid then mergeRecord s (s.frec x) c false col else newRecord s x c addr false col

/-- A record is a source's, and the log's newest entry; the records of the other sources stay. -/
structure Logged (x : Nat) (r : FRec) (s t : State) : Prop where
  record : t.frec x = r
  others : ∀ y, y ≠ x → t.frec y = s.frec y
  head : t.flt.head = s.flt.head + 1
  entry : tabGet (fun _ => {}) t.flt.log (s.flt.head.toNat % 512) = r

section
variable {s : State} {x c addr : Nat}

theorem reportWith_logged (col : Bool) : Logged x (metRecord s x c addr col) s (reportWith s x c addr false col) := by
  unfold reportWith
  extract_lets old r s1 flt s2
  have h2 : Logged x (metRecord s x c addr col) s s2 :=
    ⟨(tabGet_tabSet _ _ _ _ _).trans (if_pos rfl), fun y hy => (tabGet_tabSet _ _ _ _ _).trans (if_neg hy), rfl,
      (tabGet_tabSet _ _ _ _ _).trans (if_pos rfl)⟩
  split
  · exact ⟨h2.record, h2.others, h2.head, h2.entry⟩
  · exact h2

theorem injUse_logged {k : Nat} {r : FRec} {t : State} (h : Logged x r (injUse s x k) t) : Logged x r s t := by
  unfold injUse at h
  split at h
  · split at h
    · exact ⟨h.record, h.others, h.head, h.entry⟩
    · exact h
  · exact h

theorem injUse_metRecord (k : Nat) (col : Bool) : metRecord (injUse s x k) x c addr col = metRecord s x c addr col := by
  unfold injUse
  split
  · split <;> rfl
  · rfl

theorem report_logged (hs : s.pwr.saving ≤ 1) : Logged x (metRecord s x c addr false) s (report s x c addr) := by
  rw [report, if_neg (by omega)]
  exact reportWith_logged false

/-- R406, R414: outside a save the record is made or joined, whatever is armed. -/
theorem reportMet_logged (hs : s.pwr.saving ≤ 1) :
    ∃ col, Logged x (metRecord s x c addr col) s (reportMet s x c addr) := by
  have hplain := report_logged (x := x) (c := c) (addr := addr) hs
  unfold reportMet
  split
  · next k _ =>
    split
    · have hpwr : (injUse s x k).pwr = s.pwr := (injUse_moves s x k).same .pwr rfl
      refine ⟨true, injUse_logged (k := k) ?_⟩
      rw [reportInjected, hpwr, if_neg (by omega), ← injUse_metRecord k]
      exact reportWith_logged true
    · exact ⟨false, hplain⟩
  · exact ⟨false, hplain⟩

theorem reportMet_moves (s : State) (x c addr : Nat) : Moves [.flt, .host] s (reportMet s x c addr) := by
  unfold reportMet
  split
  · exact .ite (.step (reportInjected_moves _ _ _ _ _) rfl ((injUse_moves s _ _).mono rfl)) (report_moves s _ _ _)
  · exact report_moves s _ _ _

theorem mem_addNew {α : Type} [DecidableEq α] (xs : List α) (a : α) : a ∈ addNew xs a := by
  unfold addNew
  split
  · assumption
  · simp

/-- The record's last report (R406). -/
theorem metRecord_last (col : Bool) : let q := metRecord s x c addr col
    q.valid = true ∧ q.acked = false ∧ q.lastCause = BitVec.ofNat 16 c ∧ q.lastTime = s.time ∧
      (causeCondition c = true → BitVec.ofNat 16 c ∈ q.conds) := by
  intro q
  unfold q metRecord
  split
  · next hv =>
    refine ⟨hv, rfl, rfl, rfl, fun hc => ?_⟩
    simpa only [mergeRecord, if_pos hc] using mem_addNew _ _
  · refine ⟨rfl, rfl, rfl, rfl, fun hc => ?_⟩
    simp [newRecord, hc]

theorem metRecord_new (col : Bool) (hv : (s.frec x).valid = false) :
    metRecord s x c addr col = newRecord s x c addr false col := if_neg (by simp [hv])

theorem metRecord_joins (col : Bool) (hv : (s.frec x).valid = true) :
    metRecord s x c addr col = mergeRecord s (s.frec x) c false col := if_pos hv

/-- R406: the class of a record that a report below FE joins. -/
theorem mergeRecord_cls (r : FRec) (col : Bool) (hdet : causeClass s.sys.manager c < 3) :
    let det := causeClass s.sys.manager c
    let q := mergeRecord s r c false col
    (det = r.cls.toNat → r.acked = false → q.cls = r.cls + 1 ∧ q.escalated = true) ∧
    (det = r.cls.toNat → r.acked = true → q.cls = r.cls) ∧ (det ≠ r.cls.toNat → q.cls.toNat = max det r.cls.toNat) := by
  intro det q
  have hd : (BitVec.ofNat 2 det).toNat = det := by
    rw [BitVec.toNat_ofNat]
    exact Nat.mod_eq_of_lt (by unfold det; omega)
  have heq : det = r.cls.toNat ↔ BitVec.ofNat 2 det = r.cls := by rw [← BitVec.toNat_inj, hd]
  have hq : q.cls = if decide (BitVec.ofNat 2 det = r.cls) && !r.acked && decide (r.cls ≠ 3) then r.cls + 1
      else if r.cls < BitVec.ofNat 2 det then BitVec.ofNat 2 det else r.cls := rfl
  have hesc : q.escalated = (r.escalated || (decide (BitVec.ofNat 2 det = r.cls) && !r.acked && decide (r.cls ≠ 3))) := rfl
  refine ⟨fun he ha => ?_, fun he ha => ?_, fun hne => ?_⟩
  · have h3 : r.cls ≠ 3 := by
      intro h3
      rw [h3] at he
      exact absurd he (by change det ≠ 3; unfold det; omega)
    have hall : (decide (BitVec.ofNat 2 det = r.cls) && !r.acked && decide (r.cls ≠ 3)) = true := by
      rw [decide_eq_true (heq.mp he), decide_eq_true h3, ha]
      rfl
    rw [hq, hesc, hall]
    simp
  · rw [hq]
    simp [heq.mp he, ha]
  · rw [hq]
    simp only [mt heq.mpr hne, decide_false, Bool.false_and, Bool.false_eq_true, if_false, BitVec.lt_def, hd]
    split
    · rw [hd]; omega
    · omega

end

/-! ### The device's response (R191, R402) -/

theorem queueRetire_moves (s : State) (d : Nat) : Moves [.pnet] s (queueRetire s d) := by
  unfold queueRetire
  extract_lets p s1
  exact .ite (.step (pnet_moves _ _) rfl (setSite_moves s _ _)) (.refl _ s)

/-- R191: below FE the response touches no more than the panel. -/
theorem respond_moves (s : State) (x c : Nat) (h : causeClass s.sys.manager c ≠ 3) :
    Moves [.pnet] s (respond s x c) := by
  rw [respond, if_neg h]
  split
  · split
    · exact queueRetire_moves s _
    · exact .refl _ s
  · exact .refl _ s

theorem respond_fatal (s : State) (x c : Nat) (h : causeClass s.sys.manager c = 3) : respond s x c = enterFailed s :=
  if_pos h

theorem Logged.trans_same {x : Nat} {r : FRec} {s t u : State} (h : Logged x r s t) (hf : u.flt = t.flt) :
    Logged x r s u :=
  ⟨(congrArg (fun f : Flt => tabGet _ f.recs x) hf).trans h.record, fun y hy =>
    (congrArg (fun f : Flt => tabGet _ f.recs y) hf).trans (h.others y hy), (congrArg Flt.head hf).trans h.head,
    (congrArg (fun f : Flt => tabGet (fun _ => {}) f.log (s.flt.head.toNat % 512)) hf).trans h.entry⟩

/-! ### The loss of an engine (R223) -/

section
variable (s : State) (e : Nat)

/-- The links of an engine as its loss leaves them. -/
def linksLost (s : State) (e : Nat) (ps : List Nat) : State :=
  ps.foldl (fun st p => if (st.link (8 * e + p)).st = .down then st else enterDown st (8 * e + p) 0) s

/-- The engine itself LOST. -/
def lostOe (s : State) (e : Nat) : State := s.updOe e fun o => { o with st := .lost }

theorem oeLost_ready (h : (s.oe e).st = .ready) :
    oeLost s e = linksLost (report (lostOe s e) (srcOe e) cOeLost 0) e (List.range 8) :=
  if_neg (by simp [h])

theorem linksLost_moves (ps : List Nat) :
    Moves [.links, .host, .hostMem, .pmus, .lls, .sys, .flt] s (linksLost s e ps) :=
  .fold (fun st _ => .ite (.refl _ st) (enterDown_moves st _ _)) (.refl _ s)

theorem linksLost_down (ps : List Nat) (j : Nat) (h : (s.link j).st = .down ∨ ∃ p ∈ ps, j = 8 * e + p) :
    ((linksLost s e ps).link j).st = .down := by
  induction ps generalizing s with
  | nil => simpa [linksLost] using h
  | cons p ps ih =>
    have hstep (hj : (s.link j).st = .down ∨ j = 8 * e + p) :
        (((if (s.link (8 * e + p)).st = .down then s else enterDown s (8 * e + p) 0) : State).link j).st = .down := by
      split
      · next hd => rcases hj with hj | rfl <;> assumption
      · rw [enterDown_link]
        split
        · rfl
        · exact hj.resolve_right ‹_›
    refine ih (if (s.link (8 * e + p)).st = .down then s else enterDown s (8 * e + p) 0) ?_
    rcases h with h | ⟨q, hq, hj⟩
    · exact .inl (hstep (.inl h))
    · rcases List.mem_cons.mp hq with rfl | hq
      · exact .inl (hstep (.inr hj))
      · exact .inr ⟨q, hq, hj⟩

/-- What clears a link's hold clears no record that is VALID. -/
theorem endCondition_valid (src cause x : Nat) (ha : (s.frec x).acked = false) (hv : (s.frec x).valid = true) :
    ((endCondition s src cause).frec x).valid = true ∧ ((endCondition s src cause).frec x).acked = false := by
  unfold endCondition
  extract_lets r cs
  by_cases hx : x = src
  · subst hx
    split
    · rw [if_neg (by simp [r, ha]), setFrec_frec, if_pos rfl]
      exact ⟨hv, ha⟩
    · exact ⟨hv, ha⟩
  · split
    · split
      · rw [setFrec_frec, if_neg hx]; exact ⟨hv, ha⟩
      · rw [setFrec_frec, if_neg hx]; exact ⟨hv, ha⟩
    · exact ⟨hv, ha⟩

/-- A link's way down ends at most a condition of its own; a record that waits for its acknowledgement stays. -/
theorem enterDown_valid (l reason x : Nat) (ha : (s.frec x).acked = false) (hv : (s.frec x).valid = true) :
    ((enterDown s l reason).frec x).valid = true ∧ ((enterDown s l reason).frec x).acked = false := by
  have h1 : (setLinkSt s l .down).frec x = s.frec x := (setLinkSt_moves s l .down).frec x rfl
  have h2 : ((endHold (setLinkSt s l .down) l).frec x).valid = true ∧
      ((endHold (setLinkSt s l .down) l).frec x).acked = false := by
    unfold endHold
    extract_lets k s1
    have hs1 : s1.frec x = s.frec x := h1
    split
    · exact endCondition_valid s1 _ _ x (hs1 ▸ ha) (hs1 ▸ hv)
    · rw [hs1]; exact ⟨hv, ha⟩
  exact h2

theorem linksLost_valid (ps : List Nat) (x : Nat) (ha : (s.frec x).acked = false) (hv : (s.frec x).valid = true) :
    ((linksLost s e ps).frec x).valid = true := by
  induction ps generalizing s with
  | nil => exact hv
  | cons p ps ih =>
    have hdown := enterDown_valid s (8 * e + p) 0 x ha hv
    rw [linksLost, List.foldl_cons]
    split
    · exact ih s ha hv
    · exact ih _ hdown.2 hdown.1

/-- R223: the engine, its record and its links. -/
theorem oeLost_lost (h : (s.oe e).st = .ready) (hs : s.pwr.saving ≤ 1) :
    ((oeLost s e).oe e).st = .lost ∧ ((oeLost s e).frec (srcOe e)).valid = true ∧
      ∀ p, p < 8 → ((oeLost s e).link (8 * e + p)).st = .down := by
  rw [oeLost_ready s e h]
  have hlog := report_logged (s := lostOe s e) (x := srcOe e) (c := cOeLost) (addr := 0) hs
  obtain ⟨hvalid, hacked, -⟩ := metRecord_last (s := lostOe s e) (x := srcOe e) (c := cOeLost) (addr := 0) false
  refine ⟨?_, ?_, fun p hp => linksLost_down _ e _ _ (.inr ⟨p, List.mem_range.mpr hp, rfl⟩)⟩
  · rw [(linksLost_moves _ e _).oe e rfl, (report_moves _ _ _ _).oe e rfl, lostOe, updOe_def, setOe_oe, if_pos rfl]
  · exact linksLost_valid _ e _ _ (hlog.record ▸ hacked) (hlog.record ▸ hvalid)

end
end Sys2Proof.Machine

namespace Sys2Proof.Machine
open Sys2Proof

/-! ### What ends a packet leaves FAILED as it is (R402) -/

/-- The device is FAILED where it was. -/
def FailedKept (s t : State) : Prop := t.flt.failed = s.flt.failed

section
variable {s t u : State}

theorem FailedKept.ite {c : Prop} [Decidable c] (h : FailedKept s t) (h' : FailedKept s u) :
    FailedKept s (if c then t else u) := by
  split <;> assumption

theorem FailedKept.fold {α : Type} {f : State → α → State} (hf : ∀ st x, FailedKept st (f st x)) (xs : List α)
    (h : FailedKept s t) : FailedKept s (xs.foldl f t) := by
  induction xs generalizing t with
  | nil => exact h
  | cons x xs ih => exact ih ((hf t x).trans h)

/-- An operation that leaves the collector. -/
theorem Moves.failedKept {ps : List Part} (h : Moves ps s t) (hp : listed .flt ps = false) : FailedKept s t :=
  congrArg Flt.failed (h.same .flt hp)

end

section
variable (s : State)

theorem reportWith_failedKept (x c addr : Nat) (inj col : Bool) : FailedKept s (reportWith s x c addr inj col) := by
  unfold reportWith
  extract_lets old r s1 flt s2
  exact .ite rfl rfl

theorem report_failedKept (x c addr : Nat) : FailedKept s (report s x c addr) :=
  .ite rfl (reportWith_failedKept s x c addr false false)

theorem reportInjected_failedKept (x c addr : Nat) (col : Bool) : FailedKept s (reportInjected s x c addr col) :=
  .ite rfl (reportWith_failedKept s x c addr _ _)

theorem injUse_failedKept (x k : Nat) : FailedKept s (injUse s x k) := by
  unfold injUse
  split
  · exact .ite rfl rfl
  · rfl

theorem reportMet_failedKept (x c addr : Nat) : FailedKept s (reportMet s x c addr) := by
  unfold reportMet
  split
  · exact .ite ((reportInjected_failedKept _ _ _ _ _).trans (injUse_failedKept s _ _)) (report_failedKept s _ _ _)
  · exact report_failedKept s _ _ _

theorem marks_failedKept (old : Chute) (c : Nat) : FailedKept s (marks old s c) := by
  unfold marks
  extract_lets x xoff s1 s2 s3
  have h0 : FailedKept s (sliceCheck old s c) := by
    unfold sliceCheck
    extract_lets y
    exact .ite rfl (.ite ((reportInjected_failedKept _ _ _ _ _).trans (injUse_failedKept s _ _)) (injUse_failedKept s _ _))
  have h1 : FailedKept s s1 := ((setChute_moves _ _ _).failedKept rfl).trans h0
  have h2 : FailedKept s s2 := .ite (((crossing_moves _ _ _).failedKept rfl).trans h1) h1
  have h3 : FailedKept s s3 := .ite (((crossing_moves _ _ _).failedKept rfl).trans h2) h2
  exact .ite h3 (((notifyXoff_moves _ _ _).failedKept rfl).trans h3)

theorem abortAtChute_failedKept (c : Nat) (src : Source) : FailedKept s (abortAtChute s c src) := by
  unfold abortAtChute
  extract_lets x s1
  have h : FailedKept s s1 := by
    refine .ite (((statusOut_moves _ _ _ _).failedKept rfl).trans ((marks_failedKept _ _ _).trans ?_)) rfl
    exact ((setChute_moves _ _ _).failedKept rfl).trans ((chuteEvent_moves s _ _).failedKept rfl)
  exact ((setChute_moves _ _ _).failedKept rfl).trans h

theorem abortOnLink_moves (l : Nat) (src : Source) : Moves [.lls, .sys] s (abortOnLink s l src) := by
  refine .fold (fun st o => ?_) (.refl _ s)
  exact .ite (.step (setLl_moves _ _ _) rfl (queueTx_moves st _ _ _)) (.refl _ st)

/-- The open packets of a source at this device's chutes, and then those on the links, given up (R132). -/
def abortChutes (s : State) (src : Source) : State := s.chutes.foldl (fun st e => abortAtChute st e.1 src) s
def abortLinks (s : State) (src : Source) (ls : List Nat) : State := ls.foldl (fun st l => abortOnLink st l src) s

theorem abortSource_fst (src : Source) :
    (abortSource s src).1 = abortLinks (abortChutes s src) src (List.range 64) := by
  simp only [abortSource, abortLinks, abortChutes]

theorem abortChutes_moves (src : Source) : Moves markParts s (abortChutes s src) :=
  .fold (fun st _ => abortAtChute_moves st _ _) (.refl _ s)

theorem abortLinks_moves (src : Source) (ls : List Nat) : Moves [.lls, .sys] s (abortLinks s src ls) :=
  .fold (fun st _ => abortOnLink_moves st _ _) (.refl _ s)

theorem abortSource_moves (src : Source) : Moves markParts s (abortSource s src).1 := by
  rw [abortSource_fst]
  exact .step (abortLinks_moves _ _ _) rfl (abortChutes_moves s src)

theorem abortSource_failedKept (src : Source) : FailedKept s (abortSource s src).1 := by
  have h : FailedKept s (abortChutes s src) := .fold (fun st _ => abortAtChute_failedKept st _ _) _ rfl
  rw [abortSource_fst]
  exact ((abortLinks_moves _ _ _).failedKept rfl).trans h

/-- The packets of some of a stall's ports (R81). -/
def rewindSome (s : State) (t : Nat) (ns : List Nat) : State × Nat :=
  ns.foldl (fun (x : State × Nat) n => let r := abortSource x.1 (stallSource s t n); (r.1, x.2 + r.2)) (s, 0)

theorem rewindSome_moves (t : Nat) (ns : List Nat) : Moves markParts s (rewindSome s t ns).1 := by
  unfold rewindSome
  refine .fold_fst (fun x _ => ?_) (.refl _ s)
  dsimp only
  exact abortSource_moves x.1 _

theorem rewindSome_failedKept (t : Nat) (ns : List Nat) : FailedKept s (rewindSome s t ns).1 := by
  unfold rewindSome
  refine List.foldlRecOn (motive := fun x : State × Nat => FailedKept s x.1) _ _ (rfl : FailedKept s s)
    fun x hx n _ => ?_
  dsimp only
  exact (abortSource_failedKept x.1 _).trans hx

theorem rewindPorts_moves (t : Nat) : Moves markParts s (rewindPorts s t).1 := rewindSome_moves s t (List.range 4)

theorem rewindPorts_failedKept (t : Nat) : FailedKept s (rewindPorts s t).1 :=
  rewindSome_failedKept s t (List.range 4)

end

/-! ### The end of a pen's work (R115 to R119) -/

section
variable (s : State) (p : Nat)

/-- The parts that an abort of a pen may change. -/
def abortParts : List Part := [.stalls, .pens, .sinks, .strq, .anchors] ++ markParts

theorem clearSinks_moves (t : Nat) : Moves [.sinks] s (clearSinks s t) :=
  .fold (fun st _ => setSink_moves st _ _) (.refl _ s)

theorem stopStall_moves (t : Nat) : Moves [.stalls, .sinks] s (stopStall s t) :=
  .step (clearSinks_moves _ _) rfl ((setStall_moves s _ _).mono rfl)

theorem strq_moves (q : List StrLine) : Moves [.strq] s { s with strq := q } :=
  .of_same (fun p hp => by
    cases p
    case strq => exact nomatch hp
    all_goals rfl) rfl rfl rfl rfl rfl
theorem anchors_moves (q : List AnchorMsg) : Moves [.anchors] s { s with anchors := q } :=
  .of_same (fun p hp => by
    cases p
    case anchors => exact nomatch hp
    all_goals rfl) rfl rfl rfl rfl rfl

/-- R116, R132: the packets of a pen's stalls rewound, and the stalls stopped. -/
def rewindAll (s : State) (ts : List Nat) (n : Nat) : State × Nat :=
  ts.foldl (fun (x : State × Nat) t => let q := rewindPorts x.1 t; (q.1, x.2 + q.2)) (s, n)

theorem rewindAll_moves (ts : List Nat) (n : Nat) : Moves markParts s (rewindAll s ts n).1 := by
  unfold rewindAll
  refine .fold_fst (fun x _ => ?_) (.refl _ s)
  dsimp only
  exact rewindPorts_moves x.1 _

theorem rewindAll_failedKept (ts : List Nat) (n : Nat) : FailedKept s (rewindAll s ts n).1 := by
  unfold rewindAll
  refine List.foldlRecOn (motive := fun x : State × Nat => FailedKept s x.1) _ _ (rfl : FailedKept s s)
    fun x hx n _ => ?_
  dsimp only
  exact (rewindPorts_failedKept x.1 _).trans hx

/-- The lines and the anchors on their way to a pen's stalls are gone, and its stalls stopped. -/
def cleared (s : State) (ts : List Nat) (strq : List StrLine) (anchors : List AnchorMsg) : State :=
  { s.forAll ts stopStall with strq := strq, anchors := anchors }

theorem cleared_moves (ts : List Nat) (q : List StrLine) (a : List AnchorMsg) :
    Moves [.stalls, .sinks, .strq, .anchors] s (cleared s ts q a) := by
  have h : Moves [.stalls, .sinks, .strq, .anchors] s (s.forAll ts stopStall) :=
    .fold (fun st _ => (stopStall_moves st _).mono rfl) (.refl _ s)
  exact .step (anchors_moves _ a) rfl (.step (strq_moves _ q) rfl h)

/-- R115 to R117: at the end of a pen's work its packets are rewound, its stalls stop, and its counts are set. -/
theorem penCleanup_eq (aborted : Bool) : ∃ n q a x, penCleanup s p aborted =
      (cleared (rewindAll s (grantStalls s p) n).1 (grantStalls s p) q a).setPen p x ∧
    x.st = ((cleared (rewindAll s (grantStalls s p) n).1 (grantStalls s p) q a).pen p).st := by
  unfold penCleanup
  extract_lets ts mine toks tiles lines r s1 s2
  exact ⟨(s.pen p).faultPackets, s2.strq, s2.anchors, _, rfl, rfl⟩

theorem penCleanup_moves (aborted : Bool) : Moves abortParts s (penCleanup s p aborted) := by
  obtain ⟨n, q, a, x, h, -⟩ := penCleanup_eq s p aborted
  rw [h]
  exact .step (setPen_moves _ _ _) rfl (.step (cleared_moves _ _ _ _) rfl ((rewindAll_moves s _ n).mono rfl))

theorem penCleanup_failedKept (aborted : Bool) : FailedKept s (penCleanup s p aborted) := by
  obtain ⟨n, q, a, x, h, -⟩ := penCleanup_eq s p aborted
  rw [h]
  exact ((setPen_moves _ _ _).failedKept rfl).trans
    (((cleared_moves _ _ _ _).failedKept rfl).trans (rewindAll_failedKept s _ n))

theorem penCleanup_pen_st (aborted : Bool) (j : Nat) : ((penCleanup s p aborted).pen j).st = (s.pen j).st := by
  obtain ⟨n, q, a, x, h, hx⟩ := penCleanup_eq s p aborted
  have hpen (i : Nat) : (cleared (rewindAll s (grantStalls s p) n).1 (grantStalls s p) q a).pen i = s.pen i :=
    ((cleared_moves _ _ _ _).pen i rfl).trans ((rewindAll_moves s _ n).pen i rfl)
  rw [h, setPen_pen]
  split
  · next hj => rw [hx, hpen, hj]
  · rw [hpen]

theorem penEvent_moves (code : Nat) (done : Bool) :
    Moves [.host, .hostMem, .pmus] s (penEvent s p code done) := raiseEvent_moves s _ _ _ _

/-- R119: a pen with its shadows discarded. -/
def shadowsGone (s : State) (ts : List Nat) : State :=
  s.forAll ts fun st t => st.updStall t fun x => { x with shadowValid := false }

theorem shadowsGone_moves (ts : List Nat) : Moves [.stalls] s (shadowsGone s ts) :=
  .fold (fun st _ => setStall_moves st _ _) (.refl _ s)

theorem penFaulted_eq : penFaulted s p =
    penEvent ((shadowsGone (penCleanup s p true) (grantStalls s p)).updPen p fun x =>
      { x with st := .faulted, shadow := .empty }) p (penCode .faulted) false := rfl

theorem penFaulted_moves : Moves abortParts s (penFaulted s p) := by
  rw [penFaulted_eq]
  exact .step (penEvent_moves _ _ _ _) rfl (.step (setPen_moves _ _ _) rfl (.step (shadowsGone_moves _ _) rfl
    (penCleanup_moves s p true)))

theorem penFaulted_failedKept : FailedKept s (penFaulted s p) := by
  rw [penFaulted_eq]
  exact ((penEvent_moves _ _ _ _).failedKept rfl).trans (((setPen_moves _ _ _).failedKept rfl).trans
    (((shadowsGone_moves _ _).failedKept rfl).trans (penCleanup_failedKept s p true)))

/-- R118: the pen is FAULTED, and the others are in the state that they were in. -/
theorem penFaulted_pen_st (j : Nat) :
    ((penFaulted s p).pen j).st = if j = p then .faulted else (s.pen j).st := by
  rw [penFaulted_eq, (penEvent_moves _ _ _ _).pen j rfl, updPen_def, setPen_pen]
  split
  · rfl
  · rw [(shadowsGone_moves _ _).pen j rfl, penCleanup_pen_st]

theorem setResult_pen_st (code j : Nat) : ((setResult s p code).pen j).st = (s.pen j).st := by
  rw [setResult, updPen_def, setPen_pen]
  split
  · next hj => rw [hj]
  · rfl

end

/-! ### FAILED (R118, R402) -/

section
variable (s : State)

/-- R118: the pens of a list enter FAULTED, but for those that are FREE. -/
def failPen (s st : State) (p : Nat) : State :=
  if (s.pen p).st = .free then st
  else penFaulted (if (s.pen p).st = .loading || (s.pen p).shadow = .loading then setResult st p rFault else st) p

theorem failPen_moves (st : State) (p : Nat) : Moves abortParts st (failPen s st p) :=
  .ite (.refl _ st) (.step (penFaulted_moves _ _) rfl (.ite ((setPen_moves st _ _).mono rfl) (.refl _ st)))

theorem failPen_failedKept (st : State) (p : Nat) : FailedKept st (failPen s st p) :=
  .ite rfl ((penFaulted_failedKept _ _).trans (FailedKept.ite rfl rfl))

theorem failPen_pen_st (st : State) (p j : Nat) : ((failPen s st p).pen j).st =
    if j = p ∧ (s.pen p).st ≠ .free then .faulted else (st.pen j).st := by
  unfold failPen
  by_cases hfree : (s.pen p).st = .free
  · simp [hfree]
  · rw [if_neg hfree, penFaulted_pen_st]
    simp only [ne_eq, hfree, not_false_eq_true, and_true]
    split
    · rfl
    · split
      · rw [setResult_pen_st]
      · rfl

def failPens (s st : State) (ps : List Nat) : State := ps.foldl (failPen s) st

theorem failPens_moves (st : State) (ps : List Nat) : Moves abortParts st (failPens s st ps) :=
  .fold (fun st p => failPen_moves s st p) (.refl _ st)

theorem failPens_failedKept (st : State) (ps : List Nat) : FailedKept st (failPens s st ps) :=
  .fold (fun st p => failPen_failedKept s st p) _ rfl

theorem failPens_faulted (st : State) (ps : List Nat) (j : Nat)
    (h : (st.pen j).st = .faulted ∨ j ∈ ps ∧ (s.pen j).st ≠ .free) : ((failPens s st ps).pen j).st = .faulted := by
  induction ps generalizing st with
  | nil => simpa [failPens] using h
  | cons p ps ih =>
    refine ih (failPen s st p) ?_
    rw [failPen_pen_st]
    rcases h with h | ⟨hj, hfree⟩
    · exact .inl (by split <;> [rfl; exact h])
    · rcases List.mem_cons.mp hj with rfl | hj
      · exact .inl (if_pos ⟨rfl, hfree⟩)
      · exact .inr ⟨hj, hfree⟩

/-- R11, R402: FAILED, with no load, before the pens. -/
def failing (s : State) : State :=
  { abandonTest s with flt := { (abandonTest s).flt with failed := true }, loadNow := none, loadQ := [] }

theorem enterFailed_eq (h : s.flt.failed = false) :
    enterFailed s = failPens s (failing s) (List.range 64) := by
  rw [enterFailed, if_neg (by simp [h])]
  rfl

/-- R118, R402: the device FAILED: no load is left, and every pen that was not FREE is FAULTED. -/
theorem enterFailed_failed (h : s.flt.failed = false) : let t := enterFailed s
    t.flt.failed = true ∧ t.loadNow = none ∧ t.loadQ = [] ∧
      ∀ p, p < 64 → (s.pen p).st ≠ .free → (t.pen p).st = .faulted := by
  intro t
  have ht : t = failPens s (failing s) (List.range 64) := enterFailed_eq s h
  have hm := failPens_moves s (failing s) (List.range 64)
  rw [ht]
  exact ⟨failPens_failedKept s (failing s) _, hm.same .loadNow rfl, hm.same .loadQ rfl, fun p hp hfree =>
    failPens_faulted s _ _ p (.inr ⟨List.mem_range.mpr hp, hfree⟩)⟩

end
end Sys2Proof.Machine

namespace Sys2Proof.Machine
open Sys2Proof

/-! ### Reports as the collector takes them (R402, R404) -/

section
variable {src cause : BitVec 16} {addr : BitVec 64} {s : State}

/-- A report of a source that no clause of its own treats. -/
theorem faultReport_collected (hk : reportKnown src.toNat cause.toNat = true) (hs : s.pwr.saving ≤ 1)
    (hhost : cause.toNat ≠ cHostDieLost)
    (hlost : ¬ ((cause.toNat = cOeLost ∨ cause.toNat = cClockLost) ∧ (s.oe (src.toNat - srcOe 0)).st = .ready))
    (hshut : cause.toNat ≠ cShutdown) : exec (.faultReport src cause addr) s
      = .next (respond (reportMet s src.toNat cause.toNat addr.toNat) src.toNat cause.toNat) := by
  refine congrArg Host.Outcome.next ?_
  dsimp only
  rw [if_neg (by simp [hk]; omega), if_neg hhost, if_neg (by simpa using hlost), if_neg hshut]

theorem faultReport_lost (hk : reportKnown src.toNat cause.toNat = true) (hs : s.pwr.saving ≤ 1)
    (hc : cause.toNat = cOeLost ∨ cause.toNat = cClockLost) (hr : (s.oe (src.toNat - srcOe 0)).st = .ready) :
    exec (.faultReport src cause addr) s = .next (if cause.toNat = cOeLost then oeLost s (src.toNat - srcOe 0)
      else clockGone s (src.toNat - srcOe 0)) := by
  refine congrArg Host.Outcome.next ?_
  have hhost : cause.toNat ≠ cHostDieLost := by rcases hc with h | h <;> rw [h] <;> decide
  dsimp only
  rw [if_neg (by simp [hk]; omega), if_neg hhost, if_pos (by simpa [hr] using hc)]

theorem faultReport_shutdown (hk : reportKnown src.toNat cause.toNat = true) (hs : s.pwr.saving ≤ 1)
    (hc : cause.toNat = cShutdown) :
    exec (.faultReport src cause addr) s = .next (shutDown (shutdownRecord s addr.toNat)) := by
  refine congrArg Host.Outcome.next ?_
  have hhost : cause.toNat ≠ cHostDieLost := by rw [hc]; decide
  have hlost : (decide (cause.toNat = cOeLost) || decide (cause.toNat = cClockLost)) = false := by rw [hc]; decide
  dsimp only
  rw [if_neg (by simp [hk]; omega), if_neg hhost, if_neg (by simp [hlost]), if_pos hc]

/-- R404: the sources whose cause is an engine's. -/
theorem srcOe_of_group (hk : reportKnown src.toNat cause.toNat = true)
    (hc : cause.toNat = cOeLost ∨ cause.toNat = cClockLost) : srcOe (src.toNat - srcOe 0) = src.toNat := by
  have hg : cause.toNat / 256 = sourceGroup src.toNat := by
    simp only [reportKnown, Bool.and_eq_true, decide_eq_true_eq] at hk
    exact hk.1.2
  have h4 : cause.toNat / 256 = 4 := by rcases hc with h | h <;> rw [h] <;> rfl
  have hx : srcOe 0 ≤ src.toNat := by
    refine Nat.le_of_not_lt fun hlt => ?_
    have hsrc : src.toNat < 0x1060 := hlt
    unfold sourceGroup at hg
    split at hg
    · omega
    · split at hg
      · omega
      · omega
  exact Nat.add_sub_cancel' hx

/-- R217, R223: λ0's loss is the engine's. -/
theorem clockGone_lost (e : Nat) (h : (s.oe e).st = .ready) (hs : s.pwr.saving ≤ 1) :
    ((clockGone s e).oe e).st = .lost ∧ ((clockGone s e).frec (srcOe e)).valid = true ∧
      ∀ p, p < 8 → ((clockGone s e).link (8 * e + p)).st = .down := by
  have hm := report_moves s (srcOe e) cClockLost 0
  exact oeLost_lost (report s (srcOe e) cClockLost 0) e ((congrArg OeS.st (hm.oe e rfl)).trans h)
    ((congrArg Pwr.saving (hm.same .pwr rfl)).trans_le hs)

end

/-! ### A shutdown (R397) -/

section
variable {s : State}

theorem shutdownRecord_eq (ht : s.therm.shutdown = false) (hs : s.pwr.saving = 0) (c : Nat) :
    shutdownRecord s c = enterFailed (report s srcTherm cShutdown c) := if_neg (by simp [ht, hs])

/-- A stored copy is of the flash alone (R350). -/
theorem storeCopy_eq (s : State) (target : Nat) (body : List Byte) :
    storeCopy s target body = { s with flash := (storeCopy s target body).flash } := by
  unfold storeCopy
  extract_lets k seq b n f
  split <;> rfl

/-- R397: the device as it stops, its log not yet stored. -/
def stopped (s : State) : State :=
  { haltDevice s with
    pens := s.pens, flt := { (haltDevice s).flt with failed := true },
    therm := { (haltDevice s).therm with shutdown := true } }

theorem shutDown_eq (ht : s.therm.shutdown = false) (hs : s.pwr.saving = 0) :
    shutDown s = storeLog (stopped s) (logLines s) := by
  rw [shutDown, if_neg (by simp [ht]), if_neg (by simp [hs])]
  rfl

/-- R397: the device stops, FAILED, with the states of its pens. -/
theorem shutDown_stops (ht : s.therm.shutdown = false) (hs : s.pwr.saving = 0) : let t := shutDown s
    t.flt.failed = true ∧ t.loadNow = none ∧ t.loadQ = [] ∧ t.therm.shutdown = true ∧ t.tack.readyNow = false ∧
      t.host.linkUp = false ∧ ∀ p, t.pen p = s.pen p := by
  rw [shutDown_eq ht hs, storeLog, storeCopy_eq]
  exact ⟨rfl, rfl, rfl, rfl, rfl, rfl, fun _ => rfl⟩

/-- What an abandoned test, and an entry to FAILED, leave of the heat and of a save. -/
theorem abandonTest_kept (s : State) : (abandonTest s).therm = s.therm ∧ (abandonTest s).pwr.saving = s.pwr.saving := by
  unfold abandonTest
  extract_lets f s1
  split
  · next p _ =>
    have h : Moves [.oes] (s1.updSite p fun x => { x with testing := false, powered := false })
        (clearActivity (s1.updSite p fun x => { x with testing := false, powered := false }) p) := by
      refine .fold (fun st e => ?_) (.refl _ _)
      split
      · exact setOe_moves st _ _
      · exact .refl _ st
    have hsaving := congrArg Pwr.saving (h.same .pwr rfl)
    exact ⟨h.same .therm rfl, hsaving⟩
  · exact ⟨rfl, rfl⟩

theorem enterFailed_kept (h : s.flt.failed = false) :
    (enterFailed s).therm = s.therm ∧ (enterFailed s).pwr.saving = s.pwr.saving := by
  obtain ⟨htherm, hsaving⟩ := abandonTest_kept s
  have hm := failPens_moves s (failing s) (List.range 64)
  rw [enterFailed_eq s h]
  exact ⟨(hm.same .therm rfl).trans htherm, (congrArg Pwr.saving (hm.same .pwr rfl)).trans hsaving⟩

end

/-! ### Acknowledgements and conditions (R408) -/

section
variable {s : State} {x : Nat}

theorem ackRecord_clears {v : Reg32} (hv : (s.frec x).valid = true)
    (hc : bitsAt v.toNat 0 16 = (s.frec x).count.toNat) (hn : (s.frec x).conds = []) :
    ackRecord s x v = s.setFrec x {} := by
  rw [ackRecord, if_neg (by simp [hv, hc]), if_pos hn]

theorem ackRecord_waits {v : Reg32} (hv : (s.frec x).valid = true)
    (hc : bitsAt v.toNat 0 16 = (s.frec x).count.toNat) (hn : (s.frec x).conds ≠ []) :
    ackRecord s x v = s.setFrec x { s.frec x with acked := true } := by
  rw [ackRecord, if_neg (by simp [hv, hc]), if_neg hn]

theorem ackRecord_ignored {v : Reg32}
    (h : (s.frec x).valid = false ∨ bitsAt v.toNat 0 16 ≠ (s.frec x).count.toNat) : ackRecord s x v = s :=
  if_pos (by simpa using h)

theorem endCondition_last {cause : BitVec 16} (hm : cause ∈ (s.frec x).conds) (ha : (s.frec x).acked = true)
    (hall : ∀ q ∈ (s.frec x).conds, q = cause) : endCondition s x cause.toNat = s.setFrec x {} := by
  have hnil : (s.frec x).conds.filter (· ≠ cause) = [] := by
    rw [List.filter_eq_nil_iff]
    exact fun q hq => by simp [hall q hq]
  rw [endCondition, BitVec.ofNat_toNat, BitVec.setWidth_eq, if_pos hm, hnil, ha]
  rfl

theorem endCondition_others {cause : BitVec 16} (hm : cause ∈ (s.frec x).conds)
    (h : (s.frec x).acked = false ∨ ∃ q ∈ (s.frec x).conds, q ≠ cause) : endCondition s x cause.toNat
      = s.setFrec x { s.frec x with conds := (s.frec x).conds.filter fun q => q ≠ cause } := by
  have hne : ¬ (decide ((s.frec x).conds.filter (fun q => decide (q ≠ cause)) = []) && (s.frec x).acked) = true := by
    rw [Bool.and_eq_true, decide_eq_true_iff, List.filter_eq_nil_iff]
    rintro ⟨hnil, hacked⟩
    rcases h with h | ⟨q, hq, hqc⟩
    · exact absurd hacked (by simp [h])
    · exact hnil q hq (by simpa using hqc)
  rw [endCondition, BitVec.ofNat_toNat, BitVec.setWidth_eq, if_pos hm]
  exact if_neg hne

theorem endCondition_absent {cause : BitVec 16} (hm : cause ∉ (s.frec x).conds) :
    endCondition s x cause.toNat = s := by
  rw [endCondition, BitVec.ofNat_toNat, BitVec.setWidth_eq, if_neg hm]

end

theorem causeClass_fatal {m : Bool} {c : Nat} (h : causeClass m c = 3) : ¬ (c = cOeLost ∨ c = cClockLost) := by
  rintro (rfl | rfl) <;> cases m <;> exact absurd h (by decide)

theorem causeClass_shutdown (m : Bool) : causeClass m cShutdown = 3 := by cases m <;> rfl

/-- Settles O58: what a report records through `reportMet_logged`, a loss through `oeLost_lost`, a fatal one through
`enterFailed_failed`. -/
theorem faultRecords : Obligations.FaultRecords := by
  intro src cause addr v s x c r det others lost
  have hcause : BitVec.ofNat 16 cause.toNat = cause := by simp
  refine ⟨fun hk hs hdet hhost hlost => ?_, fun hk hs hlost => ?_, fun hk hs hdet hhost hf hshut => ?_, fun h => ?_,
    fun hm => ⟨fun ha hall => ?_, fun hother => ?_⟩, fun hm => ?_, fun b => ?_, rfl, rfl⟩
  · have hnotShut : c ≠ cShutdown := fun he => by
      have h3 : det = 3 := by unfold det; rw [he]; exact causeClass_shutdown _
      omega
    obtain ⟨col, hlog⟩ := reportMet_logged (s := s) (x := x) (c := c) (addr := addr.toNat) hs
    have hsys : (reportMet s x c addr.toNat).sys = s.sys := (reportMet_moves s x c _).same .sys rfl
    have hresp : Moves [.pnet] (reportMet s x c addr.toNat) (respond (reportMet s x c addr.toNat) x c) :=
      respond_moves _ x c (by rw [hsys]; exact Nat.ne_of_lt hdet)
    have hlog := hlog.trans_same (hresp.same .flt rfl)
    obtain ⟨hvalid, hacked, hlast, htime, hconds⟩ := metRecord_last (s := s) (x := x) (c := c) (addr := addr.toNat) col
    refine ⟨_, faultReport_collected hk hs hhost hlost hnotShut, hlog.others, hlog.head, ?_, ?_⟩
    · rw [hlog.record]; exact hlog.entry
    · rw [hlog.record]
      refine ⟨hvalid, hacked, hlast.trans hcause, htime, fun h => hcause ▸ hconds h, fun hv => ?_, fun hv => ?_,
        Moves.only (.step hresp rfl ((reportMet_moves s x c _).mono rfl))⟩
      · rw [metRecord_new col hv]
        have hcls : (BitVec.ofNat 2 det).toNat = det := by
          rw [BitVec.toNat_ofNat]
          exact Nat.mod_eq_of_lt (by omega)
        exact ⟨by simp [newRecord, x], hcause, hcls, hcls, rfl, rfl, by simp [newRecord], rfl, rfl⟩
      · rw [metRecord_joins col hv]
        obtain ⟨hup, hstay, hmax⟩ := mergeRecord_cls (s := s) (c := c) r col hdet
        exact ⟨rfl, rfl, rfl, rfl, hup, hstay, hmax⟩
  · obtain ⟨hc, hready⟩ := hlost
    have hx : srcOe (x - srcOe 0) = x := srcOe_of_group hk hc
    refine ⟨_, faultReport_lost hk hs hc hready, ?_⟩
    split
    · have h := oeLost_lost s (x - srcOe 0) hready hs
      rw [hx] at h
      exact h
    · have h := clockGone_lost (s := s) (x - srcOe 0) hready hs
      rw [hx] at h
      exact h
  · by_cases hc : c = cShutdown
    · obtain ⟨ht, hsave⟩ := hshut hc
      have hrep := report_moves s srcTherm cShutdown addr.toNat
      have hfr : (report s srcTherm cShutdown addr.toNat).flt.failed = false :=
        (report_failedKept s _ _ _).trans hf
      have hrec := shutdownRecord_eq ht hsave addr.toNat
      obtain ⟨-, -, -, hpens⟩ := enterFailed_failed _ hfr
      obtain ⟨htherm, hsaving⟩ := enterFailed_kept hfr
      obtain ⟨hfailed, hnow, hq, hdown, hready, hlink, hpen⟩ := shutDown_stops (s := shutdownRecord s addr.toNat)
        (by rw [hrec, htherm, hrep.same .therm rfl, ht]) (by rw [hrec, hsaving, hrep.same .pwr rfl, hsave])
      refine ⟨_, faultReport_shutdown hk hs hc, hfailed, hnow, hq, fun _ => ⟨hdown, hready, hlink⟩, fun p hp hfree => ?_⟩
      rw [hpen, hrec]
      exact hpens p hp (by rw [hrep.pen p rfl]; exact hfree)
    · have hmet := reportMet_moves s x c addr.toNat
      have hfm : (reportMet s x c addr.toNat).flt.failed = false := (reportMet_failedKept s _ _ _).trans hf
      obtain ⟨hfailed, hnow, hq, hpens⟩ := enterFailed_failed _ hfm
      refine ⟨_, faultReport_collected hk hs hhost (fun h => causeClass_fatal hdet h.1) hc, ?_⟩
      rw [respond_fatal _ x c (by rw [hmet.same .sys rfl]; exact hdet)]
      exact ⟨hfailed, hnow, hq, fun he => absurd he hc, fun p hp hfree =>
        hpens p hp (by rw [hmet.pen p rfl]; exact hfree)⟩
  · have hAck : exec (.faultAck src v) s = .next ((ackRecord s x v).answer .ok) :=
      congrArg Host.Outcome.next (pfAccess_of_open h)
    refine ⟨fun hv hc hn => ?_, fun hv hc hn => ?_, fun hno => ?_⟩
    · rw [hAck, ackRecord_clears hv hc hn]
    · rw [hAck, ackRecord_waits hv hc hn]
    · rw [hAck, ackRecord_ignored hno]
  · exact congrArg Host.Outcome.next (endCondition_last hm ha hall)
  · exact congrArg Host.Outcome.next (endCondition_others hm hother)
  · exact congrArg Host.Outcome.next (endCondition_absent hm)
  · exact ⟨fun h => congrArg Host.Outcome.next (if_neg h), fun h => congrArg Host.Outcome.next (if_pos h)⟩

end Sys2Proof.Machine

namespace Sys2Proof.Machine
open Sys2Proof

/-! ### What the firmware keeps of its own (R350) -/

theorem flashStore_wf (m : Mem) (a : Nat) (bs : List Byte) (h : tabWf flashDefault m = true) :
    tabWf flashDefault (flashStore m a bs) = true := by
  induction bs generalizing m a with
  | nil => exact h
  | cons b bs ih => exact ih _ _ (tabWf_tabSet _ _ _ _ h)

section
variable (s : State)

theorem tack_moves (x : Tack) : Moves [.tack] s { s with tack := x } :=
  .of_same (fun p hp => by
    cases p
    case tack => exact nomatch hp
    all_goals rfl) rfl rfl rfl rfl rfl

/-- A change of the flash that keeps it canonical. -/
theorem flash_moves (x : Mem) (h : tabWf flashDefault s.flash = true → tabWf flashDefault x = true) :
    Moves [.flash] s { s with flash := x } where
  only := fun p hp => by
    cases p
    case flash => exact absurd (by simp) hp
    all_goals rfl
  canon := fun ⟨hms, hmanger, hhost, hflash, hmram⟩ => ⟨hms, hmanger, hhost, h hflash, hmram⟩

theorem storeCopy_moves (target : Nat) (body : List Byte) : Moves [.flash] s (storeCopy s target body) := by
  unfold storeCopy
  extract_lets k seq b n f
  refine .ite (flash_moves s _ fun h => ?_) (.refl _ s)
  exact flashStore_wf _ _ _ (flashStore_wf _ _ _ (tabWf_tabClear _ _ _ _ h))

theorem keepCal_moves (f : Cal → Cal) : Moves [.tack, .flash] s (keepCal s f) := by
  unfold keepCal
  extract_lets c
  exact .ite (.refl _ s) (.step (storeCopy_moves _ _ _) rfl ((tack_moves s _).mono rfl))

/-- The calibration as changed, whether it had to be stored or not. -/
theorem keepCal_cal (f : Cal → Cal) : (keepCal s f).tack.cal = f s.tack.cal := by
  unfold keepCal
  extract_lets c
  split
  · next h => exact h.symm
  · exact congrArg Tack.cal ((storeCopy_moves _ _ _).same .tack rfl)

end

/-! ### The hubs (R161, R170, R172) -/

section
variable {s : State}

/-- R161: a line with no symbol in error is as stored, and its read leaves everything. -/
theorem checkLine_sound {a : Nat} (h : popCount (s.injAt (a / 64)).toNat 3 = 0) : (checkLine s a 0).st = s := by
  unfold checkLine
  extract_lets k n inj injected collide m
  have hm : m = 0 := by
    have hinj : inj = 0 := by
      unfold inj
      split
      · rfl
      · exact h
    unfold m
    omega
  split
  · rfl
  · rfl

theorem loseStack_online {h : Nat} (hst : (s.hub h).st = .online) : loseStack s h =
    report (keepCal (s.setHub h { s.hub h with st := .lost }) fun c => { c with lostStacks := addNew c.lostStacks h })
      (srcHub h) cStackLost 0 := if_pos (by simp [hst])

theorem loseStack_moves (h : Nat) : Moves [.ms, .tack, .flash, .flt, .host] s (loseStack s h) := by
  unfold loseStack
  extract_lets s1 s2
  exact .ite (.step (report_moves _ _ _ _) rfl (.step (keepCal_moves _ _) rfl ((setHub_moves s _ _).mono rfl)))
    (.refl _ s)

/-- R172, R173: of the memory system the hub's state alone; the loss is recorded, and kept. -/
theorem loseStack_lost {h : Nat} (hst : (s.hub h).st = .online) : let t := loseStack s h
    t.ms = (s.setHub h { s.hub h with st := .lost }).ms ∧ h ∈ t.tack.cal.lostStacks ∧
      Recorded (srcHub h) cStackLost s t := by
  rw [loseStack_online hst]
  have hkeep := keepCal_moves (s.setHub h { s.hub h with st := .lost })
    fun c => { c with lostStacks := addNew c.lostStacks h }
  refine ⟨?_, ?_, fun hs => ?_⟩
  · exact ((report_moves _ _ _ _).same .ms rfl).trans (hkeep.same .ms rfl)
  · rw [(report_moves _ _ _ _).same .tack rfl, keepCal_cal]
    exact mem_addNew _ _
  · exact report_recorded _ _ _ _ (by rw [hkeep.same .pwr rfl]; exact hs)

/-- R174, R331: with nothing waiting, the end of a wait changes nothing. -/
theorem endWaits_none (hw : s.ms.waiting = []) (hb : s.ms.bells = []) : endWaits s = s := by
  have h1 : serveWaiting s = s := by
    rw [serveWaiting, hw, List.foldl_nil, ← hw]
  rw [endWaits, h1, ringHeld, hb, List.foldl_nil, ← hb]

end

/-- Settles O30: the scrub's sound read through `checkLine_sound`, the loss through `loseStack_lost`. -/
theorem hubUpkeep : Obligations.HubUpkeep := by
  intro h v s n x others
  have hothers (t : State) (y : HubS) (ht : t.ms = (s.setHub n y).ms) : t.hub n = y ∧ others t := by
    have hhub (j : Nat) : t.hub j = (s.setHub n y).hub j := congrArg (fun m : MemSys => tabGet _ m.hubs j) ht
    exact ⟨by rw [hhub, setHub_hub, if_pos rfl], fun g hg => by rw [hhub, setHub_hub, if_neg hg]⟩
  refine ⟨fun hon => ?_, fun hon => ?_, fun errs hen hon hwipe => ?_, fun why hon hrate hreach hwait hbells => ?_,
    fun hopen => ⟨?_, ?_, ?_⟩⟩
  · have hm := pmuCount_moves (s.setHub n { x with refresh := x.nextRefresh }) (wHub n) evMemRefresh 0 1
    obtain ⟨hhub, hrest⟩ := hothers _ _ (hm.same .ms rfl)
    exact ⟨_, congrArg Host.Outcome.next (if_pos hon), hhub, hrest,
      (Moves.step hm rfl ((setHub_moves s _ _).mono rfl)).only⟩
  · refine (congrArg Host.Outcome.next (if_pos hon)).trans ?_
    rw [updHub_def]
    simp [refreshRate, stackSuspect, n, x]
  · refine ⟨_, congrArg Host.Outcome.next (if_pos (by simp [hwipe]; exact ⟨hen, hon⟩)), ?_, fun he hi => ?_⟩
    · rw [updHub_def, setHub_hub, if_pos rfl]
      rfl
    · have hm := pmuCount_moves s (wHub n) evMemScrub 0 1
      have hinj (k : Nat) : (pmuCount s (wHub n) evMemScrub 0 1).injAt k = s.injAt k :=
        congrArg (fun m : MemSys => tabGet _ m.inj k) (hm.same .ms rfl)
      rw [he, checkLine_sound (by rw [hinj]; exact hi)]
      have hmem := congrArg MemSys.mem (hm.same .ms rfl)
      have hpoison := congrArg MemSys.poison (hm.same .ms rfl)
      exact ⟨hmem, hpoison,
        (Moves.step (setHub_moves _ _ _) rfl (hm.mono rfl)).only⟩
  · obtain ⟨hms, hkept, hrec⟩ := loseStack_lost (s := s) (h := n) hon
    have hlost : exec (.stackLost h why) s = .next (stackLost s n) := by
      refine congrArg Host.Outcome.next ?_
      cases why with
      | retrain => rfl
      | internal => rfl
      | poisonRate => exact if_pos (hrate rfl)
      | unreachable => exact if_pos (hreach rfl)
    rw [stackLost, endWaits_none (by rw [hms]; exact hwait) (by rw [hms]; exact hbells)] at hlost
    obtain ⟨hhub, hrest⟩ := hothers _ _ hms
    have hmem := congrArg MemSys.mem hms
    exact ⟨_, hlost, hhub, hrest, hkept, hmem, fun hs => (hrec hs).1, (loseStack_moves n).only⟩
  · exact congrArg Host.Outcome.next (pfAccess_of_open hopen)
  · exact congrArg Host.Outcome.next ((pfAccess_of_open hopen).trans (answerVal_toNat _ _))
  · exact congrArg Host.Outcome.next ((pfAccess_of_open hopen).trans (answerVal_toNat _ _))

end Sys2Proof.Machine

namespace Sys2Proof.Machine
open Sys2Proof

/-! ### Lines as bytes -/

theorem leNat_lt (bs : List Byte) : leNat bs < 256 ^ bs.length := by
  induction bs with
  | nil => decide
  | cons b bs ih =>
    have hb : b.toNat < 256 := b.isLt
    rw [List.length_cons, pow_succ]
    simp only [leNat]
    omega

theorem leBytes_leNat (bs : List Byte) : leBytes (leNat bs) bs.length = bs := by
  induction bs with
  | nil => rfl
  | cons b bs ih =>
    have hb : b.toNat < 256 := b.isLt
    have hdiv : (b.toNat + 256 * leNat bs) / 256 = leNat bs := by omega
    have hlow : BitVec.ofNat 8 (b.toNat + 256 * leNat bs) = b :=
      BitVec.eq_of_toNat_eq (by rw [BitVec.toNat_ofNat]; omega)
    simp [leBytes, leNat, hdiv, hlow, ih]

/-- Whole bytes are the bytes of their line. -/
theorem lineBytes_lineOf {bs : List Byte} (h : bs.length = 64) : lineBytes (lineOf bs) = bs := by
  have hlt : leNat bs < 2 ^ (8 * 64) := by
    rw [Nat.pow_mul]
    exact h ▸ leNat_lt bs
  have hmod : leNat bs % 2 ^ (8 * 64) = leNat bs := Nat.mod_eq_of_lt hlt
  have hline : (lineOf bs).toNat = leNat bs := (BitVec.toNat_ofNat (leNat bs) (8 * 64)).trans hmod
  rw [lineBytes, hline]
  exact h ▸ leBytes_leNat bs

@[simp] theorem length_memBytes (m : Mem) (a n : Nat) : (memBytes m a n).length = n := by
  induction n generalizing a with
  | zero => rfl
  | succ n ih => simp [memBytes, ih]

theorem memBytes_getElem? (m : Mem) (a n i : Nat) :
    (memBytes m a n)[i]? = if i < n then some (tabGet memDefault m (a + i)) else none := by
  induction n generalizing a i with
  | zero => rfl
  | succ n ih =>
    cases i with
    | zero => rfl
    | succ i => simp [memBytes, ih, Nat.add_assoc, Nat.add_comm 1]

/-! ### Stores in sound memory (R161, R162) -/

/-- A store leaves sound data sound, and its stacks in their states. -/
structure Sound (s t : State) : Prop where
  st : ∀ h, (t.hub h).st = (s.hub h).st
  poison : ∀ k, s.poisonAt k = false → t.poisonAt k = false
  inj : ∀ k, popCount (s.injAt k).toNat 3 = 0 → popCount (t.injAt k).toNat 3 = 0
  arm : t.flt.arm = s.flt.arm

section
variable {s t u : State}

theorem Sound.trans (h : Sound s t) (h' : Sound t u) : Sound s u :=
  ⟨fun n => (h'.st n).trans (h.st n), fun k hk => h'.poison k (h.poison k hk), fun k hk => h'.inj k (h.inj k hk),
    h'.arm.trans h.arm⟩

/-- An operation that leaves the memory system and the collector. -/
theorem Moves.sound {ps : List Part} (h : Moves ps s t) (hms : listed .ms ps = false) (hf : listed .flt ps = false) :
    Sound s t := by
  have hpoison (k : Nat) : t.poisonAt k = s.poisonAt k := congrArg (fun m : MemSys => tabGet _ m.poison k) (h.same .ms hms)
  have hinj (k : Nat) : t.injAt k = s.injAt k := congrArg (fun m : MemSys => tabGet _ m.inj k) (h.same .ms hms)
  exact ⟨fun n => congrArg HubS.st (h.hub n hms), fun k hk => (hpoison k).trans hk,
    fun k hk => by rw [hinj]; exact hk, congrArg Flt.arm (h.same .flt hf)⟩

theorem Moves.byteAt {ps : List Part} (h : Moves ps s t) (hms : listed .ms ps = false) (b : Nat) :
    t.byteAt b = s.byteAt b := congrArg (fun m : MemSys => tabGet memDefault m.mem b) (h.same .ms hms)

/-- The map depends on the stacks' states alone (R164). -/
theorem curOrder_of_st (h : ∀ n, (t.hub n).st = (s.hub n).st) : curOrder t = curOrder s := by
  unfold curOrder
  exact List.filter_congr fun n _ => by rw [h]

theorem memTop_of_st (h : ∀ n, (t.hub n).st = (s.hub n).st) : memTop t = memTop s := by
  rw [memTop, stackCount, curOrder_of_st h]
  rfl

theorem hubOf_of_st (h : ∀ n, (t.hub n).st = (s.hub n).st) (a : Nat) : hubOf t a = hubOf s a := by
  rw [hubOf, stackCount, curOrder_of_st h]
  rfl

theorem PlainSpan.sound {a n : Nat} (h : PlainSpan s a n) (hs : Sound s t) : PlainSpan t a n := by
  obtain ⟨harm, htop, hline⟩ := h
  refine ⟨hs.arm.trans harm, by rw [memTop_of_st hs.st]; exact htop, fun i hi => ?_⟩
  obtain ⟨hst, hpoison, hinj⟩ := hline i hi
  exact ⟨by rw [hubOf_of_st hs.st, hs.st]; exact hst, hs.poison _ hpoison, hs.inj _ hinj⟩

/-- A range within one that is sound. -/
theorem PlainSpan.part {a n b m : Nat} (h : PlainSpan s a n) (ha : a ≤ b) (hb : b + m ≤ a + n) : PlainSpan s b m := by
  obtain ⟨harm, htop, hline⟩ := h
  refine ⟨harm, by omega, fun i hi => ?_⟩
  have hi' := hline (b - a + i) (by omega)
  rwa [show a + (b - a + i) = b + i by omega] at hi'

theorem StoresBytes.trans {a : Nat} {xs ys : List Byte} (h : StoresBytes s t a xs)
    (h' : StoresBytes t u (a + xs.length) ys) : StoresBytes s u a (xs ++ ys) := by
  obtain ⟨hin, hout⟩ := h
  obtain ⟨hin', hout'⟩ := h'
  refine ⟨fun i hi => ?_, fun b hb => ?_⟩
  · rw [List.length_append] at hi
    by_cases hx : i < xs.length
    · rw [hout' _ (by omega), hin i hx, List.getD_append _ _ _ _ hx]
    · have hy := hin' (i - xs.length) (by omega)
      rw [show a + xs.length + (i - xs.length) = a + i by omega] at hy
      rw [hy, List.getD_append_right _ _ _ _ (by omega)]
  · rw [List.length_append] at hb
    rw [hout' b (by omega), hout b (by omega)]

/-- What a store in sound memory does: its bytes, and no more than the memory system and its counters. -/
structure Stores (s t : State) (a : Nat) (bs : List Byte) : Prop where
  bytes : StoresBytes s t a bs
  moves : Moves [.ms, .pmus] s t
  sound : Sound s t

theorem Stores.trans {a : Nat} {xs ys : List Byte} (h : Stores s t a xs) (h' : Stores t u (a + xs.length) ys) :
    Stores s u a (xs ++ ys) := ⟨h.bytes.trans h'.bytes, h.moves.trans h'.moves, h.sound.trans h'.sound⟩

/-- Counts come before a store without touching what it stores. -/
theorem Stores.after {a : Nat} {bs : List Byte} (hm : Moves [.pmus] s t) (h : Stores t u a bs) : Stores s u a bs := by
  obtain ⟨hin, hout⟩ := h.bytes
  exact ⟨⟨hin, fun b hb => (hout b hb).trans (hm.byteAt rfl b)⟩, .step h.moves rfl (hm.mono rfl),
    (hm.sound rfl rfl).trans h.sound⟩

end

section
variable {s : State} {a : Nat}

/-- R160: a whole line stored with no injection armed. -/
theorem storeLine_plain (harm : s.flt.arm = none) (bs : List Byte) : storeLine s a bs false =
    (putInj (putPoison (putBytes s (a / 64 * 64) bs) (a / 64) false) (a / 64) 0).updHub (hubOf s a)
      fun x => { x with wb := x.wb.filter (· ≠ a / 64) } := by
  have hm (x k : Nat) : injMask s x k = 0 := by rw [injMask, harm]
  have hu (x k : Nat) (t : State) (ht : t.flt.arm = none) : injUse t x k = t := by rw [injUse, ht]
  unfold storeLine
  extract_lets k h m s1 s2
  have hs1 : s1 = putInj (putPoison (putBytes s (a / 64 * 64) bs) (a / 64) false) (a / 64) 0 := by
    unfold s1 m
    rw [hm, hu]
    · rfl
    · exact harm
  rw [if_neg (by simp)]
  exact congrArg (fun t : State => t.updHub (hubOf s a) _) hs1

theorem putBytes_moves (s : State) (a : Nat) (bs : List Byte) : Moves [.ms] s (putBytes s a bs) :=
  ms_moves s _ (memWf_memStore _ _ _)

/-- R160: the bytes stored, at the line's address. -/
theorem storeLine_stores (harm : s.flt.arm = none) {bs : List Byte} (hlen : bs.length = 64) :
    Stores s (storeLine s a bs false) (a / 64 * 64) bs := by
  rw [storeLine_plain harm]
  refine ⟨⟨fun i hi => ?_, fun b hb => ?_⟩, ?_, ⟨fun h => ?_, fun k hk => ?_, fun k hk => ?_, rfl⟩⟩
  · refine (tabGet_memStore s.ms.mem (a / 64 * 64) bs _).trans ?_
    rw [if_pos (by omega), Nat.add_sub_cancel_left]
  · exact (tabGet_memStore s.ms.mem (a / 64 * 64) bs b).trans (if_neg (by omega))
  · have hput := putBytes_moves s (a / 64 * 64) bs
    exact .step (setHub_moves _ _ _) rfl (.step (ms_moves _ _ id) rfl (.step (ms_moves _ _ id) rfl (hput.mono rfl)))
  · rw [updHub_def, setHub_hub]
    split
    · next he => rw [he]; rfl
    · rfl
  · have hp := tabGet_tabSet (fun _ => false) s.ms.poison (a / 64) k false
    exact hp.trans (by split <;> [rfl; exact hk])
  · have hp := tabGet_tabSet (fun _ => (0 : BitVec 3)) s.ms.inj (a / 64) k 0
    refine (congrArg (fun m : BitVec 3 => popCount m.toNat 3) hp).trans ?_
    split
    · rfl
    · exact hk

/-- R162: a line with some of its bytes replaced. -/
def patched (s : State) (a : Nat) (bs : List Byte) : List Byte :=
  (lineBytes (storedLine s a)).take (a % 64) ++ bs ++ (lineBytes (storedLine s a)).drop (a % 64 + bs.length)

theorem lineBytes_storedLine : lineBytes (storedLine s a) = memBytes s.ms.mem (a / 64 * 64) 64 :=
  lineBytes_lineOf (length_memBytes _ _ _)

theorem patched_length {bs : List Byte} (h : a % 64 + bs.length ≤ 64) : (patched s a bs).length = 64 := by
  simp [patched]
  omega

theorem patched_getD {bs : List Byte} {i : Nat} (hi : i < 64) :
    (patched s a bs).getD i 0 =
      if a % 64 ≤ i ∧ i < a % 64 + bs.length then bs.getD (i - a % 64) 0 else s.byteAt (a / 64 * 64 + i) := by
  have hold : (lineBytes (storedLine s a)).length = 64 := length_lineBytes _
  rw [patched, List.getD_eq_getElem?_getD, lineBytes_storedLine]
  rw [lineBytes_storedLine] at hold
  by_cases h1 : i < a % 64
  · rw [if_neg (by omega), List.append_assoc, List.getElem?_append_left (by simp; omega), List.getElem?_take_of_lt h1,
      memBytes_getElem?, if_pos hi]
    rfl
  · by_cases h2 : i < a % 64 + bs.length
    · rw [if_pos (by omega), List.append_assoc, List.getElem?_append_right (by simp; omega),
        List.getElem?_append_left (by simp; omega), List.getD_eq_getElem?_getD]
      simp [hold, Nat.min_eq_left (Nat.le_of_lt (Nat.mod_lt a (by decide : 0 < 64)))]
    · rw [if_neg (by omega), List.getElem?_append_right (by simp; omega), List.getElem?_drop, memBytes_getElem?]
      simp only [List.length_append, List.length_take, hold]
      have hi' : a % 64 + bs.length + (i - (min (a % 64) 64 + bs.length)) = i := by omega
      rw [hi', if_pos hi]
      rfl

/-- R161, R162: a line as patched, with the line's other bytes as they were, is the bytes stored. -/
theorem patched_stores (harm : s.flt.arm = none) {bs : List Byte} (h : a % 64 + bs.length ≤ 64) :
    Stores s (storeLine s a (patched s a bs) false) a bs := by
  have hlen := patched_length (s := s) h
  obtain ⟨⟨hin, hout⟩, hm, hs⟩ := storeLine_stores (a := a) harm hlen
  refine ⟨⟨fun i hi => ?_, fun b hb => ?_⟩, hm, hs⟩
  · have hb := hin (a % 64 + i) (by omega)
    rw [show a / 64 * 64 + (a % 64 + i) = a + i by omega, patched_getD (by omega), if_pos (by omega)] at hb
    rw [hb]
    congr 1
    omega
  · by_cases hline : b < a / 64 * 64 ∨ a / 64 * 64 + 64 ≤ b
    · exact hout b (by omega)
    · have hb' := hin (b - a / 64 * 64) (by omega)
      rw [show a / 64 * 64 + (b - a / 64 * 64) = b by omega, patched_getD (by omega), if_neg (by omega)] at hb'
      rw [hb', show a / 64 * 64 + (b - a / 64 * 64) = b by omega]

/-- R161: a line with no symbol in error and no POISON. -/
theorem checkLine_plain (hp : s.poisonAt (a / 64) = false) (hi : popCount (s.injAt (a / 64)).toNat 3 = 0) :
    checkLine s a 0 = ⟨s, storedLine s a, false⟩ := by
  have hz (l : List Nat) : (0 + if a / 64 ∈ l then 0 else popCount (s.injAt (a / 64)).toNat 3) = 0 := by simp [hi]
  unfold checkLine
  simp only [hp, hz, Bool.false_eq_true, if_false, if_true]

/-- R162: a write of less than a line reads the line first. -/
theorem writeLine_part {bs : List Byte} (htop : a < memTop s) (hst : (s.hub (hubOf s a)).st ≠ .lost)
    (hlen : bs.length ≠ 64) (hp : s.poisonAt (a / 64) = false) (hi : popCount (s.injAt (a / 64)).toNat 3 = 0) :
    let t := pmuCount s (wHub (hubOf s a)) evMemRmw 0 1
    writeLine s a bs false 0 = storeLine t a (patched t a bs) false := by
  intro t
  have hms := (pmuCount_moves s (wHub (hubOf s a)) evMemRmw 0 1).same .ms rfl
  have hc : checkLine t a 0 = ⟨t, storedLine t a, false⟩ := checkLine_plain
    ((congrArg (fun m : MemSys => tabGet (fun _ => false) m.poison (a / 64)) hms).trans hp)
    ((congrArg (fun m : MemSys => popCount (tabGet (fun _ => (0 : BitVec 3)) m.inj (a / 64)).toNat 3) hms).trans hi)
  have hst' : (t.hub (hubOf s a)).st ≠ .lost := by rwa [(pmuCount_moves s _ _ _ _).hub _ rfl]
  rw [writeLine, if_neg (by omega), if_neg hst, if_neg hlen, hc]
  dsimp only
  rw [if_neg hst', if_neg (by decide)]
  rfl

/-- R162: some bytes of a line of sound memory. -/
theorem writeLine_stores {bs : List Byte} (hspan : PlainSpan s a bs.length) (hne : bs ≠ [])
    (hfit : a % 64 + bs.length ≤ 64) : Stores s (writeLine s a bs false 0) a bs := by
  have hpos : 0 < bs.length := List.length_pos_of_ne_nil hne
  obtain ⟨harm, htop, hline⟩ := hspan
  obtain ⟨hst, hpoison, hinj⟩ := hline 0 hpos
  rw [Nat.add_zero] at hst hpoison hinj
  have hnot : (s.hub (hubOf s a)).st ≠ .lost := by simp [hst]
  by_cases hlen : bs.length = 64
  · rw [writeLine, if_neg (by omega), if_neg hnot, if_pos hlen]
    have h := storeLine_stores (a := a) (s := pmuCount s (wHub (hubOf s a)) evMemWrites 0 1) harm hlen
    rw [show a / 64 * 64 = a by omega] at h
    exact h.after (pmuCount_moves s _ _ _ _)
  · rw [writeLine_part (by omega) hnot hlen hpoison hinj]
    exact (patched_stores (s := pmuCount s (wHub (hubOf s a)) evMemRmw 0 1) harm hfit).after (pmuCount_moves s _ _ _ _)

/-- R162: bytes of sound memory, line by line. -/
theorem writeSpan_stores {bs : List Byte} {fuel : Nat} (hspan : PlainSpan s a bs.length)
    (hfuel : bs ≠ [] → a % 64 + bs.length ≤ 64 * fuel) : Stores s (writeSpan s a bs false fuel) a bs := by
  induction fuel generalizing s a bs with
  | zero =>
    have hnil : bs = [] := by
      by_contra hne
      have hpos : 0 < bs.length := List.length_pos_of_ne_nil hne
      have := hfuel hne
      omega
    rw [hnil]
    exact ⟨⟨fun i hi => absurd hi (by simp), fun _ _ => rfl⟩, .refl _ s, ⟨fun _ => rfl, fun _ => id, fun _ => id, rfl⟩⟩
  | succ fuel ih =>
    rw [writeSpan]
    split
    · next hnil =>
      rw [hnil]
      exact ⟨⟨fun i hi => absurd hi (by simp), fun _ _ => rfl⟩, .refl _ s, ⟨fun _ => rfl, fun _ => id, fun _ => id, rfl⟩⟩
    · next hne =>
      have hpos : 0 < bs.length := List.length_pos_of_ne_nil hne
      have hfuel := hfuel hne
      extract_lets here
      have hhere : here ≤ bs.length ∧ 0 < here ∧ a % 64 + here ≤ 64 ∧ (here = bs.length ∨ a % 64 + here = 64) := by
        unfold here
        omega
      clear_value here
      obtain ⟨hle, hhp, hfit, hend⟩ := hhere
      have htake : (bs.take here).length = here := by simp [hle]
      have hdrop : (bs.drop here).length = bs.length - here := by simp
      have hfirst : Stores s (writeLine s a (bs.take here) false 0) a (bs.take here) :=
        writeLine_stores (by rw [htake]; exact hspan.part (Nat.le_refl a) (by omega))
          (fun hn => by rw [hn] at htake; exact absurd htake (by simp; omega)) (by rw [htake]; exact hfit)
      have hrest := ih (s := writeLine s a (bs.take here) false 0) (a := a + here) (bs := bs.drop here)
        (by rw [hdrop]; exact (hspan.part (by omega) (by omega)).sound hfirst.sound) (fun hmore => by
          have hleft : 0 < (bs.drop here).length := List.length_pos_of_ne_nil hmore
          rw [hdrop] at hleft ⊢
          omega)
      have h := hfirst.trans (by rw [htake]; exact hrest)
      rwa [List.take_append_drop] at h

theorem writeMem_stores {bs : List Byte} (hspan : PlainSpan s a bs.length) : Stores s (writeMem s a bs false) a bs :=
  writeSpan_stores hspan fun _ => by omega

end
end Sys2Proof.Machine

namespace Sys2Proof.Machine
open Sys2Proof

/-! ### Request numbers (R295, R296) -/

section
variable {s : State}

/-- Fewer than 256 reads leave a request number that none of them holds. -/
theorem exists_freeTag (h : s.sys.reads.length < 256) : ∃ t : BitVec 8, ∀ r ∈ s.sys.reads, r.tag ≠ t := by
  by_contra hall
  push Not at hall
  have hsub : Finset.range 256 ⊆ (s.sys.reads.map fun r => r.tag.toNat).toFinset := fun i hi => by
    obtain ⟨r, hr, ht⟩ := hall (BitVec.ofNat 8 i)
    have hlt : i < 256 := Finset.mem_range.mp hi
    exact List.mem_toFinset.mpr (List.mem_map.mpr ⟨r, hr, by rw [ht, BitVec.toNat_ofNat, Nat.mod_eq_of_lt hlt]⟩)
  have hcard := (Finset.card_le_card hsub).trans (List.toFinset_card_le _)
  rw [Finset.card_range, List.length_map] at hcard
  omega

/-- Every request number is one of those that are tried. -/
theorem tag_tried (n t : BitVec 8) : t ∈ (List.range 256).map fun i => n + BitVec.ofNat 8 i :=
  List.mem_map.mpr ⟨(t - n).toNat, List.mem_range.mpr (t - n).isLt, by
    rw [BitVec.ofNat_toNat, BitVec.setWidth_eq, BitVec.add_comm, BitVec.sub_add_cancel]⟩

/-- R295: no read under way has the next request number. -/
theorem freeTag_fresh (h : s.sys.reads.length < 256) : ∀ q ∈ s.sys.reads, q.tag ≠ freeTag s := by
  obtain ⟨t, ht⟩ := exists_freeTag h
  unfold freeTag
  cases hf : ((List.range 256).map fun i => s.sys.nextTag + BitVec.ofNat 8 i).find? fun t =>
      !(s.sys.reads.any fun r => r.tag = t) with
  | none =>
    have hno := List.find?_eq_none.mp hf t (tag_tried _ t)
    simp only [Bool.not_eq_true', Bool.not_eq_false, List.any_eq_true, decide_eq_true_eq] at hno
    obtain ⟨r, hr, he⟩ := hno
    exact absurd he (ht r hr)
  | some u =>
    intro q hq he
    have hu := List.find?_some hf
    simp only [Bool.not_eq_true', List.any_eq_false, decide_eq_true_eq] at hu
    exact hu q hq he

/-! ### BAR2 (R294, R296) -/

section
variable {off : BitVec 36} {wide : Bool} {v : BitVec 64}

/-- The PF reaches BAR2 of the manager. -/
theorem bar2_open (h : CoreOpen s) (hm : s.sys.manager = true) (ha : aligned off wide = true) (k : State → State) :
    bar2 s off wide k = k s := by
  rw [bar2, if_neg (by simp [hm, ha])]
  exact pfCore_of_open h

theorem aligned_narrow (h : off.toNat % 4 = 0) : aligned off false = true := by simpa [aligned] using h

theorem aligned_wide (h : off.toNat % 8 = 0) : aligned off true = true := by simpa [aligned] using h

theorem aligned_of (h : off.toNat % 4 = 0) (hw : wide = true → off.toNat % 8 = 0) : aligned off wide = true := by
  cases wide with
  | false => exact aligned_narrow h
  | true => exact aligned_wide (hw rfl)

/-- R323: UR where BAR2 is no manager's, and where an access is not aligned. -/
theorem bar2_refused (h : s.sys.manager = false ∨ off.toNat % 4 ≠ 0) (k : State → State) :
    bar2 s off false k = s.answer .ur := by
  refine if_pos ?_
  rcases h with h | h <;> simp [h, aligned]

section
variable (h : CoreOpen s) (hm : s.sys.manager = true) (ha : aligned off wide = true)
include h hm ha

theorem bar2Read_own (hd : (bar2Dev off).toNat = myDev s) :
    exec (.bar2Read off wide) s = .next (ownRead s (bar2Off off).toNat wide) :=
  congrArg Host.Outcome.next ((bar2_open h hm ha _).trans (if_pos hd))

theorem bar2Write_own (hd : (bar2Dev off).toNat = myDev s) :
    exec (.bar2Write off v wide) s = .next (ownWrite s (bar2Off off).toNat v wide) :=
  congrArg Host.Outcome.next ((bar2_open h hm ha _).trans (if_pos hd))

theorem bar2Read_other (hd : ¬ (bar2Dev off).toNat = myDev s) : exec (.bar2Read off wide) s =
    .next (beginRead (s.answer .none) { tag := 0, dev := bar2Dev off, addr := bar2Off off, wide := wide, lo := none }) :=
  congrArg Host.Outcome.next ((bar2_open h hm ha _).trans (if_neg hd))

end

theorem bar2Write_other (h : CoreOpen s) (hm : s.sys.manager = true) (ha : aligned off false = true)
    (hd : ¬ (bar2Dev off).toNat = myDev s) : exec (.bar2Write off v false) s =
    .next ((csrWrite s (bar2Dev off) (bar2Off off) (loHalf v.toNat)).answer .ok) :=
  congrArg Host.Outcome.next ((bar2_open h hm ha _).trans (if_neg hd))

theorem ownRead_served {a : Nat} (h : coreRange a = true ∨ s.tack.readyNow = true) : ownRead s a wide =
    if !wide then answerRead (readReg s a) else
      (readReg (readReg s a).1 (a + 4)).1.answerVal ((readReg s a).2 + 2 ^ 32 * (readReg (readReg s a).1 (a + 4)).2) :=
  if_neg (by rcases h with h | h <;> simp [h])

theorem ownWrite_served {a : Nat} (h : coreRange a = true ∨ s.tack.readyNow = true) : ownWrite s a v wide =
    (if wide then writeReg (writeReg s 0 true a (v.setWidth 32)) 0 true (a + 4) (v.extractLsb' 32 32)
      else writeReg s 0 true a (v.setWidth 32)).answer .ok := if_neg (by rcases h with h | h <;> simp [h])

end

/-- R296: a device within reach is sent a request, or the read stalls. -/
theorem beginRead_reached {r : CsrRead} (h : reachOf s r.dev.toNat ≠ 0) : beginRead s r = startRead s r := if_pos h

/-- R296: below 32 outstanding reads the request goes out. -/
theorem startRead_sent {r : CsrRead} (h : s.sys.reads.length < 32) : startRead s r =
    sendCsr { s with sys := { s.sys with
      reads := s.sys.reads ++ [{ r with tag := freeTag s }], nextTag := freeTag s + 1 } } (freeTag s) r.dev r.addr 0 0 :=
  if_pos h

theorem startRead_stalled {r : CsrRead} (h : 32 ≤ s.sys.reads.length) :
    startRead s r = { s with sys := { s.sys with stalled := s.sys.stalled ++ [r] } } := if_neg (Nat.not_lt.mpr h)

theorem readHalf_narrow {r : CsrRead} (hw : r.wide = false) (v : Nat) :
    readHalf s r v = (s.answerVal (v % 2 ^ 32), none) := by rw [readHalf, hw]

theorem beginRead_narrow {r : CsrRead} (h : reachOf s r.dev.toNat = 0) (hw : r.wide = false) :
    beginRead s r = (countDropped s).answerVal (2 ^ 32 - 1) := by
  rw [beginRead, if_neg (by simp [h]), readHalf_narrow hw]
  rfl

/-- R296: the end of a read of 4 bytes, with nothing stalled behind it. -/
theorem endRead_narrow {r : CsrRead} {v : Nat} (hw : r.wide = false) (hs : s.sys.stalled = []) : endRead s r v =
    State.answerVal { s with sys := { s.sys with reads := s.sys.reads.filter (·.tag ≠ r.tag) } } (v % 2 ^ 32) := by
  rw [endRead, readHalf_narrow hw]
  exact congrArg (fun q : List CsrRead => startStalled q.length _) hs

/-! ### The intake chute and SYS_STATUS (R299, R315) -/

theorem intake_taken (he : s.sys.intakeEn = true) (hw : wipeComplete s = true)
    (hd : (s.chute s.sys.intakeChute.toNat).st ≠ .disabled) (hr : (s.chute s.sys.intakeChute.toNat).ready ≠ 0)
    (hc : chuteWaits s s.sys.intakeChute.toNat = false) {r : State × List Byte × Bool}
    (htake : takePacket s s.sys.intakeChute.toNat 1024 = r) :
    exec .intakePacket s = .next (if (intakeRange s r.2.1).any fun a => reqWaits s a (r.2.1.length - 64) then s
      else intakeTake r.1 (intakeRange s r.2.1) r.2.1 r.2.2) := by
  subst htake
  exact congrArg Host.Outcome.next (if_neg (by simp [he, hw, hd, hr, hc]))

/-- The three bits and the count of SYS_STATUS. -/
theorem sysStatus_fields (a b c : Bool) (n : BitVec 16) :
    let x := bit a + 2 * bit b + 2 ^ 2 * bit c + 2 ^ 16 * n.toNat
    bitsAt x 16 16 = n.toNat ∧ bitAt x 0 = a ∧ bitAt x 1 = b ∧ bitAt x 2 = c := by
  intro x
  have hn : n.toNat < 2 ^ 16 := n.isLt
  have hx : x = bit a + 2 * bit b + 4 * bit c + 65536 * n.toNat := rfl
  have hle (y : Bool) : bit y ≤ 1 := by cases y <;> decide
  have hbit (y : Bool) : decide (bit y = 1) = y := by cases y <;> rfl
  have ha := hle a
  have hb := hle b
  have hc := hle c
  refine ⟨?_, ?_, ?_, ?_⟩
  · unfold bitsAt; omega
  · rw [bitAt, show x / 2 ^ 0 % 2 = bit a by omega, hbit]
  · rw [bitAt, show x / 2 ^ 1 % 2 = bit b by omega, hbit]
  · rw [bitAt, show x / 2 ^ 2 % 2 = bit c by omega, hbit]

end

/-- Settles O50: BAR2 by whose window is meant and whether it is in reach; the packet through `writeMem_stores`. -/
theorem managerAccesses : Obligations.ManagerAccesses := by
  intro off v w tag s d a mine count ones tagNow
  refine ⟨freeTag_fresh, fun h hm h4 => ⟨fun hd hsrv => ⟨?_, ?_, fun h8 => ⟨?_, ?_⟩⟩, fun hd hreach =>
    ⟨fun wide hw => ⟨fun hroom => ?_, fun hfull => ?_⟩, ?_⟩, fun hd hreach => ⟨?_, ?_⟩⟩, fun h => ⟨?_, ?_⟩,
    fun r hr hw hstalled => ?_, ?_, fun h => ⟨?_, ?_⟩⟩
  · rw [bar2Read_own h hm (aligned_narrow h4) hd, ownRead_served hsrv]
    rfl
  · rw [bar2Write_own h hm (aligned_narrow h4) hd, ownWrite_served hsrv]
    rfl
  · intro lo hi
    rw [bar2Read_own h hm (aligned_wide h8) hd, ownRead_served hsrv]
    rfl
  · rw [bar2Write_own h hm (aligned_wide h8) hd, ownWrite_served hsrv]
    rfl
  · rw [bar2Read_other h hm (aligned_of h4 hw) hd, beginRead_reached hreach,
      startRead_sent (s := s.answer .none) hroom]
    rfl
  · rw [bar2Read_other h hm (aligned_of h4 hw) hd, beginRead_reached hreach,
      startRead_stalled (s := s.answer .none) hfull]
    rfl
  · rw [bar2Write_other h hm (aligned_narrow h4) hd, csrWrite, if_neg hreach]
    rfl
  · rw [bar2Read_other h hm (aligned_narrow h4) hd, beginRead_narrow hreach rfl]
    rfl
  · rw [bar2Write_other h hm (aligned_narrow h4) hd, csrWrite, if_pos hreach]
    rfl
  · exact congrArg Host.Outcome.next (bar2_refused h _)
  · exact congrArg Host.Outcome.next (bar2_refused h _)
  · have hexec : exec (.csrReadTimeout tag) s = .next (endRead (countDropped s) r (2 ^ 32 - 1)) := by
      refine congrArg Host.Outcome.next ?_
      rw [hr]
    rw [hexec, endRead_narrow (s := countDropped s) hw hstalled]
    rfl
  · intro c r hen hwipe hst hready hwaits
    have hexec := intake_taken hen hwipe hst hready hwaits (r := r) rfl
    refine ⟨fun at_ hrange hreq hpois hspan => ?_, fun at_ hrange hreq => ?_, fun hrange => ?_⟩
    · have hw := writeMem_stores (s := r.1) (a := at_) (bs := r.2.1.drop 64) (by rw [List.length_drop]; exact hspan)
      rw [hrange, Option.any_some, hreq, if_neg Bool.false_ne_true, intakeTake, hpois, if_neg Bool.false_ne_true] at hexec
      exact ⟨_, hexec, hw.bytes, hw.moves.only⟩
    · rw [hexec, hrange, Option.any_some, hreq, if_pos rfl]
    · rw [hrange, Option.any_none, if_neg Bool.false_ne_true] at hexec
      exact ⟨_, hexec, report_recorded _ _ _ _, (report_moves _ _ _ _).only⟩
  · exact congrArg Host.Outcome.next (pfAccess_of_open h)
  · obtain ⟨hdropped, htwo, hdup, hshuffle⟩ := sysStatus_fields s.sys.twoMgr s.sys.dup s.sys.shuffle s.sys.dropped
    exact ⟨_, congrArg Host.Outcome.next (pfAccess_of_open h), _, rfl, hdropped, htwo, hdup, hshuffle, rfl,
      (Moves.step (answerVal_moves _ _) rfl ((sys_moves s _).mono rfl)).only⟩

end Sys2Proof.Machine

namespace Sys2Proof.Machine
open Sys2Proof

/-! ### Events and the states of functions (R328 to R330) -/

section
variable (s : State) (n typ src info : Nat)

theorem pmuCount_fn (w ev inst k m : Nat) : (pmuCount s w ev inst k).fn m = s.fn m :=
  (pmuCount_moves s w ev inst k).fn m rfl

/-- An entry of a ring is the ring's function's alone. -/
theorem ringEntry_fn (m : Nat) : (ringEntry s n typ src info).fn m = if m = n then
    { s.fn n with tail := (s.fn n).tail + 1, irq := true,
                  msix0 := if (s.fn n).irq then (s.fn n).msix0 else (s.fn n).msix0 + 1 }
    else s.fn m := by
  rw [ringEntry, pmuCount_fn, setFn_fn]
  split
  · rfl
  · exact (hostStore_moves s _ _ _).fn m rfl

theorem flushLost_fn_other (m : Nat) (h : m ≠ n) : (flushLost s n).fn m = s.fn m := by
  unfold flushLost
  split
  · rw [updFn_def, setFn_fn, if_neg h, ringEntry_fn, if_neg h]
  · rfl

/-- A function that lost no event has no OVERFLOW to write. -/
theorem flushLost_none (h : (s.fn n).lost = 0) : flushLost s n = s := if_neg (by simp [h])

/-- What an event leaves of the function that it is raised to. -/
structure RingKept (x y : Fn) : Prop where
  st : y.st = x.st
  evqEn : y.evqEn = x.evqEn

theorem ringEntry_kept (m : Nat) : RingKept (s.fn m) ((ringEntry s n typ src info).fn m) := by
  rw [ringEntry_fn]
  split
  · next h => rw [h]; exact ⟨rfl, rfl⟩
  · exact ⟨rfl, rfl⟩

theorem RingKept.trans {x y z : Fn} (h : RingKept x y) (h' : RingKept y z) : RingKept x z :=
  ⟨h'.st.trans h.st, h'.evqEn.trans h.evqEn⟩

theorem flushLost_kept (m : Nat) : RingKept (s.fn m) ((flushLost s n).fn m) := by
  unfold flushLost
  split
  · refine (ringEntry_kept s n evOverflow 0 (s.fn n).lost m).trans ?_
    rw [updFn_def, setFn_fn]
    split
    · next h => rw [h]; exact ⟨rfl, rfl⟩
    · exact ⟨rfl, rfl⟩
  · exact ⟨rfl, rfl⟩

theorem raiseEvent_fn_other (m : Nat) (h : m ≠ n) : (raiseEvent s n typ src info).fn m = s.fn m := by
  unfold raiseEvent
  split
  · rfl
  · extract_lets s1
    have h1 : s1.fn m = s.fn m := flushLost_fn_other s n m h
    split
    · rw [ringEntry_fn, if_neg h, h1]
    · rw [pmuCount_fn, updFn_def, setFn_fn, if_neg h, h1]

theorem raiseEvent_kept (m : Nat) : RingKept (s.fn m) ((raiseEvent s n typ src info).fn m) := by
  unfold raiseEvent
  split
  · exact ⟨rfl, rfl⟩
  · extract_lets s1
    refine (flushLost_kept s n m).trans ?_
    split
    · exact ringEntry_kept s1 n typ src info m
    · rw [pmuCount_fn, updFn_def, setFn_fn]
      split
      · next h => rw [h]; exact ⟨rfl, rfl⟩
      · exact ⟨rfl, rfl⟩

/-- R330: a ring that takes entries, with none lost before, gets the event's. -/
theorem raiseEvent_written : EventWritten n s (raiseEvent s n typ src info) := by
  intro hopen hlost hst
  rw [raiseEvent, if_neg hst, flushLost_none s n hlost]
  dsimp only
  rw [if_pos hopen, ringEntry_fn, if_pos rfl]

/-- R330: a ring that is off takes no entry. -/
theorem raiseEvent_off (h : (s.fn n).evqEn = false) :
    ((raiseEvent s n typ src info).fn n).tail = (s.fn n).tail ∧
      ((raiseEvent s n typ src info).fn n).head = (s.fn n).head := by
  have hclosed : ringOpen s n = false := by simp [ringOpen, h]
  have hflush : flushLost s n = s := if_neg (by simp [hclosed])
  unfold raiseEvent
  split
  · exact ⟨rfl, rfl⟩
  · rw [hflush]
    dsimp only
    rw [if_neg (by simp [hclosed]), pmuCount_fn, updFn_def, setFn_fn, if_pos rfl]
    exact ⟨rfl, rfl⟩

end

/-! ### Operations that leave the states of functions -/

/-- Every function is in the state that it was in. -/
def FnStKept (s t : State) : Prop := ∀ m, (t.fn m).st = (s.fn m).st

section
variable {s t u : State}

theorem FnStKept.refl (s : State) : FnStKept s s := fun _ => rfl

theorem FnStKept.trans (h : FnStKept s t) (h' : FnStKept t u) : FnStKept s u := fun m => (h' m).trans (h m)

theorem FnStKept.ite {c : Prop} [Decidable c] (h : FnStKept s t) (h' : FnStKept s u) :
    FnStKept s (if c then t else u) := by
  split <;> assumption

theorem FnStKept.fold {α : Type} {f : State → α → State} (hf : ∀ st x, FnStKept st (f st x)) (xs : List α)
    (h : FnStKept s t) : FnStKept s (xs.foldl f t) := by
  induction xs generalizing t with
  | nil => exact h
  | cons x xs ih => exact ih (h.trans (hf t x))

theorem Moves.fnStKept {ps : List Part} (h : Moves ps s t) (hp : listed .host ps = false) : FnStKept s t :=
  fun m => congrArg Fn.st (h.fn m hp)

end

section
variable (s : State)

theorem raiseEvent_fnStKept (n typ src info : Nat) : FnStKept s (raiseEvent s n typ src info) :=
  fun m => (raiseEvent_kept s n typ src info m).st

theorem reportWith_fnStKept (x c addr : Nat) (inj col : Bool) : FnStKept s (reportWith s x c addr inj col) := by
  unfold reportWith
  extract_lets old r s1 flt s2
  refine .ite (fun m => ?_) fun _ => rfl
  rw [updFn_def, setFn_fn]
  split
  · next h => rw [h]; rfl
  · rfl

theorem report_fnStKept (x c addr : Nat) : FnStKept s (report s x c addr) :=
  .ite (.refl s) (reportWith_fnStKept s _ _ _ _ _)

theorem reportInjected_fnStKept (x c addr : Nat) (col : Bool) : FnStKept s (reportInjected s x c addr col) :=
  .ite (.refl s) (reportWith_fnStKept s _ _ _ _ _)

theorem bucketReport_fnStKept (b x c addr : Nat) : FnStKept s (bucketReport s b x c addr) := by
  have h : FnStKept s (bucketAdd s b x).1 := (bucketAdd_moves s b x).fnStKept rfl
  exact .ite (h.trans (report_fnStKept _ _ _ _)) h

/-! #### Reads of memory (R161, R166, R172) -/

theorem loseStack_fnStKept (h : Nat) : FnStKept s (loseStack s h) := by
  unfold loseStack
  extract_lets s1 s2
  exact .ite ((((setHub_moves s _ _).fnStKept rfl).trans ((keepCal_moves _ _).fnStKept rfl)).trans
    (report_fnStKept _ _ _ _)) (.refl s)

theorem countPoisoned_fnStKept (h : Nat) : FnStKept s (countPoisoned s h) := by
  unfold countPoisoned
  extract_lets r s1
  have h1 : FnStKept s s1 := (setHub_moves s _ _).fnStKept rfl
  exact .ite (h1.trans (loseStack_fnStKept _ _)) h1

theorem checkLine_fnStKept (a errs : Nat) : FnStKept s (checkLine s a errs).st := by
  unfold checkLine
  extract_lets k h inj injected collide n s1 s2 s0 s1' s2'
  have h2 : FnStKept s s2 :=
    FnStKept.trans ((setHub_moves s _ _).fnStKept rfl) (.ite (reportInjected_fnStKept _ _ _ _ _)
      (bucketReport_fnStKept _ _ _ _ _))
  have h0 : Moves [.ms, .free] s s0 :=
    .ite (.refl _ s) (.step (ms_moves _ _ (memWf_memStore _ _ _)) rfl ((free_moves s _).mono rfl))
  have h1' : Moves [.ms, .free] s s1' :=
    .step (setHub_moves _ _ _) rfl (.step (ms_moves _ _ id) rfl (.step (ms_moves _ _ id) rfl h0))
  have h2' : FnStKept s s2' := by
    refine FnStKept.trans (h1'.fnStKept rfl) ?_
    exact .ite (reportInjected_fnStKept _ _ _ _ _) (.ite (reportInjected_fnStKept _ _ _ _ _) (report_fnStKept _ _ _ _))
  split
  · exact .refl s
  · split
    · exact .refl s
    · split
      · exact h2.trans ((pmuCount_moves _ _ _ _ _).fnStKept rfl)
      · exact .ite h2' (h2'.trans (countPoisoned_fnStKept _ _))

theorem readLine_fnStKept (a errs : Nat) : FnStKept s (readLine s a errs).st := by
  unfold readLine
  split
  · exact .ite (.refl s) (FnStKept.trans (t := useFreeLine s) (.refl s) (report_fnStKept _ _ _ _))
  · split
    · exact .refl s
    · exact ((pmuCount_moves s _ _ _ _).fnStKept rfl).trans (checkLine_fnStKept _ _ _)

theorem readSpan_fnStKept (a n fuel : Nat) : FnStKept s (readSpan s a n fuel).1 := by
  induction fuel generalizing s a n with
  | zero => exact .refl s
  | succ fuel ih =>
    rw [readSpan]
    split
    · exact .refl s
    · exact (readLine_fnStKept s a 0).trans (ih _ _ _)

end
end Sys2Proof.Machine

namespace Sys2Proof.Machine
open Sys2Proof

/-! ### Loads abandoned (R109, R118) -/

section
variable (s : State) (p : Nat)

theorem penEvent_fnStKept (code : Nat) (done : Bool) : FnStKept s (penEvent s p code done) :=
  raiseEvent_fnStKept s _ _ _ _

theorem giveBack_moves : Moves [.chutes, .pens] s (giveBack s p) := by
  have h : Moves [.chutes, .pens] s (s.forAll (penChutes s p) fun st c => st.updChute c fun y => { y with
      penValid := false,
      consumer := match y.consumer with | .stall _ _ => .none | .engine _ => .none | k => k }) :=
    .fold (fun st _ => (setChute_moves st _ _).mono rfl) (.refl _ s)
  exact .step (setPen_moves _ _ _) rfl h

theorem clearShadows_moves : Moves [.stalls] s (clearShadows s p) :=
  .ite (.fold (fun st _ => setStall_moves st _ _) (.refl _ s)) (.refl _ s)

theorem endLoad_fnStKept (isShadow : Bool) (code sec index : Nat) : FnStKept s (endLoad s p isShadow code sec index) := by
  unfold endLoad
  extract_lets s1 s2 from_ s3
  have h1 : FnStKept s s1 := ((clearShadows_moves s p).fnStKept rfl).trans ((setPen_moves _ _ _).fnStKept rfl)
  have h3 : FnStKept s1 s3 := .ite ((giveBack_moves s1 p).fnStKept rfl)
    (((setPen_moves s1 _ _).fnStKept rfl).trans ((setPen_moves _ _ _).fnStKept rfl))
  exact .ite (h1.trans (((setPen_moves s1 _ _).fnStKept rfl).trans (penEvent_fnStKept _ _ _ _)))
    (h1.trans (h3.trans (penEvent_fnStKept _ _ _ _)))

theorem takeGrant_moves : Moves [.pens, .chutes, .stalls, .pmus] s (takeGrant s p) := by
  unfold takeGrant
  extract_lets x cs s1 s2 ts s3
  have h2 : Moves [.pens, .chutes, .stalls, .pmus] s s2 :=
    .fold (fun st _ => (setChute_moves st _ _).mono rfl) ((setPen_moves s _ _).mono rfl)
  have h3 : Moves [.pens, .chutes, .stalls, .pmus] s s3 := .fold (fun st _ => (setStall_moves st _ _).mono rfl) h2
  exact .ite (.refl _ s) (.fold (fun st _ => (setPmu_moves st _ _).mono rfl) h3)

theorem readyStalls_moves (isShadow : Bool) : Moves [.stalls] s (readyStalls s p isShadow) :=
  .fold (fun st _ => setStall_moves st _ _) (.refl _ s)

theorem beginLoad_fnStKept (j : LoadJob) : FnStKept s (beginLoad s j) := by
  unfold beginLoad
  extract_lets q addr r t k s1 s2
  have ht : FnStKept s t := readSpan_fnStKept s _ _ _
  refine .ite (endLoad_fnStKept s _ _ _ _ _) (.ite (ht.trans (endLoad_fnStKept t _ _ _ _ _)) ?_)
  split
  · exact ht.trans (endLoad_fnStKept t _ _ _ _ _)
  · have h2 : FnStKept s s2 := ht.trans (((takeGrant_moves t _).fnStKept rfl).trans
      (((readyStalls_moves _ _ _).fnStKept rfl).trans ((setPen_moves _ _ _).fnStKept rfl)))
    refine .ite (h2.trans (endLoad_fnStKept s2 _ _ _ _ _)) ?_
    split
    · exact h2.trans (endLoad_fnStKept s2 _ _ _ _ _)
    · exact h2

theorem nextLoads_fnStKept (fuel : Nat) : FnStKept s (nextLoads s fuel) := by
  induction fuel generalizing s with
  | zero => exact .refl s
  | succ fuel ih =>
    rw [nextLoads]
    refine .ite (.refl s) ?_
    split
    · exact .refl s
    · next j rest _ =>
      have h : FnStKept s { s with loadQ := rest } := fun _ => rfl
      exact .ite (.refl s) ((h.trans (beginLoad_fnStKept { s with loadQ := rest } j)).trans (ih _))

theorem abandonLoads_fnStKept (code : Nat) : FnStKept s (abandonLoads s p code) := by
  unfold abandonLoads
  extract_lets jobs s1
  have h1 : FnStKept s s1 := fun _ => rfl
  have h : FnStKept s1 (jobs.foldl (fun st j => endLoad st p j.isShadow code 0 0) s1) :=
    .fold (fun st j => endLoad_fnStKept st p j.isShadow code 0 0) jobs (.refl s1)
  exact (h1.trans h).trans (nextLoads_fnStKept _ _)

/-- R115: STOP of a pen. -/
theorem penStop_fnStKept : FnStKept s (penStop s p) := by
  unfold penStop
  extract_lets x s1
  split
  · have h : FnStKept s s1 := ((setPen_moves s _ _).fnStKept rfl).trans ((setPen_moves _ _ _).fnStKept rfl)
    exact .ite (h.trans (abandonLoads_fnStKept _ _ _)) h
  · exact abandonLoads_fnStKept s _ _
  · exact (((setPen_moves s _ _).fnStKept rfl).trans ((setPen_moves _ _ _).fnStKept rfl)).trans (penEvent_fnStKept _ _ _ _)
  · exact (setPen_moves s _ _).fnStKept rfl

end
end Sys2Proof.Machine

namespace Sys2Proof.Machine
open Sys2Proof

/-! ### Chutes that change hands (R321, R338) -/

section
variable {s : State}

/-- What a table holds besides its default has an entry. -/
theorem mem_of_tabGet {α : Type} {d : Nat → α} {xs : Tab α} {k : Nat} (h : tabGet d xs k ≠ d k) :
    (k, tabGet d xs k) ∈ xs := by
  induction xs with
  | nil => exact absurd rfl h
  | cons e xs ih =>
    rw [tabGet_cons] at h ⊢
    split at h
    · next he =>
      rw [if_pos he]
      exact he ▸ List.mem_cons_self
    · next he =>
      rw [if_neg he]
      exact List.mem_cons_of_mem _ (ih h)

theorem mem_fnChutes {c n : Nat} (h : s.chute c ≠ {}) (hn : (s.chute c).func.toNat = n) : c ∈ fnChutes s n :=
  List.mem_map.mpr ⟨_, List.mem_filter.mpr ⟨mem_of_tabGet h, decide_eq_true hn⟩, rfl⟩

/-- Each chute of a list changed in its turn by one and the same change. -/
theorem forAll_updChute (f : Chute → Chute) (cs : List Nat) (c : Nat) (hff : ∀ x, f (f x) = f x) :
    (s.forAll cs fun st k => st.updChute k f).chute c = if c ∈ cs then f (s.chute c) else s.chute c := by
  unfold State.forAll
  induction cs generalizing s with
  | nil => rfl
  | cons k cs ih =>
    rw [List.foldl_cons, ih, updChute_def, setChute_chute]
    by_cases hk : c = k
    · subst hk
      simp [hff]
    · simp [hk]

theorem forAll_updChute_moves (f : Nat → Chute → Chute) (cs : List Nat) :
    Moves [.chutes] s (s.forAll cs fun st k => st.updChute k (f k)) :=
  .fold (fun st _ => setChute_moves st _ _) (.refl _ s)

/-- R321: FUNC of the chutes of a range, and no other's. -/
theorem setFuncs_chute (lo hi n c : Nat) : (setFuncs s lo hi n).chute c =
    if lo ≤ c ∧ c < hi then { s.chute c with func := BitVec.ofNat 4 n } else s.chute c := by
  have h := forAll_updChute (s := s) (fun x => { x with func := BitVec.ofNat 4 n })
    ((List.range (hi - lo)).map (lo + ·)) c (fun _ => rfl)
  have hmem : c ∈ (List.range (hi - lo)).map (lo + ·) ↔ lo ≤ c ∧ c < hi := by
    rw [List.mem_map]
    constructor
    · rintro ⟨i, hi', rfl⟩
      have := List.mem_range.mp hi'
      omega
    · exact fun hc => ⟨c - lo, List.mem_range.mpr (by omega), by omega⟩
  rw [State.forAll, List.foldl_map] at h
  rw [setFuncs, h]
  simp only [hmem]

theorem setFuncs_moves (lo hi n : Nat) : Moves [.chutes] s (setFuncs s lo hi n) :=
  .fold (fun st _ => setChute_moves st _ _) (.refl _ s)

end

/-! ### ENABLE (R321) -/

section
variable {s : State} {n : Nat}

/-- A VF enabled, its event not yet raised. -/
def enabledVf (s : State) (n : Nat) : State :=
  (setFuncs s (s.fn n).chuteLo (s.fn n).chuteHi n).updFn n fun x =>
    { x with st := .enabled, result := BitVec.ofNat 4 fnOk }

theorem enableVf_passes (h : enableOk s n = true) :
    enableVf s n = raiseEvent (enabledVf s n) 0 evFuncState n (fnCode .enabled) := if_pos h

theorem enabledVf_fn (m : Nat) : (enabledVf s n).fn m =
    if m = n then { s.fn n with st := .enabled, result := BitVec.ofNat 4 fnOk } else s.fn m := by
  have hf (j : Nat) : (setFuncs s (s.fn n).chuteLo (s.fn n).chuteHi n).fn j = s.fn j := (setFuncs_moves _ _ _).fn j rfl
  rw [enabledVf, updFn_def, setFn_fn, hf, hf]

theorem enabledVf_moves : Moves [.chutes, .host] s (enabledVf s n) :=
  .step (setFn_moves _ _ _) rfl ((setFuncs_moves _ _ _).mono rfl)

/-- R321: the VF enabled, with its chutes; the PF's event tells of it. -/
theorem enableVf_enabled (h : enableOk s n = true) (h0 : n ≠ 0) (h16 : n < 16) : let t := enableVf s n
    (t.fn n).st = .enabled ∧ (t.fn n).result = 0 ∧
      (∀ c, (s.fn n).chuteLo ≤ c → c < (s.fn n).chuteHi → (t.chute c).func.toNat = n) ∧
      (∀ c, c < (s.fn n).chuteLo ∨ (s.fn n).chuteHi ≤ c → t.chute c = s.chute c) ∧ EventWritten 0 s t ∧
      Moves [.chutes, .host, .hostMem, .pmus] s t := by
  have hm := raiseEvent_moves (enabledVf s n) 0 evFuncState n (fnCode .enabled)
  have hfn := raiseEvent_fn_other (enabledVf s n) 0 evFuncState n (fnCode .enabled) n h0
  have hchute (c : Nat) : (enabledVf s n).chute c = (setFuncs s (s.fn n).chuteLo (s.fn n).chuteHi n).chute c :=
    (setFn_moves _ _ _).chute c rfl
  have hpf : (enabledVf s n).fn 0 = s.fn 0 := by rw [enabledVf_fn, if_neg (Ne.symm h0)]
  rw [enableVf_passes h]
  refine ⟨?_, ?_, fun c hlo hhi => ?_, fun c hc => ?_, fun hopen hlost hst => ?_, .step hm rfl (enabledVf_moves.mono rfl)⟩
  · rw [hfn, enabledVf_fn, if_pos rfl]
  · rw [hfn, enabledVf_fn, if_pos rfl]
    rfl
  · rw [hm.chute c rfl, hchute, setFuncs_chute, if_pos ⟨hlo, hhi⟩, BitVec.toNat_ofNat]
    omega
  · rw [hm.chute c rfl, hchute, setFuncs_chute, if_neg (by omega)]
  · have hring : ringOpen (enabledVf s n) 0 = ringOpen s 0 := by
      have hhost := congrArg HostS.linkUp ((setFuncs_moves (s := s) (s.fn n).chuteLo (s.fn n).chuteHi n).same .host rfl)
      rw [ringOpen, hpf]
      exact congrArg (fun up => (s.fn 0).evqEn && up && (s.fn 0).room) hhost
    have hw := raiseEvent_written (enabledVf s n) 0 evFuncState n (fnCode .enabled)
    rw [EventWritten, hring, hpf] at hw
    exact hw hopen hlost hst

end

/-! ### DISABLE (R338) -/

section
variable {s : State} {n : Nat}

/-- R338 step 1: DISABLING. -/
def disablingFn (s : State) (n : Nat) : State := s.updFn n fun f => { f with st := .disabling, result := BitVec.ofNat 4 fnOk }

def disablingChute (x : Chute) : Chute := { x with st := .disabling }

/-- R338 step 2: some pens stop, then the chutes that are ENABLED begin to be disabled. -/
theorem beginDisable_eq : ∃ ps, beginDisable s n =
    ((disablingFn s n).forAll ps penStop).forAll
      ((fnChutes ((disablingFn s n).forAll ps penStop) n).filter fun c =>
        (((disablingFn s n).forAll ps penStop).chute c).st = .enabled) fun st c => st.updChute c disablingChute :=
  ⟨_, rfl⟩

/-- R338 steps 1 and 2: the function, the others, and its chutes. -/
theorem beginDisable_disabling : let t := beginDisable s n
    (t.fn n).st = .disabling ∧ (∀ m, m ≠ n → (t.fn m).st = (s.fn m).st) ∧
      ∀ c, (t.chute c).func.toNat = n → (t.chute c).st ≠ .enabled := by
  obtain ⟨ps, h⟩ := beginDisable_eq (s := s) (n := n)
  have hst (m : Nat) : ((beginDisable s n).fn m).st = ((disablingFn s n).fn m).st := by
    have hstop : FnStKept (disablingFn s n) ((disablingFn s n).forAll ps penStop) :=
      .fold (fun st p => penStop_fnStKept st p) _ (.refl _)
    rw [h]
    exact (hstop.trans ((forAll_updChute_moves (fun _ => disablingChute) _).fnStKept rfl)) m
  have hfn (m : Nat) : (disablingFn s n).fn m =
      if m = n then { s.fn n with st := .disabling, result := BitVec.ofNat 4 fnOk } else s.fn m := setFn_fn _ _ _ _
  refine ⟨by rw [hst, hfn, if_pos rfl], fun m hm => by rw [hst, hfn, if_neg hm], fun c => ?_⟩
  rw [h, forAll_updChute disablingChute _ _ fun _ => rfl]
  split
  · exact fun _ he => nomatch he
  · next hc =>
    intro hfunc hen
    refine hc (List.mem_filter.mpr ⟨mem_fnChutes (fun he => ?_) hfunc, by simpa using hen⟩)
    rw [he] at hen
    exact nomatch hen

/-! #### The end (R338 step 5) -/

/-- R338 step 5: the function as its disable ends. -/
def endedFn (f : Fn) : Fn := { clearEvq f with st := .disabled }

/-- R338 step 5: a chute as it returns to the PF. -/
def endedChute (x : Chute) : Chute := { initChute x with func := 0 }

/-- R83, R338 step 5: the pens of a list given back. -/
def pensBack (s : State) (ps : List Nat) : State := s.forAll ps fun st p => giveBack (setResult st p 0) p

def chansOff (s : State) (ks : List Nat) : State :=
  s.forAll ks fun st c => st.updDma c fun d => { d with en := false, st := 3 }

theorem endDisable_eq : ∃ ps ks, endDisable s n =
    raiseEvent ((chansOff ((pensBack s ps).forAll (fnChutes s n) fun st c => st.updChute c endedChute) ks).updFn n endedFn)
      0 evFuncState n (fnCode .disabled) := ⟨_, _, rfl⟩

/-- R338: DISABLED, its event ring off and empty. -/
theorem endDisable_fn : let y := (endDisable s n).fn n
    y.st = .disabled ∧ y.evqEn = false ∧ y.tail = 0 ∧ y.head = 0 := by
  obtain ⟨ps, ks, h⟩ := endDisable_eq (s := s) (n := n)
  rw [h]
  have hfn (t : State) : (t.updFn n endedFn).fn n = endedFn (t.fn n) := (setFn_fn _ _ _ _).trans (if_pos rfl)
  generalize chansOff _ ks = t
  have hkept := raiseEvent_kept (t.updFn n endedFn) 0 evFuncState n (fnCode .disabled) n
  rw [hfn] at hkept
  refine ⟨hkept.st, hkept.evqEn, ?_⟩
  by_cases h0 : n = 0
  · subst h0
    obtain ⟨htail, hhead⟩ := raiseEvent_off (t.updFn 0 endedFn) 0 evFuncState 0 (fnCode .disabled) (by rw [hfn]; rfl)
    exact ⟨htail.trans (by rw [hfn]; rfl), hhead.trans (by rw [hfn]; rfl)⟩
  · rw [raiseEvent_fn_other _ _ _ _ _ _ h0, hfn]
    exact ⟨rfl, rfl⟩

/-- A pen given back leaves its chutes' FUNC and state. -/
theorem giveBack_chute (p c : Nat) : ((giveBack s p).chute c).st = (s.chute c).st := by
  have h (cs : List Nat) (t : State) : ((t.forAll cs fun st c => st.updChute c fun y => { y with
      penValid := false,
      consumer := match y.consumer with | .stall _ _ => .none | .engine _ => .none | k => k }).chute c).st
        = (t.chute c).st := by
    unfold State.forAll
    induction cs generalizing t with
    | nil => rfl
    | cons k cs ih =>
      rw [List.foldl_cons, ih, updChute_def, setChute_chute]
      split
      · next hk => rw [hk]
      · rfl
  exact h _ s

theorem pensBack_chute (ps : List Nat) (c : Nat) : ((pensBack s ps).chute c).st = (s.chute c).st := by
  unfold pensBack State.forAll
  induction ps generalizing s with
  | nil => rfl
  | cons p ps ih =>
    rw [List.foldl_cons, ih, giveBack_chute]
    rfl

/-- R338 step 5: the chutes go back to the PF as they settled. -/
theorem endDisable_chute {c : Nat} (hc : c ∈ fnChutes s n) :
    ((endDisable s n).chute c).func = 0 ∧ ((endDisable s n).chute c).st = (s.chute c).st := by
  obtain ⟨ps, ks, h⟩ := endDisable_eq (s := s) (n := n)
  have hks (t : State) : Moves [.host] t (chansOff t ks) := .fold (fun st _ => setDma_moves st _ _) (.refl _ t)
  have hchute : (endDisable s n).chute c = endedChute ((pensBack s ps).chute c) := by
    rw [h, (raiseEvent_moves _ _ _ _ _).chute c rfl, updFn_def, (setFn_moves _ _ _).chute c rfl, (hks _).chute c rfl,
      forAll_updChute endedChute _ _ fun _ => rfl, if_pos hc]
  rw [hchute]
  exact ⟨rfl, pensBack_chute ps c⟩

/-- R338: the chutes of a settled function are DISABLED. -/
theorem settled_chute {c : Nat} (h : disableSettled s n = true) (hc : c ∈ fnChutes s n) : (s.chute c).st = .disabled := by
  simp only [disableSettled, Bool.and_eq_true, List.all_eq_true, decide_eq_true_eq] at h
  exact h.1.1.2 c hc

end

/-! ### The commands (R337, R338, R340) -/

section
variable {f n : Func} {s : State}

/-- The function's block is reached. -/
theorem fnAccess (h : FnReach f n s) (off : Nat) (k : State → State) : coreAccess s f.toNat (n = f) off k = k s :=
  coreAccess_of_served h.1 (h.2.imp (fun hf => by rw [hf]; rfl) fun hn => decide_eq_true hn)

theorem fnEnable_state {n : Nat} (h : n = 0 ∨ s.host.vfEnable = false ∨ (s.fn n).st ≠ .disabled) :
    fnEnable s n = setFnResult s n fnState := if_neg (by rcases h with h | h | h <;> simp [h])

theorem fnEnable_vf {n : Nat} (h0 : n ≠ 0) (hv : s.host.vfEnable = true) (hst : (s.fn n).st = .disabled) :
    fnEnable s n = enableVf s n := if_pos (by simp [h0, hv, hst])

theorem enableVf_conflict {n : Nat} (h : enableOk s n = false) : enableVf s n = setFnResult s n fnConflict :=
  if_neg (by simp [h])

theorem fnDisable_begins {n : Nat} (h : (s.fn n).st = .enabled ∨ (n = 0 ∧ (s.fn n).st ≠ .disabling)) :
    fnDisable s n = beginDisable s n := by
  refine if_pos ?_
  rcases h with h | ⟨rfl, h⟩ <;> simp [h]

theorem fnDisable_state {n : Nat} (h0 : n ≠ 0) (h : (s.fn n).st ≠ .enabled) :
    fnDisable s n = setFnResult s n fnState := if_neg (by simp [h0, h])

theorem fnWipe_starts {n : Nat} (h0 : n ≠ 0) (hst : (s.fn n).st = .disabled) (hw : (s.fn n).wipe = none) :
    fnWipe s n = s.setFn n { s.fn n with result := 0, wipe := some ((s.fn n).memBase.toNat, (s.fn n).memHi) } := by
  rw [fnWipe, if_neg h0, if_pos (by simp [hst, hw])]
  rfl

theorem fnWipe_state {n : Nat} (h0 : n ≠ 0) (h : (s.fn n).st ≠ .disabled ∨ (s.fn n).wipe ≠ none) :
    fnWipe s n = setFnResult s n fnState := by
  rw [fnWipe, if_neg h0, if_neg]
  rcases h with h | h <;> simp [h]

theorem fnCommand_reserved {n op : Nat} (h : 3 < op) : fnCommand s n op = setFnResult s n fnBadOp := by
  obtain ⟨k, rfl⟩ : ∃ k, op = k + 4 := ⟨op - 4, by omega⟩
  rfl

/-- R330: HEAD as written, with no event lost before. -/
theorem writeHead_moves {n : Nat} {v : Reg32} (hv : ((s.fn n).tail - v).toNat ≤ 2 ^ (s.fn n).evqLog2.toNat)
    (hl : (s.fn n).lost = 0) : writeHead s n v = s.setFn n { s.fn n with head := v, irq := false } := by
  rw [writeHead, if_pos hv, flushLost_none]
  rw [setFn_fn, if_pos rfl]
  exact hl

theorem writeHead_ignored {n : Nat} {v : Reg32} (hv : 2 ^ (s.fn n).evqLog2.toNat < ((s.fn n).tail - v).toNat) :
    writeHead s n v = s := if_neg (Nat.not_le.mpr hv)

/-! #### The commands as they are answered -/

section
variable {t : State} (h : FnReach f n s)
include h

theorem funcEnable_does (ht : fnEnable s n.toNat = t) : exec (.funcEnable f n) s = .next (t.answer .ok) := by
  subst ht
  exact congrArg Host.Outcome.next (fnAccess h _ _)

theorem funcDisable_does (ht : fnDisable s n.toNat = t) : exec (.funcDisable f n) s = .next (t.answer .ok) := by
  subst ht
  exact congrArg Host.Outcome.next (fnAccess h _ _)

theorem wipe_does (ht : fnWipe s n.toNat = t) : exec (.wipe f n) s = .next (t.answer .ok) := by
  subst ht
  exact congrArg Host.Outcome.next (fnAccess h _ _)

theorem evqHeadWrite_does {v : Reg32} (ht : writeHead s n.toNat v = t) :
    exec (.hostEvqHeadWrite f n v) s = .next (t.answer .ok) := by
  subst ht
  exact congrArg Host.Outcome.next (fnAccess h _ _)

theorem funcBadOp_does {op : BitVec 4} (hop : 3 < op.toNat) :
    exec (.funcBadOp f n op) s = .next ((setFnResult s n.toNat fnBadOp).answer .ok) := by
  have hcode : (if op.toNat ≤ 3 then 4 else op.toNat) = op.toNat := if_neg (by omega)
  rw [← fnCommand_reserved (s := s) (n := n.toNat) hop, ← hcode]
  exact congrArg Host.Outcome.next (fnAccess h _ _)

end

/-! #### A wipe's end (R338) -/

/-- Memory with a range set to zero (R175). -/
theorem zeroRange_byteAt (lo hi a : Nat) : (zeroRange s lo hi).byteAt a = if lo ≤ a ∧ a < hi then 0 else s.byteAt a :=
  tabGet_tabClear memDefault s.ms.mem lo hi a

theorem zeroRange_moves (lo hi : Nat) : Moves [.ms] s (zeroRange s lo hi) := ms_moves s _ (memWf_tabClear _ _ _)

variable {lo hi : Nat} (hw : (s.fn n.toNat).wipe = some (lo, hi))
include hw

theorem wipeDone_waits (h : reqWaits s lo (min hi (memTop s) - lo) = true) : exec (.wipeDone n) s = .next s := by
  refine congrArg Host.Outcome.next ?_
  rw [hw]
  exact if_pos h

theorem wipeDone_ends (h : reqWaits s lo (min hi (memTop s) - lo) = false) : exec (.wipeDone n) s
    = .next ((zeroRange s lo (min hi (memTop s))).updFn n.toNat fun x => { x with wipe := none }) := by
  refine congrArg Host.Outcome.next ?_
  rw [hw]
  exact if_neg (by simp [h])

end

/-- Settles O52: each command where the function's state takes it and where it does not; ENABLE, DISABLE and the end of
a disable through what they make of the function and its chutes. -/
theorem functionCommands : Obligations.FunctionCommands := by
  intro f n op v s k x put
  have hk : k < 16 := n.isLt
  have hk0 : n ≠ 0 ↔ k ≠ 0 := not_congr ⟨fun h => congrArg BitVec.toNat h, fun h => BitVec.eq_of_toNat_eq h⟩
  refine ⟨fun h => ⟨fun h0 hv hst hok => ?_, fun h0 hv hst hok => ?_, fun hno => ?_, fun hst => ?_, fun h0 hst => ?_,
    fun h0 hst hw => ?_, fun h0 hno => ?_, fun hop => ?_, fun hv hl => ?_, fun hv => ?_, ?_, ?_⟩, fun h => ?_,
    fun lo hi hw hwait => wipeDone_waits hw hwait, fun lo hi hw hwait => ?_, ?_⟩
  · obtain ⟨hen, hres, hin, hout, hev, hm⟩ := enableVf_enabled hok (hk0.mp h0) hk
    have hexec := funcEnable_does h (fnEnable_vf (hk0.mp h0) hv hst)
    generalize enableVf s k = t at hen hres hin hout hev hm hexec
    exact ⟨_, hexec, hen, hres, hin, hout, hev, rfl, (Moves.step (answer_moves _ _) rfl (hm.mono rfl)).only⟩
  · exact funcEnable_does h ((fnEnable_vf (hk0.mp h0) hv hst).trans (enableVf_conflict hok))
  · exact funcEnable_does h (fnEnable_state (hno.imp_left fun h0 => by simp [h0]))
  · obtain ⟨hdis, hothers, hchutes⟩ := beginDisable_disabling (s := s) (n := k)
    have hexec := funcDisable_does h (fnDisable_begins (hst.imp_right fun hp => ⟨by simp [hp.1], hp.2⟩))
    generalize beginDisable s k = t at hdis hothers hchutes hexec
    exact ⟨_, hexec, hdis, fun m _ hm => hothers m hm, hchutes, rfl⟩
  · exact funcDisable_does h (fnDisable_state (hk0.mp h0) hst)
  · exact wipe_does h (fnWipe_starts (hk0.mp h0) hst hw)
  · exact wipe_does h (fnWipe_state (hk0.mp h0) hno)
  · exact funcBadOp_does h hop
  · exact evqHeadWrite_does h (writeHead_moves hv hl)
  · exact evqHeadWrite_does h (writeHead_ignored hv)
  · exact congrArg Host.Outcome.next (fnAccess h _ _)
  · exact congrArg Host.Outcome.next (fnAccess h _ _)
  · exact congrArg Host.Outcome.next (pfCore_of_open h)
  · have hm : Moves [.ms, .host] s ((zeroRange s lo (min hi (memTop s))).updFn k fun x => { x with wipe := none }) :=
      .step (setFn_moves _ _ _) rfl ((zeroRange_moves _ _).mono rfl)
    have hbyte (a : Nat) : ((zeroRange s lo (min hi (memTop s))).updFn k fun x => { x with wipe := none }).byteAt a =
        if lo ≤ a ∧ a < min hi (memTop s) then 0 else s.byteAt a :=
      ((setFn_moves _ _ _).byteAt rfl a).trans (zeroRange_byteAt _ _ _)
    refine ⟨_, wipeDone_ends hw hwait, ?_, fun a hlo hhi htop => ?_, fun a ha => ?_, hm.only⟩
    · rw [updFn_def, setFn_fn, if_pos rfl]
      rfl
    · rw [hbyte, if_pos (by omega)]
    · rw [hbyte, if_neg (by omega)]
  · intro disabled hst
    refine ⟨fun hsettled => ⟨endDisable s k, ?_, ?_⟩, endDisable (abortFunction s k) k, ?_, endDisable_fn⟩
    · exact congrArg Host.Outcome.next (if_pos (by rw [hsettled, Bool.and_true]; exact decide_eq_true hst))
    · obtain ⟨hdis, hevq, htail, hhead⟩ := endDisable_fn (s := s) (n := k)
      refine ⟨hdis, hevq, htail, hhead, fun c hc h0 => ?_⟩
      have hmem : c ∈ fnChutes s k := mem_fnChutes (fun he => h0 (by rw [← hc, he]; rfl)) hc
      obtain ⟨hfunc, hcst⟩ := endDisable_chute hmem
      exact ⟨hfunc, hcst.trans (settled_chute hsettled hmem)⟩
    · exact congrArg Host.Outcome.next (if_pos hst)

end Sys2Proof.Machine

namespace Sys2Proof.Machine
open Sys2Proof

/-! ### What an evaluation of a chute's marks leaves of the chutes (R138 to R140) -/

/-- A chute but for what an evaluation of its marks records. -/
def SameButMarks (x y : Chute) : Prop :=
  ∃ xoff hwm lwm n r, y = { x with xoff := xoff, hwmSeen := hwm, lwmSeen := lwm, crossings := n, remoteSrc := r }

/-- One chute changes by no more than its marks' records; the others stay. -/
structure MarksOf (c : Nat) (s t : State) : Prop where
  same : SameButMarks (s.chute c) (t.chute c)
  others : ∀ c', c' ≠ c → t.chute c' = s.chute c'

section
variable {s t u : State} {c : Nat}

theorem MarksOf.refl (s : State) (c : Nat) : MarksOf c s s := ⟨⟨_, _, _, _, _, rfl⟩, fun _ _ => rfl⟩

theorem MarksOf.trans (h : MarksOf c s t) (h' : MarksOf c t u) : MarksOf c s u := by
  obtain ⟨_, _, _, _, _, hx⟩ := h.same
  obtain ⟨_, _, _, _, _, hy⟩ := h'.same
  exact ⟨⟨_, _, _, _, _, by rw [hy, hx]⟩, fun k hk => (h'.others k hk).trans (h.others k hk)⟩

theorem MarksOf.ite {p : Prop} [Decidable p] (h : MarksOf c s t) (h' : MarksOf c s u) :
    MarksOf c s (if p then t else u) := by
  split <;> assumption

/-- An operation that leaves the chutes. -/
theorem Moves.marksOf {ps : List Part} (h : Moves ps s t) (hp : listed .chutes ps = false) (c : Nat) : MarksOf c s t :=
  ⟨⟨_, _, _, _, _, h.chute c hp⟩, fun k _ => h.chute k hp⟩

/-- A change of the chute that is of its marks' records alone. -/
theorem setChute_marksOf {x : Chute} (h : SameButMarks (s.chute c) x) : MarksOf c s (s.setChute c x) :=
  ⟨by rwa [setChute_chute, if_pos rfl], fun k hk => by rw [setChute_chute, if_neg hk]⟩

theorem crossing_marksOf (up : Bool) : MarksOf c s (crossing s c up) := by
  have h : MarksOf c s (s.setChute c { s.chute c with
      hwmSeen := (s.chute c).hwmSeen || up, lwmSeen := (s.chute c).lwmSeen || !up,
      crossings := (s.chute c).crossings + 1 }) := setChute_marksOf ⟨_, _, _, _, _, rfl⟩
  exact .ite (h.trans ((raiseEvent_moves _ _ _ _ _).marksOf rfl c)) h

theorem notifyXoff_marksOf (on : Bool) : MarksOf c s (notifyXoff s c on) := by
  have h : MarksOf c s (sendMarks s c on) := (sendMarks_moves s c on).marksOf rfl c
  rw [notifyXoff_eq]
  exact .ite h (h.trans (setChute_marksOf ⟨_, _, _, _, _, rfl⟩))

theorem marks_marksOf (old : Chute) : MarksOf c s (marks old s c) := by
  unfold marks
  extract_lets x xoff s1 s2 s3
  have h1 : MarksOf c s s1 :=
    ((sliceCheck_moves s c old).marksOf rfl c).trans (setChute_marksOf ⟨_, _, _, _, _, rfl⟩)
  have h2 : MarksOf c s s2 := .ite (h1.trans (crossing_marksOf _)) h1
  have h3 : MarksOf c s s3 := .ite (h2.trans (crossing_marksOf _)) h2
  exact .ite h3 (h3.trans (notifyXoff_marksOf _))

theorem noteRemote_marksOf (src : Source) : MarksOf c s (noteRemote s c src) :=
  .ite (.refl s c) (setChute_marksOf ⟨_, _, _, _, _, rfl⟩)

/-- A chute changed, and its marks evaluated. -/
theorem changeChute_marksOf (f : Chute → Chute) : MarksOf c (s.setChute c (f (s.chute c))) (changeChute s c f) :=
  marks_marksOf _

end

/-! ### The end of a disable (R145) -/

section
variable {s : State} {c : Nat}

/-- R145: a chute as its limit leaves it, but for its marks. -/
def cutChute (x : Chute) (now : BitVec 64) : Chute :=
  let z := if x.opened then rewindOpen x .aborted false else x
  { z with rp := z.cp, mp := z.cp, fp := z.cp, commits := [], spaceWait := [], st := .disabled,
           cut := if x.opened then some (x.src, now) else x.cut }

/-- R145: DISABLED, with no packet open and no line left. -/
theorem cutChute_fields (x : Chute) (now : BitVec 64) : let y := cutChute x now
    y.st = .disabled ∧ y.opened = false ∧ y.cp = x.cp ∧ y.wp = (if x.opened then x.cp else x.wp) ∧ y.rp = x.cp ∧
      y.mp = x.cp ∧ y.fp = x.cp ∧ y.pstat = if x.opened then .aborted else x.pstat := by
  cases hop : x.opened <;> simp [cutChute, hop, rewindOpen]

/-- R132, R149: what tells of the open packet that the limit aborts. -/
def cutTold (s : State) (c : Nat) : State :=
  if (s.chute c).opened then statusOut (chuteEvent s c evChuteRewinds) c (s.chute c).src .aborted else s

theorem cutTold_moves : Moves [.lls, .sys, .pmus] s (cutTold s c) :=
  .ite (.step (statusOut_moves _ _ _ _) rfl ((chuteEvent_moves s _ _).mono rfl)) (.refl _ s)

/-- R145: the chute cut, before its lines are counted. -/
def cutDone (s : State) (c : Nat) : State := changeChute (cutTold s c) c fun y => cutChute y s.time

theorem disableAbort_eq : disableAbort s c = (cutDone s c).setChuteDie (c / 1024)
    { (cutDone s c).chuteDie (c / 1024) with
      abortLines := satAdd 32 ((cutDone s c).chuteDie (c / 1024)).abortLines (s.chute c).ready } := rfl

theorem cutDone_moves : Moves markParts s (cutDone s c) := .step (changeChute_moves _ _ _) rfl (cutTold_moves.mono rfl)

theorem cutDone_chute : SameButMarks (cutChute (s.chute c) s.time) ((cutDone s c).chute c) ∧
    ∀ c', c' ≠ c → (cutDone s c).chute c' = s.chute c' := by
  have hm : MarksOf c _ (cutDone s c) := changeChute_marksOf _
  have hsame := hm.same
  rw [setChute_chute, if_pos rfl, cutTold_moves.chute c rfl] at hsame
  exact ⟨hsame, fun k hk => by rw [hm.others k hk, setChute_chute, if_neg hk, cutTold_moves.chute k rfl]⟩

end

/-! ### A word stored (R127, R129, R130) -/

section
variable {s : State} {c : Nat} {src : Source} {w : ChuteWord}

/-- R127, R130: a word that begins a line with room for it, and does not end its packet. -/
theorem storeWord_begins (hslot : (s.chute c).wslot = 0) (hwords : (s.chute c).words < 4096)
    (hopen : (s.chute c).openLines < (s.chute c).size) (hroom : (s.chute c).occ < (s.chute c).size)
    (hlast : w.last = false) :
    storeWord s c w = ((chuteEvent s c evChuteWords).setChute c (placeWord (s.chute c) w), .taken) := by
  have hplaced : (placeWord (s.chute c) w).wslot = 1 := by
    rw [placeWord, hslot]
    rfl
  unfold storeWord
  simp only [hslot, hlast, hplaced]
  rw [if_neg (by simp; omega), if_neg (by simp; omega)]
  rfl

theorem placeWord_wp {x : Chute} (h : x.wslot = 0) : (placeWord x w).wp = x.adv x.wp 1 := if_pos (by rw [h]; rfl)

/-- A chute's source is let in (R144, R145, R151, R194). -/
theorem wordRefused_enabled (hheld : chuteHeld s (c / 1024) = true) (hst : (s.chute c).st = .enabled)
    (hdev : src.dev.toNat ≠ myDev s → (s.chute c).remoteOk = true) (first : Bool) :
    wordRefused s c src first = false := by
  unfold wordRefused
  by_cases hd : src.dev.toNat = myDev s
  · simp [hst, hheld, hd]
  · simp [hst, hheld, hdev hd]

/-- R129, R130: a word with none before it, taken: it leaves what the push leaves, but for the marks. -/
theorem offerWord_taken {x : Chute} {t : State} (hspace : (s.chute c).spaceWait = []) (hwait : (s.chute c).waiting = [])
    (hpush : pushWord s c src w = (t, .taken)) (hx : t.chute c = x) (hothers : ∀ k, k ≠ c → t.chute k = s.chute k) :
    SameButMarks x ((offerWord s c src w).chute c) ∧ ∀ k, k ≠ c → (offerWord s c src w).chute k = s.chute k := by
  have hline : pushMarked s c src w = (marks (s.chute c) (noteRemote t c src) c, .taken) := by
    simp only [pushMarked, pushLine, pushAll, hpush, if_true]
  have hoffer : offerWord s c src w = marks (s.chute c) (noteRemote t c src) c := by
    unfold offerWord
    simp only [hspace, hwait, hline, List.any_nil, Bool.false_eq_true, if_false]
    rfl
  have hm : MarksOf c t (marks (s.chute c) (noteRemote t c src) c) := (noteRemote_marksOf src).trans (marks_marksOf _)
  rw [hoffer]
  exact ⟨hx ▸ hm.same, fun k hk => (hm.others k hk).trans (hothers k hk)⟩

/-- R129, R130: the chute as its waiting words are offered again. -/
def noneWaits (s : State) (c : Nat) : State := s.setChute c { s.chute c with spaceWait := [], waiting := [] }

theorem noneWaits_chute : (noneWaits s c).chute c = { s.chute c with spaceWait := [], waiting := [] } :=
  (setChute_chute _ _ _ _).trans (if_pos rfl)

theorem noneWaits_chute_other {k : Nat} (hk : k ≠ c) : (noneWaits s c).chute k = s.chute k :=
  (setChute_chute _ _ _ _).trans (if_neg hk)

/-- A single word waits: it is offered, and nothing more. -/
theorem retryWaiting_one (h : (s.chute c).spaceWait ++ (s.chute c).waiting = [⟨src, w⟩]) :
    retryWaiting s c = offerWord (noneWaits s c) c src w := by
  unfold retryWaiting
  simp only [h]
  rfl

/-- R129: with no packet open the waiting words are offered again. -/
theorem waitingFirstOpen_offers {k : ChuteId} (hop : (s.chute k.toNat).opened = false)
    (hs : (s.chute k.toNat).spaceWait = []) (hw : (s.chute k.toNat).waiting = [⟨src, w⟩]) :
    exec (.waitingFirstOpen k) s = .next (offerWord (noneWaits s k.toNat) k.toNat src w) := by
  rw [← retryWaiting_one (by rw [hs, hw]; rfl)]
  exact congrArg Host.Outcome.next (if_pos (by simp [hop, hw]))

/-- R130: with occupancy below the buffer's size, so are those that lacked space. -/
theorem spaceWaitEnd_offers {k : ChuteId} (hroom : (s.chute k.toNat).occ < (s.chute k.toNat).size)
    (hs : (s.chute k.toNat).spaceWait = [⟨src, w⟩]) (hw : (s.chute k.toNat).waiting = []) :
    exec (.spaceWaitEnd k) s = .next (offerWord (noneWaits s k.toNat) k.toNat src w) := by
  rw [← retryWaiting_one (by rw [hs, hw]; rfl)]
  exact congrArg Host.Outcome.next (if_pos (by simp [hroom, hs]))

end

/-! #### A packet's first word (R129) -/

section
variable {s : State} {c : Nat} {src : Source} {w : ChuteWord}

/-- R129: a chute whose packet a source opens. -/
def openedBy (x : Chute) (src : Source) : Chute :=
  { x with
    discards := x.discards.filter (· ≠ src), opened := true, src := src, words := 0, openPois := false, wslot := 0,
    lineBuf := 0, order := x.order.filter (· ≠ src), cut := x.cut.filter (·.1 ≠ src) }

/-- With nothing written since the last commit no line is open. -/
theorem openLines_zero {x : Chute} (h : x.wp = x.cp) : x.openLines = 0 := by
  unfold Chute.openLines Chute.dist
  rw [h]
  have hdiv := Nat.div_add_mod x.cp.toNat (2 * x.size)
  rw [show x.cp.toNat + 2 * x.size - x.cp.toNat % (2 * x.size) = 2 * x.size * (x.cp.toNat / (2 * x.size) + 1) by
    rw [Nat.mul_add, Nat.mul_one]; omega]
  exact Nat.mul_mod_right _ _

theorem size_pos (x : Chute) : 0 < x.size := Nat.two_pow_pos _

/-- R129: the word opens its packet, and begins its first line. -/
theorem pushWord_opens {x : Chute} (hx : s.chute c = x) (hheld : chuteHeld s (c / 1024) = true) (hst : x.st = .enabled)
    (hxoff : x.xoff = false) (hroom : x.occ < x.size) (hdev : src.dev.toNat ≠ myDev s → x.remoteOk = true)
    (hclosed : x.opened = false) (hwp : x.wp = x.cp) (hfirst : w.first = true) (hlast : w.last = false)
    (hturn : firstWaits s x src = false) :
    pushWord s c src w = ((chuteEvent (s.setChute c (openedBy x src)) c evChuteWords).setChute c
      (placeWord (openedBy x src) w), .taken) := by
  subst hx
  have hz : (s.setChute c (openedBy (s.chute c) src)).chute c = openedBy (s.chute c) src :=
    (setChute_chute _ _ _ _).trans (if_pos rfl)
  have hholds : xoffHolds s (s.chute c) src = false := by simp [xoffHolds, hxoff]
  have hstore := storeWord_begins (s := s.setChute c (openedBy (s.chute c) src)) (c := c) (w := w) (by rw [hz]; rfl)
    (by rw [hz]; exact (by decide : 0 < 4096))
    (by rw [hz, openLines_zero (x := openedBy (s.chute c) src) hwp]; exact size_pos _) (by rw [hz]; exact hroom) hlast
  rw [hz] at hstore
  unfold pushWord
  simp only [hfirst, hclosed, hturn, hholds, wordRefused_enabled hheld hst hdev, Bool.not_true, Bool.false_and,
    Bool.or_false, Bool.false_eq_true, if_false, if_neg (Nat.not_le.mpr hroom)]
  exact hstore

/-- R127, R130: a word of the open packet begins a line. -/
theorem pushWord_extends {x : Chute} (hx : s.chute c = x) (hheld : chuteHeld s (c / 1024) = true)
    (hst : x.st = .enabled) (hroom : x.occ < x.size) (hdev : src.dev.toNat ≠ myDev s → x.remoteOk = true)
    (hcut : x.cut ≠ some (src, s.time)) (hopened : x.opened = true) (hsrc : x.src = src) (hdisc : src ∉ x.discards)
    (hslot : x.wslot = 0) (hwords : x.words < 4096) (hlines : x.openLines < x.size) (hfirst : w.first = false)
    (hlast : w.last = false) :
    pushWord s c src w = ((chuteEvent s c evChuteWords).setChute c (placeWord x w), .taken) := by
  subst hx
  unfold pushWord
  simp only [hfirst, hcut, hopened, hsrc, hdisc, wordRefused_enabled hheld hst hdev, Bool.not_false, Bool.true_and,
    decide_false, decide_true, Bool.and_true, Bool.false_eq_true, if_false, if_true]
  exact storeWord_begins hslot hwords hlines hroom hlast

theorem setChute_other (x : Chute) {k : Nat} (hk : k ≠ c) : (s.setChute c x).chute k = s.chute k :=
  (setChute_chute _ _ _ _).trans (if_neg hk)

theorem chuteEvent_chute (ev k : Nat) : (chuteEvent s c ev).chute k = s.chute k := (chuteEvent_moves s c ev).chute k rfl

end

/-! ### The registers (R8, R331) -/

section
variable {s : State}

/-- R151, R156: an INIT by the host that may give it. -/
theorem init_rings {c : Nat} {f : Func} (h : Served s f.toNat) (hr : s.tack.readyNow = true)
    (ho : f.toNat = 0 ∨ decide ((s.chute c).func.toNat = f.toNat) = true) :
    chuteCmd s c (.host f) 9 noWord = (doorbellGo s c f 9 noWord).answer .ok := by
  unfold chuteCmd
  exact barAccess_of_served h hr ho

/-- R331: a doorbell command waits behind those before it. -/
theorem doorbellGo_waits {c : Nat} {f : Func} {op : Nat} {w : ChuteWord} (h : bellWaits s f = true) :
    doorbellGo s c f op w =
      { s with ms := { s.ms with bells := s.ms.bells ++ [{ f := f, c := BitVec.ofNat 16 c, op := op, w := w }] } } :=
  if_pos h

end

/-- Settles O22: the limit's abort through `cutDone_chute`; a word that waited through `pushWord_opens` and
`pushWord_extends`. -/
theorem chuteDisableAndWaitingWords : Obligations.ChuteDisableAndWaitingWords := by
  refine ⟨?_, ?_⟩
  · intro f c d v s n x k
    refine ⟨fun hst hop hrp => ?_, fun hst => ?_, fun hs hr => ⟨?_, ?_⟩, fun h0 hs hr => ?_, fun hs hr hown hbell => ?_⟩
    · refine congrArg Host.Outcome.next (if_pos ?_)
      rw [disableDone, Bool.and_eq_true, Bool.and_eq_true]
      exact ⟨⟨decide_eq_true hst, by rw [hop]; rfl⟩, decide_eq_true hrp⟩
    · have hexec : exec (.disableLimitExpiry c) s = .next (disableAbort s n) := congrArg Host.Outcome.next (if_pos hst)
      obtain ⟨⟨xoff, hwm, lwm, cr, rs, hsame⟩, hothers⟩ := cutDone_chute (s := s) (c := n)
      have hm := cutDone_moves (s := s) (c := n)
      have hdie : (cutDone s n).chuteDie (n / 1024) = k := congrArg (tabGet _ · (n / 1024)) (hm.same .chuteDies rfl)
      rw [disableAbort_eq, hdie] at hexec
      generalize cutDone s n = t at hexec hsame hothers hm
      refine ⟨_, hexec, ?_⟩
      obtain ⟨hdis, hclosed, hcp, hwp, hrp, hmp, hfp, hpstat⟩ := cutChute_fields x s.time
      dsimp only
      rw [setChuteDie_chute, hsame, setChuteDie_chuteDie, if_pos rfl]
      exact ⟨hdis, hclosed, hcp, hwp, hrp, hmp, hfp, hpstat, rfl, hothers,
        Moves.only (.step (setChuteDie_moves _ _ _) rfl (hm.mono rfl))⟩
    · exact congrArg Host.Outcome.next (barAccess_of_served hs hr (.inl rfl))
    · have hexec : exec (.chuteDieAbortLinesRead d) s = .next (answerRead (takeAbortLines s d.toNat)) :=
        congrArg Host.Outcome.next (pfAccess_of_open ⟨hs, hr⟩)
      refine ⟨_, hexec, congrArg State.resp (answerVal_toNat _ _), ?_, ?_,
        (Moves.step (answerVal_moves _ _) rfl ((setChuteDie_moves s _ _).mono rfl)).only⟩
      · rw [answerRead, answerVal_chuteDie, takeAbortLines, setChuteDie_chuteDie, if_pos rfl]
      · rw [answerRead, answerVal_chuteDie, takeAbortLines, setChuteDie_chuteDie, if_pos rfl]
    · have hf : 0 < f.toNat := Nat.pos_of_ne_zero fun h => h0 (BitVec.eq_of_toNat_eq h)
      exact congrArg Host.Outcome.next (barAccess_of_denied hs hr hf rfl)
    · have hown' := hown.imp (fun h => show f.toNat = 0 by rw [h]; rfl) fun h => decide_eq_true h
      refine congrArg Host.Outcome.next ((init_rings hs hr hown').trans ?_)
      rw [doorbellGo_waits hbell, BitVec.ofNat_toNat, BitVec.setWidth_eq]
  · intro c s src w n x hheld hst hxoff hlast _ hroom hcut hdev _
    refine ⟨fun hop hwp hspace hwait hfirst hturn => ?_,
      fun hop hsrc hdisc hslot hwords hlines hwait hspace hfirst => ?_⟩
    · have hretry := waitingFirstOpen_offers (s := s) hop hspace hwait
      have hx := noneWaits_chute (s := s) (c := n)
      have hpush := pushWord_opens (w := w) hx hheld hst hxoff hroom hdev hop hwp hfirst hlast hturn
      obtain ⟨⟨xoff, hwm, lwm, cr, rs, hsame⟩, hothers⟩ := offerWord_taken (by rw [hx]) (by rw [hx]) hpush
        ((setChute_chute _ _ _ _).trans (if_pos rfl)) fun j hj => by
          rw [setChute_other _ hj, chuteEvent_chute, setChute_other _ hj]
      refine ⟨_, hretry, ?_⟩
      generalize offerWord (noneWaits s n) n src w = t at hsame hothers
      dsimp only
      rw [hsame]
      exact ⟨rfl, rfl, rfl, rfl, rfl, rfl, fun j hj => (hothers j hj).trans (noneWaits_chute_other hj)⟩
    · have hretry := spaceWaitEnd_offers (s := s) hroom hspace hwait
      have hx := noneWaits_chute (s := s) (c := n)
      have hpush := pushWord_extends (w := w) hx hheld hst hroom hdev hcut hop hsrc hdisc hslot hwords hlines hfirst hlast
      obtain ⟨⟨xoff, hwm, lwm, cr, rs, hsame⟩, hothers⟩ := offerWord_taken (by rw [hx]) (by rw [hx]) hpush
        ((setChute_chute _ _ _ _).trans (if_pos rfl)) fun j hj => by
          rw [setChute_other _ hj, chuteEvent_chute]
      refine ⟨_, hretry, ?_⟩
      generalize offerWord (noneWaits s n) n src w = t at hsame hothers
      dsimp only
      rw [hsame]
      exact ⟨hop, rfl, rfl, placeWord_wp (w := w) hslot, rfl, fun j hj => (hothers j hj).trans (noneWaits_chute_other hj)⟩

end Sys2Proof.Machine

namespace Sys2Proof.Machine
open Sys2Proof

/-! ### Commands that complete -/

theorem Completes.mono {c : Instr} {s : State} {P Q : State → Prop} (h : Completes c s P) (hpq : ∀ t, P t → Q t) :
    Completes c s Q := h.imp fun t ht => ⟨ht.1, hpq t ht.2⟩

/-! ### Tables written entry by entry -/

section
variable {α β : Type} [DecidableEq α] {d : Nat → α} {key : β → Nat} {val : β → α} {q : Nat} {xs : List β}

/-- A key that no write of a list names reads as before. -/
theorem tabGet_foldl_tabSet_of_forall_ne (t : Tab α) (h : ∀ x ∈ xs, key x ≠ q) :
    tabGet d (xs.foldl (fun t x => tabSet d t (key x) (val x)) t) q = tabGet d t q := by
  induction xs generalizing t with
  | nil => rfl
  | cons x xs ih =>
    rw [List.foldl_cons, ih _ fun y hy => h y (List.mem_cons_of_mem _ hy), tabGet_tabSet,
      if_neg (h x List.mem_cons_self).symm]

/-- A key that writes of a list name, all with one value, reads as that value. -/
theorem tabGet_foldl_tabSet_of_mem (t : Tab α) {v : α} (hmem : ∃ x ∈ xs, key x = q)
    (hval : ∀ x ∈ xs, key x = q → val x = v) :
    tabGet d (xs.foldl (fun t x => tabSet d t (key x) (val x)) t) q = v := by
  induction xs generalizing t with
  | nil => obtain ⟨x, hx, -⟩ := hmem; exact absurd hx List.not_mem_nil
  | cons x xs ih =>
    rw [List.foldl_cons]
    by_cases hrest : ∃ y ∈ xs, key y = q
    · exact ih _ hrest fun y hy => hval y (List.mem_cons_of_mem _ hy)
    · have hx : key x = q := by
        obtain ⟨y, hy, hyq⟩ := hmem
        rcases List.mem_cons.mp hy with rfl | hy
        · exact hyq
        · exact absurd ⟨y, hy, hyq⟩ hrest
      rw [tabGet_foldl_tabSet_of_forall_ne _ fun y hy hyq => hrest ⟨y, hy, hyq⟩, tabGet_tabSet, if_pos hx.symm,
        hval x List.mem_cons_self hx]

end

/-! ### Activity words and silent dies (R17, R210, R211) -/

section
variable {x : PSlot} {w : BitVec 16}

theorem takeWord_absolute (hw : w.setWidth 4 = (0 : BitVec 4)) :
    takeWord x w = { x with p := (bitsAt w.toNat 4 12 : Nat), seq := 0, held := false, silent := false } := by
  rw [takeWord, if_pos hw]

theorem takeWord_next (hw : w.setWidth 4 ≠ (0 : BitVec 4)) (hh : x.held = false) (hseq : w.setWidth 4 = x.seq + 1) :
    takeWord x w = { x with p := x.p + (w.extractLsb' 4 12).toInt, seq := w.setWidth 4 } := by
  unfold takeWord
  extract_lets seq
  rw [if_neg hw, if_neg (by simp [hh]), if_neg (not_not_intro hseq)]

theorem takeWord_gap (hw : w.setWidth 4 ≠ (0 : BitVec 4)) (hh : x.held = false) (hseq : w.setWidth 4 ≠ x.seq + 1) :
    takeWord x w = { x with seq := w.setWidth 4, held := true } := by
  unfold takeWord
  extract_lets seq
  rw [if_neg hw, if_neg (by simp [hh]), if_pos hseq]

end

/-- Of an engine one activity slot is written, and no other engine changes. -/
structure SlotWritten (e i : Nat) (x : PSlot) (s t : State) : Prop where
  slot : (t.oe e).slot i = x
  kept : ∀ j, j ≠ i → (t.oe e).slot j = (s.oe e).slot j
  others : ∀ j, j ≠ e → t.oe j = s.oe j

section
variable {s t u : State} {e : Oe} {p : Site} {i : Nat} {w : BitVec 16}

theorem setSlot_written (s : State) (e i : Nat) (x : PSlot) :
    SlotWritten e i x s (s.setOe e ((s.oe e).setSlot i x)) where
  slot := by rw [setOe_oe, if_pos rfl, setSlot_slot, if_pos rfl]
  kept := fun j hj => by rw [setOe_oe, if_pos rfl, setSlot_slot, if_neg hj]
  others := fun j hj => by rw [setOe_oe, if_neg hj]

theorem SlotWritten.trans_moves {k : Nat} {x : PSlot} {ps : List Part} (h : SlotWritten k i x s t) (hm : Moves ps t u)
    (hp : listed .oes ps = false) : SlotWritten k i x s u where
  slot := by rw [hm.oe k hp, h.slot]
  kept := fun j hj => by rw [hm.oe k hp, h.kept j hj]
  others := fun j hj => by rw [hm.oe j hp, h.others j hj]

/-- R210: the word of a powered die in reach changes its slot, and may end the engine's record of a silent die. -/
theorem activityWord_takes (hi : activitySlot e.toNat p.val = some i) (hp : (s.site p.val).powered = true) :
    Completes (.activityWord e p w) s fun t =>
      SlotWritten e.toNat i (takeWord ((s.oe e.toNat).slot i) w) s t ∧ Moves [.oes, .flt] s t := by
  refine ⟨_, congrArg Host.Outcome.next (by rw [if_pos hp, hi]), ?_⟩
  dsimp only
  have h1 := setSlot_written s e.toNat i (takeWord ((s.oe e.toNat).slot i) w)
  have hm := setOe_moves s e.toNat ((s.oe e.toNat).setSlot i (takeWord ((s.oe e.toNat).slot i) w))
  rw [updOe_def]
  split
  · exact ⟨h1, hm.mono rfl⟩
  · have he := endCondition_moves (s.setOe e.toNat ((s.oe e.toNat).setSlot i (takeWord ((s.oe e.toNat).slot i) w)))
      (srcOe e.toNat) cSilentDie
    exact ⟨h1.trans_moves he rfl, .step he rfl (hm.mono rfl)⟩

/-- R17: a powered die in reach that has been heard is recorded as silent, and its estimate held. -/
theorem oeSilentDie_holds (hi : activitySlot e.toNat p.val = some i) (hp : (s.site p.val).powered = true)
    (hq : ((s.oe e.toNat).slot i).silent = false) : Completes (.oeSilentDie e p) s fun t =>
      SlotWritten e.toNat i { (s.oe e.toNat).slot i with silent := true, held := true } s t ∧
      Recorded (srcOe e.toNat) cSilentDie s t ∧ Moves [.oes, .flt, .host] s t := by
  refine ⟨_, congrArg Host.Outcome.next (by rw [hi]), ?_⟩
  dsimp only
  rw [if_neg (by simp [hq, hp]), updOe_def]
  generalize hx : ({ (s.oe e.toNat).slot i with silent := true, held := true } : PSlot) = x
  have hr := report_moves (s.setOe e.toNat ((s.oe e.toNat).setSlot i x)) (srcOe e.toNat) cSilentDie p.val
  exact ⟨(setSlot_written s e.toNat i x).trans_moves hr rfl, report_recorded (s.setOe e.toNat _) _ _ _,
    .step hr rfl ((setOe_moves s _ _).mono rfl)⟩

end
end Sys2Proof.Machine

namespace Sys2Proof.Machine
open Sys2Proof

/-! ### Feed-forward (R206, R211) -/

section
variable (o : OeS)

/-- R211: a slot after one step of its filter. -/
def filteredSlot (j : Nat) : PSlot :=
  let tau := (tabGet (fun _ => 0) o.ffTau j).toNat
  if tau = 0 then o.slot j
  else { o.slot j with y := (o.slot j).y + (((o.slot j).p : Rat) / 40 - (o.slot j).y) / (10 * tau) }

theorem filteredSlot_p (j : Nat) : (filteredSlot o j).p = (o.slot j).p := by
  rw [filteredSlot]
  split <;> rfl

theorem filteredSlot_y (j : Nat) : let tau := (tabGet (fun _ => 0) o.ffTau j).toNat
    (filteredSlot o j).y = if tau = 0 then (o.slot j).y
      else (o.slot j).y + (((o.slot j).p : Rat) / 40 - (o.slot j).y) / (10 * tau) := by
  dsimp only
  rw [filteredSlot]
  split <;> rfl

/-- An engine's filter of one slot writes no more than the slots, and of those the one. -/
theorem filterSlot_slots (n : Nat) : ∃ t, filterSlot o n = { o with slots := t } ∧
    ∀ j, (filterSlot o n).slot j = if j = n then filteredSlot o n else o.slot j := by
  by_cases htau : (tabGet (fun _ => 0) o.ffTau n).toNat = 0
  · have hf : filterSlot o n = o := if_pos htau
    have hs : filteredSlot o n = o.slot n := if_pos htau
    rw [hf, hs]
    exact ⟨o.slots, rfl, fun j => by split <;> simp [*]⟩
  · have hf : filterSlot o n = o.setSlot n (filteredSlot o n) := by
      rw [show filteredSlot o n = _ from if_neg htau]
      exact if_neg htau
    rw [hf]
    exact ⟨_, rfl, fun j => setSlot_slot n j o _⟩

/-- The filters of the first `n` slots. -/
theorem foldl_filterSlot_slots (n : Nat) : ∃ t, (List.range n).foldl filterSlot o = { o with slots := t } ∧
    ∀ j, ({ o with slots := t } : OeS).slot j = if j < n then filteredSlot o j else o.slot j := by
  induction n with
  | zero => exact ⟨o.slots, rfl, fun j => rfl⟩
  | succ n ih =>
    obtain ⟨t, ht, hslot⟩ := ih
    obtain ⟨u, hu, hslot'⟩ := filterSlot_slots { o with slots := t } n
    refine ⟨u, by rw [List.range_succ, List.foldl_append, ht]; exact hu, fun j => ?_⟩
    have hn : filteredSlot { o with slots := t } n = filteredSlot o n := by
      have := hslot n
      rw [if_neg (Nat.lt_irrefl n)] at this
      simp only [filteredSlot, this]
    have hj := hslot' j
    rw [hu, hn, hslot j] at hj
    rw [show ({ o with slots := u } : OeS) = { { o with slots := t } with slots := u } from rfl, hj]
    by_cases h : j = n
    · subst h; simp
    · simp only [h, if_false]
      exact if_congr (by omega) rfl rfl

/-- R206: heaters and RAIL apart, what the demands of an engine depend on is the same. -/
theorem heaterPower_rings {t : Tab Ring} (h : ∀ r, (({ o with rings := t } : OeS).ring r).integ = (o.ring r).integ)
    (r : Nat) :
    heaterPower { o with rings := t } r = heaterPower o r := by
  have hd : demand { o with rings := t } = demand o := funext fun r => congrArg (· + ffTerm o (r / 16)) (h r)
  unfold heaterPower
  rw [hd]
  rfl

/-- R206, R211: the demand of a ring, its bank's feed-forward term written out. -/
theorem demand_eq (r : Nat) : demand o r = (o.ring r).integ + (if o.ffEn then -((List.range 25).map fun n =>
    ((tabGet (fun _ => (0 : BitVec 16)) o.ffGain (25 * (r / 16) + n)).toInt : Rat) / 4096 * (o.slot n).y).sum
      else 0) := by
  unfold demand ffTerm fixedPt
  norm_num

end

/-- R206, R209: the rings of a list driven: their heaters follow their powers, every other ring is as it was, and no
demand changes. -/
structure Driven (e : Nat) (ks : List Nat) (s t : State) : Prop where
  moves : Moves [.oes, .flt] s t
  others : ∀ j, j ≠ e → t.oe j = s.oe j
  rings : ∃ x, t.oe e = { s.oe e with rings := x }
  integ : ∀ r, ((t.oe e).ring r).integ = ((s.oe e).ring r).integ
  heater : ∀ r ∈ ks, ((t.oe e).ring r).heater = heaterCode (heaterPower (s.oe e) r)
  kept : ∀ r, r ∉ ks → (t.oe e).ring r = (s.oe e).ring r

section
variable {e : Nat} {ks : List Nat} {s t u : State}

theorem Driven.refl (e : Nat) (s : State) : Driven e [] s s where
  moves := .refl _ s
  others := fun _ _ => rfl
  rings := ⟨_, rfl⟩
  integ := fun _ => rfl
  heater := fun _ h => absurd h List.not_mem_nil
  kept := fun _ _ => rfl

theorem Driven.heaterPower_eq (h : Driven e ks s t) (r : Nat) : heaterPower (t.oe e) r = heaterPower (s.oe e) r := by
  obtain ⟨x, hx⟩ := h.rings
  rw [hx]
  exact heaterPower_rings _ (fun q => by rw [← hx]; exact h.integ q) r

theorem Driven.slot (h : Driven e ks s t) (j : Nat) : (t.oe e).slot j = (s.oe e).slot j := by
  obtain ⟨x, hx⟩ := h.rings
  rw [hx]
  rfl

/-- R209: RAIL cleared or not, the ring keeps its heater and its integrator. -/
theorem clearRail_kept (s : State) (e r : Nat) : (∀ j, j ≠ e → (clearRail s e r).oe j = s.oe j) ∧
    (∃ x, (clearRail s e r).oe e = { s.oe e with rings := x }) ∧
    (∀ q, q ≠ r → ((clearRail s e r).oe e).ring q = (s.oe e).ring q) ∧
    (((clearRail s e r).oe e).ring r).integ = ((s.oe e).ring r).integ ∧
    (((clearRail s e r).oe e).ring r).heater = ((s.oe e).ring r).heater := by
  rw [clearRail_oe]
  split
  · refine ⟨fun j hj => ?_, ?_, fun q hq => ?_, ?_, ?_⟩
    · rw [updRing_oe, if_neg hj]
    · rw [updRing_oe, if_pos rfl]
      exact ⟨_, rfl⟩
    · rw [updRing_ring, if_neg hq]
    · rw [updRing_ring, if_pos rfl]
    · rw [updRing_ring, if_pos rfl]
  · exact ⟨fun _ _ => rfl, ⟨_, rfl⟩, fun _ _ => rfl, rfl, rfl⟩

theorem driveRing_driven (s : State) (e r : Nat) : Driven e [r] s (driveRing s e r) := by
  unfold driveRing
  extract_lets h s1
  have h1 : Driven e [r] s s1 :=
    { moves := (updRing_moves s e r _).mono rfl
      others := fun j hj => by rw [updRing_oe, if_neg hj]
      rings := ⟨_, by rw [updRing_oe, if_pos rfl]; rfl⟩
      integ := fun q => by
        rw [updRing_ring]
        split
        · next hq => rw [hq]
        · rfl
      heater := fun q hq => by rw [List.mem_singleton.mp hq, updRing_ring, if_pos rfl]
      kept := fun q hq => by rw [updRing_ring, if_neg (by simpa using hq)] }
  split
  · obtain ⟨hothers, ⟨x, hx⟩, hne, hinteg, hheater⟩ := clearRail_kept s1 e r
    obtain ⟨y, hy⟩ := h1.rings
    refine
      { moves := .trans h1.moves ?_
        others := fun j hj => (hothers j hj).trans (h1.others j hj)
        rings := ⟨x, by rw [hx, hy]⟩
        integ := fun q => ?_
        heater := fun q hq => ?_
        kept := fun q hq => ?_ }
    · have hm := clearRail_moves s1 e r
      split at hm
      · exact hm
      · exact hm.mono rfl
    · by_cases hq : q = r
      · rw [hq, hinteg, h1.integ]
      · rw [hne q hq, h1.integ]
    · rw [List.mem_singleton.mp hq, hheater, h1.heater r List.mem_cons_self]
    · rw [hne q (by simpa using hq), h1.kept q hq]
  · exact h1

theorem Driven.trans {js : List Nat} (h : Driven e ks s t) (h' : Driven e js t u) : Driven e (js ++ ks) s u := by
  obtain ⟨x, hx⟩ := h.rings
  obtain ⟨y, hy⟩ := h'.rings
  refine
    { moves := h.moves.trans h'.moves
      others := fun j hj => (h'.others j hj).trans (h.others j hj)
      rings := ⟨y, by rw [hy, hx]⟩
      integ := fun r => (h'.integ r).trans (h.integ r)
      heater := fun r hr => ?_
      kept := fun r hr => ?_ }
  · by_cases hj : r ∈ js
    · rw [h'.heater r hj, h.heaterPower_eq]
    · rw [h'.kept r hj, h.heater r ((List.mem_append.mp hr).resolve_left hj)]
  · rw [h'.kept r fun hm => hr (List.mem_append_left _ hm), h.kept r fun hm => hr (List.mem_append_right _ hm)]

theorem foldl_driveRing_driven {α : Type} (xs : List (Nat × α)) (s : State) (e : Nat) :
    ∃ ks, (∀ r, r ∈ ks ↔ ∃ x ∈ xs, x.1 = r) ∧ Driven e ks s (xs.foldl (fun st x => driveRing st e x.1) s) := by
  induction xs generalizing s with
  | nil => exact ⟨[], by simp, .refl e s⟩
  | cons x xs ih =>
    obtain ⟨ks, hks, hd⟩ := ih (driveRing s e x.1)
    exact ⟨ks ++ [x.1], fun r => by simp [hks, or_comm, eq_comm], (driveRing_driven s e x.1).trans hd⟩

/-- R211: an engine after a step of its filters, before its heaters follow. -/
def filtered (s : State) (e : Nat) : State := s.updOe e fun o => (List.range 25).foldl filterSlot o

theorem filtered_moves (s : State) (e : Nat) : Moves [.oes] s (filtered s e) := setOe_moves s _ _

theorem filtered_oe (s : State) (e : Nat) : ∃ u, (filtered s e).oe e = { s.oe e with slots := u } ∧
    ∀ j, j < 25 → ((filtered s e).oe e).slot j = filteredSlot (s.oe e) j := by
  obtain ⟨u, hu, hslot⟩ := foldl_filterSlot_slots (s.oe e) 25
  have h : (filtered s e).oe e = { s.oe e with slots := u } := by
    rw [filtered, updOe_def, setOe_oe, if_pos rfl]
    exact hu
  exact ⟨u, h, fun j hj => by rw [h, hslot, if_pos hj]⟩

theorem feedForwardUpdate_drives (e : Oe) (s : State) : Completes (.feedForwardUpdate e) s fun t =>
    ∃ ks, (∀ r, r ∈ ks ↔ ∃ x ∈ (s.oe e.toNat).rings, x.1 = r ∧ (x.2.st = .locked ∨ x.2.st = .frozen)) ∧
      Driven e.toNat ks (filtered s e.toNat) t := by
  obtain ⟨ks, hks, hd⟩ := foldl_driveRing_driven
    ((s.oe e.toNat).rings.filter fun x => x.2.st = .locked || x.2.st = .frozen) (filtered s e.toNat) e.toNat
  refine ⟨_, rfl, ks, fun r => ?_, hd⟩
  rw [hks]
  simp only [List.mem_filter, Bool.or_eq_true, decide_eq_true_eq]
  exact exists_congr fun x => by tauto

end
end Sys2Proof.Machine

namespace Sys2Proof.Machine
open Sys2Proof

/-! ### A MGMT flit that arrives (R253, R254, R256) -/

section
variable {l : LinkId} {fl : RxFlit} {s : State}

/-- R257: an acknowledgement of what is already free frees nothing. -/
theorem freeAcked_oldest {x : LL} {ack : Nat} (h : ack = x.oldest) : freeAcked x ack = x := by
  unfold freeAcked
  extract_lets n
  have hn : n = 0 := by unfold n; omega
  rw [if_pos (by simp [hn])]

/-- R253, R254, R257: the flit's slot is counted, and nothing else of its link's layer changes. -/
theorem rxArrive_good (h : FlitArrives l fl s) : ∃ t, rxArrive s l.toNat fl = (t, some (arrivingFlit l fl s)) ∧
    t.ll l.toNat = { s.ll l.toNat with rxSlot := (s.ll l.toNat).rxSlot + 1 } ∧ Moves [.links, .lls] s t := by
  obtain ⟨hst, hcmd, hgood, hack⟩ := h
  have hmap : applyRxMap s l.toNat = s := by
    unfold applyRxMap
    extract_lets x
    rw [show x.cmdRx = none from hcmd]
  have hslot : (rxSlotFlit s l.toNat fl).1.ll l.toNat =
      { s.ll l.toNat with rxSlot := (s.ll l.toNat).rxSlot + 1 } := by
    simp [rxSlotFlit, hmap, updLl_def]
  have hm : Moves [.links, .lls] s (rxSlotFlit s l.toNat fl).1 := by
    unfold rxSlotFlit
    rw [hmap]
    exact .step (setLl_moves _ _ _) rfl ((setLink_moves s _ _).mono rfl)
  refine ⟨(rxSlotFlit s l.toNat fl).1.updLl l.toNat fun x => freeAcked x (flitAck (arrivingFlit l fl s)), ?_, ?_,
    .step (setLl_moves _ _ _) rfl hm⟩
  · rw [rxArrive, if_neg (by simp [hst])]
    exact if_pos hgood
  · rw [updLl_def, setLl_ll, if_pos rfl, hslot]
    exact freeAcked_oldest hack

/-- R258: ACK_PUB is published once enough flits have been accepted. -/
def publishDue (s : State) (l : Nat) : State := if 32 ≤ (s.ll l).accepted then s.updLl l publish else s

theorem publishDue_moves (s : State) (l : Nat) : Moves [.lls] s (publishDue s l) :=
  .ite (setLl_moves s _ _) (.refl _ s)

theorem publishDue_ll (s : State) (l : Nat) : ((publishDue s l).ll l).nextRx = (s.ll l).nextRx ∧
    ((publishDue s l).ll l).rxSlot = (s.ll l).rxSlot := by
  unfold publishDue
  split
  · rw [updLl_def, setLl_ll, if_pos rfl]
    exact ⟨rfl, rfl⟩
  · exact ⟨rfl, rfl⟩

/-- A link's layer with a flit's slot and its sequence number counted (R256). -/
def acceptedLl (x : LL) : LL :=
  { x with rxSlot := x.rxSlot + 1, nextRx := x.nextRx + 1, accepted := x.accepted + 1 }

/-- R256, R280: a MGMT flit of the operation awaited is accepted, and its payload delivered. -/
theorem rxMgmt_delivers {op : Nat} (h : MgmtArrives l fl op s) : ∃ u, Moves [.links, .lls, .pmus] s u ∧
    u.ll l.toNat = acceptedLl (s.ll l.toNat) ∧ ∀ deliver : State → BitVec 512 → State,
      rxMgmt s l.toNat fl op false (fun _ _ => true) deliver =
        publishDue (deliver u (flitPayload (arrivingFlit l fl s))) l.toNat := by
  obtain ⟨harr, ⟨hsync, hseq, hpurged⟩, htyp, hop, henc, -⟩ := h
  obtain ⟨t, ht, hll, hm⟩ := rxArrive_good harr
  have hm1 := pmuCount_moves t (wOe (l.toNat / 8)) evLlRx (l.toNat % 8) 1
  refine ⟨(pmuCount t (wOe (l.toNat / 8)) evLlRx (l.toNat % 8) 1).setLl l.toNat
    { t.ll l.toNat with nextRx := (t.ll l.toNat).nextRx + 1, accepted := (t.ll l.toNat).accepted + 1 }, ?_, ?_,
    fun deliver => ?_⟩
  · exact .step (setLl_moves _ _ _) rfl (.step hm1 rfl (hm.mono rfl))
  · rw [setLl_ll, if_pos rfl, hll]
    rfl
  · have hencT : (t.ll l.toNat).encActive = false := by rw [hll]; exact henc
    have hplain : plainPayload (t.ll l.toNat) (arrivingFlit l fl s) = flitPayload (arrivingFlit l fl s) := by
      simp [plainPayload, hencT]
    have hsyncT : ((t.ll l.toNat).syncOn && !(t.ll l.toNat).gotPartner) = false := by
      rw [hll]
      rcases hsync with h | h <;> simp [h]
    have hpurgedT : purgedWaits (t.ll l.toNat) = false := by rw [hll]; exact hpurged
    have hd : ((t.ll l.toNat).nextRx.toNat + 4096 - flitSeq (arrivingFlit l fl s)) % 4096 = 0 := by
      rw [hll, hseq]
      simp
    unfold rxMgmt rxOfType
    rw [ht]
    simp only [htyp, decide_true, if_true, Bool.false_eq_true, if_false, hplain, hop, ne_eq, not_true_eq_false,
      decide_false, Bool.and_false]
    unfold rxSequenced
    simp only [hsyncT, Bool.false_eq_true, if_false, hd, if_true, hpurgedT]
    have htake (q : State) (hq : (q.ll l.toNat).encActive = false) (it : RxItem) (g : State → State) :
        takeItem q l.toNat (arrivingFlit l fl s) it g = g q := if_neg (by simp [hq])
    rw [htake _ (by rw [setLl_ll, if_pos rfl]; exact hencT)]
    rfl

end

/-! ### Margins (R213, R214) -/

/-- What an engine counts of its partners' margins, its queued sparings and its record may change; FAR stays, and so
does every other engine. -/
structure CountsOnly (e : Nat) (s t : State) : Prop where
  moves : Moves [.oes, .flt, .host] s t
  others : ∀ j, j ≠ e → t.oe j = s.oe j
  far : (t.oe e).far = (s.oe e).far

section
variable {e : Nat} {s t u : State}

theorem CountsOnly.refl (e : Nat) (s : State) : CountsOnly e s s := ⟨.refl _ s, fun _ _ => rfl, rfl⟩

theorem CountsOnly.trans (h : CountsOnly e s t) (h' : CountsOnly e t u) : CountsOnly e s u :=
  ⟨h.moves.trans h'.moves, fun j hj => (h'.others j hj).trans (h.others j hj), h'.far.trans h.far⟩

theorem CountsOnly.ite {c : Prop} [Decidable c] (h : CountsOnly e s t) (h' : CountsOnly e s u) :
    CountsOnly e s (if c then t else u) := by
  split <;> assumption

theorem CountsOnly.of_moves (h : Moves [.flt, .host] s t) : CountsOnly e s t :=
  ⟨h.mono rfl, fun j _ => h.oe j rfl, congrArg OeS.far (h.oe e rfl)⟩

theorem updOe_countsOnly (s : State) (e : Nat) {f : OeS → OeS} (hf : (f (s.oe e)).far = (s.oe e).far) :
    CountsOnly e s (s.updOe e f) where
  moves := (setOe_moves s _ _).mono rfl
  others := fun j hj => by rw [updOe_def, setOe_oe, if_neg hj]
  far := by rw [updOe_def, setOe_oe, if_pos rfl, hf]

theorem queueSparing_countsOnly (s : State) (e i : Nat) : CountsOnly e s (queueSparing s e i) := by
  unfold queueSparing
  extract_lets o
  exact .ite (.refl e s) (updOe_countsOnly s e rfl)

/-- R213: a partner's margins kept as FAR. -/
def farTaken (s : State) (l : Nat) (p : BitVec 512) : State := s.updOe (l / 8) fun o => { o with
  far := (List.range 16).foldl (fun t i => tabSet (fun _ => 0x8000) t (16 * (l % 8) + i)
    (BitVec.ofNat 16 (bitsAt p.toNat (16 + 16 * i) 16))) o.far }

theorem takeMargins_counts (s : State) (l : Nat) (p : BitVec 512) :
    CountsOnly (l / 8) (farTaken s l p) (takeMargins s l p) := by
  unfold takeMargins
  extract_lets e port far data s1 alone s2 all n s3
  have h2 : CountsOnly e s1 s2 := by
    refine List.foldlRecOn data _ (motive := fun t => CountsOnly e s1 t) (.refl e s1) fun t ht i _ => ?_
    extract_lets n t1
    have h1 : CountsOnly e s1 t1 := ht.trans (updOe_countsOnly t e rfl)
    exact .ite (h1.trans (queueSparing_countsOnly t1 e i)) h1
  have h3 : CountsOnly e s1 s3 := h2.trans (updOe_countsOnly s2 e rfl)
  exact .ite (h3.trans (.of_moves (report_moves s3 _ _ _)))
    (.ite (h3.trans (.of_moves ((endCondition_moves s3 _ _).mono rfl))) h3)

/-- R213: the near margins of a port as they are measured, and those of the other ports. -/
theorem tabGet_portMargins (d : Nat → BitVec 16) (t : Tab (BitVec 16)) (port : Nat) (ms : List (BitVec 16))
    (hlen : ms.length = 16) (q : Nat) :
    tabGet d (ms.zipIdx.foldl (fun t x => tabSet d t (16 * port + x.2) x.1) t) q =
      if q / 16 = port then ms.getD (q % 16) 0x8000 else tabGet d t q := by
  split
  · next hq =>
    refine tabGet_foldl_tabSet_of_mem t ⟨(ms.getD (q % 16) 0x8000, q % 16), ?_, by dsimp only; omega⟩ fun x hx hk => ?_
    · rw [List.mk_mem_zipIdx_iff_getElem?, List.getD_eq_getElem?_getD, List.getElem?_eq_getElem (by omega)]
      rfl
    · have hx2 : x.2 = q % 16 := by omega
      rw [List.mem_zipIdx_iff_getElem?] at hx
      rw [← hx2, List.getD_eq_getElem?_getD, hx]
      rfl
  · next hq =>
    refine tabGet_foldl_tabSet_of_forall_ne t fun x hx hk => hq ?_
    rw [List.mem_zipIdx_iff_getElem?] at hx
    have := (List.getElem?_eq_some_iff.mp hx).1
    omega

theorem farTaken_far (s : State) (l : Nat) (p : BitVec 512) (q : Nat) :
    tabGet (fun _ => 0x8000) ((farTaken s l p).oe (l / 8)).far q =
      if q / 16 = l % 8 then BitVec.ofNat 16 (bitsAt p.toNat (16 + 16 * (q % 16)) 16)
      else tabGet (fun _ => 0x8000) (s.oe (l / 8)).far q := by
  rw [farTaken, updOe_def, setOe_oe, if_pos rfl]
  dsimp only
  split
  · next hq =>
    refine tabGet_foldl_tabSet_of_mem _ ⟨q % 16, List.mem_range.mpr (by omega), by omega⟩ fun i hi hk => ?_
    have : i = q % 16 := by omega
    rw [this]
  · next hq =>
    refine tabGet_foldl_tabSet_of_forall_ne _ fun i hi hk => hq ?_
    have := List.mem_range.mp hi
    omega

/-- R213, R280: an accepted MARGIN message. -/
theorem margin_accepted {l : LinkId} {fl : RxFlit} (h : MgmtArrives l fl 1 s) : Completes (.margin l fl) s fun t =>
    Accepted l s t ∧ Moves [.oes, .links, .lls, .flt, .host, .pmus] s t ∧
    (∀ j, j ≠ l.toNat / 8 → t.oe j = s.oe j) ∧
    ∀ q, tabGet (fun _ => 0x8000) (t.oe (l.toNat / 8)).far q = if q / 16 = l.toNat % 8
      then BitVec.ofNat 16 (bitsAt (flitPayload (arrivingFlit l fl s)).toNat (16 + 16 * (q % 16)) 16)
      else tabGet (fun _ => 0x8000) (s.oe (l.toNat / 8)).far q := by
  obtain ⟨u, hu, hll, hrx⟩ := rxMgmt_delivers h
  refine ⟨_, congrArg Host.Outcome.next (hrx fun st p => takeMargins st l.toNat p), ?_⟩
  dsimp only
  generalize flitPayload (arrivingFlit l fl s) = p
  have hc := takeMargins_counts u l.toNat p
  have hfar : Moves [.oes] u (farTaken u l.toNat p) := setOe_moves u _ _
  have hpub := publishDue_moves (takeMargins u l.toNat p) l.toNat
  have hllT : (takeMargins u l.toNat p).ll l.toNat = acceptedLl (s.ll l.toNat) :=
    ((hc.moves.ll _ rfl).trans (hfar.ll _ rfl)).trans hll
  obtain ⟨hnext, hslot⟩ := publishDue_ll (takeMargins u l.toNat p) l.toNat
  refine ⟨⟨by rw [hnext, hllT]; rfl, by rw [hslot, hllT]; rfl⟩, ?_, fun j hj => ?_, fun q => ?_⟩
  · exact .step hpub rfl (.step hc.moves rfl (.step hfar rfl (hu.mono rfl)))
  · rw [hpub.oe j rfl, hc.others j hj, farTaken, updOe_def, setOe_oe, if_neg hj, hu.oe j rfl]
  · rw [hpub.oe _ rfl, hc.far, farTaken_far, hu.oe _ rfl]

end
end Sys2Proof.Machine

namespace Sys2Proof.Machine
open Sys2Proof

/-! ### Margins measured (R213) -/

section
variable {e : Oe} {port : BitVec 3} {ms : List (BitVec 16)} {s : State}

/-- R213: NEAR with the margins of a port. -/
def nearTaken (s : State) (e port : Nat) (ms : List (BitVec 16)) : State := s.updOe e fun o => { o with
  near := ms.zipIdx.foldl (fun t x => tabSet (fun _ => 0x8000) t (16 * port + x.2) x.1) o.near }

theorem nearTaken_near (hlen : ms.length = 16) (k q : Nat) :
    tabGet (fun _ => 0x8000) ((nearTaken s k port.toNat ms).oe k).near q =
      if q / 16 = port.toNat then ms.getD (q % 16) 0x8000 else tabGet (fun _ => 0x8000) (s.oe k).near q := by
  rw [nearTaken, updOe_def, setOe_oe, if_pos rfl]
  exact tabGet_portMargins _ _ _ _ hlen q

/-- R213: the margins of a port are stored, and told to a v2 partner that takes them. -/
theorem marginMeasure_measures (hlen : ms.length = 16) {l : Nat} (hl : l = 8 * e.toNat + port.toNat) :
    exec (.marginMeasure e port ms) s = .next
      (if (s.link l).st = .active ∧ (s.link l).version = true ∧ (s.link l).pFlags.getLsbD 1 = true then
        (nearTaken s e.toNat port.toNat ms).setLl l (queueMgmt (s.ll l)
          (BitVec.ofNat 512 (1 + 2 ^ 16 * leNat (ms.flatMap fun m => leBytes m.toNat 2))))
      else nearTaken s e.toNat port.toNat ms) := by
  have hms : ((List.range 16).map fun i => (ms[i]?).getD 0x8000) = ms := by
    refine List.ext_getElem (by simp [hlen]) fun i hi hi' => ?_
    rw [List.getElem_map, List.getElem_range, List.getElem?_eq_getElem hi', Option.getD_some]
  refine congrArg Host.Outcome.next ?_
  dsimp only
  rw [hms, ← hl]
  refine if_congr ?_ rfl rfl
  simp only [Bool.and_eq_true, decide_eq_true_eq, and_assoc]

/-- R213: the state that it leaves, engine and link layer apart. -/
theorem marginMeasure_stores (hlen : ms.length = 16) {l : Nat} (hl : l = 8 * e.toNat + port.toNat) :
    Completes (.marginMeasure e port ms) s fun t =>
      t.oe = (nearTaken s e.toNat port.toNat ms).oe ∧
      t.ll l = (if (s.link l).st = .active ∧ (s.link l).version = true ∧ (s.link l).pFlags.getLsbD 1 = true then
        queueMgmt (s.ll l) (BitVec.ofNat 512 (1 + 2 ^ 16 * leNat (ms.flatMap fun m => leBytes m.toNat 2)))
          else s.ll l) ∧
      (∀ q, q ≠ l → t.ll q = s.ll q) ∧ Moves [.oes, .lls] s t := by
  have hm : Moves [.oes, .lls] s (nearTaken s e.toNat port.toNat ms) := (setOe_moves s _ _).mono rfl
  refine ⟨_, marginMeasure_measures hlen hl, ?_⟩
  split
  · exact ⟨rfl, (setLl_ll _ _ _ _).trans (if_pos rfl), fun q hq => (setLl_ll _ _ _ _).trans (if_neg hq),
      .step (setLl_moves _ _ _) rfl hm⟩
  · exact ⟨rfl, rfl, fun _ _ => rfl, hm⟩

end

/-! ### Crosstalk (R207) -/

section
variable {o : OeS} {x : XtResidual}

theorem refineEntry_moved (hq : bankQuiet o x.bank.toNat = true) (hr : 16 < x.residual.natAbs)
    (h8 : x.residual % 8 = 0) (hb : x.block = 1) (hk : 0 < x.bank.toNat) :
    refineEntry o x = (let key := xtKey x.bank.toNat 1 x.row.toNat x.col.toNat
      { o with xt := tabSet (fun _ => 0) o.xt key (BitVec.ofInt 16
        (max (-32768) (min 32767 ((tabGet (fun _ => 0) o.xt key).toInt + x.residual / 8)))) }) := by
  have hstep : ((x.residual : Rat) / 8) = ((x.residual / 8 : Int) : Rat) := by
    obtain ⟨c, hc⟩ := Int.dvd_of_emod_eq_zero h8
    rw [hc, Int.mul_ediv_cancel_left _ (by decide)]
    push_cast
    ring
  unfold refineEntry
  have hk0 : x.bank.toNat ≠ 0 := by omega
  simp only [hb, hq, hstep, Rat.floor_intCast, if_true]
  rw [if_neg (by simp [hk0, hr])]
  rfl

theorem xtPending_listed {q : Nat} (h : xtPending o q = true) : q ∈ (xtKeys o).filter (xtPending o) := by
  refine List.mem_filter.mpr ⟨List.mem_dedup.mpr (List.mem_append.mpr ?_), h⟩
  by_contra hno
  rw [not_or] at hno
  have hxt : tabGet (fun _ => (0 : BitVec 16)) o.xt q = 0 := by
    by_contra hne
    exact hno.1 (List.mem_map.mpr ⟨_, mem_of_tabGet hne, rfl⟩)
  have hflash : tabGet (fun _ => (0 : BitVec 16)) o.xtFlash q = 0 := by
    by_contra hne
    exact hno.2 (List.mem_map.mpr ⟨_, mem_of_tabGet hne, rfl⟩)
  rw [xtPending, hxt, hflash] at h
  exact absurd h (by decide)

/-- R207: the flash values of an engine's entries once the pending ones are committed. -/
def committed (o : OeS) : Tab (BitVec 16) := ((xtKeys o).filter (xtPending o)).foldl
  (fun t k => tabSet (fun _ => 0) t k (tabGet (fun _ => 0) o.xt k)) o.xtFlash

theorem tabGet_committed (q : Nat) : tabGet (fun _ => (0 : BitVec 16)) (committed o) q =
    if xtPending o q then tabGet (fun _ => 0) o.xt q else tabGet (fun _ => 0) o.xtFlash q := by
  unfold committed
  split
  · next h => exact tabGet_foldl_tabSet_of_mem _ ⟨q, xtPending_listed h, rfl⟩ fun k _ hk => by rw [hk]
  · next h =>
    refine tabGet_foldl_tabSet_of_forall_ne _ fun k hk hkq => h ?_
    rw [← hkq]
    exact (List.mem_filter.mp hk).2

theorem xtCommit_commits (e : Oe) (s : State) : Completes (.xtCommit e) s fun t =>
    t.oe e.toNat = { s.oe e.toNat with xtFlash := committed (s.oe e.toNat) } ∧
    (∀ j, j ≠ e.toNat → t.oe j = s.oe j) ∧ Moves [.oes, .tack, .flash] s t := by
  refine ⟨_, rfl, ?_⟩
  have hm := setOe_moves s e.toNat { s.oe e.toNat with xtFlash := committed (s.oe e.toNat) }
  refine ⟨((keepCal_moves _ _).oe _ rfl).trans ((setOe_oe _ _ _ _).trans (if_pos rfl)), fun j hj =>
    ((keepCal_moves _ _).oe _ rfl).trans ((setOe_oe _ _ _ _).trans (if_neg hj)), ?_⟩
  exact .step (keepCal_moves _ _) rfl (hm.mono rfl)

end

/-! ### Bands (R222) -/

theorem oeBandChange_changes (e : Oe) (s : State) : Completes (.oeBandChange e) s fun t =>
    let o := s.oe e.toNat
    let b := o.band.toNat
    let top := bandOf ((oeReadings s e.toNat).max?.getD 0)
    t.oe e.toNat = (if b < top then { o with band := BitVec.ofNat 3 top, cool := 0 }
      else if 0 < b ∧ 10 ≤ o.cool then { o with band := BitVec.ofNat 3 (b - 1), cool := 0 } else o) ∧
    (∀ j, j ≠ e.toNat → t.oe j = s.oe j) ∧ Moves [.oes] s t := by
  refine ⟨_, rfl, ?_⟩
  dsimp only
  split
  · exact ⟨by rw [setOe_oe, if_pos rfl], fun j hj => by rw [setOe_oe, if_neg hj], setOe_moves s _ _⟩
  · simp only [Bool.and_eq_true, decide_eq_true_eq]
    split
    · exact ⟨by rw [setOe_oe, if_pos rfl], fun j hj => by rw [setOe_oe, if_neg hj], setOe_moves s _ _⟩
    · exact ⟨rfl, fun _ _ => rfl, .refl _ s⟩

/-- Settles O37: activity through `activityWord_takes`, the heaters through `feedForwardUpdate_drives`, the partner's
margins through `margin_accepted`, what is committed through `xtPending_listed`. -/
theorem oeEstimates : Obligations.OeEstimates := by
  unfold Obligations.OeEstimates
  intro e s k o others
  refine ⟨fun p w i hi hp => ?_, ?_, fun port ms hlen => ?_, fun l fl hl harr => ?_, fun x hen hq hr h8 hb hk => ?_,
    ?_, ?_⟩
  · dsimp only
    have htakes := activityWord_takes (w := w) hi hp
    refine ⟨fun hw => htakes.mono fun t ⟨ht, hm⟩ => ?_, fun hw hh hseq => htakes.mono fun t ⟨ht, _⟩ => ?_,
      fun hw hh hseq => htakes.mono fun t ⟨ht, _⟩ => ?_, fun hsil => ?_⟩
    · rw [ht.slot, takeWord_absolute hw]
      exact ⟨rfl, rfl, rfl, rfl, ht.kept, ht.others, hm.only⟩
    · rw [ht.slot, takeWord_next hw hh hseq]
      exact ⟨rfl, rfl, hh⟩
    · rw [ht.slot, takeWord_gap hw hh hseq]
      exact ⟨rfl, rfl⟩
    · exact (oeSilentDie_holds hi hp hsil).mono fun t ⟨ht, hr, hm⟩ =>
        ⟨ht.slot, fun hs => (hr hs).1, ht.others, hm.only⟩
  · refine (feedForwardUpdate_drives e s).mono fun t ⟨ks, hks, hd⟩ => ?_
    obtain ⟨u, hf, hslots⟩ := filtered_oe s k
    obtain ⟨v, hv⟩ := hd.rings
    have hring (r : Nat) : ((filtered s k).oe k).ring r = o.ring r := by rw [hf]; rfl
    have hff : (t.oe k).ffEn = o.ffEn ∧ (t.oe k).ffGain = o.ffGain := by rw [hv, hf]; exact ⟨rfl, rfl⟩
    refine ⟨fun j hj => ?_, fun r => ?_, fun r hr => ?_, fun r hr => ?_, fun j hj => ?_, ?_⟩
    · rw [hd.slot, hslots j hj]
      exact ⟨filteredSlot_p o j, filteredSlot_y o j⟩
    · rw [demand_eq, hd.integ, hring, hff.1, hff.2]
    · rw [hd.heater r ((hks r).mpr ⟨(r, o.ring r), mem_of_tabGet fun h => ?_, rfl, hr⟩), hd.heaterPower_eq]
      have hidle : (o.ring r).st = .idle := congrArg Ring.st h
      rw [hidle] at hr
      exact absurd hr (by decide)
    · rw [hd.kept r fun hm => ?_, hring]
      obtain ⟨x, hx, hxr, hst⟩ := (hks r).mp hm
      obtain ⟨hl, hz⟩ := hr x hx hxr
      exact hst.elim hl hz
    · rw [hd.others j hj, filtered, updOe_def, setOe_oe, if_neg hj]
    · exact (Moves.step hd.moves rfl ((filtered_moves s k).mono rfl)).only
  · refine (marginMeasure_stores hlen rfl).mono fun t ⟨hoe, hll, hlls, hm⟩ => ?_
    have hnear := nearTaken_near (s := s) (port := port) hlen k
    rw [← hoe] at hnear
    refine ⟨fun i hi => ?_, fun q hq => by rw [hnear, if_neg hq], ⟨hll, hlls⟩, fun j hj => ?_, hm.only⟩
    · rw [hnear, if_pos (by omega), Nat.mul_add_mod, Nat.mod_eq_of_lt hi]
    · rw [hoe, nearTaken, updOe_def, setOe_oe, if_neg hj]
  · refine (margin_accepted harr).mono fun t ⟨hacc, hm, hothers, hfar⟩ => ?_
    rw [hl] at hothers hfar
    refine ⟨hacc, fun i hi => ?_, fun q hq => by rw [hfar, if_neg hq], hothers, hm.only⟩
    rw [hfar, if_pos (by omega), show (16 * (l.toNat % 8) + i) % 16 = i by omega]
  · refine ⟨s.setOe k (refineEntry o x), congrArg Host.Outcome.next (if_pos hen), ?_⟩
    rw [refineEntry_moved hq hr h8 hb hk]
    refine ⟨?_, fun q hq => ?_, fun j hj => ?_, (setOe_moves s _ _).only⟩
    · rw [setOe_oe, if_pos rfl, tabGet_tabSet, if_pos rfl]
    · rw [setOe_oe, if_pos rfl, tabGet_tabSet, if_neg hq]
    · rw [setOe_oe, if_neg hj]
  · refine (xtCommit_commits e s).mono fun t ⟨ht, hothers, hm⟩ => ?_
    simp only [k, ht]
    exact ⟨tabGet_committed, rfl, hothers, hm.only⟩
  · exact (oeBandChange_changes e s).mono fun t ⟨ht, hothers, hm⟩ => ⟨ht, hothers, hm.only⟩

end Sys2Proof.Machine

namespace Sys2Proof.Machine
open Sys2Proof

/-! ### Reads of memory and loads: the parts that they may change (R109, R118, R161, R172) -/

section
variable (s : State)

/-- The parts that a read of memory may change. -/
def readParts : List Part := [.ms, .free, .flt, .host, .tack, .flash, .pmus]

theorem countPoisoned_moves (h : Nat) : Moves readParts s (countPoisoned s h) := by
  unfold countPoisoned
  extract_lets r s1
  have h1 : Moves readParts s s1 := (setHub_moves s _ _).mono rfl
  exact .ite (.step (loseStack_moves _) rfl h1) h1

theorem checkLine_moves (a errs : Nat) : Moves readParts s (checkLine s a errs).st := by
  unfold checkLine
  extract_lets k h inj injected collide n s1 s2 s0 s1' s2'
  have h1 : Moves readParts s s1 := (setHub_moves s _ _).mono rfl
  have h2 : Moves readParts s s2 :=
    .ite (.step (reportInjected_moves _ _ _ _ _) rfl h1) (.step (bucketReport_moves _ _ _ _ _) rfl h1)
  have h0 : Moves readParts s s0 := .ite (.refl _ s) (.step (ms_moves _ _ (memWf_memStore _ _ _)) rfl
    ((free_moves s _).mono rfl))
  have h1' : Moves readParts s s1' :=
    .step (setHub_moves _ _ _) rfl (.step (ms_moves _ _ id) rfl (.step (ms_moves _ _ id) rfl h0))
  have h2' : Moves readParts s s2' := .ite (.step (reportInjected_moves _ _ _ _ _) rfl h1')
    (.ite (.step (reportInjected_moves _ _ _ _ _) rfl h1') (.step (report_moves _ _ _ _) rfl h1'))
  split
  · exact .refl _ s
  · split
    · exact .refl _ s
    · split
      · exact .step (pmuCount_moves _ _ _ _ _) rfl h2
      · exact .ite h2' (h2'.trans (countPoisoned_moves _ _))

theorem readLine_moves (a errs : Nat) : Moves readParts s (readLine s a errs).st := by
  unfold readLine
  have hfree : Moves readParts s (useFreeLine s) := (free_moves s _).mono rfl
  split
  · exact .ite hfree (.step (report_moves _ _ _ _) rfl hfree)
  · split
    · exact hfree
    · exact ((pmuCount_moves s _ _ _ _).mono rfl).trans (checkLine_moves _ _ _)

theorem readSpan_moves (a n fuel : Nat) : Moves readParts s (readSpan s a n fuel).1 := by
  induction fuel generalizing s a n with
  | zero => exact .refl _ s
  | succ fuel ih =>
    rw [readSpan]
    split
    · exact .refl _ s
    · exact (readLine_moves s a 0).trans (ih _ _ _)

/-- The parts that the end of a load, and the begin of the next, may change. -/
def loadParts : List Part := [.stalls, .pens, .chutes, .hostMem, .loadQ, .loadNow] ++ readParts

theorem loadQ_moves (q : List LoadJob) : Moves [.loadQ] s { s with loadQ := q } :=
  .of_same (fun p hp => by
    cases p
    case loadQ => exact nomatch hp
    all_goals rfl) rfl rfl rfl rfl rfl
theorem loadNow_moves (j : Option LoadJob) : Moves [.loadNow] s { s with loadNow := j } :=
  .of_same (fun p hp => by
    cases p
    case loadNow => exact nomatch hp
    all_goals rfl) rfl rfl rfl rfl rfl

theorem endLoad_moves (p : Nat) (isShadow : Bool) (code sec index : Nat) :
    Moves loadParts s (endLoad s p isShadow code sec index) := by
  unfold endLoad
  extract_lets s1 s2 from_ s3
  have h1 : Moves loadParts s s1 := .step (setPen_moves _ _ _) rfl ((clearShadows_moves s p).mono rfl)
  have h3 : Moves loadParts s s3 := .ite (.step (giveBack_moves _ _) rfl h1)
    (.step (setPen_moves _ _ _) rfl (.step (setPen_moves s1 _ _) rfl h1))
  exact .ite (.step (penEvent_moves _ _ _ _) rfl (.step (setPen_moves s1 _ _) rfl h1))
    (.step (penEvent_moves s3 _ _ _) rfl h3)

theorem beginLoad_moves (j : LoadJob) : Moves loadParts s (beginLoad s j) := by
  unfold beginLoad
  extract_lets q addr r t k s1 s2
  have ht : Moves loadParts s t := (readSpan_moves s _ _ _).mono rfl
  refine .ite (endLoad_moves s _ _ _ _ _) (.ite (ht.trans (endLoad_moves t _ _ _ _ _)) ?_)
  split
  · exact ht.trans (endLoad_moves t _ _ _ _ _)
  · have h2 : Moves loadParts s s2 :=
      .step (setPen_moves _ _ _) rfl (.step (readyStalls_moves _ _ _) rfl (.step (takeGrant_moves t _) rfl ht))
    refine .ite (h2.trans (endLoad_moves s2 _ _ _ _ _)) ?_
    split
    · exact h2.trans (endLoad_moves s2 _ _ _ _ _)
    · exact .step (loadNow_moves s2 _) rfl h2

theorem nextLoads_moves (fuel : Nat) : Moves loadParts s (nextLoads s fuel) := by
  induction fuel generalizing s with
  | zero => exact .refl _ s
  | succ fuel ih =>
    rw [nextLoads]
    refine .ite (.refl _ s) ?_
    split
    · exact .refl _ s
    · next j rest _ =>
      exact .ite (.refl _ s) ((((loadQ_moves s rest).mono rfl).trans (beginLoad_moves _ j)).trans (ih _))

theorem abandonLoads_moves (p code : Nat) : Moves loadParts s (abandonLoads s p code) := by
  unfold abandonLoads
  extract_lets jobs s1
  have h1 : Moves loadParts s s1 :=
    .step (loadQ_moves { s with loadNow := s.loadNow.filter fun j => j.pen.toNat ≠ p } _) rfl
      ((loadNow_moves s _).mono rfl)
  exact (Moves.fold (fun st (j : LoadJob) => endLoad_moves st p j.isShadow code 0 0) h1).trans (nextLoads_moves _ _)

end

/-! ### A die stopped (R17, R145, R193 step 1) -/

section
variable (s : State)

/-- The parts that stopping a die may change. -/
def stopParts : List Part := .chuteDies :: (loadParts ++ abortParts)

theorem faultPen_moves (p : Nat) : Moves stopParts s (faultPen s p) := by
  unfold faultPen
  extract_lets s1
  have h1 : Moves stopParts s s1 := (setPen_moves s _ _).mono rfl
  exact .step (penFaulted_moves _ _) rfl (.step (abandonLoads_moves _ _ _) rfl h1)

theorem disableAbort_moves (c : Nat) : Moves stopParts s (disableAbort s c) := by
  rw [disableAbort_eq]
  exact .step (setChuteDie_moves _ _ _) rfl (cutDone_moves.mono rfl)

theorem stopDie_moves (d : Nat) : Moves stopParts s (stopDie s d) := by
  unfold stopDie
  extract_lets pens s1 cs
  exact .fold (fun st c => disableAbort_moves st c) (.fold (fun st p => faultPen_moves st p) (.refl _ s))

theorem retireRecord_moves (d : Nat) : Moves [.flt, .host] s (retireRecord s d) := by
  unfold retireRecord
  extract_lets src runs
  exact .ite (report_moves s _ _ _) (.refl _ s)

end

/-! ### Table switches (R182, R183, R189) -/

/-- The replacement in progress is the same, and the dies queued still are, in their order; the mangers keep their
bytes. -/
structure ReplKept (s t : State) : Prop where
  repl : t.pnet.repl = s.pnet.repl
  queue : s.pnet.queue <+: t.pnet.queue
  manger : t.manger = s.manger

section
variable {s t u : State}

theorem ReplKept.refl (s : State) : ReplKept s s := ⟨rfl, List.prefix_refl _, rfl⟩

theorem ReplKept.trans (h : ReplKept s t) (h' : ReplKept t u) : ReplKept s u :=
  ⟨h'.repl.trans h.repl, h.queue.trans h'.queue, h'.manger.trans h.manger⟩

theorem Moves.replKept {ps : List Part} (h : Moves ps s t) (hp : listed .pnet ps = false)
    (hm : listed .manger ps = false) : ReplKept s t :=
  ⟨congrArg Pnet.repl (h.same .pnet hp), by rw [h.same .pnet hp], h.same .manger hm⟩

theorem prefix_addNew {α : Type} [DecidableEq α] (xs : List α) (a : α) : xs <+: addNew xs a := by
  unfold addNew
  split
  · exact List.prefix_refl xs
  · exact List.prefix_append xs [a]

theorem queueRetire_replKept (s : State) (d : Nat) : ReplKept s (queueRetire s d) := by
  unfold queueRetire
  extract_lets p s1
  split
  · exact ⟨rfl, prefix_addNew _ _, rfl⟩
  · exact .refl s

theorem clearActivity_moves (s : State) (p : Nat) : Moves [.oes] s (clearActivity s p) := by
  refine .fold (fun st e => ?_) (.refl _ s)
  split
  · exact setOe_moves st _ _
  · exact .refl _ st

theorem abandonTest_replKept (s : State) : ReplKept s (abandonTest s) := by
  unfold abandonTest
  extract_lets flt s1
  split
  · next p _ =>
    extract_lets s2 pwr
    have h2 : ReplKept (s1.updSite p fun x => { x with testing := false, powered := false }) s2 :=
      (clearActivity_moves _ _).replKept rfl rfl
    exact ⟨h2.repl, h2.queue, h2.manger⟩
  · exact ⟨rfl, List.prefix_refl _, rfl⟩

theorem enterFailed_replKept (s : State) : ReplKept s (enterFailed s) := by
  by_cases h : s.flt.failed = true
  · rw [enterFailed, if_pos h]
    exact .refl s
  · rw [enterFailed_eq s (by simpa using h)]
    have ha := abandonTest_replKept s
    exact ReplKept.trans (t := failing s) ⟨ha.repl, ha.queue, ha.manger⟩ ((failPens_moves s _ _).replKept rfl rfl)

theorem switchTables_replKept (s : State) : ReplKept s (switchTables s) := by
  unfold switchTables
  extract_lets w pnet s0 pnet' s1
  have h1 : ReplKept s s1 := ⟨rfl, List.prefix_refl _, rfl⟩
  split
  · exact .refl s
  · split
    · exact h1.trans (((report_moves s1 _ _ _).replKept rfl rfl).trans (enterFailed_replKept _))
    · exact List.foldlRecOn w.cutOff _ (motive := fun t => ReplKept s t) h1 fun t ht d _ =>
        ht.trans (queueRetire_replKept t d)

/-- R193 step 1: what the die's replacement begins with; its tables are called for. -/
theorem startReplacement_begins (d : Die) (rest : List Die) : let t := startReplacement s d rest
    t.pnet.repl = some { die := d, site := ⟨s.siteOf d.toNat % 72, Nat.mod_lt _ (by decide)⟩, step := 1 } ∧
      rest <+: t.pnet.queue := by
  unfold startReplacement
  extract_lets r pnet s1 t
  have h1 : ReplKept { s with pnet := { s.pnet with queue := rest } } s1 :=
    ((retireRecord_moves _ _).replKept rfl rfl).trans ((stopDie_moves _ _).replKept rfl rfl)
  have ht : ReplKept (setRepl s1 (some r)) t := switchTables_replKept _
  exact ⟨ht.repl, h1.queue.trans ht.queue⟩

end
end Sys2Proof.Machine

namespace Sys2Proof.Machine
open Sys2Proof

/-! ### Sites and numbers (R12, R191) -/

section
variable {s t u : State}

theorem Moves.site {ps : List Part} (h : Moves ps s t) (j : Nat) (hp : listed .pnet ps = false) : t.site j = s.site j :=
  congrArg (fun x : Pnet => tabGet _ x.sites j) (h.same .pnet hp)
theorem Moves.lmapAt {ps : List Part} (h : Moves ps s t) (j : Nat) (hp : listed .pnet ps = false) :
    t.lmapAt j = s.lmapAt j :=
  congrArg (fun x : Pnet => tabGet _ x.lmap j) (h.same .pnet hp)

theorem pwr_moves (s : State) (x : Pwr) : Moves [.pwr] s { s with pwr := x } :=
  .of_same (fun p hp => by
    cases p
    case pwr => exact nomatch hp
    all_goals rfl) rfl rfl rfl rfl rfl
theorem therm_moves (s : State) (x : Therm) : Moves [.therm] s { s with therm := x } :=
  .of_same (fun p hp => by
    cases p
    case therm => exact nomatch hp
    all_goals rfl) rfl rfl rfl rfl rfl

/-- R350: of what the firmware keeps, no more than the calibration changes. -/
theorem keepCal_tack (s : State) (f : Cal → Cal) : (keepCal s f).tack = { s.tack with cal := f s.tack.cal } := by
  unfold keepCal
  extract_lets c
  split
  · next h => rw [show f s.tack.cal = s.tack.cal from h]
  · exact (storeCopy_moves _ _ _).same .tack rfl

/-- R191, R371: a site that changes as `x` says, and of the panel's state nothing else. -/
structure SiteSet (p : Nat) (x : SiteS) (s t : State) : Prop where
  site : ∀ j, t.site j = if j = p then x else s.site j
  pnet : ∃ tab, t.pnet = { s.pnet with sites := tab }

theorem updSite_siteSet (s : State) (p : Nat) (f : SiteS → SiteS) : SiteSet p (f (s.site p)) s (s.updSite p f) :=
  ⟨fun j => by rw [updSite_def, setSite_site], _, rfl⟩

theorem SiteSet.trans_moves {p : Nat} {x : SiteS} {ps : List Part} (h : SiteSet p x s t) (hm : Moves ps t u)
    (hp : listed .pnet ps = false) : SiteSet p x s u :=
  ⟨fun j => by rw [hm.site j hp, h.site], by rw [hm.same .pnet hp]; exact h.pnet⟩

theorem SiteSet.trans {p : Nat} {x y : SiteS} (h : SiteSet p x s t) (h' : SiteSet p y t u) : SiteSet p y s u := by
  obtain ⟨a, ha⟩ := h.pnet
  obtain ⟨b, hb⟩ := h'.pnet
  refine ⟨fun j => ?_, b, by rw [hb, ha]⟩
  rw [h'.site, h.site]
  split <;> rfl

/-! ### Domains and fences (R191, R371) -/

theorem setMv_moves (s : State) (p v : Nat) : Moves [.pwr] s (setMv s p v) := pwr_moves s _

theorem powerOn_siteSet (s : State) (q : Nat) : SiteSet q { s.site q with powered := true } s (powerOn s q) :=
  (updSite_siteSet s q fun x => { x with powered := true }).trans_moves (setMv_moves _ _ _) rfl

theorem powerOff_siteSet (s : State) (p : Nat) : SiteSet p { s.site p with powered := false } s (powerOff s p) :=
  ((updSite_siteSet s p fun x => { x with powered := false }).trans_moves (setMv_moves _ _ _) rfl).trans_moves
    (clearActivity_moves _ _) rfl

theorem powerOff_tack (s : State) (p : Nat) : (powerOff s p).tack = s.tack :=
  (clearActivity_moves _ _).same .tack rfl

theorem dropHolds_moves (s : State) (p : Nat) : Moves [.therm] s (dropHolds s p) := therm_moves s _

/-- R191, R371: a site FENCED, its domain disabled. -/
def fencedSite (x : SiteS) : SiteS := { x with powered := false, st := .fenced }

theorem fencedSite_st_ne (x : SiteS) : (fencedSite x).st ≠ .spare := nofun

/-- R191, R396: a site FENCED and its throttle holds dropped, before the fence is recorded. -/
def fencing (s : State) (p : Nat) : State := dropHolds ((powerOff s p).updSite p fun x => { x with st := .fenced }) p

theorem fenceSite_eq (s : State) (p : Nat) : fenceSite s p = recordFence (fencing s p) p := rfl

theorem recordFence_moves (s : State) (p : Nat) : Moves [.tack, .flash] s (recordFence s p) := keepCal_moves s _

theorem recordFence_tack (s : State) (p : Nat) : (recordFence s p).tack =
    { s.tack with cal := { s.tack.cal with fenced := addNew s.tack.cal.fenced p } } := keepCal_tack s _

theorem fencing_tack (s : State) (p : Nat) : (fencing s p).tack = s.tack :=
  ((dropHolds_moves _ p).same .tack rfl).trans (powerOff_tack s p)

theorem fenceSite_siteSet (s : State) (p : Nat) : SiteSet p (fencedSite (s.site p)) s (fenceSite s p) := by
  have hoff := powerOff_siteSet s p
  have hst := updSite_siteSet (powerOff s p) p fun x => { x with st := .fenced }
  rw [hoff.site, if_pos rfl] at hst
  have hdrop : SiteSet p _ s (fencing s p) := (hoff.trans hst).trans_moves (dropHolds_moves _ p) rfl
  rw [fenceSite_eq]
  exact hdrop.trans_moves (recordFence_moves _ p) rfl

/-- R191, R350: the fence is kept in the sparing map, and of the firmware's state nothing else changes. -/
theorem fenceSite_tack (s : State) (p : Nat) :
    (fenceSite s p).tack = { s.tack with cal := { s.tack.cal with fenced := addNew s.tack.cal.fenced p } } := by
  rw [fenceSite_eq, recordFence_tack, fencing_tack]

/-- R191: an EMPTY number leaves the sites, the firmware's state and FABRIC_NUM. -/
theorem emptyDie_kept (s : State) (d : Nat) : (∀ j, (emptyDie s d).site j = s.site j) ∧
    ((emptyDie s d).lmapAt d).empty = true ∧ (emptyDie s d).tack = s.tack ∧
    (emptyDie s d).pnet.fabricNum = s.pnet.fabricNum :=
  ⟨fun _ => rfl, congrArg LmapE.empty ((tabGet_tabSet _ _ _ _ _).trans (if_pos rfl)), rfl, rfl⟩

/-! ### Choosing a spare (R186, R192, R193) -/

theorem nextSpare_fits {r : Repl} {q : Nat} (h : nextSpare s r = some q) : q ∉ r.tried ∧ (s.site q).st = .spare := by
  have hq := List.find?_some h
  simp only [Bool.and_eq_true, Bool.not_eq_true', decide_eq_false_iff_not] at hq
  obtain ⟨htried, hfits⟩ := hq
  rw [spareFits, Bool.and_eq_true, decide_eq_true_eq] at hfits
  exact ⟨htried, hfits.1⟩

/-- R193: a substitution recorded leaves the sites, the numbers and the fences. -/
theorem recordSub_kept (s : State) (d : Nat) (q : Option Nat) : (∀ j, (recordSub s d q).site j = s.site j) ∧
    (∀ j, (recordSub s d q).lmapAt j = s.lmapAt j) ∧ (recordSub s d q).tack.cal.fenced = s.tack.cal.fenced := by
  unfold recordSub
  extract_lets next pnet
  refine ⟨fun j => (keepCal_moves _ _).site j rfl, fun j => (keepCal_moves _ _).lmapAt j rfl, ?_⟩
  rw [keepCal_cal]

theorem chooseSpare_some {r : Repl} {code q : Nat} (h : nextSpare s r = some q) : chooseSpare s r code =
    setRepl (recordSub (s.updSite q fun x => { x with st := .activating }) r.die.toNat (some q))
      (some { r with step := 3, spare := some q }) := by
  rw [chooseSpare, h]

theorem chooseSpare_none {r : Repl} {code : Nat} (h : nextSpare s r = none) : chooseSpare s r code =
    setPnetResult (setRepl (recordSub s r.die.toNat none) none) code := by
  rw [chooseSpare, h]

/-- R192, R193: the spare that is chosen is ACTIVATING and the replacement goes on to step 3, or it ends with a
result. -/
def SpareChosen (s t : State) (r : Repl) (code : Nat) : Prop :=
  match nextSpare s r with
  | some q => t.pnet.repl = some { r with step := 3, spare := some q } ∧ (t.site q).st = .activating
  | none => t.pnet.repl = none ∧ t.pnet.result = BitVec.ofNat 4 code

theorem chooseSpare_chosen (s : State) (r : Repl) (code : Nat) : SpareChosen s (chooseSpare s r code) r code := by
  unfold SpareChosen
  split
  · next q h =>
    rw [chooseSpare_some h]
    refine ⟨rfl, ?_⟩
    obtain ⟨hsite, -⟩ := recordSub_kept (s.updSite q fun x => { x with st := .activating }) r.die.toNat (some q)
    exact congrArg SiteS.st ((hsite q).trans ((setSite_site _ _ _ _).trans (if_pos rfl)))
  · next h =>
    rw [chooseSpare_none h]
    exact ⟨rfl, rfl⟩

/-- R192: a choice leaves the sites that are not SPARE, the numbers and the fences. -/
theorem chooseSpare_kept (s : State) (r : Repl) (code : Nat) : let t := chooseSpare s r code
    (∀ j, (s.site j).st ≠ .spare → t.site j = s.site j) ∧ (∀ d, t.lmapAt d = s.lmapAt d) ∧
      t.tack.cal.fenced = s.tack.cal.fenced := by
  intro t
  cases h : nextSpare s r with
  | some q =>
    obtain ⟨hsite, hmap, hfence⟩ :=
      recordSub_kept (s.updSite q fun x => { x with st := .activating }) r.die.toNat (some q)
    rw [show t = _ from chooseSpare_some h]
    refine ⟨fun j hj => (hsite j).trans ((setSite_site _ _ _ _).trans (if_neg ?_)), hmap, hfence⟩
    rintro rfl
    exact hj (nextSpare_fits h).2
  | none =>
    rw [show t = _ from chooseSpare_none h]
    exact ⟨fun j _ => (recordSub_kept s _ _).1 j, (recordSub_kept s _ _).2.1, (recordSub_kept s _ _).2.2⟩

/-! ### The site left, and a spare that fails (R191, R193) -/

/-- R191, R193 step 3: the site FENCED and its number EMPTY, before a spare is chosen. -/
def siteLeft (s : State) (r : Repl) : State :=
  emptyDie (fenceSite (endCondition s (srcDie r.site.val) cDieRegulator) r.site.val) r.die.toNat

theorem siteLeft_site (s : State) (r : Repl) (j : Nat) :
    (siteLeft s r).site j = if j = r.site.val then fencedSite (s.site r.site.val) else s.site j := by
  have hend := endCondition_moves s (srcDie r.site.val) cDieRegulator
  rw [siteLeft, (emptyDie_kept _ _).1, (fenceSite_siteSet _ _).site, hend.site _ rfl, hend.site _ rfl]

theorem siteLeft_empty (s : State) (r : Repl) : ((siteLeft s r).lmapAt r.die.toNat).empty = true :=
  (emptyDie_kept _ _).2.1

theorem siteLeft_tack (s : State) (r : Repl) : (siteLeft s r).tack =
    { s.tack with cal := { s.tack.cal with fenced := addNew s.tack.cal.fenced r.site.val } } := by
  have hend : (endCondition s (srcDie r.site.val) cDieRegulator).tack = s.tack :=
    (endCondition_moves s _ _).same .tack rfl
  rw [siteLeft, (emptyDie_kept _ _).2.2.1, fenceSite_tack, hend]

theorem siteLeft_fabricNum (s : State) (r : Repl) : (siteLeft s r).pnet.fabricNum = s.pnet.fabricNum := by
  obtain ⟨tab, h⟩ := (fenceSite_siteSet (endCondition s (srcDie r.site.val) cDieRegulator) r.site.val).pnet
  have hend : (endCondition s (srcDie r.site.val) cDieRegulator).pnet = s.pnet :=
    (endCondition_moves s _ _).same .pnet rfl
  rw [siteLeft, (emptyDie_kept _ _).2.2.2, h, hend]

/-- R192: leaving a site that is no spare leaves the choice of the next one. -/
theorem nextSpare_siteLeft {r : Repl} (h : (s.site r.site.val).st ≠ .spare) :
    nextSpare (siteLeft s r) r = nextSpare s r := by
  have hcap (cap : BitVec 64) : capFits (siteLeft s r) cap = capFits s cap := by
    rw [capFits, siteLeft_tack, siteLeft_fabricNum]
    rfl
  have hfits (q : Nat) : spareFits (siteLeft s r) q = spareFits s q := by
    rw [spareFits, spareFits, siteLeft_site, hcap]
    by_cases hq : q = r.site.val
    · subst hq
      simp [fencedSite, h]
    · rw [if_neg hq]
  unfold nextSpare
  simp only [hfits]

/-- R191, R193 step 3: the site is FENCED, its number EMPTY, and a spare chosen from those that were there. -/
theorem leaveSite_leaves {r : Repl} (h : (s.site r.site.val).st ≠ .spare) : let t := leaveSite s r
    t.held r.die.toNat = false ∧ t.site r.site.val = fencedSite (s.site r.site.val) ∧
      r.site.val ∈ t.tack.cal.fenced ∧ SpareChosen s t r 1 := by
  obtain ⟨hsite, hmap, hfenced⟩ := chooseSpare_kept (siteLeft s r) r 1
  have hchosen := chooseSpare_chosen (siteLeft s r) r 1
  have hself : (siteLeft s r).site r.site.val = fencedSite (s.site r.site.val) := by rw [siteLeft_site, if_pos rfl]
  rw [SpareChosen, nextSpare_siteLeft h] at hchosen
  refine ⟨?_, ?_, ?_, hchosen⟩
  · exact congrArg (!·) ((congrArg LmapE.empty (hmap _)).trans (siteLeft_empty s r))
  · exact (hsite _ (by rw [hself]; exact fencedSite_st_ne _)).trans hself
  · refine hfenced.symm ▸ ?_
    rw [siteLeft_tack]
    exact mem_addNew _ _

/-- R193: the spare that failed a step is FENCED; another is tried, or the replacement ends. -/
theorem spareFails_fences (s : State) (r : Repl) (q : Nat) : let t := spareFails s r q
    t.site q = fencedSite (s.site q) ∧
      ((∃ r', t.pnet.repl = some r' ∧ r'.step = 3 ∧ q ∈ r'.tried ∧ r'.spare ≠ some q) ∨
        (t.pnet.repl = none ∧ t.pnet.result = 3)) := by
  intro t
  have hset := (fenceSite_siteSet s q).site q
  rw [if_pos rfl] at hset
  obtain ⟨hsite, -⟩ := chooseSpare_kept (fenceSite s q) { r with tried := r.tried ++ [q], spare := none, half := 0 } 3
  have hchosen : SpareChosen (fenceSite s q) t { r with tried := r.tried ++ [q], spare := none, half := 0 } 3 :=
    chooseSpare_chosen _ _ _
  refine ⟨(hsite q (by rw [hset]; exact fencedSite_st_ne _)).trans hset, ?_⟩
  unfold SpareChosen at hchosen
  split at hchosen
  · next q' hq' =>
    refine .inl ⟨_, hchosen.1, rfl, by simp, fun hqq => (nextSpare_fits hq').1 ?_⟩
    rw [Option.some.inj hqq]
    simp
  · exact .inr hchosen

end
end Sys2Proof.Machine

namespace Sys2Proof.Machine
open Sys2Proof

/-! ### The spare's modules (R178, R188, R193 step 6) -/

section

/-- R178: a module position that the die does not use is at no width. -/
theorem trainedHalf_unplaced {d : Nat} {half : BitVec 18} {reps : List (Fin 18 × Nat × Nat)} {m : Fin 18}
    (h : modulePlaced d m.val = false) : (trainedHalf d half reps).getLsbD m.val = false := by
  unfold trainedHalf
  refine List.foldlRecOn (List.range 18) _ (motive := fun b : BitVec 18 => b.getLsbD m.val = false) (by simp)
    fun b hb n _ => ?_
  split
  · next hn =>
    rw [Bool.and_eq_true] at hn
    have hne : n ≠ m.val := by
      rintro rfl
      rw [h] at hn
      exact absurd hn.1 (by decide)
    rw [BitVec.getLsbD_or, hb, BitVec.getLsbD_ofNat, Nat.testBit_two_pow_of_ne hne]
    simp
  · exact hb

variable {s t u : State}

/-- Every site's modules are at the widths that they were at. -/
def WidthsKept (s t : State) : Prop := ∀ p, (t.site p).modHalf = (s.site p).modHalf

theorem WidthsKept.trans (h : WidthsKept s t) (h' : WidthsKept t u) : WidthsKept s u := fun p => (h' p).trans (h p)

theorem Moves.widthsKept {ps : List Part} (h : Moves ps s t) (hp : listed .pnet ps = false) : WidthsKept s t :=
  fun p => congrArg SiteS.modHalf (h.site p hp)

theorem updSite_widthsKept (s : State) (p : Nat) {f : SiteS → SiteS}
    (hf : (f (s.site p)).modHalf = (s.site p).modHalf) : WidthsKept s (s.updSite p f) := by
  intro j
  rw [updSite_def, setSite_site]
  split
  · next hj => rw [hf, hj]
  · rfl

theorem repairLanes_widthsKept (s : State) (p m n : Nat) : WidthsKept s (repairLanes s p m n) :=
  List.foldlRecOn (List.range n) _ (motive := fun t => WidthsKept s t) (fun _ => rfl) fun t ht _ _ =>
    (ht.trans (updSite_widthsKept t p rfl)).trans ((bucketReport_moves _ _ _ _ _).widthsKept rfl)

theorem trainSpareLanes_widthsKept (s : State) (q d m n k : Nat) : WidthsKept s (trainSpareLanes s q d m n k) := by
  unfold trainSpareLanes
  extract_lets f s1
  have h1 : WidthsKept s s1 := updSite_widthsKept s f.1 rfl
  exact (h1.trans (repairLanes_widthsKept s1 _ _ _)).trans (repairLanes_widthsKept _ _ _ _)

/-- R188: the spare's modules have the widths that the training found. -/
theorem trainSpare_modHalf (s : State) (q d : Nat) (half : BitVec 18) (reps : List (Fin 18 × Nat × Nat)) :
    ((trainSpare s q d half reps).site q).modHalf = half := by
  unfold trainSpare
  extract_lets ms s0 s1 s2
  have h1 : (s1.site q).modHalf = half := congrArg SiteS.modHalf ((setSite_site _ _ _ _).trans (if_pos rfl))
  have h2 : WidthsKept s1 s2 := List.foldlRecOn ms _ (motive := fun t => WidthsKept s1 t) (fun _ => rfl)
    fun t ht m _ => ht.trans (trainSpareLanes_widthsKept t _ _ _ _ _)
  have h3 := List.foldlRecOn ((List.range 18).filter fun m => half.getLsbD m)
    (fun st m => report st (srcDie q) cModuleHalf m) (motive := fun t => WidthsKept s1 t) h2
    fun t ht m _ => ht.trans ((report_moves t _ _ _).widthsKept rfl)
  exact (h3 q).trans h1

end

/-! ### The number's memories wiped and given on (R12, R175, R193 steps 8 and 10) -/

section
variable (s : State)

theorem wipeDie_mangerByte {d i off : Nat} (hi : i < 64) (ho : off < 2 ^ 18) :
    (wipeDie s d).mangerByte (64 * d + i) off = 0 := by
  refine (tabGet_tabClear memDefault s.manger _ _ _).trans (if_pos ?_)
  unfold mangerKey
  omega

theorem releaseHeld_moves : Moves [.lls, .sys] s (releaseHeld s) :=
  .fold (fun st _ => queueTx_moves st _ _ _) ((sys_moves s _).mono rfl)

/-- R193 step 10: the number given to the spare, its chutes and the rest of what it names at reset values, before the
modules' far ends. -/
def numberGiven (s : State) (r : Repl) (q : Nat) : State :=
  let d := r.die.toNat
  let s1 := s.setLmap d { site := BitVec.ofNat 7 q, empty := false }
  { s1 with
    chutes := tabClear s1.chutes (1024 * d) (1024 * d + 1024)
    doorbells := tabClear s1.doorbells (1024 * d) (1024 * d + 1024)
    chuteDies := tabClear s1.chuteDies d (d + 1)
    pmus := tabClear s1.pmus d (d + 1) }

/-- The numbers, the chutes and what waits for a hub are as they were. -/
structure NumbersKept (s t : State) : Prop where
  lmapAt : ∀ d, t.lmapAt d = s.lmapAt d
  chute : ∀ c, t.chute c = s.chute c
  waiting : t.ms.waiting = s.ms.waiting
  bells : t.ms.bells = s.ms.bells

variable {s} {t u : State}

theorem NumbersKept.trans (h : NumbersKept s t) (h' : NumbersKept t u) : NumbersKept s u :=
  ⟨fun d => (h'.lmapAt d).trans (h.lmapAt d), fun c => (h'.chute c).trans (h.chute c), h'.waiting.trans h.waiting,
    h'.bells.trans h.bells⟩

theorem updSite_numbersKept (s : State) (p : Nat) (f : SiteS → SiteS) : NumbersKept s (s.updSite p f) :=
  ⟨fun _ => rfl, fun _ => rfl, rfl, rfl⟩

theorem updHub_numbersKept (s : State) (h : Nat) (f : HubS → HubS) : NumbersKept s (s.updHub h f) :=
  ⟨fun _ => rfl, fun _ => rfl, rfl, rfl⟩

/-- R193 step 10: what follows the number, at the modules' ends, changes no number and no chute. -/
theorem adoptDie_numbersKept (r : Repl) (q : Nat) : NumbersKept (numberGiven s r q) (adoptDie s r q) := by
  unfold adoptDie
  extract_lets d s1 s2 s3 far s4
  have h3 : NumbersKept (numberGiven s r q) s3 := updSite_numbersKept _ _ _
  have h4 : NumbersKept (numberGiven s r q) s4 :=
    List.foldlRecOn (List.range 8) far (motive := fun t => NumbersKept (numberGiven s r q) t) h3 fun t ht m _ => by
      unfold far
      split
      · exact ht.trans (updSite_numbersKept _ _ _)
      · exact ht
  split
  · exact h4.trans (updHub_numbersKept _ _ _)
  · exact h4

theorem numberGiven_chute {r : Repl} {q i : Nat} (hi : i < 1024) :
    (numberGiven s r q).chute (1024 * r.die.toNat + i) = {} :=
  (tabGet_tabClear _ _ _ _ _).trans (if_pos (by omega))

theorem numberGiven_lmapAt (r : Repl) (q : Nat) :
    (numberGiven s r q).lmapAt r.die.toNat = { site := BitVec.ofNat 7 q, empty := false } :=
  (tabGet_tabSet _ _ _ _ _).trans (if_pos rfl)

/-- R12, R193 step 10: with nothing waiting for a hub, the spare holds the number, and its chutes are at reset
values. -/
theorem numberGiven_released {r r' : Repl} {q : Nat} (hw : s.ms.waiting = []) (hb : s.ms.bells = []) :
    let t := releaseSite (setRepl (adoptDie s r q) (some r'))
    t.pnet.repl = some r' ∧ t.lmapAt r.die.toNat = { site := BitVec.ofNat 7 q, empty := false } ∧
      ∀ i, i < 1024 → t.chute (1024 * r.die.toNat + i) = {} := by
  intro t
  have hk : NumbersKept (numberGiven s r q) (setRepl (adoptDie s r q) (some r')) :=
    (adoptDie_numbersKept r q).trans ⟨fun _ => rfl, fun _ => rfl, rfl, rfl⟩
  have ht : t = releaseHeld (setRepl (adoptDie s r q) (some r')) :=
    congrArg releaseHeld (endWaits_none (hk.waiting.trans hw) (hk.bells.trans hb))
  have hm := releaseHeld_moves (setRepl (adoptDie s r q) (some r'))
  rw [ht]
  refine ⟨congrArg Pnet.repl (hm.same .pnet rfl), ?_, fun i hi => ?_⟩
  · rw [hm.lmapAt _ rfl, hk.lmapAt, numberGiven_lmapAt]
  · rw [hm.chute _ rfl, hk.chute, numberGiven_chute hi]

end

/-! ### The steps (R193) -/

section
variable {s : State} {r : Repl} {ok : Bool} {half : BitVec 18} {reps : List (Fin 18 × Nat × Nat)} {cap : BitVec 64}
  {q : Nat}

theorem replacementStepDone_steps (hr : s.pnet.repl = some r) :
    exec (.replacementStepDone ok half reps cap) s = .next (replacementStep s r ok half reps cap) :=
  congrArg Host.Outcome.next (by rw [hr])

theorem setRepl_moves (s : State) (r : Option Repl) : Moves [.pnet] s (setRepl s r) := pnet_moves s _

theorem step_tablesReady (hst : r.step = 1) (hsw : s.pnet.switching = false) :
    replacementStep s r ok half reps cap = setRepl s (some { r with step := 2 }) := by
  simp [replacementStep, hst, hsw]

theorem step_leavesSite (hst : r.step = 2) : replacementStep s r ok half reps cap = leaveSite s r := by
  simp [replacementStep, hst]

theorem step_tested (hst : r.step = 3) (hq : r.spare = some q) (ht : (s.site q).testing = false) :
    replacementStep s r ok half reps cap = setRepl s (some { r with step := 4 }) := by
  simp [replacementStep, hst, hq, ht]

theorem step_powersOn (hst : r.step = 4) (hq : r.spare = some q) :
    replacementStep s r true half reps cap = setRepl (powerOn s q) (some { r with step := 5 }) := by
  simp [replacementStep, hst, hq]

theorem step_trains (hst : r.step = 5) (hq : r.spare = some q) : let h := trainedHalf r.die.toNat half reps
    replacementStep s r true half reps cap =
      setRepl (trainSpare s q r.die.toNat h reps) (some { r with step := 6, half := h }) := by
  simp [replacementStep, hst, hq]

theorem step_checks (hst : r.step = 6) (hq : r.spare = some q) (hc : capFits s cap = true) :
    replacementStep s r true half reps cap =
      setRepl (s.updSite q fun x => { x with cap := cap, capKnown := true, rev := cap.setWidth 4 })
        (some { r with step := 7 }) := by
  simp [replacementStep, hst, hq, hc]

theorem step_wipes (hst : r.step = 7) (hq : r.spare = some q) : replacementStep s r true half reps cap =
    switchTables (setRepl (wipeDie s r.die.toNat) (some { r with step := 8 })) := by
  simp [replacementStep, hst, hq]

theorem step_tablesReadyAgain (hst : r.step = 8) (hq : r.spare = some q) (hsw : s.pnet.switching = false) :
    replacementStep s r ok half reps cap = setRepl s (some { r with step := 9 }) := by
  simp [replacementStep, hst, hq, hsw]

theorem step_givesNumber (hst : r.step = 9) (hq : r.spare = some q) : replacementStep s r ok half reps cap =
    releaseSite (setRepl (adoptDie s r q) (some { r with step := 10 })) := by
  simp [replacementStep, hst, hq]

theorem step_ends (hst : r.step = 10) (hq : r.spare = some q) :
    replacementStep s r ok half reps cap = setPnetResult (setRepl s none) 0 := by
  simp [replacementStep, hst, hq]

theorem step_fails (hst : r.step = 4 ∨ r.step = 5 ∨ r.step = 7) (hq : r.spare = some q) :
    replacementStep s r false half reps cap = spareFails s r q := by
  rcases hst with h | h | h <;> simp [replacementStep, h, hq]

end

/-- Settles O33: the begin through `startReplacement_begins`, the site left through `leaveSite_leaves`, a spare that
fails through `spareFails_fences`, every other step by its own equation. -/
theorem replacementSteps : Obligations.ReplacementSteps := by
  unfold Obligations.ReplacementSteps
  intro ok half reps cap s done
  refine ⟨fun d rest hr hq => ⟨startReplacement s d rest, congrArg Host.Outcome.next (by rw [hr, hq]), ?_⟩,
    fun r hr => ⟨fun hst hsw => ?_, fun hst hsp => ?_, fun q hq => ⟨fun hst ht => ?_, ?_, ?_, ?_, ?_, fun hst hsw => ?_,
      fun hst hw hb => ?_, fun hst => ?_, ?_⟩⟩⟩
  · obtain ⟨hrepl, hqueue⟩ := startReplacement_begins (s := s) d rest
    exact ⟨_, hrepl, rfl, rfl, rfl, hqueue⟩
  · refine ⟨_, (replacementStepDone_steps hr).trans (congrArg _ (step_tablesReady hst hsw)), rfl, ?_⟩
    exact (setRepl_moves s _).only
  · refine ⟨_, (replacementStepDone_steps hr).trans (congrArg _ (step_leavesSite hst)), ?_⟩
    obtain ⟨hheld, hsite, hfenced, hchosen⟩ := leaveSite_leaves hsp
    rw [hsite]
    exact ⟨hheld, rfl, rfl, hfenced, hchosen⟩
  · refine ⟨_, (replacementStepDone_steps hr).trans (congrArg _ (step_tested hst hq ht)), rfl, ?_⟩
    exact (setRepl_moves s _).only
  · rintro hst rfl
    refine ⟨_, (replacementStepDone_steps hr).trans (congrArg _ (step_powersOn hst hq)), rfl, ?_⟩
    exact congrArg SiteS.powered (((powerOn_siteSet s q).site q).trans (if_pos rfl))
  · rintro hst rfl
    refine ⟨_, (replacementStepDone_steps hr).trans (congrArg _ (step_trains hst hq)), rfl, ?_, fun m hm => ?_⟩
    · exact trainSpare_modHalf s q _ _ reps
    · exact trainedHalf_unplaced hm
  · rintro hst rfl hc
    refine ⟨_, (replacementStepDone_steps hr).trans (congrArg _ (step_checks hst hq hc)), rfl, ?_, ?_⟩
    · exact congrArg SiteS.cap ((setSite_site _ _ _ _).trans (if_pos rfl))
    · exact (Moves.step (setRepl_moves _ _) rfl (setSite_moves s _ _)).only
  · rintro hst rfl
    refine ⟨_, (replacementStepDone_steps hr).trans (congrArg _ (step_wipes hst hq)), ?_⟩
    have hk := switchTables_replKept (setRepl (wipeDie s r.die.toNat) (some { r with step := 8 }))
    refine ⟨hk.repl, fun i off hi ho => ?_⟩
    rw [State.mangerByte, hk.manger]
    exact wipeDie_mangerByte s hi ho
  · refine ⟨_, (replacementStepDone_steps hr).trans (congrArg _ (step_tablesReadyAgain hst hq hsw)), rfl, ?_⟩
    exact (setRepl_moves s _).only
  · refine ⟨_, (replacementStepDone_steps hr).trans (congrArg _ (step_givesNumber hst hq)), ?_⟩
    obtain ⟨hrepl, hmap, hchutes⟩ := numberGiven_released (r := r) (r' := { r with step := 10 }) (q := q) hw hb
    exact ⟨hrepl, by rw [State.held, hmap]; rfl, by rw [State.siteOf, hmap], hchutes⟩
  · refine ⟨_, (replacementStepDone_steps hr).trans (congrArg _ (step_ends hst hq)), rfl, rfl, ?_⟩
    exact (Moves.step (pnet_moves _ _) rfl (setRepl_moves s none)).only
  · rintro hst rfl
    refine ⟨_, (replacementStepDone_steps hr).trans (congrArg _ (step_fails hst hq)), ?_⟩
    obtain ⟨hsite, hnext⟩ := spareFails_fences s r q
    rw [hsite]
    refine ⟨rfl, rfl, ?_⟩
    rcases hnext with ⟨r', hrepl, hlast⟩ | ⟨hrepl, hres⟩
    · rw [hrepl]
      exact hlast
    · rw [hrepl]
      exact hres

end Sys2Proof.Machine

namespace Sys2Proof.Machine
open Sys2Proof

/-! ### Lines read with no error of their own (R161, R413) -/

section
variable (s : State)

/-- The parts that a read of a line may change that meets injected errors alone: with no line newly poisoned by a real
fault no stack is lost, and nothing is kept in the flash (R172). -/
def soundReadParts : List Part := [.ms, .free, .flt, .host, .pmus]

theorem checkLine_noErrors_moves (a : Nat) : Moves soundReadParts s (checkLine s a 0).st := by
  unfold checkLine
  extract_lets k h inj injected collide n s1 s2 s0 s1' s2'
  have h1 : Moves soundReadParts s s1 := (setHub_moves s _ _).mono rfl
  have h2 : Moves soundReadParts s s2 := .step (reportInjected_moves s1 _ _ _ _) rfl h1
  have h0 : Moves soundReadParts s s0 := .refl _ s
  have h1' : Moves soundReadParts s s1' :=
    .step (setHub_moves _ _ _) rfl (.step (ms_moves _ _ id) rfl (.step (ms_moves _ _ id) rfl h0))
  have h2' : Moves soundReadParts s s2' := .step (reportInjected_moves s1' _ _ _ _) rfl h1'
  split
  · exact .refl _ s
  · split
    · exact .refl _ s
    · split
      · exact .step (pmuCount_moves _ _ _ _ _) rfl h2
      · exact h2'

theorem readLine_noErrors_moves (a : Nat) : Moves soundReadParts s (readLine s a 0).st := by
  unfold readLine
  have hfree : Moves soundReadParts s (useFreeLine s) := (free_moves s _).mono rfl
  split
  · exact .ite hfree (.step (report_moves _ _ _ _) rfl hfree)
  · split
    · exact hfree
    · exact ((pmuCount_moves s _ _ _ _).mono rfl).trans (checkLine_noErrors_moves _ _)

theorem readLines_moves (as : List Nat) : Moves soundReadParts s (readLines s as).1 := by
  induction as generalizing s with
  | nil => exact .refl _ s
  | cons a as ih => exact (readLine_noErrors_moves s a).trans (ih _)

/-- R60, R413: a check of manger words reports errors, and notes those to write back. -/
theorem mangerCheck_moves (t off n : Nat) : Moves [.flt, .host, .stalls] s (mangerCheck s t off n).1 := by
  refine .ite_fst (.refl _ s) (.fold (fun st o => ?_) (.fold (fun st o => ?_) (.refl _ s)))
  · exact .step (setStall_moves _ _ _) rfl ((reportInjected_moves st _ _ _ _).mono rfl)
  · exact (reportInjected_moves st _ _ _ _).mono rfl

theorem mangerRead_moves (t off n : Nat) : Moves [.flt, .host, .stalls] s (mangerRead s t off n).st :=
  mangerCheck_moves s t off _

end

/-! ### A packet of one line consumed and released (R135, R136, R137) -/

section
variable {s : State} {c : Nat}

/-- R135: a chute whose consumer has read a line. -/
def lineRead (x : Chute) : Chute := { x with rp := x.adv x.rp 1 }

/-- R135, R422: the state as RP has moved past a line, before the line itself is read. -/
def lineTaken (s : State) (c : Nat) : State :=
  sliceCheck (s.chute c) ((chuteEvent s c evChuteLines).setChute c (lineRead (s.chute c))) c

theorem lineTaken_moves : Moves [.chutes, .pmus, .flt, .host] s (lineTaken s c) :=
  .step (sliceCheck_moves _ _ _) rfl (.step (setChute_moves _ _ _) rfl ((chuteEvent_moves s c _).mono rfl))

theorem lineTaken_chute (k : Nat) : (lineTaken s c).chute k = if k = c then lineRead (s.chute c) else s.chute k := by
  rw [lineTaken, (sliceCheck_moves _ _ _).chute k rfl, setChute_chute, chuteEvent_chute]

/-- The parts that a read of a line of a chute may change. -/
def chuteReadParts : List Part := .stalls :: soundReadParts

/-- R174: a committed line of a chute that does not wait is in reach. -/
theorem chuteLineWaits_next (hready : (s.chute c).ready ≠ 0) (hwait : chuteWaits s c = false) :
    chuteLineWaits s c ((s.chute c).rp.toNat % (s.chute c).size) = false := by
  cases hst : (s.chute c).stack with
  | false => rw [chuteLineWaits, hst, Bool.false_and]
  | true =>
    rw [chuteWaits, hst, Bool.true_and, List.any_eq_false] at hwait
    exact Bool.eq_false_iff.mpr (hwait 0 (List.mem_range.mpr (Nat.pos_of_ne_zero hready)))

/-- The state of a read's answer: the kernel compares it by this lemma, and not by unfolding the read. -/
theorem chuteRead_mk_moves {ps : List Part} {t : State} (h : Moves ps s t) (line : TLine) (uc : Bool) :
    Moves ps s (ChuteRead.mk t line uc).st := h

section
variable (hst : (s.chute c).st ≠ .disabled) (hready : (s.chute c).ready ≠ 0) (hwait : chuteWaits s c = false)
include hst hready hwait

/-- R135: a committed line in reach is read, from its stack or from the manger of a stall. -/
theorem chuteRead_committed : chuteRead s c =
    let x := s.chute c
    let idx := x.rp.toNat % x.size
    let tag := tabGet (fun _ => 0) x.tags idx
    if x.stack then
      let r := readLine (lineTaken s c) (x.base.toNat + idx * 64) 0
      ⟨r.st, { data := r.line, tag := tag, poison := r.poison, at_ := x.commitTime, chute := true }, false⟩
    else
      let r := mangerRead (lineTaken s c) x.mangerStall (x.mangerOff + idx * 64) 64
      ⟨r.st, { data := lineOf r.bytes, tag := tag, at_ := x.commitTime, chute := true }, r.uc⟩ :=
  if_neg (by simp [hst, hready, chuteLineWaits_next hready hwait])

theorem chuteRead_moves : Moves chuteReadParts (lineTaken s c) (chuteRead s c).st := by
  rw [chuteRead_committed hst hready hwait]
  dsimp only
  split
  · exact chuteRead_mk_moves ((readLine_noErrors_moves _ _).mono rfl) _ _
  · exact chuteRead_mk_moves ((mangerRead_moves _ _ _ _).mono rfl) _ _

theorem chuteRead_tag : (chuteRead s c).line.tag =
    tabGet (fun _ => 0) (s.chute c).tags ((s.chute c).rp.toNat % (s.chute c).size) := by
  rw [chuteRead_committed hst hready hwait]
  dsimp only
  split <;> rfl

end

/-- The parts that a packet's consumption may change. -/
def eatParts : List Part := [.ms, .stalls] ++ markParts

/-- R136, R137: the state after a packet of one line has been read and released: its chute is the only one that
changes. -/
structure PacketTaken (c : Nat) (s t : State) : Prop where
  moves : Moves eatParts s t
  chute : SameButMarks (releaseChute (lineRead (s.chute c))) (t.chute c)
  others : ∀ k, k ≠ c → t.chute k = s.chute k

theorem eatPacket_single {fuel : Nat} (hfuel : 0 < fuel) (hst : (s.chute c).st ≠ .disabled)
    (hready : (s.chute c).ready ≠ 0) (hlast : tagLast (chuteRead s c).line.tag = true) :
    eatPacket s c fuel = (changeChute (chuteRead s c).st c releaseChute,
      some ((chuteRead s c).line.data, (chuteRead s c).line.poison)) := by
  obtain ⟨n, rfl⟩ := Nat.exists_eq_add_of_lt hfuel
  rw [Nat.zero_add, eatPacket, if_neg (by simp [hst, hready]), if_pos hlast]

theorem releasedRead_taken (hst : (s.chute c).st ≠ .disabled) (hready : (s.chute c).ready ≠ 0)
    (hwait : chuteWaits s c = false) : PacketTaken c s (changeChute (chuteRead s c).st c releaseChute) := by
  have hread := chuteRead_moves hst hready hwait
  have hmarks := changeChute_marksOf (s := (chuteRead s c).st) (c := c) releaseChute
  refine ⟨?_, ?_, fun k hk => ?_⟩
  · exact .step (changeChute_moves _ _ _) rfl (.step hread rfl (lineTaken_moves.mono rfl))
  · have h := hmarks.same
    rwa [setChute_chute, if_pos rfl, hread.chute c rfl, lineTaken_chute, if_pos rfl] at h
  · rw [hmarks.others k hk, setChute_other _ hk, hread.chute k rfl, lineTaken_chute, if_neg hk]

/-- R136: RP has passed the line, and MP and FP stand with it. -/
theorem PacketTaken.pointers {t : State} (h : PacketTaken c s t) : let x := s.chute c
    (t.chute c).rp = x.adv x.rp 1 ∧ (t.chute c).fp = x.adv x.rp 1 ∧ (t.chute c).mp = x.adv x.rp 1 := by
  obtain ⟨xoff, hwm, lwm, n, r, hx⟩ := h.chute
  rw [hx]
  exact ⟨rfl, rfl, rfl⟩

end

/-! ### The runs of a pen's plans (R105) -/

section
variable (x : Pen) (i j : Nat) (v : PlanRun)

@[simp] theorem setPlanRun_planRun : (x.setPlanRun i v).planRun j = if j = i then v else x.planRun j := by
  simp [Pen.setPlanRun, Pen.planRun]

@[simp] theorem setPlanRun_cur : (x.setPlanRun i v).cur = x.cur := rfl

end

/-! ### Triggers counted (R106) -/

section
variable {s t u : State} {p : Nat}

/-- R106: a trigger packet brings the plan's count to TRIGGER_COUNT. -/
def triggerDue (pl : Plan) (run : PlanRun) : Bool := decide (pl.trigCount.toNat ≤ run.trig + 1)

/-- R106: a plan's progress with one more trigger packet counted. -/
def triggered (pl : Plan) (run : PlanRun) : PlanRun :=
  { run with trig := if pl.trigCount.toNat ≤ run.trig + 1 then 0 else run.trig + 1 }

theorem countTrigger_planRun (i j : Nat) (pl : Plan) : ((countTrigger s p i pl).pen p).planRun j =
    if j = i then triggered pl ((s.pen p).planRun i) else (s.pen p).planRun j := by
  unfold countTrigger
  extract_lets x run
  split
  · next h =>
    show ((s.setPen p _).pen p).planRun j = _
    rw [setPen_pen, if_pos rfl, setPlanRun_planRun, triggered, if_pos h]
  · next h => rw [setPen_pen, if_pos rfl, setPlanRun_planRun, triggered, if_neg h]

theorem countTrigger_ready (i : Nat) (pl : Plan) : (countTrigger s p i pl).ready =
    s.ready ++ if triggerDue pl ((s.pen p).planRun i) then [(BitVec.ofNat 6 p, i)] else [] := by
  unfold countTrigger
  extract_lets x run
  split
  · next h => rw [triggerDue, decide_eq_true h, if_pos rfl]
  · next h => rw [triggerDue, decide_eq_false h, if_neg Bool.false_ne_true, List.append_nil]; rfl

theorem ready_moves (q : List (PenId × Nat)) : Moves [.ready] s { s with ready := q } :=
  .of_same (fun p hp => by
    cases p
    case ready => exact nomatch hp
    all_goals rfl) rfl rfl rfl rfl rfl

theorem countTrigger_moves (i : Nat) (pl : Plan) : Moves [.pens, .ready] s (countTrigger s p i pl) :=
  .ite (.step (ready_moves _) rfl ((setPen_moves s _ _).mono rfl)) ((setPen_moves s _ _).mono rfl)

theorem countTrigger_pen_other (i : Nat) (pl : Plan) {q : Nat} (hq : q ≠ p) :
    (countTrigger s p i pl).pen q = s.pen q := by
  unfold countTrigger
  extract_lets x run
  split
  · exact (setPen_pen _ _ _ _).trans (if_neg hq)
  · exact (setPen_pen _ _ _ _).trans (if_neg hq)

/-- R106: a trigger packet counted toward the plans of a list that it hits, in turn. -/
def countTriggers (p : Nat) (hit : Plan → Bool) (es : List (Plan × Nat)) (s : State) : State :=
  es.foldl (fun st e => if hit e.1 then countTrigger st p e.2 e.1 else st) s

/-- R106: what that leaves of the pen's plans, of the other pens and of the ready plans. -/
structure TriggersCounted (p : Nat) (hit : Plan → Bool) (es : List (Plan × Nat)) (s t : State) : Prop where
  moves : Moves [.pens, .ready] s t
  counted : ∀ e ∈ es, (t.pen p).planRun e.2 =
    if hit e.1 then triggered e.1 ((s.pen p).planRun e.2) else (s.pen p).planRun e.2
  unlisted : ∀ j, j ∉ es.map Prod.snd → (t.pen p).planRun j = (s.pen p).planRun j
  ready : t.ready = s.ready ++ (es.filter fun e => hit e.1 && triggerDue e.1 ((s.pen p).planRun e.2)).map fun e =>
    (BitVec.ofNat 6 p, e.2)
  others : ∀ q, q ≠ p → t.pen q = s.pen q

theorem triggersCounted_one (hit : Plan → Bool) (e : Plan × Nat) :
    TriggersCounted p hit [e] s (if hit e.1 then countTrigger s p e.2 e.1 else s) := by
  cases hh : hit e.1 with
  | false =>
    refine ⟨.refl _ s, ?_, fun _ _ => rfl, ?_, fun _ _ => rfl⟩
    · simp [hh]
    · simp [hh]
  | true =>
    refine ⟨countTrigger_moves _ _, ?_, fun j hj => ?_, ?_, fun q hq => countTrigger_pen_other _ _ hq⟩
    · simp [hh, countTrigger_planRun]
    · exact (countTrigger_planRun _ _ _).trans (if_neg (by simpa using hj))
    · rw [if_pos rfl, countTrigger_ready]
      cases hd : triggerDue e.1 ((s.pen p).planRun e.2) <;> simp [hh, hd]

/-- Plans of other indices counted next. -/
theorem TriggersCounted.cons {hit : Plan → Bool} {e : Plan × Nat} {es : List (Plan × Nat)}
    (he : e.2 ∉ es.map Prod.snd) (h : TriggersCounted p hit [e] s t) (h' : TriggersCounted p hit es t u) :
    TriggersCounted p hit (e :: es) s u := by
  have hkept : ∀ d ∈ es, (t.pen p).planRun d.2 = (s.pen p).planRun d.2 := fun d hd =>
    h.unlisted d.2 fun hm => he (by rw [← List.mem_singleton.mp hm]; exact List.mem_map_of_mem hd)
  refine ⟨h.moves.trans h'.moves, fun d hd => ?_, fun j hj => ?_, ?_,
    fun q hq => (h'.others q hq).trans (h.others q hq)⟩
  · rcases List.mem_cons.mp hd with rfl | hmem
    · exact (h'.unlisted _ he).trans (h.counted _ (List.mem_singleton_self _))
    · rw [h'.counted d hmem, hkept d hmem]
  · rw [List.map_cons, List.mem_cons, not_or] at hj
    exact (h'.unlisted j hj.2).trans (h.unlisted j (by simpa using hj.1))
  · have hfilter : (es.filter fun d => hit d.1 && triggerDue d.1 ((t.pen p).planRun d.2)) =
        es.filter fun d => hit d.1 && triggerDue d.1 ((s.pen p).planRun d.2) :=
      List.filter_congr fun d hd => by rw [hkept d hd]
    rw [h'.ready, h.ready, hfilter, List.append_assoc, ← List.map_append, ← List.filter_append,
      List.singleton_append]

theorem countTriggers_counted {hit : Plan → Bool} {es : List (Plan × Nat)} (hnodup : (es.map Prod.snd).Nodup) :
    TriggersCounted p hit es s (countTriggers p hit es s) := by
  induction es generalizing s with
  | nil => exact ⟨.refl _ s, nofun, fun _ _ => rfl, (List.append_nil _).symm, fun _ _ => rfl⟩
  | cons e es ih =>
    obtain ⟨he, hes⟩ := List.nodup_cons.mp hnodup
    exact (triggersCounted_one hit e).cons he (ih hes)

/-- The plans of a harness have different indices. -/
theorem nodup_zipIdx_snd {α : Type} (xs : List α) : (xs.zipIdx.map Prod.snd).Nodup := by
  rw [List.zipIdx_map_snd]
  exact List.nodup_range'

end

/-! ### A run's anchors (R70, R105) -/

section
variable {s t : State} {p i : Nat} {pl : Plan}

/-- R70, R105: at the end of a run its anchor goes to every contributor, and the run count goes up. -/
structure RunEnded (p i : Nat) (pl : Plan) (e : Option Int) (pois : Bool) (s t : State) : Prop where
  anchors : t.anchors = s.anchors ++ pl.contrib.map fun c =>
    { t := (s.pen p).cur.place.getD c 0, anchor := anchorOf e, poison := pois }
  runs : ((t.pen p).planRun i).runs = ((s.pen p).planRun i).runs + 1
  trig : ((t.pen p).planRun i).trig = ((s.pen p).planRun i).trig
  waiting : ((t.pen p).planRun i).waiting = false

variable (e : Option Int) (pois : Bool)

theorem finishPlan_moves : Moves [.pens, .anchors] s (finishPlan s p i pl e pois) :=
  .step (anchors_moves _ _) rfl ((setPen_moves s _ _).mono rfl)

theorem finishPlan_pen (q : Nat) : (finishPlan s p i pl e pois).pen q = if q = p then (s.pen p).setPlanRun i
    { (s.pen p).planRun i with
      runs := ((s.pen p).planRun i).runs + 1, waiting := false, eMax := none, pois := false,
      rx := ((s.pen p).planRun i).rx.filter fun m => m.step.toNat ≠ ((s.pen p).planRun i).runs % 2 ^ 32 }
    else s.pen q := setPen_pen _ _ _ _

theorem finishPlan_ended : RunEnded p i pl e pois s (finishPlan s p i pl e pois) := by
  refine ⟨rfl, ?_, ?_, ?_⟩
  · rw [finishPlan_pen, if_pos rfl, setPlanRun_planRun, if_pos rfl]
  · rw [finishPlan_pen, if_pos rfl, setPlanRun_planRun, if_pos rfl]
  · rw [finishPlan_pen, if_pos rfl, setPlanRun_planRun, if_pos rfl]

/-- What was done before the end of a run, and leaves its pen's harness, the run and the anchors. -/
theorem RunEnded.after {u : State} {m : Option Int} {b : Bool} (h : RunEnded p i pl m b u t)
    (hanchors : u.anchors = s.anchors) (hcur : (u.pen p).cur = (s.pen p).cur)
    (hruns : ((u.pen p).planRun i).runs = ((s.pen p).planRun i).runs)
    (htrig : ((u.pen p).planRun i).trig = ((s.pen p).planRun i).trig) : RunEnded p i pl m b s t where
  anchors := by rw [h.anchors, hanchors, hcur]
  runs := h.runs.trans (congrArg (· + 1) hruns)
  trig := h.trig.trans htrig
  waiting := h.waiting

end

/-! ### The drove of maxima (R147, R307, R310) -/

section
variable {s t : State} {p i : Nat} {pl : Plan}

theorem noteOwn_moves (s : State) (src : Source) (chute : ChuteAddr) : Moves [.sys] s (noteOwn s src chute) :=
  .ite (sys_moves s _) (.refl _ s)

theorem remoteStart_moves (s : State) (l : Nat) (src : Source) (chute : ChuteAddr) (v : Nat) :
    Moves [.lls, .sys] s (remoteStart s l src chute v) :=
  .step (setLl_moves _ _ _) rfl (.step (queueTx_moves _ _ _ _) rfl ((noteOwn_moves s src chute).mono rfl))

theorem sendRemote_moves (s : State) (src : Source) (c : ChuteAddr) (v : Nat) (line : Line) (first last : Bool)
    (n : Nat) (pois : Bool) : Moves [.lls, .sys] s (sendRemote s src c v line first last n pois) := by
  unfold sendRemote
  extract_lets s0
  have h0 : Moves [.lls, .sys] s s0 := by
    refine .ite ?_ (.refl _ s)
    split
    · exact remoteStart_moves s _ _ _ _
    · exact .refl _ s
  split
  · exact h0
  · next l vc _ =>
    extract_lets s1 s2 anyPois
    have h2 : Moves [.lls, .sys] s s2 := .step (setLl_moves _ _ _) rfl (h0.trans (queueTx_moves s0 _ _ _))
    exact .ite (h2.trans (queueTx_moves s2 _ _ _)) h2

/-- The partners are as the configuration image says. -/
theorem partners_of_tack (h : t.tack = s.tack) : partners t = partners s := by
  rw [partners, sysSize, myDev, h]
  rfl

/-- R140, R310: of the pens, a sending of maxima changes what the plan has still to send. -/
theorem sendMaxima_sends (s : State) (p i : Nat) (pl : Plan) : ∃ due,
    (((s.pen p).planRun i).due = [] → due = []) ∧
    Moves [.lls, .sys] (s.setPen p ((s.pen p).setPlanRun i { (s.pen p).planRun i with due := due }))
      (sendMaxima s p i pl) :=
  ⟨_, fun h => by rw [h]; rfl, .fold (fun st d => sendRemote_moves st _ _ _ _ _ _ _ _) (.refl _ _)⟩

/-- R310: a partner's header of the run's step is missing. -/
theorem droveCheck_waits (hrx : ((s.pen p).planRun i).rx = []) (hp : partners s ≠ []) : droveCheck s p i pl = s := by
  obtain ⟨d, ds, hd⟩ := List.exists_cons_of_ne_nil hp
  unfold droveCheck
  simp [hrx, hd]

/-- R310: the only partner's header of the run's step is there, and the own maximum has gone. -/
theorem droveCheck_ends {h : MaxHeader} {run : PlanRun} (hrun : (s.pen p).planRun i = run) (hwait : run.waiting = true)
    (hdue : run.due = []) (hrx : run.rx = [h]) (hstep : h.step = BitVec.ofNat 32 run.runs)
    (hp : partners s = [h.source.toNat]) :
    droveCheck s p i pl = finishPlan s p i pl (maxOpt run.eMax h.eMax) (run.pois || h.pois) := by
  have hmine : decide (h.step.toNat = run.runs % 2 ^ 32) = true :=
    decide_eq_true (by rw [hstep, BitVec.toNat_ofNat])
  unfold droveCheck
  simp only [hrun, hrx, hwait, hdue, hp, hmine, List.filter_cons_of_pos, List.filter_nil, List.all_cons, List.any_cons,
    List.all_nil, List.any_nil, List.foldl_cons, List.foldl_nil, decide_true, Bool.and_true, Bool.or_false, if_true]

/-- R310: a run whose drove of maxima begins waits, and keeps its own maximum. -/
theorem droveGoesOn_begins {run : PlanRun} {e : Option Int} {pois : Bool} {ds : List (BitVec 6)} (hrx : run.rx = [])
    (hp : partners s ≠ []) : let t := droveGoesOn (s.updPen p fun y => y.setPlanRun i { run with
      waiting := true, eMax := e, pois := pois, due := ds }) p i pl
    Moves [.pens, .lls, .sys] s t ∧ ((t.pen p).planRun i).waiting = true ∧ ((t.pen p).planRun i).eMax = e ∧
      ((t.pen p).planRun i).runs = run.runs := by
  generalize hu : s.updPen p _ = u
  have hum : Moves [.pens] s u := hu ▸ setPen_moves s _ _
  have hurun : (u.pen p).planRun i = { run with waiting := true, eMax := e, pois := pois, due := ds } := by
    rw [← hu, updPen_def, setPen_pen, if_pos rfl, setPlanRun_planRun, if_pos rfl]
  obtain ⟨due, -, hm⟩ := sendMaxima_sends u p i pl
  have hrun : ((sendMaxima u p i pl).pen p).planRun i =
      { run with waiting := true, eMax := e, pois := pois, due := due } := by
    rw [hm.pen p rfl, setPen_pen, if_pos rfl, setPlanRun_planRun, if_pos rfl, hurun]
  have hpart : partners (sendMaxima u p i pl) = partners s :=
    partners_of_tack ((hm.same .tack rfl).trans (hum.same .tack rfl))
  rw [droveGoesOn, droveCheck_waits (by rw [hrun]; exact hrx) (by rwa [hpart])]
  dsimp only
  rw [hrun]
  exact ⟨.step hm rfl (.step (setPen_moves u _ _) rfl (hum.mono rfl)), rfl, rfl, rfl⟩

/-- R307: a plan that keeps no header keeps the one that comes. -/
theorem takeMax_first {x : Pen} (h : (x.planRun i).rx = []) (m : MaxHeader) :
    takeMax x i m = x.setPlanRun i { x.planRun i with rx := [m] } := by
  unfold takeMax
  simp [h]

/-- R307, R310: the header of the only partner ends the run that waits for it. -/
theorem droveGoesOn_ends {m : MaxHeader} {run : PlanRun} (hrun : (s.pen p).planRun i = run) (hwait : run.waiting = true)
    (hrx : run.rx = []) (hdue : run.due = []) (hstep : m.step = BitVec.ofNat 32 run.runs)
    (hp : partners s = [m.source.toNat]) : let t := droveGoesOn (s.updPen p fun x => takeMax x i m) p i pl
    RunEnded p i pl (maxOpt run.eMax m.eMax) (run.pois || m.pois) s t ∧
      Moves [.pens, .anchors, .lls, .sys] s t := by
  subst hrun
  generalize hu : s.updPen p _ = u
  have hum : Moves [.pens] s u := hu ▸ setPen_moves s _ _
  have hupen : u.pen p = (s.pen p).setPlanRun i { (s.pen p).planRun i with rx := [m] } := by
    rw [← hu, updPen_def, setPen_pen, if_pos rfl, takeMax_first hrx]
  obtain ⟨due, hnone, hm⟩ := sendMaxima_sends u p i pl
  have hurun : (u.pen p).planRun i = { (s.pen p).planRun i with rx := [m] } := by
    rw [hupen, setPlanRun_planRun, if_pos rfl]
  have hpen : (sendMaxima u p i pl).pen p =
      (u.pen p).setPlanRun i { (s.pen p).planRun i with rx := [m], due := due } := by
    rw [hm.pen p rfl, setPen_pen, if_pos rfl, hurun]
  have hlast : ((sendMaxima u p i pl).pen p).planRun i = { (s.pen p).planRun i with rx := [m], due := due } := by
    rw [hpen, setPlanRun_planRun, if_pos rfl]
  have hmoved : Moves [.pens, .lls, .sys] s (sendMaxima u p i pl) :=
    .step hm rfl (.step (setPen_moves u _ _) rfl (hum.mono rfl))
  rw [droveGoesOn, droveCheck_ends hlast hwait (hnone (by rw [hurun]; exact hdue)) rfl hstep
    ((partners_of_tack (hmoved.same .tack rfl)).trans hp)]
  refine ⟨(finishPlan_ended _ _).after (hmoved.same .anchors rfl) ?_ ?_ ?_, .step (finishPlan_moves _ _) rfl
    (hmoved.mono rfl)⟩
  · rw [hpen, setPlanRun_cur, hupen, setPlanRun_cur]
  · rw [hlast]
  · rw [hlast]

end

/-! ### The engine's commands (R105, R106, R307, R310) -/

section
variable {s : State}

theorem engineServes_of_running {p : Nat} (h : (s.pen p).st = .running) : engineServes s p = true := by
  simp [engineServes, h]

/-- R105, R106: the first ready plan runs. -/
theorem planRun_runs {p : PenId} {i : Nat} {rest : List (PenId × Nat)} {pl : Plan} (hidle : engineDrove s = none)
    (hwipe : wipeComplete s = true) (hready : s.ready = (p, i) :: rest) (hst : (s.pen p.toNat).st = .running)
    (hpl : (s.pen p.toNat).cur.plans[i]? = some pl)
    (hwait : ∀ a ∈ planLines (s.pen p.toNat).cur pl ((s.pen p.toNat).planRun i).runs, reqWaits s a 64 = false) :
    let x := s.pen p.toNat
    let run := x.planRun i
    let r := readLines { s with ready := rest } (planLines x.cur pl run.runs)
    let e := planMax r.2 x.cur pl run.runs
    let pois := r.2.any (·.2.2)
    exec .planRun s = .next (if pl.scope = 0 then finishPlan r.1 p.toNat i pl e pois
      else droveGoesOn (r.1.updPen p.toNat fun y => y.setPlanRun i { run with
        waiting := true, eMax := e, pois := pois, due := (partners s).map (BitVec.ofNat 6) }) p.toNat i pl) := by
  intro x run r e pois
  have hpop : popFirst (fun (d : PenId × Nat) => engineServes s d.1.toNat) s.ready = some ((p, i), rest) := by
    rw [hready, popFirst, if_pos (engineServes_of_running hst)]
  have hany : ((planLines x.cur pl run.runs).any fun a => reqWaits s a 64) = false := by
    rw [List.any_eq_false]
    exact fun a ha => Bool.eq_false_iff.mp (hwait a ha)
  refine congrArg Host.Outcome.next ?_
  simp only [hidle, hwipe, hpop, hpl, Bool.not_true, Bool.false_eq_true, if_false]
  exact if_neg (Bool.eq_false_iff.mp hany)

section
variable {c : ChuteId} {t : State} {l : Line} {pois : Bool} (hplans : drovePlans s c.toNat ≠ [])
  (hwait : chuteWaits s c.toNat = false) (heat : eatPacket s c.toNat (2 ^ 20) = (t, some (l, pois)))
include hplans hwait heat

/-- R310: a header of another phase, or of no partner, is consumed. -/
theorem droveMax_ignores (h : headerPhase l ≠ 4 ∨ bitsAt l.toNat 16 6 ∉ partners s) :
    exec (.droveMax c) s = .next t := by
  refine congrArg Host.Outcome.next ?_
  simp only [heat]
  rw [if_neg (by simp [hplans, hwait]), if_pos (by simpa using h)]

/-- R307, R310: a partner's header of phase MAX is kept for the plan that its DROVE names. -/
theorem droveMax_takes {p i : Nat} {pl : Plan} (hphase : headerPhase l = 4) (hsrc : bitsAt l.toNat 16 6 ∈ partners s)
    (hfind : (drovePlans s c.toNat).find? (fun q => decide (q.2.2.node.toNat = bitsAt l.toNat 0 16)) =
      some (p, i, pl)) :
    exec (.droveMax c) s = .next (droveGoesOn (t.updPen p fun x => takeMax x i
      { step := l.extractLsb' 32 32, source := BitVec.ofNat 6 (bitsAt l.toNat 16 6),
        eMax := if bitAt l.toNat 144 then none else some (l.extractLsb' 128 16).toInt, pois := pois }) p i pl) := by
  refine congrArg Host.Outcome.next ?_
  simp only [heat, hfind]
  rw [if_neg (by simp [hplans, hwait]), if_neg (by simp [hphase, hsrc])]

end

/-- R106: a trigger packet of a RUNNING pen is consumed, and counted toward every plan that names its chute. -/
theorem engineTriggerPacket_counts {c : ChuteId} {p : PenId} {t : State} {q : Line × Bool}
    (hcons : (s.chute c.toNat).consumer = .engine p) (hst : (s.pen p.toNat).st = .running)
    (hwait : chuteWaits s c.toNat = false) (heat : eatPacket s c.toNat (2 ^ 20) = (t, some q)) :
    exec (.engineTriggerPacket c) s = .next (countTriggers p.toNat (fun pl => planTriggers s p.toNat pl c.toNat)
      (s.pen p.toNat).cur.plans.zipIdx t) := by
  refine congrArg Host.Outcome.next ?_
  simp only [hcons, heat]
  exact if_neg (by simp [engineServes_of_running hst, hwait])

end

/-- Settles O26: a run of scope PEN ends by `finishPlan_ended`, one of scope DEVICES waits by `droveGoesOn_begins` and
ends by `droveGoesOn_ends`; a packet leaves its chute by `releasedRead_taken`, and its triggers count by
`countTriggers_counted`. -/
theorem plansAndDroves : Obligations.PlansAndDroves := by
  refine ⟨?_, ?_, ?_⟩
  · intro s p i rest pl x run r e pois hidle hwipe hready hst hpl hwait
    have hexec := planRun_runs hidle hwipe hready hst hpl hwait
    have hlines : Moves soundReadParts { s with ready := rest } r.1 := readLines_moves _ _
    have hrest : r.1.ready = rest := hlines.same .ready rfl
    have hreads : Moves (.ready :: soundReadParts) s r.1 := .step hlines rfl ((ready_moves rest).mono rfl)
    have hpen (q : Nat) : r.1.pen q = s.pen q := hreads.pen q rfl
    refine ⟨fun hscope => ?_, fun hscope hrx hp => ?_⟩
    · have hmoves := finishPlan_moves (s := r.1) (p := p.toNat) (i := i) (pl := pl) e pois
      have hended := (finishPlan_ended (s := r.1) (p := p.toNat) (i := i) (pl := pl) e pois).after (s := s)
        (hreads.same .anchors rfl) (by rw [hpen]) (by rw [hpen]) (by rw [hpen])
      refine ⟨_, hexec.trans (congrArg _ (if_pos hscope)), hended.anchors, hended.runs, hended.trig,
        (hmoves.same .ready rfl).trans hrest, fun q hq => ?_, (Moves.step hmoves rfl (hreads.mono rfl)).only⟩
      rw [finishPlan_pen, if_neg hq, hpen]
    · have hpart : partners r.1 = partners s := partners_of_tack (hreads.same .tack rfl)
      obtain ⟨hmoves, hwaiting, hmax, hruns⟩ := droveGoesOn_begins (s := r.1) (p := p.toNat) (i := i) (pl := pl)
        (e := e) (pois := pois) (ds := (partners s).map (BitVec.ofNat 6)) hrx (by rwa [hpart])
      exact ⟨_, hexec.trans (congrArg _ (if_neg (by rw [hscope]; decide))),
        (hmoves.same .anchors rfl).trans (hreads.same .anchors rfl), hwaiting, hmax, hruns,
        (hmoves.same .ready rfl).trans hrest⟩
  · intro c s n x r l src e hplans hwait hready hst hlast
    have heat := eatPacket_single (s := s) (c := n) (fuel := 2 ^ 20) (by norm_num) hst hready hlast
    have htaken := releasedRead_taken hst hready hwait
    obtain ⟨-, hfp, -⟩ := htaken.pointers
    have htmoves := htaken.moves
    generalize changeChute (chuteRead s n).st n releaseChute = t at heat hfp htmoves
    have hanchors : t.anchors = s.anchors := htmoves.same .anchors rfl
    have hpens : t.pens = s.pens := htmoves.same .pens rfl
    refine ⟨?_, fun h => ?_⟩
    · intro p i pl pen run hphase hsrc hfind hwaiting hrx hdue hone hstep
      have hpen : t.pen p = pen := congrArg (tabGet _ · p) hpens
      have hpart : partners t = [(BitVec.ofNat 6 src).toNat] := by
        obtain ⟨d, hd⟩ := List.length_eq_one_iff.mp hone
        have hsd : src = d := by rwa [hd, List.mem_singleton] at hsrc
        rw [partners_of_tack (htmoves.same .tack rfl), hd, ← hsd, BitVec.toNat_ofNat,
          Nat.mod_eq_of_lt (show src < 2 ^ 6 from Nat.mod_lt _ (by norm_num))]
      obtain ⟨hended, hmoves⟩ := droveGoesOn_ends (pl := pl)
        (m := { step := l.extractLsb' 32 32, source := BitVec.ofNat 6 src, eMax := e, pois := r.line.poison })
        (congrArg (Pen.planRun · i) hpen) hwaiting hrx hdue hstep hpart
      have hends := hended.after (s := s) hanchors (congrArg Pen.cur hpen) (by rw [hpen]) (by rw [hpen])
      exact ⟨_, droveMax_takes hplans hwait heat hphase hsrc hfind, hends.anchors, hends.runs, hends.waiting,
        (congrArg Chute.fp (hmoves.chute n rfl)).trans hfp⟩
    · exact ⟨t, droveMax_ignores hplans hwait heat h, hanchors, hfp, hpens⟩
  · intro c s p n x pen hit hcons hst hready hdis hwait htag
    have hlast : tagLast (chuteRead s n).line.tag = true := by rwa [chuteRead_tag hdis hready hwait]
    have heat := eatPacket_single (s := s) (c := n) (fuel := 2 ^ 20) (by norm_num) hdis hready hlast
    have htaken := releasedRead_taken hdis hready hwait
    obtain ⟨hrp, hfp, hmp⟩ := htaken.pointers
    have hexec := engineTriggerPacket_counts hcons hst hwait heat
    generalize changeChute (chuteRead s n).st n releaseChute = t at hexec htaken hrp hfp hmp
    have hpen (q : Nat) : t.pen q = s.pen q := htaken.moves.pen q rfl
    have hcount := countTriggers_counted (s := t) (p := p.toNat) (hit := hit) (nodup_zipIdx_snd pen.cur.plans)
    have hchute (k : Nat) := hcount.moves.chute k rfl
    refine ⟨_, hexec, ?_, ?_, ?_, fun k hk => ?_, fun i pl hpl => ?_, ?_, fun q hq => ?_⟩
    · rw [hchute]; exact hrp
    · rw [hchute]; exact hfp
    · rw [hchute]; exact hmp
    · rw [hchute]; exact htaken.others k hk
    · have h := hcount.counted (pl, i) (List.mem_zipIdx_iff_getElem?.mpr hpl)
      rw [hpen] at h
      exact h
    · have hready := hcount.ready
      rw [hpen, htaken.moves.same .ready rfl, BitVec.ofNat_toNat, BitVec.setWidth_eq] at hready
      exact hready
    · rw [hcount.others q hq, hpen]

end Sys2Proof.Machine

namespace Sys2Proof.Machine
open Sys2Proof

/-! ### What an operation of a stall leaves -/

/-- An operation of stall `t` changes parts of a list, no other stall, and leaves a view of its own. -/
structure StallKeeps {α : Type} (ps : List Part) (t : Nat) (f : Stall → α) (s u : State) : Prop where
  moves : Moves ps s u
  others : ∀ t', t' ≠ t → u.stall t' = s.stall t'
  own : f (u.stall t) = f (s.stall t)

section
variable {α : Type} {ps qs : List Part} {t : Nat} {f : Stall → α} {s u v : State}

theorem StallKeeps.refl (ps : List Part) (t : Nat) (f : Stall → α) (s : State) : StallKeeps ps t f s s :=
  ⟨.refl ps s, fun _ _ => rfl, rfl⟩

theorem StallKeeps.trans (h : StallKeeps ps t f s u) (h' : StallKeeps ps t f u v) : StallKeeps ps t f s v :=
  ⟨h.moves.trans h'.moves, fun t' ht => (h'.others t' ht).trans (h.others t' ht), h'.own.trans h.own⟩

theorem StallKeeps.mono (h : StallKeeps qs t f s u) (hp : covers qs ps = true) : StallKeeps ps t f s u :=
  ⟨h.moves.mono hp, h.others, h.own⟩

theorem StallKeeps.ite {c : Prop} [Decidable c] (h : StallKeeps ps t f s u) (h' : StallKeeps ps t f s v) :
    StallKeeps ps t f s (if c then u else v) := by split <;> assumption

theorem StallKeeps.fold {β : Type} {g : State → β → State} {xs : List β} (hg : ∀ st x, StallKeeps ps t f st (g st x))
    (h : StallKeeps ps t f s u) : StallKeeps ps t f s (xs.foldl g u) := by
  induction xs generalizing u with
  | nil => exact h
  | cons x xs ih => exact ih (h.trans (hg u x))

theorem Moves.stall (h : Moves qs s u) (hq : listed .stalls qs = false) (j : Nat) : u.stall j = s.stall j :=
  congrArg (tabGet _ · j) (h.same .stalls hq)

/-- An operation that changes no stall at all. -/
theorem Moves.stallKeeps (h : Moves qs s u) (hq : listed .stalls qs = false) (hp : covers qs ps = true) :
    StallKeeps ps t f s u := ⟨h.mono hp, fun t' _ => h.stall hq t', congrArg f (h.stall hq t)⟩

theorem setStall_keeps {x : Stall} (h : f x = f (s.stall t)) : StallKeeps [.stalls] t f s (s.setStall t x) where
  moves := setStall_moves s t x
  others := fun t' ht => by rw [setStall_stall, if_neg ht]
  own := by rw [setStall_stall, if_pos rfl, h]

theorem updStall_keeps {g : Stall → Stall} (h : f (g (s.stall t)) = f (s.stall t)) :
    StallKeeps [.stalls] t f s (s.updStall t g) := setStall_keeps h

@[simp] theorem updStall_own (s : State) (t : Nat) (g : Stall → Stall) : (s.updStall t g).stall t = g (s.stall t) := by
  rw [updStall_def, setStall_stall, if_pos rfl]

theorem pmuStall_keeps (s : State) (t' ev n : Nat) : StallKeeps [.pmus] t f s (pmuStall s t' ev n) :=
  (pmuCount_moves s _ _ _ _).stallKeeps rfl rfl

end

/-! ### Tokens retired (R49, R430) -/

section
variable {α : Type} {t : Nat} {f : Stall → α}

theorem putSample_keeps (s : State) (vec : Bool) (p : SamplePend) (at_ : BitVec 64) :
    StallKeeps [.pmus] t f s (putSample s t vec p at_) := (setPmu_moves s _ _).stallKeeps rfl rfl

theorem putSamples_keeps (s : State) (vec : Bool) (ps : List SamplePend) :
    StallKeeps [.pmus] t f s (putSamples s t vec ps) :=
  .fold (fun st p => putSample_keeps st vec p _) (.refl _ t f s)

theorem retireToken_stall (s : State) :
    StallKeeps [.stalls, .pmus] t (fun _ => ()) s (retireToken s t).1 ∧
      (retireToken s t).1.stall t = { s.stall t with tokens := (s.stall t).tokens + 1 } := by
  unfold retireToken
  extract_lets r s1
  have hsel := setPmu_moves s (t / 64) r.1
  refine ⟨.trans (hsel.stallKeeps rfl rfl) (.trans ((updStall_keeps rfl).mono rfl) ((pmuStall_keeps s1 _ _ _).mono rfl)),
    (pmuStall_keeps (f := id) s1 t evTokens 1).own.trans ?_⟩
  exact updStall_own _ _ _

theorem retireToken_keeps (s : State) (h : ∀ (x : Stall) n, f { x with tokens := n } = f x) :
    StallKeeps [.stalls, .pmus] t f s (retireToken s t).1 := by
  obtain ⟨hframe, hown⟩ := retireToken_stall (t := t) s
  exact ⟨hframe.moves, hframe.others, by rw [hown, h]⟩

end

/-! ### A micro-op ends (R71) -/

/-- The registers and accumulators of a VEC stall. -/
def Stall.vecState (x : Stall) : Tab Vec × Tab (BitVec 64) × Tab Acc × Tab Acc := (x.vregs, x.vpois, x.sacc, x.lacc)

/-- The tokens that each port of a list counts in its packet, as a token retires. -/
theorem countPackets_vecState (c : Nat → Bool) (g : Nat → OutPort → OutPort) (ns : List Nat) (x : Stall) :
    (ns.foldl (fun z n => if c n then z.setOut n (g n (z.outPort n)) else z) x).vecState = x.vecState := by
  induction ns generalizing x with
  | nil => rfl
  | cons n ns ih =>
    rw [List.foldl_cons, ih]
    split <;> rfl

theorem sampleUop_moves (s : State) (r : BitVec 4096) (k : VecTok) : Moves [.free] s (sampleUop s r k).1 :=
  .ite_fst (useFree_moves s) (.refl _ s)

section
variable (s : State) (t : Nat)

theorem vecRetire_keeps (k : VecTok) :
    StallKeeps [.stalls, .pmus, .free] t Stall.vecState s (vecRetire s t k) := by
  unfold vecRetire
  extract_lets num q s1 u p
  have hret : StallKeeps [.stalls, .pmus, .free] t Stall.vecState s q.1 :=
    (retireToken_keeps s fun _ _ => rfl).mono rfl
  have h1 : StallKeeps [.stalls, .pmus, .free] t Stall.vecState s s1 :=
    hret.trans ((updStall_keeps (countPackets_vecState _ (fun n o =>
      { o with tokens := if recPkt (q.1.stall t).record n ≤ o.tokens + 1 then 0 else o.tokens + 1 }) _ _)).mono rfl)
  have hu : StallKeeps [.stalls, .pmus, .free] t Stall.vecState s u.1 :=
    h1.trans ((sampleUop_moves s1 _ k).stallKeeps rfl rfl)
  refine .ite h1 ?_
  split
  · exact hu.trans ((updStall_keeps rfl).mono rfl)
  · exact hu.trans ((putSample_keeps u.1 _ _ _).mono rfl)
  · exact hu.trans ((putSample_keeps u.1 _ _ _).mono rfl)

theorem uopDone_keeps : StallKeeps [.stalls, .pmus, .free] t Stall.vecState s (uopDone s t) := by
  unfold uopDone
  extract_lets s1
  have h1 : StallKeeps [.stalls, .pmus, .free] t Stall.vecState s s1 := (pmuStall_keeps s _ _ _).mono rfl
  split
  · exact h1
  · refine .ite (h1.trans ((updStall_keeps rfl).mono rfl)) (h1.trans (.trans ?_ (vecRetire_keeps _ t _)))
    exact (updStall_keeps rfl).mono rfl

end
/-! ### Lanes (R71) -/

/-- A number from its lanes. -/
theorem foldr_lanes (f : Nat → BitVec 32) (n z : Nat) :
    (List.range n).foldr (fun i m => (f i).toNat * 2 ^ (32 * i) + m) z
      = (∑ i ∈ Finset.range n, (f i).toNat * 2 ^ (32 * i)) + z := by
  induction n generalizing z with
  | zero => simp
  | succ n ih => rw [List.range_succ, List.foldr_append, ih, Finset.sum_range_succ]; simp [Nat.add_assoc]

theorem lanes_lt (f : Nat → BitVec 32) (n : Nat) :
    ∑ i ∈ Finset.range n, (f i).toNat * 2 ^ (32 * i) < 2 ^ (32 * n) := by
  induction n with
  | zero => simp
  | succ n ih =>
    have hf : (f n).toNat + 1 ≤ 2 ^ 32 := (f n).isLt
    calc ∑ i ∈ Finset.range (n + 1), (f i).toNat * 2 ^ (32 * i)
        < 2 ^ (32 * n) + (f n).toNat * 2 ^ (32 * n) := by rw [Finset.sum_range_succ]; omega
      _ = ((f n).toNat + 1) * 2 ^ (32 * n) := by rw [Nat.add_mul, Nat.one_mul, Nat.add_comm]
      _ ≤ 2 ^ 32 * 2 ^ (32 * n) := Nat.mul_le_mul_right _ hf
      _ = 2 ^ (32 * (n + 1)) := by rw [← pow_add]; congr 1; omega

theorem lanes_div_mod (f : Nat → BitVec 32) {n i : Nat} (h : i < n) :
    (∑ j ∈ Finset.range n, (f j).toNat * 2 ^ (32 * j)) / 2 ^ (32 * i) % 2 ^ 32 = (f i).toNat := by
  induction n with
  | zero => exact absurd h (Nat.not_lt_zero i)
  | succ n ih =>
    rw [Finset.sum_range_succ]
    rcases Nat.lt_succ_iff_lt_or_eq.mp h with hlt | rfl
    · have hpow : (f n).toNat * 2 ^ (32 * n) = 2 ^ (32 * i) * (2 ^ 32 * ((f n).toNat * 2 ^ (32 * (n - i - 1)))) := by
        rw [show 32 * n = 32 * i + (32 + 32 * (n - i - 1)) by omega, pow_add, pow_add]
        ring
      rw [hpow, Nat.add_mul_div_left _ _ (Nat.two_pow_pos _), Nat.add_mul_mod_self_left, ih hlt]
    · rw [Nat.add_mul_div_right _ _ (Nat.two_pow_pos _), Nat.div_eq_of_lt (lanes_lt f i), Nat.zero_add,
        Nat.mod_eq_of_lt (f i).isLt]

@[simp] theorem vecLane_vecOf (f : Nat → BitVec 32) {i : Nat} (h : i < 64) : vecLane (vecOf f) i = f i := by
  refine BitVec.eq_of_toNat_eq ?_
  rw [vecLane, vecOf, BitVec.extractLsb'_toNat, BitVec.toNat_ofNat, foldr_lanes, Nat.add_zero,
    Nat.mod_eq_of_lt (lanes_lt f 64), Nat.shiftRight_eq_div_pow, lanes_div_mod f h]

/-! ### Accumulators written lane by lane -/

/-- Each entry below a bound changed by its own function, in order. -/
theorem tabGet_foldl_tabUpd {α : Type} [DecidableEq α] {d : Nat → α} (g : Nat → α → α) (w : Tab α) (n i : Nat) :
    tabGet d ((List.range n).foldl (fun w l => tabUpd d w l (g l)) w) i
      = if i < n then g i (tabGet d w i) else tabGet d w i := by
  induction n with
  | zero => simp
  | succ n ih =>
    rw [List.range_succ, List.foldl_append, List.foldl_cons, List.foldl_nil, tabGet_tabUpd, ih]
    by_cases hi : i = n
    · subst hi; simp [ih]
    · have hlt : i < n + 1 ↔ i < n := by omega
      simp [hi, hlt]

/-! ### A micro-op in its turn (R71, R73, R75) -/

/-- The sources of a micro-op as it issues. -/
def uopIn (x : Stall) (k : VecTok) (u : Nat) : UopIn :=
  let a := vecSource x k u (uopSa u)
  let b := vecSource x k u (uopSb u)
  let c := vecSource x k u (uopSc u)
  ⟨u, a.1, b.1, c.1, a.2, b.2, c.2⟩

section
variable {t : StallId} {s : State} {k : VecTok} {u : Nat}

/-- In its turn a micro-op issues: its effect, then its result written or, with none, its end. -/
theorem uopIssue_turn (h : UopTurn t s k u) {opc : Nat} (ho : uopOpc u = opc)
    (f : State → UopIn → State × Option (Vec × BitVec 64)) :
    uopIssue s t.toNat opc f =
      (let r := f s (uopIn (s.stall t.toNat) k u)
       match r.2 with
       | none => uopDone r.1 t.toNat
       | some (v, m) => uopWrite r.1 t.toNat k u v m) := by
  obtain ⟨hk, hu, hpen, hfault, hfailed, hoff, hheld, hmwr⟩ := h
  unfold uopIssue
  simp only [hk, hu]
  rw [if_neg (by simp [hpen, hfault, hfailed, hoff, ho]), if_neg (by simp [hheld, hmwr])]
  rfl

theorem uopLanes_turn (h : UopTurn t s k u) {opc : Nat} (ho : uopOpc u = opc)
    (f : BitVec 32 → BitVec 32 → BitVec 32 → BitVec 32) :
    let i := uopIn (s.stall t.toNat) k u
    uopLanes s t.toNat opc f = uopWrite s t.toNat k u (vecOf fun l => f (vecLane i.a l) (vecLane i.b l) (vecLane i.c l))
      (i.ma ||| (if 2 ≤ uopSources opc then i.mb else 0) ||| (if 3 ≤ uopSources opc then i.mc else 0)) :=
  uopIssue_turn h ho _

theorem uopSpread_turn (h : UopTurn t s k u) {opc : Nat} (ho : uopOpc u = opc) (f : UopIn → BitVec 32)
    (pois : UopIn → Bool) :
    let i := uopIn (s.stall t.toNat) k u
    uopSpread s t.toNat opc f pois = uopWrite s t.toNat k u (vecOf fun _ => f i)
      (if pois i then BitVec.allOnes 64 else 0) := uopIssue_turn h ho _

/-- Each lane operation is the lanes of its function over the sources that its code reads. -/
theorem laneOps_exec {o : (StallId → Instr) × Nat × (BitVec 32 → BitVec 32 → BitVec 32 → BitVec 32) × Nat}
    (ho : o ∈ laneOps) (t : StallId) (s : State) :
    exec (o.1 t) s = .next (uopLanes s t.toNat o.2.1 o.2.2.1) ∧ uopSources o.2.1 = o.2.2.2 := by
  have hall : ∀ o ∈ laneOps, exec (o.1 t) s = .next (uopLanes s t.toNat o.2.1 o.2.2.1) ∧
      uopSources o.2.1 = o.2.2.2 := by
    unfold laneOps
    iterate 15 refine List.forall_mem_cons.mpr ⟨⟨rfl, rfl⟩, ?_⟩
    exact List.forall_mem_nil _
  exact hall o ho

/-- R73: a result for a register goes there, and the micro-op ends. -/
theorem uopWrite_register (s : State) (t : Nat) (k : VecTok) {u : Nat} (v : Vec) (m : BitVec 64)
    (hd : uopDst u < 0x18) :
    let x := s.stall t
    let s' := uopWrite s t k u v m
    (s'.stall t).vecState = (tabSet (fun _ => 0) x.vregs (uopDst u) v, tabSet (fun _ => 0) x.vpois (uopDst u) m,
      x.sacc, x.lacc) ∧
      (∀ t', t' ≠ t → s'.stall t' = s.stall t') ∧ Moves [.stalls, .pmus, .free] s s' := by
  intro x s'
  have hs' : s' = uopDone (s.setStall t { x with
      vregs := tabSet (fun _ => 0) x.vregs (uopDst u) v, vpois := tabSet (fun _ => 0) x.vpois (uopDst u) m }) t :=
    if_pos hd
  rw [hs']
  have h := uopDone_keeps (s.setStall t { x with
    vregs := tabSet (fun _ => 0) x.vregs (uopDst u) v, vpois := tabSet (fun _ => 0) x.vpois (uopDst u) m }) t
  refine ⟨?_, fun t' ht => ?_, .step h.moves rfl ((setStall_moves _ _ _).mono rfl)⟩
  · rw [h.own, setStall_stall, if_pos rfl]
    rfl
  · rw [h.others t' ht, setStall_stall, if_neg ht]

/-- A micro-op that changes the stall's accumulators and writes no destination. -/
theorem uopDone_setStall (s : State) (t : Nat) (x : Stall) :
    let s' := uopDone (s.setStall t x) t
    (s'.stall t).vecState = x.vecState ∧ OnlyChanges [.stalls, .pmus, .free] s s' := by
  have h := uopDone_keeps (s.setStall t x) t
  refine ⟨?_, (Moves.step h.moves rfl ((setStall_moves _ _ _).mono rfl)).only⟩
  rw [h.own, setStall_stall, if_pos rfl]

end

/-- Settles O7: in its turn each command is its micro-op (`uopIssue_turn`); a result for a register goes there by
`uopWrite_register`, and an operation with none leaves the registers by `uopDone_keeps`. -/
theorem microOpsWriteTheirResults : Obligations.MicroOpsWriteTheirResults := by
  refine ⟨?_, ?_⟩
  · intro t s k u h o ho hopc x a b c m v
    obtain ⟨hexec, hsources⟩ := laneOps_exec ho t s
    have hwrite : exec (o.1 t) s = .next (uopWrite s t.toNat k u v m) := by
      rw [hexec, uopLanes_turn h hopc, hsources]
      rfl
    refine ⟨hwrite, fun hd => ⟨_, hwrite, ?_⟩⟩
    obtain ⟨hown, hothers, hmoves⟩ := uopWrite_register s t.toNat k v m hd
    simp only [Stall.vecState, Prod.mk.injEq] at hown
    obtain ⟨hregs, hpois, -, -⟩ := hown
    refine ⟨fun i hi => ?_, ?_, fun d hne => ?_, hothers, hmoves.only⟩
    · rw [hregs, tabGet_tabSet, if_pos rfl, vecLane_vecOf _ hi]
    · rw [hpois, tabGet_tabSet, if_pos rfl]
    · rw [hregs, tabGet_tabSet, if_neg hne]
  · intro t s k u h x a i all sum
    refine ⟨fun ho => ?nop, fun ho => ?rsum, fun ho => ?lacc, fun ho => ?rmax, fun ho => ?rmin, fun ho => ?bcast,
      fun ho => ?rget, fun ho => ?lget⟩
    case nop => exact congrArg Host.Outcome.next (uopIssue_turn h ho _)
    case rsum =>
      refine ⟨_, congrArg Host.Outcome.next (uopIssue_turn h ho _), ?_⟩
      obtain ⟨hown, honly⟩ := uopDone_setStall s t.toNat { x with sacc := tabUpd (fun _ => {}) x.sacc i sum }
      simp only [Stall.vecState, Prod.mk.injEq] at hown
      obtain ⟨hregs, -, hsacc, -⟩ := hown
      exact ⟨hsacc, hregs, honly⟩
    case lacc =>
      refine ⟨_, congrArg Host.Outcome.next (uopIssue_turn h ho _), ?_⟩
      obtain ⟨hown, honly⟩ := uopDone_setStall s t.toNat { x with
        lacc := (List.range 64).foldl (fun w l => tabUpd (fun _ => {}) w l fun y =>
          laneInto y x.anchor.toInt (vecLane a.1 l) (a.2.getLsbD l)) x.lacc }
      simp only [Stall.vecState, Prod.mk.injEq] at hown
      obtain ⟨hregs, -, -, hlacc⟩ := hown
      refine ⟨fun l hl => ?_, hregs, honly⟩
      refine (congrArg (tabGet _ · l) hlacc).trans ?_
      rw [tabGet_foldl_tabUpd fun l y => laneInto y x.anchor.toInt (vecLane a.1 l) (a.2.getLsbD l), if_pos hl]
    case rmax => exact congrArg Host.Outcome.next (uopSpread_turn h ho _ _)
    case rmin => exact congrArg Host.Outcome.next (uopSpread_turn h ho _ _)
    case bcast => exact congrArg Host.Outcome.next (uopSpread_turn h ho _ _)
    case rget => exact congrArg Host.Outcome.next (uopIssue_turn h ho _)
    case lget =>
      refine ⟨_, congrArg Host.Outcome.next (uopIssue_turn h ho _), fun hd => ?_⟩
      obtain ⟨hown, -, -⟩ := uopWrite_register (s.setStall t.toNat { x with
        lacc := [], num := (List.range 64).foldl
          (fun f l => f ||| (accFinish x (tabGet (fun _ => {}) x.lacc l)).2.1) x.num }) t.toNat k
        (vecOf fun l => (accFinish x (tabGet (fun _ => {}) x.lacc l)).1)
        (maskOf fun l => (accFinish x (tabGet (fun _ => {}) x.lacc l)).2.2) hd
      simp only [Stall.vecState, Prod.mk.injEq] at hown
      obtain ⟨hregs, -, -, hlacc⟩ := hown
      refine ⟨hlacc.trans (by rw [setStall_stall, if_pos rfl]), fun l hl => ?_⟩
      refine (congrArg (fun y => vecLane (tabGet (fun _ => 0) y (uopDst u)) l) hregs).trans ?_
      rw [tabGet_tabSet, if_pos rfl, vecLane_vecOf _ hl]

end Sys2Proof.Machine

namespace Sys2Proof.Machine
open Sys2Proof

/-! ### A stall that becomes another -/

/-- An operation of stall `t` changes parts of a list, no other stall, and makes of its own the stall `y`. -/
structure StallBecomes (ps : List Part) (t : Nat) (y : Stall) (s u : State) : Prop where
  moves : Moves ps s u
  others : ∀ t', t' ≠ t → u.stall t' = s.stall t'
  own : u.stall t = y

section
variable {α : Type} {ps qs : List Part} {t : Nat} {y z : Stall} {f : Stall → α} {s u v : State}

theorem setStall_becomes (s : State) (t : Nat) (y : Stall) : StallBecomes [.stalls] t y s (s.setStall t y) where
  moves := setStall_moves s t y
  others := fun t' ht => by rw [setStall_stall, if_neg ht]
  own := by rw [setStall_stall, if_pos rfl]

theorem StallBecomes.mono (h : StallBecomes qs t y s u) (hp : covers qs ps = true) : StallBecomes ps t y s u :=
  ⟨h.moves.mono hp, h.others, h.own⟩

/-- After that, an operation that leaves a view of the stall. -/
theorem StallBecomes.keeps (h : StallBecomes ps t y s u) (h' : StallKeeps qs t f u v) (hp : covers qs ps = true) :
    Moves ps s v ∧ (∀ t', t' ≠ t → v.stall t' = s.stall t') ∧ f (v.stall t) = f y :=
  ⟨.step h'.moves hp h.moves, fun t' ht => (h'.others t' ht).trans (h.others t' ht), h'.own.trans (congrArg f h.own)⟩

theorem StallBecomes.upd (h : StallBecomes ps t y s u) (g : Stall → Stall) (hp : covers [.stalls] ps = true) :
    StallBecomes ps t (g y) s (u.updStall t g) := by
  obtain ⟨hmoves, hothers, -⟩ := h.keeps (f := fun _ => ()) (updStall_keeps (g := g) rfl) hp
  exact ⟨hmoves, hothers, by rw [updStall_own, h.own]⟩

theorem StallBecomes.set (h : StallBecomes ps t y s u) (z : Stall) (hp : covers [.stalls] ps = true) :
    StallBecomes ps t z s (u.setStall t z) := h.upd (fun _ => z) hp

/-- After that, an operation that changes no stall. -/
theorem StallBecomes.step (h : StallBecomes ps t y s u) (h' : Moves qs u v) (hq : listed .stalls qs = false)
    (hp : covers qs ps = true) : StallBecomes ps t y s v := by
  obtain ⟨hmoves, hothers, hown⟩ := h.keeps (f := id) (h'.stallKeeps hq (ps := qs) (by
    simp only [covers, List.all_eq_true, List.any_eq_true, beq_iff_eq]
    exact fun q hq => ⟨q, hq, rfl⟩)) hp
  exact ⟨hmoves, hothers, hown⟩

theorem StallBecomes.pmuStall (h : StallBecomes ps t y s u) (t' ev n : Nat) (hp : covers [.pmus] ps = true) :
    StallBecomes ps t y s (pmuStall u t' ev n) := by
  obtain ⟨hmoves, hothers, hown⟩ := h.keeps (f := id) (pmuStall_keeps u t' ev n) hp
  exact ⟨hmoves, hothers, hown⟩

theorem StallBecomes.retire (h : StallBecomes ps t y s u) (hp : covers [.stalls, .pmus] ps = true) :
    StallBecomes ps t { y with tokens := y.tokens + 1 } s (retireToken u t).1 := by
  obtain ⟨hframe, hown⟩ := retireToken_stall (t := t) u
  obtain ⟨hmoves, hothers, -⟩ := h.keeps hframe hp
  exact ⟨hmoves, hothers, by rw [hown, h.own]⟩

end

/-! ### The configuration of the stalls (R77, R112) -/

/-- What a stall is configured with. -/
def Stall.config (x : Stall) : Bool × Slot × Slot := (x.activeSlot, x.slot0, x.slot1)

section
variable {x y : Stall} (h : x.config = y.config)
include h

theorem active_of_config : x.active = y.active := by
  simp only [Stall.config, Prod.mk.injEq] at h
  obtain ⟨hslot, h0, h1⟩ := h
  simp only [Stall.active, hslot, h0, h1]

theorem shadow_of_config : x.shadow = y.shadow := by
  simp only [Stall.config, Prod.mk.injEq] at h
  obtain ⟨hslot, h0, h1⟩ := h
  simp only [Stall.shadow, hslot, h0, h1]

theorem record_of_config : x.record = y.record := congrArg Slot.record (active_of_config h)

end

/-- Every stall is configured as before, and so is every pen. -/
structure SameConfig (s u : State) : Prop where
  config : ∀ t, (u.stall t).config = (s.stall t).config
  pens : u.pens = s.pens

section
variable {ps : List Part} {t : Nat} {y : Stall} {s u : State}

theorem StallBecomes.sameConfig (h : StallBecomes ps t y s u) (hy : y.config = (s.stall t).config)
    (hp : listed .pens ps = false) : SameConfig s u where
  config := fun j => by
    by_cases hj : j = t
    · rw [hj, h.own, hy]
    · rw [h.others j hj]
  pens := h.moves.same .pens hp

variable (h : SameConfig s u)
include h

theorem SameConfig.active (t : Nat) : (u.stall t).active = (s.stall t).active := active_of_config (h.config t)
theorem SameConfig.shadow (t : Nat) : (u.stall t).shadow = (s.stall t).shadow := shadow_of_config (h.config t)
theorem SameConfig.record (t : Nat) : (u.stall t).record = (s.stall t).record := record_of_config (h.config t)
theorem SameConfig.pen (p : Nat) : u.pen p = s.pen p := congrArg (tabGet _ · p) h.pens

theorem SameConfig.penOfDie (d : Nat) : penOfDie u d = penOfDie s d := by
  simp only [Machine.penOfDie, h.pen]

theorem SameConfig.harnessOf (t : Nat) : harnessOf u t = harnessOf s t := by
  simp only [Machine.harnessOf, h.penOfDie, h.pen, h.active]

theorem SameConfig.bankRecord (t : Nat) : bankRecord u t = bankRecord s t := by
  funext bank
  simp only [Machine.bankRecord, h.active, h.shadow]

theorem SameConfig.partPorts (t : Nat) : partPorts u t = partPorts s t := by
  have hport : partPort u t = partPort s t := by
    funext p
    simp only [partPort, h.bankRecord, h.record, h.active, h.harnessOf]
  rw [Machine.partPorts, hport, Machine.partPorts]

end

/-! ### Checks before a token (R70, R78, R413) -/

/-- Taking an anchor leaves all of a stall but its input ports and its anchor. -/
theorem takeAnchor_view {α : Type} (f : Stall → α)
    (h : ∀ (x : Stall) i a o p, f { x with inp := i, anchor := a, anchorOk := o, anchorPois := p } = f x) (x : Stall) :
    f (takeAnchor x) = f x := by
  unfold takeAnchor
  extract_lets p
  split
  · exact h x x.inp _ _ _
  · split
    · rfl
    · split
      · split
        · rfl
        · exact h x _ _ _ _
      · rfl

theorem takeAnchor_config (x : Stall) : (takeAnchor x).config = x.config :=
  takeAnchor_view _ (fun _ _ _ _ _ => rfl) x

theorem takesToken_iff {s : State} {t mode : Nat} : takesToken s t mode = true ↔
    (penRuns s t = true ∨ swapGoesOn s t = true) ∧ (s.stall t).working = true ∧ fenceWaits (s.stall t) = false ∧
      recMode (s.stall t).record = mode ∧ recTakes (s.stall t).record = true := by
  simp [takesToken, and_assoc]

/-- A stall that works is in none of the states in which it does not. -/
theorem working_st {x : Stall} (h : x.working = true) :
    x.activeValid = true ∧ x.swapStep = 0 ∧ x.st ≠ .off ∧ x.st ≠ .fault ∧ x.st ≠ .failed := by
  simpa [Stall.working, and_assoc] using h

theorem injMask_unarmed {s : State} (h : s.flt.arm = none) (src chk : Nat) : injMask s src chk = 0 := by
  simp [injMask, h]

theorem injUse_unarmed {s : State} (h : s.flt.arm = none) (src chk : Nat) : injUse s src chk = s := by
  simp [injUse, h]

/-- R413: with no injection a step meets none. -/
theorem stallInjected_none {s : State} {t : Nat} (harm : s.flt.arm = none) (hinj : (s.stall t).active.inj = 0)
    (mac : Bool) : stallInjected s t mac = (s, true) := by
  cases mac <;> simp [stallInjected, hinj, injUse_unarmed harm, injMask_unarmed harm]

/-! ### A stall to which no partial sums come (R42) -/

section
variable {s : State} {t : Nat}

theorem settleParts_of_no_join (h : (s.stall t).join = none) : settleParts s t = (s, true) := by
  simp [settleParts, h]

theorem joinDone_of_no_join (h : (s.stall t).join = none) : joinDone s t = s := by
  simp [joinDone, h]

theorem mergeParts_none (hports : partPorts s t = []) (hearly : (s.stall t).early = []) :
    mergeParts s t = (s.updStall t fun x => { x with early := [] }, true) := by
  simp [mergeParts, enterEarly, hports, hearly]

theorem ownsShare_of_no_parts (h : partPorts s t = []) : ownsShare s t = false := by
  simp [ownsShare, drovePorts, h]

end

/-! ### A K step ends (R49, R53, R64) -/

/-- What the converter leaves of a stall. -/
def Stall.tokenView (x : Stall) : BitVec 48 × Tab InPort × StallState × Option Tile × Tab Acc × Nat :=
  (x.tokens, x.inp, x.st, x.join, x.win, x.tileToks)

/-- R55: a group dealt to its ports leaves what each port's new blocks leave. -/
theorem dealGroup_view {α : Type} (f : Stall → α)
    (hf : ∀ (y : Stall) n run elem c bs final k, f (y.setOut n
      { putBlocks c (droveBegins (y.outPort n) run elem) bs final with tokens := k }) = f y)
    (x : Stall) (bs : List MxBlock) (toks run elem : Nat) : f (dealGroup x bs toks run elem) = f x := by
  unfold dealGroup
  extract_lets r ports
  generalize ports.zipIdx = pns
  generalize x = y
  induction pns generalizing y with
  | nil => rfl
  | cons pn pns ih => exact (ih _).trans (hf y _ _ _ _ _ _ _)

/-- R53, R55: a tile placed leaves what a group dealt leaves, but for the converter's own parts. -/
theorem placeTile_view {α : Type} (f : Stall → α)
    (hf : ∀ (y : Stall) closed out conv num, f { y with closed := closed, out := out, conv := conv, num := num } = f y)
    (hdeal : ∀ y bs toks run elem, f (dealGroup y bs toks run elem) = f y) (x : Stall) (tile : Tile) :
    f (placeTile x tile) = f x := by
  unfold placeTile
  extract_lets r
  split
  · rfl
  · split
    · exact hf x _ _ _ _
    · split
      · exact hf x _ _ _ _
      · split
        · exact hf x _ _ _ _
        · exact (hdeal _ _ _ _ _).trans (hf x _ _ _ _)

theorem placeTile_tokenView (x : Stall) (tile : Tile) : (placeTile x tile).tokenView = x.tokenView :=
  placeTile_view _ (fun _ _ _ _ _ => rfl) (dealGroup_view _ fun _ _ _ _ _ _ _ _ => rfl) x tile

section
variable {t : Nat}

/-- A tile that is no share goes to the converter, or is dropped with its samples written. -/
theorem tileCloses_keeps (s : State) (tile : Tile) (h : tile.share = false) :
    StallKeeps [.stalls, .pmus] t Stall.tokenView s (tileCloses s t tile) := by
  unfold tileCloses
  refine .ite ((putSamples_keeps s _ _).mono rfl) ((updStall_keeps ?_).mono rfl)
  rw [h]
  exact placeTile_tokenView _ _

/-- R53, R64: the K step ends with its generators advanced; a tile that it completes closes. -/
theorem macAdvance_ends {x : Stall} {s u : State} (h : StallBecomes [.stalls, .pmus] t x s u) (hjoin : x.join = none)
    (rowN colN : Nat) (sample : Option SamplePend) :
    let v := macAdvance u t rowN colN sample false false
    Moves [.stalls, .pmus] s v ∧ (∀ t', t' ≠ t → v.stall t' = s.stall t') ∧ (v.stall t).tokenView =
      (x.tokens, x.inp, .run, none, if agCompletes x.record 0 x.ag0 rowN (recTileLevel x.record) then ([], 0)
        else (x.win, x.tileToks + 1)) := by
  intro v
  have hv : v = macAdvance u t rowN colN sample false false := rfl
  unfold macAdvance at hv
  rw [h.own] at hv
  extract_lets x' r samples y tile z s1 at hv
  clear_value v
  by_cases hc : agCompletes r 0 x.ag0 rowN (recTileLevel r) = true
  · have hclose : StallKeeps [.stalls, .pmus] t Stall.tokenView s1 (tileCloses s1 t tile) := tileCloses_keeps s1 tile rfl
    obtain ⟨hmoves, hothers, hown⟩ := (h.set { z with runTile := if z.pass = x.pass then x.runTile + 1 else 0 } rfl).keeps
      hclose rfl
    have hview : ((tileCloses s1 t tile).stall t).tokenView = (x.tokens, x.inp, .run, none, [], 0) := by
      rw [hown, ← hjoin]
      rfl
    rw [if_pos hc] at hv ⊢
    rw [hv, show closeTile s1 t false tile = tileCloses s1 t tile from rfl,
      settleParts_of_no_join (congrArg (·.2.2.2.1) hview)]
    exact ⟨hmoves, hothers, hview⟩
  · have hset := h.set (advanceAg0 y rowN) rfl
    rw [if_neg hc] at hv ⊢
    rw [hv]
    refine ⟨hset.moves, hset.others, ?_⟩
    rw [hset.own, ← hjoin]
    rfl

end
end Sys2Proof.Machine

namespace Sys2Proof.Machine
open Sys2Proof

/-! ### MAC_TOKEN (R50) -/

theorem inPort_of_inp {x y : Stall} (h : x.inp = y.inp) (j : Nat) : x.inPort j = y.inPort j := by
  simp only [Stall.inPort, h]

/-- The operands at two input ports are taken from there. -/
theorem gather_port {s : State} {t src c n : Nat} {p : InPort} {bs : List OpBlk} (hsrc : src < 4)
    (h : takeBlocks c n ((s.stall t).inPort src) = some (p, bs)) (hn : Harness) (r : BitVec 4096) (g a pass : Nat) :
    gather s t hn r src g a pass c n = ⟨s, some p, bs, .ok, 0⟩ := by
  simp [gather, hsrc, h]

/-- A K step whose operands came from two ports, with no partial sums to come: `u` the state before them, `w` the state
with the rows taken. -/
theorem macWith_ends {x : Stall} {s u w : State} {t waits : Nat} {p q : InPort} {rows cols : List OpBlk}
    (h : StallBecomes [.stalls, .pmus] t x s u)
    (hw : StallBecomes [.stalls, .pmus] t (x.setIn (recRowSrc x.record) p) s w) (hparts : partPorts u t = [])
    (hst : x.st ≠ .fault) (hjoin : x.join = none) (hanchor : x.anchorPois = false)
    (hclean : ∀ b ∈ rows ++ cols, b.poison = false) :
    let v := macWith u t ⟨u, some p, rows, .ok, 0⟩ ⟨w, some q, cols, .ok, 0⟩ waits
    let r := x.record
    let rowN := opLines (recRowFmt r) (tileShape r).1
    let y := (x.setIn (recRowSrc r) p).setIn (recColSrc r) q
    Moves [.stalls, .pmus] s v ∧ (∀ t', t' ≠ t → v.stall t' = s.stall t') ∧ (v.stall t).tokenView =
      (x.tokens + 1, y.inp, .run, none, if agCompletes r 0 x.ag0 rowN (recTileLevel r) then ([], 0)
        else (macStep (fmtMx (recRowFmt r)) x.anchor.toInt false rows cols x.win, x.tileToks + 1)) := by
  intro v r rowN y
  have hv : v = macWith u t ⟨u, some p, rows, .ok, 0⟩ ⟨w, some q, cols, .ok, 0⟩ waits := rfl
  clear_value v
  unfold macWith at hv
  rw [h.own, hparts, ownsShare_of_no_parts hparts] at hv
  extract_lets x0 r' sh first rowN' colN wt parts share pois fresh win s1 s2 s3 num q' s4 sample at hv
  have hpois : pois = false := by
    have hblocks : (rows ++ cols).any (·.poison) = false :=
      List.any_eq_false.mpr fun b hb => by simp [hclean b hb]
    simp [pois, x0, hanchor, hblocks]
  have h1 : StallBecomes [.stalls, .pmus] t { y with win := win, waits := satAdd 32 x.waits wt } s s1 :=
    hw.upd (fun z => { z.setIn (recColSrc r) q with win := win, waits := satAdd 32 z.waits wt }) rfl
  have h3 : StallBecomes [.stalls, .pmus] t { y with win := win, waits := satAdd 32 x.waits wt } s s3 := by
    have hs3 : s3 = s2 := if_neg (by simp [fresh, hpois])
    rw [hs3]
    exact h1.pmuStall _ _ _ rfl
  have h4 : StallBecomes [.stalls, .pmus] t
      { y with win := win, waits := satAdd 32 x.waits wt, tokens := x.tokens + 1 } s s4 :=
    (h3.retire rfl).pmuStall _ _ _ rfl
  rw [if_neg (by rw [h3.own]; exact hst)] at hv
  have hwin : win = macStep (fmtMx (recRowFmt r)) x.anchor.toInt false rows cols x.win := by
    rw [← hanchor]
  rw [hv, ← hwin]
  exact macAdvance_ends h4 hjoin rowN' colN sample

/-- The operands of a K step at two input ports are there, and the step is taken. -/
theorem macGather_ports {x : Stall} {s u : State} {t waits : Nat} {p q : InPort} {rows cols : List OpBlk}
    (h : StallBecomes [.stalls, .pmus] t x s u) (harm : s.flt.arm = none) (hinj : x.active.inj = 0)
    (hrow : recRowSrc x.record < 4) (hcol : recColSrc x.record < 4) (hne : recRowSrc x.record ≠ recColSrc x.record)
    (hrows : takeBlocks (recRowFmt x.record) (tileShape x.record).1 (x.inPort (recRowSrc x.record)) = some (p, rows))
    (hcols : takeBlocks (recColFmt x.record) (tileShape x.record).2 (x.inPort (recColSrc x.record)) = some (q, cols)) :
    let w := u.updStall t fun y => y.setIn (recRowSrc x.record) p
    macGather u t waits = macWith u t ⟨u, some p, rows, .ok, 0⟩ ⟨w, some q, cols, .ok, 0⟩ waits := by
  intro w
  have hw := h.upd (fun y => y.setIn (recRowSrc x.record) p) rfl
  have hwcol : takeBlocks (recColFmt x.record) (tileShape x.record).2 ((w.stall t).inPort (recColSrc x.record)) =
      some (q, cols) := by
    rw [hw.own, setIn_inPort, if_neg hne.symm, hcols]
  have hinjected : stallInjected w t true = (w, true) :=
    stallInjected_none ((congrArg Flt.arm (hw.moves.same .flt rfl)).trans harm) (by rw [hw.own]; exact hinj) true
  unfold macGather
  rw [h.own]
  extract_lets x0 r hn sh a sa b i
  have ha : a = ⟨u, some p, rows, .ok, 0⟩ := gather_port hrow (by rw [h.own]; exact hrows) _ _ _ _ _
  have hsa : sa = w := by simp only [sa, ha]; rfl
  have hb : b = ⟨w, some q, cols, .ok, 0⟩ := by
    simp only [b, hsa]
    exact gather_port hcol hwcol _ _ _ _ _
  have hi : i = (w, true) := by simp only [i, hb, hinjected]
  rw [ha, hb, hi]
  rfl

/-- A MAC stall past its checks, with the blocks of a K step at two input ports. -/
theorem macToken_ends {s : State} {t waits : Nat} {p q : InPort} {rows cols : List OpBlk} (harm : s.flt.arm = none)
    (hinj : (s.stall t).active.inj = 0) (hjoin : (s.stall t).join = none) (hclosed : (s.stall t).closed = none)
    (hports : partPorts s t = []) (hearly : (s.stall t).early = []) (hst : (s.stall t).st ≠ .fault) :
    let x := takeAnchor (s.stall t)
    let r := x.record
    let rowN := opLines (recRowFmt r) (tileShape r).1
    let y := (x.setIn (recRowSrc r) p).setIn (recColSrc r) q
    let v := macToken s t waits
    x.anchorOk = true → recRowSrc r < 4 → recColSrc r < 4 → recRowSrc r ≠ recColSrc r →
    takeBlocks (recRowFmt r) (tileShape r).1 (x.inPort (recRowSrc r)) = some (p, rows) →
    takeBlocks (recColFmt r) (tileShape r).2 (x.inPort (recColSrc r)) = some (q, cols) →
    x.anchorPois = false → (∀ b ∈ rows ++ cols, b.poison = false) →
    Moves [.stalls, .pmus] s v ∧ (∀ t', t' ≠ t → v.stall t' = s.stall t') ∧ (v.stall t).tokenView =
      (x.tokens + 1, y.inp, .run, none, if agCompletes r 0 x.ag0 rowN (recTileLevel r) then ([], 0)
        else (macStep (fmtMx (recRowFmt r)) x.anchor.toInt false rows cols x.win, x.tileToks + 1)) := by
  intro x r rowN y v hok hrow hcol hne hrows hcols hpois hclean
  have hview : (x.config, x.join, x.closed, x.early, x.st) = _ :=
    takeAnchor_view (fun x : Stall => (x.config, x.join, x.closed, x.early, x.st)) (fun _ _ _ _ _ => rfl) (s.stall t)
  simp only [Prod.mk.injEq] at hview
  obtain ⟨hxcfg, hxjoin, hxclosed, hxearly, hxst⟩ := hview
  rw [hjoin] at hxjoin
  rw [hclosed] at hxclosed
  rw [hearly] at hxearly
  have h1 : StallBecomes [.stalls, .pmus] t x s (s.updStall t takeAnchor) := (setStall_becomes s t x).mono rfl
  have h2 : StallBecomes [.stalls, .pmus] t x s ((s.updStall t takeAnchor).updStall t fun y => { y with early := [] }) := by
    have hx : { x with early := [] } = x := by rw [← hxearly]
    exact hx ▸ h1.upd (fun y => { y with early := [] }) rfl
  have hmerge := mergeParts_none (((h1.sameConfig hxcfg rfl).partPorts t).trans hports) (by rw [h1.own, hxearly])
  have hv : v = macGather ((s.updStall t takeAnchor).updStall t fun y => { y with early := [] }) t waits := by
    have hsettle : settleParts s t = (s, true) := settleParts_of_no_join hjoin
    simp only [v, macToken, stallInjected_none harm hinj, hsettle, Bool.not_true, Bool.false_eq_true, if_false]
    rw [if_neg (by rw [h1.own, hok]; decide), macParts, hmerge]
    dsimp only
    rw [if_neg (by decide), joinDone_of_no_join (by rw [h2.own, hxjoin]), if_neg (by rw [h2.own, hxjoin]; decide),
      if_neg (by rw [h2.own, hxclosed]; decide)]
  have hw := h2.upd (fun y => y.setIn (recRowSrc r) p) rfl
  rw [hv, macGather_ports h2 harm (by rw [active_of_config hxcfg, hinj]) hrow hcol hne hrows hcols]
  exact macWith_ends h2 hw (((h2.sameConfig hxcfg rfl).partPorts t).trans hports) (hxst.trans_ne hst) hxjoin hpois hclean

/-- Settles O8: the token's checks pass, its operands come from two ports (`macGather_ports`), and the K step adds them
and ends (`macWith_ends`, `macAdvance_ends`). -/
theorem macTokenAccumulates : Obligations.MacTokenAccumulates := by
  intro t waits s p q rows cols n x r sh htakes hclosed hjoin hports hearly hok hinj hrow hcol hne hrows hcols hpois hclean
  obtain ⟨harm, hactive⟩ := hinj
  obtain ⟨-, hworks, -, -, -⟩ := takesToken_iff.mp htakes
  obtain ⟨-, -, -, hfault, -⟩ := working_st hworks
  obtain ⟨hmoves, hothers, hview⟩ := macToken_ends (waits := waits) harm hactive hjoin hclosed hports hearly hfault hok
    hrow hcol hne hrows hcols hpois hclean
  refine ⟨macToken s n waits, congrArg Host.Outcome.next ?_, ?_⟩
  · rw [if_neg (by simpa using htakes), if_neg (by simpa using hclosed)]
    rfl
  simp only [Stall.tokenView, Prod.mk.injEq] at hview
  obtain ⟨htokens, hinp, hst, -, htile⟩ := hview
  refine ⟨htokens, ?_, ?_, hst, ?_, hothers, hmoves.only⟩
  · rw [inPort_of_inp hinp, setIn_inPort, if_neg hne, setIn_inPort, if_pos rfl]
  · rw [inPort_of_inp hinp, setIn_inPort, if_pos rfl]
  · split_ifs at htile ⊢ <;> exact Prod.mk.inj htile

end Sys2Proof.Machine

namespace Sys2Proof.Machine
open Sys2Proof

/-! ### VEC_TOKEN (R71, R74) -/

/-- The lines that the ports of a list give to a token. -/
def vecLinesOf (r : BitVec 4096) (x : Stall) (ps : List Nat) : List (Nat × List TLine) :=
  ps.map fun p => (p, (vecAvail r x p).getD [])

/-- The ports of a list with the lines they gave taken off their FIFOs. -/
def takenOff (ls : List (Nat × List TLine)) (y : Stall) : Stall :=
  ls.foldl (fun w e => w.setIn e.1 { w.inPort e.1 with fifo := (w.inPort e.1).fifo.drop e.2.length }) y

section
variable {r : BitVec 4096} {x : Stall} {ps : List Nat}

/-- What the ports of a list have, where each has its vector. -/
theorem filterMap_vecAvail (h : ∀ p ∈ ps, (vecAvail r x p).isSome = true) :
    ((ps.map fun p => (p, vecAvail r x p)).filterMap fun e => e.2.map fun l => (e.1, l)) = vecLinesOf r x ps := by
  rw [List.filterMap_map, vecLinesOf, ← List.filterMap_eq_map]
  refine List.filterMap_congr fun p hp => ?_
  obtain ⟨ls, hls⟩ := Option.isSome_iff_exists.mp (h p hp)
  simp [hls]

theorem vecAvail_length {p : Nat} (h : (vecAvail r x p).isSome = true) :
    ((vecAvail r x p).getD []).length = vecLines r p := by
  obtain ⟨ls, hls⟩ := Option.isSome_iff_exists.mp h
  rw [hls, Option.getD_some]
  unfold vecAvail at hls
  extract_lets l at hls
  by_cases hl : l.length = vecLines r p
  · rw [if_pos hl] at hls
    exact Option.some.inj hls ▸ hl
  · rw [if_neg hl] at hls
    cases hls

theorem find_vecLinesOf {p : Nat} (hp : p ∈ ps) :
    (((vecLinesOf r x ps).find? fun e => e.1 = p).map (·.2)).getD [] = (vecAvail r x p).getD [] := by
  unfold vecLinesOf
  induction ps with
  | nil => cases hp
  | cons q ps ih =>
    by_cases hq : q = p
    · subst hq; simp
    · simpa [List.find?_cons, hq] using ih ((List.mem_cons.mp hp).resolve_left (Ne.symm hq))

/-- Taking lines off the ports leaves the rest of the stall. -/
theorem takenOff_view {α : Type} (f : Stall → α) (h : ∀ (x : Stall) i, f { x with inp := i } = f x)
    (ls : List (Nat × List TLine)) (y : Stall) : f (takenOff ls y) = f y := by
  unfold takenOff
  induction ls generalizing y with
  | nil => rfl
  | cons e ls ih => exact (ih _).trans (h y _)

/-- Each port of a list without repetition loses the lines it gave. -/
theorem takenOff_fifo (hps : ps.Nodup) (y : Stall) (q : Nat) :
    ((takenOff (vecLinesOf r x ps) y).inPort q).fifo =
      if q ∈ ps then (y.inPort q).fifo.drop ((vecAvail r x q).getD []).length else (y.inPort q).fifo := by
  induction ps generalizing y with
  | nil => rfl
  | cons p ps ih =>
    obtain ⟨hp, hps⟩ := List.nodup_cons.mp hps
    refine (ih hps _).trans ?_
    by_cases hq : q = p
    · subst hq; simp [hp]
    · simp [hq]

theorem vecPorts_nodup (s : State) (t : Nat) : (vecPorts s t).Nodup := List.nodup_range.filter _

theorem vecPorts_lt {s : State} {t p : Nat} (h : p ∈ vecPorts s t) : p < 4 :=
  List.mem_range.mp (List.mem_filter.mp h).1

end

section
variable {s : State} {t : Nat}

/-- R71, R74: a stall with sound vectors at its ports, and no generator to read, takes them as one token. -/
theorem vecGather_takes
    (hports : ∀ p ∈ vecPorts s t, (vecAvail (s.stall t).record (s.stall t) p).isSome = true ∧
      ∀ l ∈ (vecAvail (s.stall t).record (s.stall t) p).getD [], l.poison = false)
    (hreads : recReads (s.stall t).record 0x1C = false)
    (hanchor : ((s.stall t).anchorPois && usesAnchor (s.stall t).record) = false) :
    let x := s.stall t
    let ls := vecLinesOf x.record x (vecPorts s t)
    ∃ k : VecTok, vecGather s t
        = s.updStall t (fun y => { advanceAg0 (takenOff ls y) 1 with vtok := some k, st := .run }) ∧
      k.uop = 0 ∧ k.outPois = false ∧ ∀ p ∈ vecPorts s t,
        k.ins[p]? = some (widen (vecFmt x.record p) (linesNat (((vecAvail x.record x p).getD []).map (·.data)))) := by
  intro x ls
  have hnone : ((vecPorts s t).map fun p => (p, vecAvail x.record x p)).any (·.2.isNone) = false := by
    rw [List.any_map, List.any_eq_false]
    intro p hp
    obtain ⟨l, hl⟩ := Option.isSome_iff_exists.mp (hports p hp).1
    simp [x, hl]
  have hgather : vecGather s t = vecWith s t ls [] false := by
    unfold vecGather
    dsimp only
    rw [if_neg (by rw [hnone]; decide), filterMap_vecAvail fun p hp => (hports p hp).1,
      if_pos (by rw [hreads]; decide)]
  have hclean : ls.any (fun e => e.2.any (·.poison)) = false := by
    rw [show ls = vecLinesOf x.record x (vecPorts s t) from rfl, vecLinesOf, List.any_map, List.any_eq_false]
    intro p hp
    simpa [x, List.any_eq_false] using (hports p hp).2
  rw [hgather]
  unfold vecWith
  extract_lets r lines first pois tok s1 s2
  have hpois : pois = false := by simp [pois, hclean, r, x, hanchor]
  have hs2 : s2 = s1 := if_neg (by rw [hreads]; decide)
  refine ⟨tok, ?_, rfl, rfl, fun p hp => ?_⟩
  · rw [if_neg (by decide), hpois, if_neg (by decide), hs2]
    simp only [s1, r, x, hreads, Bool.false_eq_true, if_false]
    rfl
  · have hlines : lines p = (vecAvail x.record x p).getD [] := find_vecLinesOf hp
    simp only [tok, List.getElem?_map, List.getElem?_range (vecPorts_lt hp), Option.map_some, hlines]
    rfl

end

/-- Settles O9: the token's checks pass and its anchor is there, so the vectors at its ports become the token
(`vecGather_takes`), and each port loses its lines (`takenOff_fifo`). -/
theorem vecTokenTakesItsVectors : Obligations.VecTokenTakesItsVectors := by
  intro t s n x r s1 htakes hvtok hok hinj hreads hports hanchor
  obtain ⟨harm, hactive⟩ := hinj
  have h1 : StallBecomes [.stalls] n x s s1 := setStall_becomes s n x
  obtain ⟨k, hgather, huop, hpois, hins⟩ := vecGather_takes (s := s1) (t := n) (by rw [h1.own]; exact hports)
    (by rw [h1.own]; exact hreads) (by rw [h1.own]; exact hanchor)
  rw [h1.own] at hgather hins
  have hguard : (!takesToken s n 1 || (s.stall n).vtok.isSome) = false := by rw [htakes, hvtok]; rfl
  have hexec : exec (.vecToken t .clean) s = .next (vecGather s1 n) := by
    refine congrArg Host.Outcome.next ((if_neg (Bool.eq_false_iff.mp hguard)).trans ?_)
    show vecToken s n = _
    simp only [vecToken, stallInjected_none harm hactive, Bool.not_true, Bool.false_eq_true, if_false]
    exact if_neg (by rw [updStall_own, hok]; decide)
  let y := { advanceAg0 (takenOff (vecLinesOf r x (vecPorts s1 n)) x) 1 with vtok := some k, st := .run }
  have h2 : StallBecomes [.stalls] n y s (vecGather s1 n) := by
    rw [hgather]
    exact h1.upd (fun y => { advanceAg0 (takenOff (vecLinesOf r x (vecPorts s1 n)) y) 1 with
      vtok := some k, st := .run }) rfl
  refine ⟨_, hexec, ?_⟩
  dsimp only
  rw [h2.own]
  refine ⟨rfl, takenOff_view Stall.tokens (fun _ _ => rfl) _ _, ⟨k, rfl, huop, hpois, hins⟩, fun p => ?_, h2.others,
    h2.moves.only⟩
  have hfifo := takenOff_fifo (r := r) (x := x) (vecPorts_nodup s1 n) x p
  by_cases hp : p ∈ vecPorts s1 n
  · rw [if_pos hp, vecAvail_length (hports p hp).1] at hfifo
    rw [if_pos hp]
    exact hfifo
  · rw [if_neg hp] at hfifo ⊢
    exact hfifo

end Sys2Proof.Machine

namespace Sys2Proof.Machine
open Sys2Proof

/-! ### Lines that reach an input port (R65, R68, R78) -/

section
variable {s : State} {t p : Nat} {l : TLine}

/-- R65: a line, and no fence that an earlier swap has answered, joins the port's FIFO. -/
theorem portAccept_joins (htag : l.tag ≠ 0) (hfence : l.fence = false ∨ ((s.stall t).inPort p).owed = 0) :
    let x := s.stall t
    portAccept s t p l = s.setStall t (x.setIn p { x.inPort p with fifo := (x.inPort p).fifo ++ [l] }) := by
  refine (if_neg htag).trans (congrArg (s.setStall t) ?_)
  exact if_neg (by rcases hfence with h | h <;> simp [h])

/-- R68: an idle line is discarded. -/
theorem portAccept_idle (htag : l.tag = 0) : portAccept s t p l = pmuStall s t evIdleLines 1 := if_pos htag

/-- A line taken or discarded leaves the stall but for its input ports. -/
theorem portAccept_keeps {α : Type} (f : Stall → α) (h : ∀ (x : Stall) i, f { x with inp := i } = f x) (s : State)
    (t p : Nat) (l : TLine) : StallKeeps [.stalls, .pmus] t f s (portAccept s t p l) := by
  unfold portAccept
  refine .ite ((pmuStall_keeps s _ _ _).mono rfl) ((updStall_keeps ?_).mono rfl)
  dsimp only
  split
  · exact h _ _
  · exact h _ _

end

section
variable {t : StallId} {port : PortId} {s : State} {m : StrLine} {rest : List StrLine}

/-- R65: the oldest line on its way to a port with room arrives. -/
theorem inputLine_arrives (hroom : portRoom (s.stall t.toNat) port.toNat = true)
    (hpop : popFirst (fun (m : StrLine) => !m.toSink && decide (m.t = t) && decide (m.port = port)) s.strq
      = some (m, rest)) :
    exec (.inputLine t port) s = .next (settleParts (portAccept { s with strq := rest } t.toNat port.toNat
      { m.line with at_ := s.time }) t.toNat).1 := by
  refine congrArg Host.Outcome.next ((if_neg (by rw [hroom]; decide)).trans ?_)
  simp only [hpop]

end

/-! ### Anchor lines (R70) -/

/-- The line that an anchor message brings. -/
def anchorTLine (s : State) (m : AnchorMsg) : TLine :=
  { data := m.anchor.setWidth 512, tag := 0xFF, poison := m.poison, at_ := s.time }

/-- The stall with an anchor's line at its ANCHOR_PORT. -/
def anchorStaged (s : State) (m : AnchorMsg) (x : Stall) : Stall :=
  let p := recAnchorPort x.record
  x.setIn p { x.inPort p with fifo := (x.inPort p).fifo ++ [anchorTLine s m] }

/-- R70: the oldest anchor line arrives at ANCHOR_PORT; a stall that waits for one starts. -/
theorem anchorLine_arrives {t : StallId} {s : State} {m : AnchorMsg} {rest : List AnchorMsg}
    (hpop : popFirst (fun (m : AnchorMsg) => decide (m.t = t)) s.anchors = some (m, rest))
    (hroom : portRoom (s.stall t.toNat) (recAnchorPort (s.stall t.toNat).record) = true) :
    exec (.anchorLine t) s = .next
      (if (s.stall t.toNat).st = .waitAnchor then
        (({ s with anchors := rest } : State).setStall t.toNat (anchorStaged s m (s.stall t.toNat))).updStall t.toNat
          fun y => { takeAnchor y with st := if (takeAnchor y).anchorOk then .run else .waitAnchor }
      else ({ s with anchors := rest } : State).setStall t.toNat (anchorStaged s m (s.stall t.toNat))) := by
  have hjoins : portAccept { s with anchors := rest } t.toNat (recAnchorPort (s.stall t.toNat).record) (anchorTLine s m)
      = ({ s with anchors := rest } : State).setStall t.toNat (anchorStaged s m (s.stall t.toNat)) :=
    portAccept_joins (show (0xFF : BitVec 8) ≠ 0 by decide) (.inl rfl)
  refine congrArg Host.Outcome.next ?_
  simp only [hpop]
  refine (if_neg (by rw [hroom]; decide)).trans ?_
  rw [← hjoins]
  rfl

/-- R70: a stall with an AUTO anchor, none yet, and an anchor line alone at ANCHOR_PORT takes it. -/
theorem takeAnchor_line {x : Stall} {l : TLine} {rest : List TLine} (hauto : recAuto x.record = true)
    (hnone : x.anchorOk = false) (hfifo : (x.inPort (recAnchorPort x.record)).fifo = l :: rest)
    (hfence : l.fence = false) :
    (takeAnchor x).anchor = l.data.setWidth 16 ∧ (takeAnchor x).anchorPois = l.poison ∧
      (takeAnchor x).anchorOk = true := by
  simp [takeAnchor, hauto, hnone, hfifo, hfence]

theorem stall_of_stalls {s u : State} (h : u.stalls = s.stalls) (t : Nat) : u.stall t = s.stall t := by
  simp only [State.stall, h]

/-! ### A consumer endpoint's read (R135, R137) -/

/-- A line of a chute has been read: RP has passed it; the chute's other committed and open lines, and every other
chute, are as before. -/
structure EndpointRead (c : Nat) (s u : State) : Prop where
  rp : (u.chute c).rp = (s.chute c).adv (s.chute c).rp 1
  wp : (u.chute c).wp = (s.chute c).wp
  cp : (u.chute c).cp = (s.chute c).cp
  others : ∀ c', c' ≠ c → u.chute c' = s.chute c'

section
variable {s u v : State} {c : Nat}

/-- An operation that leaves the chutes. -/
theorem EndpointRead.step {ps : List Part} (h : EndpointRead c s u) (h' : Moves ps u v) (hp : listed .chutes ps = false) :
    EndpointRead c s v where
  rp := (congrArg Chute.rp (h'.chute c hp)).trans h.rp
  wp := (congrArg Chute.wp (h'.chute c hp)).trans h.wp
  cp := (congrArg Chute.cp (h'.chute c hp)).trans h.cp
  others := fun k hk => (h'.chute k hp).trans (h.others k hk)

/-- RELEASE leaves RP and the pointers of the producer. -/
theorem EndpointRead.release (h : EndpointRead c s u) : EndpointRead c s (changeChute u c releaseChute) := by
  have hmarks := changeChute_marksOf (s := u) (c := c) releaseChute
  obtain ⟨_, _, _, _, _, hx⟩ := hmarks.same
  rw [setChute_chute, if_pos rfl] at hx
  exact ⟨by rw [hx]; exact h.rp, by rw [hx]; exact h.wp, by rw [hx]; exact h.cp, fun k hk => by
    rw [hmarks.others k hk, setChute_chute, if_neg hk, h.others k hk]⟩

/-- R135: a committed line of a stack chute, in reach, is read. -/
theorem chuteRead_stack (hst : (s.chute c).st ≠ .disabled) (hready : (s.chute c).ready ≠ 0)
    (hstack : (s.chute c).stack = true)
    (hwait : chuteLineWaits s c ((s.chute c).rp.toNat % (s.chute c).size) = false) :
    EndpointRead c s (chuteRead s c).st ∧ (chuteRead s c).st.stalls = s.stalls ∧ (chuteRead s c).uc = false := by
  have hread : chuteRead s c =
      let x := s.chute c
      let idx := x.rp.toNat % x.size
      let r := readLine (lineTaken s c) (x.base.toNat + idx * 64) 0
      ⟨r.st, { data := r.line, tag := tabGet (fun _ => 0) x.tags idx, poison := r.poison, at_ := x.commitTime,
               chute := true }, false⟩ :=
    (if_neg (by simp [hst, hready, hwait])).trans (if_pos hstack)
  have hmoves : Moves soundReadParts (lineTaken s c) (chuteRead s c).st := by
    rw [hread]
    exact chuteRead_mk_moves (readLine_noErrors_moves _ _) _ _
  have htaken : EndpointRead c s (lineTaken s c) := by
    refine ⟨?_, ?_, ?_, fun k hk => by rw [lineTaken_chute, if_neg hk]⟩ <;> rw [lineTaken_chute, if_pos rfl] <;> rfl
  exact ⟨htaken.step hmoves rfl, (hmoves.same .stalls rfl).trans (lineTaken_moves.same .stalls rfl), by rw [hread]⟩

/-- R136: the chute as its first line is marked. -/
theorem chuteRead_marked (hst : (s.chute c).st ≠ .disabled) (hready : (s.chute c).ready ≠ 0)
    (hstack : (s.chute c).stack = true)
    (hwait : chuteLineWaits s c ((s.chute c).rp.toNat % (s.chute c).size) = false) :
    let u := s.setChute c (markChute (s.chute c))
    EndpointRead c s (chuteRead u c).st ∧ (chuteRead u c).st.stalls = s.stalls ∧ (chuteRead u c).uc = false := by
  intro u
  have hu : u.chute c = markChute (s.chute c) := by rw [setChute_chute, if_pos rfl]
  have hwaits : chuteLineWaits u c ((u.chute c).rp.toNat % (u.chute c).size) = false := by
    rw [← hwait, chuteLineWaits, hu]
    rfl
  obtain ⟨hline, hstalls, huc⟩ := chuteRead_stack (s := u) (c := c) (by rw [hu]; exact hst) (by rw [hu]; exact hready)
    (by rw [hu]; exact hstack) hwaits
  refine ⟨⟨?_, ?_, ?_, fun k hk => ?_⟩, hstalls, huc⟩
  · rw [hline.rp, hu]; rfl
  · rw [hline.wp, hu]; rfl
  · rw [hline.cp, hu]; rfl
  · rw [hline.others k hk, setChute_chute, if_neg hk]

/-- R135, R137: a working stall's endpoint with room reads the line at RP of its stack chute. -/
theorem consumerRead_reads {t : StallId} {port : PortId} {c : ChuteId} {chk : StallCheck}
    (hcons : (s.chute c.toNat).consumer = .stall t port) (hruns : penRuns s t.toNat = true)
    (hworks : (s.stall t.toNat).working = true) (hjoin : (s.stall t.toNat).join = none)
    (hroom : portRoom (s.stall t.toNat) port.toNat = true) (hready : (s.chute c.toNat).ready ≠ 0)
    (hst : (s.chute c.toNat).st ≠ .disabled) (hstack : (s.chute c.toNat).stack = true)
    (hwait : chuteLineWaits s c.toNat ((s.chute c.toNat).rp.toNat % (s.chute c.toNat).size) = false) :
    ∃ u, exec (.consumerRead c chk) s = .next u ∧ EndpointRead c.toNat s u := by
  obtain ⟨hvalid, hswap, hoff, hfault, hfailed⟩ := working_st hworks
  have hreads : endpointReads s t.toNat port.toNat = true := by
    simp [endpointReads, hruns, hvalid, hswap, hoff, hfault, hfailed]
  have hguard : (!endpointReads s t.toNat port.toNat || !portRoom (s.stall t.toNat) port.toNat) = false := by
    rw [hreads, hroom]; rfl
  let x := s.chute c.toNat
  let here := x.ready ≠ 0 && x.st ≠ .disabled
  let s0 := if here && tagFirst (tabGet (fun _ => 0) x.tags (x.rp.toNat % x.size)) then
    s.setChute c.toNat (markChute x) else s
  let r := chuteRead s0 c.toNat
  have hr : EndpointRead c.toNat s r.st ∧ r.st.stalls = s.stalls ∧ r.uc = false := by
    by_cases hfirst : (here && tagFirst (tabGet (fun _ => 0) x.tags (x.rp.toNat % x.size))) = true
    · have hs0 : s0 = s.setChute c.toNat (markChute x) := if_pos hfirst
      simp only [r, hs0]
      exact chuteRead_marked hst hready hstack hwait
    · have hs0 : s0 = s := if_neg hfirst
      simp only [r, hs0]
      exact chuteRead_stack hst hready hstack hwait
  obtain ⟨hline, hstalls, huc⟩ := hr
  let s1 := if here && tagLast r.line.tag then changeChute r.st c.toNat releaseChute else r.st
  have h1 : EndpointRead c.toNat s s1 ∧ s1.stalls = s.stalls := by
    by_cases hlast : (here && tagLast r.line.tag) = true
    · have hs1 : s1 = changeChute r.st c.toNat releaseChute := if_pos hlast
      rw [hs1]
      exact ⟨hline.release, ((changeChute_moves r.st c.toNat releaseChute).same .stalls rfl).trans hstalls⟩
    · have hs1 : s1 = r.st := if_neg hlast
      rw [hs1]
      exact ⟨hline, hstalls⟩
  obtain ⟨hread1, hstalls1⟩ := h1
  have hexec : exec (.consumerRead c chk) s = .next
      (if dropsHeader (s.stall t.toNat) port.toNat r.line && !partPort s t.toNat port.toNat then s1
        else (settleParts (portAccept s1 t.toNat port.toNat r.line) t.toNat).1) := by
    refine congrArg Host.Outcome.next ?_
    simp only [hcons]
    refine (if_neg (Bool.eq_false_iff.mp hguard)).trans ?_
    have hclean (k : StallCheck) : endpointChecks x k = .clean := if_pos hstack
    show withChecks r.st t.toNat (endpointChecks x (if here then chk else .clean)) id _ = _
    rw [hclean]
    exact if_neg (by rw [huc]; decide)
  refine ⟨_, hexec, ?_⟩
  by_cases hdrops : (dropsHeader (s.stall t.toNat) port.toNat r.line && !partPort s t.toNat port.toNat) = true
  · rw [if_pos hdrops]
    exact hread1
  · have hkeeps := portAccept_keeps Stall.join (fun _ _ => rfl) s1 t.toNat port.toNat r.line
    have hjoin1 : (s1.stall t.toNat).join = none :=
      (congrArg Stall.join (stall_of_stalls hstalls1 t.toNat)).trans hjoin
    rw [if_neg hdrops, settleParts_of_no_join (hkeeps.own.trans hjoin1)]
    exact hread1.step hkeeps.moves rfl

end

/-! ### Output lines (R65, R66, R69, R96) -/

/-- R94: where an output port leads depends on the configuration, the chutes and the device's number. -/
theorem SameConfig.outDst {s u : State} (h : SameConfig s u) (hchutes : u.chutes = s.chutes) (htack : u.tack = s.tack)
    (t n : Nat) : outDst u t n = outDst s t n := by
  have hbind (p : Nat) (b : Binding) : bindAddr u p b = bindAddr s p b := by
    simp only [bindAddr, penChutes, myDev, hchutes, htack]
  simp only [Machine.outDst, h.record, h.harnessOf, h.penOfDie, hbind]

section
variable {s : State} {t n : Nat} {rs : List Route} (hdst : outDst s t n = .stream rs)
include hdst

theorem droveOut_stream : droveOut s t n = none := by
  simp [droveOut, remotePort, hdst]

theorem portSends_stream (hcredits : 0 < ((s.stall t).outPort n).credits) : portSends s t n = true := by
  simp [portSends, portReady, hdst, hcredits]

/-- R65, R96: a line leaves by a STREAM route to each of its destinations, and spends a credit. -/
theorem sendOut_stream (ol : OutLine) (first : Bool) (drove : Option Nat) :
    let o := (s.stall t).outPort n
    sendOut s t n ol first drove =
      { s.setStall t ((s.stall t).setOut n { o with credits := o.credits - 1, opened := !ol.last }) with
        strq := s.strq ++ rs.map (fun r =>
          { toSink := false, t := (harnessOf s t).place.getD r.dst.toNat 0, port := r.dstPort.setWidth 2,
            line := { data := ol.data, tag := placeTag first ol.last ol.valid, poison := ol.poison, at_ := s.time } }) } := by
  unfold sendOut
  simp only [hdst]
  rfl

end

/-- The samples that a line completes leave the stall's configuration and output ports. -/
theorem sampleSent_keeps (s : State) (t : Nat) :
    StallKeeps [.stalls, .pmus] t (fun x => (x.config, x.outp)) s (sampleSent s t) := by
  unfold sampleSent
  extract_lets x
  split
  · exact .trans ((putSamples_keeps s _ _).mono rfl) ((updStall_keeps rfl).mono rfl)
  · split
    · exact .ite (.trans ((putSamples_keeps s _ _).mono rfl) ((updStall_keeps rfl).mono rfl)) (.refl _ t _ s)
    · exact .refl _ t _ s

/-- The credits of a stall's output ports. -/
def Stall.credits (x : Stall) (n : Nat) : Nat := (x.outPort n).credits

theorem putBlocks_credits (c : Nat) (o : OutPort) (bs : List MxBlock) (final : Bool) :
    (putBlocks c o bs final).credits = o.credits := by
  unfold putBlocks
  dsimp only
  split <;> rfl

theorem droveBegins_credits (o : OutPort) (run elem : Nat) : (droveBegins o run elem).credits = o.credits := by
  unfold droveBegins
  split <;> rfl

theorem setOut_credits {x : Stall} {n : Nat} {o : OutPort} (h : o.credits = (x.outPort n).credits) :
    (x.setOut n o).credits = x.credits := by
  funext j
  rw [Stall.credits, setOut_outPort]
  split
  · next hj => rw [h, ← hj]; rfl
  · rfl

/-- A tile that goes to the converter spends no credit. -/
theorem placeTile_credits (x : Stall) (tile : Tile) : (placeTile x tile).credits = x.credits :=
  placeTile_view _ (fun _ _ _ _ _ => rfl)
    (dealGroup_view _ fun _ _ run elem c bs final _ => setOut_credits
      ((putBlocks_credits c _ bs final).trans (droveBegins_credits _ run elem))) x tile

theorem mxEmptied_credits (x : Stall) : (mxEmptied x).credits = x.credits := by
  unfold mxEmptied
  split
  · unfold emptied
    split
    · exact placeTile_credits _ _
    · rfl
  · rfl

theorem StallKeeps.map {α β : Type} {ps : List Part} {t : Nat} {f : Stall → α} {g : Stall → β} {s u : State}
    (h : StallKeeps ps t f s u) (hg : ∀ x y, f x = f y → g x = g y) : StallKeeps ps t g s u :=
  ⟨h.moves, h.others, hg _ _ h.own⟩

theorem credits_of_outp {x y : Stall} (h : x.outp = y.outp) : x.credits = y.credits := by
  funext n
  simp only [Stall.credits, Stall.outPort, h]

/-- R65, R69, R96: the head of a port's stage leaves by the port's STREAM route. -/
theorem sendStaged_stream {s : State} {t n : Nat} {rs : List Route} (hdst : outDst s t n = .stream rs) (l : OutLine)
    (rest : List OutLine) :
    let o := (s.stall t).outPort n
    let u := sendStaged s t n l rest
    u.strq = s.strq ++ rs.map (fun r =>
        { toSink := false, t := (harnessOf s t).place.getD r.dst.toNat 0, port := r.dstPort.setWidth 2,
          line := { data := l.data, tag := placeTag (!o.opened) l.last l.valid, poison := l.poison, at_ := s.time } }) ∧
      ((u.stall t).outPort n).credits = o.credits - 1 ∧ (∀ t', t' ≠ t → u.stall t' = s.stall t') ∧
      OnlyChanges [.stalls, .strq, .pmus] s u := by
  intro o u
  let s1 := (sampleSent s t).updStall t fun x => x.setOut n { x.outPort n with stage := rest }
  have h1 : StallKeeps [.stalls, .pmus] t (fun x => (x.config, x.credits)) s s1 := by
    refine ((sampleSent_keeps s t).map fun x y hxy => ?_).trans ((updStall_keeps ?_).mono rfl)
    · obtain ⟨hcfg, hout⟩ := Prod.mk.inj hxy
      exact Prod.ext hcfg (credits_of_outp hout)
    · exact Prod.ext rfl (setOut_credits rfl)
  obtain ⟨hcfg, hcredits⟩ := Prod.mk.inj h1.own
  have hsame : SameConfig s s1 :=
    { config := fun j => if hj : j = t then hj ▸ hcfg else congrArg Stall.config (h1.others j hj)
      pens := h1.moves.same .pens rfl }
  have hdst1 : outDst s1 t n = .stream rs :=
    (hsame.outDst (h1.moves.same .chutes rfl) (h1.moves.same .tack rfl) t n).trans hdst
  have hu : u = (sendOut s1 t n l (!o.opened) (droveOut s t n)).updStall t mxEmptied := rfl
  rw [sendOut_stream hdst1] at hu
  have hkept : StallBecomes [.stalls, .strq, .pmus] t (s1.stall t) s s1 := ⟨h1.moves.mono rfl, h1.others, rfl⟩
  have hsent := (hkept.set ((s1.stall t).setOut n { (s1.stall t).outPort n with
    credits := ((s1.stall t).outPort n).credits - 1, opened := !l.last }) rfl).step (strq_moves _ (s1.strq ++ rs.map fun r =>
      { toSink := false, t := (harnessOf s1 t).place.getD r.dst.toNat 0, port := r.dstPort.setWidth 2,
        line := { data := l.data, tag := placeTag (!o.opened) l.last l.valid, poison := l.poison, at_ := s1.time } }))
    rfl rfl
  have hemptied := hsent.upd mxEmptied rfl
  rw [hu]
  refine ⟨?_, ?_, hemptied.others, hemptied.moves.only⟩
  · show s1.strq ++ _ = _
    rw [hsame.harnessOf, show s1.strq = s.strq from h1.moves.same .strq rfl,
      show s1.time = s.time from h1.moves.same .time rfl]
  · rw [hemptied.own]
    refine (congrFun (mxEmptied_credits _) n).trans ?_
    rw [Stall.credits, setOut_outPort, if_pos rfl]
    exact congrArg (· - 1) (congrFun hcredits n)

/-- The head of a STREAM port's stage leaves once the port holds a credit. -/
theorem outputLineSend_stream {t : StallId} {port : PortId} {s : State} {l : OutLine} {rest : List OutLine}
    {rs : List Route} (hworks : penWorks s t.toNat = true) (hfault : (s.stall t.toNat).st ≠ .fault)
    (hfailed : (s.stall t.toNat).st ≠ .failed) (hcredits : 0 < ((s.stall t.toNat).outPort port.toNat).credits)
    (hstage : ((s.stall t.toNat).outPort port.toNat).stage = l :: rest)
    (hdst : outDst s t.toNat port.toNat = .stream rs) :
    exec (.outputLineSend t port) s = .next (sendStaged s t.toNat port.toNat l rest) := by
  have hheader : headerDue s t.toNat port.toNat = none := by
    simp [headerDue, droveOut_stream hdst]
  refine congrArg Host.Outcome.next ?_
  refine (if_neg (by simp [hworks, hfault, hfailed, portSends_stream hdst hcredits])).trans ?_
  simp only [hstage, hheader]

/-- Settles O10: a line arrives by `inputLine_arrives`, an anchor by `anchorLine_arrives`; an endpoint reads by
`consumerRead_reads`, and a staged line leaves by `sendStaged_stream`. -/
theorem linesComeAndGo : Obligations.LinesComeAndGo := by
  refine ⟨?arrive, ?output⟩
  case' arrive =>
    intro t port s n x
    refine ⟨?input, ?credit, ?anchor, ?consumer⟩
  case input =>
    intro m rest hroom hpop
    have hexec := inputLine_arrives hroom hpop
    refine ⟨?_, fun htag => ⟨_, hexec, fun hjoin => ?_⟩⟩
    · intro htag hfence s1
      have hjoins : portAccept { s with strq := rest } n port.toNat { m.line with at_ := s.time } = s1 :=
        portAccept_joins htag hfence
      rw [hjoins] at hexec
      refine ⟨hexec, fun hjoin => ?_⟩
      rw [settleParts_of_no_join (by rw [setStall_stall, if_pos rfl]; exact hjoin)]
    · have hidle : Moves [.strq, .pmus] s (pmuStall { s with strq := rest } n evIdleLines 1) :=
        .step (pmuCount_moves _ _ _ _ _) rfl ((strq_moves s rest).mono rfl)
      rw [portAccept_idle (l := { m.line with at_ := s.time }) htag,
        settleParts_of_no_join ((congrArg Stall.join (hidle.stall rfl n)).trans hjoin)]
      exact ⟨rfl, hidle.only⟩
  case credit =>
    intro o hcredits
    have hmin : (if o.credits < 16 then o.credits + 1 else o.credits) = min 16 (o.credits + 1) := by
      split <;> omega
    rw [← hmin]
    rfl
  case anchor =>
    intro m rest hpop
    refine ⟨fun hst hroom => ?_, fun hst hauto hnone hfifo => ?_⟩
    · have hexec := anchorLine_arrives hpop hroom
      rw [if_neg hst] at hexec
      refine ⟨_, hexec, rfl, (Moves.step (setStall_moves _ _ _) rfl ((anchors_moves s rest).mono rfl)).only,
        anchorTLine s m, rfl, rfl, ?_⟩
      rw [setStall_stall, if_pos rfl, anchorStaged, setIn_inPort, if_pos rfl]
    · have hroom : portRoom x (recAnchorPort x.record) = true := by
        simp [portRoom, hfifo]
      have hexec := anchorLine_arrives hpop hroom
      rw [if_pos hst] at hexec
      have hstaged : ((anchorStaged s m x).inPort (recAnchorPort x.record)).fifo = [anchorTLine s m] := by
        rw [anchorStaged, setIn_inPort, if_pos rfl, hfifo]
        rfl
      obtain ⟨hanchor, hpois, hok⟩ := takeAnchor_line (x := anchorStaged s m x) hauto hnone hstaged rfl
      have hstarts := (setStall_becomes { s with anchors := rest } n (anchorStaged s m x)).upd (fun y =>
        { takeAnchor y with st := if (takeAnchor y).anchorOk then .run else .waitAnchor }) rfl
      refine ⟨_, hexec, ?_, ?_, ?_, ?_, rfl, (Moves.step hstarts.moves rfl ((anchors_moves s rest).mono rfl)).only⟩
      · refine (congrArg Stall.anchor hstarts.own).trans (hanchor.trans ?_)
        exact BitVec.setWidth_setWidth_of_le _ (by decide) |>.trans (BitVec.setWidth_eq _)
      · exact (congrArg Stall.anchorPois hstarts.own).trans hpois
      · exact (congrArg Stall.anchorOk hstarts.own).trans hok
      · exact (congrArg Stall.st hstarts.own).trans (if_pos hok)
  case consumer =>
    intro c chk hcons hruns hworks hjoin hroom hready hst hstack hwait
    obtain ⟨u, hexec, hread⟩ := consumerRead_reads (chk := chk) hcons hruns hworks hjoin hroom hready hst hstack hwait
    exact ⟨u, hexec, hread.rp, hread.wp, hread.cp, hread.others⟩
  case output =>
    intro t port s l rest rs n x o hworks hfault hfailed hcredits hstage hdst
    exact ⟨_, outputLineSend_stream hworks hfault hfailed hcredits hstage hdst, sendStaged_stream hdst l rest⟩

end Sys2Proof.Machine

namespace Sys2Proof.Machine
open Sys2Proof

/-! ### A stall that faults (R81, R117) -/

/-- A fault that is no internal one stops the stall and leaves the rest of it, and every other stall. -/
theorem stallFault_stops {α : Type} (f : Stall → α) (h : ∀ (x : Stall) st b, f { x with st := st, failed := b } = f x)
    (s : State) (t : Nat) : ((stallFault s t false).stall t).st = .fault ∧
      StallKeeps (.pens :: .stalls :: markParts) t f s (stallFault s t false) := by
  let s1 := s.updStall t fun x => { x with st := .fault, failed := x.failed || false }
  let s2 := match penOfDie s (t / 64) with
    | some p => (rewindPorts s1 t).1.updPen p fun x => { x with faultPackets := x.faultPackets + (rewindPorts s1 t).2 }
    | none => (rewindPorts s1 t).1
  have hrewind : Moves (.pens :: markParts) s1 s2 := by
    have hports : Moves (.pens :: markParts) s1 (rewindPorts s1 t).1 := (rewindPorts_moves s1 t).mono rfl
    simp only [s2]
    split
    · exact .step (setPen_moves _ _ _) rfl hports
    · exact hports
  have hs2 : stallFault s t false = s2 := rfl
  rw [hs2]
  refine ⟨?_, .trans ((updStall_keeps (h _ _ _)).mono rfl) (hrewind.stallKeeps rfl rfl)⟩
  rw [hrewind.stall rfl, updStall_own]

/-! ### The fence (R78 step 1, R79) -/

section
variable {t : StallId} {s : State} (hworks : penWorks s t.toNat = true) (hworking : (s.stall t.toNat).working = true)
  (hfence : fenceWaits (s.stall t.toNat) = true)
include hworks hworking hfence

theorem fenceArrival_met : exec (.fenceArrival t .clean) s = .next
    (if openTile (s.stall t.toNat) then fenceOpenTile s t.toNat
      else s.setStall t.toNat { s.stall t.toNat with swapStep := 1, st := .fence }) := by
  refine congrArg Host.Outcome.next ((if_neg ?_).trans rfl)
  simp [hworks, hworking, hfence]

end

/-- R79: an open tile is discarded, and the stall stops. -/
theorem fenceOpenTile_stops (s : State) (t : Nat) :
    let y := (fenceOpenTile s t).stall t
    y.st = .fault ∧ y.win = [] ∧ y.tileToks = 0 ∧ y.conv = [] ∧ y.record = (s.stall t).record := by
  intro y
  let mx := fmtMx (recOutFmt (s.stall t).record)
  let s1 := s.updStall t fun y => { y with
    win := [], tileToks := 0, tileSamples := [], conv := [], join := if mx then none else y.join,
    closed := if mx then none else y.closed }
  obtain ⟨hst, hkeeps⟩ := stallFault_stops (fun x => (x.win, x.tileToks, x.conv, x.record)) (fun _ _ _ => rfl)
    (report s1 t cFenceOpenTile 0) t
  have hview := hkeeps.own
  rw [(report_moves s1 t cFenceOpenTile 0).stall rfl t, updStall_own] at hview
  simp only [Prod.mk.injEq] at hview
  obtain ⟨hwin, htoks, hconv, hrecord⟩ := hview
  exact ⟨hst, hwin, htoks, hconv, hrecord⟩

/-! ### The drain (R78 steps 2 to 4) -/

/-- R78: with all drained and a credit for each fence, the stall goes to step 2, and waits for SHADOW_VALID. -/
theorem swapDrainDone_steps {t : StallId} {s : State} (hstep : (s.stall t.toNat).swapStep = 1)
    (hst : (s.stall t.toNat).st ≠ .fault) (hdrained : swapDrained s t.toNat = true)
    (hblocks : ∀ p, p < 4 → ((s.stall t.toNat).outPort p).blocks = []) (hfences : fencesReady s t.toNat = true) :
    ∃ u : State, exec (.swapDrainDone t) s = .next
      (u.updStall t.toNat fun y => { y with swapStep := 2, st := if y.shadowValid then .swap else .fence }) := by
  have hnone : ((List.range 4).any fun n => decide (((s.stall t.toNat).outPort n).blocks ≠ [])) = false := by
    rw [List.any_eq_false]
    intro n hn
    simp [hblocks n (List.mem_range.mp hn)]
  refine ⟨_, congrArg Host.Outcome.next ((if_neg ?_).trans ((if_neg ?_).trans (if_neg ?_)))⟩
  · simp [hstep, hst, hdrained]
  · rw [hnone]; decide
  · simp [hfences]

/-! ### The exchange (R77, R78 step 5) -/

section
variable (s : State) (t : Nat)

theorem dropConsumer_moves : Moves [.chutes] s (dropConsumer s t) := chutes_moves s _

theorem joinConsumer_moves (i p : Nat) (h : Harness) : Moves [.chutes] s (joinConsumer s t i p h) :=
  .fold (fun st _ => .ite (setChute_moves st _ _) (.refl _ st)) (.refl _ s)

theorem joinEngine_moves (p : Nat) : Moves [.chutes] s (joinEngine s p) :=
  .fold (fun st _ => .ite (setChute_moves st _ _) (.refl _ st)) (chutes_moves s _)

theorem penSwapDone_moves (p : Nat) :
    Moves [.pens, .ready, .chutes, .host, .hostMem, .pmus] s (penSwapDone s p) := by
  unfold penSwapDone
  extract_lets x ts s1 s2
  have h1 : Moves [.pens, .ready, .chutes, .host, .hostMem, .pmus] s s1 := (setPen_moves s _ _).mono rfl
  refine .ite (.step (penEvent_moves _ _ _ _) rfl (.step (joinEngine_moves _ _) rfl ?_)) (.refl _ s)
  exact .step (ready_moves _) rfl h1

end

/-- R78 step 5: the fences taken from the input ports leave the rest of the stall. -/
theorem dropFences_view {α : Type} (f : Stall → α) (hf : ∀ (x : Stall) i, f { x with inp := i } = f x) (h : Harness)
    (i : Nat) (x : Stall) : f (dropFences h i x) = f x := by
  dsimp only [dropFences]
  generalize recFencePort x.record = fp
  generalize List.range 4 = ps
  induction ps generalizing x with
  | nil => rfl
  | cons p ps ih =>
    refine (ih _).trans ?_
    dsimp only
    split
    · exact hf x _
    · split
      · exact hf x _
      · split
        · exact hf x _
        · rfl

/-- R77, R78 step 5: the stall after the exchange, in a harness `h`. -/
def exchanged (h : Harness) (x : Stall) : Stall :=
  let z := clearRun (dropFences h x.active.recIdx x)
  let v := { z with activeSlot := !z.activeSlot, activeValid := true, shadowValid := false, swaps := z.swaps + 1 }
  { v with st := if recTakes v.record then .run else .idle }

theorem exchanged_fields (h : Harness) (x : Stall) :
    (exchanged h x).swaps = x.swaps + 1 ∧ (exchanged h x).activeSlot = !x.activeSlot ∧
      (exchanged h x).tokens = x.tokens := by
  have hview := dropFences_view (fun x => (x.swaps, x.activeSlot, x.tokens)) (fun _ _ => rfl) h x.active.recIdx x
  simp only [Prod.mk.injEq] at hview
  obtain ⟨hswaps, hslot, htokens⟩ := hview
  exact ⟨congrArg (· + 1) hswaps, congrArg (! ·) hslot, htokens⟩

/-- The exchange is of the stall alone: what follows it is of its chutes, its sinks and its pen. -/
theorem swapRecords_exchanges (s : State) (t : Nat) :
    (swapRecords s t).stall t = exchanged (harnessOf s t) (s.stall t) ∧ (swapRecords s t).manger = s.manger := by
  let ps : List Part := [.sinks, .pens, .ready, .chutes, .host, .hostMem, .pmus]
  let s1 := s.updStall t (exchanged (harnessOf s t))
  let s2 := clearSinks (dropConsumer (pmuStall s1 t evSwaps 1) t) t
  have h2 : Moves ps s1 s2 := .step (clearSinks_moves _ t) rfl
    (.step (dropConsumer_moves _ t) rfl ((pmuCount_moves s1 _ _ _ _).mono rfl))
  let s3 := match penOfDie s2 (t / 64) with
    | some p => penSwapDone (joinConsumer s2 t (s2.stall t).active.recIdx p (harnessOf s2 t)) p
    | none => s2
  have h3 : Moves ps s1 s3 := by
    simp only [s3]
    split
    · exact .step (penSwapDone_moves _ _) rfl (.step (joinConsumer_moves _ _ _ _ _) rfl h2)
    · exact h2
  have hs3 : swapRecords s t = s3 := rfl
  rw [hs3]
  exact ⟨by rw [h3.stall rfl, updStall_own], h3.same .manger rfl⟩

theorem swapExchange_exchanges {t : StallId} {s : State} (hstep : (s.stall t.toNat).swapStep = 2)
    (hvalid : (s.stall t.toNat).shadowValid = true) (hst : (s.stall t.toNat).st ≠ .fault) :
    exec (.swapExchange t .clean false) s = .next (swapRecords s t.toNat) := by
  refine congrArg Host.Outcome.next ((if_neg ?_).trans rfl)
  simp [hstep, hvalid, hst]

/-! ### The groom's scrub and write-back (R60) -/

/-- R413: check bits generated with nothing armed are good. -/
theorem mangerCheckBits_unarmed {s : State} (harm : s.flt.arm = none) (t off : Nat) :
    mangerCheckBits s t off = { s with mangerInj := tabSet (fun _ => 0) s.mangerInj (mangerWord t off) 0 } := by
  unfold mangerCheckBits
  rw [injMask_unarmed harm]
  exact injUse_unarmed (s := { s with mangerInj := tabSet (fun _ => 0) s.mangerInj (mangerWord t off) 0 }) harm t 0

/-- R60: the oldest corrected word is written back, its check bits generated anew. -/
theorem mangerWriteback_writes {t : StallId} {s : State} {w : BitVec 18} {rest : List (BitVec 18)}
    (hwb : (s.stall t.toNat).wb = w :: rest) (harm : s.flt.arm = none) :
    exec (.mangerWriteback t) s = .next { s.setStall t.toNat { s.stall t.toNat with wb := rest } with
      mangerInj := tabSet (fun _ => 0) s.mangerInj (mangerWord t.toNat w.toNat) 0 } := by
  refine congrArg Host.Outcome.next ?_
  simp only [hwb]
  exact mangerCheckBits_unarmed (s := s.updStall t.toNat _) harm t.toNat w.toNat

section
variable {s : State} {t : Nat} (h : ∀ e ∈ s.mangerInj, e.1 / 2 ^ 15 ≠ t)
include h

/-- R413: a manger with no injected word shows the scrub none. -/
theorem scrubInjected_none : scrubInjected s t = s := by
  have hwords : injectedWords s t = [] := by
    rw [injectedWords, List.filter_eq_nil_iff.mpr fun e he => by simpa using h e he, List.map_nil]
  simp [scrubInjected, hwords, mangerCheckWords]

theorem mangerInjAt_none (off : BitVec 18) : s.mangerInjAt (mangerWord t off.toNat) = 0 := by
  by_contra hne
  refine h _ (mem_of_tabGet (d := fun _ => 0) hne) ?_
  have hlt := off.isLt
  simp only [mangerWord]
  omega

/-- R60: a corrected word of a manger with no injected one is recorded, to be written back. -/
theorem withChecks_mangerCe (off : BitVec 18) :
    withChecks s t (.mangerCe off) id (fun st => scrubInjected st t) = mangerCe s t off := by
  have hmoves : Moves [.flt, .host, .stalls] s (mangerCe s t off) :=
    .step (setStall_moves _ _ _) rfl ((report_moves s _ _ _).mono rfl)
  have hce : scrubInjected (mangerCe s t off) t = mangerCe s t off :=
    scrubInjected_none (by rw [show (mangerCe s t off).mangerInj = s.mangerInj from hmoves.same .mangerInj rfl]; exact h)
  simp only [withChecks, mangerInjAt_none h off, scrubInjected_none h, hce]
  simp

end

theorem mangerCe_waits (s : State) (t : Nat) (off : BitVec 18) :
    off / 8 * 8 ∈ ((mangerCe s t off).stall t).wb ∧ (mangerCe s t off).manger = s.manger := by
  refine ⟨?_, (report_moves s t cMangerCe off.toNat).same .manger rfl⟩
  rw [mangerCe, updStall_own]
  exact mem_addNew _ _

/-- R60: the groom scrubs the manger of a stall that is IDLE, or that nothing has loaded. -/
theorem mangerScrub_idle {t : StallId} {s : State} (chk : StallCheck)
    (hst : (s.stall t.toNat).st = .idle ∨ ((s.stall t.toNat).st = .off ∧ s.diePowered (t.toNat / 64) = true)) :
    exec (.mangerScrub t chk) s = .next (withChecks s t.toNat (mangerOnly chk) id fun st => scrubInjected st t.toNat) := by
  refine congrArg Host.Outcome.next (if_neg ?_)
  rcases hst with hst | ⟨hst, hpowered⟩
  · simp [hst]
  · simp [hst, hpowered]

/-- Settles O11: a fence is met by `fenceArrival_met` and discards an open tile by `fenceOpenTile_stops`; the drain ends
by `swapDrainDone_steps`, the records change places by `swapRecords_exchanges`, and the groom's commands are
`mangerWriteback_writes` and `mangerScrub_idle`. -/
theorem stallSwapSteps : Obligations.StallSwapSteps := by
  intro t s n x
  refine ⟨?fence, ?drain, ?exchange, ?writeback, ?scrub⟩
  case fence =>
    intro hworks hworking hfence
    have hexec := fenceArrival_met hworks hworking hfence
    refine ⟨fun hopen => ?_, fun hopen => ?_⟩
    · rw [hexec, if_neg (by rw [hopen]; decide)]
    · rw [if_pos hopen] at hexec
      exact ⟨_, hexec, fenceOpenTile_stops s n⟩
  case drain =>
    intro hstep hst hdrained hblocks hfences
    obtain ⟨u, hexec⟩ := swapDrainDone_steps hstep hst hdrained hblocks hfences
    refine ⟨_, hexec, ?_⟩
    dsimp only
    rw [updStall_own]
    exact ⟨rfl, rfl⟩
  case exchange =>
    intro hstep hvalid hst
    obtain ⟨hown, hmanger⟩ := swapRecords_exchanges s n
    obtain ⟨hswaps, hslot, htokens⟩ := exchanged_fields (harnessOf s n) x
    refine ⟨_, swapExchange_exchanges hstep hvalid hst, ?_⟩
    dsimp only
    rw [hown]
    exact ⟨hswaps, hslot, rfl, rfl, rfl, rfl, rfl, rfl, rfl, rfl, rfl, rfl, rfl, htokens, hmanger⟩
  case writeback =>
    intro w rest hwb harm
    exact mangerWriteback_writes hwb harm
  case scrub =>
    intro hst hnone
    refine ⟨?_, fun off => ⟨_, mangerScrub_idle _ hst, ?_⟩⟩
    · rw [mangerScrub_idle _ hst]
      exact congrArg Host.Outcome.next (scrubInjected_none hnone)
    · rw [mangerOnly, withChecks_mangerCe hnone]
      exact mangerCe_waits s n off

end Sys2Proof.Machine

namespace Sys2Proof.Machine
open Sys2Proof

/-! ### A pass notice into a chute deeper than R124 allows

R126's pointers have 21 bits, which is DEPTH_LOG2 + 1 for the deepest chute of R124 (2 to 20). The statement bounds the
chute's depth nowhere, and with a depth of 22 the pointer of the notice's line wraps before the buffer does: the line
is stored at the buffer's last index, not at the index of the pointer that it began at. -/

/-- A SINK route whose pass ends with a notice through the first binding of the harness (R96). -/
def noticeRoute : Route :=
  { kind := 1, srcPort := 0, srcStall := 0, dst := 0, dstPort := 0, fanout := 1, flags := 0, doneBind := 0,
    linesPerPass := 2, dataOff := 0, scaleOff := 0 }

/-- The PRODUCER binding of chute 9 (R98). -/
def noticeBinding : Binding :=
  { role := 3, port := 0, stall := 0, chute := 9, depth := 0, storage := 0, seg := 0, high := 0, low := 0, idle := 0,
    flowPin := 0xFF }

/-- A record whose OUT0 feeds route 0: the destination's kind is 1, in bits 14 and 15 of the half-word at byte 12. -/
def noticeRecord : BitVec 4096 := BitVec.ofNat 4096 (0x4000 * 2 ^ 96)

/-- An ENABLED, empty chute of 2^22 lines, whose pointers stand at the largest value that 21 bits hold. -/
def deepChute : Chute := { st := .enabled, depth := 22, wp := 0x1FFFFF, cp := 0x1FFFFF, rp := 0x1FFFFF, fp := 0x1FFFFF }

/-- Stall 0 in pen 0, its SINK at OUT0 with a notice due, and chute 9 deep. -/
def deepNoticeState : State :=
  let pen : Pen := { st := .running, granted := true, dies := 1,
                     bank0 := { routes := [noticeRoute], binds := [noticeBinding] } }
  let stall : Stall := { st := .run, activeValid := true, slot0 := { record := noticeRecord } }
  (((State.reset.setPen 0 pen).setStall 0 stall).setSink 0 { notice := true, lines := 2 }).setChute 9 deepChute

theorem outDst_deepNoticeState : outDst deepNoticeState 0 0 = .sink noticeRoute := by decide +kernel

theorem penOfDie_deepNoticeState : penOfDie deepNoticeState 0 = some 0 := by decide +kernel

theorem binds_deepNoticeState : (harnessOf deepNoticeState 0).binds[0]? = some noticeBinding := by decide +kernel

theorem sink_deepNoticeState : deepNoticeState.sink 0 = { notice := true, lines := 2 } := by decide +kernel

theorem chute_deepNoticeState : deepNoticeState.chute 9 = deepChute := by decide +kernel

theorem bindAddr_deepNoticeState : BitVec.ofNat 22 (bindAddr deepNoticeState 0 noticeBinding) = (9 : ChuteAddr) := by
  decide +kernel

/-- The chute takes the notice: it is held, no other packet comes first, and its line waits for no hub. -/
theorem deepNoticeState_takes :
    isLocal deepNoticeState 9 = true ∧ chuteHeld deepNoticeState 0 = true ∧
      firstWaits deepNoticeState deepChute (stallSource deepNoticeState 0 0) = false ∧
      chuteLineWaits deepNoticeState 9 (deepChute.wp.toNat % deepChute.size) = false := by decide +kernel

/-- The notice's line is at the buffer's last index, 0x3FFFFF, and not at 0x1FFFFF, the index of its pointer. -/
theorem deepNotice_stores_at_last : ∃ u, exec (.sinkPassNotice 0 0) deepNoticeState = .next u ∧
    u.mangerByte 0 (0x3FFFFF * 64) = 1 ∧ u.mangerByte 0 (0x1FFFFF * 64) = 0 :=
  ⟨_, rfl, by decide +kernel⟩

/-- Refutes O25: its second half bounds no DEPTH_LOG2. In `deepNoticeState` the chute has 2^22 lines, more than R124
allows, and its pointers, which are as large as 21 bits hold, wrap to 0 with the notice's line: this line goes to the
buffer's last index, 0x3FFFFF, and the line at index 0x1FFFFF does not begin with the 1 that the statement claims. -/
theorem not_sinkWritesAndNotices : ¬ Obligations.SinkWritesAndNotices := by
  intro h
  obtain ⟨hlocal, hheld, hfirst, hline⟩ := deepNoticeState_takes
  have hnotice := h.2 0 0 deepNoticeState noticeRoute noticeBinding 0
  simp only [show (noticeRoute.doneBind.toNat) = 0 from rfl, show ((0 : StallId).toNat) = 0 from rfl,
    show ((0 : PortId).toNat) = 0 from rfl, Nat.mul_zero, Nat.add_zero, Nat.zero_div, bindAddr_deepNoticeState,
    show bitsAt (9 : ChuteAddr).toNat 0 16 = 9 from rfl, chute_deepNoticeState, sink_deepNoticeState] at hnotice
  obtain ⟨s', hs', _, _, _, hmanger, _⟩ := hnotice outDst_deepNoticeState penOfDie_deepNoticeState binds_deepNoticeState
    trivial trivial hlocal hheld rfl rfl rfl rfl (by decide +kernel) rfl rfl hfirst hline
  have hbyte : s'.mangerByte 0 (0x1FFFFF * 64) = 1 := hmanger rfl 0 (by decide)
  obtain ⟨u, hu, _, hmiss⟩ := deepNotice_stores_at_last
  obtain rfl : s' = u := Host.Outcome.next.inj (hs'.symm.trans hu)
  exact absurd (hbyte.symm.trans hmiss) (by decide)

end Sys2Proof.Machine

namespace Sys2Proof.Machine
open Sys2Proof

/-! ### Stalls taken in turn -/

/-- Each step of an operation over a list leaves every stall but that of its element's key, and takes that one as a
relation says. -/
structure EachStall {α : Type} (key : α → Nat) (R : α → Stall → Stall → Prop) (f : State → α → State) : Prop where
  others : ∀ st x j, j ≠ key x → (f st x).stall j = st.stall j
  own : ∀ st x, R x (st.stall (key x)) ((f st x).stall (key x))

section
variable {α : Type} {key : α → Nat} {R : α → Stall → Stall → Prop} {f : State → α → State}

theorem EachStall.forAll_others (h : EachStall key R f) (s : State) {xs : List α} {j : Nat}
    (hj : ∀ x ∈ xs, key x ≠ j) : (s.forAll xs f).stall j = s.stall j := by
  unfold State.forAll
  induction xs generalizing s with
  | nil => rfl
  | cons x xs ih =>
    rw [List.foldl_cons, ih _ fun y hy => hj y (List.mem_cons_of_mem _ hy),
      h.others _ _ _ (hj x List.mem_cons_self).symm]

theorem EachStall.forAll_own (h : EachStall key R f) (s : State) {xs : List α} (hnodup : (xs.map key).Nodup) {x : α}
    (hx : x ∈ xs) : R x (s.stall (key x)) ((s.forAll xs f).stall (key x)) := by
  induction xs generalizing s with
  | nil => exact absurd hx List.not_mem_nil
  | cons y ys ih =>
    obtain ⟨hy, hys⟩ := List.nodup_cons.mp hnodup
    have hcons : s.forAll (y :: ys) f = (f s y).forAll ys f := rfl
    rw [hcons]
    rcases List.mem_cons.mp hx with rfl | hx
    · rw [h.forAll_others (f s x) fun z hz e => hy (List.mem_map.mpr ⟨z, hz, e⟩)]
      exact h.own s x
    · have hne : key x ≠ key y := fun e => hy (e ▸ List.mem_map_of_mem (f := key) hx)
      have hown := ih (f s y) hys hx
      rwa [h.others s y _ hne] at hown

/-- The same over stalls themselves. -/
theorem EachStall.forAll_stall {R : Nat → Stall → Stall → Prop} {f : State → Nat → State} (h : EachStall id R f)
    (s : State) {ts : List Nat} (hnodup : ts.Nodup) {t : Nat} (ht : t ∈ ts) :
    R t (s.stall t) ((s.forAll ts f).stall t) :=
  h.forAll_own s (by rwa [List.map_id]) ht

theorem EachStall.forAll_apart {R : Nat → Stall → Stall → Prop} {f : State → Nat → State} (h : EachStall id R f)
    (s : State) {ts : List Nat} {t : Nat} (ht : t ∉ ts) : (s.forAll ts f).stall t = s.stall t :=
  h.forAll_others s fun _ hu e => ht (e ▸ hu)

/-- A stall updated, and then operations on other parts. -/
theorem eachStall_of_upd {qs : List Part} {f : State → Nat → State} (g : Stall → Stall)
    (hf : ∀ st t, Moves qs (st.updStall t g) (f st t)) (hq : listed .stalls qs = false) :
    EachStall id (fun _ x y => y = g x) f where
  others := fun st t j hj => by rw [(hf st t).stall hq, updStall_def, setStall_stall]; exact if_neg hj
  own := fun st t => by rw [id, (hf st t).stall hq, updStall_own]

theorem updStall_each (g : Stall → Stall) :
    EachStall id (fun _ x y => y = g x) fun (st : State) (t : Nat) => st.updStall t g :=
  eachStall_of_upd g (fun st t => .refl [] (st.updStall t g)) rfl

/-- A view of the stalls that each step leaves is left. -/
theorem forAll_view {β : Type} (v : Stall → β) (hf : ∀ st x j, v ((f st x).stall j) = v (st.stall j)) (s : State)
    (xs : List α) (j : Nat) : v ((s.forAll xs f).stall j) = v (s.stall j) := by
  unfold State.forAll
  induction xs generalizing s with
  | nil => rfl
  | cons x xs ih => rw [List.foldl_cons, ih, hf]

theorem updStall_view {β : Type} (v : Stall → β) {g : Stall → Stall} (hg : ∀ x, v (g x) = v x) (s : State) (t j : Nat) :
    v ((s.updStall t g).stall j) = v (s.stall j) := by
  rw [updStall_def, setStall_stall]
  split
  · next h => rw [hg, h]
  · rfl

/-- The stalls of a list changed, each in a way that leaves a view of it. -/
theorem forAll_updStall_view {β : Type} (v : Stall → β) {g : Stall → Stall} (hg : ∀ x, v (g x) = v x) (s : State)
    (ts : List Nat) (j : Nat) : v ((s.forAll ts fun st t => st.updStall t g).stall j) = v (s.stall j) :=
  forAll_view v (fun st t j => updStall_view v hg st t j) s ts j

theorem forAll_updStall_moves (s : State) (g : Stall → Stall) (ts : List Nat) :
    Moves [.stalls] s (s.forAll ts fun st t => st.updStall t g) :=
  .fold (fun st _ => setStall_moves st _ _) (.refl _ s)

end

/-! ### The stalls of a pen's dies (R9, R83) -/

section
variable {s u : State} {p : Nat}

/-- The numbers of a die's stalls. -/
theorem mem_dieNumbers {d t : Nat} : t ∈ (List.range 64).map (fun i => 64 * d + i) ↔ t / 64 = d := by
  rw [List.mem_map]
  constructor
  · rintro ⟨i, hi, rfl⟩
    have := List.mem_range.mp hi
    omega
  · exact fun h => ⟨t % 64, List.mem_range.mpr (by omega), by omega⟩

theorem nodup_dieNumbers (d : Nat) : ((List.range 64).map fun i => 64 * d + i).Nodup :=
  List.nodup_range.map fun i j h => by simpa using h

/-- The lists of different dies have no stall in common. -/
theorem nodup_flatMap_dies {f : Nat → List Nat} (hf : ∀ d, (f d).Sublist ((List.range 64).map fun i => 64 * d + i))
    {ds : List Nat} (hds : ds.Nodup) : (ds.flatMap f).Nodup := by
  refine List.nodup_flatMap.mpr ⟨fun d _ => (nodup_dieNumbers d).sublist (hf d), hds.imp fun {d e} hne => ?_⟩
  refine List.disjoint_left.mpr fun t hd he => hne ?_
  exact (mem_dieNumbers.mp ((hf d).subset hd)).symm.trans (mem_dieNumbers.mp ((hf e).subset he))

theorem nodup_penDies (x : Pen) : (penDies x).Nodup := List.nodup_range.filter _

theorem mem_penDies {x : Pen} {d : Nat} : d ∈ penDies x ↔ x.dies.getLsbD d = true := by
  rw [penDies, List.mem_filter, List.mem_range]
  exact ⟨fun h => h.2, fun h => ⟨BitVec.lt_of_getLsbD h, h⟩⟩

theorem nodup_penStalls (s : State) (p : Nat) : (penStalls s p).Nodup := by
  refine nodup_flatMap_dies (fun d => ?_) (nodup_penDies _)
  split
  · exact List.filter_sublist
  · exact List.nil_sublist _

theorem nodup_dieStalls (s : State) (p : Nat) : (dieStalls s p).Nodup := by
  refine nodup_flatMap_dies (fun d => ?_) (nodup_penDies _)
  split
  · exact List.Sublist.refl _
  · exact List.nil_sublist _

theorem nodup_grantStalls (s : State) (p : Nat) : (grantStalls s p).Nodup :=
  nodup_flatMap_dies (fun _ => List.Sublist.refl _) (nodup_penDies _)

theorem penStall_lt {t : Nat} (h : t ∈ penStalls s p) : t < 4096 := by
  obtain ⟨d, hd, ht⟩ := List.mem_flatMap.mp h
  have hlt : d < 64 := BitVec.lt_of_getLsbD (mem_penDies.mp hd)
  split at ht
  · have := mem_dieNumbers.mp (List.mem_filter.mp ht).1
    omega
  · exact absurd ht List.not_mem_nil

theorem held_of_pnet (h : u.pnet = s.pnet) (d : Nat) : u.held d = s.held d := by
  rw [State.held, State.lmapAt, h, State.held, State.lmapAt]

theorem underReplacement_of_pnet (h : u.pnet = s.pnet) (d : Nat) : underReplacement u d = underReplacement s d := by
  rw [underReplacement, h, underReplacement]

/-- The available stalls are those of the grant, of the numbers held, and of the FAILED marks (R83). -/
theorem penStalls_congr (hdies : (u.pen p).dies = (s.pen p).dies) (hpnet : u.pnet = s.pnet)
    (hfailed : ∀ t, (u.stall t).failed = (s.stall t).failed) : penStalls u p = penStalls s p := by
  simp only [penStalls, penDies, hdies, held_of_pnet hpnet, underReplacement_of_pnet hpnet, hfailed]

theorem dieStalls_congr (hdies : (u.pen p).dies = (s.pen p).dies) (hpnet : u.pnet = s.pnet) :
    dieStalls u p = dieStalls s p := by
  simp only [dieStalls, penDies, hdies, held_of_pnet hpnet]

end

/-! ### A pen that becomes another -/

/-- An operation of pen `p` changes parts of a list, no other pen, and makes of its own the pen `y`. -/
structure PenBecomes (ps : List Part) (p : Nat) (y : Pen) (s u : State) : Prop where
  moves : Moves ps s u
  others : ∀ q, q ≠ p → u.pen q = s.pen q
  own : u.pen p = y

section
variable {ps qs : List Part} {p : Nat} {y : Pen} {s u v : State}

theorem PenBecomes.refl (ps : List Part) (p : Nat) (s : State) : PenBecomes ps p (s.pen p) s s :=
  ⟨.refl ps s, fun _ _ => rfl, rfl⟩

/-- An operation that changes no pen. -/
theorem Moves.penBecomes (h : Moves ps s u) (hp : listed .pens ps = false) (p : Nat) : PenBecomes ps p (s.pen p) s u :=
  ⟨h, fun q _ => h.pen q hp, h.pen p hp⟩

theorem setPen_becomes (s : State) (p : Nat) (y : Pen) : PenBecomes [.pens] p y s (s.setPen p y) where
  moves := setPen_moves s p y
  others := fun q hq => by rw [setPen_pen, if_neg hq]
  own := by rw [setPen_pen, if_pos rfl]

theorem PenBecomes.mono (h : PenBecomes qs p y s u) (hp : covers qs ps = true) : PenBecomes ps p y s u :=
  ⟨h.moves.mono hp, h.others, h.own⟩

theorem PenBecomes.cast {z : Pen} (h : PenBecomes ps p y s u) (e : y = z) : PenBecomes ps p z s u := e ▸ h

/-- After that, another operation of the pen. -/
theorem PenBecomes.trans {z : Pen} (h : PenBecomes ps p y s u) (h' : PenBecomes qs p z u v)
    (hp : covers qs ps = true) : PenBecomes ps p z s v :=
  ⟨.step h'.moves hp h.moves, fun q hq => (h'.others q hq).trans (h.others q hq), h'.own⟩

theorem PenBecomes.upd (h : PenBecomes ps p y s u) (g : Pen → Pen) (hp : covers [.pens] ps = true) :
    PenBecomes ps p (g y) s (u.updPen p g) :=
  h.trans ((setPen_becomes u p _).cast (congrArg g h.own)) hp

/-- After that, an operation that changes no pen. -/
theorem PenBecomes.step (h : PenBecomes ps p y s u) (h' : Moves qs u v) (hq : listed .pens qs = false)
    (hp : covers qs ps = true) : PenBecomes ps p y s v :=
  h.trans ((h'.penBecomes hq p).cast h.own) hp

/-- R83, R98: a chute and a pen as they are given back. -/
def freedChute (x : Chute) : Chute :=
  { x with penValid := false, consumer := match x.consumer with | .stall _ _ => .none | .engine _ => .none | k => k }
def freedPen (x : Pen) : Pen :=
  { x with granted := false, st := .free, bank0 := {}, bank1 := {}, bank2 := {}, plans := [], shadow := .empty }

theorem giveBack_eq (s : State) (p : Nat) :
    giveBack s p = (s.forAll (penChutes s p) fun st c => st.updChute c freedChute).updPen p freedPen := rfl

theorem giveBack_becomes (s : State) (p : Nat) :
    PenBecomes [.chutes, .pens] p (freedPen (s.pen p)) s (giveBack s p) := by
  have hchutes : PenBecomes [.chutes, .pens] p (s.pen p) s _ :=
    ((forAll_updChute_moves (fun _ => freedChute) (penChutes s p)).penBecomes rfl p).mono rfl
  rw [giveBack_eq]
  exact hchutes.upd freedPen rfl

end
end Sys2Proof.Machine

namespace Sys2Proof.Machine
open Sys2Proof

/-! ### The end of a load (R109, R110, R114) -/

/-- R109: a pen with the result of a load and its detail. -/
def resultPen (code sec index : Nat) (x : Pen) : Pen :=
  { x with result := BitVec.ofNat 8 code, detSection := BitVec.ofNat 3 sec, detIndex := BitVec.ofNat 16 index }

/-- R110, R114: a pen as a load of its ends refused or abandoned. -/
def endedPen (isShadow : Bool) (code sec index : Nat) (x : Pen) : Pen :=
  if isShadow then { resultPen code sec index x with shadow := .empty }
  else if x.from_ = .free then freedPen (resultPen code sec index x)
  else { resultPen code sec index x with st := x.from_, shadow := .empty }

/-- What a load that ends leaves in its pen. -/
structure LoadEnded (isShadow : Bool) (code sec index : Nat) (x y : Pen) : Prop where
  st : y.st = if isShadow then x.st else x.from_
  origin : y.from_ = x.from_
  shadow : y.shadow = .empty
  result : y.result = BitVec.ofNat 8 code
  detSection : y.detSection = BitVec.ofNat 3 sec
  detIndex : y.detIndex = BitVec.ofNat 16 index

section
variable {isShadow : Bool} {code sec index : Nat}

theorem endedPen_ended (isShadow : Bool) (code sec index : Nat) (x : Pen) :
    LoadEnded isShadow code sec index x (endedPen isShadow code sec index x) := by
  cases isShadow with
  | true => exact ⟨rfl, rfl, rfl, rfl, rfl, rfl⟩
  | false =>
    rw [endedPen, if_neg Bool.false_ne_true]
    by_cases hfree : x.from_ = .free
    · rw [if_pos hfree]
      exact ⟨hfree.symm, rfl, rfl, rfl, rfl, rfl⟩
    · rw [if_neg hfree]
      exact ⟨rfl, rfl, rfl, rfl, rfl, rfl⟩

theorem LoadEnded.trans {x y z : Pen} (h : LoadEnded isShadow code sec index x y)
    (h' : LoadEnded isShadow code sec index y z) : LoadEnded isShadow code sec index x z where
  st := by rw [h'.st, h.st, h.origin]; cases isShadow <;> rfl
  origin := h'.origin.trans h.origin
  shadow := h'.shadow
  result := h'.result
  detSection := h'.detSection
  detIndex := h'.detIndex

end

section
variable (s : State) (p : Nat) (isShadow : Bool) (code sec index : Nat)

/-- The parts that the end of a load changes besides the shadows. -/
def endParts : List Part := [.pens, .chutes, .host, .hostMem, .pmus]

/-- A load that ends clears its pen's shadows, and then changes no stall. -/
theorem endLoad_becomes : PenBecomes endParts p (endedPen isShadow code sec index (s.pen p)) (clearShadows s p)
    (endLoad s p isShadow code sec index) := by
  have hpen : (clearShadows s p).pen p = s.pen p := (clearShadows_moves s p).pen p rfl
  unfold endLoad
  extract_lets s1 s2 from_ s3
  have h1 : PenBecomes endParts p (resultPen code sec index (s.pen p)) (clearShadows s p) s1 :=
    ((PenBecomes.refl endParts p _).upd (resultPen code sec index) rfl).cast (by rw [hpen])
  have hfrom : from_ = (s.pen p).from_ := (congrArg Pen.from_ h1.own :)
  cases isShadow with
  | true => exact (h1.upd (fun x => { x with shadow := .empty }) rfl).step (penEvent_moves _ _ _ _) rfl rfl
  | false =>
    rw [if_neg Bool.false_ne_true, endedPen, if_neg Bool.false_ne_true, ← hfrom]
    refine PenBecomes.step ?_ (penEvent_moves s3 _ _ _) rfl rfl
    by_cases hfree : from_ = .free
    · have hs3 : s3 = giveBack s1 p := if_pos hfree
      rw [hs3, if_pos hfree]
      exact h1.trans ((giveBack_becomes s1 p).cast (congrArg freedPen h1.own)) rfl
    · have hs3 : s3 = (setPenSt s1 p from_).updPen p fun x => { x with shadow := .empty } := if_neg hfree
      rw [hs3, if_neg hfree]
      exact (h1.upd (fun x => { x with st := from_ }) rfl).upd (fun x => { x with shadow := .empty }) rfl

theorem endLoad_ended : LoadEnded isShadow code sec index (s.pen p) ((endLoad s p isShadow code sec index).pen p) := by
  rw [(endLoad_becomes s p isShadow code sec index).own]
  exact endedPen_ended isShadow code sec index _

theorem endLoad_pen_other {q : Nat} (hq : q ≠ p) : (endLoad s p isShadow code sec index).pen q = s.pen q :=
  ((endLoad_becomes s p isShadow code sec index).others q hq).trans ((clearShadows_moves s p).pen q rfl)

theorem endLoad_stall (t : Nat) : (endLoad s p isShadow code sec index).stall t = (clearShadows s p).stall t :=
  (endLoad_becomes s p isShadow code sec index).moves.stall rfl t

/-- R110: the shadows alone are cleared. -/
theorem clearShadows_view {β : Type} (v : Stall → β) (hv : ∀ x : Stall, v { x with shadowValid := false } = v x)
    (t : Nat) : v ((clearShadows s p).stall t) = v (s.stall t) := by
  unfold clearShadows
  split
  · exact forAll_updStall_view v hv s _ t
  · rfl

theorem endLoad_view {β : Type} (v : Stall → β) (hv : ∀ x : Stall, v { x with shadowValid := false } = v x)
    (t : Nat) : v ((endLoad s p isShadow code sec index).stall t) = v (s.stall t) :=
  (congrArg v (endLoad_stall s p isShadow code sec index t)).trans (clearShadows_view s p v hv t)

/-- A stall as it was but for SHADOW_VALID. -/
theorem endLoad_stall_but (t : Nat) :
    { (endLoad s p isShadow code sec index).stall t with shadowValid := (s.stall t).shadowValid } = s.stall t := by
  have h := endLoad_view s p isShadow code sec index (fun x => { x with shadowValid := (s.stall t).shadowValid })
    (fun _ => rfl) t
  exact h

/-- R110: with the grant held and no swap in progress, no stall of the pen's dies has a valid shadow. -/
theorem endLoad_shadows (hgrant : (s.pen p).granted = true) (hswap : (s.pen p).swapping = false) {t : Nat}
    (ht : t ∈ dieStalls s p) : ((endLoad s p isShadow code sec index).stall t).shadowValid = false := by
  rw [endLoad_stall, clearShadows, if_pos (by simp [hgrant, hswap])]
  exact congrArg Stall.shadowValid
    ((updStall_each fun x => { x with shadowValid := false }).forAll_stall s (nodup_dieStalls s p) ht)

end

/-! ### Loads of other pens (R109) -/

/-- No load of a pen is in progress or waits. -/
def NoLoads (p : Nat) (s : State) : Prop := ∀ j ∈ s.loadNow.toList ++ s.loadQ, j.pen.toNat ≠ p

/-- A pen stays, no load of it joins, and no stall's FAILED mark moves. -/
structure OtherLoads (p : Nat) (s u : State) : Prop where
  pen : u.pen p = s.pen p
  failed : ∀ t, (u.stall t).failed = (s.stall t).failed
  noLoads : NoLoads p u

section
variable {p q : Nat} {ps : List Part} {s t u : State}

theorem NoLoads.of_moves (h : NoLoads p s) (hm : Moves ps s u) (hnow : listed .loadNow ps = false)
    (hq : listed .loadQ ps = false) : NoLoads p u := by
  have hnow : u.loadNow = s.loadNow := hm.same .loadNow hnow
  have hq : u.loadQ = s.loadQ := hm.same .loadQ hq
  unfold NoLoads
  rw [hnow, hq]
  exact h

theorem OtherLoads.refl (h : NoLoads p s) : OtherLoads p s s := ⟨rfl, fun _ => rfl, h⟩

theorem OtherLoads.trans (h : OtherLoads p s t) (h' : OtherLoads p t u) : OtherLoads p s u :=
  ⟨h'.pen.trans h.pen, fun k => (h'.failed k).trans (h.failed k), h'.noLoads⟩

/-- An operation on neither the pens nor the loads, which leaves the FAILED marks. -/
theorem OtherLoads.step (h : OtherLoads p s t) (hm : Moves ps t u)
    (hparts : ([.pens, .loadNow, .loadQ] : List Part).all (fun k => !listed k ps) = true)
    (hf : ∀ k, (u.stall k).failed = (t.stall k).failed) : OtherLoads p s u := by
  simp only [List.all_cons, List.all_nil, Bool.and_true, Bool.and_eq_true, Bool.not_eq_true'] at hparts
  obtain ⟨hpens, hnow, hq⟩ := hparts
  exact h.trans ⟨hm.pen p hpens, hf, h.noLoads.of_moves hm hnow hq⟩

/-- An operation of another pen. -/
theorem OtherLoads.pen_step {y : Pen} (h : OtherLoads p s t) (hb : PenBecomes ps q y t u) (hne : q ≠ p)
    (hparts : ([.loadNow, .loadQ] : List Part).all (fun k => !listed k ps) = true)
    (hf : ∀ k, (u.stall k).failed = (t.stall k).failed) : OtherLoads p s u := by
  simp only [List.all_cons, List.all_nil, Bool.and_true, Bool.and_eq_true, Bool.not_eq_true'] at hparts
  obtain ⟨hnow, hq⟩ := hparts
  exact h.trans ⟨hb.others p hne.symm, hf, h.noLoads.of_moves hb.moves hnow hq⟩

theorem OtherLoads.endLoad (h : OtherLoads p s t) (hne : q ≠ p) (b : Bool) (code sec index : Nat) :
    OtherLoads p s (endLoad t q b code sec index) :=
  have hclear : OtherLoads p s (clearShadows t q) :=
    h.step (clearShadows_moves t q) rfl (clearShadows_view t q _ fun _ => rfl)
  hclear.pen_step (endLoad_becomes t q b code sec index) hne rfl fun k =>
    congrArg Stall.failed (endLoad_stall t q b code sec index k)

end

section
variable (s : State) (p : Nat)

theorem forAll_updPmu_moves (g : Pmu → Pmu) (ds : List Nat) :
    Moves [.pmus] s (s.forAll ds fun st d => st.updPmu d g) :=
  .fold (fun st _ => setPmu_moves st _ _) (.refl _ s)

/-- R83: a pen with its grant. -/
theorem takeGrant_becomes :
    PenBecomes [.pens, .chutes, .stalls, .pmus] p { s.pen p with granted := true } s (takeGrant s p) := by
  unfold takeGrant
  extract_lets x cs s1 s2 ts s3
  split
  · next hgrant =>
    exact (PenBecomes.refl _ p s).cast (by rw [← show (s.pen p).granted = true from hgrant])
  · have h1 : PenBecomes [.pens, .chutes, .stalls, .pmus] p { s.pen p with granted := true } s s1 :=
      (setPen_becomes s p _).mono rfl
    have h12 : Moves [.chutes] s1 s2 := .fold (fun st _ => setChute_moves st _ _) (.refl _ _)
    have h23 : Moves [.stalls] s2 s3 := .fold (fun st _ => setStall_moves st _ _) (.refl _ _)
    exact ((h1.step h12 rfl rfl).step h23 rfl rfl).step (forAll_updPmu_moves s3 _ _) rfl rfl

theorem takeGrant_view {β : Type} (v : Stall → β)
    (hv : ∀ x : Stall, v { x with tokens := 0, num := 0 } = v x) (t : Nat) :
    v ((takeGrant s p).stall t) = v (s.stall t) := by
  unfold takeGrant
  extract_lets x cs s1 s2 ts s3
  split
  · rfl
  · have h2 : Moves [.pens, .chutes] s s2 :=
      .fold (fun st _ => (setChute_moves st _ _).mono rfl) ((setPen_moves s _ _).mono rfl)
    rw [(forAll_updPmu_moves s3 _ _).stall rfl, forAll_updStall_view v hv s2 ts t, h2.stall rfl]

theorem readyStalls_view {β : Type} (v : Stall → β)
    (hv : ∀ (x : Stall) b st, v { x with shadowValid := b, st := st } = v x)
    (isShadow : Bool) (t : Nat) : v ((readyStalls s p isShadow).stall t) = v (s.stall t) :=
  forAll_updStall_view v (fun x => hv x _ _) s _ t

theorem readSpan_sound_moves (a n fuel : Nat) : Moves soundReadParts s (readSpan s a n fuel).1 := by
  induction fuel generalizing s a n with
  | zero => exact .refl _ s
  | succ fuel ih =>
    rw [readSpan]
    split
    · exact .refl _ s
    · exact (readLine_noErrors_moves s a).trans (ih _ _ _)

theorem readMem_moves (a n : Nat) : Moves soundReadParts s (readMem s a n).1 := readSpan_sound_moves s a n _

end

section
variable {s : State} {p : Nat}

/-- A load that begins is of its own pen. -/
theorem beginLoad_other (hs : NoLoads p s) {j : LoadJob} (hj : j.pen.toNat ≠ p) : OtherLoads p s (beginLoad s j) := by
  unfold beginLoad
  extract_lets q addr r t k s1 s2
  have h0 : OtherLoads p s s := .refl hs
  have ht : OtherLoads p s t := h0.step (readMem_moves s _ _) rfl fun k => by rw [(readMem_moves s _ _).stall rfl]
  split
  · exact h0.endLoad hj _ _ _ _
  · split
    · exact ht.endLoad hj _ _ _ _
    · split
      · exact ht.endLoad hj _ _ _ _
      · have hgrant := ht.pen_step (takeGrant_becomes t q) hj rfl (takeGrant_view t q _ fun _ => rfl)
        have h1 : OtherLoads p s s1 :=
          hgrant.step (readyStalls_moves _ _ _) rfl (readyStalls_view _ _ _ (fun _ _ _ => rfl) _)
        have h2 : OtherLoads p s s2 := h1.pen_step (setPen_becomes s1 q _) hj rfl fun _ => rfl
        split
        · exact h2.endLoad hj _ _ _ _
        · split
          · exact h2.endLoad hj _ _ _ _
          · refine ⟨h2.pen, h2.failed, fun i hi => ?_⟩
            rcases List.mem_append.mp hi with hi | hi
            · obtain rfl := Option.some.inj (Option.mem_toList.mp hi)
              exact hj
            · exact h2.noLoads i (List.mem_append_right _ hi)

theorem nextLoads_other (hs : NoLoads p s) (fuel : Nat) : OtherLoads p s (nextLoads s fuel) := by
  induction fuel generalizing s with
  | zero => exact .refl hs
  | succ fuel ih =>
    rw [nextLoads]
    split
    · exact .refl hs
    · split
      · exact .refl hs
      · next j rest hq =>
        have hrest : NoLoads p { s with loadQ := rest } := fun i hi => hs i (by
          rcases List.mem_append.mp hi with hi | hi
          · exact List.mem_append_left _ hi
          · exact List.mem_append_right _ (hq ▸ List.mem_cons_of_mem _ hi))
        split
        · exact .refl hs
        · have hbegin := beginLoad_other hrest (hs j (List.mem_append_right _ (hq ▸ List.mem_cons_self)))
          exact .trans ⟨hbegin.pen, hbegin.failed, hbegin.noLoads⟩ (ih hbegin.noLoads)

theorem nextLoad_other (hs : NoLoads p s) : OtherLoads p s (nextLoad s) := nextLoads_other hs _

/-- With no load that waits, none begins. -/
theorem nextLoad_empty (h : s.loadQ = []) : nextLoad s = s := by
  rw [nextLoad, h]
  rfl

/-- While a load is in progress, none begins. -/
theorem nextLoad_busy (h : s.loadNow.isSome = true) : nextLoad s = s := by
  unfold nextLoad
  cases s.loadQ.length with
  | zero => rfl
  | succ n => rw [nextLoads, if_pos h]

/-- R109: a load that waits alone begins, once its container can be read. -/
theorem nextLoad_one {j : LoadJob} (hnow : s.loadNow = none) (hq : s.loadQ = [j])
    (hw : headWaits s (s.pen j.pen.toNat).container.toNat = false) : nextLoad s = beginLoad { s with loadQ := [] } j := by
  have hlen : s.loadQ.length = 0 + 1 := by rw [hq]; rfl
  rw [nextLoad, hlen, nextLoads, if_neg (by rw [hnow]; decide), hq]
  dsimp only
  rw [if_neg (by rw [hw]; decide), nextLoads]

end

/-! ### Loads abandoned (R118) -/

section
variable (s : State) (p : Nat)

/-- The loads of a pen, and the state without them. -/
def loadsOf : List LoadJob := (s.loadNow.toList ++ s.loadQ).filter fun j => j.pen.toNat = p
def withoutLoads : State :=
  { s with loadNow := s.loadNow.filter fun j => j.pen.toNat ≠ p, loadQ := s.loadQ.filter fun j => j.pen.toNat ≠ p }

/-- Loads of a pen that end in turn with a code. -/
def endLoads (s : State) (p code : Nat) (js : List LoadJob) : State :=
  js.foldl (fun st j => endLoad st p j.isShadow code 0 0) s

theorem abandonLoads_eq (code : Nat) :
    abandonLoads s p code = nextLoad (endLoads (withoutLoads s p) p code (loadsOf s p)) := rfl

theorem withoutLoads_noLoads : NoLoads p (withoutLoads s p) := by
  intro j hj
  rcases List.mem_append.mp hj with hj | hj
  · have hj := Option.mem_toList.mp hj
    simpa using (Option.mem_filter_iff.mp hj).2
  · simpa using (List.mem_filter.mp hj).2

theorem endLoads_noLoads (code : Nat) (js : List LoadJob) (h : NoLoads p s) : NoLoads p (endLoads s p code js) := by
  refine List.foldlRecOn (motive := NoLoads p) js _ h fun st hst j _ => ?_
  exact (hst.of_moves (clearShadows_moves st p) rfl rfl).of_moves (endLoad_becomes st p _ _ _ _).moves rfl rfl

theorem endLoads_failed (code : Nat) (js : List LoadJob) (t : Nat) :
    ((endLoads s p code js).stall t).failed = (s.stall t).failed :=
  forAll_view Stall.failed (fun st (j : LoadJob) t => endLoad_view st p j.isShadow code 0 0 _ (fun _ => rfl) t) s js t

variable {s p}

theorem endLoads_ended {b : Bool} (code : Nat) {js : List LoadJob} (hne : js ≠ []) (hjs : ∀ j ∈ js, j.isShadow = b) :
    LoadEnded b code 0 0 (s.pen p) ((endLoads s p code js).pen p) := by
  induction js generalizing s with
  | nil => exact absurd rfl hne
  | cons j js ih =>
    have hend := endLoad_ended s p j.isShadow code 0 0
    rw [hjs j List.mem_cons_self] at hend
    have hcons : endLoads s p code (j :: js) = endLoads (endLoad s p b code 0 0) p code js := by
      rw [← hjs j List.mem_cons_self]; rfl
    rw [hcons]
    by_cases hjs' : js = []
    · rw [hjs']; exact hend
    · exact hend.trans (ih hjs' fun i hi => hjs i (List.mem_cons_of_mem _ hi))

/-- R118: a pen whose loads, all of one kind, are abandoned: it is as they end it, and none of its loads is left. -/
theorem abandonLoads_ended {b : Bool} (code : Nat) (hsome : ∃ j ∈ s.loadNow.toList ++ s.loadQ, j.pen.toNat = p)
    (hall : ∀ j ∈ s.loadNow.toList ++ s.loadQ, j.pen.toNat = p → j.isShadow = b) :
    LoadEnded b code 0 0 (s.pen p) ((abandonLoads s p code).pen p) ∧ NoLoads p (abandonLoads s p code) ∧
      ∀ t, ((abandonLoads s p code).stall t).failed = (s.stall t).failed := by
  have hne : loadsOf s p ≠ [] := by
    obtain ⟨j, hj, hp⟩ := hsome
    exact List.ne_nil_of_mem (List.mem_filter.mpr ⟨hj, decide_eq_true hp⟩)
  have hends : LoadEnded b code 0 0 (s.pen p) _ := endLoads_ended (s := withoutLoads s p) code hne fun j hj => by
    obtain ⟨hmem, hp⟩ := List.mem_filter.mp hj
    exact hall j hmem (of_decide_eq_true hp)
  have hnext := nextLoad_other (endLoads_noLoads _ _ code (loadsOf s p) (withoutLoads_noLoads s p))
  rw [abandonLoads_eq]
  refine ⟨hnext.pen ▸ hends, hnext.noLoads, fun t => ?_⟩
  rw [hnext.failed t, endLoads_failed]
  rfl

/-- A pen without loads abandons none. -/
theorem abandonLoads_none (code : Nat) (hnow : s.loadNow = none) (hq : s.loadQ = []) : abandonLoads s p code = s := by
  have hjobs : loadsOf s p = [] := by rw [loadsOf, hnow, hq]; rfl
  have hwithout : withoutLoads s p = s := by
    rw [withoutLoads, hnow, hq, Option.filter_none, List.filter_nil, ← hnow, ← hq]
  rw [abandonLoads_eq, hjobs, hwithout]
  exact nextLoad_empty hq

end
end Sys2Proof.Machine

namespace Sys2Proof.Machine
open Sys2Proof

/-! ### Commands that a pen takes (R84, R114, R402) -/

section
variable {s u : State} {f : Func} {p : PenId} {cmd : Nat}

/-- R84: over open BARs a command of the pen's owner reaches the pen. -/
theorem penCmd_of_owner (hserved : Served s f.toNat) (hready : s.tack.readyNow = true)
    (hown : penOwner s p.toNat = f.toNat) : penCmd cmd f p s = (penCommand cmd p.toNat s).answer .ok := by
  unfold penCmd
  dsimp only
  rw [barAccess_of_served hserved hready (.inr (decide_eq_true hown)), if_pos hown]

/-- A command taken has the effect that the table lists for it. -/
theorem penCmd_of_taken (h : PenTaken f p s)
    (hcmd : penCommand cmd p.toNat s = if s.flt.failed then setResult s p.toNat rState else u) :
    penCmd cmd f p s = u.answer .ok := by
  obtain ⟨hserved, hready, hown, hfailed⟩ := h
  rw [penCmd_of_owner hserved hready hown, hcmd, hfailed, if_neg Bool.false_ne_true]

/-- R114, R402: a command that a FAILED device gets, or that the table does not list, sets RESULT alone. -/
theorem penCommand_refused (hcmd : penCommand cmd p.toNat s = if s.flt.failed then setResult s p.toNat rState else u)
    (h : s.flt.failed = true ∨ u = setResult s p.toNat rState) :
    penCommand cmd p.toNat s = s.setPen p.toNat { s.pen p.toNat with result := 0x0B } := by
  rw [hcmd]
  rcases h with h | h
  · rw [if_pos h]; rfl
  · rw [h, ite_self]; rfl

end

section
variable {s : State} {p : Nat}

theorem penLoad_listed (h : (s.pen p).st = .free ∨ (s.pen p).st = .stopped ∨ (s.pen p).st = .faulted) :
    penLoad s p = nextLoad { s.setPen p { s.pen p with from_ := (s.pen p).st, st := .loading } with
      loadQ := s.loadQ ++ [{ pen := BitVec.ofNat 6 p, isShadow := false }] } :=
  if_pos (by simpa [or_assoc] using h)

theorem penLoad_refused (h : (s.pen p).st ≠ .free ∧ (s.pen p).st ≠ .stopped ∧ (s.pen p).st ≠ .faulted) :
    penLoad s p = setResult s p rState := if_neg (by simpa [and_assoc] using h)

theorem penShadow_listed (h : (s.pen p).st = .running) :
    penShadow s p = nextLoad { s.setPen p { s.pen p with shadow := .loading } with
      loadQ := s.loadQ ++ [{ pen := BitVec.ofNat 6 p, isShadow := true }] } := if_pos h

theorem penShadow_refused (h : (s.pen p).st ≠ .running) : penShadow s p = setResult s p rState := if_neg h

/-- R111: the pen RUNNING, with no plan's run left, before its stalls start. -/
def runningPen (s : State) (p : Nat) : State :=
  { s.setPen p { s.pen p with st := .running, aborted := false, result := 0, plans := [] } with
    ready := s.ready.filter fun e => e.1.toNat ≠ p }

theorem penStart_listed (h : (s.pen p).st = .ready ∨ (s.pen p).st = .stopped) :
    penStart s p = (runningPen s p).forAll (penStalls (runningPen s p) p) startStall := if_pos (by simpa using h)

theorem penStart_refused (h : (s.pen p).st ≠ .ready ∧ (s.pen p).st ≠ .stopped) :
    penStart s p = setResult s p rState := if_neg (by simpa using h)

/-- R114: the pen in another state, its command accepted. -/
def acceptedPen (s : State) (p : Nat) (st : PenState) : State := setPenSt (setResult s p 0) p st

theorem penStop_running (h : (s.pen p).st = .running) : penStop s p =
    if (s.loadNow.toList ++ s.loadQ).any fun j => j.pen.toNat = p then
      abandonLoads (acceptedPen s p .draining) p rAbandoned
    else acceptedPen s p .draining := by
  simp only [penStop, h]
  rfl

theorem penStop_loading (h : (s.pen p).st = .loading) : penStop s p = abandonLoads s p rAbandoned := by
  simp only [penStop, h]

theorem penStop_ready (h : (s.pen p).st = .ready) :
    penStop s p = penEvent (acceptedPen s p .stopped) p (penCode .stopped) false := by
  simp only [penStop, h]
  rfl

theorem penStop_refused (h : (s.pen p).st ≠ .running ∧ (s.pen p).st ≠ .loading ∧ (s.pen p).st ≠ .ready) :
    penStop s p = setResult s p rState := by
  obtain ⟨hrunning, hloading, hready⟩ := h
  unfold penStop
  dsimp only
  split
  · next h => exact absurd h hrunning
  · next h => exact absurd h hloading
  · next h => exact absurd h hready
  · rfl

theorem penSwap_listed (hst : (s.pen p).st = .running) (hshadow : (s.pen p).shadow = .valid)
    (hswap : (s.pen p).swapping = false) : penSwap s p =
      (s.setPen p { s.pen p with swapping := true, result := 0 }).forAll (fenceRoots s p) injectFence :=
  if_pos (by simp [hst, hshadow, hswap])

theorem penSwap_refused (h : (s.pen p).st ≠ .running ∨ (s.pen p).shadow ≠ .valid ∨ (s.pen p).swapping = true) :
    penSwap s p = setResult s p rState := if_neg (by
  intro hlisted
  simp only [Bool.and_eq_true, decide_eq_true_eq, Bool.not_eq_true'] at hlisted
  obtain ⟨⟨hst, hshadow⟩, hswap⟩ := hlisted
  simp [hst, hshadow, hswap] at h)

theorem penReleaseCmd_listed (h : (s.pen p).st = .ready ∨ (s.pen p).st = .stopped ∨ (s.pen p).st = .faulted) :
    penReleaseCmd s p = penEvent (giveBack (setResult s p 0) p) p (penCode .free) false :=
  if_pos (by simpa [or_assoc] using h)

theorem penReleaseCmd_refused (h : (s.pen p).st ≠ .ready ∧ (s.pen p).st ≠ .stopped ∧ (s.pen p).st ≠ .faulted) :
    penReleaseCmd s p = setResult s p rState := if_neg (by simpa [and_assoc] using h)

end

/-- R114: a reserved command is none of the six. -/
theorem penCommand_reserved {cmd : Nat} (h : cmd = 0 ∨ 7 ≤ cmd) (s : State) (p : Nat) :
    penCommand cmd p s = setResult s p rState := by
  rcases h with rfl | h
  · exact ite_self _
  · obtain ⟨k, rfl⟩ := Nat.exists_eq_add_of_le' h
    exact ite_self _

end Sys2Proof.Machine

namespace Sys2Proof.Machine
open Sys2Proof

/-! ### START (R111) -/

/-- R111: a stall as it starts. -/
def startedStall (x : Stall) : Stall :=
  { clearRun x with
    inp := [], st := if x.st = .fault || x.st = .failed || x.st = .off then x.st
                     else if recTakes x.record then .run else .idle }

theorem startStall_eq (s : State) (t : Nat) : startStall s t = clearSinks (s.updStall t startedStall) t := rfl

theorem startStall_each : EachStall id (fun _ x y => y = startedStall x) startStall :=
  eachStall_of_upd startedStall (fun st t => by rw [startStall_eq]; exact clearSinks_moves _ t) rfl

theorem startStall_moves (s : State) (t : Nat) : Moves [.stalls, .sinks] s (startStall s t) := by
  rw [startStall_eq]
  exact .step (clearSinks_moves _ t) rfl ((setStall_moves s t _).mono rfl)

section
variable (s : State) (p : Nat)

theorem runningPen_becomes : PenBecomes [.pens, .ready] p
    { s.pen p with st := .running, aborted := false, result := 0, plans := [] } s (runningPen s p) :=
  PenBecomes.step ((setPen_becomes s p _).mono rfl) (ready_moves _) rfl rfl

/-- R111: every available stall starts afresh, and nothing else does. -/
theorem penStart_starts {s : State} {p : Nat} (h : (s.pen p).st = .ready ∨ (s.pen p).st = .stopped) :
    PenBecomes [.pens, .ready, .stalls, .sinks] p
      { s.pen p with st := .running, aborted := false, result := 0, plans := [] } s (penStart s p) ∧
    (penStart s p).ready = s.ready.filter (fun e => e.1.toNat ≠ p) ∧
    (∀ t ∈ penStalls s p, (penStart s p).stall t = startedStall (s.stall t)) ∧
    ∀ t, t ∉ penStalls s p → (penStart s p).stall t = s.stall t := by
  have hrun := runningPen_becomes s p
  have hstall (t : Nat) : (runningPen s p).stall t = s.stall t := hrun.moves.stall rfl t
  have hstalls : penStalls (runningPen s p) p = penStalls s p :=
    penStalls_congr (by rw [hrun.own]) (hrun.moves.same .pnet rfl) fun t => by rw [hstall]
  have hmoves : Moves [.stalls, .sinks] (runningPen s p) ((runningPen s p).forAll (penStalls s p) startStall) :=
    .fold startStall_moves (.refl _ _)
  rw [penStart_listed h, hstalls]
  refine ⟨(hrun.mono rfl).step hmoves rfl rfl, hmoves.same .ready rfl, fun t ht => ?_, fun t ht => ?_⟩
  · rw [startStall_each.forAll_stall _ (nodup_penStalls s p) ht, hstall]
  · rw [startStall_each.forAll_apart _ ht, hstall]

end

/-! ### STOP (R115, R118) -/

section
variable {s : State} {p : Nat}

theorem acceptedPen_becomes (s : State) (p : Nat) (st : PenState) :
    PenBecomes [.pens] p { s.pen p with st := st, result := 0 } s (acceptedPen s p st) :=
  ((PenBecomes.refl _ p s).upd (fun x => { x with result := 0 }) rfl).upd (fun x => { x with st := st }) rfl

theorem penStop_drains (hst : (s.pen p).st = .running) (hnone : NoLoads p s) :
    PenBecomes [.pens] p { s.pen p with st := .draining, result := 0 } s (penStop s p) := by
  rw [penStop_running hst, if_neg]
  · exact acceptedPen_becomes s p .draining
  · rw [Bool.not_eq_true, List.any_eq_false]
    exact fun j hj => by simpa using hnone j hj

/-- R118: a STOP abandons the SHADOW loads of its pen, which drains. -/
theorem penStop_abandonsShadow (hst : (s.pen p).st = .running)
    (hsome : ∃ j ∈ s.loadNow.toList ++ s.loadQ, j.pen.toNat = p)
    (hall : ∀ j ∈ s.loadNow.toList ++ s.loadQ, j.pen.toNat = p → j.isShadow = true) :
    let y := (penStop s p).pen p
    y.st = .draining ∧ y.shadow = .empty ∧ y.result = 0x0C ∧ NoLoads p (penStop s p) := by
  have hacc := acceptedPen_becomes s p .draining
  obtain ⟨hended, hnone, -⟩ := abandonLoads_ended (s := acceptedPen s p .draining) rAbandoned hsome hall
  rw [penStop_running hst, if_pos (List.any_eq_true.mpr (by simpa only [decide_eq_true_eq] using hsome))]
  refine ⟨hended.st.trans ?_, hended.shadow, hended.result, hnone⟩
  rw [hacc.own]
  rfl

/-- R118: a STOP abandons the LOAD of its pen, which goes back to where it came from. -/
theorem penStop_abandonsLoad (hst : (s.pen p).st = .loading)
    (hsome : ∃ j ∈ s.loadNow.toList ++ s.loadQ, j.pen.toNat = p)
    (hall : ∀ j ∈ s.loadNow.toList ++ s.loadQ, j.pen.toNat = p → j.isShadow = false) :
    let y := (penStop s p).pen p
    y.st = (s.pen p).from_ ∧ y.result = 0x0C ∧ NoLoads p (penStop s p) := by
  obtain ⟨hended, hnone, -⟩ := abandonLoads_ended rAbandoned hsome hall
  rw [penStop_loading hst]
  exact ⟨hended.st, hended.result, hnone⟩

theorem penStop_leavesReady (hst : (s.pen p).st = .ready) :
    PenBecomes [.pens, .host, .hostMem, .pmus] p { s.pen p with st := .stopped, result := 0 } s (penStop s p) := by
  rw [penStop_ready hst]
  exact ((acceptedPen_becomes s p .stopped).mono rfl).step (penEvent_moves _ _ _ _) rfl rfl

end

/-! ### SWAP (R112) -/

/-- R65, R112: a fence in the FENCE_PORT of a stall that has room there. -/
def FenceIn (x y : Stall) : Prop :=
  let q := recFencePort x.record
  (portRoom x q = true → ∃ l : TLine, l.fence = true ∧ l.tag ≠ 0 ∧
    y = x.setIn q { x.inPort q with fifo := (x.inPort q).fifo ++ [l] }) ∧
  (portRoom x q = false → y = x)

/-- R65: a fence on its way to a port of a stall. -/
def FenceSent (t q : Nat) (m : StrLine) : Prop :=
  m.toSink = false ∧ m.t.toNat = t ∧ m.port.toNat = q ∧ m.line.fence = true

theorem recFencePort_lt (r : BitVec 4096) : recFencePort r < 4 := Nat.mod_lt _ (by decide)

section
variable (s : State) (t : Nat)

theorem injectFence_room (h : portRoom (s.stall t) (recFencePort (s.stall t).record) = true) :
    ∃ l : TLine, l.fence = true ∧ l.tag ≠ 0 ∧ injectFence s t =
      s.setStall t ((s.stall t).setIn (recFencePort (s.stall t).record)
        { (s.stall t).inPort (recFencePort (s.stall t).record) with
          fifo := ((s.stall t).inPort (recFencePort (s.stall t).record)).fifo ++ [l] }) :=
  ⟨{ data := 0, tag := 0x3F, fence := true, at_ := s.time }, rfl, (by decide : (0x3F : BitVec 8) ≠ 0), if_pos h⟩

theorem injectFence_full (h : portRoom (s.stall t) (recFencePort (s.stall t).record) = false) :
    ∃ l : TLine, l.fence = true ∧ injectFence s t = { s with strq := s.strq ++
      [{ toSink := false, t := BitVec.ofNat 12 t, port := BitVec.ofNat 2 (recFencePort (s.stall t).record), line := l }] } :=
  ⟨{ data := 0, tag := 0x3F, fence := true, at_ := s.time }, rfl, if_neg (by rw [h]; decide)⟩

theorem injectFence_moves : Moves [.stalls, .strq] s (injectFence s t) :=
  .ite ((setStall_moves s _ _).mono rfl) ((strq_moves s _).mono rfl)

theorem injectFence_each : EachStall id (fun _ x y => FenceIn x y) injectFence where
  others := fun st t j hj => by
    cases hroom : portRoom (st.stall t) (recFencePort (st.stall t).record) with
    | true =>
      obtain ⟨l, -, -, h⟩ := injectFence_room st t hroom
      rw [h, setStall_stall]
      exact if_neg hj
    | false =>
      obtain ⟨l, -, h⟩ := injectFence_full st t hroom
      rw [h]
      rfl
  own := fun st t => by
    refine ⟨fun hroom => ?_, fun hroom => ?_⟩
    · obtain ⟨l, hf, htag, h⟩ := injectFence_room st t hroom
      exact ⟨l, hf, htag, by rw [h, setStall_stall]; exact if_pos rfl⟩
    · obtain ⟨l, -, h⟩ := injectFence_full st t hroom
      rw [h]
      rfl

/-- R112: what a fence that finds no room adds to the lines on their way. -/
theorem injectFence_strq (ht : t < 4096) : ∃ ms, (injectFence s t).strq = s.strq ++ ms ∧
    (portRoom (s.stall t) (recFencePort (s.stall t).record) = false →
      ∃ m ∈ ms, FenceSent t (recFencePort (s.stall t).record) m) := by
  cases hroom : portRoom (s.stall t) (recFencePort (s.stall t).record) with
  | true =>
    obtain ⟨l, -, -, h⟩ := injectFence_room s t hroom
    exact ⟨[], by rw [h, List.append_nil]; rfl, nofun⟩
  | false =>
    obtain ⟨l, hf, h⟩ := injectFence_full s t hroom
    refine ⟨_, by rw [h], fun _ => ⟨_, List.mem_singleton_self _, rfl, ?_, ?_, hf⟩⟩
    · exact Nat.mod_eq_of_lt ht
    · exact Nat.mod_eq_of_lt (recFencePort_lt _)

/-- R112: fences injected into the FENCE_PORT of each stall of a list, or sent there. -/
theorem injectFences_strq {ts : List Nat} (hnodup : ts.Nodup) (hlt : ∀ t ∈ ts, t < 4096) :
    ∃ ms, (s.forAll ts injectFence).strq = s.strq ++ ms ∧
      ∀ t ∈ ts, portRoom (s.stall t) (recFencePort (s.stall t).record) = false →
        ∃ m ∈ ms, FenceSent t (recFencePort (s.stall t).record) m := by
  induction ts generalizing s with
  | nil => exact ⟨[], (List.append_nil _).symm, nofun⟩
  | cons u ts ih =>
    obtain ⟨hu, hts⟩ := List.nodup_cons.mp hnodup
    obtain ⟨ms, hms, hfirst⟩ := injectFence_strq s u (hlt u List.mem_cons_self)
    obtain ⟨ms', hms', hrest⟩ := ih (injectFence s u) hts fun t ht => hlt t (List.mem_cons_of_mem _ ht)
    refine ⟨ms ++ ms', ?_, fun t ht hroom => ?_⟩
    · rw [← List.append_assoc, ← hms]
      exact hms'
    · rcases List.mem_cons.mp ht with rfl | ht
      · obtain ⟨m, hm, hsent⟩ := hfirst hroom
        exact ⟨m, List.mem_append_left _ hm, hsent⟩
      · have hkept : (injectFence s u).stall t = s.stall t :=
          injectFence_each.others s u t fun e => hu ((show t = u from e) ▸ ht)
        obtain ⟨m, hm, hsent⟩ := hrest t ht (by rw [hkept]; exact hroom)
        rw [hkept] at hsent
        exact ⟨m, List.mem_append_right _ hm, hsent⟩

end

section
variable {s : State} {p : Nat}

theorem nodup_fenceRoots (s : State) (p : Nat) : (fenceRoots s p).Nodup := (nodup_penStalls s p).filter _

theorem fenceRoot_lt {t : Nat} (h : t ∈ fenceRoots s p) : t < 4096 := penStall_lt (List.mem_filter.mp h).1

/-- R112: a SWAP puts a fence into each fence root, and changes no other stall. -/
theorem penSwap_fences (hst : (s.pen p).st = .running) (hshadow : (s.pen p).shadow = .valid)
    (hswap : (s.pen p).swapping = false) :
    PenBecomes [.pens, .stalls, .strq] p { s.pen p with swapping := true, result := 0 } s (penSwap s p) ∧
    (∀ t ∈ fenceRoots s p, FenceIn (s.stall t) ((penSwap s p).stall t)) ∧
    (∀ t, t ∉ fenceRoots s p → (penSwap s p).stall t = s.stall t) ∧
    ∃ ms, (penSwap s p).strq = s.strq ++ ms ∧
      ∀ t ∈ fenceRoots s p, portRoom (s.stall t) (recFencePort (s.stall t).record) = false →
        ∃ m ∈ ms, FenceSent t (recFencePort (s.stall t).record) m := by
  rw [penSwap_listed hst hshadow hswap]
  have hmoves (st : State) : Moves [.stalls, .strq] st (st.forAll (fenceRoots s p) injectFence) :=
    .fold injectFence_moves (.refl _ _)
  refine ⟨((setPen_becomes s p _).mono rfl).step (hmoves _) rfl rfl, fun t ht => ?_, fun t ht => ?_,
    injectFences_strq (s.setPen p _) (nodup_fenceRoots s p) fun t ht => fenceRoot_lt ht⟩
  · exact injectFence_each.forAll_stall (s.setPen p _) (nodup_fenceRoots s p) ht
  · exact injectFence_each.forAll_apart (s.setPen p _) ht

end

/-! ### RELEASE (R83, R114) -/

section
variable {s : State} {p : Nat}

theorem mem_penChutes {c : Nat} (hvalid : (s.chute c).penValid = true) (hpen : (s.chute c).pen.toNat = p) :
    c ∈ penChutes s p := by
  have hlisted : s.chute c ≠ {} := fun h => by rw [h] at hvalid; exact absurd hvalid (by decide)
  exact List.mem_map.mpr ⟨_, List.mem_filter.mpr ⟨mem_of_tabGet hlisted, by
    rw [Bool.and_eq_true, decide_eq_true_eq]
    exact ⟨hvalid, hpen⟩⟩, rfl⟩

theorem freedChute_freedChute (x : Chute) : freedChute (freedChute x) = freedChute x := by
  cases h : x.consumer <;> simp [freedChute, h]

/-- R83: a pen given back holds no chute. -/
theorem giveBack_chutes {c : Nat} (hvalid : (s.chute c).penValid = true) (hpen : (s.chute c).pen.toNat = p) :
    ((giveBack s p).chute c).penValid = false := by
  have hmem := mem_penChutes hvalid hpen
  rw [giveBack_eq, updPen_def, setPen_chute, forAll_updChute freedChute _ _ freedChute_freedChute, if_pos hmem]
  rfl

theorem penReleaseCmd_frees (h : (s.pen p).st = .ready ∨ (s.pen p).st = .stopped ∨ (s.pen p).st = .faulted) :
    PenBecomes [.pens, .chutes, .host, .hostMem, .pmus] p (freedPen { s.pen p with result := 0 }) s (penReleaseCmd s p) ∧
    ∀ c, (s.chute c).penValid = true → (s.chute c).pen.toNat = p → ((penReleaseCmd s p).chute c).penValid = false := by
  rw [penReleaseCmd_listed h]
  have hzero : PenBecomes [.pens, .chutes, .host, .hostMem, .pmus] p { s.pen p with result := 0 } s (setResult s p 0) :=
    (setPen_becomes s p _).mono rfl
  refine ⟨(hzero.trans ((giveBack_becomes _ p).cast (congrArg freedPen hzero.own)) rfl).step (penEvent_moves _ _ _ _)
    rfl rfl, fun c hvalid hpen => ?_⟩
  rw [(penEvent_moves _ _ _ _).chute c rfl]
  exact giveBack_chutes (s := setResult s p 0) hvalid hpen

end

/-! ### The commands of a pen, as they are answered (R109, R111, R114, R115, R118) -/

section
variable {f : Func} {p : PenId} {s : State}

/-- An answered pen command that takes a state to one of which `P` holds. -/
theorem completes_of_taken {c : Instr} {cmd : Nat} {u : State} {P : State → Prop} (h : PenTaken f p s)
    (hexec : exec c s = .next (penCmd cmd f p s))
    (hcmd : penCommand cmd p.toNat s = if s.flt.failed then setResult s p.toNat rState else u) (hP : P (u.answer .ok)) :
    Completes c s P :=
  ⟨_, hexec.trans (congrArg Host.Outcome.next (penCmd_of_taken h hcmd)), hP⟩

/-- An operation of the pen, and its answer. -/
theorem PenBecomes.answered {ps qs : List Part} {y : Pen} {n : Nat} {u : State} (h : PenBecomes ps n y s u)
    (hp : covers (.resp :: ps) qs = true) : PenBecomes qs n y s (u.answer .ok) := by
  have hps : covers ps qs = true := by
    simp only [covers, List.all_cons, Bool.and_eq_true] at hp ⊢
    exact hp.2
  have hresp : covers [.resp] qs = true := by
    simp only [covers, List.all_cons, Bool.and_eq_true, List.all_nil, and_true] at hp ⊢
    exact hp.1
  exact (h.mono hps).step (answer_moves u .ok) rfl hresp

theorem noLoads_iff : NoLoads p.toNat s ↔ ∀ j ∈ s.loadNow.toList ++ s.loadQ, j.pen ≠ p := by
  simp only [NoLoads, ne_eq, BitVec.toNat_inj]

/-- Settles O12: each command is taken by `completes_of_taken`, and has the effect that the lemma of its operation
states: `penStart_starts`, `penStop_drains` and those of the other states, `penSwap_fences`, `penReleaseCmd_frees`. -/
theorem penCommandsMovePens : Obligations.PenCommandsMovePens := by
  intro f p s htaken n x others
  refine ⟨?load, ?shadow, ?start, ?drain, ?dropShadow, ?leaveReady, ?dropLoad, ?swap, ?release⟩
  case load =>
    intro hst hbusy
    have hload : penLoad s n = _ := (penLoad_listed hst).trans (nextLoad_busy hbusy)
    rw [BitVec.ofNat_toNat, BitVec.setWidth_eq] at hload
    exact congrArg Host.Outcome.next (penCmd_of_taken htaken (congrArg (ite _ _) hload))
  case shadow =>
    intro hst hbusy
    have hload : penShadow s n = _ := (penShadow_listed hst).trans (nextLoad_busy hbusy)
    rw [BitVec.ofNat_toNat, BitVec.setWidth_eq] at hload
    exact congrArg Host.Outcome.next (penCmd_of_taken htaken (congrArg (ite _ _) hload))
  case start =>
    intro hst
    obtain ⟨hpen, hready, hstarted, hrest⟩ := penStart_starts hst
    have hans := hpen.answered (qs := [.pens, .ready, .stalls, .sinks, .resp]) rfl
    refine completes_of_taken (u := penStart s n) htaken rfl rfl
      ⟨hans.own, hans.others, fun e he hp => ?_, fun t ht hidle => ?_, hrest, hans.moves.only⟩
    · have he : e ∈ s.ready.filter fun e => e.1.toNat ≠ n := hready ▸ he
      exact absurd (congrArg BitVec.toNat hp) (by simpa using (List.mem_filter.mp he).2)
    · have hstall : ((penStart s n).answer .ok).stall t = startedStall (s.stall t) := hstarted t ht
      rw [hstall]
      refine ⟨rfl, rfl, rfl, rfl, rfl, rfl, rfl, rfl, rfl, rfl, ?_, rfl⟩
      exact if_neg (by rw [hidle]; decide)
  case drain =>
    intro hst hnone
    have hans := (penStop_drains hst (noLoads_iff.mpr hnone)).answered (qs := [.pens, .resp]) rfl
    exact completes_of_taken (u := penStop s n) htaken rfl rfl ⟨hans.own, hans.others, hans.moves.only⟩
  case dropShadow =>
    intro hst hsome hall
    obtain ⟨hdrain, hempty, hresult, hnone⟩ := penStop_abandonsShadow hst
      (hsome.imp fun j hj => ⟨hj.1, congrArg BitVec.toNat hj.2⟩) fun j hj hp => hall j hj (BitVec.eq_of_toNat_eq hp)
    exact completes_of_taken (u := penStop s n) htaken rfl rfl ⟨hdrain, hempty, hresult, noLoads_iff.mp hnone⟩
  case leaveReady =>
    intro hst
    have hans := (penStop_leavesReady hst).answered (qs := [.pens, .host, .hostMem, .pmus, .resp]) rfl
    exact completes_of_taken (u := penStop s n) htaken rfl rfl ⟨hans.own, hans.others, hans.moves.only⟩
  case dropLoad =>
    intro hst hsome hall
    obtain ⟨hfrom, hresult, hnone⟩ := penStop_abandonsLoad hst
      (hsome.imp fun j hj => ⟨hj.1, congrArg BitVec.toNat hj.2⟩) fun j hj hp => hall j hj (BitVec.eq_of_toNat_eq hp)
    exact completes_of_taken (u := penStop s n) htaken rfl rfl ⟨hfrom, hresult, noLoads_iff.mp hnone⟩
  case swap =>
    intro hst hshadow hswap
    obtain ⟨hpen, hfence, hrest, ms, hstrq, hsent⟩ := penSwap_fences hst hshadow hswap
    have hans := hpen.answered (qs := [.pens, .stalls, .strq, .resp]) rfl
    refine completes_of_taken (u := penSwap s n) htaken rfl rfl
      ⟨hans.own, hans.others, fun t ht => ?_, hrest, ⟨ms, hstrq⟩, hans.moves.only⟩
    obtain ⟨hroom, hfull⟩ := hfence t ht
    refine ⟨hroom, fun hno => ⟨hfull hno, ?_⟩⟩
    obtain ⟨m, hm, hline⟩ := hsent t ht hno
    exact ⟨m, (congrArg (m ∈ ·) hstrq).mpr (List.mem_append_right _ hm), hline⟩
  case release =>
    intro hst
    obtain ⟨hpen, hchutes⟩ := penReleaseCmd_frees hst
    have hans := hpen.answered (qs := [.pens, .chutes, .host, .hostMem, .pmus, .resp]) rfl
    have hown := hans.own
    refine completes_of_taken (u := penReleaseCmd s n) htaken rfl rfl
      ⟨?_, ?_, ?_, hans.others, fun c hvalid hp => ?_, hans.moves.only⟩
    · exact congrArg Pen.st hown
    · exact congrArg Pen.granted hown
    · exact congrArg Pen.result hown
    · exact hchutes c hvalid (congrArg BitVec.toNat hp)

end
end Sys2Proof.Machine

namespace Sys2Proof.Machine
open Sys2Proof

/-! ### Commands refused (R84, R114, R121, R402) -/

section
variable {s : State} {f : Func} {p : PenId} {cmd : Nat} {c : Instr}

/-- R84: a command of a VF that does not own the pen is denied. -/
theorem penCmd_denied (hserved : Served s f.toNat) (hready : s.tack.readyNow = true)
    (hown : penOwner s p.toNat ≠ f.toNat) (hf : f ≠ 0) :
    penCmd cmd f p s = denyAccess s (0x40000 + 0x40 * p.toNat) := by
  unfold penCmd
  exact barAccess_of_denied hserved hready (Nat.pos_of_ne_zero fun h => hf (BitVec.eq_of_toNat_eq h)) (decide_eq_false hown)

/-- A command of the owner that is refused sets RESULT to STATE, and does nothing else. -/
theorem exec_penCmd_refused {u : State} (hserved : Served s f.toNat) (hready : s.tack.readyNow = true)
    (hown : penOwner s p.toNat = f.toNat) (hexec : exec c s = .next (penCmd cmd f p s))
    (hcmd : penCommand cmd p.toNat s = if s.flt.failed then setResult s p.toNat rState else u)
    (h : s.flt.failed = true ∨ u = setResult s p.toNat rState) :
    exec c s = .next ((s.setPen p.toNat { s.pen p.toNat with result := 0x0B }).answer .ok) := by
  rw [hexec, penCmd_of_owner hserved hready hown, penCommand_refused hcmd h]

/-- R114, R121: a reserved value of PEN_CMD is no command. -/
theorem exec_penCmdReserved_refused {v : BitVec 4} (hserved : Served s f.toNat) (hready : s.tack.readyNow = true)
    (hown : penOwner s p.toNat = f.toNat) (hwf : Instr.wf (.penCmdReserved f p v) = true) :
    exec (.penCmdReserved f p v) s = .next ((s.setPen p.toNat { s.pen p.toNat with result := 0x0B }).answer .ok) := by
  have hwf : (decide (v = 0) || decide (7 ≤ v.toNat)) = true := hwf
  have hv : v = 0 ∨ 7 ≤ v.toNat := by simpa only [Bool.or_eq_true, decide_eq_true_eq] using hwf
  have hreserved : v.toNat = 0 ∨ 7 ≤ v.toNat := hv.imp_left fun h => by rw [h]; rfl
  have hcmd : (if 1 ≤ v.toNat && v.toNat ≤ 6 then 0 else v.toNat) = v.toNat := if_neg (by
    simp only [Bool.and_eq_true, decide_eq_true_eq]
    omega)
  have hexec : exec (.penCmdReserved f p v) s = .next (penCmd v.toNat f p s) :=
    congrArg (fun k => Host.Outcome.next (penCmd k f p s)) hcmd
  rw [hexec, penCmd_of_owner hserved hready hown, penCommand_reserved hreserved]
  rfl

end

/-! ### The stream of a load (R110 steps 3 and 4) -/

section
variable (s : State) (j : LoadJob)

/-- R109, R110: the container that a load's stream brings, its first record refused, where the stream stops, and the
lines read up to there. -/
def streamCont : Cont :=
  let addr := (s.pen j.pen.toNat).container.toNat
  contOf (j.hdr.toNat + 2 ^ 1024 * contRaw s (addr + 128) (hTotal j.hdr.toNat - 128)) addr

def streamBad : Option Refused :=
  let x := s.pen j.pen.toNat
  contCheck s (streamCont s j) ⟨j.pen.toNat, penOwner s j.pen.toNat, j.place, penChutes s j.pen.toNat⟩
    x.memBase.toNat x.memSize.toNat

/-- Where a stream of `n` bytes stops. -/
def stopAt (n : Nat) : Option Refused → Nat
  | some b => min n b.ends
  | none => n

def streamRead : State × Option Nat :=
  streamLines { s with loadNow := none } (s.pen j.pen.toNat).container.toNat
    (streamOffs (stopAt (hTotal j.hdr.toNat) (streamBad s j)))

/-- R77, R174: nothing holds the load's stream. -/
structure StreamFree : Prop where
  now : s.loadNow = some j
  alone : s.loadQ = []
  noSwap : (s.pen j.pen.toNat).swapping = false
  stalls : ∀ t ∈ penStalls s j.pen.toNat, (s.stall t).st ≠ .swap
  hubs : reqWaits s (s.pen j.pen.toNat).container.toNat (hTotal j.hdr.toNat) = false

/-- R110: with no swap in progress there is a bank to fill. -/
theorem freeBank_exists {p : Nat} (h : (s.pen p).swapping = false) :
    ∃ b, freeBank s p = some b ∧ b ≠ (s.pen p).curBank := by
  have hsome : (freeBank s p).isSome = true := by
    by_cases h0 : (s.pen p).curBank = 0
    · exact List.find?_isSome.mpr ⟨1, by simp, by simp [h, h0]⟩
    · exact List.find?_isSome.mpr ⟨0, by simp, by simpa [h] using Ne.symm h0⟩
  obtain ⟨b, hb⟩ := Option.isSome_iff_exists.mp hsome
  have hfound := List.find?_some hb
  simp only [Bool.and_eq_true, decide_eq_true_eq] at hfound
  exact ⟨b, hb, hfound.1⟩

/-- How a load's stream ends: the container, its first record refused, and what was read. -/
def streamEnd (j : LoadJob) (bank : BitVec 2) (c : Cont) (bad : Option Refused) (r : State × Option Nat) : State :=
  match r.2, bad with
  | some o, _ => endLoad r.1 j.pen.toNat j.isShadow rChecksum (locate c o).1 (locate c o).2
  | none, some b => endLoad r.1 j.pen.toNat j.isShadow b.code b.sec b.index
  | none, none =>
    if contCrcOk c then commitLoad r.1 j.pen.toNat j.isShadow c j.place bank
    else endLoad r.1 j.pen.toNat j.isShadow rChecksum 0 0

def streamEnds (bank : BitVec 2) : State := streamEnd j bank (streamCont s j) (streamBad s j) (streamRead s j)

variable {s j}

theorem execLoadStreamDone_streams {bank : BitVec 2} {c : Cont} {bad : Option Refused} (hnow : s.loadNow = some j)
    (hheld : ((penStalls s j.pen.toNat).any (fun t => (s.stall t).inSwap) ||
      reqWaits s (s.pen j.pen.toNat).container.toNat (hTotal j.hdr.toNat)) = false)
    (hfree : freeBank s j.pen.toNat = some bank) (hc : streamCont s j = c) (hbad : streamBad s j = bad) :
    execLoadStreamDone s = .next (nextLoad (streamEnd j bank c bad
      (streamLines { s with loadNow := none } (s.pen j.pen.toNat).container.toNat
        (streamOffs (stopAt (hTotal j.hdr.toNat) bad))))) := by
  rw [streamBad, hc] at hbad
  rw [streamCont] at hc
  simp only [execLoadStreamDone, hnow, hheld, hfree, Bool.false_eq_true, if_false, hc, hbad]
  cases bad with
  | none =>
    simp only [stopAt]
    obtain ⟨u, o⟩ := streamLines _ _ _
    cases o <;> rfl
  | some b =>
    simp only [stopAt]
    obtain ⟨u, o⟩ := streamLines _ _ _
    cases o <;> rfl

theorem loadStreamDone_ends (h : StreamFree s j) : ∃ bank, bank ≠ (s.pen j.pen.toNat).curBank ∧
    exec .loadStreamDone s = .next (nextLoad (streamEnds s j bank)) := by
  obtain ⟨bank, hfree, hbank⟩ := freeBank_exists s h.noSwap
  have hheld : ((penStalls s j.pen.toNat).any (fun t => (s.stall t).inSwap) ||
      reqWaits s (s.pen j.pen.toNat).container.toNat (hTotal j.hdr.toNat)) = false := by
    rw [h.hubs, Bool.or_false, List.any_eq_false]
    exact fun t ht => by simpa [Stall.inSwap] using h.stalls t ht
  exact ⟨bank, hbank, execLoadStreamDone_streams h.now hheld hfree rfl rfl⟩

/-- A state paired with what was found. -/
theorem Moves.pair {α : Type} {ps : List Part} {s t : State} (h : Moves ps s t) (x : α) : Moves ps s (t, x).1 := h

theorem streamLines_moves (s : State) (addr : Nat) (os : List Nat) :
    Moves soundReadParts s (streamLines s addr os).1 := by
  induction os generalizing s with
  | nil => exact .refl _ s
  | cons o os ih =>
    rw [streamLines]
    split
    · exact (readLine_noErrors_moves s (addr + o)).pair _
    · exact (readLine_noErrors_moves s (addr + o)).trans (ih _)

/-- Reading the stream leaves all but the loader and the memory's side of the device. -/
theorem streamRead_moves (s : State) (j : LoadJob) : Moves (.loadNow :: soundReadParts) s (streamRead s j).1 :=
  .step (streamLines_moves _ _ _) rfl ((loadNow_moves s none).mono rfl)

theorem streamRead_loadNow (s : State) (j : LoadJob) : (streamRead s j).1.loadNow = none :=
  (streamLines_moves { s with loadNow := none } _ _).same .loadNow rfl

/-- A stream that a check stops, or poison. -/
theorem streamEnds_of_bad {b : Refused} (hbad : streamBad s j = some b) (hread : (streamRead s j).2 = none)
    (bank : BitVec 2) :
    streamEnds s j bank = endLoad (streamRead s j).1 j.pen.toNat j.isShadow b.code b.sec b.index := by
  unfold streamEnds streamEnd
  rw [hread, hbad]

theorem streamEnds_of_poison {o : Nat} (hread : (streamRead s j).2 = some o) (bank : BitVec 2) :
    streamEnds s j bank = endLoad (streamRead s j).1 j.pen.toNat j.isShadow rChecksum (locate (streamCont s j) o).1
      (locate (streamCont s j) o).2 := by
  unfold streamEnds streamEnd
  rw [hread]

theorem streamEnds_of_crc (hbad : streamBad s j = none) (hread : (streamRead s j).2 = none)
    (hcrc : contCrcOk (streamCont s j) = false) (bank : BitVec 2) :
    streamEnds s j bank = endLoad (streamRead s j).1 j.pen.toNat j.isShadow rChecksum 0 0 := by
  unfold streamEnds streamEnd
  rw [hread, hbad, hcrc]
  rfl

theorem streamEnds_of_good (hbad : streamBad s j = none) (hread : (streamRead s j).2 = none)
    (hcrc : contCrcOk (streamCont s j) = true) (bank : BitVec 2) :
    streamEnds s j bank =
      commitLoad (streamRead s j).1 j.pen.toNat j.isShadow (streamCont s j) j.place bank := by
  unfold streamEnds streamEnd
  rw [hread, hbad, hcrc]
  rfl

/-- R109, R110, R114: a LOAD whose stream is refused goes back to where it came from with its code, and the slots of its
stalls stay. -/
structure LoadRefused (s : State) (p code sec index : Nat) (s' : State) : Prop where
  st : (s'.pen p).st = (s.pen p).from_
  result : (s'.pen p).result = BitVec.ofNat 8 code
  detSection : (s'.pen p).detSection = BitVec.ofNat 3 sec
  detIndex : (s'.pen p).detIndex = BitVec.ofNat 16 index
  loadNow : s'.loadNow = none
  stalls : ∀ t, { s'.stall t with shadowValid := (s.stall t).shadowValid } = s.stall t
  placement : s'.placement = s.placement
  pens : ∀ q, q ≠ p → s'.pen q = s.pen q

theorem loadStreamDone_refused {code sec index : Nat} (h : StreamFree s j) (hload : j.isShadow = false)
    (hends : ∀ bank, streamEnds s j bank = endLoad (streamRead s j).1 j.pen.toNat j.isShadow code sec index) :
    Completes .loadStreamDone s (LoadRefused s j.pen.toNat code sec index) := by
  obtain ⟨bank, -, hexec⟩ := loadStreamDone_ends h
  have hread := streamRead_moves s j
  have hpen (q : Nat) : (streamRead s j).1.pen q = s.pen q := hread.pen q rfl
  have hend := endLoad_ended (streamRead s j).1 j.pen.toNat false code sec index
  have hrest := (endLoad_becomes (streamRead s j).1 j.pen.toNat false code sec index).moves
  have hq : (endLoad (streamRead s j).1 j.pen.toNat false code sec index).loadQ = [] :=
    ((hrest.same .loadQ rfl).trans ((clearShadows_moves _ _).same .loadQ rfl)).trans
      ((hread.same .loadQ rfl).trans h.alone)
  rw [hends, hload, nextLoad_empty hq] at hexec
  rw [hpen] at hend
  exact ⟨_, hexec, {
    st := hend.st
    result := hend.result
    detSection := hend.detSection
    detIndex := hend.detIndex
    loadNow := ((hrest.same .loadNow rfl).trans ((clearShadows_moves _ _).same .loadNow rfl)).trans (streamRead_loadNow s j)
    stalls := fun t => by
      rw [← hread.stall rfl t]
      exact endLoad_stall_but _ _ _ _ _ _ t
    placement := ((hrest.same .placement rfl).trans ((clearShadows_moves _ _).same .placement rfl)).trans
      (hread.same .placement rfl)
    pens := fun q hq => (endLoad_pen_other _ _ _ _ _ _ hq).trans (hpen q) }⟩

/-- The fields of a refused LOAD as the statements list them. -/
theorem LoadRefused.listed {p code sec index : Nat} {s' : State} (h : LoadRefused s p code sec index s') :
    (s'.pen p).st = (s.pen p).from_ ∧ (s'.pen p).result = BitVec.ofNat 8 code ∧
      (s'.pen p).detSection = BitVec.ofNat 3 sec ∧ (s'.pen p).detIndex = BitVec.ofNat 16 index ∧ s'.loadNow = none ∧
      (∀ t, { s'.stall t with shadowValid := (s.stall t).shadowValid } = s.stall t) ∧ s'.placement = s.placement ∧
      ∀ q, q ≠ p → s'.pen q = s.pen q :=
  ⟨h.st, h.result, h.detSection, h.detIndex, h.loadNow, h.stalls, h.placement, h.pens⟩

end

/-- Settles O13: commands are refused by `exec_penCmd_refused` and denied by `penCmd_denied`; a load's stream ends by
`loadStreamDone_refused` for a record, a poisoned line and a CRC alike. -/
theorem penCommandsAndLoadsRefused : Obligations.PenCommandsAndLoadsRefused := by
  refine ⟨fun f p v s hserved hready => ⟨fun hown => ?owner, fun hown hf => ?denied⟩,
    fun s j hnow hq hswap hload => ?stream⟩
  case owner =>
    refine ⟨fun h => ?load, fun h => ?shadow, fun h => ?start, fun h => ?stop, fun h => ?swap, fun h => ?release,
      exec_penCmdReserved_refused hserved hready hown⟩
    case load => exact exec_penCmd_refused (u := penLoad s p.toNat) hserved hready hown rfl rfl (h.imp_right penLoad_refused)
    case shadow =>
      exact exec_penCmd_refused (u := penShadow s p.toNat) hserved hready hown rfl rfl (h.imp_right penShadow_refused)
    case start =>
      exact exec_penCmd_refused (u := penStart s p.toNat) hserved hready hown rfl rfl (h.imp_right penStart_refused)
    case stop => exact exec_penCmd_refused (u := penStop s p.toNat) hserved hready hown rfl rfl (h.imp_right penStop_refused)
    case swap => exact exec_penCmd_refused (u := penSwap s p.toNat) hserved hready hown rfl rfl (h.imp_right penSwap_refused)
    case release =>
      exact exec_penCmd_refused (u := penReleaseCmd s p.toNat) hserved hready hown rfl rfl
        (h.imp_right penReleaseCmd_refused)
  case denied =>
    have hdenied (cmd : Nat) : Host.Outcome.next (penCmd cmd f p s) =
        (Host.Outcome.next (denyAccess s (0x40000 + 0x40 * p.toNat)) : Host.Outcome State Fault Refusal) :=
      congrArg Host.Outcome.next (penCmd_denied hserved hready hown hf)
    simp only [List.forall_mem_cons, List.not_mem_nil, false_implies, implies_true, and_true]
    exact ⟨hdenied 1, hdenied 2, hdenied 3, hdenied 4, hdenied 5, hdenied 6, hdenied _⟩
  case stream =>
    intro n x addr size c bad lines refused hstalls hhubs
    have hfree : StreamFree s j := ⟨hnow, hq, hswap, hstalls, hhubs⟩
    have hread_eq : (streamRead s j).2 = lines (stopAt size (streamBad s j)) := rfl
    refine ⟨fun b hbad hread => ?record, fun o hread => ?poison, fun hbad hread hcrc => ?crc⟩
    case record =>
      have hrefused : streamBad s j = some b := hbad
      have hnone : (streamRead s j).2 = none := by rw [hread_eq, hrefused]; exact hread
      exact (loadStreamDone_refused hfree hload (streamEnds_of_bad hrefused hnone)).mono fun _ => LoadRefused.listed
    case poison =>
      have hpois : (streamRead s j).2 = some o := by
        rw [hread_eq]
        cases hb : streamBad s j with
        | none =>
          rw [show bad = none from hb] at hread
          exact hread
        | some b =>
          rw [show bad = some b from hb] at hread
          exact hread
      exact (loadStreamDone_refused hfree hload (streamEnds_of_poison hpois)).mono fun _ => LoadRefused.listed
    case crc =>
      have hgood : streamBad s j = none := hbad
      have hnone : (streamRead s j).2 = none := by rw [hread_eq, hgood]; exact hread
      exact (loadStreamDone_refused hfree hload (streamEnds_of_crc hgood hnone hcrc)).mono fun _ => LoadRefused.listed

end Sys2Proof.Machine

namespace Sys2Proof.Machine
open Sys2Proof

/-! ### A load that begins (R109, R110 steps 1 and 2) -/

section
variable {s u : State}

/-- What waits for a hub depends on the hubs and the panel network alone (R174). -/
theorem reqWaits_congr (hms : u.ms = s.ms) (hpnet : u.pnet = s.pnet) (a n : Nat) :
    reqWaits u a n = reqWaits s a n := by
  have hhub (h : Nat) : u.hub h = s.hub h := by rw [State.hub, hms, State.hub]
  have hrepl (d : Nat) : inReplacement u d = inReplacement s d := by rw [inReplacement, hpnet, inReplacement]
  have hof (b : Nat) : hubOf u b = hubOf s b := hubOf_of_st (fun h => by rw [hhub]) b
  simp only [reqWaits, hubWaits, hhub, hrepl, hof, held_of_pnet hpnet]

theorem headWaits_congr (hms : u.ms = s.ms) (hpnet : u.pnet = s.pnet) (a : Nat) : headWaits u a = headWaits s a := by
  have htop : memTop u = memTop s := memTop_of_st fun h => by rw [State.hub, hms, State.hub]
  have hraw : contRaw u a 128 = contRaw s a 128 := by rw [contRaw, hms, contRaw]
  simp only [headWaits, reqWaits_congr hms hpnet, htop, hraw]

end

section
variable (s : State) (p : Nat)

/-- R77, R83: a pen of which a LOAD has passed step 1, and its stalls. -/
def readied : State := (readyStalls (takeGrant s p) p false).updPen p fun y => { y with shadow := .empty }

def readiedParts : List Part := [.pens, .chutes, .stalls, .pmus]

theorem readied_becomes : PenBecomes readiedParts p { s.pen p with granted := true, shadow := .empty } s (readied s p) :=
  PenBecomes.upd (((takeGrant_becomes s p).mono rfl).step (readyStalls_moves _ _ _) rfl rfl)
    (fun y => { y with shadow := .empty }) rfl

theorem readied_active (t : Nat) : ((readied s p).stall t).active = (s.stall t).active :=
  (readyStalls_view (takeGrant s p) p Stall.active (fun _ _ _ => rfl) false t).trans
    (takeGrant_view s p Stall.active (fun _ => rfl) t)

variable {s} {j : LoadJob} {addr : Nat} (hload : j.isShadow = false)
  (haddr : (s.pen j.pen.toNat).container.toNat = addr) (htop : addr + 128 ≤ memTop s)
  (hclean : (readMem s addr 128).2.2 = false)
include hload haddr htop hclean

/-- R109: a header that fails a check ends the load. -/
theorem beginLoad_refused {code : Nat} (hcheck : headerCheck (readMem s addr 128).1 j.pen.toNat addr
      (leNat (readMem s addr 128).2.1) = some code) :
    beginLoad s j = endLoad (readMem s addr 128).1 j.pen.toNat false code 0 0 := by
  subst haddr
  unfold beginLoad
  extract_lets p addr r t k s1 s2
  rw [if_neg (Nat.not_lt.mpr htop), if_neg (by rw [hclean]; exact Bool.false_ne_true), hcheck, hload]

/-- R110: a header that passes, with stalls for its records, places them. -/
theorem beginLoad_placed {place : List StallId} :
    let p := j.pen.toNat
    let r := readMem s addr 128
    let k := leNat r.2.1
    headerCheck r.1 p addr k = none → hCount k ≤ (loadStalls (readied r.1 p) p).length →
    placement (readied r.1 p) p k (wideAt (readied r.1 p) addr k) = some place →
    beginLoad s j = { readied r.1 p with loadNow := some { j with hdr := BitVec.ofNat 1024 k, place := place } } := by
  intro p r k hcheck hcount hplace
  subst haddr
  unfold beginLoad
  extract_lets addr r' t k' s1 s2
  have hs2 : s2 = readied r.1 p := by
    simp only [s2, s1, hload, Bool.false_eq_true, if_false]
    rfl
  rw [if_neg (Nat.not_lt.mpr htop), if_neg (by rw [hclean]; exact Bool.false_ne_true), hcheck]
  dsimp only
  rw [hs2, if_neg (Nat.not_lt.mpr hcount), hplace]

end

section
variable {f : Func} {p : PenId} {s : State}

/-- R109: a pen whose LOAD begins. -/
def loadingPen (s : State) (p : Nat) : State := s.setPen p { s.pen p with from_ := (s.pen p).st, st := .loading }

/-- R109: with the loader idle and the container in reach, a LOAD begins at once. -/
theorem penLoad_begins (hst : (s.pen p.toNat).st = .free ∨ (s.pen p.toNat).st = .stopped ∨ (s.pen p.toNat).st = .faulted)
    (hnow : s.loadNow = none) (hq : s.loadQ = []) (hw : headWaits s (s.pen p.toNat).container.toNat = false) :
    penLoad s p.toNat = beginLoad (loadingPen s p.toNat) { pen := p, isShadow := false } := by
  have hcont : ((loadingPen s p.toNat).pen p.toNat).container = (s.pen p.toNat).container := by
    rw [loadingPen, setPen_pen, if_pos rfl]
  have hidle : { loadingPen s p.toNat with loadQ := [] } = loadingPen s p.toNat := by
    rw [← show (loadingPen s p.toNat).loadQ = [] from hq]
  have hload : penLoad s p.toNat =
      nextLoad { loadingPen s p.toNat with loadQ := [{ pen := p, isShadow := false }] } := by
    rw [penLoad_listed hst, BitVec.ofNat_toNat, BitVec.setWidth_eq, hq]
    rfl
  have hone := nextLoad_one (s := { loadingPen s p.toNat with loadQ := [{ pen := p, isShadow := false }] }) hnow rfl
    (((headWaits_congr (s := s) rfl rfl _).trans (congrArg (fun a : BitVec 64 => headWaits s a.toNat) hcont)).trans hw)
  exact hload.trans (hone.trans (congrArg (beginLoad · _) hidle))

end

/-! ### A load that completes (R110 step 4) -/

theorem setShadow_shadow (x : Stall) (v : Slot) : (x.setShadow v).shadow = v := by
  cases h : x.activeSlot <;> simp [Stall.setShadow, Stall.shadow, h]

theorem setShadow_active (x : Stall) (v : Slot) : (x.setShadow v).active = x.active := by
  cases h : x.activeSlot <;> simp [Stall.setShadow, Stall.active, h]

theorem setShadow_view {β : Type} (f : Stall → β) (hf : ∀ (x : Stall) v w, f { x with slot0 := v, slot1 := w } = f x)
    (x : Stall) (v : Slot) : f (x.setShadow v) = f x := by
  unfold Stall.setShadow
  split
  · exact hf x v x.slot1
  · exact hf x x.slot0 v

/-- R77, R110: a stall that has got a record in its shadow slot. -/
structure Shadowed (r : BitVec 4096) (i : Nat) (x y : Stall) : Prop where
  record : y.shadow.record = r
  recIdx : y.shadow.recIdx = i
  valid : y.shadowValid = true
  active : y.active = x.active
  tokens : y.tokens = x.tokens

section
variable (s : State) (t : Nat) (r : BitVec 4096) (i : Nat) (bank : BitVec 2)

/-- A stall with a complete record in its shadow slot. -/
def shadowedStall (v : Slot) (x : Stall) : Stall := { x.setShadow v with shadowValid := true }

theorem writeShadow_eq : writeShadow s t r i bank =
    injUse (s.updStall t (shadowedStall (newSlot s t r i bank))) t 3 := rfl

theorem writeShadow_moves : Moves [.stalls, .flt] s (writeShadow s t r i bank) := by
  rw [writeShadow_eq]
  exact .step (injUse_moves _ t 3) rfl ((setStall_moves s t _).mono rfl)

theorem writeShadow_stall (k : Nat) : (writeShadow s t r i bank).stall k =
    if k = t then shadowedStall (newSlot s t r i bank) (s.stall t) else s.stall k := by
  rw [writeShadow_eq, (injUse_moves _ t 3).stall rfl, updStall_def, setStall_stall]

theorem writeShadow_shadowed : Shadowed r i (s.stall t) ((writeShadow s t r i bank).stall t) := by
  rw [writeShadow_stall, if_pos rfl]
  exact {
    record := congrArg Slot.record (setShadow_shadow _ _)
    recIdx := congrArg Slot.recIdx (setShadow_shadow _ _)
    valid := rfl
    active := setShadow_active _ _
    tokens := setShadow_view Stall.tokens (fun _ _ _ => rfl) _ _ }

theorem writeShadow_failed (k : Nat) : ((writeShadow s t r i bank).stall k).failed = (s.stall k).failed := by
  rw [writeShadow_stall]
  split
  · next h => rw [h]; exact setShadow_view Stall.failed (fun _ _ _ => rfl) _ _
  · rfl

end

section
variable (s : State) (p : Nat) (c : Cont) (place : List StallId) (bank : BitVec 2)

/-- R110: a harness in a bank of its pen. -/
def bankedPen (bank : BitVec 2) (h : Harness) (x : Pen) : Pen :=
  if bank = 0 then { x with bank0 := h } else if bank = 1 then { x with bank1 := h } else { x with bank2 := h }

theorem bankedPen_bankAt (h : Harness) (x : Pen) : (bankedPen bank h x).bankAt bank = h := by
  unfold bankedPen Pen.bankAt
  split
  · rfl
  · split <;> rfl

theorem bankedPen_view {β : Type} (f : Pen → β)
    (hf : ∀ (x : Pen) a b d, f { x with bank0 := a, bank1 := b, bank2 := d } = f x) (h : Harness) (x : Pen) :
    f (bankedPen bank h x) = f x := by
  unfold bankedPen
  split
  · exact hf x h x.bank1 x.bank2
  · split
    · exact hf x x.bank0 h x.bank2
    · exact hf x x.bank0 x.bank1 h

/-- A record of a container written into the shadow slot of its stall, and the parked record into another's. -/
def placeRecord (bank : BitVec 2) (st : State) (e : (StallId × BitVec 4096) × Nat) : State :=
  writeShadow st e.1.1.toNat e.1.2 e.2 bank
def parkStall (bank : BitVec 2) (st : State) (t : Nat) : State := writeShadow st t parkedRecord 65536 bank

/-- The pen with its bank filled, the records in their stalls, and the stalls to be parked (R110, R112). -/
def bankFilled : State := s.updPen p (bankedPen bank (withPaths s (harnessOfCont c place)))
def recordsPlaced : State := (bankFilled s p c place bank).forAll (place.zip c.stalls).zipIdx (placeRecord bank)
def unplaced : List Nat := (penStalls s p).filter fun t => !(BitVec.ofNat 12 t ∈ place)

theorem writeRecords_eq :
    writeRecords s p c place bank = (recordsPlaced s p c place bank).forAll (unplaced s p place) (parkStall bank) := rfl

theorem placeRecord_each : EachStall (fun e : (StallId × BitVec 4096) × Nat => e.1.1.toNat)
    (fun e x y => Shadowed e.1.2 e.2 x y) (placeRecord bank) where
  others := fun st _ k hk => (writeShadow_stall st _ _ _ _ k).trans (if_neg hk)
  own := fun st _ => writeShadow_shadowed st _ _ _ _

theorem parkStall_each : EachStall id (fun _ x y => Shadowed parkedRecord 65536 x y) (parkStall bank) where
  others := fun st _ k hk => (writeShadow_stall st _ _ _ _ k).trans (if_neg hk)
  own := fun st _ => writeShadow_shadowed st _ _ _ _

theorem recordsPlaced_moves :
    Moves [.stalls, .flt] (bankFilled s p c place bank) (recordsPlaced s p c place bank) :=
  .fold (fun st _ => writeShadow_moves st _ _ _ _) (.refl _ _)

theorem writeRecords_becomes : PenBecomes [.pens, .stalls, .flt] p
    (bankedPen bank (withPaths s (harnessOfCont c place)) (s.pen p)) s (writeRecords s p c place bank) := by
  have hpark : Moves [.stalls, .flt] (recordsPlaced s p c place bank) (writeRecords s p c place bank) :=
    .fold (fun st _ => writeShadow_moves st _ _ _ _) (.refl _ _)
  have hbank : PenBecomes [.pens, .stalls, .flt] p _ s (bankFilled s p c place bank) :=
    (PenBecomes.refl _ p s).upd (bankedPen bank (withPaths s (harnessOfCont c place))) rfl
  exact (hbank.step (recordsPlaced_moves s p c place bank) rfl rfl).step hpark rfl rfl

theorem writeRecords_failed (t : Nat) : ((writeRecords s p c place bank).stall t).failed = (s.stall t).failed :=
  (forAll_view Stall.failed (fun st _ k => writeShadow_failed st _ _ _ _ k) _ _ t).trans
    (forAll_view Stall.failed (fun st _ k => writeShadow_failed st _ _ _ _ k) (bankFilled s p c place bank) _ t)

variable {s p c place bank}

theorem mem_unplaced {t : Nat} : t ∈ unplaced s p place ↔ t ∈ penStalls s p ∧ BitVec.ofNat 12 t ∉ place := by
  rw [unplaced, List.mem_filter, Bool.not_eq_true', decide_eq_false_iff_not]

theorem nodup_unplaced : (unplaced s p place).Nodup := (nodup_penStalls s p).filter _

theorem ofNat_stallId (t : StallId) : BitVec.ofNat 12 t.toNat = t := by rw [BitVec.ofNat_toNat, BitVec.setWidth_eq]

/-- The stalls that records are placed on are those of the placement. -/
theorem mem_place_of_zip {e : (StallId × BitVec 4096) × Nat} (he : e ∈ (place.zip c.stalls).zipIdx) : e.1.1 ∈ place :=
  (List.of_mem_zip (List.fst_mem_of_mem_zipIdx he)).1

theorem nodup_zip_stalls (h : place.Nodup) :
    ((place.zip c.stalls).zipIdx.map fun e => e.1.1.toNat).Nodup := by
  have hfst : (place.zip c.stalls).map Prod.fst = place.take (min place.length c.stalls.length) := by
    rw [List.zip_eq_zip_take_min, List.map_fst_zip (by simp)]
  have hmap : (place.zip c.stalls).zipIdx.map (fun e => e.1.1.toNat) =
      ((place.zip c.stalls).map Prod.fst).map BitVec.toNat := by
    rw [← List.zipIdx_map_fst 0 (place.zip c.stalls), List.map_map, List.map_map, List.zipIdx_map_fst]
    rfl
  rw [hmap, hfst]
  exact ((List.take_sublist _ _).nodup h).map fun _ _ e => BitVec.eq_of_toNat_eq e

/-- R110: a placed stall gets the record of its index. -/
theorem writeRecords_placed (hnodup : place.Nodup) {i : Nat} {t : StallId} {r : BitVec 4096} (ht : place[i]? = some t)
    (hr : c.stalls[i]? = some r) : Shadowed r i (s.stall t.toNat) ((writeRecords s p c place bank).stall t.toNat) := by
  have he : ((t, r), i) ∈ (place.zip c.stalls).zipIdx :=
    List.mem_zipIdx_iff_getElem?.mpr (List.getElem?_zip_eq_some.mpr ⟨ht, hr⟩)
  have hkept : t.toNat ∉ unplaced s p place := fun hmem =>
    (mem_unplaced.mp hmem).2 ((ofNat_stallId t).symm ▸ mem_place_of_zip he)
  rw [writeRecords_eq, (parkStall_each bank).forAll_apart _ hkept]
  exact (placeRecord_each bank).forAll_own (bankFilled s p c place bank) (nodup_zip_stalls hnodup) he

/-- A stall that no record is placed on. -/
theorem recordsPlaced_apart {t : Nat} (ht : BitVec.ofNat 12 t ∉ place) :
    (recordsPlaced s p c place bank).stall t = s.stall t :=
  (placeRecord_each bank).forAll_others (bankFilled s p c place bank) fun e he h =>
    ht (h ▸ (ofNat_stallId e.1.1).symm ▸ mem_place_of_zip he)

/-- R110: every other available stall gets a parked record. -/
theorem writeRecords_parked {t : Nat} (hmem : t ∈ penStalls s p) (ht : BitVec.ofNat 12 t ∉ place) :
    Shadowed parkedRecord 65536 (s.stall t) ((writeRecords s p c place bank).stall t) := by
  have hpark := (parkStall_each bank).forAll_stall (recordsPlaced s p c place bank) nodup_unplaced
    (mem_unplaced.mpr ⟨hmem, ht⟩)
  rwa [recordsPlaced_apart ht] at hpark

/-- R110: the records of a placement among the available stalls change no other. -/
theorem writeRecords_apart (hplace : ∀ t ∈ place, t.toNat ∈ penStalls s p) {t : Nat} (ht : t ∉ penStalls s p) :
    (writeRecords s p c place bank).stall t = s.stall t := by
  rw [writeRecords_eq, (parkStall_each bank).forAll_apart _ fun h => ht (mem_unplaced.mp h).1]
  exact (placeRecord_each bank).forAll_others (bankFilled s p c place bank) fun e he h =>
    ht (h ▸ hplace _ (mem_place_of_zip he))

end

section
variable (s : State) (p : Nat) (c : Cont) (place : List StallId) (bank : BitVec 2)

theorem initBinding_moves (v : PenView) (b : Binding) : Moves [.chutes] s (initBinding s c v b) := by
  unfold initBinding
  split
  · exact .ite (.refl _ s) (setChute_moves s _ _)
  · exact .refl _ s

theorem publishPlaces_moves : Moves [.placement] s (publishPlaces s p place) :=
  .of_same (fun q hq => by
    cases q
    case placement => exact nomatch hq
    all_goals rfl) rfl rfl rfl rfl rfl

/-- R110 step 4: the records in their slots, the bindings initialised and the placement published. -/
def recordsReady : State :=
  publishPlaces (c.binds.foldl (fun st b => initBinding st c ⟨p, penOwner s p, place, penChutes s p⟩ b)
    (writeRecords s p c place bank)) p place

theorem recordsReady_moves : Moves [.chutes, .placement] (writeRecords s p c place bank) (recordsReady s p c place bank) :=
  .step (publishPlaces_moves _ p place) rfl (.mono (qs := [.chutes])
    (.fold (fun st b => initBinding_moves st c _ b) (.refl _ _)) rfl)

theorem recordsReady_becomes : PenBecomes [.pens, .stalls, .flt, .chutes, .placement] p
    (bankedPen bank (withPaths s (harnessOfCont c place)) (s.pen p)) s (recordsReady s p c place bank) :=
  ((writeRecords_becomes s p c place bank).mono rfl).step (recordsReady_moves s p c place bank) rfl rfl

/-- R109, R114, R121: a pen whose load has completed, one that a LOAD has made READY from a bank, and one with a
SHADOW load complete. -/
def donePen (x : Pen) : Pen := { x with result := 0, detSection := 0, detIndex := 0 }
def readyPen (bank : BitVec 2) (x : Pen) : Pen :=
  { donePen x with curBank := bank, st := .ready, plans := [], swapping := false }

def shadowedPen (x : Pen) : Pen := { donePen x with shadow := .valid }

/-- The parts that a load's completion may change. -/
def commitParts : List Part :=
  [.pens, .stalls, .flt, .chutes, .placement, .sinks, .ready, .host, .hostMem, .pmus]

/-- R114: a SHADOW load leaves its records in the shadow slots. -/
theorem commitLoad_shadow :
    PenBecomes commitParts p (shadowedPen (bankedPen bank (withPaths s (harnessOfCont c place)) (s.pen p))) s
      (commitLoad s p true c place bank) ∧
    ∀ t, (commitLoad s p true c place bank).stall t = (writeRecords s p c place bank).stall t := by
  unfold commitLoad
  extract_lets v s1 ok s0
  rw [if_pos rfl]
  have h0 : PenBecomes commitParts p _ s s0 := ((recordsReady_becomes s p c place bank).mono rfl).upd shadowedPen rfl
  have hstall (t : Nat) : s0.stall t = (writeRecords s p c place bank).stall t :=
    (recordsReady_moves s p c place bank).stall rfl t
  have hevent := penEvent_moves s0 p (penCode (s0.pen p).st) false
  exact ⟨h0.step hevent rfl rfl, fun t => (hevent.stall rfl t).trans (hstall t)⟩

/-- R110: a stall after the exchange of its slots. -/
def exchangedSlots (x : Stall) : Stall :=
  { clearRun x with activeSlot := !x.activeSlot, activeValid := true, shadowValid := false, st := .idle }

theorem exchangedSlots_active (x : Stall) : (exchangedSlots x).active = x.shadow := by
  cases h : x.activeSlot <;> simp [exchangedSlots, Stall.active, Stall.shadow, clearRun, h]

theorem exchangeSlots_after (t : Nat) :
    Moves [.chutes, .sinks] (s.updStall t exchangedSlots) (exchangeSlots s t) :=
  .step (clearSinks_moves _ t) rfl ((dropConsumer_moves _ t).mono rfl)

theorem exchangeSlots_each : EachStall id (fun _ x y => y = exchangedSlots x) exchangeSlots :=
  eachStall_of_upd exchangedSlots exchangeSlots_after rfl

theorem exchangeSlots_moves (t : Nat) : Moves [.stalls, .chutes, .sinks] s (exchangeSlots s t) :=
  .step (exchangeSlots_after s t) rfl ((setStall_moves s t _).mono rfl)

/-- R110, R114: a LOAD exchanges the slots of every available stall, and its pen is READY. -/
theorem commitLoad_load :
    PenBecomes commitParts p (readyPen bank (bankedPen bank (withPaths s (harnessOfCont c place)) (s.pen p))) s
      (commitLoad s p false c place bank) ∧
    (∀ t ∈ penStalls s p, (commitLoad s p false c place bank).stall t =
      exchangedSlots ((writeRecords s p c place bank).stall t)) ∧
    ∀ t, t ∉ penStalls s p → (commitLoad s p false c place bank).stall t = (writeRecords s p c place bank).stall t := by
  unfold commitLoad
  extract_lets v s1 ok s0 s2 s3 s4 s5
  have h2 : PenBecomes commitParts p
      (readyPen bank (bankedPen bank (withPaths s (harnessOfCont c place)) (s.pen p))) s s2 :=
    ((recordsReady_becomes s p c place bank).mono rfl).upd (readyPen bank) rfl
  have hstall2 (t : Nat) : s2.stall t = (writeRecords s p c place bank).stall t :=
    (recordsReady_moves s p c place bank).stall rfl t
  have hstalls : penStalls s2 p = penStalls s p :=
    penStalls_congr (by rw [h2.own]; exact bankedPen_view _ Pen.dies (fun _ _ _ _ => rfl) _ _)
      (h2.moves.same .pnet rfl) fun t => by rw [hstall2, writeRecords_failed]
  have h23 : Moves [.stalls, .chutes, .sinks] s2 s3 := .fold exchangeSlots_moves (.refl _ _)
  have h34 : Moves [.chutes] s3 s4 := .fold (fun st _ => joinConsumer_moves st _ _ _ _) (.refl _ _)
  have h45 : Moves [.ready, .chutes] s4 s5 := .step (joinEngine_moves _ p) rfl ((ready_moves (s := s4) _).mono rfl)
  have hevent := penEvent_moves s5 p (penCode .ready) false
  have hstall (t : Nat) : (penEvent s5 p (penCode .ready) false).stall t = s3.stall t := by
    rw [hevent.stall rfl, h45.stall rfl, h34.stall rfl]
  rw [if_neg Bool.false_ne_true]
  refine ⟨(((h2.step h23 rfl rfl).step h34 rfl rfl).step h45 rfl rfl).step hevent rfl rfl, fun t ht => ?_,
    fun t ht => ?_⟩
  · rw [hstall, ← hstall2]
    exact exchangeSlots_each.forAll_stall s2 (nodup_penStalls s2 p) (hstalls ▸ ht)
  · rw [hstall, ← hstall2]
    exact exchangeSlots_each.forAll_apart s2 (hstalls ▸ ht)

end

end Sys2Proof.Machine

namespace Sys2Proof.Machine
open Sys2Proof

/-! ### Loads that check their container and complete (R109, R110) -/

section
variable {s : State} {f : Func} {p : PenId}

/-- R109: the state in which a LOAD of a pen has read its header. -/
def headerRead (s : State) (p : Nat) : State × List (BitVec 8) × Bool :=
  readMem (loadingPen s p) (s.pen p).container.toNat 128

theorem headerRead_becomes (s : State) (p : Nat) : PenBecomes (.pens :: soundReadParts) p
    { s.pen p with from_ := (s.pen p).st, st := .loading } s (headerRead s p).1 :=
  ((setPen_becomes s p _).mono rfl).step (readMem_moves _ _ _) rfl rfl

section
variable (hst : (s.pen p.toNat).st = .free ∨ (s.pen p.toNat).st = .stopped ∨ (s.pen p.toNat).st = .faulted)
  (hnow : s.loadNow = none) (hq : s.loadQ = []) (hw : headWaits s (s.pen p.toNat).container.toNat = false)
  (htop : (s.pen p.toNat).container.toNat + 128 ≤ memTop s) (hclean : (headerRead s p.toNat).2.2 = false)
include hst hnow hq hw htop hclean

theorem penLoad_placed {place : List StallId} :
    let addr := (s.pen p.toNat).container.toNat
    let k := leNat (headerRead s p.toNat).2.1
    let u := readied (headerRead s p.toNat).1 p.toNat
    headerCheck (headerRead s p.toNat).1 p.toNat addr k = none → hCount k ≤ (loadStalls u p.toNat).length →
    placement u p.toNat k (wideAt u addr k) = some place →
    penLoad s p.toNat =
      { u with loadNow := some { pen := p, isShadow := false, hdr := BitVec.ofNat 1024 k, place := place } } :=
  fun hcheck hcount hplace => (penLoad_begins hst hnow hq hw).trans
    (beginLoad_placed (s := loadingPen s p.toNat) (j := { pen := p, isShadow := false })
      (addr := (s.pen p.toNat).container.toNat) rfl (by rw [loadingPen, setPen_pen, if_pos rfl]) htop hclean
      hcheck hcount hplace)

theorem penLoad_refusedHeader {code : Nat} (hcheck : headerCheck (headerRead s p.toNat).1 p.toNat
      (s.pen p.toNat).container.toNat (leNat (headerRead s p.toNat).2.1) = some code) :
    penLoad s p.toNat = endLoad (headerRead s p.toNat).1 p.toNat false code 0 0 :=
  (penLoad_begins hst hnow hq hw).trans
    (beginLoad_refused (s := loadingPen s p.toNat) (j := { pen := p, isShadow := false })
      (addr := (s.pen p.toNat).container.toNat) rfl (by rw [loadingPen, setPen_pen, if_pos rfl]) htop hclean hcheck)

end

/-- R83, R109: a pen that its LOAD has given its grant, while the records stream. -/
theorem streaming_becomes (s : State) (p : Nat) (job : Option LoadJob) :
    PenBecomes [.loadNow, .pens, .chutes, .stalls, .pmus, .ms, .flt, .host, .free] p
      { s.pen p with from_ := (s.pen p).st, st := .loading, granted := true, shadow := .empty } s
      { readied (headerRead s p).1 p with loadNow := job } := by
  have hread := headerRead_becomes s p
  exact ((hread.mono rfl).trans ((readied_becomes _ p).cast (by rw [hread.own])) rfl).step (loadNow_moves _ job) rfl rfl

/-- What a LOAD with a bad header leaves (R109, R110). -/
theorem endLoad_headerRead (s : State) (p code : Nat) :
    let u := endLoad (headerRead s p).1 p false code 0 0
    u.loadNow = s.loadNow ∧ LoadEnded false code 0 0 { s.pen p with from_ := (s.pen p).st, st := .loading } (u.pen p) ∧
    (∀ t, { u.stall t with shadowValid := (s.stall t).shadowValid } = s.stall t) ∧
    ((s.pen p).granted = true → (s.pen p).swapping = false → ∀ t ∈ dieStalls s p, (u.stall t).shadowValid = false) ∧
    ∀ q, q ≠ p → u.pen q = s.pen q := by
  intro u
  have hread := headerRead_becomes s p
  have hend := endLoad_ended (headerRead s p).1 p false code 0 0
  have hdies : dieStalls (headerRead s p).1 p = dieStalls s p :=
    dieStalls_congr (congrArg Pen.dies hread.own :) (hread.moves.same .pnet rfl)
  have hmoves := (endLoad_becomes (headerRead s p).1 p false code 0 0).moves
  rw [hread.own] at hend
  refine ⟨?_, hend, fun t => ?_, fun hgrant hswap t ht => ?_, fun q hq => ?_⟩
  · exact ((hmoves.same .loadNow rfl).trans ((clearShadows_moves _ p).same .loadNow rfl)).trans
      (hread.moves.same .loadNow rfl)
  · rw [← hread.moves.stall rfl t]
    exact endLoad_stall_but _ _ _ _ _ _ t
  · exact endLoad_shadows _ _ _ _ _ _ ((congrArg Pen.granted hread.own).trans hgrant)
      ((congrArg Pen.swapping hread.own).trans hswap) (hdies ▸ ht)
  · exact (endLoad_pen_other _ _ _ _ _ _ hq).trans (hread.others q hq)

end

section
variable {s : State} {j : LoadJob}

/-- R110: the state that a stream of good records leaves. -/
def loadCommitted (s : State) (j : LoadJob) (bank : BitVec 2) : State :=
  commitLoad (streamRead s j).1 j.pen.toNat j.isShadow (streamCont s j) j.place bank

theorem penStalls_streamRead (s : State) (j : LoadJob) (p : Nat) : penStalls (streamRead s j).1 p = penStalls s p :=
  have h := streamRead_moves s j
  penStalls_congr (by rw [h.pen p rfl]) (h.same .pnet rfl) fun t => by rw [h.stall rfl]

/-- What every load that completes does (R109, R110). -/
structure LoadCommitted (s : State) (j : LoadJob) (u : State) : Prop where
  loadNow : u.loadNow = none
  loadQ : u.loadQ = s.loadQ
  result : (u.pen j.pen.toNat).result = 0
  others : ∀ q, q ≠ j.pen.toNat → u.pen q = s.pen q

theorem PenBecomes.loadCommitted {y : Pen} {u : State} (hy : y.result = 0)
    (h : PenBecomes commitParts j.pen.toNat y (streamRead s j).1 u) : LoadCommitted s j u where
  loadNow := (h.moves.same .loadNow rfl).trans (streamRead_loadNow s j)
  loadQ := (h.moves.same .loadQ rfl).trans ((streamRead_moves s j).same .loadQ rfl)
  result := (congrArg Pen.result h.own).trans hy
  others := fun q hq => (h.others q hq).trans ((streamRead_moves s j).pen q rfl)

/-- R110: the stall of a record's index after the records have been written. -/
def recordsWritten (s : State) (j : LoadJob) (bank : BitVec 2) : State :=
  writeRecords (streamRead s j).1 j.pen.toNat (streamCont s j) j.place bank

section
variable {bank : BitVec 2}

theorem recordsWritten_placed (hnodup : j.place.Nodup) {i : Nat} {t : StallId} {r : BitVec 4096}
    (ht : j.place[i]? = some t) (hr : (streamCont s j).stalls[i]? = some r) :
    Shadowed r i (s.stall t.toNat) ((recordsWritten s j bank).stall t.toNat) := by
  rw [← (streamRead_moves s j).stall rfl]
  exact writeRecords_placed hnodup ht hr

theorem recordsWritten_parked {t : Nat} (ht : t ∈ penStalls s j.pen.toNat) (hfree : BitVec.ofNat 12 t ∉ j.place) :
    Shadowed parkedRecord 65536 (s.stall t) ((recordsWritten s j bank).stall t) := by
  rw [← (streamRead_moves s j).stall rfl]
  exact writeRecords_parked (penStalls_streamRead s j _ ▸ ht) hfree

theorem recordsWritten_apart (hplace : ∀ t ∈ j.place, t.toNat ∈ penStalls s j.pen.toNat) {t : Nat}
    (ht : t ∉ penStalls s j.pen.toNat) : (recordsWritten s j bank).stall t = s.stall t := by
  rw [← (streamRead_moves s j).stall rfl t]
  exact writeRecords_apart (fun k hk => (penStalls_streamRead s j _).symm ▸ hplace k hk)
    (fun h => ht (penStalls_streamRead s j _ ▸ h))

/-- A record and its stall once the slots are exchanged. -/
theorem Shadowed.exchanged {r : BitVec 4096} {i : Nat} {x y : Stall} (h : Shadowed r i x y) :
    (exchangedSlots y).record = r ∧ (exchangedSlots y).active.recIdx = i :=
  ⟨(congrArg Slot.record (exchangedSlots_active y)).trans h.record,
    (congrArg Slot.recIdx (exchangedSlots_active y)).trans h.recIdx⟩

end
end

section
variable {s : State} {j : LoadJob} (hfree : StreamFree s j) (hbad : streamBad s j = none)
  (hread : (streamRead s j).2 = none) (hcrc : contCrcOk (streamCont s j) = true)
include hfree hbad hread hcrc

/-- R110: a stream without fault commits. -/
theorem loadStreamDone_commits {P : State → Prop}
    (hP : ∀ bank, bank ≠ (s.pen j.pen.toNat).curBank →
      (loadCommitted s j bank).loadQ = s.loadQ ∧ P (loadCommitted s j bank)) :
    Completes .loadStreamDone s P := by
  obtain ⟨bank, hbank, hexec⟩ := loadStreamDone_ends hfree
  obtain ⟨hq, hp⟩ := hP bank hbank
  have hgood : streamEnds s j bank = loadCommitted s j bank := streamEnds_of_good hbad hread hcrc bank
  rw [hgood, nextLoad_empty (hq.trans hfree.alone)] at hexec
  exact ⟨_, hexec, hp⟩

end

section
variable (s : State) (j : LoadJob) (bank : BitVec 2)

/-- The harness that a load leaves in its bank. -/
def loadedHarness : Harness := withPaths (streamRead s j).1 (harnessOfCont (streamCont s j) j.place)

theorem loadedHarness_noPaths :
    { loadedHarness s j with paths := [] } = harnessOfCont (streamCont s j) j.place := rfl

theorem readyPen_cur (h : Harness) (x : Pen) : (readyPen bank (bankedPen bank h x)).cur = h :=
  bankedPen_bankAt bank h x

/-- R110: a LOAD that commits leaves its pen READY, with the records of its stalls active. -/
theorem loadCommitted_load (hload : j.isShadow = false) :
    PenBecomes commitParts j.pen.toNat (readyPen bank (bankedPen bank (loadedHarness s j) (s.pen j.pen.toNat)))
      (streamRead s j).1 (loadCommitted s j bank) ∧
    (∀ t ∈ penStalls s j.pen.toNat,
      (loadCommitted s j bank).stall t = exchangedSlots ((recordsWritten s j bank).stall t)) ∧
    ∀ t, t ∉ penStalls s j.pen.toNat → (loadCommitted s j bank).stall t = (recordsWritten s j bank).stall t := by
  rw [loadCommitted, hload, ← penStalls_streamRead s j, ← (streamRead_moves s j).pen _ rfl]
  exact commitLoad_load _ _ _ _ _

/-- R114: a SHADOW load that commits leaves its pen's state, and the records in the shadow slots. -/
theorem loadCommitted_shadow (hshadow : j.isShadow = true) :
    PenBecomes commitParts j.pen.toNat (shadowedPen (bankedPen bank (loadedHarness s j) (s.pen j.pen.toNat)))
      (streamRead s j).1 (loadCommitted s j bank) ∧
    ∀ t, (loadCommitted s j bank).stall t = (recordsWritten s j bank).stall t := by
  rw [loadCommitted, hshadow, ← (streamRead_moves s j).pen _ rfl]
  exact commitLoad_shadow _ _ _ _ _

end

/-- Settles O14: `penLoad_placed` and `penLoad_refusedHeader` for the header; for the stream, `loadStreamDone_commits`
with what a LOAD and a SHADOW load leave. -/
theorem loadsCheckAndComplete : Obligations.LoadsCheckAndComplete := by
  refine ⟨fun f p s htaken hnow hq => ?header, fun s j hnow hq hswap => ?stream⟩
  case header =>
    intro n x s0 addr r k s2 hst htop hw hclean
    refine ⟨fun place hcheck hcount hplace => ?placed, fun code hcheck => ?refused⟩
    case placed =>
      have hload := penLoad_placed hst hnow hq hw htop hclean hcheck hcount hplace
      have hans (job : Option LoadJob) := (streaming_becomes s n job).answered
        (qs := [.loadNow, .pens, .chutes, .stalls, .pmus, .ms, .flt, .host, .free, .tack, .resp]) rfl
      refine completes_of_taken htaken rfl (congrArg (ite _ _) hload)
        ⟨rfl, ((hans _).moves.same .loadQ rfl).trans hq, ?_, ?_, (hans _).others, fun t => ?_, (hans _).moves.only⟩
      · exact congrArg Pen.st (hans _).own
      · exact congrArg Pen.granted (hans _).own
      · exact (readied_active _ n t).trans (congrArg Stall.active ((headerRead_becomes s n).moves.stall rfl t))
    case refused =>
      have hload := penLoad_refusedHeader hst hnow hq hw htop hclean hcheck
      have hleft := endLoad_headerRead s n code
      generalize endLoad (headerRead s n).1 n false code 0 0 = u at hload hleft
      obtain ⟨hnone, hended, hstalls, hshadows, hothers⟩ := hleft
      exact completes_of_taken htaken rfl (congrArg (ite _ _) hload)
        ⟨hnone.trans hnow, hended.st, hended.result, hended.detSection, hended.shadow, hstalls, hshadows, hothers⟩
  case stream =>
    intro n x addr size c v hgood hcrc hlines hstalls hhubs hnodup hplace
    have hfree : StreamFree s j := ⟨hnow, hq, hswap, hstalls, hhubs⟩
    have hbad : streamBad s j = none := hgood
    have hread : (streamRead s j).2 = none := by rw [streamRead, hbad]; exact hlines
    refine loadStreamDone_commits hfree hbad hread hcrc fun bank hbank => ?_
    have hmem {i : Nat} {t : StallId} (ht : j.place[i]? = some t) : t.toNat ∈ penStalls s n :=
      hplace t (List.mem_of_getElem? ht)
    cases hkind : j.isShadow with
    | false =>
      obtain ⟨hpen, hown, hrest⟩ := loadCommitted_load s j bank hkind
      obtain ⟨hdone, hqs, hresult, hothers⟩ := hpen.loadCommitted rfl
      refine ⟨hqs, hdone, hresult, hothers, fun t ht => (hrest t ht).trans (recordsWritten_apart hplace ht),
        fun _ => ⟨congrArg Pen.st hpen.own, ?_, ?_, fun i t r ht hr => ?_, fun t ht hnot => ?_⟩, nofun⟩
      · rw [hpen.own]
        exact hbank
      · rw [hpen.own, readyPen_cur]
        exact loadedHarness_noPaths s j
      · obtain ⟨hrecord, hindex⟩ := (recordsWritten_placed (bank := bank) hnodup ht hr).exchanged
        intro y
        rw [show y = _ from hown _ (hmem ht)]
        exact ⟨hrecord, hindex, rfl, rfl, rfl⟩
      · rw [hown t ht]
        exact (recordsWritten_parked ht hnot).exchanged.1
    | true =>
      obtain ⟨hpen, hall⟩ := loadCommitted_shadow s j bank hkind
      obtain ⟨hdone, hqs, hresult, hothers⟩ := hpen.loadCommitted rfl
      refine ⟨hqs, hdone, hresult, hothers, fun t ht => (hall t).trans (recordsWritten_apart hplace ht), nofun,
        fun _ => ⟨?_, congrArg Pen.shadow hpen.own, fun i t r ht hr => ?_, fun t ht hnot => ?_⟩⟩
      · rw [hpen.own]
        exact bankedPen_view bank Pen.st (fun _ _ _ _ => rfl) _ _
      · obtain ⟨hrecord, hindex, hvalid, hactive, htokens⟩ := recordsWritten_placed (bank := bank) hnodup ht hr
        intro y
        rw [show y = _ from hall _]
        exact ⟨hrecord, hindex, hvalid, hactive, htokens⟩
      · rw [hall t]
        exact (recordsWritten_parked ht hnot).record

end Sys2Proof.Machine

namespace Sys2Proof.Machine
open Sys2Proof

/-! ### The pointers of the chutes while packets are rewound (R132) -/

/-- No read, free or commit pointer of a chute moves. -/
def PointersKept (s u : State) : Prop :=
  ∀ c, (u.chute c).rp = (s.chute c).rp ∧ (u.chute c).fp = (s.chute c).fp ∧ (u.chute c).cp = (s.chute c).cp

section
variable {s t u : State}

theorem PointersKept.refl (s : State) : PointersKept s s := fun _ => ⟨rfl, rfl, rfl⟩

theorem PointersKept.trans (h : PointersKept s t) (h' : PointersKept t u) : PointersKept s u := fun c => by
  obtain ⟨hrp, hfp, hcp⟩ := h c
  obtain ⟨hrp', hfp', hcp'⟩ := h' c
  exact ⟨hrp'.trans hrp, hfp'.trans hfp, hcp'.trans hcp⟩

theorem PointersKept.ite {c : Prop} [Decidable c] (h : PointersKept s t) (h' : PointersKept s u) :
    PointersKept s (if c then t else u) := by
  split <;> assumption

/-- An operation that leaves the chutes. -/
theorem Moves.pointersKept {ps : List Part} (h : Moves ps s t) (hp : listed .chutes ps = false) : PointersKept s t :=
  fun c => by rw [h.chute c hp]; exact ⟨rfl, rfl, rfl⟩

theorem MarksOf.pointersKept {c : Nat} (h : MarksOf c s t) : PointersKept s t := fun k => by
  by_cases hk : k = c
  · obtain ⟨_, _, _, _, _, hsame⟩ := h.same
    rw [hk, hsame]
    exact ⟨rfl, rfl, rfl⟩
  · rw [h.others k hk]
    exact ⟨rfl, rfl, rfl⟩

theorem setChute_pointersKept {c : Nat} {x : Chute}
    (h : x.rp = (s.chute c).rp ∧ x.fp = (s.chute c).fp ∧ x.cp = (s.chute c).cp) : PointersKept s (s.setChute c x) :=
  fun k => by
    rw [setChute_chute]
    split
    · next hk => rw [hk]; exact h
    · exact ⟨rfl, rfl, rfl⟩

theorem PointersKept.fold {α : Type} {f : State → α → State} (hf : ∀ st x, PointersKept st (f st x)) (s : State)
    (xs : List α) : PointersKept s (xs.foldl f s) :=
  List.foldlRecOn (motive := PointersKept s) xs f (.refl s) fun st hst x _ => hst.trans (hf st x)

theorem PointersKept.fold_fst {α β : Type} {f : State × β → α → State × β}
    (hf : ∀ st x, PointersKept st.1 (f st x).1) (y : State × β) (xs : List α) : PointersKept y.1 (xs.foldl f y).1 :=
  List.foldlRecOn (motive := fun st : State × β => PointersKept y.1 st.1) xs f (.refl y.1)
    fun st hst x _ => hst.trans (hf st x)

theorem changeChute_pointersKept {c : Nat} {g : Chute → Chute}
    (h : ∀ x, (g x).rp = x.rp ∧ (g x).fp = x.fp ∧ (g x).cp = x.cp) :
    PointersKept s (changeChute s c g) :=
  (setChute_pointersKept (h (s.chute c))).trans (changeChute_marksOf g).pointersKept

/-- R132: an open packet rewound moves WP alone. -/
theorem abortAtChute_pointersKept (s : State) (c : Nat) (src : Source) : PointersKept s (abortAtChute s c src) := by
  unfold abortAtChute
  extract_lets x s1
  have hchange : PointersKept s (changeChute (chuteEvent s c evChuteRewinds) c fun y => rewindOpen y .aborted true) :=
    ((chuteEvent_moves s c _).pointersKept rfl).trans (changeChute_pointersKept fun _ => ⟨rfl, rfl, rfl⟩)
  have h1 : PointersKept s s1 := .ite (hchange.trans ((statusOut_moves _ _ _ _).pointersKept rfl)) (.refl s)
  exact h1.trans (setChute_pointersKept ⟨rfl, rfl, rfl⟩)

theorem abortSource_pointersKept (s : State) (src : Source) : PointersKept s (abortSource s src).1 := by
  have hchutes : PointersKept s (abortChutes s src) := by
    unfold abortChutes
    exact .fold (fun st _ => abortAtChute_pointersKept st _ src) s _
  rw [abortSource_fst]
  exact hchutes.trans ((abortLinks_moves _ _ _).pointersKept rfl)

theorem rewindPorts_pointersKept (s : State) (k : Nat) : PointersKept s (rewindPorts s k).1 := by
  unfold rewindPorts
  refine .fold_fst (fun x n => ?_) (s, 0) _
  dsimp only
  exact abortSource_pointersKept x.1 _

theorem rewindAll_pointersKept (s : State) (ts : List Nat) (n : Nat) : PointersKept s (rewindAll s ts n).1 := by
  unfold rewindAll
  refine .fold_fst (fun x k => ?_) (s, n) _
  dsimp only
  exact rewindPorts_pointersKept x.1 k

end

/-! ### Stalls that stop (R115, R116) -/

/-- R115, R116: a stall that holds no line and no token, with its record. -/
def StallSwept (x y : Stall) : Prop :=
  y.inp = [] ∧ y.vtok = none ∧ y.win = [] ∧ y.closed = none ∧ y.conv = [] ∧ y.out = none ∧
    y.record = x.record ∧ y.failed = x.failed ∧ y.tokens = x.tokens

def stoppedStall (x : Stall) : Stall :=
  { clearRun x with inp := [], st := if x.st = .fault || x.st = .failed || x.st = .off then x.st else .idle }

theorem stoppedStall_swept (x : Stall) : StallSwept x (stoppedStall x) := ⟨rfl, rfl, rfl, rfl, rfl, rfl, rfl, rfl, rfl⟩

theorem stopStall_each : EachStall id (fun _ x y => y = stoppedStall x) stopStall :=
  eachStall_of_upd stoppedStall (fun _ t => clearSinks_moves _ t) rfl

/-- R115 to R117: the stalls of a pen swept, the lines on their way to them gone, and no pointer of a chute moved. -/
structure Swept (p : Nat) (s u : State) : Prop where
  stalls : ∀ t ∈ grantStalls s p, StallSwept (s.stall t) (u.stall t)
  strq : ∀ m ∈ u.strq, (s.pen p).dies.getLsbD (m.t.toNat / 64) = false
  pointers : PointersKept s u

section
variable {s t u : State} {p : Nat} {ps : List Part}

/-- After that, an operation on none of them. -/
theorem Swept.step (h : Swept p s t) (hm : Moves ps t u)
    (hparts : ([.stalls, .strq, .chutes] : List Part).all (fun k => !listed k ps) = true) : Swept p s u := by
  simp only [List.all_cons, List.all_nil, Bool.and_true, Bool.and_eq_true, Bool.not_eq_true'] at hparts
  obtain ⟨hstalls, hstrq, hchutes⟩ := hparts
  have hq : u.strq = t.strq := hm.same .strq hstrq
  exact ⟨fun k hk => by rw [hm.stall hstalls]; exact h.stalls k hk, fun m hmem => h.strq m (hq ▸ hmem),
    h.pointers.trans (hm.pointersKept hchutes)⟩

/-- R119: the shadows are not what is swept. -/
theorem Swept.shadowsGone (h : Swept p s t) (ts : List Nat) : Swept p s (shadowsGone t ts) := by
  have hmoves := shadowsGone_moves t ts
  refine ⟨fun k hk => ?_, fun m hmem => ?_, h.pointers.trans (hmoves.pointersKept rfl)⟩
  · have hview := forAll_updStall_view (fun x : Stall => { x with shadowValid := false })
      (g := fun x => { x with shadowValid := false }) (fun _ => rfl) t ts k
    have hswept : StallSwept (s.stall k) { t.stall k with shadowValid := false } := h.stalls k hk
    rw [← hview] at hswept
    exact hswept
  · have hq : (Machine.shadowsGone t ts).strq = t.strq := hmoves.same .strq rfl
    exact h.strq m (hq ▸ hmem)

end

/-! ### The end of a pen's work (R114 to R119) -/

section
variable (s : State) (p : Nat) (aborted : Bool)

/-- R115 to R117: what a pen's cleanup is made of. -/
theorem penCleanup_parts : ∃ n q a x, penCleanup s p aborted =
      (cleared (rewindAll s (grantStalls s p) n).1 (grantStalls s p) q a).setPen p x ∧
    (∀ m ∈ q, (s.pen p).dies.getLsbD (m.t.toNat / 64) = false) ∧ x.aborted = aborted ∧ x.swapping = false := by
  unfold penCleanup
  extract_lets ts mine toks tiles lines r s1 s2
  exact ⟨(s.pen p).faultPackets, s2.strq, s2.anchors, _, rfl,
    fun m hm => by simpa [mine] using (List.mem_filter.mp hm).2, rfl, rfl⟩

/-- R115 to R117: a pen cleaned up has its stalls swept. -/
theorem penCleanup_swept : ∃ x, PenBecomes abortParts p x s (penCleanup s p aborted) ∧ x.aborted = aborted ∧
    x.swapping = false ∧ Swept p s (penCleanup s p aborted) := by
  obtain ⟨n, q, a, x, h, hq, habort, hswap⟩ := penCleanup_parts s p aborted
  have hrewind := rewindAll_moves s (grantStalls s p) n
  have hclear := cleared_moves (rewindAll s (grantStalls s p) n).1 (grantStalls s p) q a
  rw [h]
  refine ⟨x, ?_, habort, hswap, ?_⟩
  · exact ((((hrewind.penBecomes rfl p).mono rfl).step hclear rfl rfl).trans (setPen_becomes _ p x) rfl)
  · refine Swept.step ?_ (setPen_moves _ p x) rfl
    refine ⟨fun t ht => ?_, hq, (rewindAll_pointersKept s _ n).trans (hclear.pointersKept rfl)⟩
    have hstop := stopStall_each.forAll_stall (rewindAll s (grantStalls s p) n).1 (nodup_grantStalls s p) ht
    rw [show (cleared _ _ q a).stall t = _ from hstop, hrewind.stall rfl]
    exact stoppedStall_swept _

/-- R114 to R116: a pen that stops. -/
theorem penStopped_stops : let u := penStopped s p aborted
    (u.pen p).st = .stopped ∧ (u.pen p).aborted = aborted ∧ (u.pen p).swapping = false ∧ Swept p s u ∧
      ∀ q, q ≠ p → u.pen q = s.pen q := by
  obtain ⟨x, hpen, habort, hswap, hswept⟩ := penCleanup_swept s p aborted
  have hstop := (hpen.upd (fun y => { y with st := .stopped }) rfl).step (penEvent_moves _ p (penCode .stopped) false)
    rfl rfl
  exact ⟨congrArg Pen.st hstop.own, (congrArg Pen.aborted hstop.own).trans habort,
    (congrArg Pen.swapping hstop.own).trans hswap,
    (hswept.step (setPen_moves _ p _) rfl).step (penEvent_moves _ _ _ _) rfl, hstop.others⟩

theorem shadowsGone_shadow {ts : List Nat} (hnodup : ts.Nodup) {t : Nat} (ht : t ∈ ts) :
    ((shadowsGone s ts).stall t).shadowValid = false :=
  congrArg Stall.shadowValid ((updStall_each fun x => { x with shadowValid := false }).forAll_stall s hnodup ht)

/-- R118, R119: a pen that faults. -/
theorem penFaulted_faults : let u := penFaulted s p
    (u.pen p).st = .faulted ∧ (u.pen p).aborted = true ∧ (u.pen p).shadow = .empty ∧ Swept p s u ∧
      (∀ t ∈ grantStalls s p, (u.stall t).shadowValid = false) ∧ ∀ q, q ≠ p → u.pen q = s.pen q := by
  obtain ⟨x, hpen, habort, -, hswept⟩ := penCleanup_swept s p true
  have hfault := ((hpen.step (shadowsGone_moves _ (grantStalls s p)) rfl rfl).upd
    (fun y => { y with st := .faulted, shadow := .empty }) rfl).step (penEvent_moves _ p (penCode .faulted) false) rfl rfl
  rw [penFaulted_eq]
  refine ⟨congrArg Pen.st hfault.own, (congrArg Pen.aborted hfault.own).trans habort, congrArg Pen.shadow hfault.own,
    ((hswept.shadowsGone _).step (setPen_moves _ p _) rfl).step (penEvent_moves _ _ _ _) rfl, fun t ht => ?_,
    hfault.others⟩
  rw [(penEvent_moves _ _ _ _).stall rfl]
  exact shadowsGone_shadow _ (nodup_grantStalls s p) ht

end

end Sys2Proof.Machine

namespace Sys2Proof.Machine
open Sys2Proof

/-! ### A stall of a pen in FAULT (R114, R118, R119) -/

section
variable {p : PenId} {s : State}

/-- The stalls of a pen's dies in FAULT, and stalls marked FAILED. -/
def stallsInFault (s : State) (p : Nat) : List Nat := (grantStalls s p).filter fun t => (s.stall t).st = .fault
def markedFailed (s : State) (ts : List Nat) : State :=
  s.forAll ts fun st t => st.updStall t fun y => { y with failed := true }

theorem markedFailed_failed {ts : List Nat} (hnodup : ts.Nodup) {t : Nat} (ht : t ∈ ts) :
    ((markedFailed s ts).stall t).failed = true :=
  congrArg Stall.failed ((updStall_each fun y => { y with failed := true }).forAll_stall s hnodup ht)

section
variable {t : Nat} (ht : t ∈ grantStalls s p.toNat) (hfault : (s.stall t).st = .fault)
  (hgrant : (s.pen p.toNat).granted = true)
include ht hfault

theorem mem_stallsInFault : t ∈ stallsInFault s p.toNat := List.mem_filter.mpr ⟨ht, decide_eq_true hfault⟩

include hgrant

theorem penFault_acts : ¬ (stallsInFault s p.toNat = [] || !(s.pen p.toNat).granted) = true := by
  simp [List.ne_nil_of_mem (mem_stallsInFault ht hfault), hgrant]

/-- R118: in any state but FREE, FAULTED and LOADING the pen faults. -/
theorem execPenFault_faults (hnow : s.loadNow = none) (hq : s.loadQ = [])
    (hst : (s.pen p.toNat).st = .ready ∨ (s.pen p.toNat).st = .running ∨ (s.pen p.toNat).st = .draining ∨
      (s.pen p.toNat).st = .stopped) : exec (.penFault p) s = .next (penFaulted s p.toNat) := by
  have hexec : execPenFault p s = .next (penFaulted (abandonLoads s p.toNat rFault) p.toNat) := by
    unfold execPenFault
    refine congrArg Host.Outcome.next ((if_neg (penFault_acts ht hfault hgrant)).trans ?_)
    rcases hst with hst | hst | hst | hst <;> rw [hst]
  rw [abandonLoads_none rFault hnow hq] at hexec
  exact hexec

/-- R114: in LOADING the load is abandoned, and the stall is marked. -/
theorem execPenFault_loading (hst : (s.pen p.toNat).st = .loading) : exec (.penFault p) s =
    .next (abandonLoads (markedFailed s (stallsInFault s p.toNat)) p.toNat rFault) := by
  have hexec : execPenFault p s =
      .next (abandonLoads (markedFailed s (stallsInFault s p.toNat)) p.toNat rFault) := by
    unfold execPenFault
    refine congrArg Host.Outcome.next ((if_neg (penFault_acts ht hfault hgrant)).trans ?_)
    rw [hst]
    rfl
  exact hexec

end
end

theorem Swept.listed {p : Nat} {s u : State} (h : Swept p s u) :
    (∀ t ∈ grantStalls s p, StallSwept (s.stall t) (u.stall t)) ∧
      (∀ m ∈ u.strq, (s.pen p).dies.getLsbD (m.t.toNat / 64) = false) ∧ PointersKept s u :=
  ⟨h.stalls, h.strq, h.pointers⟩

/-- Settles O15: `penStopped_stops` for a drain's end and its limit, `penFaulted_faults` for a fault, and
`abandonLoads_ended` for a fault in LOADING. That an abort ends a swap in progress is the model's choice (log [60]), and
that a fault discards the shadow is a reading (log [28]). -/
theorem drainsAbortsAndFaults : Obligations.DrainsAbortsAndFaults := by
  intro p s n x swept
  refine ⟨fun hst hdrained => ?drain, fun hst => ?limit, fun t ht hfault hgrant hnow hq hst => ?fault,
    fun t ht hfault hgrant hst hsome hall => ?load⟩
  case drain =>
    obtain ⟨hstopped, habort, hswap, hswept, hothers⟩ := penStopped_stops s n false
    have hexec : exec (.drainComplete p) s = .next (penStopped s n false) :=
      congrArg Host.Outcome.next (if_pos (by rw [hst, hdrained]; rfl))
    exact ⟨_, hexec, hstopped, habort, hswap, hswept.listed, hothers⟩
  case limit =>
    obtain ⟨hstopped, habort, hswap, hswept, hothers⟩ := penStopped_stops s n true
    have hexec : exec (.drainLimitExpiry p) s = .next (penStopped s n true) := congrArg Host.Outcome.next (if_pos hst)
    exact ⟨_, hexec, hstopped, habort, hswap, hswept.listed, hothers⟩
  case fault =>
    obtain ⟨hfaulted, habort, hshadow, hswept, hgone, hothers⟩ := penFaulted_faults s n
    exact ⟨_, execPenFault_faults ht hfault hgrant hnow hq hst, hfaulted, habort, hshadow, hswept.listed, hgone, hothers⟩
  case load =>
    have hmarks := forAll_updStall_moves s (fun y => { y with failed := true }) (stallsInFault s n)
    have hmarkpen : (markedFailed s (stallsInFault s n)).pen n = x := hmarks.pen n rfl
    have hjobs : (markedFailed s (stallsInFault s n)).loadNow.toList ++ (markedFailed s (stallsInFault s n)).loadQ =
        s.loadNow.toList ++ s.loadQ :=
      congrArg₂ (fun (a : Option LoadJob) b => a.toList ++ b) (hmarks.same .loadNow rfl) (hmarks.same .loadQ rfl)
    obtain ⟨hended, -, hfailed⟩ := abandonLoads_ended (s := markedFailed s (stallsInFault s n)) (b := false) rFault
      (hjobs ▸ hsome.imp fun j hj => ⟨hj.1, congrArg BitVec.toNat hj.2⟩)
      (fun j hj hp => hall j (hjobs ▸ hj) (BitVec.eq_of_toNat_eq hp))
    rw [hmarkpen] at hended
    refine ⟨_, execPenFault_loading ht hfault hgrant hst, hended.st, hended.result, (hfailed t).trans ?_⟩
    exact markedFailed_failed ((nodup_grantStalls s n).filter _) (mem_stallsInFault ht hfault)

end Sys2Proof.Machine

namespace Sys2Proof.Machine
open Sys2Proof

/-! ### One chute set by an operation -/

/-- An operation sets one chute, leaves the others, and changes only some parts. -/
structure ChuteBecomes (ps : List Part) (c : Nat) (y : Chute) (s u : State) : Prop where
  own : u.chute c = y
  others : ∀ k, k ≠ c → u.chute k = s.chute k
  moves : Moves ps s u

section
variable {s t u : State} {c : Nat} {x y z : Chute} {ps qs : List Part}

theorem setChute_becomes (s : State) (c : Nat) (y : Chute) : ChuteBecomes [.chutes] c y s (s.setChute c y) where
  own := (setChute_chute _ _ _ _).trans (if_pos rfl)
  others := fun _ hk => setChute_other y hk
  moves := setChute_moves s c y

theorem Moves.chuteBecomes (h : Moves ps s t) (hp : listed .chutes ps = false) (c : Nat) :
    ChuteBecomes ps c (s.chute c) s t := ⟨h.chute c hp, fun k _ => h.chute k hp, h⟩

theorem ChuteBecomes.mono (h : ChuteBecomes qs c y s u) (hp : covers qs ps = true) : ChuteBecomes ps c y s u :=
  ⟨h.own, h.others, h.moves.mono hp⟩

theorem ChuteBecomes.cast (h : ChuteBecomes ps c y s u) (e : y = z) : ChuteBecomes ps c z s u := e ▸ h

theorem ChuteBecomes.trans (h : ChuteBecomes ps c y s t) (h' : ChuteBecomes ps c z t u) : ChuteBecomes ps c z s u :=
  ⟨h'.own, fun k hk => (h'.others k hk).trans (h.others k hk), h.moves.trans h'.moves⟩

/-- After that, an operation that leaves the chutes. -/
theorem ChuteBecomes.step (h : ChuteBecomes ps c y s t) (h' : Moves qs t u) (hq : listed .chutes qs = false)
    (hp : covers qs ps = true) : ChuteBecomes ps c y s u :=
  h.trans (((h'.chuteBecomes hq c).cast h.own).mono hp)

/-- After that, the chute is set again. -/
theorem ChuteBecomes.set (h : ChuteBecomes ps c y s t) (z : Chute) (hp : covers [.chutes] ps = true) :
    ChuteBecomes ps c z s (t.setChute c z) := h.trans ((setChute_becomes t c z).mono hp)

/-- Before it, an operation that leaves the chutes. -/
theorem ChuteBecomes.after (h : ChuteBecomes ps c y t u) (h' : Moves qs s t) (hq : listed .chutes qs = false)
    (hp : covers qs ps = true) : ChuteBecomes ps c y s u := ((h'.chuteBecomes hq c).mono hp).trans h

/-- After that, what leaves of the chute all but its marks' records. -/
theorem ChuteBecomes.marked (h : ChuteBecomes ps c y s t) (hm : MarksOf c t u) (hmoves : Moves ps t u) :
    ∃ z, SameButMarks y z ∧ ChuteBecomes ps c z s u :=
  ⟨u.chute c, h.own ▸ hm.same, rfl, fun k hk => (hm.others k hk).trans (h.others k hk), h.moves.trans hmoves⟩

theorem changeChute_becomes (s : State) (c : Nat) (f : Chute → Chute) :
    ∃ z, SameButMarks (f (s.chute c)) z ∧ ChuteBecomes markParts c z s (changeChute s c f) :=
  ((setChute_becomes s c (f (s.chute c))).mono rfl).marked (changeChute_marksOf f) (marks_moves _ _ _)

/-- A change whose chute's entry is checked, without an evaluation of its marks. -/
theorem changeEntry_becomes (s : State) (c : Nat) (f : Chute → Chute) :
    ChuteBecomes [.chutes, .flt, .host] c (f (s.chute c)) s (changeEntry s c f) :=
  ((setChute_becomes s c (f (s.chute c))).mono rfl).step (sliceCheck_moves _ _ _) rfl rfl

/-- R151: a refusal shows in PSTAT alone. -/
def refusedChute (x : Chute) : Chute := { x with pstat := .refused }

theorem refuseChute_becomes (s : State) (c : Nat) :
    ChuteBecomes [.chutes, .flt, .host] c (refusedChute (s.chute c)) s (refuseChute s c) :=
  ((setChute_becomes s c (refusedChute (s.chute c))).mono rfl).step (bucketReport_moves _ _ _ _ _) rfl rfl

end

/-! ### A command by its requester (R151, R152, R156, R331) -/

section
variable {s : State} {c : ChuteId} {r : Requester} {op : Nat} {w : ChuteWord}

/-- R156: the state after a command, whose slot shows a host's result. -/
def bellAnswered (c : Nat) (r : Requester) (x : State × Nat) : State :=
  match r with
  | .host _ => (x.1.setDoorbell c { x.1.doorbell c with
      result := BitVec.ofNat 3 x.2, pstat := (x.1.chute c).pstat }).answer .ok
  | _ => x.1

theorem bellAnswered_moves (c : Nat) (r : Requester) (x : State × Nat) :
    Moves [.doorbells, .resp] x.1 (bellAnswered c r x) := by
  cases r with
  | host f => exact .step (answer_moves _ _) rfl ((setDoorbell_moves x.1 c _).mono rfl)
  | stall t p => exact .refl _ _
  | dma k => exact .refl _ _
  | loader => exact .refl _ _
  | remote d k i => exact .refl _ _

theorem bellAnswered_answered {x : State × Nat} {n : Nat} (h : ∀ f, r = .host f → x.2 = n) :
    RequestAnswered c r (BitVec.ofNat 3 n) (bellAnswered c.toNat r x) := by
  cases r with
  | host f =>
    rw [← h f rfl]
    refine ⟨congrArg Doorbell.result (setDoorbell_doorbell _ _ _ _ |>.trans (if_pos rfl)),
      congrArg Doorbell.pstat (setDoorbell_doorbell _ _ _ _ |>.trans (if_pos rfl)), rfl⟩
  | stall t p => trivial
  | dma k => trivial
  | loader => trivial
  | remote d k i => trivial

/-- R156: a host's command that waits for nothing goes through the slot, in whose staging words the word may stand. -/
theorem doorbellGo_answered {f : Func} (hbell : bellWaits s f = false) (hop : 1 ≤ op ∧ op ≤ 9) (c : Nat) :
    (doorbellGo s c f op w).answer .ok = bellAnswered c (.host f) (chuteGo s c (.host f) op w) := by
  rw [doorbellGo, hbell, if_neg (by decide), ringBell, if_pos (by simp [hop])]
  rfl

/-- A command that arrives is looked at by the chute, and answered. -/
theorem chuteCmd_arrives (harr : RequestArrives s c r) (hop : 1 ≤ op ∧ op ≤ 9) (w : ChuteWord) :
    ∃ d, chuteCmd s c.toNat r op w = bellAnswered c.toNat r (chuteGo { s with doorbells := d } c.toNat r op w) := by
  cases r with
  | host f =>
    obtain ⟨hserved, hready, hown, hbell⟩ := harr
    have hown' := hown.imp (fun h => show f.toNat = 0 by rw [h]; rfl) fun h => decide_eq_true h
    unfold chuteCmd
    simp only [barAccess_of_served hserved hready hown']
    by_cases h1 : op = 1
    · rw [if_pos h1]
      exact ⟨_, doorbellGo_answered (s := s.setDoorbell c.toNat { s.doorbell c.toNat with w := w.data }) hbell hop _⟩
    · rw [if_neg h1]
      exact ⟨s.doorbells, doorbellGo_answered hbell hop _⟩
  | stall t p => exact ⟨s.doorbells, if_pos (by simp [hop])⟩
  | dma k => exact ⟨s.doorbells, if_pos (by simp [hop])⟩
  | loader => exact ⟨s.doorbells, if_pos (by simp [hop])⟩
  | remote d k i => exact ⟨s.doorbells, if_pos (by simp [hop])⟩

/-- What may be commanded does not depend on the doorbell slots. -/
theorem chuteMay_doorbells (s : State) (d : Tab Doorbell) (c : Nat) (r : Requester) (op : Nat) :
    chuteMay { s with doorbells := d } c r op = chuteMay s c r op := by
  cases r <;> rfl

/-- What a command does to its chute, and the result that a host reads. -/
structure CommandDoes (ps : List Part) (c : Nat) (r : Requester) (Y : Chute → Prop) (n : Nat) (s : State)
    (x : State × Nat) : Prop where
  becomes : ∃ z, Y z ∧ ChuteBecomes ps c z s x.1
  result : ∀ f, r = .host f → x.2 = n

variable {Y : Chute → Prop} {n : Nat} {ps : List Part}

/-- A command that arrives: its effect, with its answer. -/
theorem chuteCmd_does (harr : RequestArrives s c r) (hop : 1 ≤ op ∧ op ≤ 9) (hdoor : covers [.doorbells, .resp] ps = true)
    (hgo : ∀ d, CommandDoes ps c.toNat r Y n { s with doorbells := d }
      (chuteGo { s with doorbells := d } c.toNat r op w)) :
    ∃ z, Y z ∧ ChuteBecomes ps c.toNat z s (chuteCmd s c.toNat r op w) ∧
      RequestAnswered c r (BitVec.ofNat 3 n) (chuteCmd s c.toNat r op w) := by
  obtain ⟨d, hcmd⟩ := chuteCmd_arrives harr hop w
  obtain ⟨⟨z, hz, hbecomes⟩, hresult⟩ := hgo d
  rw [hcmd]
  refine ⟨z, hz, (hbecomes.step (bellAnswered_moves _ _ _) rfl hdoor).after (qs := [.doorbells]) (doorbells_moves s d) rfl
    ?_, bellAnswered_answered hresult⟩
  simp only [covers, List.all_cons, List.all_nil, Bool.and_true, Bool.and_eq_true] at hdoor ⊢
  exact hdoor.1

/-- R151, R152, R194: an accepted command of a held chute. -/
theorem chuteCmd_accepted (harr : RequestArrives s c r) (hop : 1 ≤ op ∧ op ≤ 9)
    (hdoor : covers [.doorbells, .resp] ps = true) (hmay : chuteMay s c.toNat r op = true)
    (hheld : chuteHeld s (c.toNat / 1024) = true)
    (hdo : ∀ d, CommandDoes ps c.toNat r Y n { s with doorbells := d }
      (chuteDo { s with doorbells := d } c.toNat r op w)) :
    ∃ z, Y z ∧ ChuteBecomes ps c.toNat z s (chuteCmd s c.toNat r op w) ∧
      RequestAnswered c r (BitVec.ofNat 3 n) (chuteCmd s c.toNat r op w) :=
  chuteCmd_does harr hop hdoor fun d => by
    have hgo : chuteGo { s with doorbells := d } c.toNat r op w = chuteDo { s with doorbells := d } c.toNat r op w :=
      if_pos (by rw [chuteMay_doorbells, hmay, Bool.true_and]; exact hheld)
    rw [hgo]
    exact hdo d

/-- R151: a refused command. -/
theorem chuteCmd_refused (harr : RequestArrives s c r) (hop : 1 ≤ op ∧ op ≤ 9) (hmay : chuteMay s c.toNat r op = false) :
    ChuteBecomes [.chutes, .doorbells, .resp, .flt, .host] c.toNat (refusedChute (s.chute c.toNat)) s
        (chuteCmd s c.toNat r op w) ∧
      RequestAnswered c r 1 (chuteCmd s c.toNat r op w) := by
  obtain ⟨z, rfl, hbecomes, hanswer⟩ := chuteCmd_does (w := w) (n := dbRefused)
    (ps := [.chutes, .doorbells, .resp, .flt, .host]) (Y := (· = refusedChute (s.chute c.toNat))) harr hop rfl
    fun d => by
      have hgo : chuteGo { s with doorbells := d } c.toNat r op w =
          (refuseChute { s with doorbells := d } c.toNat, dbRefused) :=
        if_neg (by rw [chuteMay_doorbells, hmay, Bool.false_and]; exact Bool.false_ne_true)
      rw [hgo]
      exact ⟨⟨_, rfl, (refuseChute_becomes { s with doorbells := d } c.toNat).mono rfl⟩, fun _ _ => rfl⟩
  exact ⟨hbecomes, hanswer⟩

/-- A command whose change has its marks evaluated. -/
theorem changeChute_does (s : State) (c : Nat) (r : Requester) (f : Chute → Chute) :
    CommandDoes ([.doorbells, .resp] ++ markParts) c r (SameButMarks (f (s.chute c))) dbOk s (changeChute s c f, dbOk) :=
  ⟨(changeChute_becomes s c f).imp fun _ h => ⟨h.1, h.2.mono rfl⟩, fun _ _ => rfl⟩

/-- The same after a count of the chute's die. -/
theorem countedChange_does (s : State) (c ev : Nat) (r : Requester) (f : Chute → Chute) :
    CommandDoes ([.doorbells, .resp] ++ markParts) c r (SameButMarks (f (s.chute c))) dbOk s
      (changeChute (chuteEvent s c ev) c f, dbOk) := by
  obtain ⟨z, hz, hb⟩ := changeChute_becomes (chuteEvent s c ev) c f
  rw [chuteEvent_chute] at hz
  exact ⟨⟨z, hz, (hb.mono rfl).after (chuteEvent_moves s c ev) rfl rfl⟩, fun _ _ => rfl⟩

/-- A command that changes a checked entry. -/
theorem changeEntry_does (s : State) (c : Nat) (r : Requester) (f : Chute → Chute) :
    CommandDoes [.chutes, .doorbells, .resp, .flt, .host] c r (· = f (s.chute c)) dbOk s (changeEntry s c f, dbOk) :=
  ⟨⟨_, rfl, (changeEntry_becomes s c f).mono rfl⟩, fun _ _ => rfl⟩

end
end Sys2Proof.Machine

namespace Sys2Proof.Machine
open Sys2Proof

/-! ### FLUSH refused with BUSY (R143) -/

section
variable {s : State}

/-- R143: the consumer endpoint is a stall of a pen that works. -/
theorem flushBusy_working {c p : Nat} {t : StallId} {q : PortId} (hconsumer : (s.chute c).consumer = .stall t q)
    (hpen : penOfDie s (t.toNat / 64) = some p) (hst : (s.pen p).st = .running ∨ (s.pen p).st = .draining) :
    flushBusy s c = true := by
  simp [flushBusy, hconsumer, hpen, hst]

/-- R143: a busy FLUSH of a state that differs in its doorbell slots alone. -/
theorem chuteDo_flushBusy {c : Nat} (r : Requester) (d : Tab Doorbell) (hbusy : flushBusy s c = true) :
    chuteDo { s with doorbells := d } c r 6 noWord = ({ s with doorbells := d }, dbBusy) := if_pos hbusy

end

/-- Settles O19: the busy FLUSH gives back the state it found, and only the answer follows. -/
theorem flushBusyChangesNothing : Obligations.FlushBusyChangesNothing := by
  intro c r s t q p hheld hctl harr hst hconsumer hpen hwork
  have hbusy := flushBusy_working hconsumer hpen hwork
  obtain ⟨d, hcmd⟩ := chuteCmd_arrives (op := 6) harr (by decide) noWord
  have hmay : chuteMay s c.toNat r 6 = true := by simp [chuteMay, hctl, hst]
  have hgo : chuteGo { s with doorbells := d } c.toNat r 6 noWord = ({ s with doorbells := d }, dbBusy) := by
    refine (if_pos ?_).trans (chuteDo_flushBusy r d hbusy)
    rw [chuteMay_doorbells, hmay, Bool.true_and]
    exact hheld
  rw [hgo] at hcmd
  refine ⟨_, congrArg Host.Outcome.next hcmd, bellAnswered_answered fun _ _ => rfl, Moves.only ?_⟩
  exact .step (bellAnswered_moves _ _ _) rfl ((doorbells_moves s d).mono rfl)

/-! ### Refusals (R151, R152) -/

/-- Settles O20: each of these commands is one that `chuteMay` does not accept, and `chuteCmd_refused` says what follows. -/
theorem chuteCommandsRefused : Obligations.ChuteCommandsRefused := by
  intro c r w s harr n x refused
  have hrefused {i : Instr} {op : Nat} {w' : ChuteWord} (hexec : exec i s = .next (chuteCmd s n r op w'))
      (hop : 1 ≤ op ∧ op ≤ 9) (hmay : chuteMay s n r op = false) : refused i := by
    obtain ⟨hbecomes, hanswer⟩ := chuteCmd_refused (w := w') harr hop hmay
    exact ⟨_, hexec, hbecomes.own, hbecomes.others, hanswer, hbecomes.moves.only⟩
  refine ⟨fun h => ⟨hrefused (op := 1) rfl (by decide) h, hrefused (op := 2) rfl (by decide) (by simp [chuteMay, h])⟩,
    fun _ h => hrefused (op := 2) rfl (by decide) ?abort,
    fun h => ⟨hrefused (op := 3) rfl (by decide) h, hrefused (op := 4) rfl (by decide) h,
      hrefused (op := 5) rfl (by decide) h⟩,
    fun h => hrefused (op := 6) rfl (by decide) ?flush, fun h => hrefused (op := 9) rfl (by decide) ?init,
    fun h => hrefused (op := 7) rfl (by decide) ?enable, fun h => hrefused (op := 8) rfl (by decide) ?disable⟩
  case abort =>
    have hmay : chuteMay s n r 2 =
        (mayProduce s n r && decide (x.st ≠ .disabled) && x.opened && decide (x.src = reqSource s r)) := rfl
    rw [hmay]
    rcases h with h | h <;> simp [h]
  case flush =>
    have hmay : chuteMay s n r 6 = (mayControl s n r && decide (x.st ≠ .disabled)) := rfl
    rw [hmay]
    rcases h with h | h <;> simp [h]
  case init =>
    have hmay : chuteMay s n r 9 = (mayControl s n r && decide (x.st = .disabled)) := rfl
    rw [hmay]
    rcases h with h | h <;> simp [h]
  case enable =>
    have hmay : chuteMay s n r 7 = (mayControl s n r && decide (x.st = .disabled) && depthValid x.depth.toNat) := rfl
    have hdepth : x.depth = 0 → depthValid x.depth.toNat = false := fun h => by rw [h]; rfl
    rw [hmay]
    rcases h with h | h | h
    · simp [h]
    · simp [h]
    · rw [hdepth h, Bool.and_false]
  case disable =>
    have hmay : chuteMay s n r 8 = (mayControl s n r && decide (x.st = .enabled)) := rfl
    rw [hmay]
    rcases h with h | h <;> simp [h]

/-! ### FLUSH, INIT, ENABLE, DISABLE (R142, R144, R145) -/

/-- R144: a chute ENABLED. -/
def enabledChute (x : Chute) : Chute := { x with st := .enabled }

/-- R142: where FLUSH leaves a chute's pointers, and its packet. -/
theorem flushChute_fields (x : Chute) : let y := flushChute x
    y.wp = x.fp ∧ y.cp = x.fp ∧ y.rp = x.fp ∧ y.mp = x.fp ∧ y.fp = x.fp ∧ y.wslot = 0 ∧ y.opened = false ∧
      (x.opened = true → x.src ∈ y.discards ∧ x.src ∈ y.flushes) ∧
      (x.opened = false → y.discards = x.discards ∧ y.flushes = x.flushes) ∧ y.pstat = x.pstat ∧ y.st = x.st := by
  cases hop : x.opened <;> simp [flushChute, hop, mem_addNew]

/-- R132, R142: FLUSH and its evaluation of the marks. -/
theorem flushCounted_does (s : State) (c : Nat) (r : Requester) :
    CommandDoes ([.doorbells, .resp] ++ markParts) c r (SameButMarks (flushChute (s.chute c))) dbOk s
      (flushCounted s c, dbOk) := by
  unfold flushCounted
  split
  · exact countedChange_does s c evChuteRewinds r flushChute
  · exact changeChute_does s c r flushChute

/-- R152: an opcode that the table does not name. -/
theorem chuteBadOp_opcode {c : ChuteId} {r : Requester} {op : BitVec 4} (h : Instr.wf (.chuteBadOp c r op) = true) :
    ¬ (1 ≤ op.toNat ∧ op.toNat ≤ 9) := by
  have h' : op = 0 ∨ 10 ≤ op.toNat := by simpa [Instr.wf] using h
  rcases h' with rfl | h'
  · decide
  · omega

/-- R152, R156: a reserved opcode is answered, and does nothing more. -/
theorem chuteCmd_reserved {s : State} {c : ChuteId} {r : Requester} {op : Nat} {w : ChuteWord}
    (harr : RequestArrives s c r) (hop : ¬ (1 ≤ op ∧ op ≤ 9)) :
    chuteCmd s c.toNat r op w = bellAnswered c.toNat r (s, dbBadOp) := by
  have h1 : op ≠ 1 := by omega
  cases r with
  | host f =>
    obtain ⟨hserved, hready, hown, hbell⟩ := harr
    have hown' := hown.imp (fun h => show f.toNat = 0 by rw [h]; rfl) fun h => decide_eq_true h
    unfold chuteCmd
    simp only [barAccess_of_served hserved hready hown', if_neg h1]
    rw [doorbellGo, hbell, if_neg Bool.false_ne_true, ringBell, if_neg (by simpa using hop)]
    rfl
  | stall t p => exact if_neg (by simpa using hop)
  | dma k => exact if_neg (by simpa using hop)
  | loader => exact if_neg (by simpa using hop)
  | remote d k i => exact if_neg (by simpa using hop)

/-- Settles O18: FLUSH through `flushChute_fields`, the other commands through `changeEntry_becomes`. -/
theorem chuteControlCommands : Obligations.ChuteControlCommands := by
  intro c r op s hheld hctl harr n x others slot
  refine ⟨fun hst hbusy => ?flush, fun hst => ?init, fun hst hlo hhi => ?enable, fun hst => ?disable, fun hwf => ?bad⟩
  case flush =>
    have hmay : chuteMay s n r 6 = true := by simp [chuteMay, hctl, hst, x, n]
    obtain ⟨z, ⟨_, _, _, _, _, rfl⟩, hb, hanswer⟩ := chuteCmd_accepted (w := noWord)
      (Y := SameButMarks (flushChute x)) harr (by decide) rfl hmay hheld fun d => by
        rw [show chuteDo { s with doorbells := d } n r 6 noWord = (flushCounted { s with doorbells := d } n, dbOk) from
          if_neg (Bool.eq_false_iff.mp hbusy)]
        exact flushCounted_does { s with doorbells := d } n r
    obtain ⟨hwp, hcp, hrp, hmp, hfp, hslot, hopen, hdisc, hkeep, hpstat, hstate⟩ := flushChute_fields x
    refine ⟨_, rfl, ?_⟩
    dsimp only
    rw [hb.own]
    exact ⟨hwp, hcp, hrp, hmp, hfp, hslot, hopen, hdisc, hkeep, hpstat, hstate, hanswer, hb.others,
      (hb.moves.mono rfl).only⟩
  case init =>
    have hmay : chuteMay s n r 9 = true := by simp [chuteMay, hctl, hst, x, n]
    obtain ⟨z, rfl, hb, hanswer⟩ := chuteCmd_accepted (w := noWord) (Y := (· = initChute x)) harr (by decide) rfl
      hmay hheld fun d => changeEntry_does { s with doorbells := d } n r initChute
    refine ⟨_, rfl, ?_⟩
    dsimp only
    rw [hb.own]
    exact ⟨rfl, rfl, rfl, rfl, rfl, rfl, rfl, rfl, rfl, rfl, rfl, rfl, rfl, rfl, hst, rfl, rfl, rfl, rfl, hanswer,
      hb.others, hb.moves.only⟩
  case enable =>
    have hmay : chuteMay s n r 7 = true := by simp [chuteMay, depthValid, hctl, hst, hlo, hhi, x, n] at *
    obtain ⟨z, rfl, hb, hanswer⟩ := chuteCmd_accepted (w := noWord) (Y := (· = enabledChute x)) harr (by decide)
      rfl hmay hheld fun d => changeEntry_does { s with doorbells := d } n r enabledChute
    exact ⟨_, rfl, hb.own, hanswer, hb.others, hb.moves.only⟩
  case disable =>
    have hmay : chuteMay s n r 8 = true := by simp [chuteMay, hctl, hst, x, n]
    obtain ⟨z, rfl, hb, hanswer⟩ := chuteCmd_accepted (w := noWord) (Y := (· = disablingChute x)) harr (by decide)
      rfl hmay hheld fun d => changeEntry_does { s with doorbells := d } n r disablingChute
    exact ⟨_, rfl, hb.own, hanswer, hb.others, hb.moves.only⟩
  case bad =>
    have hop := chuteBadOp_opcode hwf
    have hexec : exec (.chuteBadOp c r op) s = .next (chuteCmd s n r op.toNat noWord) :=
      congrArg (fun k => Host.Outcome.next (chuteCmd s n r k noWord)) (if_neg (by simpa using hop))
    rw [chuteCmd_reserved harr hop] at hexec
    exact ⟨_, hexec, bellAnswered_answered fun _ _ => rfl, (bellAnswered_moves _ _ _).only⟩

end Sys2Proof.Machine

namespace Sys2Proof.Machine
open Sys2Proof

/-! ### What an evaluation of the marks records (R138 to R140) -/

section
variable {s : State} {c : Nat}

/-- R139: a chute with one crossing counted. -/
def crossedChute (x : Chute) (up : Bool) : Chute :=
  { x with hwmSeen := x.hwmSeen || up, lwmSeen := x.lwmSeen || !up, crossings := x.crossings + 1 }

theorem crossing_becomes (s : State) (c : Nat) (up : Bool) :
    ChuteBecomes markParts c (crossedChute (s.chute c) up) s (crossing s c up) := by
  have h := (setChute_becomes s c (crossedChute (s.chute c) up)).mono (ps := markParts) rfl
  unfold crossing
  extract_lets s1 x
  split
  · exact h.step (raiseEvent_moves _ _ _ _ _) rfl rfl
  · exact h

/-- A crossing counted where one is met. -/
theorem ite_crossing_becomes (p : Bool) (s : State) (c : Nat) (up : Bool) :
    ChuteBecomes markParts c (if p then crossedChute (s.chute c) up else s.chute c) s
      (if p then crossing s c up else s) := by
  cases p with
  | true => exact crossing_becomes s c up
  | false => exact ⟨rfl, fun _ _ => rfl, .refl markParts s⟩

/-- R140: a chute with another REMOTE_SRC. -/
def withRemoteSrc (x : Chute) (r : BitVec 64) : Chute := { x with remoteSrc := r }

theorem notifyXoff_becomes (s : State) (c : Nat) (on : Bool) :
    ∃ r, ChuteBecomes markParts c (withRemoteSrc (s.chute c) r) s (notifyXoff s c on) := by
  have h : ChuteBecomes markParts c (s.chute c) s (sendMarks s c on) :=
    ((sendMarks_moves s c on).chuteBecomes rfl c).mono rfl
  rw [notifyXoff_eq]
  cases on with
  | true => exact ⟨(s.chute c).remoteSrc, h⟩
  | false => exact ⟨0, (h.set (withRemoteSrc ((sendMarks s c false).chute c) 0) rfl).cast (by rw [h.own])⟩

/-- R138, R139: what the marks' evaluation finds, from the chute before and after a change. -/
def crossesUp (old x : Chute) : Bool := !old.atHigh && x.atHigh
def crossesDown (old x : Chute) : Bool := decide (x.high ≠ 0) && !old.atLow && x.atLow

/-- R138: a chute with another XOFF. -/
def withXoff (x : Chute) (b : Bool) : Chute := { x with xoff := b }

/-- R138, R139: a chute with the records of an evaluation of its marks. -/
def markedChute (old x : Chute) : Chute :=
  let y := withXoff x x.nextXoff
  let z := if crossesUp old x then crossedChute y true else y
  if crossesDown old x then crossedChute z false else z

theorem marks_becomes (old : Chute) (s : State) (c : Nat) :
    ∃ r, ChuteBecomes markParts c (withRemoteSrc (markedChute old (s.chute c)) r) s (marks old s c) := by
  unfold marks
  extract_lets x xoff s1 s2 s3
  have hslice : (sliceCheck old s c).chute c = x := (sliceCheck_moves s c old).chute c rfl
  have hset := ((setChute_becomes (sliceCheck old s c) c (withXoff ((sliceCheck old s c).chute c) xoff)).mono
    (ps := markParts) rfl).after (sliceCheck_moves s c old) rfl rfl
  have h1 : ChuteBecomes markParts c (withXoff x xoff) s s1 := hset.cast (by rw [hslice])
  have h2 : ChuteBecomes markParts c (if crossesUp old x then crossedChute (s1.chute c) true else s1.chute c) s s2 :=
    h1.trans (ite_crossing_becomes _ _ _ _)
  have h3 : ChuteBecomes markParts c (if crossesDown old x then crossedChute (s2.chute c) false else s2.chute c) s s3 :=
    h2.trans (ite_crossing_becomes _ _ _ _)
  have hown : ChuteBecomes markParts c (markedChute old x) s s3 := h3.cast (by rw [h2.own, h1.own]; rfl)
  split
  · exact ⟨_, hown⟩
  · obtain ⟨r, hr⟩ := notifyXoff_becomes s3 c xoff
    exact ⟨r, (hown.trans hr).cast (by rw [hown.own])⟩

theorem changeChute_marked (s : State) (c : Nat) (f : Chute → Chute) :
    ∃ r, ChuteBecomes markParts c (withRemoteSrc (markedChute (s.chute c) (f (s.chute c))) r) s (changeChute s c f) := by
  have hset := setChute_becomes s c (f (s.chute c))
  obtain ⟨r, hr⟩ := marks_becomes (s.chute c) (s.setChute c (f (s.chute c))) c
  rw [hset.own] at hr
  exact ⟨r, (hset.mono rfl).trans hr⟩

/-- R138, R139: the records of the marks, and nothing of the chute's pointers. -/
theorem markedChute_fields (old x : Chute) : let z := markedChute old x
    z.high = x.high ∧ z.low = x.low ∧ z.xoff = x.nextXoff ∧ z.hwmSeen = (x.hwmSeen || crossesUp old x) ∧
      z.lwmSeen = (x.lwmSeen || crossesDown old x) ∧
      z.crossings = x.crossings + (if crossesUp old x then 1 else 0) + (if crossesDown old x then 1 else 0) ∧
      z.wp = x.wp ∧ z.cp = x.cp ∧ z.rp = x.rp ∧ z.mp = x.mp ∧ z.fp = x.fp := by
  cases hup : crossesUp old x <;> cases hdown : crossesDown old x <;> simp [markedChute, crossedChute, withXoff, hup, hdown]

end

/-- R139: a chute whose HIGH_WM or LOW_WM is written. -/
def withMark (high : Bool) (v : Reg32) (x : Chute) : Chute :=
  if high then { x with high := v.setWidth 21 } else { x with low := v.setWidth 21 }

/-- The pointers and records of a chute do not depend on the mark written. -/
theorem withMark_fields (high : Bool) (v : Reg32) (x : Chute) : let y := withMark high v x
    y.hwmSeen = x.hwmSeen ∧ y.lwmSeen = x.lwmSeen ∧ y.crossings = x.crossings ∧ y.wp = x.wp ∧ y.cp = x.cp ∧
      y.rp = x.rp ∧ y.mp = x.mp ∧ y.fp = x.fp := by
  cases high <;> exact ⟨rfl, rfl, rfl, rfl, rfl, rfl, rfl, rfl⟩

/-- Settles O21: `marks_becomes` for the chute whose mark is written. -/
theorem watermarkWriteCrossings : Obligations.WatermarkWriteCrossings := by
  intro f c high v s hserved hready hown n x y up down
  have hown' := hown.imp (fun h => show f.toNat = 0 by rw [h]; rfl) fun h => decide_eq_true h
  have hexec : exec (.watermarkWrite f c high v) s = .next ((changeChute s n (withMark high v)).answer .ok) :=
    congrArg Host.Outcome.next (barAccess_of_served hserved hready hown')
  obtain ⟨r, hr⟩ := changeChute_marked s n (withMark high v)
  have hdone := (hr.mono rfl).step (ps := .resp :: markParts) (answer_moves _ .ok) rfl rfl
  obtain ⟨hhigh, hlow, hxoff, hhwm, hlwm, hcross, hwp, hcp, hrp, hmp, hfp⟩ := markedChute_fields x (withMark high v x)
  obtain ⟨hhwm', hlwm', hcross', hwp', hcp', hrp', hmp', hfp'⟩ := withMark_fields high v x
  refine ⟨_, hexec, ?_⟩
  dsimp only
  rw [hdone.own]
  exact ⟨hhigh, hlow, hxoff, hhwm.trans (by rw [hhwm']; rfl), hlwm.trans (by rw [hlwm']; rfl),
    hcross.trans (by rw [hcross']; rfl), hwp.trans hwp', hcp.trans hcp', hrp.trans hrp', hmp.trans hmp', hfp.trans hfp',
    rfl, hdone.others, (hdone.moves.mono rfl).only⟩

end Sys2Proof.Machine

namespace Sys2Proof.Machine
open Sys2Proof

/-! ### A line stored (R124, R131, R174) -/

section
variable {s : State} {c : Nat}

/-- The parts that a line stored for a chute may change. -/
def storeParts : List Part := [.ms, .pmus, .flt, .host, .manger, .mangerInj, .stalls]

theorem manger_moves (s : State) (m : Mem) (h : memWf s.manger = true → memWf m = true) :
    Moves [.manger] s { s with manger := m } where
  only := fun p hp => by
    cases p
    case manger => exact absurd (List.mem_singleton.mpr rfl) hp
    all_goals rfl
  canon := fun hc => ⟨hc.1, h hc.2.1, hc.2.2⟩

theorem mangerInj_moves (s : State) (x : Tab (BitVec 8)) : Moves [.mangerInj] s { s with mangerInj := x } :=
  .of_same (fun p hp => by
    cases p
    case mangerInj => exact nomatch hp
    all_goals rfl) rfl rfl rfl rfl rfl

theorem mangerGenerate_moves (s : State) (t off n : Nat) :
    Moves [.mangerInj, .flt] s (mangerGenerate s t off n) := by
  induction n generalizing s off with
  | zero => exact .refl _ s
  | succ n ih =>
    have hbits : Moves [.mangerInj, .flt] s (mangerCheckBits s t off) :=
      .step (injUse_moves _ _ _) rfl ((mangerInj_moves s _).mono rfl)
    exact hbits.trans (ih _ _)

theorem mangerWrite_moves (s : State) (t off : Nat) (bs : List Byte) : Moves storeParts s (mangerWrite s t off bs) :=
  .step (mangerGenerate_moves _ _ _ _) rfl (.step (setStall_moves _ _ _) rfl
    ((manger_moves s _ (memWf_memStore _ _ _)).mono rfl))

theorem storeLine_sound_moves (s : State) (a : Nat) (bs : List Byte) : Moves [.ms, .flt] s (storeLine s a bs false) := by
  unfold storeLine
  extract_lets k h m s1 s2
  have hput : Moves [.ms, .flt] s (putInj (putPoison (putBytes s (k * 64) bs) k false) k m) :=
    .step (ms_moves _ _ id) rfl (.step (ms_moves _ _ id) rfl ((putBytes_moves s _ bs).mono rfl))
  rw [Bool.false_and, if_neg Bool.false_ne_true]
  exact .step (setHub_moves _ _ _) rfl (.step (injUse_moves _ _ _) rfl hput)

theorem writeLine_whole_moves (s : State) (a : Nat) {bs : List Byte} (hlen : bs.length = 64) :
    Moves storeParts s (writeLine s a bs false 0) := by
  have hfault : Moves storeParts s (addressFault s a) := .ite (.refl _ s) ((report_moves s _ _ _).mono rfl)
  rw [writeLine, if_pos hlen]
  exact .ite hfault (.ite (.refl _ s) (.step (storeLine_sound_moves _ _ _) rfl ((pmuCount_moves s _ _ _ _).mono rfl)))

theorem storeChuteLine_moves (s : State) (c idx : Nat) (l : Line) : Moves storeParts s (storeChuteLine s c idx l) := by
  unfold storeChuteLine
  extract_lets x a
  exact .ite
    (.ite (Moves.mono (qs := [.ms])
        (ms_moves s { s.ms with waiting := s.ms.waiting ++ [.line a (lineBytes l)] } id) rfl)
    (writeLine_whole_moves s a (length_lineBytes l)))
    (mangerWrite_moves _ _ _ _)

end

/-! ### A word placed, and the end of a packet (R127, R131, R132, R142) -/

section
variable {s : State} {c : Nat} {src : Source} {w : ChuteWord} {x : Chute}

/-- R127: a word placed in its chute, before its line is stored. -/
def placedWord (s : State) (c : Nat) (w : ChuteWord) : State :=
  (chuteEvent s c evChuteWords).setChute c (placeWord (s.chute c) w)

theorem placedWord_becomes (s : State) (c : Nat) (w : ChuteWord) :
    ChuteBecomes [.chutes, .pmus] c (placeWord (s.chute c) w) s (placedWord s c w) :=
  ((setChute_becomes _ c _).mono rfl).after (chuteEvent_moves s c _) rfl rfl

/-- R124: the buffer index of the newest line. -/
def lineIndex (y : Chute) : Nat := (y.wp.toNat + 2 * y.size - 1) % y.size

/-- R128: the valid bytes of the line that a LAST word ends. -/
def lastBytes (y : Chute) (w : ChuteWord) : Nat :=
  16 * (if y.wslot = 0 then 3 else y.wslot.toNat - 1) + (w.len.toNat + 1)

/-- R127, R130: a word for which there is room is placed; a line it completes or ends is stored; LAST ends the packet. -/
theorem storeWord_placed (hwords : (s.chute c).words < 4096)
    (hroom : (s.chute c).wslot = 0 → (s.chute c).openLines < (s.chute c).size ∧ (s.chute c).occ < (s.chute c).size) :
    storeWord s c w =
      (let y := placeWord (s.chute c) w
       let s2 := if w.last || y.wslot = 0 then storeChuteLine (placedWord s c w) c (lineIndex y) y.lineBuf
         else placedWord s c w
       (if w.last then commitOpen s2 c (lastBytes y w) else s2, .taken)) := by
  have hlong : ¬ (decide (4096 < (s.chute c).words + 1) ||
      (decide ((s.chute c).wslot = 0) && decide ((s.chute c).size < (s.chute c).openLines + 1))) = true := by
    simp only [Bool.or_eq_true, Bool.and_eq_true, decide_eq_true_eq, not_or, not_and]
    exact ⟨by omega, fun h => by have := (hroom h).1; omega⟩
  have hfull : ¬ (decide ((s.chute c).wslot = 0) && decide ((s.chute c).size ≤ (s.chute c).occ)) = true := by
    simp only [Bool.and_eq_true, decide_eq_true_eq, not_and]
    exact fun h => by have := (hroom h).2; omega
  unfold storeWord
  exact (if_neg hlong).trans (if_neg hfull)

theorem placeWord_wslot (x : Chute) (w : ChuteWord) : (placeWord x w).wslot = x.wslot + 1 := by
  simp [placeWord, BitVec.ofNat_add]

/-- A word in mid packet that does not complete its line. -/
theorem storeWord_midLine (hwords : (s.chute c).words < 4096)
    (hroom : (s.chute c).wslot = 0 → (s.chute c).openLines < (s.chute c).size ∧ (s.chute c).occ < (s.chute c).size)
    (hslot : (s.chute c).wslot ≠ 3) (hlast : w.last = false) : storeWord s c w = (placedWord s c w, .taken) := by
  have hplaced : (placeWord (s.chute c) w).wslot ≠ 0 := by
    have hnext : ∀ k : BitVec 2, k ≠ 3 → k + 1 ≠ 0 := by decide
    rw [placeWord_wslot]
    exact hnext _ hslot
  rw [storeWord_placed hwords hroom]
  dsimp only
  rw [hlast, Bool.false_or, decide_eq_false hplaced]
  rfl

/-- R131: a chute whose open packet is committed. -/
def committedChute (x : Chute) (v : Nat) (now : BitVec 64) : Chute :=
  { x with
    tags := tagLines x v, cp := x.wp, wslot := 0, opened := false, words := 0, lineBuf := 0,
    pstat := if x.src ∈ x.flushes then .flushedNew else .ok,
    flushes := x.flushes.filter (· ≠ x.src),
    commits := x.commits ++ [(x.wp, now)] }

theorem commitOpen_commits (h : (s.chute c).openPois = false) (v : Nat) :
    ChuteBecomes [.chutes, .pmus] c (committedChute (s.chute c) v s.time) s (commitOpen s c v) := by
  have hcommit : commitOpen s c v = (chuteEvent s c evChuteCommits).setChute c (committedChute (s.chute c) v s.time) :=
    if_neg (Bool.eq_false_iff.mp h)
  rw [hcommit]
  exact ((setChute_becomes _ c _).mono rfl).after (chuteEvent_moves s c _) rfl rfl

/-- R132: a chute whose open packet is rewound for poison at its LAST word. -/
def poisonedChute (x : Chute) : Chute := endFlush (rewindOpen x .poisoned false) x.src

theorem commitOpen_poisoned (h : (s.chute c).openPois = true) (v : Nat) :
    ChuteBecomes [.chutes, .pmus, .flt, .host] c (poisonedChute (s.chute c)) s (commitOpen s c v) := by
  have hrewind : commitOpen s c v =
      report (chuteEvent (s.setChute c (poisonedChute (s.chute c))) c evChuteRewinds) (chuteSource s c) cChutePoison c :=
    if_pos h
  rw [hrewind]
  exact (((setChute_becomes s c _).mono rfl).step (chuteEvent_moves _ _ _) rfl rfl).step (report_moves _ _ _ _) rfl rfl

/-- R131, R132: a LAST word after the first of its line ends the packet. -/
theorem storeWord_last (hwords : (s.chute c).words < 4096) (hslot : (s.chute c).wslot ≠ 0) (hlast : w.last = true) :
    ∃ u, Moves storeParts (placedWord s c w) u ∧
      storeWord s c w = (commitOpen u c (lastBytes (placeWord (s.chute c) w) w), .taken) := by
  refine ⟨_, storeChuteLine_moves (placedWord s c w) c (lineIndex (placeWord (s.chute c) w))
    (placeWord (s.chute c) w).lineBuf, (storeWord_placed hwords fun h => absurd h hslot).trans ?_⟩
  simp only [hlast, Bool.true_or, if_true]

/-! #### One word at the chute (R129, R132, R133, R144, R145) -/

/-- What the chute makes of one word of a source, before its marks are evaluated. -/
def WordDoes (ps : List Part) (c : Nat) (src : Source) (w : ChuteWord) (y : Chute) (res : PushRes) (s : State) : Prop :=
  ∃ t, pushWord s c src w = (t, res) ∧ ChuteBecomes ps c y s t

/-- R129, R145, R151, R154, R194: the open packet is the source's, whose words without FIRST are let in. -/
structure PacketGoesOn (s : State) (c : Nat) (src : Source) : Prop where
  st : (s.chute c).st ≠ .disabled
  held : chuteHeld s (c / 1024) = true
  dev : src.dev.toNat ≠ myDev s → (s.chute c).remoteOk = true
  cut : (s.chute c).cut ≠ some (src, s.time)
  opened : (s.chute c).opened = true
  source : (s.chute c).src = src
  kept : src ∉ (s.chute c).discards

/-- R144, R145, R151, R194: a word that is let in: in a DISABLING chute, only one of a packet begun before. -/
theorem wordRefused_false {first : Bool} (hheld : chuteHeld s (c / 1024) = true) (hst : (s.chute c).st ≠ .disabled)
    (hdev : src.dev.toNat ≠ myDev s → (s.chute c).remoteOk = true)
    (hbegun : (s.chute c).st = .disabling → first = false ∧
      (((s.chute c).opened = true ∧ (s.chute c).src = src) ∨ src ∈ (s.chute c).discards)) :
    wordRefused s c src first = false := by
  cases hx : (s.chute c).st with
  | disabled => exact absurd hx hst
  | enabled => exact wordRefused_enabled hheld hx hdev first
  | disabling =>
    obtain ⟨hfirst, hof⟩ := hbegun hx
    unfold wordRefused
    by_cases hd : src.dev.toNat = myDev s <;> rcases hof with ⟨ho, hs⟩ | hm <;> simp [*]

theorem PacketGoesOn.notRefused (h : PacketGoesOn s c src) : wordRefused s c src false = false :=
  wordRefused_false h.held h.st h.dev fun _ => ⟨rfl, .inl ⟨h.opened, h.source⟩⟩

/-- R129: a word of the open packet is stored. -/
theorem PacketGoesOn.pushWord_eq (h : PacketGoesOn s c src) (hfirst : w.first = false) :
    pushWord s c src w = storeWord s c w := by
  unfold pushWord
  simp [hfirst, h.cut, h.notRefused, h.kept, h.opened, h.source]

theorem PacketGoesOn.places (h : PacketGoesOn s c src) (hwords : (s.chute c).words < 4096)
    (hroom : (s.chute c).wslot = 0 → (s.chute c).openLines < (s.chute c).size ∧ (s.chute c).occ < (s.chute c).size)
    (hslot : (s.chute c).wslot ≠ 3) (hfirst : w.first = false) (hlast : w.last = false) :
    WordDoes [.chutes, .pmus] c src w (placeWord (s.chute c) w) .taken s :=
  ⟨_, (h.pushWord_eq hfirst).trans (storeWord_midLine hwords hroom hslot hlast), placedWord_becomes s c w⟩

/-- The parts that a word may change, with its line. -/
def wordParts : List Part := .chutes :: storeParts

/-- R131: LAST commits a packet without poison. -/
theorem PacketGoesOn.commits (h : PacketGoesOn s c src) (hwords : (s.chute c).words < 4096)
    (hslot : (s.chute c).wslot ≠ 0) (hfirst : w.first = false) (hlast : w.last = true)
    (hpois : (s.chute c).openPois = false) (hpoison : w.poison = false) :
    WordDoes wordParts c src w
      (committedChute (placeWord (s.chute c) w) (lastBytes (placeWord (s.chute c) w) w) s.time) .taken s := by
  obtain ⟨u, hu, hstore⟩ := storeWord_last hwords hslot hlast
  have hplaced : ChuteBecomes wordParts c (placeWord (s.chute c) w) s u :=
    ((placedWord_becomes s c w).mono rfl).step hu rfl rfl
  have hcommit := commitOpen_commits (s := u) (c := c) (by rw [hplaced.own, placeWord, hpois, hpoison]; rfl)
    (lastBytes (placeWord (s.chute c) w) w)
  rw [hplaced.own, show u.time = s.time from hplaced.moves.same .time rfl] at hcommit
  exact ⟨_, (h.pushWord_eq hfirst).trans hstore, hplaced.trans (hcommit.mono rfl)⟩

/-- R132: LAST rewinds a packet that carried poison. -/
theorem PacketGoesOn.poisons (h : PacketGoesOn s c src) (hwords : (s.chute c).words < 4096)
    (hslot : (s.chute c).wslot ≠ 0) (hfirst : w.first = false) (hlast : w.last = true)
    (hpois : (s.chute c).openPois = true) :
    WordDoes wordParts c src w (poisonedChute (placeWord (s.chute c) w)) .taken s := by
  obtain ⟨u, hu, hstore⟩ := storeWord_last hwords hslot hlast
  have hplaced : ChuteBecomes wordParts c (placeWord (s.chute c) w) s u :=
    ((placedWord_becomes s c w).mono rfl).step hu rfl rfl
  have hrewind := commitOpen_poisoned (s := u) (c := c) (by rw [hplaced.own, placeWord, hpois]; rfl)
    (lastBytes (placeWord (s.chute c) w) w)
  rw [hplaced.own] at hrewind
  exact ⟨_, (h.pushWord_eq hfirst).trans hstore, hplaced.trans (hrewind.mono rfl)⟩

/-- R129: the first word of a packet opens it. -/
theorem wordDoes_opens {x : Chute} (hx : s.chute c = x) (hheld : chuteHeld s (c / 1024) = true) (hst : x.st = .enabled)
    (hxoff : x.xoff = false) (hroom : x.occ < x.size) (hdev : src.dev.toNat ≠ myDev s → x.remoteOk = true)
    (hclosed : x.opened = false) (hwp : x.wp = x.cp) (hfirst : w.first = true) (hlast : w.last = false)
    (hturn : firstWaits s x src = false) :
    WordDoes [.chutes, .pmus] c src w (placeWord (openedBy x src) w) .taken s :=
  ⟨_, pushWord_opens hx hheld hst hxoff hroom hdev hclosed hwp hfirst hlast hturn,
    ((((setChute_becomes s c _).mono rfl).step (chuteEvent_moves _ c _) rfl rfl).set _ rfl)⟩

/-- R133: a word of no packet is an orphan. -/
def orphanedChute (x : Chute) : Chute := { x with pstat := .orphan }

theorem wordDoes_orphan (hheld : chuteHeld s (c / 1024) = true) (hst : (s.chute c).st = .enabled)
    (hdev : src.dev.toNat ≠ myDev s → (s.chute c).remoteOk = true) (hcut : (s.chute c).cut ≠ some (src, s.time))
    (hfirst : w.first = false) (hkept : src ∉ (s.chute c).discards)
    (hnone : (s.chute c).opened = false ∨ (s.chute c).src ≠ src) :
    WordDoes [.chutes] c src w (orphanedChute (s.chute c)) .taken s := by
  refine ⟨_, ?_, setChute_becomes s c _⟩
  unfold pushWord orphanedChute
  rcases hnone with h | h <;> simp [hfirst, hcut, wordRefused_enabled hheld hst hdev, hkept, h]

/-- R132, R142: a chute that has seen the LAST word of a source that it discards. -/
def discardedLast (x : Chute) (src : Source) : Chute :=
  { x with
    discards := x.discards.filter (· ≠ src), flushes := x.flushes.filter (· ≠ src),
    pstat := if src ∈ x.flushes then .flushed else x.pstat }

theorem wordDoes_discarded (hheld : chuteHeld s (c / 1024) = true) (hst : (s.chute c).st ≠ .disabled)
    (hdev : src.dev.toNat ≠ myDev s → (s.chute c).remoteOk = true) (hcut : (s.chute c).cut ≠ some (src, s.time))
    (hfirst : w.first = false) (hlast : w.last = true) (hgone : src ∈ (s.chute c).discards) :
    WordDoes [.chutes] c src w (discardedLast (s.chute c) src) .taken s := by
  have hin : wordRefused s c src false = false := wordRefused_false hheld hst hdev fun _ => ⟨rfl, .inr hgone⟩
  refine ⟨_, ?_, setChute_becomes s c _⟩
  unfold pushWord discardedLast
  simp [hfirst, hcut, hin, hgone, hlast]

/-- R129: a FIRST word at another source's packet waits. -/
theorem wordDoes_busy (hheld : chuteHeld s (c / 1024) = true) (hst : (s.chute c).st = .enabled)
    (hdev : src.dev.toNat ≠ myDev s → (s.chute c).remoteOk = true) (hfirst : w.first = true)
    (hopened : (s.chute c).opened = true) (hsrc : (s.chute c).src ≠ src) :
    pushWord s c src w = (s, .busy) := by
  have hwaits : firstWaits s (s.chute c) src = true := by simp [firstWaits, hopened, hsrc]
  unfold pushWord
  simp [hfirst, wordRefused_enabled hheld hst hdev, hwaits]

/-- R144, R145: a DISABLED chute refuses every word, and a DISABLING one those of no packet begun before. -/
theorem wordRefused_state {first : Bool} (h : (s.chute c).st = .disabled ∨ ((s.chute c).st = .disabling ∧
      (first = true ∨ (((s.chute c).opened = false ∨ (s.chute c).src ≠ src) ∧ src ∉ (s.chute c).discards)))) :
    wordRefused s c src first = true := by
  unfold wordRefused
  rcases h with h | ⟨h, hf | ⟨ho | hs, hd⟩⟩ <;> simp [*]

/-- R151: a chute that refuses a word, a FIRST word losing its place. -/
def wordRefusedChute (x : Chute) (src : Source) (first : Bool) : Chute :=
  refusedChute (if first then { x with order := x.order.filter (· ≠ src) } else x)

theorem wordDoes_refused (hcut : (s.chute c).cut ≠ some (src, s.time)) (h : wordRefused s c src w.first = true) :
    WordDoes [.chutes, .flt, .host] c src w (wordRefusedChute (s.chute c) src w.first) .refused s := by
  have hleave : ChuteBecomes [.chutes, .flt, .host] c
      (if w.first then { s.chute c with order := (s.chute c).order.filter (· ≠ src) } else s.chute c) s
      (if w.first then leaveOrder s c src else s) := by
    cases w.first with
    | true => exact (setChute_becomes s c _).mono rfl
    | false => exact ⟨rfl, fun _ _ => rfl, .refl _ s⟩
  have hrefuse := refuseChute_becomes (if w.first then leaveOrder s c src else s) c
  rw [hleave.own] at hrefuse
  exact ⟨_, by unfold pushWord; simp [hcut, h], hleave.trans hrefuse⟩

end

/-! ### PUSH by any requester (R129, R130, R139) -/

section
variable {s t : State} {c : Nat} {r : Requester} {w : ChuteWord} {y : Chute} {ps : List Part} {res : PushRes}

/-- R156: the word as the chute gets it: a host's carries no POISON. -/
def sentWord (r : Requester) (w : ChuteWord) : ChuteWord :=
  match r with
  | .host _ => { w with poison := false }
  | _ => w

@[simp] theorem sentWord_first (r : Requester) (w : ChuteWord) : (sentWord r w).first = w.first := by cases r <;> rfl
@[simp] theorem sentWord_last (r : Requester) (w : ChuteWord) : (sentWord r w).last = w.last := by cases r <;> rfl
@[simp] theorem sentWord_data (r : Requester) (w : ChuteWord) : (sentWord r w).data = w.data := by cases r <;> rfl

theorem noteRemote_moves (s : State) (c : Nat) (src : Source) : Moves [.chutes] s (noteRemote s c src) :=
  .ite (.refl _ s) (setChute_moves s c _)

/-- R139: a word, with its evaluation of the marks. -/
theorem pushMarked_does {src : Source} (h : WordDoes ps c src w y res s) (hp : covers markParts ps = true) :
    (pushMarked s c src w).2 = res ∧ ∃ z, SameButMarks y z ∧ ChuteBecomes ps c z s (pushMarked s c src w).1 := by
  obtain ⟨t, hpush, hb⟩ := h
  have hmarks (u : State) (hu : MarksOf c t u) (hm : Moves [.chutes] t u) :
      ∃ z, SameButMarks y z ∧ ChuteBecomes ps c z s (marks (s.chute c) u c) :=
    hb.marked (hu.trans (marks_marksOf _)) ((Moves.step (marks_moves u c _) rfl (hm.mono rfl)).mono hp)
  have hall : pushAll s c src [w] = if res = .taken then (noteRemote t c src, .taken) else (t, res) := by
    simp only [pushAll, hpush]
  unfold pushMarked pushLine
  rw [hall]
  split
  · next htaken => exact ⟨htaken.symm, hmarks _ (noteRemote_marksOf src) (noteRemote_moves t c src)⟩
  · exact ⟨rfl, hmarks t (.refl t c) (.refl _ t)⟩

/-- R129, R130: a word of a source with none before it is taken or refused at once. -/
theorem offerWord_done {src : Source} (hwaits : (s.chute c).waits src = false)
    (hres : (pushMarked s c src w).2 = .taken ∨ (pushMarked s c src w).2 = .refused) :
    offerWord s c src w = (pushMarked s c src w).1 := by
  obtain ⟨hwait, hspace⟩ := Bool.or_eq_false_iff.mp hwaits
  have hdone : (decide ((pushMarked s c src w).2 = .taken) || decide ((pushMarked s c src w).2 = .refused)) = true := by
    simpa using hres
  unfold offerWord
  extract_lets x q
  rw [if_neg (Bool.eq_false_iff.mp hspace), if_neg (Bool.eq_false_iff.mp hwait)]
  exact if_pos hdone

/-- R129: a word taken or refused, by its requester. -/
theorem pushBy_does (hwaits : (s.chute c).waits (reqSource s r) = false)
    (h : WordDoes ps c (reqSource s r) (sentWord r w) y res s) (hres : res = .taken ∨ res = .refused)
    (hp : covers markParts ps = true) : CommandDoes ps c r (SameButMarks y) (dbOf res) s (pushBy s c r w) := by
  obtain ⟨hr, hz⟩ := pushMarked_does h hp
  have hoffer := offerWord_done (w := sentWord r w) hwaits (hr ▸ hres)
  have hz' := hz
  rw [← hoffer] at hz'
  cases r with
  | host f => exact ⟨hz, fun _ _ => congrArg dbOf hr⟩
  | stall t p => exact ⟨hz', nofun⟩
  | dma k => exact ⟨hz', nofun⟩
  | loader => exact ⟨hz', nofun⟩
  | remote d k i => exact ⟨hz', nofun⟩

/-- R129: a chute at which a source's FIRST word waits. -/
def queuedChute (x : Chute) (src : Source) : Chute := { x with order := addNew x.order src }
def waitingChute (x : Chute) (src : Source) (w : ChuteWord) : Chute := { x with waiting := x.waiting ++ [⟨src, w⟩] }

theorem queueFirst_becomes (s : State) (c : Nat) (src : Source) :
    ChuteBecomes [.chutes] c (queuedChute (s.chute c) src) s (queueFirst s c src) := setChute_becomes s c _

/-- R129: a FIRST word that cannot be taken waits behind those that came before. -/
theorem offerWord_busy {src : Source} (hwaits : (s.chute c).waits src = false) (hfirst : w.first = true)
    (hbusy : (pushMarked s c src w).2 = .busy) :
    ChuteBecomes [.chutes] c (queuedChute (waitingChute (s.chute c) src w) src) s (offerWord s c src w) := by
  obtain ⟨hwait, hspace⟩ := Bool.or_eq_false_iff.mp hwaits
  have hset := setChute_becomes s c (waitingChute (s.chute c) src w)
  have hqueue := queueFirst_becomes (s.setChute c (waitingChute (s.chute c) src w)) c src
  rw [hset.own] at hqueue
  unfold offerWord
  extract_lets x q
  rw [if_neg (Bool.eq_false_iff.mp hspace), if_neg (Bool.eq_false_iff.mp hwait),
    if_neg (by rw [show q.2 = .busy from hbusy]; decide), if_pos hfirst]
  exact hset.trans hqueue

/-- R129: what a FIRST word at another source's packet makes of the chute, and the result: a host's word is not stored,
any other waits. -/
def BusyLeaves (x : Chute) (src : Source) (w : ChuteWord) : Requester → Chute → Prop
  | .host _, y => SameButMarks x y
  | _, y => y = queuedChute (waitingChute x src w) src

def busyResult : Requester → Nat
  | .host _ => dbBusy
  | _ => dbOk

theorem pushBy_busy {src : Source} (hsrc : reqSource s r = src) (hwaits : (s.chute c).waits src = false)
    (h : pushWord s c src (sentWord r w) = (s, .busy)) (hfirst : w.first = true)
    (hp : covers markParts ps = true) (hc : covers [.chutes] ps = true) :
    CommandDoes ps c r (BusyLeaves (s.chute c) src w r) (busyResult r) s (pushBy s c r w) := by
  have hword : WordDoes ps c src (sentWord r w) (s.chute c) .busy s :=
    ⟨s, h, rfl, fun _ _ => rfl, .refl _ s⟩
  obtain ⟨hr, hz⟩ := pushMarked_does hword hp
  have hoffer := (offerWord_busy hwaits (by rw [sentWord_first, hfirst]) hr).mono hc
  subst hsrc
  cases r with
  | host f => exact ⟨hz, fun _ _ => congrArg dbOf hr⟩
  | stall t p => exact ⟨⟨_, rfl, hoffer⟩, nofun⟩
  | dma k => exact ⟨⟨_, rfl, hoffer⟩, nofun⟩
  | loader => exact ⟨⟨_, rfl, hoffer⟩, nofun⟩
  | remote d k i => exact ⟨⟨_, rfl, hoffer⟩, nofun⟩

end
end Sys2Proof.Machine

namespace Sys2Proof.Machine
open Sys2Proof

/-! ### Commands of the consumer and of producers (R129, R132, R136) -/

/-- The parts that a chute command with its marks and its answer may change. -/
def commandParts : List Part := [.doorbells, .resp] ++ markParts

section
variable {s : State} {c : ChuteId} {r : Requester} {w : ChuteWord}

/-- Who a requester is does not depend on the doorbell slots. -/
theorem reqSource_doorbells (s : State) (d : Tab Doorbell) (r : Requester) :
    reqSource { s with doorbells := d } r = reqSource s r := by cases r <;> rfl

/-- A command whose change has its marks evaluated, as accepted by the chute. -/
theorem changeCommand_does {op : Nat} {f : Chute → Chute} (harr : RequestArrives s c r) (hop : 1 ≤ op ∧ op ≤ 9)
    (hmay : chuteMay s c.toNat r op = true) (hheld : chuteHeld s (c.toNat / 1024) = true)
    (hdo : ∀ u, chuteDo u c.toNat r op noWord = (changeChute u c.toNat f, dbOk)) :
    ∃ z, SameButMarks (f (s.chute c.toNat)) z ∧
      ChuteBecomes commandParts c.toNat z s (chuteCmd s c.toNat r op noWord) ∧
      RequestAnswered c r 0 (chuteCmd s c.toNat r op noWord) :=
  chuteCmd_accepted harr hop rfl hmay hheld fun d => by
    rw [hdo]
    exact changeChute_does { s with doorbells := d } c.toNat r f

section
variable {ps : List Part} {y : Chute} {res : PushRes} {Y : Chute → Prop} {n : Nat}
  (hheld : chuteHeld s (c.toNat / 1024) = true) (hmay : mayProduce s c.toNat r = true) (harr : RequestArrives s c r)
include hheld hmay harr

/-- R129: PUSH as accepted by the chute. -/
theorem push_accepted (hdoor : covers [.doorbells, .resp] ps = true)
    (hdo : ∀ d, CommandDoes ps c.toNat r Y n { s with doorbells := d } (pushBy { s with doorbells := d } c.toNat r w)) :
    ∃ z, Y z ∧ ChuteBecomes ps c.toNat z s (chuteCmd s c.toNat r 1 w) ∧
      RequestAnswered c r (BitVec.ofNat 3 n) (chuteCmd s c.toNat r 1 w) :=
  chuteCmd_accepted harr (by decide) hdoor hmay hheld hdo

/-- R129: PUSH of a word that is taken or refused. -/
theorem push_does (hwaits : (s.chute c.toNat).waits (reqSource s r) = false) (hres : res = .taken ∨ res = .refused)
    (hdoor : covers [.doorbells, .resp] ps = true) (hp : covers markParts ps = true)
    (hword : ∀ d, WordDoes ps c.toNat (reqSource s r) (sentWord r w) y res { s with doorbells := d }) :
    ∃ z, SameButMarks y z ∧ ChuteBecomes ps c.toNat z s (chuteCmd s c.toNat r 1 w) ∧
      RequestAnswered c r (BitVec.ofNat 3 (dbOf res)) (chuteCmd s c.toNat r 1 w) :=
  push_accepted hheld hmay harr hdoor fun d => by
    have hsrc := reqSource_doorbells s d r
    exact pushBy_does (by rw [hsrc]; exact hwaits) (hsrc ▸ hword d) hres hp

/-- The same of the command as executed: the chute shows what became of the word, but for its marks. -/
theorem push_completes (hwaits : (s.chute c.toNat).waits (reqSource s r) = false) (hres : res = .taken ∨ res = .refused)
    (hdoor : covers [.doorbells, .resp] ps = true) (hp : covers markParts ps = true)
    (hword : ∀ d, WordDoes ps c.toNat (reqSource s r) (sentWord r w) y res { s with doorbells := d }) {P : State → Prop}
    (hP : ∀ z u, SameButMarks y z → ChuteBecomes ps c.toNat z s u →
      RequestAnswered c r (BitVec.ofNat 3 (dbOf res)) u → P u) : Completes (.push c r w) s P := by
  obtain ⟨z, hz, hb, hanswer⟩ := push_does hheld hmay harr hwaits hres hdoor hp hword
  exact ⟨_, rfl, hP z _ hz hb hanswer⟩

end
end

theorem WordDoes.mono {ps qs : List Part} {c : Nat} {src : Source} {w : ChuteWord} {y : Chute} {res : PushRes}
    {s : State} (h : WordDoes qs c src w y res s) (hp : covers qs ps = true) : WordDoes ps c src w y res s :=
  h.imp fun _ ht => ⟨ht.1, ht.2.mono hp⟩

theorem setWidth_of_mod (d : Word16) : BitVec.ofNat 512 (d.toNat % 2 ^ (8 * 16)) = d.setWidth 512 := by
  rw [Nat.mod_eq_of_lt d.isLt, BitVec.ofNat_toNat]

/-- R127: a whole word placed after the first of its line. -/
theorem placeWord_lineBuf {x : Chute} {w : ChuteWord} (hslot : x.wslot ≠ 0) (hlast : w.last = false) :
    (placeWord x w).lineBuf = (x.lineBuf ||| (w.data.setWidth 512 <<< (128 * x.wslot.toNat))) := by
  have hne : x.wslot.toNat ≠ 0 := fun h => hslot (BitVec.eq_of_toNat_eq h)
  simp only [placeWord, if_neg hne, hlast, Bool.false_eq_true, if_false, setWidth_of_mod]

theorem placeWord_wp_mid {x : Chute} {w : ChuteWord} (hslot : x.wslot ≠ 0) : (placeWord x w).wp = x.wp :=
  if_neg fun h => hslot (BitVec.eq_of_toNat_eq h)

/-- Settles O16: the consumer's commands and ABORT through `changeChute_does`, each word through what the chute makes of
it (`PacketGoesOn.places`, `.commits`, `.poisons`, and the `wordDoes_` lemmas). -/
theorem chuteReadsAndPushes : Obligations.ChuteReadsAndPushes := by
  refine ⟨?consumer, ?push, ?abort⟩
  case consumer =>
    intro c r s hheld hcons harr n x done
    refine ⟨?mark, ?rewind, ?release⟩
    case mark =>
      obtain ⟨z, ⟨_, _, _, _, _, rfl⟩, hb, hanswer⟩ := changeCommand_does (op := 3) (f := markChute) harr (by decide)
        hcons hheld fun _ => rfl
      refine ⟨_, rfl, ?_⟩
      dsimp only [done]
      rw [hb.own]
      exact ⟨rfl, rfl, rfl, rfl, rfl, rfl, rfl, rfl, rfl, hanswer, hb.others, (hb.moves.mono rfl).only⟩
    case rewind =>
      obtain ⟨z, ⟨_, _, _, _, _, rfl⟩, hb, hanswer⟩ := changeCommand_does (op := 4) (f := rewindChute) harr (by decide)
        hcons hheld fun _ => rfl
      refine ⟨_, rfl, ?_⟩
      dsimp only [done]
      rw [hb.own]
      exact ⟨rfl, rfl, rfl, rfl, rfl, rfl, rfl, rfl, rfl, hanswer, hb.others, (hb.moves.mono rfl).only⟩
    case release =>
      obtain ⟨z, ⟨_, _, _, _, _, rfl⟩, hb, hanswer⟩ := changeCommand_does (op := 5) (f := releaseChute) harr (by decide)
        hcons hheld fun _ => rfl
      refine ⟨_, rfl, ?_⟩
      dsimp only [done]
      rw [hb.own]
      exact ⟨rfl, rfl, rfl, rfl, rfl, rfl, rfl, rfl, rfl, hanswer, hb.others, (hb.moves.mono rfl).only⟩
  case abort =>
    intro c r s hheld hprod harr n x hst hopen hsrc
    have hmay : chuteMay s n r 2 = true := by
      simp only [chuteMay, Bool.and_eq_true, decide_eq_true_eq]
      exact ⟨⟨⟨hprod, hst⟩, hopen⟩, hsrc⟩
    obtain ⟨z, ⟨_, _, _, _, _, rfl⟩, hb, hanswer⟩ := chuteCmd_accepted (w := noWord) (ps := commandParts)
      (Y := SameButMarks (rewindOpen x .aborted false)) harr (by decide) rfl hmay hheld fun d =>
        countedChange_does { s with doorbells := d } n evChuteRewinds r fun x => rewindOpen x .aborted false
    refine ⟨_, rfl, ?_⟩
    dsimp only
    rw [hb.own]
    exact ⟨rfl, rfl, rfl, rfl, rfl, rfl, rfl, rfl, rfl, hanswer, hb.others, (hb.moves.mono rfl).only⟩
  case push =>
    intro c r w s hheld hprod harr n x src host others stays parts hreach
    obtain ⟨hwaits, hcut, hdev, -⟩ := hreach
    have hgoes (hst : x.st ≠ .disabled) (hopen : x.opened = true) (hsrc : x.src = src) (hkept : src ∉ x.discards)
        (d : Tab Doorbell) : PacketGoesOn { s with doorbells := d } n src :=
      ⟨hst, hheld, hdev, hcut, hopen, hsrc, hkept⟩
    refine ⟨fun hfirst hlast hclosed hwp hst hroom hxoff hturn => ?opens,
      fun hst hopen hsrc hkept hwords hfirst => ⟨fun hlast hslot => ?places, fun hlast hslot hpois hpoison => ?commits,
        fun hlast hslot hpois => ?poisons⟩,
      fun hfirst hst hkept hnone => ?orphan, fun hfirst hlast hst hgone => ?discarded,
      fun hfirst hst hopen hsrc => ?busy, fun hst => ?refused⟩
    case opens =>
      have hword (d : Tab Doorbell) : WordDoes [.chutes, .pmus] n src (sentWord r w)
          (placeWord (openedBy x src) (sentWord r w)) .taken { s with doorbells := d } :=
        wordDoes_opens (s := { s with doorbells := d }) (x := x) rfl hheld hst hxoff hroom hdev hclosed hwp
          ((sentWord_first r w).trans hfirst) ((sentWord_last r w).trans hlast) hturn
      refine push_completes hheld hprod harr hwaits (.inl rfl) rfl rfl (fun d => (hword d).mono (ps := commandParts) rfl)
        fun z u hz hb hanswer => ?_
      obtain ⟨_, _, _, _, _, rfl⟩ := hz
      dsimp only
      rw [hb.own]
      exact ⟨rfl, rfl, rfl, rfl, placeWord_wp (x := openedBy x src) (w := sentWord r w) rfl, rfl, rfl, rfl, rfl,
        hanswer, hb.others, (hb.moves.mono rfl).only⟩
    case places =>
      have hne : x.wslot ≠ 0 ∧ x.wslot ≠ 3 := by rcases hslot with h | h <;> rw [h] <;> decide
      have hbuf := placeWord_lineBuf (w := sentWord r w) hne.1 ((sentWord_last r w).trans hlast)
      rw [sentWord_data] at hbuf
      have hword (d : Tab Doorbell) : WordDoes [.chutes, .pmus] n src (sentWord r w) (placeWord x (sentWord r w)) .taken
          { s with doorbells := d } :=
        (hgoes hst hopen hsrc hkept d).places hwords (fun h => absurd h hne.1) hne.2 ((sentWord_first r w).trans hfirst)
          ((sentWord_last r w).trans hlast)
      refine push_completes hheld hprod harr hwaits (.inl rfl) rfl rfl (fun d => (hword d).mono (ps := commandParts) rfl)
        fun z u hz hb hanswer => ?_
      obtain ⟨_, _, _, _, _, rfl⟩ := hz
      dsimp only
      rw [hb.own]
      exact ⟨hopen, rfl, placeWord_wslot x (sentWord r w), placeWord_wp_mid (w := sentWord r w) hne.1, rfl, hbuf,
        hb.others, (hb.moves.mono rfl).only⟩
    case commits =>
      have hclean : (sentWord r w).poison = false := by
        cases r with
        | host f => rfl
        | _ => exact hpoison.resolve_left id
      have hword (d : Tab Doorbell) : WordDoes wordParts n src (sentWord r w) (committedChute (placeWord x (sentWord r w))
          (lastBytes (placeWord x (sentWord r w)) (sentWord r w)) s.time) .taken { s with doorbells := d } :=
        (hgoes hst hopen hsrc hkept d).commits hwords hslot ((sentWord_first r w).trans hfirst)
          ((sentWord_last r w).trans hlast) hpois hclean
      refine push_completes hheld hprod harr hwaits (.inl rfl) rfl rfl
        (fun d => (hword d).mono (ps := commandParts ++ storeParts) rfl) fun z u hz hb _ => ?_
      obtain ⟨_, _, _, _, _, rfl⟩ := hz
      have hwp : (placeWord x (sentWord r w)).wp = x.wp := placeWord_wp_mid hslot
      dsimp only
      rw [hb.own]
      exact ⟨rfl, hwp, hwp, rfl, rfl, rfl, rfl, by rw [← hsrc]; rfl, by rw [← hsrc]; rfl, rfl, hb.others⟩
    case poisons =>
      have hword (d : Tab Doorbell) : WordDoes wordParts n src (sentWord r w) (poisonedChute (placeWord x (sentWord r w)))
          .taken { s with doorbells := d } :=
        (hgoes hst hopen hsrc hkept d).poisons hwords hslot ((sentWord_first r w).trans hfirst)
          ((sentWord_last r w).trans hlast) hpois
      refine push_completes hheld hprod harr hwaits (.inl rfl) rfl rfl
        (fun d => (hword d).mono (ps := commandParts ++ storeParts) rfl) fun z u hz hb _ => ?_
      obtain ⟨_, _, _, _, _, rfl⟩ := hz
      dsimp only
      rw [hb.own]
      exact ⟨rfl, rfl, rfl, rfl, rfl, rfl, by rw [← hsrc]; rfl, rfl, rfl, hb.others⟩
    case orphan =>
      have hword (d : Tab Doorbell) : WordDoes [.chutes] n src (sentWord r w) (orphanedChute x) .taken
          { s with doorbells := d } :=
        wordDoes_orphan (s := { s with doorbells := d }) hheld hst hdev hcut ((sentWord_first r w).trans hfirst) hkept hnone
      refine push_completes hheld hprod harr hwaits (.inl rfl) rfl rfl (fun d => (hword d).mono (ps := commandParts) rfl)
        fun z u hz hb hanswer => ?_
      obtain ⟨_, _, _, _, _, rfl⟩ := hz
      dsimp only [stays]
      rw [hb.own]
      exact ⟨rfl, ⟨rfl, rfl, rfl, rfl, rfl, rfl⟩, hanswer, hb.others⟩
    case discarded =>
      have hword (d : Tab Doorbell) : WordDoes [.chutes] n src (sentWord r w) (discardedLast x src) .taken
          { s with doorbells := d } :=
        wordDoes_discarded (s := { s with doorbells := d }) hheld hst hdev hcut ((sentWord_first r w).trans hfirst)
          ((sentWord_last r w).trans hlast) hgone
      refine push_completes hheld hprod harr hwaits (.inl rfl) rfl rfl (fun d => (hword d).mono (ps := commandParts) rfl)
        fun z u hz hb _ => ?_
      obtain ⟨_, _, _, _, _, rfl⟩ := hz
      dsimp only [stays]
      rw [hb.own]
      exact ⟨rfl, rfl, rfl, ⟨rfl, rfl, rfl, rfl, rfl, rfl⟩, hb.others⟩
    case refused =>
      have hno (d : Tab Doorbell) : wordRefused { s with doorbells := d } n src (sentWord r w).first = true := by
        rw [sentWord_first]
        exact wordRefused_state hst
      have hword (d : Tab Doorbell) : WordDoes [.chutes, .flt, .host] n src (sentWord r w)
          (wordRefusedChute x src (sentWord r w).first) .refused { s with doorbells := d } :=
        wordDoes_refused (s := { s with doorbells := d }) hcut (hno d)
      refine push_completes hheld hprod harr hwaits (.inr rfl) rfl rfl (fun d => (hword d).mono (ps := commandParts) rfl)
        fun z u hz hb hanswer => ?_
      obtain ⟨_, _, _, _, _, rfl⟩ := hz
      dsimp only [stays]
      rw [hb.own]
      refine ⟨rfl, ?_, hanswer, hb.others⟩
      cases hf : (sentWord r w).first <;> exact ⟨rfl, rfl, rfl, rfl, rfl, rfl⟩
    case busy =>
      have hbusy (d : Tab Doorbell) : pushWord { s with doorbells := d } n src (sentWord r w) =
          ({ s with doorbells := d }, .busy) :=
        wordDoes_busy (s := { s with doorbells := d }) hheld hst hdev ((sentWord_first r w).trans hfirst) hopen hsrc
      obtain ⟨z, hz, hb, hanswer⟩ := push_accepted (Y := BusyLeaves x src w r) (n := busyResult r) (ps := commandParts)
        hheld hprod harr rfl fun d => pushBy_busy (s := { s with doorbells := d }) (reqSource_doorbells s d r) hwaits
          (hbusy d) hfirst rfl rfl
      refine ⟨_, rfl, ?_⟩
      dsimp only [stays, host]
      rw [hb.own]
      cases r with
      | host f =>
        obtain ⟨_, _, _, _, _, rfl⟩ := hz
        exact ⟨⟨rfl, rfl, rfl, rfl, rfl, rfl⟩, rfl, hb.others, fun _ => ⟨hanswer, rfl⟩, fun h => absurd trivial h⟩
      | _ =>
        obtain rfl : z = _ := hz
        exact ⟨⟨rfl, rfl, rfl, rfl, rfl, rfl⟩, rfl, hb.others, nofun, fun _ => rfl⟩

end Sys2Proof.Machine

namespace Sys2Proof.Machine
open Sys2Proof

/-! ### A one-word packet in a stack chute deeper than R124 allows

`WordReaches` asks that the line at the index of WP is in reach, and the chute stores the line at the index that WP had
before it moved on. For a DEPTH_LOG2 of R124 (2 to 20) these are one. With a depth of 22 the pointer of the word's line
wraps at its 21 bits before the buffer does: the line goes to the buffer's last index, whose hub may be one that waits. -/

/-- The deep chute of stack storage, open to packets of other devices. -/
def deepStackChute : Chute := { deepChute with stack := true, remoteOk := true }

/-- Chute 9 deep, and the edge die of stack 10, which is ONLINE, being replaced: its requests wait (R174). -/
def deepStackState : State :=
  let s := (State.reset.setHub 10 { st := .online }).setChute 9 deepStackChute
  { s with pnet := { s.pnet with repl := some { die := 58, site := 63, step := 2 } } }

/-- A packet of the one byte 1, from an endpoint of device 1. -/
def oneByteWord : ChuteWord := { data := 1, first := true, last := true, len := 0, poison := false }
def farRequester : Requester := .remote 1 0 0

theorem chute_deepStackState : deepStackState.chute 9 = deepStackChute := by decide +kernel

/-- The word arrives: it may be produced, comes first, and the line that WP names is in reach. -/
theorem deepStackState_takes :
    chuteHeld deepStackState 0 = true ∧ mayProduce deepStackState 9 farRequester = true ∧
      firstWaits deepStackState deepStackChute (reqSource deepStackState farRequester) = false ∧
      WordReaches deepStackState 9 (reqSource deepStackState farRequester) := by
  unfold WordReaches
  decide +kernel

/-- The line goes to the buffer's last index, in an ONLINE stack below MEM_TOP. -/
theorem deepStackState_line : ((deepStackChute.adv deepStackChute.wp 1).toNat + 2 * deepStackChute.size - 1) %
      deepStackChute.size = 0x3FFFFF ∧
    0x3FFFFF * 64 < memTop deepStackState ∧ (deepStackState.hub (hubOf deepStackState (0x3FFFFF * 64))).st = .online ∧
    deepStackChute.occ < deepStackChute.size := by decide +kernel

/-- The line waits for its hub, and no byte of it is stored. -/
theorem deepStack_waits : ∃ u, exec (.push 9 farRequester oneByteWord) deepStackState = .next u ∧
    u.byteAt (0x3FFFFF * 64) = 0 ∧ u.ms.waiting.length = 1 :=
  ⟨_, rfl, by decide +kernel⟩

/-- Refutes O17: it bounds no DEPTH_LOG2. In `deepStackState` the chute has 2^22 lines, more than R124 allows, and WP
wraps with the word's line, which goes to the buffer's last index, 0x3FFFFF. The hub of this line waits for its edge die
(R174), though that of the line at WP does not, and the byte 1 that the statement claims is not stored. -/
theorem not_chutePacketStoresItsLine : ¬ Obligations.ChutePacketStoresItsLine := by
  intro h
  obtain ⟨hheld, hmay, hturn, hreach⟩ := deepStackState_takes
  obtain ⟨hindex, htop, hhub, hroom⟩ := deepStackState_line
  have hbase : deepStackChute.base.toNat = 0 := rfl
  have hpush := h 9 farRequester oneByteWord deepStackState hheld hmay trivial
  simp only [show (9 : ChuteId).toNat = 9 from rfl, chute_deepStackState, hindex, hbase, Nat.zero_add] at hpush
  obtain ⟨s', hs', hbytes, _⟩ := hpush rfl rfl rfl hroom rfl hreach hturn rfl rfl rfl rfl rfl htop hhub
  have hbyte : s'.byteAt (0x3FFFFF * 64) = 1 := (hbytes 0 (by decide)).trans (by decide +kernel)
  obtain ⟨u, hu, hzero, _⟩ := deepStack_waits
  obtain rfl : s' = u := Host.Outcome.next.inj (hs'.symm.trans hu)
  exact absurd (hbyte.symm.trans hzero) (by decide)

end Sys2Proof.Machine

namespace Sys2Proof.Machine
open Sys2Proof

/-! ### The receive buffers while control payloads are sent (R147, R269) -/

/-- Every link's receive buffers are as they were. -/
def BuffersKept (s t : State) : Prop := ∀ j, (t.ll j).rxq = (s.ll j).rxq

section
variable {s t u : State}

theorem BuffersKept.refl (s : State) : BuffersKept s s := fun _ => rfl

theorem BuffersKept.trans (h : BuffersKept s t) (h' : BuffersKept t u) : BuffersKept s u :=
  fun j => (h' j).trans (h j)

theorem BuffersKept.ite {c : Prop} [Decidable c] (h : BuffersKept s t) (h' : BuffersKept s u) :
    BuffersKept s (if c then t else u) := by
  split <;> assumption

theorem BuffersKept.fold {α : Type} {f : State → α → State} (hf : ∀ st x, BuffersKept st (f st x)) (s : State)
    (xs : List α) : BuffersKept s (xs.foldl f s) :=
  List.foldlRecOn (motive := BuffersKept s) xs f (.refl s) fun st hst x _ => hst.trans (hf st x)

/-- An operation that changes no link-layer state. -/
theorem Moves.buffersKept {ps : List Part} (h : Moves ps s t) (hp : listed .lls ps = false) : BuffersKept s t :=
  fun j => congrArg LL.rxq (h.ll j hp)

/-- A change of one link's layer that leaves its buffers. -/
theorem setLl_buffersKept (s : State) (l : Nat) {x : LL} (hx : x.rxq = (s.ll l).rxq) : BuffersKept s (s.setLl l x) := by
  intro j
  rw [setLl_ll]
  split
  · next hj => rw [hx, hj]
  · rfl

theorem BuffersKept.rxQ (h : BuffersKept s t) (j v : Nat) : (t.ll j).rxQ v = (s.ll j).rxQ v := by
  rw [LL.rxQ, h j, LL.rxQ]

end

section
variable (s : State)

theorem queueTx_buffersKept (l v : Nat) (it : TxItem) : BuffersKept s (queueTx s l v it) := by
  unfold queueTx
  split
  · exact .refl _
  · exact setLl_buffersKept s l rfl

theorem sendCtrl0_buffersKept (dev : Nat) (src : Source) (p : BitVec 512) (c : Nat) :
    BuffersKept s (sendCtrl0 s dev src p c) := by
  unfold sendCtrl0
  extract_lets g k
  split
  · exact queueTx_buffersKept s _ _ _
  · exact .refl s

theorem statusOut_buffersKept (c : Nat) (src : Source) (p : PStat) : BuffersKept s (statusOut s c src p) :=
  .ite (.refl s) (sendCtrl0_buffersKept s _ _ _ _)

theorem sendMarks_buffersKept (c : Nat) (on : Bool) : BuffersKept s (sendMarks s c on) := by
  refine .fold (fun st k => .ite ?_ (.refl st)) s _
  exact ((useFree_moves st).buffersKept rfl).trans (sendCtrl0_buffersKept _ _ _ _ _)

theorem marks_buffersKept (old : Chute) (c : Nat) : BuffersKept s (marks old s c) := by
  unfold marks
  extract_lets x xoff s1 s2 s3
  have h1 : BuffersKept s s1 :=
    ((sliceCheck_moves s c old).buffersKept rfl).trans ((setChute_moves _ _ _).buffersKept rfl)
  have h2 : BuffersKept s s2 := .ite (h1.trans ((crossing_moves _ _ _).buffersKept rfl)) h1
  have h3 : BuffersKept s s3 := .ite (h2.trans ((crossing_moves _ _ _).buffersKept rfl)) h2
  refine .ite h3 (h3.trans ?_)
  rw [notifyXoff_eq]
  exact .ite (sendMarks_buffersKept _ c _) ((sendMarks_buffersKept _ c _).trans ((setChute_moves _ _ _).buffersKept rfl))

theorem changeChute_buffersKept (c : Nat) (f : Chute → Chute) : BuffersKept s (changeChute s c f) :=
  ((setChute_moves s _ _).buffersKept rfl).trans (marks_buffersKept _ _ _)

theorem abortAtChute_buffersKept (c : Nat) (src : Source) : BuffersKept s (abortAtChute s c src) := by
  unfold abortAtChute
  extract_lets x s1
  have h : BuffersKept s s1 := .ite ((((chuteEvent_moves s _ _).buffersKept rfl).trans
    (changeChute_buffersKept _ _ _)).trans (statusOut_buffersKept _ _ _ _)) (.refl s)
  exact h.trans ((setChute_moves _ _ _).buffersKept rfl)

theorem rewindFrom_buffersKept (dev : Nat) : BuffersKept s (rewindFrom s dev) := by
  refine .fold (fun st e => ?_) s _
  extract_lets st1
  have h : BuffersKept st st1 := .ite (abortAtChute_buffersKept st _ _) (.refl st)
  exact .ite (h.trans ((setChute_moves _ _ _).buffersKept rfl)) h

theorem forwardEnd_buffersKept (l v : Nat) (p : BitVec 512) (src : Source) (chute : ChuteAddr) :
    BuffersKept s (forwardEnd s l v p src chute) :=
  (queueTx_buffersKept s _ _ _).trans (setLl_buffersKept _ _ rfl)

theorem abortForwards_buffersKept (l : Nat) : BuffersKept s (abortForwards s l) := by
  refine .fold (fun st e => ?_) s _
  split
  · split
    · exact (forwardEnd_buffersKept st _ _ _ _ _).trans (setLl_buffersKept _ _ rfl)
    · exact .refl st
  · exact .refl st

end

/-! ### The head of a receive buffer (R194, R265, R269) -/

section
variable {s : State} {l v : Nat} {it : RxItem} {rest : List RxItem}

theorem rxHead_of (hoe : oeWaits s (l / 8) = false) (hq : (s.ll l).rxQ v = it :: rest) : rxHead s l v = some it := by
  rw [rxHead, hoe, if_neg Bool.false_ne_true, hq]
  rfl

theorem headCtrl_of {op : Nat} (hoe : oeWaits s (l / 8) = false) (hq : (s.ll l).rxQ v = it :: rest) (htyp : it.typ = 2)
    (hop : ctrlOp it.payload = op) : headCtrl s l v op = some it.payload := by
  rw [headCtrl, rxHead_of hoe hq]
  exact if_pos (by simp [htyp, hop])

/-- R265: the XOFF bit of a VC is apart from its buffers and its packets. -/
theorem refreshXoff_ll (s : State) (l v j : Nat) :
    ((refreshXoff s l v).ll j).rxq = (s.ll j).rxq ∧ ((refreshXoff s l v).ll j).rxPkt = (s.ll j).rxPkt := by
  unfold refreshXoff
  extract_lets x occ old on
  split
  · exact ⟨rfl, rfl⟩
  · rw [setLl_ll]
    split
    · next hj => rw [hj]; exact ⟨rfl, rfl⟩
    · exact ⟨rfl, rfl⟩

theorem refreshXoff_moves (s : State) (l v : Nat) : Moves [.lls] s (refreshXoff s l v) :=
  .ite (.refl _ s) (setLl_moves s _ _)

theorem popRx_moves (s : State) (l v : Nat) : Moves [.lls] s (popRx s l v) := by
  unfold popRx
  extract_lets x
  split
  · exact .step (refreshXoff_moves _ _ _) rfl (setLl_moves s _ _)
  · exact .refl _ s

/-- R269: the head leaves its buffer; the packets that arrive on the link's channels stay. -/
theorem popRx_pops (hq : (s.ll l).rxQ v = it :: rest) : ((popRx s l v).ll l).rxQ v = rest ∧
    ((popRx s l v).ll l).rxPkt = (s.ll l).rxPkt := by
  unfold popRx
  simp only [hq]
  obtain ⟨hrxq, hpkt⟩ := refreshXoff_ll (s.setLl l { (s.ll l).setRxQ v rest with
    poolFreed := (s.ll l).poolFreed + bit it.pool
    flowDue := (s.ll l).flowDue || (it.pool && decide (64 ≤ (s.ll l).poolFreed + bit it.pool)) }) l v l
  rw [setLl_ll, if_pos rfl] at hrxq hpkt
  refine ⟨?_, hpkt⟩
  rw [LL.rxQ, hrxq]
  exact (setRxQ_rxQ v v (s.ll l) rest).trans (if_pos rfl)

theorem setRxPkt_moves (s : State) (l v : Nat) (p : Option RxPkt) : Moves [.lls] s (setRxPkt s l v p) := setLl_moves s _ _

theorem setRxPkt_buffersKept (s : State) (l v : Nat) (p : Option RxPkt) : BuffersKept s (setRxPkt s l v p) :=
  setLl_buffersKept s l rfl

theorem rxPktAt_setRxPkt (s : State) (l v : Nat) (p : Option RxPkt) : rxPktAt (setRxPkt s l v p) l v = p := by
  rw [rxPktAt, setRxPkt, updLl_def, setLl_ll, if_pos rfl]
  exact (tabGet_tabSet _ _ _ _ _).trans (if_pos rfl)

/-- R147: a control payload that has been carried out leaves its buffer, with the packet that its channel carries now. -/
def payloadDone (s : State) (l v : Nat) (p : Option RxPkt) : State := popRx (setRxPkt s l v p) l v

theorem payloadDone_moves (s : State) (l v : Nat) (p : Option RxPkt) : Moves [.lls] s (payloadDone s l v p) :=
  .step (popRx_moves _ _ _) rfl (setRxPkt_moves s l v p)

theorem payloadDone_pops {t : State} (ht : BuffersKept s t) (hq : (s.ll l).rxQ v = it :: rest) (p : Option RxPkt) :
    ((payloadDone t l v p).ll l).rxQ v = rest ∧ rxPktAt (payloadDone t l v p) l v = p := by
  obtain ⟨hrest, hpkt⟩ := popRx_pops (s := setRxPkt t l v p) (l := l) (v := v)
    (((ht.trans (setRxPkt_buffersKept t l v p)).rxQ l v).trans hq)
  exact ⟨hrest, by rw [rxPktAt, payloadDone, hpkt]; exact rxPktAt_setRxPkt t l v p⟩

end
end Sys2Proof.Machine

namespace Sys2Proof.Machine
open Sys2Proof

/-! ### Packets while a purge rewinds them (R132, R150) -/

/-- A chute without its marks' records and what waits at it. -/
def Chute.packet (x : Chute) : Chute :=
  { x with xoff := false, hwmSeen := false, lwmSeen := false, crossings := 0, remoteSrc := 0, waiting := [],
           spaceWait := [], order := [] }

/-- R150: a chute after a purge by a device, but for its marks and what waits at it. -/
def purgedChute (dev : Nat) (x : Chute) : Chute :=
  if x.opened = true ∧ x.src.dev.toNat = dev then rewindOpen x .aborted true else x

theorem SameButMarks.packet {x y : Chute} (h : SameButMarks x y) : y.packet = x.packet := by
  obtain ⟨_, _, _, _, _, rfl⟩ := h
  rfl

section
variable {x y : Chute} (h : y.packet = x.packet)
include h

theorem packet_fields : y.opened = x.opened ∧ y.src = x.src ∧ y.discards = x.discards ∧ y.wp = x.wp ∧ y.cp = x.cp ∧
    y.rp = x.rp ∧ y.fp = x.fp ∧ y.pstat = x.pstat ∧ y.vanished = x.vanished :=
  ⟨(congrArg Chute.opened h :), (congrArg Chute.src h :), (congrArg Chute.discards h :), (congrArg Chute.wp h :),
    (congrArg Chute.cp h :), (congrArg Chute.rp h :), (congrArg Chute.fp h :), (congrArg Chute.pstat h :),
    (congrArg Chute.vanished h :)⟩

theorem rewindOpen_packet (p : PStat) (discard : Bool) : (rewindOpen y p discard).packet = (rewindOpen x p discard).packet :=
  (congrArg (fun z => (rewindOpen z p discard).packet) h :)

end

/-- No chute's packet, pointers or outcome change. -/
def PacketsKept (s t : State) : Prop := ∀ c, (t.chute c).packet = (s.chute c).packet

section
variable {s t u : State}

theorem PacketsKept.refl (s : State) : PacketsKept s s := fun _ => rfl

theorem PacketsKept.trans (h : PacketsKept s t) (h' : PacketsKept t u) : PacketsKept s u := fun c => (h' c).trans (h c)

theorem PacketsKept.fold {α : Type} {f : State → α → State} (hf : ∀ st x, PacketsKept st (f st x)) (s : State)
    (xs : List α) : PacketsKept s (xs.foldl f s) :=
  List.foldlRecOn (motive := PacketsKept s) xs f (.refl s) fun st hst x _ => hst.trans (hf st x)

theorem Moves.packetsKept {ps : List Part} (h : Moves ps s t) (hp : listed .chutes ps = false) : PacketsKept s t :=
  fun c => congrArg Chute.packet (h.chute c hp)

/-- A chute whose waiting words and sources alone change. -/
theorem setChute_packetsKept {c : Nat} {x : Chute} (h : x.packet = (s.chute c).packet) : PacketsKept s (s.setChute c x) := by
  intro k
  rw [setChute_chute]
  split
  · next hk => rw [hk]; exact h
  · rfl

end

/-- R132: a source's open packet is rewound with DISCARD; with none it leaves the chute's packet. -/
theorem abortAtChute_packet (s : State) (c : Nat) (src : Source) : ((abortAtChute s c src).chute c).packet =
    (if (s.chute c).opened = true ∧ (s.chute c).src = src then rewindOpen (s.chute c) .aborted true
      else s.chute c).packet := by
  unfold abortAtChute
  extract_lets x s1
  have hwait : PacketsKept s1 (s1.updChute c fun y => { y with
      waiting := y.waiting.filter (·.src ≠ src), spaceWait := y.spaceWait.filter (·.src ≠ src),
      order := y.order.filter (· ≠ src) }) := setChute_packetsKept rfl
  refine (hwait c).trans ?_
  by_cases h : x.opened = true ∧ x.src = src
  · have h1 : s1 = statusOut (changeChute (chuteEvent s c evChuteRewinds) c fun y => rewindOpen y .aborted true) c src
        .aborted := if_pos (by simp [h.1, h.2])
    obtain ⟨z, hz, hb⟩ := changeChute_becomes (chuteEvent s c evChuteRewinds) c fun y => rewindOpen y .aborted true
    rw [chuteEvent_chute] at hz
    rw [h1, (statusOut_moves _ c src .aborted).chute c rfl, hb.own, if_pos h]
    exact hz.packet
  · have h1 : s1 = s := if_neg (by simpa using h)
    rw [h1, if_neg h]

theorem abortAtChute_others (s : State) {c k : Nat} (src : Source) (hk : k ≠ c) :
    (abortAtChute s c src).chute k = s.chute k := by
  unfold abortAtChute
  extract_lets x s1
  refine (setChute_other _ hk).trans ?_
  obtain ⟨_, -, hb⟩ := changeChute_becomes (chuteEvent s c evChuteRewinds) c fun y => rewindOpen y .aborted true
  by_cases h : (x.opened && decide (x.src = src)) = true
  · have h1 : s1 = statusOut (changeChute (chuteEvent s c evChuteRewinds) c fun y => rewindOpen y .aborted true) c src
        .aborted := if_pos h
    rw [h1, (statusOut_moves _ c src .aborted).chute k rfl, hb.others k hk, chuteEvent_chute]
  · rw [show s1 = s from if_neg h]

/-- R150: what a purge by a device does for one entry of the chutes. -/
def rewindEntry (dev : Nat) (st : State) (e : Nat × Chute) : State :=
  let st1 := if e.2.opened && decide (e.2.src.dev.toNat = dev) then abortAtChute st e.1 e.2.src else st
  if e.2.order.any (·.dev.toNat = dev) then
    st1.updChute e.1 fun x => { x with order := x.order.filter (·.dev.toNat ≠ dev) } else st1

section
variable {dev : Nat} {st : State} {e : Nat × Chute}

/-- The entry's own packet is rewound while it stands; no other packet is. -/
theorem rewindEntry_packet (c : Nat) : ((rewindEntry dev st e).chute c).packet =
    (if c = e.1 ∧ (e.2.opened = true ∧ e.2.src.dev.toNat = dev) ∧ (st.chute c).opened = true ∧
        (st.chute c).src = e.2.src
      then rewindOpen (st.chute c) .aborted true else st.chute c).packet := by
  unfold rewindEntry
  extract_lets st1
  have hwait : ∀ {P : Prop} [Decidable P], PacketsKept st1 (if P then st1.updChute e.1 fun x => { x with
      order := x.order.filter (·.dev.toNat ≠ dev) } else st1) := fun {P} _ => by
    split
    · exact setChute_packetsKept rfl
    · exact .refl _
  rw [hwait c]
  by_cases he : e.2.opened = true ∧ e.2.src.dev.toNat = dev
  · rw [show st1 = abortAtChute st e.1 e.2.src from if_pos (by simp [he.1, he.2])]
    by_cases hc : c = e.1
    · subst hc
      rw [abortAtChute_packet]
      simp only [he, and_self, true_and]
    · rw [abortAtChute_others st _ hc, if_neg fun h => hc h.1]
  · rw [show st1 = st from if_neg (by simpa using he), if_neg fun h => he h.2.1]

/-- A packet that the purge is done with stays as it is. -/
theorem rewindEntry_done {c : Nat} {x : Chute} (h : (st.chute c).packet = (purgedChute dev x).packet) :
    ((rewindEntry dev st e).chute c).packet = (purgedChute dev x).packet := by
  rw [rewindEntry_packet, if_neg, h]
  rintro ⟨-, ⟨-, hdev⟩, hopen, hsrc⟩
  obtain ⟨hopened, hsource, -⟩ := packet_fields h
  rw [hopened, purgedChute] at hopen
  rw [hsource, purgedChute] at hsrc
  by_cases hx : x.opened = true ∧ x.src.dev.toNat = dev
  · rw [if_pos hx] at hopen
    exact absurd hopen Bool.false_ne_true
  · rw [if_neg hx] at hopen hsrc
    exact hx ⟨hopen, by rw [hsrc, hdev]⟩

/-- A packet that still stands is left or rewound. -/
theorem rewindEntry_stands {c : Nat} {x : Chute} (h : (st.chute c).packet = x.packet) :
    ((rewindEntry dev st e).chute c).packet = x.packet ∨
      ((rewindEntry dev st e).chute c).packet = (purgedChute dev x).packet := by
  rw [rewindEntry_packet]
  split
  · next hgo =>
    obtain ⟨-, ⟨-, hdev⟩, hopen, hsrc⟩ := hgo
    obtain ⟨hopened, hsource, -⟩ := packet_fields h
    right
    rw [purgedChute, if_pos ⟨hopened.symm.trans hopen, by rw [← hsource, hsrc, hdev]⟩]
    exact rewindOpen_packet h _ _
  · exact .inl h

/-- The entry of a standing packet of the device rewinds it. -/
theorem rewindEntry_own {c : Nat} {x : Chute} (hx : x.opened = true ∧ x.src.dev.toNat = dev)
    (h : (st.chute c).packet = x.packet) : ((rewindEntry dev st (c, x)).chute c).packet = (purgedChute dev x).packet := by
  obtain ⟨hopen, hsrc, -⟩ := packet_fields h
  rw [rewindEntry_packet, if_pos ⟨rfl, hx, hopen.trans hx.1, hsrc⟩, purgedChute, if_pos hx]
  exact rewindOpen_packet h _ _

theorem rewindEntries_done {c : Nat} {x : Chute} (es : List (Nat × Chute))
    (h : (st.chute c).packet = (purgedChute dev x).packet) :
    ((es.foldl (rewindEntry dev) st).chute c).packet = (purgedChute dev x).packet := by
  induction es generalizing st with
  | nil => exact h
  | cons e es ih => exact ih (rewindEntry_done h)

theorem rewindEntries_purge {c : Nat} {x : Chute} {es : List (Nat × Chute)} (h : (st.chute c).packet = x.packet)
    (hmem : x.opened = true ∧ x.src.dev.toNat = dev → (c, x) ∈ es) :
    ((es.foldl (rewindEntry dev) st).chute c).packet = (purgedChute dev x).packet := by
  induction es generalizing st with
  | nil =>
    rw [purgedChute, if_neg fun hx => List.not_mem_nil (hmem hx)]
    exact h
  | cons e es ih =>
    by_cases he : (x.opened = true ∧ x.src.dev.toNat = dev) ∧ e = (c, x)
    · rw [List.foldl_cons, he.2]
      exact rewindEntries_done es (rewindEntry_own he.1 h)
    · rcases rewindEntry_stands (dev := dev) (e := e) h with hst | hdone
      · exact ih hst fun hx => (List.mem_cons.mp (hmem hx)).resolve_left fun heq => he ⟨hx, heq.symm⟩
      · exact rewindEntries_done es hdone

end

/-- R150: the purging device's open packets are rewound, and no other packet. -/
theorem rewindFrom_packet (s : State) (dev c : Nat) :
    ((rewindFrom s dev).chute c).packet = (purgedChute dev (s.chute c)).packet :=
  rewindEntries_purge (es := s.chutes) rfl fun hx => mem_of_tabGet (k := c) fun h =>
    absurd ((congrArg Chute.opened h).symm.trans hx.1) Bool.false_ne_true

/-! ### The receive buffers of a purged link (R150) -/

/-- R150: what a purge message drops of one VC. -/
def purgeVc (l : Nat) (st : State) (n : Nat) : State :=
  let v := n + 1
  let x := st.ll l
  let cut := dropCutOff (x.rxQ v) []
  let freed := ((x.rxQ v).filter (·.pool)).length - (cut.filter (·.pool)).length
  let st1 := (dropOpens st (x.rxQ v) cut).setLl l { x.setRxQ v cut with
    poolFreed := x.poolFreed + freed,
    flowDue := x.flowDue || (decide (0 < freed) && decide (64 ≤ x.poolFreed + freed)) }
  refreshXoff (if cut = [] then setRxPkt st1 l v none else st1) l v

theorem takePurged_eq (s : State) (l dev : Nat) :
    takePurged s l dev = (List.range 7).foldl (purgeVc l) (abortForwards (rewindFrom s dev) l) := rfl

section
variable (s : State)

theorem dropOpens_moves (before kept : List RxItem) : Moves [.chutes] s (dropOpens s before kept) :=
  .fold (fun st _ => .ite (setChute_moves st _ _) (.refl _ st)) (.refl _ s)

theorem dropOpens_packetsKept (before kept : List RxItem) : PacketsKept s (dropOpens s before kept) := by
  refine .fold (fun st it => ?_) s _
  split
  · exact setChute_packetsKept rfl
  · exact .refl st

theorem purgeVc_moves (l n : Nat) : Moves [.chutes, .lls] s (purgeVc l s n) := by
  unfold purgeVc
  extract_lets v x cut freed y st1
  have h1 : Moves [.chutes, .lls] s st1 := .step (setLl_moves _ _ _) rfl ((dropOpens_moves s _ _).mono rfl)
  exact .step (refreshXoff_moves _ _ _) rfl (.ite (.step (setRxPkt_moves _ _ _ _) rfl h1) h1)

theorem purgeVc_packetsKept (l n : Nat) : PacketsKept s (purgeVc l s n) := by
  unfold purgeVc
  extract_lets v x cut freed y st1
  have h1 : PacketsKept s st1 := (dropOpens_packetsKept s _ _).trans ((setLl_moves _ _ _).packetsKept rfl)
  refine .trans ?_ ((refreshXoff_moves _ _ _).packetsKept rfl)
  split
  · exact h1.trans ((setRxPkt_moves _ _ _ _).packetsKept rfl)
  · exact h1

/-- The messages on VC0 stay. -/
theorem purgeVc_vc0 (l n : Nat) : ((purgeVc l s n).ll l).rxQ 0 = (s.ll l).rxQ 0 := by
  unfold purgeVc
  extract_lets v x cut freed y st1
  have h1 : (st1.ll l).rxQ 0 = x.rxQ 0 := by
    rw [show st1.ll l = _ from (setLl_ll _ _ _ _).trans (if_pos rfl)]
    exact (setRxQ_rxQ v 0 x cut).trans (if_neg (Nat.succ_ne_zero n).symm)
  rw [LL.rxQ, (refreshXoff_ll _ l v l).1]
  split
  · exact ((setRxPkt_buffersKept st1 l v none).rxQ l 0).trans h1
  · exact h1

end

section
variable (s : State) (l dev : Nat)

theorem takePurged_moves : Moves markParts s (takePurged s l dev) := by
  rw [takePurged_eq]
  exact .fold (fun st n => (purgeVc_moves st l n).mono rfl)
    (.step (abortForwards_moves _ l) rfl (rewindFrom_moves s dev))

theorem takePurged_packet (c : Nat) : ((takePurged s l dev).chute c).packet = (purgedChute dev (s.chute c)).packet := by
  rw [takePurged_eq]
  exact ((PacketsKept.fold (fun st n => purgeVc_packetsKept st l n) _ (List.range 7)) c).trans
    (((abortForwards_moves (rewindFrom s dev) l).packetsKept rfl c).trans (rewindFrom_packet s dev c))

theorem takePurged_vc0 : ((takePurged s l dev).ll l).rxQ 0 = (s.ll l).rxQ 0 := by
  rw [takePurged_eq]
  refine List.foldlRecOn (motive := fun st : State => (st.ll l).rxQ 0 = (s.ll l).rxQ 0) _ _ ?_
    fun st hst n _ => (purgeVc_vc0 st l n).trans hst
  exact ((rewindFrom_buffersKept s dev).trans (abortForwards_buffersKept _ l)).rxQ l 0

end

/-! ### Messages carried out (R140, R149, R150) -/

section
variable {s : State} {l : LinkId} {vc : BitVec 3} {p : BitVec 512}

theorem exec_remoteXoff (h : headCtrl s l.toNat vc.toNat 4 = some p) :
    exec (.remoteXoff l vc) s = .next (takeXoff s l.toNat vc.toNat p true) := by
  change execRemoteXoff l vc s = _
  rw [execRemoteXoff, h]

theorem exec_remoteXon (h : headCtrl s l.toNat vc.toNat 5 = some p) :
    exec (.remoteXon l vc) s = .next (takeXoff s l.toNat vc.toNat p false) := by
  change execRemoteXon l vc s = _
  rw [execRemoteXon, h]

theorem exec_remotePurged (h : headCtrl s l.toNat vc.toNat 7 = some p) : exec (.remotePurged l vc) s =
    .next (popRx (takePurged s l.toNat (ctrlSource p).dev.toNat) l.toNat vc.toNat) := by
  change execRemotePurged l vc s = _
  rw [execRemotePurged, h]

/-- R306: with no packet forwarded, no message goes on. -/
theorem forwardsOf_nil (h : s.sys.forwards = []) (l : Nat) (p : BitVec 512) : forwardsOf s l p = [] := by
  unfold forwardsOf
  rw [h]
  exact ite_self _

/-- R149: the producer endpoint's status that a message brings. -/
def statusTaken (s : State) (p : BitVec 512) : State :=
  setEpStat s { ctrlSource p with dev := BitVec.ofNat 6 (myDev s) } (pstatOf (ctrlArg p % 8))

theorem statusTaken_moves (s : State) (p : BitVec 512) : Moves [.epStat] s (statusTaken s p) := epStat_moves s _

theorem epStat_statusTaken (s : State) (p : BitVec 512) (k : Nat) : tabGet (fun _ => PStat.ok) (statusTaken s p).epStat k =
    if k = epKey (ctrlSource p) then pstatOf (ctrlArg p % 8) else tabGet (fun _ => .ok) s.epStat k :=
  tabGet_tabSet _ _ _ _ _

theorem exec_remoteStatus (hnone : s.sys.forwards = []) (h : headCtrl s l.toNat vc.toNat 6 = some p) :
    exec (.remoteStatus l vc) s = .next (popRx (statusTaken s p) l.toNat vc.toNat) := by
  have hds : statusDevs s l.toNat p = [] := by rw [statusDevs, forwardsOf_nil hnone]; rfl
  change execRemoteStatus l vc s = _
  rw [execRemoteStatus, h]
  simp only [hds, ne_eq, not_true_eq_false, if_false]
  rfl

/-- R140: a remote chute noted as stopped or started. -/
def withRemoteXoff (s : State) (chute : Nat) (on : Bool) : State :=
  { s with xoffRemote := tabSet (fun _ => false) s.xoffRemote chute on }

theorem withRemoteXoff_moves (s : State) (chute : Nat) (on : Bool) : Moves [.xoffRemote] s (withRemoteXoff s chute on) :=
  .of_same (fun p hp => by
    cases p
    case xoffRemote => exact nomatch hp
    all_goals rfl) rfl rfl rfl rfl rfl

theorem takeXoff_own (hnone : s.sys.forwards = []) (l v : Nat) (p : BitVec 512) (on : Bool) :
    takeXoff s l v p on = popRx (withRemoteXoff s (ctrlChute p).toNat on) l v := by
  have hds : xoffDevs s l p = [] := by rw [xoffDevs, forwardsOf_nil hnone]; rfl
  rw [takeXoff, hds]
  rfl

theorem remoteXoff_withRemoteXoff (s : State) (chute a : Nat) (on : Bool) :
    remoteXoff (withRemoteXoff s chute on) a = if a = chute then on else remoteXoff s a :=
  tabGet_tabSet _ _ _ _ _

/-- R140: what XOFF and XON do here. -/
theorem takeXoff_sets (hnone : s.sys.forwards = []) {l v : Nat} {it : RxItem} {rest : List RxItem}
    (hq : (s.ll l).rxQ v = it :: rest) (p : BitVec 512) (on : Bool) :
    let t := takeXoff s l v p on
    remoteXoff t (ctrlChute p).toNat = on ∧ (∀ a, a ≠ (ctrlChute p).toNat → remoteXoff t a = remoteXoff s a) ∧
      (t.ll l).rxQ v = rest ∧ OnlyChanges [.xoffRemote, .lls] s t := by
  intro t
  have ht : t = popRx (withRemoteXoff s (ctrlChute p).toNat on) l v := takeXoff_own hnone l v p on
  have hset := withRemoteXoff_moves s (ctrlChute p).toNat on
  have hpop := popRx_moves (withRemoteXoff s (ctrlChute p).toNat on) l v
  have hread (a : Nat) : remoteXoff t a = if a = (ctrlChute p).toNat then on else remoteXoff s a := by
    rw [ht, remoteXoff, show (popRx _ l v).xoffRemote = _ from hpop.same .xoffRemote rfl]
    exact remoteXoff_withRemoteXoff s _ a on
  refine ⟨(hread _).trans (if_pos rfl), fun a ha => (hread a).trans (if_neg ha), ?_, ?_⟩
  · rw [ht]
    exact (popRx_pops (((hset.buffersKept rfl).rxQ l v).trans hq)).1
  · rw [ht]
    exact (Moves.step (ps := [.xoffRemote, .lls]) hpop rfl (hset.mono rfl)).only

end

/-- Settles O24: XOFF, XON and STATUS each set one entry; PURGED rewinds its device's packets chute by chute
(`takePurged_packet`). -/
theorem remoteMessagesTakeEffect : Obligations.RemoteMessagesTakeEffect := by
  intro l s it rest p src hoe hq htyp hnone
  have hhead {op : Nat} (hop : ctrlOp p = op) : headCtrl s l.toNat (0 : BitVec 3).toNat op = some p :=
    headCtrl_of hoe hq htyp hop
  refine ⟨fun hop => ?xoff, fun hop => ?xon, fun hop => ?status, fun hop => ?purged⟩
  case xoff => exact ⟨_, exec_remoteXoff (hhead hop), takeXoff_sets hnone hq p true⟩
  case xon => exact ⟨_, exec_remoteXon (hhead hop), takeXoff_sets hnone hq p false⟩
  case status =>
    refine ⟨_, exec_remoteStatus hnone (hhead hop), ?_⟩
    have hset := statusTaken_moves s p
    have hpop := popRx_moves (statusTaken s p) l.toNat 0
    have hread (k : Nat) : tabGet (fun _ => PStat.ok) (popRx (statusTaken s p) l.toNat 0).epStat k = _ :=
      (congrArg (tabGet _ · k) (hpop.same .epStat rfl)).trans (epStat_statusTaken s p k)
    exact ⟨(hread _).trans (if_pos rfl), fun k hk => (hread k).trans (if_neg hk),
      (popRx_pops (((hset.buffersKept rfl).rxQ l.toNat 0).trans hq)).1,
      (Moves.step (ps := [.epStat, .lls]) hpop rfl (hset.mono rfl)).only⟩
  case purged =>
    have hpop := popRx_moves (takePurged s l.toNat src.dev.toNat) l.toNat 0
    have hmoves : Moves markParts s _ := .step hpop rfl (takePurged_moves s l.toNat src.dev.toNat)
    refine ⟨_, exec_remotePurged (hhead hop), (popRx_pops ((takePurged_vc0 s l.toNat _).trans hq)).1, fun c => ?_,
      (hmoves.mono rfl).only⟩
    intro x y
    have hy : y.packet = (purgedChute src.dev.toNat x).packet :=
      (congrArg Chute.packet (hpop.chute c rfl)).trans (takePurged_packet s l.toNat src.dev.toNat c)
    have hdev : x.src.dev = src.dev ↔ x.src.dev.toNat = src.dev.toNat := BitVec.toNat_inj.symm
    by_cases hx : x.opened = true ∧ x.src.dev = src.dev
    · rw [purgedChute, if_pos (by rwa [← hdev])] at hy
      obtain ⟨hopened, -, hgone, hwp, hcp, hrp, hfp, hpstat, hvanished⟩ := packet_fields hy
      rw [if_pos hx]
      refine ⟨hrp, hfp, hcp, hopened, hwp, hpstat, hvanished, ?_⟩
      rw [hgone]
      exact mem_addNew x.discards x.src
    · rw [purgedChute, if_neg (by rwa [← hdev])] at hy
      obtain ⟨hopened, -, -, hwp, hcp, hrp, hfp, -, -⟩ := packet_fields hy
      rw [if_neg hx]
      exact ⟨hrp, hfp, hcp, hopened, hwp⟩

end Sys2Proof.Machine

namespace Sys2Proof.Machine
open Sys2Proof

/-! ### A remote OPEN at a local chute (R129, R140, R147, R151, R194) -/

section
variable {s t u : State} {l : LinkId} {vc : BitVec 3} {n v c : Nat} {p : BitVec 512} {src : Source}

/-- After an operation that leaves the buffers, the payload that brought it leaves its own. -/
theorem ChuteBecomes.payloadDone {y : Chute} {ps : List Part} {it : RxItem} {rest : List RxItem}
    (h : ChuteBecomes ps c y s t) (ht : BuffersKept s t) (hq : (s.ll n).rxQ v = it :: rest)
    (hp : covers [.lls] ps = true) (k : Option RxPkt) :
    ChuteBecomes ps c y s (payloadDone t n v k) ∧ ((payloadDone t n v k).ll n).rxQ v = rest ∧
      rxPktAt (payloadDone t n v k) n v = k :=
  ⟨h.step (payloadDone_moves t n v k) rfl hp, payloadDone_pops ht hq k⟩

/-- R140, R151, R194: the chute takes no OPEN of another device. -/
def openRefuses (s : State) (c : Nat) : Bool :=
  (s.chute c).st ≠ .enabled || !(s.chute c).remoteOk || !chuteHeld s (c / 1024)

theorem openRefuses_iff : openRefuses s c = true ↔
    (s.chute c).st ≠ .enabled ∨ (s.chute c).remoteOk = false ∨ chuteHeld s (c / 1024) = false := by
  simp only [openRefuses, Bool.or_eq_true, decide_eq_true_eq, Bool.not_eq_true', or_assoc]

theorem openRefuses_false (hst : (s.chute c).st = .enabled) (hok : (s.chute c).remoteOk = true)
    (hheld : chuteHeld s (c / 1024) = true) : ¬ openRefuses s c = true := by
  rw [openRefuses_iff]
  simp [hst, hok, hheld]

/-- R129, R140: the packet of an OPEN, open in its chute. -/
def packetOpened (s : State) (c : Nat) (src : Source) (l : LinkId) : State :=
  (openRemotePacket s c src).updChute c fun y => { y with rxLink := l }

/-- R129, R149, R151: an OPEN refused, with its answer. -/
def packetRefused (s : State) (c : Nat) (src : Source) : State := sendStatus (refuseChute (leaveOrder s c src) c) src c 6

/-- R147: an OPEN for a local chute: refused, left to wait, or carried out. -/
def openHere (s : State) (l : LinkId) (v : Nat) (p : BitVec 512) : State :=
  let chute := ctrlChute p
  let src := ctrlSource p
  let c := bitsAt chute.toNat 0 16
  if openRefuses s c then
    payloadDone (packetRefused s c src) l.toNat v (some { chute := chute, src := src, refused := true })
  else if firstWaits s (s.chute c) src then queueFirst s c src
  else payloadDone (packetOpened s c src l) l.toNat v (some { chute := chute, src := src })

theorem exec_remoteOpen (h : headCtrl s l.toNat vc.toNat 1 = some p) (hlocal : isLocal s (ctrlChute p) = true) :
    exec (.remoteOpen l vc) s = .next (openHere s l vc.toNat p) := by
  change execRemoteOpen l vc s = _
  unfold execRemoteOpen
  dsimp only
  rw [h]
  exact congrArg Host.Outcome.next (if_pos hlocal)

/-- R129, R140: the chute that a remote OPEN opens a packet in. -/
def openedRemote (x : Chute) (src : Source) (l : LinkId) : Chute :=
  let y := openedBy x src
  { y with rxLink := l, remoteSrc := x.remoteSrc ||| BitVec.ofNat 64 (2 ^ src.dev.toNat) }

theorem openRemotePacket_closed (hclosed : (s.chute c).opened = false) :
    openRemotePacket s c src = noteRemote (s.setChute c (openedBy (s.chute c) src)) c src := by
  unfold openRemotePacket
  simp only [hclosed, Bool.false_eq_true, if_false]
  rfl

theorem noteRemote_becomes (h : src.dev.toNat ≠ myDev s) : ChuteBecomes [.chutes] c
    (withRemoteSrc (s.chute c) ((s.chute c).remoteSrc ||| BitVec.ofNat 64 (2 ^ src.dev.toNat))) s (noteRemote s c src) := by
  rw [noteRemote, if_neg h]
  exact setChute_becomes s c _

/-- R129, R140: a chute with no open packet opens that of the device. -/
theorem packetOpened_becomes (hclosed : (s.chute c).opened = false) (hdev : src.dev.toNat ≠ myDev s) :
    ChuteBecomes [.chutes] c (openedRemote (s.chute c) src l) s (packetOpened s c src l) := by
  have hset := setChute_becomes s c (openedBy (s.chute c) src)
  have hnote := noteRemote_becomes (s := s.setChute c (openedBy (s.chute c) src)) (c := c) (src := src) hdev
  rw [hset.own] at hnote
  rw [packetOpened, openRemotePacket_closed hclosed, updChute_def]
  exact ((hset.trans hnote).set _ rfl).cast (by rw [hnote.own]; rfl)

/-- R151: a chute that refuses an OPEN, whose source waits no more. -/
theorem packetRefused_becomes (s : State) (c : Nat) (src : Source) : ChuteBecomes [.chutes, .flt, .host, .lls, .sys] c
    (wordRefusedChute (s.chute c) src true) s (packetRefused s c src) := by
  have hleave := setChute_becomes s c { s.chute c with order := (s.chute c).order.filter (· ≠ src) }
  have hrefuse := refuseChute_becomes (leaveOrder s c src) c
  rw [show (leaveOrder s c src).chute c = _ from hleave.own] at hrefuse
  exact ((hleave.mono rfl).trans (hrefuse.mono rfl)).step (sendCtrl0_moves _ _ _ _ _) rfl rfl

theorem packetRefused_buffersKept (s : State) (c : Nat) (src : Source) : BuffersKept s (packetRefused s c src) :=
  ((setChute_moves s c _).buffersKept rfl).trans
    (((refuseChute_becomes _ c).moves.buffersKept rfl).trans (sendCtrl0_buffersKept _ _ _ _ _))

/-- R129: another source's open packet holds up a FIRST word. -/
theorem firstWaits_opened {x : Chute} (hopen : x.opened = true) (hsrc : x.src ≠ src) : firstWaits s x src = true := by
  rw [firstWaits, if_pos hopen]
  exact decide_eq_true hsrc

end

end Sys2Proof.Machine

namespace Sys2Proof.Machine
open Sys2Proof

/-! ### A chute's line in device memory (R124, R131, R174) -/

section
variable {s t u : State} {c idx : Nat}

/-- R174: the stack line at a buffer index can be stored now. -/
structure LineReached (s : State) (c idx : Nat) : Prop where
  stack : (s.chute c).stack = true
  arm : s.flt.arm = none
  top : (s.chute c).base.toNat + idx * 64 < memTop s
  online : (s.hub (hubOf s ((s.chute c).base.toNat + idx * 64))).st = .online
  free : chuteLineWaits s c idx = false

/-- The line of a chute does not depend on its words. -/
theorem LineReached.carry {y : Chute} (h : LineReached s c idx) (hb : ChuteBecomes [.chutes, .pmus] c y s t)
    (hstack : y.stack = (s.chute c).stack) (hbase : y.base = (s.chute c).base) : LineReached t c idx := by
  obtain ⟨hst, harm, htop, honline, hfree⟩ := h
  have hhub (n : Nat) : (t.hub n).st = (s.hub n).st := congrArg HubS.st (hb.moves.hub n rfl)
  rw [← hb.own] at hstack hbase
  refine ⟨hstack.trans hst, (congrArg Flt.arm (hb.moves.same .flt rfl)).trans harm, ?_, ?_, ?_⟩
  · rwa [hbase, memTop_of_st hhub]
  · rwa [hbase, hubOf_of_st hhub, hhub]
  · rwa [chuteLineWaits, hstack, hbase, reqWaits_congr (hb.moves.same .ms rfl) (hb.moves.same .pnet rfl)]

/-- R160: a whole line written below the top of memory is stored. -/
theorem writeLine_whole_stores {a : Nat} (harm : s.flt.arm = none) (htop : a < memTop s)
    (hon : (s.hub (hubOf s a)).st = .online) {bs : List Byte} (hlen : bs.length = 64) :
    Stores s (writeLine s a bs false 0) (a / 64 * 64) bs := by
  rw [writeLine, if_neg (Nat.not_le_of_lt htop), if_neg (by rw [hon]; decide), if_pos hlen]
  exact (storeLine_stores (s := pmuCount s (wHub (hubOf s a)) evMemWrites 0 1) harm hlen).after (pmuCount_moves s _ _ _ _)

/-- R124, R131: a line of the chute's buffer, stored. -/
theorem storeChuteLine_stores (h : LineReached s c idx) (x : Line) : Stores s (storeChuteLine s c idx x)
    (((s.chute c).base.toNat + idx * 64) / 64 * 64) (lineBytes x) := by
  have hfree := h.free
  rw [chuteLineWaits, h.stack, Bool.true_and] at hfree
  rw [storeChuteLine, if_pos h.stack, if_neg (Bool.eq_false_iff.mp hfree)]
  exact writeLine_whole_stores h.arm h.top h.online (length_lineBytes x)

/-- Bytes stored between operations that leave memory. -/
theorem StoresBytes.between {v : State} {ps qs : List Part} {a : Nat} {bs : List Byte} (h : StoresBytes t u a bs)
    (hbefore : Moves ps s t) (hps : listed .ms ps = false) (hafter : Moves qs u v) (hqs : listed .ms qs = false) :
    StoresBytes s v a bs :=
  ⟨fun i hi => (hafter.byteAt hqs _).trans (h.1 i hi),
    fun b hb => (hafter.byteAt hqs b).trans ((h.2 b hb).trans (hbefore.byteAt hps b))⟩

end

/-! ### The words of a data line (R127, R147) -/

/-- R147: a word of a data flit. -/
def flitWord (p : Line) (i : Nat) : ChuteWord :=
  { data := p.extractLsb' (128 * i) 128, first := false, last := false, len := 15, poison := false }

theorem remoteWords_eq (p : Line) : remoteWords p = [flitWord p 0, flitWord p 1, flitWord p 2, flitWord p 3] := rfl

/-- R127: a chute with the first words of a data line placed. -/
def lineBegun (x : Chute) (p : Line) : Nat → Chute
  | 0 => x
  | k + 1 => placeWord (lineBegun x p k) (flitWord p k)

section
variable {x : Chute} {p : Line}

theorem lineBegun_words (x : Chute) (p : Line) (k : Nat) : (lineBegun x p k).words = x.words + k := by
  induction k with
  | zero => rfl
  | succ k ih => rw [lineBegun, placeWord, ih, Nat.add_assoc]

theorem lineBegun_wslot (h : x.wslot = 0) (p : Line) (k : Nat) : (lineBegun x p k).wslot = BitVec.ofNat 2 k := by
  induction k with
  | zero => exact h
  | succ k ih =>
    rw [lineBegun, placeWord_wslot, ih, BitVec.ofNat_add]
    rfl

/-- What the words of a line leave of the chute. -/
theorem lineBegun_kept (x : Chute) (p : Line) (k : Nat) : ∃ wp buf slot words, lineBegun x p k =
    { x with wp := wp, lineBuf := buf, wslot := slot, words := words } := by
  induction k with
  | zero => exact ⟨_, _, _, _, rfl⟩
  | succ k ih =>
    obtain ⟨wp, buf, slot, words, ih⟩ := ih
    rw [lineBegun, ih, placeWord]
    simp only [flitWord, Bool.or_false]
    exact ⟨_, _, _, _, rfl⟩

/-- The first word of the line moves WP. -/
theorem lineBegun_wp (h : x.wslot = 0) (p : Line) {k : Nat} (hk : k < 4) : (lineBegun x p (k + 1)).wp = x.adv x.wp 1 := by
  induction k with
  | zero => exact placeWord_wp (w := flitWord p 0) h
  | succ k ih =>
    have hslot : (lineBegun x p (k + 1)).wslot ≠ 0 := by
      rw [lineBegun_wslot h]
      exact fun he => by have := congrArg BitVec.toNat he; simp at this; omega
    exact (placeWord_wp_mid hslot).trans (ih (by omega))

/-- The bits of a word at its place in the line. -/
theorem flit_bits (p : Line) {k : Nat} (hk : k < 4) (i : Nat) :
    (((p.extractLsb' (128 * k) 128).setWidth 512) <<< (128 * k)).getLsbD i =
      (decide (128 * k ≤ i ∧ i < 128 * (k + 1)) && p.getLsbD i) := by
  rw [BitVec.getLsbD_shiftLeft, BitVec.getLsbD_setWidth, BitVec.getLsbD_extractLsb']
  by_cases hlow : i < 128 * k
  · simp [hlow]
  · rw [show 128 * k + (i - 128 * k) = i by omega]
    by_cases hhigh : i < 128 * (k + 1)
    · simp [hlow, hhigh, show i < 512 by omega, show i - 128 * k < 512 by omega, show i - 128 * k < 128 by omega,
        show 128 * k ≤ i by omega]
    · simp [hhigh, show ¬ i - 128 * k < 128 by omega]

/-- The buffer holds the bits of the words placed. -/
theorem lineBegun_bits (h : x.wslot = 0) {k : Nat} (hk : k < 4) (i : Nat) :
    (lineBegun x p (k + 1)).lineBuf.getLsbD i = (decide (i < 128 * (k + 1)) && p.getLsbD i) := by
  induction k with
  | zero =>
    have hbuf : (lineBegun x p 1).lineBuf = (0 ||| BitVec.ofNat 512 ((flitWord p 0).data.toNat % 2 ^ (8 * 16)) <<< 0) := by
      have hslot : x.wslot.toNat = 0 := by rw [h]; rfl
      simp only [lineBegun, placeWord, hslot, if_true]
      rfl
    rw [hbuf, setWidth_of_mod, BitVec.getLsbD_or]
    have hbits := flit_bits p hk i
    rw [Nat.mul_zero] at hbits
    rw [show (flitWord p 0).data = p.extractLsb' 0 128 from rfl, hbits]
    simp
  | succ k ih =>
    have hslot := lineBegun_wslot h p (k + 1)
    have hk2 : (BitVec.ofNat 2 (k + 1)).toNat = k + 1 := by
      rw [BitVec.toNat_ofNat]
      omega
    have hne : (lineBegun x p (k + 1)).wslot ≠ 0 := by
      rw [hslot]
      exact fun he => by have := congrArg BitVec.toNat he; rw [hk2] at this; simp at this
    rw [lineBegun, placeWord_lineBuf hne rfl, hslot, hk2, BitVec.getLsbD_or, ih (by omega)]
    rw [show (flitWord p (k + 1)).data = p.extractLsb' (128 * (k + 1)) 128 from rfl, flit_bits p hk i]
    by_cases h1 : i < 128 * (k + 1) <;> by_cases h2 : i < 128 * (k + 1 + 1) <;> simp [h1, h2] <;> omega

/-- Four words make the line. -/
theorem lineBegun_lineBuf (h : x.wslot = 0) (p : Line) : (lineBegun x p 4).lineBuf = p :=
  BitVec.eq_of_getLsbD_eq fun i hi => by
    rw [lineBegun_bits h (by decide) i, decide_eq_true (by omega), Bool.true_and]

end
end Sys2Proof.Machine

namespace Sys2Proof.Machine
open Sys2Proof

/-! ### A data line at its chute (R127, R130, R131, R147) -/

theorem noteRemote_notes (s : State) (c : Nat) (src : Source) :
    ∃ r, ChuteBecomes [.chutes] c (withRemoteSrc (s.chute c) r) s (noteRemote s c src) := by
  by_cases h : src.dev.toNat = myDev s
  · rw [noteRemote, if_pos h]
    exact ⟨(s.chute c).remoteSrc, rfl, fun _ _ => rfl, .refl _ s⟩
  · exact ⟨_, noteRemote_becomes h⟩

/-! REMOTE_SRC is apart from the lines of the buffer. -/

theorem withRemoteSrc_size (x : Chute) (r : BitVec 64) : (withRemoteSrc x r).size = x.size := by
  simp only [Chute.size, withRemoteSrc]

theorem withRemoteSrc_openLines (x : Chute) (r : BitVec 64) : (withRemoteSrc x r).openLines = x.openLines := by
  simp only [Chute.openLines, Chute.dist, Chute.size, withRemoteSrc]

theorem withRemoteSrc_occ (x : Chute) (r : BitVec 64) : (withRemoteSrc x r).occ = x.occ := by
  simp only [Chute.occ, Chute.dist, Chute.size, withRemoteSrc]

theorem lineIndex_withRemoteSrc (x : Chute) (r : BitVec 64) : lineIndex (withRemoteSrc x r) = lineIndex x := by
  simp only [lineIndex, Chute.size, withRemoteSrc]

theorem placeWord_withRemoteSrc (x : Chute) (r : BitVec 64) (w : ChuteWord) :
    placeWord (withRemoteSrc x r) w = withRemoteSrc (placeWord x w) r := by
  simp only [placeWord, withRemoteSrc, Chute.adv, Chute.size]
  rfl

theorem SameButMarks.of_withRemoteSrc {x z : Chute} {r : BitVec 64} (h : SameButMarks (withRemoteSrc x r) z) :
    SameButMarks x z := by
  obtain ⟨_, _, _, _, _, rfl⟩ := h
  exact ⟨_, _, _, _, _, rfl⟩

section
variable {s t u : State} {c : Nat} {src : Source} {y : Chute} {p : Line} {w : ChuteWord}

/-- The packet goes on while words of it are placed. -/
theorem PacketGoesOn.carry (h : PacketGoesOn s c src) (hb : ChuteBecomes [.chutes, .pmus] c y s t)
    (hst : y.st = (s.chute c).st) (hok : y.remoteOk = (s.chute c).remoteOk) (hcut : y.cut = (s.chute c).cut)
    (hopen : y.opened = (s.chute c).opened) (hsrc : y.src = (s.chute c).src) (hgone : y.discards = (s.chute c).discards) :
    PacketGoesOn t c src := by
  obtain ⟨hst', hheld, hdev, hcut', hopened, hsource, hkept⟩ := h
  have hpnet := hb.moves.same .pnet rfl
  have htime : t.time = s.time := hb.moves.same .time rfl
  have hmy : myDev t = myDev s := by rw [myDev, hb.moves.same .tack rfl, myDev]
  rw [← hb.own] at hst hok hcut hopen hsrc hgone
  refine ⟨by rwa [hst], ?_, by rwa [hok, hmy], by rwa [hcut, htime], hopen.trans hopened, hsrc.trans hsource,
    by rwa [hgone]⟩
  rwa [chuteHeld, held_of_pnet hpnet, hpnet]

/-- The first words of a data line are placed. -/
def WordsPlaced (s : State) (c : Nat) (p : Line) (k : Nat) (t : State) : Prop :=
  ∃ r, ChuteBecomes [.chutes, .pmus] c (withRemoteSrc (lineBegun (s.chute c) p k) r) s t

theorem WordsPlaced.goesOn {k : Nat} (h : WordsPlaced s c p k t) (hgo : PacketGoesOn s c src) : PacketGoesOn t c src := by
  obtain ⟨r, hb⟩ := h
  obtain ⟨_, _, _, _, hx⟩ := lineBegun_kept (s.chute c) p k
  rw [hx] at hb
  exact hgo.carry hb rfl rfl rfl rfl rfl rfl

theorem WordsPlaced.start (s : State) (c : Nat) (p : Line) : WordsPlaced s c p 0 s :=
  ⟨(s.chute c).remoteSrc, rfl, fun _ _ => rfl, .refl _ s⟩

/-- R127: what a data line needs: the packet goes on, at the start of a line, and both have room. -/
structure LineFits (s : State) (c : Nat) (src : Source) : Prop where
  goesOn : PacketGoesOn s c src
  wslot : (s.chute c).wslot = 0
  words : (s.chute c).words + 4 ≤ 4096
  lines : (s.chute c).openLines < (s.chute c).size
  occ : (s.chute c).occ < (s.chute c).size

/-- A word of the line is in the packet's bounds, and a new line in the buffer's. -/
theorem LineFits.room (h : LineFits s c src) {k : Nat} (hk : k < 4) (hb : WordsPlaced s c p k t) :
    (t.chute c).words < 4096 ∧
      ((t.chute c).wslot = 0 → (t.chute c).openLines < (t.chute c).size ∧ (t.chute c).occ < (t.chute c).size) := by
  obtain ⟨r, hb⟩ := hb
  rw [hb.own]
  have hwords := lineBegun_words (s.chute c) p k
  refine ⟨?_, fun hslot => ?_⟩
  · have := h.words
    rw [show (withRemoteSrc (lineBegun (s.chute c) p k) r).words = _ from hwords]
    omega
  · rw [show (withRemoteSrc (lineBegun (s.chute c) p k) r).wslot = _ from lineBegun_wslot h.wslot p k] at hslot
    have hzero : k = 0 := by
      have hnat : (BitVec.ofNat 2 k).toNat = 0 := by rw [hslot]; rfl
      rw [BitVec.toNat_ofNat] at hnat
      omega
    rw [hzero, lineBegun, withRemoteSrc_openLines, withRemoteSrc_size, withRemoteSrc_occ]
    exact ⟨h.lines, h.occ⟩

/-- One of the first three words. -/
theorem LineFits.pushWord (h : LineFits s c src) {k : Nat} (hk : k < 3) (hb : WordsPlaced s c p k t) (ws : List ChuteWord) :
    ∃ u, WordsPlaced s c p (k + 1) u ∧ pushAll t c src (flitWord p k :: ws) = ((pushAll u c src ws).1, .taken) := by
  obtain ⟨hwords, hroom⟩ := h.room (by omega) hb
  have hgo := hb.goesOn h.goesOn
  obtain ⟨r, hb⟩ := hb
  have hslot : (t.chute c).wslot ≠ 3 := by
    rw [hb.own, show (withRemoteSrc (lineBegun (s.chute c) p k) r).wslot = _ from lineBegun_wslot h.wslot p k]
    exact fun he => by have := congrArg BitVec.toNat he; simp at this; omega
  obtain ⟨v, hpush, hv⟩ := hgo.places hwords hroom hslot (w := flitWord p k) rfl rfl
  obtain ⟨r', hu⟩ := noteRemote_notes v c src
  rw [hv.own, hb.own, placeWord_withRemoteSrc, ← lineBegun] at hu
  refine ⟨noteRemote v c src, ⟨r', (hb.trans hv).trans (hu.mono rfl)⟩, ?_⟩
  simp only [pushAll, hpush, if_true]

/-- The last word stores the line. -/
theorem LineFits.pushLast (h : LineFits s c src) (hb : WordsPlaced s c p 3 t) :
    pushAll t c src [flitWord p 3] =
      (noteRemote (storeChuteLine (placedWord t c (flitWord p 3)) c (lineIndex (lineBegun (s.chute c) p 4)) p) c src,
        .taken) := by
  obtain ⟨hwords, hroom⟩ := h.room (by decide) hb
  have hgo := hb.goesOn h.goesOn
  obtain ⟨r, hb⟩ := hb
  have hy : placeWord (t.chute c) (flitWord p 3) = withRemoteSrc (lineBegun (s.chute c) p 4) r := by
    rw [hb.own, placeWord_withRemoteSrc, ← lineBegun]
  have hslot : (placeWord (t.chute c) (flitWord p 3)).wslot = 0 := by rw [hy]; exact lineBegun_wslot h.wslot p 4
  have hbuf : (placeWord (t.chute c) (flitWord p 3)).lineBuf = p := by rw [hy]; exact lineBegun_lineBuf h.wslot p
  have hindex : lineIndex (placeWord (t.chute c) (flitWord p 3)) = lineIndex (lineBegun (s.chute c) p 4) := by
    rw [hy, lineIndex_withRemoteSrc]
  have hstore : storeWord t c (flitWord p 3) =
      (storeChuteLine (placedWord t c (flitWord p 3)) c (lineIndex (lineBegun (s.chute c) p 4)) p, .taken) := by
    rw [storeWord_placed hwords hroom]
    dsimp only
    rw [hslot, hbuf, hindex]
    rfl
  simp only [pushAll, hgo.pushWord_eq (w := flitWord p 3) rfl, hstore, if_true]

/-- R127, R131: the four words of a data line at the chute: the packet grows by them, and the line is stored. -/
theorem LineFits.pushLine (h : LineFits s c src) (p : Line) : ∃ t z, pushLine s c src (remoteWords p) = (t, .taken) ∧
    SameButMarks (lineBegun (s.chute c) p 4) z ∧ ChuteBecomes (markParts ++ storeParts) c z s t ∧ BuffersKept s t ∧
    (LineReached s c (lineIndex (lineBegun (s.chute c) p 4)) → StoresBytes s t
      (((s.chute c).base.toNat + lineIndex (lineBegun (s.chute c) p 4) * 64) / 64 * 64) (lineBytes p)) := by
  obtain ⟨t1, h1, hpush1⟩ := h.pushWord (by decide) (.start s c p) [flitWord p 1, flitWord p 2, flitWord p 3]
  obtain ⟨t2, h2, hpush2⟩ := h.pushWord (by decide) h1 [flitWord p 2, flitWord p 3]
  obtain ⟨t3, h3, hpush3⟩ := h.pushWord (by decide) h2 [flitWord p 3]
  have hlast := h.pushLast h3
  obtain ⟨r, hb⟩ := h3
  obtain ⟨_, _, _, _, hx⟩ := lineBegun_kept (s.chute c) p 4
  have hplaced : ChuteBecomes [.chutes, .pmus] c (withRemoteSrc (lineBegun (s.chute c) p 4) r) s
      (placedWord t3 c (flitWord p 3)) :=
    hb.trans ((placedWord_becomes t3 c (flitWord p 3)).cast (by rw [hb.own, placeWord_withRemoteSrc, ← lineBegun]))
  generalize hv : placedWord t3 c (flitWord p 3) = v at hlast hplaced
  generalize hi : lineIndex (lineBegun (s.chute c) p 4) = i at hlast ⊢
  have hstored := storeChuteLine_moves v c i p
  have hnote := noteRemote_moves (storeChuteLine v c i p) c src
  have hmarks := marks_moves (noteRemote (storeChuteLine v c i p) c src) c (s.chute c)
  have hbs : ChuteBecomes (markParts ++ storeParts) c (withRemoteSrc (lineBegun (s.chute c) p 4) r) s
      (storeChuteLine v c i p) := (hplaced.mono rfl).step hstored rfl rfl
  obtain ⟨z, hz, hbz⟩ := hbs.marked (u := marks (s.chute c) (noteRemote (storeChuteLine v c i p) c src) c)
    ((noteRemote_marksOf src).trans (marks_marksOf _))
    ((Moves.step (ps := markParts) hmarks rfl (hnote.mono rfl)).mono rfl)
  refine ⟨_, z, ?_, ?_, hbz, ?_, fun hreach => ?_⟩
  · rw [Machine.pushLine, remoteWords_eq, hpush1, hpush2, hpush3, hlast]
  · exact hz.of_withRemoteSrc
  · exact (hplaced.moves.buffersKept rfl).trans ((hstored.buffersKept rfl).trans ((hnote.buffersKept rfl).trans
      (marks_buffersKept _ _ _)))
  · have hline := hreach.carry hplaced (by rw [hx]; rfl) (by rw [hx]; rfl)
    have hbytes := (storeChuteLine_stores hline p).bytes
    rw [hplaced.own, show (withRemoteSrc (lineBegun (s.chute c) p 4) r).base = (s.chute c).base by rw [hx]; rfl] at hbytes
    exact hbytes.between hplaced.moves rfl (Moves.step (ps := markParts) hmarks rfl (hnote.mono rfl)) rfl

end

/-- What a data line leaves of the packet. -/
theorem lineBegun_packet {x z : Chute} {p : Line} (h : x.wslot = 0) (hz : SameButMarks (lineBegun x p 4) z) :
    z.words = x.words + 4 ∧ z.wslot = 0 ∧ z.wp = x.adv x.wp 1 ∧ z.cp = x.cp ∧ z.opened = x.opened := by
  have hwords := lineBegun_words x p 4
  have hslot := lineBegun_wslot h p 4
  have hwp := lineBegun_wp h p (k := 3) (by decide)
  obtain ⟨_, _, _, _, hx⟩ := lineBegun_kept x p 4
  rw [hx] at hwords hslot hwp hz
  obtain ⟨_, _, _, _, _, rfl⟩ := hz
  exact ⟨hwords, hslot, hwp, rfl, rfl⟩

/-- The line that four words begin and end is the one after WP. -/
theorem lineIndex_lineBegun {x : Chute} {p : Line} (h : x.wslot = 0) :
    lineIndex (lineBegun x p 4) = ((x.adv x.wp 1).toNat + 2 * x.size - 1) % x.size := by
  have hwp := lineBegun_wp h p (k := 3) (by decide)
  obtain ⟨_, _, _, _, hx⟩ := lineBegun_kept x p 4
  rw [hx] at hwp ⊢
  rw [lineIndex, hwp]
  rfl

/-! ### REMOTE_DATA (R147) -/

section
variable {s t : State} {l : LinkId} {vc : BitVec 3} {it : RxItem} {k : RxPkt}

/-- R147: a data flit of a packet that a local chute takes. -/
theorem exec_remoteData (hhead : rxHead s l.toNat vc.toNat = some it) (htyp : it.typ = 1)
    (hpkt : rxPktAt s l.toNat vc.toNat = some k) (hno : k.refused = false) (hfwd : k.fwd = none)
    (happly : applyRemoteLine s (bitsAt k.chute.toNat 0 16) k.src it.payload = some t) :
    exec (.remoteData l vc) s = .next (popRx t l.toNat vc.toNat) := by
  change execRemoteData l vc s = _
  unfold execRemoteData
  simp only [hhead, htyp, hpkt, hno, hfwd, happly]
  rfl

/-- R149: a line of the open packet that does not end it brings no outcome. -/
theorem applyRemoteLine_goesOn {c : Nat} {src : Source} {p : Line} (hgo : PacketGoesOn s c src)
    (hpush : pushLine s c src (remoteWords p) = (t, .taken)) (hopen : (t.chute c).opened = true) :
    applyRemoteLine s c src p = some t := by
  unfold applyRemoteLine
  simp [hpush, hgo.opened, hgo.source, hopen]

end
end Sys2Proof.Machine

namespace Sys2Proof.Machine
open Sys2Proof

/-! ### A line of which the bytes past some are 0 (R127) -/

theorem leBytes_getD (v n j : Nat) : (leBytes v n).getD j 0 = if j < n then BitVec.ofNat 8 (v / 256 ^ j) else 0 := by
  induction n generalizing v j with
  | zero => simp [leBytes]
  | succ n ih =>
    cases j with
    | zero => simp [leBytes]
    | succ j =>
      rw [leBytes, List.getD_cons_succ, ih, Nat.div_div_eq_div_mul, ← Nat.pow_succ']
      simp only [Nat.succ_lt_succ_iff]

/-- R127: a line cut to its first bytes. -/
def cutLine (x : Line) (n : Nat) : Line := BitVec.ofNat 512 (x.toNat % 2 ^ (8 * n))

theorem cutLine_toNat (x : Line) (n : Nat) : (cutLine x n).toNat = x.toNat % 256 ^ n := by
  rw [cutLine, BitVec.toNat_ofNat, Nat.mod_eq_of_lt ((Nat.mod_le _ _).trans_lt x.isLt), Nat.pow_mul]

theorem lineBytes_cutLine (x : Line) {n j : Nat} (hj : j < 64) :
    (lineBytes (cutLine x n)).getD j 0 = if j < n then (lineBytes x).getD j 0 else 0 := by
  rw [lineBytes, lineBytes, leBytes_getD, leBytes_getD, if_pos hj, cutLine_toNat]
  split
  · next hjn =>
    have hpow : 256 ^ n = 256 ^ j * 256 ^ (n - j) := by rw [← Nat.pow_add]; congr 1; omega
    have hdvd : 256 ∣ 256 ^ (n - j) := dvd_pow_self 256 (by omega)
    rw [hpow, Nat.mod_mul_right_div_self]
    apply BitVec.eq_of_toNat_eq
    rw [BitVec.toNat_ofNat, BitVec.toNat_ofNat]
    exact Nat.mod_mod_of_dvd _ hdvd
  · next hjn =>
    have hlt : x.toNat % 256 ^ n < 256 ^ j :=
      (Nat.mod_lt _ (by positivity)).trans_le (Nat.pow_le_pow_right (by decide) (by omega))
    rw [Nat.div_eq_of_lt hlt]
    rfl

/-! ### CLOSE and ABORT of a remote packet (R131, R132, R147, R148) -/

section
variable {s t : State} {l : LinkId} {vc : BitVec 3} {p : BitVec 512} {k : RxPkt} {c arg : Nat} {src : Source}

/-- R306: a packet that a local chute takes waits for no link. -/
theorem forwardWaits_local {l v : Nat} (hpkt : rxPktAt s l v = some k) (hfwd : k.fwd = none) : forwardWaits s l v = false := by
  unfold forwardWaits
  simp [hpkt, hfwd]

theorem exec_remoteClose (hhead : headCtrl s l.toNat vc.toNat 2 = some p) (hpkt : rxPktAt s l.toNat vc.toNat = some k)
    (hno : k.refused = false) (hfwd : k.fwd = none) : exec (.remoteClose l vc) s =
      .next (payloadDone (closeRemote s (bitsAt k.chute.toNat 0 16) k.src (ctrlArg p)) l.toNat vc.toNat none) := by
  change execRemoteClose l vc s = _
  unfold execRemoteClose
  simp only [hhead, forwardWaits_local hpkt hfwd, hpkt, hno, hfwd]
  rfl

theorem exec_remoteAbort (hhead : headCtrl s l.toNat vc.toNat 3 = some p) (hpkt : rxPktAt s l.toNat vc.toNat = some k)
    (hno : k.refused = false) (hfwd : k.fwd = none) : exec (.remoteAbort l vc) s =
      .next (payloadDone (abortRemote s (bitsAt k.chute.toNat 0 16) k.src) l.toNat vc.toNat none) := by
  change execRemoteAbort l vc s = _
  unfold execRemoteAbort
  simp only [hhead, forwardWaits_local hpkt hfwd, hpkt, hno, hfwd]
  rfl

/-- R132, R148: ABORT from the source of the open packet rewinds it. -/
theorem abortRemote_rewinds (hgo : PacketGoesOn s c src) (hok : (s.chute c).remoteOk = true) :
    ∃ z, SameButMarks (rewindOpen (s.chute c) .aborted false) z ∧ ChuteBecomes markParts c z s (abortRemote s c src) ∧
      BuffersKept s (abortRemote s c src) := by
  obtain ⟨z, hz, hb⟩ := changeChute_becomes (chuteEvent s c evChuteRewinds) c fun y => rewindOpen y .aborted false
  rw [chuteEvent_chute] at hz
  have hevent := chuteEvent_moves s c evChuteRewinds
  have habort : abortRemote s c src = statusOut (changeChute (chuteEvent s c evChuteRewinds) c fun y =>
      rewindOpen y .aborted false) c src .aborted :=
    if_pos (by simp [hgo.opened, hgo.source, hgo.st, hok, hgo.held])
  rw [habort]
  exact ⟨z, hz, (hb.after hevent rfl rfl).step (statusOut_moves _ _ _ _) rfl rfl,
    (hevent.buffersKept rfl).trans ((changeChute_buffersKept _ _ _).trans (statusOut_buffersKept _ _ _ _))⟩

/-- R131: the open packet with its last line padded. -/
def padded (s : State) (c v : Nat) : State := padLast (s.setChute c (s.chute c)) c v

theorem closeRemote_goesOn (hgo : PacketGoesOn s c src) (hpois : (s.chute c).openPois = false)
    (harg : bitAt arg 7 = false) : closeRemote s c src arg =
      reportOutcome (marks (s.chute c) (commitOpen (padded s c (arg % 64 + 1)) c (arg % 64 + 1)) c) c src := by
  have hown : (s.setChute c (s.chute c)).chute c = s.chute c := (setChute_becomes s c _).own
  unfold closeRemote
  extract_lets x left s1 v
  have hs1 : s1 = s.setChute c x := by
    unfold s1
    rw [harg, Bool.or_false]
  rw [if_neg hgo.cut, if_neg (Bool.eq_false_iff.mp hgo.notRefused), if_neg hgo.kept,
    if_pos (by simp [x, hgo.opened, hgo.source]), hs1, hown,
    if_neg (Bool.eq_false_iff.mp hpois)]
  rfl

theorem padded_becomes (s : State) (c v : Nat) : ChuteBecomes wordParts c (s.chute c) s (padded s c v) :=
  ((setChute_becomes s c (s.chute c)).mono rfl).step
    (show Moves storeParts _ (padLast (s.setChute c (s.chute c)) c v) from
      .ite (.refl _ _) (storeChuteLine_moves _ _ _ _)) rfl rfl

/-- R127: a full line, or none, needs no padding. -/
theorem padded_full {v : Nat} (h : (s.chute c).openLines = 0 ∨ 64 ≤ v) : padded s c v = s.setChute c (s.chute c) := by
  have hown : (s.setChute c (s.chute c)).chute c = s.chute c := (setChute_becomes s c _).own
  rw [padded, padLast, hown]
  exact if_pos (by simpa using h)

/-- R127: the last line stored again, with 0 past its valid bytes. -/
theorem padded_stores {v : Nat} (hopen : (s.chute c).openLines ≠ 0) (hv : v < 64)
    (hreach : LineReached s c (lineIndex (s.chute c))) : StoresBytes s (padded s c v)
      (((s.chute c).base.toNat + lineIndex (s.chute c) * 64) / 64 * 64) (lineBytes (cutLine (s.chute c).lineBuf v)) := by
  have hset := setChute_becomes s c (s.chute c)
  have hstored := (storeChuteLine_stores (hreach.carry (hset.mono rfl) rfl rfl)
    (cutLine (s.chute c).lineBuf v)).bytes
  have hpad : padded s c v = storeChuteLine (s.setChute c (s.chute c)) c (lineIndex (s.chute c))
      (cutLine (s.chute c).lineBuf v) := by
    rw [padded, padLast, hset.own]
    exact if_neg (by simp [hopen, hv])
  rw [hset.own, ← hpad] at hstored
  exact hstored.between hset.moves rfl (.refl [] _) rfl

/-- R131, R147: CLOSE commits the open packet. -/
theorem closeRemote_commits (hgo : PacketGoesOn s c src) (hpois : (s.chute c).openPois = false)
    (harg : bitAt arg 7 = false) : ∃ z, SameButMarks (committedChute (s.chute c) (arg % 64 + 1) s.time) z ∧
      ChuteBecomes (markParts ++ storeParts) c z s (closeRemote s c src arg) ∧
      BuffersKept s (closeRemote s c src arg) ∧
      Moves (.chutes :: .pmus :: markParts) (padded s c (arg % 64 + 1)) (closeRemote s c src arg) := by
  rw [closeRemote_goesOn hgo hpois harg]
  generalize arg % 64 + 1 = v
  have hpad := padded_becomes s c v
  have hcommit := commitOpen_commits (s := padded s c v) (c := c) (by rw [hpad.own]; exact hpois) v
  rw [hpad.own, show (padded s c v).time = s.time from hpad.moves.same .time rfl] at hcommit
  generalize padded s c v = t at hpad hcommit ⊢
  have hmarks := marks_moves (commitOpen t c v) c (s.chute c)
  obtain ⟨z, hz, hb⟩ := ((hpad.mono rfl).trans (hcommit.mono (ps := markParts ++ storeParts) rfl)).marked
    (marks_marksOf (c := c) (s.chute c)) (hmarks.mono rfl)
  have hkept : BuffersKept s (marks (s.chute c) (commitOpen t c v) c) :=
    (hpad.moves.buffersKept rfl).trans ((hcommit.moves.buffersKept rfl).trans (marks_buffersKept _ _ _))
  generalize marks (s.chute c) (commitOpen t c v) c = m at hmarks hb hkept ⊢
  have hout := statusOut_moves m c src (m.chute c).pstat
  exact ⟨z, hz, hb.step hout rfl rfl, hkept.trans (statusOut_buffersKept _ _ _ _),
    .step hout rfl (.step hmarks rfl (hcommit.moves.mono rfl))⟩

end
end Sys2Proof.Machine

namespace Sys2Proof.Machine
open Sys2Proof

/-- Settles O23: an OPEN through `openHere`, a data line through `LineFits.pushLine`, CLOSE through
`closeRemote_commits`, and ABORT through `abortRemote_rewinds`. -/
theorem remotePacketsOpenAndMove : Obligations.RemotePacketsOpenAndMove := by
  refine ⟨?opens, ?moves⟩
  case opens =>
    intro l vc s it rest v p chute src c x others hoe hq htyp hop hlocal hdev
    have hexec := exec_remoteOpen (vc := vc) (headCtrl_of hoe hq htyp hop) hlocal
    refine ⟨fun hst hok hheld hclosed hturn => ?taken, fun hno => ?refused, fun hst hok hheld hopen hsrc => ?waits⟩
    case taken =>
      have hb := packetOpened_becomes (l := l) hclosed hdev
      obtain ⟨hdone, hleft, hpkt⟩ := (hb.mono (ps := [.chutes, .lls]) rfl).payloadDone (hb.moves.buffersKept rfl) hq rfl
        (some { chute := chute, src := src })
      exact ⟨_, hexec.trans (congrArg Host.Outcome.next ((if_neg (openRefuses_false hst hok hheld)).trans
        (if_neg (Bool.eq_false_iff.mp hturn)))), hdone.own, hleft, hpkt, hdone.others, hdone.moves.only⟩
    case refused =>
      obtain ⟨hdone, hleft, hpkt⟩ := (packetRefused_becomes s c src).payloadDone (packetRefused_buffersKept s c src) hq rfl
        (some { chute := chute, src := src, refused := true })
      exact ⟨_, hexec.trans (congrArg Host.Outcome.next (if_pos (openRefuses_iff.mpr hno))), hdone.own, hleft, hpkt,
        hdone.others⟩
    case waits =>
      exact hexec.trans (congrArg Host.Outcome.next ((if_neg (openRefuses_false hst hok hheld)).trans
        (if_pos (firstWaits_opened hopen hsrc))))
  case moves =>
    intro l vc s it rest k v c x i at0 last at1 n others reached hoe hcut hdev hq hpkt hno hfwd hst hheld hopen hsrc hkept
    have hgo : PacketGoesOn s c k.src := ⟨hst, hheld, hdev, hcut, hopen, hsrc, hkept⟩
    have hreached {j : Nat} (h : reached j) : LineReached s c j :=
      have ⟨hstack, harm, htop, honline, hfree⟩ := h
      ⟨hstack, harm, htop, honline, hfree⟩
    refine ⟨fun htyp hslot hwords hlines hocc hreach => ?data, fun htyp hop hpois harg hline => ?close,
      fun htyp hop hok => ?abort⟩
    case data =>
      obtain ⟨t, z, hpush, hz, hb, hbuf, hstores⟩ := (LineFits.mk hgo hslot hwords hlines hocc).pushLine it.payload
      obtain ⟨hw, hs, hwp, hcp, ho⟩ := lineBegun_packet hslot hz
      have happly := applyRemoteLine_goesOn hgo hpush (by rw [hb.own, ho]; exact hopen)
      rw [lineIndex_lineBegun hslot] at hstores
      have hpop := popRx_moves t l.toNat v
      have hdone := hb.step hpop rfl rfl
      obtain ⟨hin, hout⟩ := (hstores (hreached hreach)).between (.refl [] s) rfl hpop rfl
      rw [length_lineBytes] at hin hout
      refine ⟨_, exec_remoteData (rxHead_of hoe hq) htyp hpkt hno hfwd happly, ?_⟩
      dsimp only
      rw [hdone.own]
      exact ⟨hw, hs, hwp, hcp, ho.trans hopen, (popRx_pops ((hbuf.rxQ _ _).trans hq)).1, hdone.others, hin, hout⟩
    case close =>
      have hexec := exec_remoteClose (vc := vc) (headCtrl_of hoe hq htyp hop) hpkt hno hfwd
      obtain ⟨z, hz, hb, hbuf, hafter⟩ := closeRemote_commits hgo hpois harg
      obtain ⟨hdone, hleft, hgone⟩ := hb.payloadDone hbuf hq rfl none
      have hlater : Moves (.chutes :: .pmus :: markParts) (padded s c n) _ :=
        .step (payloadDone_moves _ l.toNat v none) rfl hafter
      obtain ⟨_, _, _, _, _, rfl⟩ := hz
      refine ⟨_, hexec, ?_⟩
      dsimp only
      rw [hdone.own]
      refine ⟨rfl, rfl, rfl, rfl, rfl, rfl, by rw [← hsrc]; rfl, hleft, hgone, hdone.others, fun hfull => ?_,
        fun hn hlines => ?_⟩
      · have hpad : padded s c n = s.setChute c (s.chute c) := padded_full (hfull.symm.imp_right Eq.ge)
        rw [hpad] at hlater
        exact hlater.same .ms rfl
      · have hreach : LineReached s c (lineIndex (s.chute c)) :=
          hreached ((hline.resolve_left (by omega)).resolve_left hlines)
        obtain ⟨hin, hout⟩ := (padded_stores hlines hn hreach).between (.refl [] s) rfl hlater rfl
        rw [length_lineBytes] at hin hout
        exact ⟨fun j hj => (hin j hj).trans (lineBytes_cutLine _ hj), hout⟩
    case abort =>
      have hexec := exec_remoteAbort (vc := vc) (headCtrl_of hoe hq htyp hop) hpkt hno hfwd
      obtain ⟨z, hz, hb, hbuf⟩ := abortRemote_rewinds hgo hok
      obtain ⟨hdone, hleft, hgone⟩ := hb.payloadDone hbuf hq rfl none
      obtain ⟨_, _, _, _, _, rfl⟩ := hz
      refine ⟨_, hexec, ?_⟩
      dsimp only
      rw [hdone.own]
      exact ⟨rfl, rfl, rfl, rfl, rfl, rfl, rfl, hleft, hgone, hdone.others, (hdone.moves.mono rfl).only⟩
end Sys2Proof.Machine

namespace Sys2Proof.Machine
open Sys2Proof

/-! ## What every operation keeps

The command queue, and the canonical form of every memory: what an operation, then a command, then a step leaves. -/

/-- The queue of `t` is that of `s`, and its memories are canonical where those of `s` are. -/
structure Keeps (s t : State) : Prop where
  pending : t.pending = s.pending
  canon : s.canonical → t.canonical

/-- A command that goes on to a next state, and keeps so much. -/
def Runs (s : State) (o : Host.Outcome State Fault Refusal) : Prop := ∃ t, o = .next t ∧ Keeps s t

/-- The fields that `Keeps` speaks of. -/
def State.kept (s : State) : List Instr × Mem × Mem × Mem × Mem × Mem :=
  (s.pending, s.ms.mem, s.manger, s.hostMem, s.flash, s.mram)

section
variable {r s t u : State}

theorem Keeps.refl (s : State) : Keeps s s := ⟨rfl, id⟩

/-- An update of other fields. -/
theorem Keeps.upd (h : Keeps r s) (e : t.kept = s.kept) : Keeps r t := by
  obtain ⟨hpending, hcanon⟩ := h
  obtain ⟨e0, hms, hmanger, hhost, hflash, hmram⟩ : t.pending = s.pending ∧ t.ms.mem = s.ms.mem ∧
      t.manger = s.manger ∧ t.hostMem = s.hostMem ∧ t.flash = s.flash ∧ t.mram = s.mram := by
    simpa [State.kept] using e
  refine ⟨e0.trans hpending, fun hc => ?_⟩
  have hs := hcanon hc
  unfold State.canonical at hs ⊢
  rwa [hms, hmanger, hhost, hflash, hmram]

/-- An operation whose parts are known, and the queue is none of them. -/
theorem Moves.keeps {ps : List Part} (m : Moves ps s t) (hp : listed .pending ps = false) (h : Keeps r s) :
    Keeps r t := ⟨(m.same .pending hp).trans h.pending, fun hc => m.canon (h.canon hc)⟩

/-- A change of the MRAM that keeps it canonical. -/
theorem Keeps.mram {x : Mem} (h : Keeps r s) (hx : memWf s.mram = true → memWf x = true) :
    Keeps r { s with mram := x } := ⟨h.pending, fun hc => by
    obtain ⟨hms, hmanger, hhost, hflash, hmram⟩ := h.canon hc
    exact ⟨hms, hmanger, hhost, hflash, hx hmram⟩⟩

theorem Keeps.ite {c : Prop} [Decidable c] (h : Keeps r s) (h' : Keeps r t) : Keeps r (if c then s else t) := by
  split <;> assumption

theorem Keeps.ite_fst {α : Type} {c : Prop} [Decidable c] {x y : State × α} (h : Keeps r x.1) (h' : Keeps r y.1) :
    Keeps r (if c then x else y).1 := by split <;> assumption

theorem Keeps.pair {α : Type} {x : α} (h : Keeps r s) : Keeps r (s, x).1 := h

theorem Keeps.chuteRead {l : TLine} {u : Bool} (h : Keeps r s) : Keeps r (ChuteRead.mk s l u).st := h
theorem Keeps.fetch {bs : List Byte} {p u : Bool} (h : Keeps r s) : Keeps r (Fetch.mk s bs p u).st := h
theorem Keeps.got {q : Option InPort} {bs : List OpBlk} {g : GotRes} {a : Nat} (h : Keeps r s) :
    Keeps r (Got.mk s q bs g a).st := h

theorem Keeps.ite_chuteRead {c : Prop} [Decidable c] {x y : ChuteRead} (h : Keeps r x.st) (h' : Keeps r y.st) :
    Keeps r (if c then x else y).st := by split <;> assumption

theorem Keeps.fold {α : Type} {f : State → α → State} {xs : List α} (hf : ∀ t x, Keeps r t → Keeps r (f t x))
    (h : Keeps r s) : Keeps r (xs.foldl f s) := by
  induction xs generalizing s with
  | nil => exact h
  | cons x xs ih => exact ih (hf s x h)

theorem Keeps.fold_fst {α β : Type} {f : State × β → α → State × β} {xs : List α} {y : State × β}
    (hf : ∀ z x, Keeps r z.1 → Keeps r (f z x).1) (h : Keeps r y.1) : Keeps r (xs.foldl f y).1 := by
  induction xs generalizing y with
  | nil => exact h
  | cons x xs ih => exact ih (hf y x h)

/-! Updates of fields that `Keeps` does not speak of. -/

theorem Keeps.stalls {x : Tab Stall} (h : Keeps r s) : Keeps r { s with stalls := x } := h.upd rfl
theorem Keeps.pens {x : Tab Pen} (h : Keeps r s) : Keeps r { s with pens := x } := h.upd rfl
theorem Keeps.sinks {x : Tab Sink} (h : Keeps r s) : Keeps r { s with sinks := x } := h.upd rfl
theorem Keeps.chutes {x : Tab Chute} (h : Keeps r s) : Keeps r { s with chutes := x } := h.upd rfl
theorem Keeps.doorbells {x : Tab Doorbell} (h : Keeps r s) : Keeps r { s with doorbells := x } := h.upd rfl
theorem Keeps.chuteDies {x : Tab ChuteDie} (h : Keeps r s) : Keeps r { s with chuteDies := x } := h.upd rfl
theorem Keeps.epStat {x : Tab PStat} (h : Keeps r s) : Keeps r { s with epStat := x } := h.upd rfl
theorem Keeps.oes {x : Tab OeS} (h : Keeps r s) : Keeps r { s with oes := x } := h.upd rfl
theorem Keeps.links {x : Tab LinkS} (h : Keeps r s) : Keeps r { s with links := x } := h.upd rfl
theorem Keeps.lls {x : Tab LL} (h : Keeps r s) : Keeps r { s with lls := x } := h.upd rfl
theorem Keeps.pmus {x : Tab Pmu} (h : Keeps r s) : Keeps r { s with pmus := x } := h.upd rfl
theorem Keeps.resp {x : Resp} (h : Keeps r s) : Keeps r { s with resp := x } := h.upd rfl
theorem Keeps.free {x : Nat} (h : Keeps r s) : Keeps r { s with free := x } := h.upd rfl
theorem Keeps.time {x : BitVec 64} (h : Keeps r s) : Keeps r { s with time := x } := h.upd rfl
theorem Keeps.pins {x : Pins} (h : Keeps r s) : Keeps r { s with pins := x } := h.upd rfl
theorem Keeps.mangerInj {x : Tab (BitVec 8)} (h : Keeps r s) : Keeps r { s with mangerInj := x } := h.upd rfl
theorem Keeps.strq {x : List StrLine} (h : Keeps r s) : Keeps r { s with strq := x } := h.upd rfl
theorem Keeps.loadQ {x : List LoadJob} (h : Keeps r s) : Keeps r { s with loadQ := x } := h.upd rfl
theorem Keeps.loadNow {x : Option LoadJob} (h : Keeps r s) : Keeps r { s with loadNow := x } := h.upd rfl
theorem Keeps.ready {x : List (PenId × Nat)} (h : Keeps r s) : Keeps r { s with ready := x } := h.upd rfl
theorem Keeps.anchors {x : List AnchorMsg} (h : Keeps r s) : Keeps r { s with anchors := x } := h.upd rfl
theorem Keeps.xoffRemote {x : Tab Bool} (h : Keeps r s) : Keeps r { s with xoffRemote := x } := h.upd rfl
theorem Keeps.pnet {x : Pnet} (h : Keeps r s) : Keeps r { s with pnet := x } := h.upd rfl
theorem Keeps.sys {x : SysS} (h : Keeps r s) : Keeps r { s with sys := x } := h.upd rfl
theorem Keeps.host {x : HostS} (h : Keeps r s) : Keeps r { s with host := x } := h.upd rfl
theorem Keeps.tack {x : Tack} (h : Keeps r s) : Keeps r { s with tack := x } := h.upd rfl
theorem Keeps.pwr {x : Pwr} (h : Keeps r s) : Keeps r { s with pwr := x } := h.upd rfl
theorem Keeps.therm {x : Therm} (h : Keeps r s) : Keeps r { s with therm := x } := h.upd rfl
theorem Keeps.flt {x : Flt} (h : Keeps r s) : Keeps r { s with flt := x } := h.upd rfl
theorem Keeps.tack_pwr {x : Tack} {y : Pwr} (h : Keeps r s) : Keeps r { s with tack := x, pwr := y } := h.upd rfl
theorem Keeps.host_tack {x : HostS} {y : Tack} (h : Keeps r s) : Keeps r { s with host := x, tack := y } := h.upd rfl

theorem Runs.next (h : Keeps s t) : Runs s (.next t) := ⟨t, rfl, h⟩

/-! ### Named updates -/

theorem keeps_setStall {k v} (h : Keeps r s) : Keeps r (State.setStall s k v) := h.stalls

theorem keeps_updStall {k f} (h : Keeps r s) : Keeps r (State.updStall s k f) := keeps_setStall h

theorem keeps_setPen {k v} (h : Keeps r s) : Keeps r (State.setPen s k v) := h.pens

theorem keeps_updPen {k f} (h : Keeps r s) : Keeps r (State.updPen s k f) := keeps_setPen h

theorem keeps_setSink {k v} (h : Keeps r s) : Keeps r (State.setSink s k v) := h.sinks

theorem keeps_setChute {k v} (h : Keeps r s) : Keeps r (State.setChute s k v) := h.chutes

theorem keeps_updChute {k f} (h : Keeps r s) : Keeps r (State.updChute s k f) := keeps_setChute h

theorem keeps_setDoorbell {k v} (h : Keeps r s) : Keeps r (State.setDoorbell s k v) := h.doorbells

theorem keeps_setChuteDie {k v} (h : Keeps r s) : Keeps r (State.setChuteDie s k v) := h.chuteDies

theorem keeps_setHub {k v} (h : Keeps r s) : Keeps r (State.setHub s k v) := h.upd rfl

theorem keeps_updHub {k f} (h : Keeps r s) : Keeps r (State.updHub s k f) := keeps_setHub h

theorem keeps_setSite {k v} (h : Keeps r s) : Keeps r (State.setSite s k v) := h.pnet

theorem keeps_updSite {k f} (h : Keeps r s) : Keeps r (State.updSite s k f) := keeps_setSite h

theorem keeps_setLmap {k v} (h : Keeps r s) : Keeps r (State.setLmap s k v) := h.pnet

theorem keeps_setOe {k v} (h : Keeps r s) : Keeps r (State.setOe s k v) := h.oes

theorem keeps_updOe {k f} (h : Keeps r s) : Keeps r (State.updOe s k f) := keeps_setOe h

theorem keeps_setLink {k v} (h : Keeps r s) : Keeps r (State.setLink s k v) := h.links

theorem keeps_updLink {k f} (h : Keeps r s) : Keeps r (State.updLink s k f) := keeps_setLink h

theorem keeps_setLl {k v} (h : Keeps r s) : Keeps r (State.setLl s k v) := h.lls

theorem keeps_updLl {k f} (h : Keeps r s) : Keeps r (State.updLl s k f) := keeps_setLl h

theorem keeps_setPeer {k v} (h : Keeps r s) : Keeps r (State.setPeer s k v) := h.sys

theorem keeps_setFn {k v} (h : Keeps r s) : Keeps r (State.setFn s k v) := h.host

theorem keeps_updFn {k f} (h : Keeps r s) : Keeps r (State.updFn s k f) := keeps_setFn h

theorem keeps_setDma {k v} (h : Keeps r s) : Keeps r (State.setDma s k v) := h.host

theorem keeps_updDma {k f} (h : Keeps r s) : Keeps r (State.updDma s k f) := keeps_setDma h

theorem keeps_setFrec {k v} (h : Keeps r s) : Keeps r (State.setFrec s k v) := h.flt

theorem keeps_setLevel {k n} (h : Keeps r s) : Keeps r (State.setLevel s k n) := h.flt

theorem keeps_setPmu {k v} (h : Keeps r s) : Keeps r (State.setPmu s k v) := h.pmus

theorem keeps_updPmu {k f} (h : Keeps r s) : Keeps r (State.updPmu s k f) := keeps_setPmu h

theorem keeps_answer {r0} (h : Keeps r s) : Keeps r (State.answer s r0) := h.resp

theorem keeps_answerVal {v} (h : Keeps r s) : Keeps r (State.answerVal s v) := h.resp

theorem keeps_answerRead {r0} (h : Keeps r r0.1) : Keeps r (answerRead r0) := keeps_answerVal h

theorem keeps_useFree (h : Keeps r s) : Keeps r (State.useFree s) := h.free

theorem keeps_forAll {α : Type} {xs : List α} {f : State → α → State} (h : Keeps r s)
    (hf : ∀ t x, Keeps r t → Keeps r (f t x)) : Keeps r (s.forAll xs f) := .fold hf h

/-! ### Counters of a stall -/

theorem keeps_pmuStall {t ev k} (h : Keeps r s) : Keeps r (pmuStall s t ev k) := (pmuCount_moves ..).keeps rfl h

/-! ### Accesses through the BARs -/

theorem keeps_barAccess {f own off} {k : State → State} (h : Keeps r s) (hk : ∀ a0, Keeps r a0 → Keeps r (k a0)) :
    Keeps r (barAccess s f own off k) :=
  .ite (keeps_answer h) <|
    .ite (keeps_answer h) (.ite (keeps_answer h) (.ite ((denyAccess_moves ..).keeps rfl h) (hk _ h)))

theorem keeps_coreAccess {f own off} {k : State → State} (h : Keeps r s) (hk : ∀ a0, Keeps r a0 → Keeps r (k a0)) :
    Keeps r (coreAccess s f own off k) :=
  .ite (keeps_answer h) (.ite (keeps_answer h) (.ite ((denyAccess_moves ..).keeps rfl h) (hk _ h)))

theorem keeps_pfAccess {k : State → State} (h : Keeps r s) (hk : ∀ a0, Keeps r a0 → Keeps r (k a0)) :
    Keeps r (pfAccess s k) := keeps_barAccess h (fun _ h' => hk _ h')

theorem keeps_pfCore {k : State → State} (h : Keeps r s) (hk : ∀ a0, Keeps r a0 → Keeps r (k a0)) :
    Keeps r (pfCore s k) := keeps_coreAccess h (fun _ h' => hk _ h')

/-! ### The flash -/

theorem keeps_discoverFlash (h : Keeps r s) : Keeps r (discoverFlash s) := h.upd rfl

theorem keeps_storeLog {lines} (h : Keeps r s) : Keeps r (storeLog s lines) := (storeCopy_moves ..).keeps rfl h

/-! ### Memory -/

theorem keeps_putPoison {line b} (h : Keeps r s) : Keeps r (putPoison s line b) := h.upd rfl

theorem keeps_putInj {line m} (h : Keeps r s) : Keeps r (putInj s line m) := h.upd rfl

theorem keeps_addressFault {a} (h : Keeps r s) : Keeps r (addressFault s a) := .ite h ((report_moves ..).keeps rfl h)

theorem keeps_storeLine {a bs poison} (h : Keeps r s) : Keeps r (storeLine s a bs poison) := by
  unfold storeLine
  extract_lets k x0 m s1 s2
  have hs1 : Keeps r s1 :=
    (injUse_moves ..).keeps rfl (keeps_putInj (keeps_putPoison ((putBytes_moves ..).keeps rfl h)))
  have hs2 : Keeps r s2 := keeps_updHub hs1
  exact .ite ((countPoisoned_moves ..).keeps rfl (keeps_updHub hs2)) hs2

theorem keeps_writeLine {a bs poison errs} (h : Keeps r s) : Keeps r (writeLine s a bs poison errs) := by
  unfold writeLine
  refine .ite (keeps_addressFault h) ?_
  refine .ite h ?_
  refine .ite (keeps_storeLine ((pmuCount_moves ..).keeps rfl h)) ?_
  extract_lets +onlyGivenNames y0 off old
  have hy0 : Keeps r y0.st := (checkLine_moves ..).keeps rfl ((pmuCount_moves ..).keeps rfl h)
  refine .ite hy0 ?_
  extract_lets s1
  have hs1 : Keeps r s1 := keeps_storeLine hy0
  exact .ite ((report_moves ..).keeps rfl hs1) hs1

theorem keeps_writeSpan {a bs poison n} (h : Keeps r s) : Keeps r (writeSpan s a bs poison n) := by
  induction n generalizing s a bs with
  | zero => exact h
  | succ n ih => exact .ite h (ih (keeps_writeLine h))

theorem keeps_writeMem {a bs poison} (h : Keeps r s) : Keeps r (writeMem s a bs poison) := keeps_writeSpan h

theorem keeps_serveReq {q} (h : Keeps r s) : Keeps r (serveReq s q) := by
  cases q with
  | read a n errs =>
    exact .ite (keeps_answer ((readLine_moves ..).keeps rfl h)) (keeps_answer ((readMem_moves ..).keeps rfl h))
  | line a bs => exact keeps_writeLine h
  | write a bs poison errs who => exact keeps_answer (.ite (keeps_writeLine h) (keeps_writeMem h))

theorem keeps_memRequest {q} (h : Keeps r s) : Keeps r (memRequest s q) := .ite (h.upd rfl) (keeps_serveReq h)

theorem keeps_serveWaiting (h : Keeps r s) : Keeps r (serveWaiting s) :=
  .fold (fun _ _ h' => keeps_memRequest h') (h.upd rfl)

theorem runs_execMemCeWriteback {h0} : Runs s (execMemCeWriteback h0 s) := by
  have h := Keeps.refl s
  refine .next ?_
  split
  · exact .ite (keeps_storeLine h) h
  · exact h

theorem keeps_writeMhCtrl {h0 v} (h : Keeps r s) : Keeps r (writeMhCtrl s h0 v) := keeps_updHub h

theorem keeps_takeCe {h0} (h : Keeps r s) : Keeps r (takeCe s h0).1 := .pair (keeps_updHub h)

theorem keeps_takeUc {h0} (h : Keeps r s) : Keeps r (takeUc s h0).1 := .pair (keeps_updHub h)

/-! ### The manger -/

theorem keeps_mangerCheckBits {t off} (h : Keeps r s) : Keeps r (mangerCheckBits s t off) := by
  unfold mangerCheckBits
  extract_lets m
  exact (injUse_moves ..).keeps rfl h.mangerInj

theorem keeps_mangerCheckWords {t offs} (h : Keeps r s) : Keeps r (mangerCheckWords s t offs).1 := by
  unfold mangerCheckWords
  extract_lets ucs ces s1
  have hs1 : Keeps r s1 := .fold (fun _ _ h' => (reportInjected_moves ..).keeps rfl h') h
  exact .pair (.fold (fun _ _ h' => keeps_updStall ((reportInjected_moves ..).keeps rfl h')) hs1)

theorem keeps_mangerWipe {t} (h : Keeps r s) : Keeps r (mangerWipe s t) :=
  .upd ((manger_moves s _ (memWf_tabClear _ _ _)).keeps rfl h) rfl

theorem runs_execMangerWriteback {t} : Runs s (execMangerWriteback t s) := by
  have h := Keeps.refl s
  refine .next ?_
  split
  · exact keeps_mangerCheckBits (keeps_updStall h)
  · exact h

/-! ### What goes to other devices -/

theorem keeps_sendStatus {src chute st} (h : Keeps r s) : Keeps r (sendStatus s src chute st) :=
  (sendCtrl0_moves ..).keeps rfl h

theorem keeps_noteForward {src chute} (h : Keeps r s) : Keeps r (noteForward s src chute) := h.sys

theorem keeps_forwardOpen {l v payload src chute} (h : Keeps r s) : Keeps r (forwardOpen s l v payload src chute) :=
  keeps_updLl ((queueTx_moves ..).keeps rfl (keeps_noteForward h))

theorem keeps_forwardLine {l v payload src chute} (h : Keeps r s) : Keeps r (forwardLine s l v payload src chute) :=
  (queueTx_moves ..).keeps rfl h

theorem keeps_remoteEnd {l src chute v abort arg} (h : Keeps r s) :
    Keeps r (remoteEnd s l src chute v abort arg) := by
  unfold remoteEnd
  extract_lets op last
  exact (queueTx_moves ..).keeps rfl h

theorem keeps_setEpStat {src p} (h : Keeps r s) : Keeps r (setEpStat s src p) := h.epStat

/-! ### Chute words and reads -/

theorem keeps_refuseChute {c} (h : Keeps r s) : Keeps r (refuseChute s c) :=
  (bucketReport_moves ..).keeps rfl (keeps_updChute h)

theorem keeps_commitOpen {c v} (h : Keeps r s) : Keeps r (commitOpen s c v) := by
  unfold commitOpen
  extract_lets x
  exact .ite ((report_moves ..).keeps rfl ((chuteEvent_moves ..).keeps rfl (keeps_setChute h))) <|
    keeps_setChute ((chuteEvent_moves ..).keeps rfl h)

theorem keeps_storeWord {c w} (h : Keeps r s) : Keeps r (storeWord s c w).1 := by
  unfold storeWord
  extract_lets +onlyGivenNames x newLine
  refine .ite_fst ?_ ?_
  · extract_lets y
    exact .pair ((report_moves ..).keeps rfl ((chuteEvent_moves ..).keeps rfl (keeps_setChute h)))
  · refine .ite_fst (.pair h) ?_
    extract_lets y idx v s1 s2
    have hs1 : Keeps r s1 := keeps_setChute ((chuteEvent_moves ..).keeps rfl h)
    have hs2 : Keeps r s2 := .ite ((storeChuteLine_moves ..).keeps rfl hs1) hs1
    exact .pair (.ite (keeps_commitOpen hs2) hs2)

theorem keeps_queueFirst {c src} (h : Keeps r s) : Keeps r (queueFirst s c src) := keeps_updChute h

theorem keeps_leaveOrder {c src} (h : Keeps r s) : Keeps r (leaveOrder s c src) := keeps_updChute h

theorem keeps_pushWord {c src w} (h : Keeps r s) : Keeps r (pushWord s c src w).1 := by
  unfold pushWord
  extract_lets +onlyGivenNames x
  refine .ite_fst (.pair h) ?_
  refine .ite_fst (.pair (keeps_refuseChute (.ite (keeps_leaveOrder h) h))) ?_
  refine .ite_fst (.ite_fst (.pair (keeps_setChute h)) (.pair h)) ?_
  refine .ite_fst (.ite_fst (keeps_storeWord h) (.pair (keeps_setChute h))) ?_
  refine .ite_fst (.pair h) ?_
  extract_lets +onlyGivenNames y
  refine .ite_fst (.pair h) ?_
  extract_lets z
  exact keeps_storeWord (keeps_setChute (.ite ((chuteEvent_moves ..).keeps rfl h) h))

theorem keeps_pushAll {c src ws} (h : Keeps r s) : Keeps r (pushAll s c src ws).1 := by
  induction ws generalizing s with
  | nil => exact h
  | cons w ws ih =>
    exact .ite_fst (.pair (ih ((noteRemote_moves ..).keeps rfl (keeps_pushWord h)))) (keeps_pushWord h)

theorem keeps_pushLine {c src ws} (h : Keeps r s) : Keeps r (pushLine s c src ws).1 := by
  unfold pushLine
  extract_lets y0
  have hy0 : Keeps r y0.1 := keeps_pushAll h
  exact .pair ((marks_moves ..).keeps rfl hy0)

theorem keeps_pushMarked {c src w} (h : Keeps r s) : Keeps r (pushMarked s c src w).1 := keeps_pushLine h

theorem keeps_offerWord {c src w} (h : Keeps r s) : Keeps r (offerWord s c src w) := by
  unfold offerWord
  extract_lets +onlyGivenNames x
  refine .ite (keeps_setChute h) ?_
  refine .ite (keeps_setChute h) ?_
  extract_lets y0
  have hy0 : Keeps r y0.1 := keeps_pushMarked h
  exact .ite hy0 (.ite (keeps_queueFirst (keeps_setChute h)) (keeps_setChute h))

theorem keeps_offerWords {c src ws} (h : Keeps r s) : Keeps r (offerWords s c src ws) :=
  .fold (fun _ _ h' => keeps_offerWord h') h

theorem keeps_retryWaiting {c} (h : Keeps r s) : Keeps r (retryWaiting s c) := by
  unfold retryWaiting
  extract_lets x s1
  have hs1 : Keeps r s1 := keeps_setChute h
  exact .fold (fun _ _ h' => keeps_offerWord h') hs1

theorem keeps_chuteRead {c} (h : Keeps r s) : Keeps r (chuteRead s c).st := by
  unfold chuteRead
  extract_lets x idx tag next _ _
  have hnext : Keeps r next := (sliceCheck_moves ..).keeps rfl (keeps_setChute ((chuteEvent_moves ..).keeps rfl h))
  clear_value next
  exact .ite_chuteRead (.chuteRead ((chuteEvent_moves ..).keeps rfl h)) <|
    .ite_chuteRead (.chuteRead ((readLine_moves ..).keeps rfl hnext))
      (.chuteRead ((mangerRead_moves ..).keeps rfl hnext))

/-! ### Operands of a token -/

theorem keeps_fetchAt {t p n} (h : Keeps r s) : Keeps r (fetchAt s t p n).st := by
  cases p with
  | manger off => exact .fetch ((mangerRead_moves ..).keeps rfl h)
  | mem a => exact .fetch ((readLine_moves ..).keeps rfl (keeps_pmuStall h))

theorem keeps_fetchAll {t n ps} (h : Keeps r s) : Keeps r (fetchAll s t n ps).1 := by
  induction ps generalizing s with
  | nil => exact h
  | cons p ps ih => exact .pair (ih (keeps_fetchAt h))

theorem keeps_gatherGen {t h0 r0 g a pass c n} (h : Keeps r s) : Keeps r (gatherGen s t h0 r0 g a pass c n).st := by
  unfold gatherGen
  extract_lets +onlyGivenNames nl bb offs passOf data scales
  split
  · exact .got h
  · extract_lets +onlyGivenNames places splaces
    split
    · exact .got h
    · extract_lets f fs str pois blk
      have hf : Keeps r f.1 := keeps_fetchAll h
      have hfs : Keeps r fs.1 := keeps_fetchAll hf
      exact .got hfs

theorem keeps_gather {t h0 r0 src g a pass c n} (h : Keeps r s) : Keeps r (gather s t h0 r0 src g a pass c n).st := by
  unfold gather
  split
  · split
    · exact .got h
    · exact .got h
  · exact keeps_gatherGen h

/-! ### Stalls -/

theorem keeps_setSt {t st} (h : Keeps r s) : Keeps r (setSt s t st) := keeps_updStall h

theorem keeps_sendOut {t n ol first drove} (h : Keeps r s) : Keeps r (sendOut s t n ol first drove) := by
  unfold sendOut
  extract_lets +onlyGivenNames line s1
  have hs1 : Keeps r s1 := keeps_updStall h
  split
  · exact hs1
  · exact hs1.strq
  · exact hs1.strq
  · extract_lets src vc
    exact .ite hs1 (.ite (keeps_offerWords hs1) ((sendRemote_moves ..).keeps rfl hs1))

theorem keeps_autoRetire {d} (h : Keeps r s) : Keeps r (autoRetire s d) := .ite ((queueRetire_moves ..).keeps rfl h) h

theorem keeps_stallFault {t failed} (h : Keeps r s) : Keeps r (stallFault s t failed) := by
  unfold stallFault
  extract_lets s1 y0 s2
  have hs1 : Keeps r s1 := keeps_updStall h
  have hy0 : Keeps r y0.1 := (rewindPorts_moves ..).keeps rfl hs1
  have hs2 : Keeps r s2 := by
    simp only [s2]
    split
    · exact keeps_updPen hy0
    · exact hy0
  exact .ite (keeps_autoRetire hs2) hs2

theorem keeps_dropToken {t} (h : Keeps r s) : Keeps r (dropToken s t) := by
  unfold dropToken
  split
  · exact keeps_updPen h
  · exact h

theorem keeps_grantFault {t addr} (h : Keeps r s) : Keeps r (grantFault s t addr) :=
  keeps_stallFault ((report_moves ..).keeps rfl h)

theorem keeps_poisonConsumed {t} (h : Keeps r s) : Keeps r (poisonConsumed s t) := by
  unfold poisonConsumed
  extract_lets s1
  have hs1 : Keeps r s1 := (report_moves ..).keeps rfl (keeps_updStall h)
  exact .ite (keeps_stallFault hs1) hs1

theorem keeps_mangerCe {t off} (h : Keeps r s) : Keeps r (mangerCe s t off) :=
  keeps_updStall ((report_moves ..).keeps rfl h)

theorem keeps_stallUc {t cause addr met} (h : Keeps r s) : Keeps r (stallUc s t cause addr met) :=
  keeps_stallFault (.ite ((reportInjected_moves ..).keeps rfl h) ((report_moves ..).keeps rfl h))

theorem keeps_stallUcAt {t chk cause} (h : Keeps r s) : Keeps r (stallUcAt s t chk cause) :=
  keeps_stallUc ((injUse_moves ..).keeps rfl h)

theorem keeps_withChecks {t k} {stop : State → State} {go : State → State} (h : Keeps r s)
    (hstop : ∀ a0, Keeps r a0 → Keeps r (stop a0)) (hgo : ∀ a0, Keeps r a0 → Keeps r (go a0)) :
    Keeps r (withChecks s t k stop go) := by
  unfold withChecks
  extract_lets met
  split
  · exact hgo _ h
  · exact .ite (hstop _ (keeps_stallUc h)) (.ite (hgo _ (keeps_mangerCe h)) (keeps_mangerCe (hgo _ h)))
  · exact hstop _ (keeps_stallUc h)
  · exact hstop _ (keeps_stallUcAt h)
  · exact hstop _ (keeps_stallUcAt h)
  · exact hstop _ (keeps_stallUc h)

theorem keeps_stallMeets {t cause} (h : Keeps r s) : Keeps r (stallMeets s t cause) :=
  keeps_stallFault ((reportInjected_moves ..).keeps rfl h)

theorem keeps_stallInjected {t mac} (h : Keeps r s) : Keeps r (stallInjected s t mac).1 := by
  unfold stallInjected
  refine .ite_fst (.pair (keeps_stallMeets h)) ?_
  refine .ite_fst (.pair h) ?_
  extract_lets +onlyGivenNames s1
  have hs1 : Keeps r s1 := (injUse_moves ..).keeps rfl h
  refine .ite_fst (.pair (keeps_stallMeets hs1)) ?_
  extract_lets s2
  have hs2 : Keeps r s2 := (injUse_moves ..).keeps rfl hs1
  exact .ite_fst (.pair (keeps_stallMeets hs2)) (.pair hs2)

theorem keeps_putSample {t vec x at_} (h : Keeps r s) : Keeps r (putSample s t vec x at_) := by
  unfold putSample
  extract_lets pen
  exact keeps_updPmu h

theorem keeps_putSamples {t vec ps} (h : Keeps r s) : Keeps r (putSamples s t vec ps) :=
  .fold (fun _ _ h' => keeps_putSample h') h

theorem keeps_retireToken {t} (h : Keeps r s) : Keeps r (retireToken s t).1 := by
  unfold retireToken
  extract_lets y0 s1
  have hs1 : Keeps r s1 := keeps_updStall (keeps_setPmu h)
  exact .pair (keeps_pmuStall hs1)

/-! ### Chute commands -/

theorem keeps_pushBy {c r0 w} (h : Keeps r s) : Keeps r (pushBy s c r0 w).1 := by
  unfold pushBy
  split
  · extract_lets x
    have hx : Keeps r x.1 := keeps_pushMarked h
    exact .pair hx
  · exact .pair (keeps_offerWord h)

theorem keeps_changeEntry {c f} (h : Keeps r s) : Keeps r (changeEntry s c f) :=
  (sliceCheck_moves ..).keeps rfl (keeps_updChute h)

theorem keeps_flushCounted {c} (h : Keeps r s) : Keeps r (flushCounted s c) :=
  (changeChute_moves ..).keeps rfl (.ite ((chuteEvent_moves ..).keeps rfl h) h)

theorem keeps_chuteDo {c r0 op w} (h : Keeps r s) : Keeps r (chuteDo s c r0 op w).1 := by
  unfold chuteDo
  split
  · exact keeps_pushBy h
  · exact .pair ((changeChute_moves ..).keeps rfl ((chuteEvent_moves ..).keeps rfl h))
  · exact .pair ((changeChute_moves ..).keeps rfl h)
  · exact .pair ((changeChute_moves ..).keeps rfl h)
  · exact .pair ((changeChute_moves ..).keeps rfl h)
  · exact .ite_fst (.pair h) (.pair (keeps_flushCounted h))
  · exact .pair (keeps_changeEntry h)
  · exact .pair (keeps_changeEntry h)
  · exact .pair (keeps_changeEntry h)

theorem keeps_chuteGo {c r0 op w} (h : Keeps r s) : Keeps r (chuteGo s c r0 op w).1 :=
  .ite_fst (keeps_chuteDo h) (.pair (keeps_refuseChute h))

theorem keeps_ringBell {c f op w} (h : Keeps r s) : Keeps r (ringBell s c f op w) := by
  unfold ringBell
  extract_lets +onlyGivenNames x
  have hx : Keeps r x.1 := .ite_fst (keeps_chuteGo h) (.pair h)
  exact keeps_setDoorbell hx

theorem keeps_doorbellGo {c f op w} (h : Keeps r s) : Keeps r (doorbellGo s c f op w) :=
  .ite (h.upd rfl) (keeps_ringBell h)

theorem keeps_ringHeld (h : Keeps r s) : Keeps r (ringHeld s) := .fold (fun _ _ h' => keeps_doorbellGo h') (h.upd rfl)

theorem keeps_endWaits (h : Keeps r s) : Keeps r (endWaits s) := keeps_ringHeld (keeps_serveWaiting h)

theorem keeps_stackLost {h0} (h : Keeps r s) : Keeps r (stackLost s h0) :=
  keeps_endWaits ((loseStack_moves ..).keeps rfl h)

theorem runs_execStackLost {h0 why} : Runs s (execStackLost h0 why s) := by
  have h := Keeps.refl s
  refine .next ?_
  split
  · exact keeps_stackLost h
  · exact keeps_stackLost h
  · exact .ite (keeps_stackLost h) h
  · exact .ite (keeps_stackLost h) h

theorem keeps_chuteCmd {c r0 op w} (h : Keeps r s) : Keeps r (chuteCmd s c r0 op w) := by
  unfold chuteCmd
  split
  · exact keeps_barAccess h (fun _ h' => keeps_answer (keeps_doorbellGo (.ite (keeps_setDoorbell h') h')))
  · exact .ite (keeps_chuteGo h) h

theorem keeps_takeAbortLines {d} (h : Keeps r s) : Keeps r (takeAbortLines s d).1 := .pair (keeps_setChuteDie h)

/-! ### Partial sums -/

theorem keeps_enterElems {t e} (h : Keeps r s) : Keeps r (enterElems s t e).1 := by
  unfold enterElems
  extract_lets +onlyGivenNames x
  refine .ite_fst (.pair (keeps_setStall h)) ?_
  extract_lets +onlyGivenNames fresh _ s1
  have hs1 : Keeps r s1 := keeps_setStall h
  refine .ite_fst (.pair (keeps_stallFault ((report_moves ..).keeps rfl hs1))) ?_
  extract_lets s2
  have hs2 : Keeps r s2 := .ite (keeps_poisonConsumed hs1) hs1
  exact .pair hs2

theorem keeps_enterEarly {t} (h : Keeps r s) : Keeps r (enterEarly s t).1 :=
  .fold_fst (fun _ _ h' => .ite_fst (keeps_enterElems h') h') (.pair (keeps_updStall h))

theorem keeps_takeGathered {t p l} (h : Keeps r s) : Keeps r (takeGathered s t p l) := by
  unfold takeGathered
  extract_lets x q off s1 s2
  have hs1 : Keeps r s1 := keeps_setStall h
  have hs2 : Keeps r s2 := .ite (keeps_useFree (keeps_updStall hs1)) hs1
  exact .ite (keeps_poisonConsumed hs2) hs2

theorem keeps_takeParts {t p n} (h : Keeps r s) : Keeps r (takeParts s t p n).1 := by
  induction n generalizing s with
  | zero => exact h
  | succ n ih =>
    rw [takeParts]
    extract_lets +onlyGivenNames x
    split
    · exact h
    · exact ih (keeps_setStall h)
    · exact ih (keeps_setStall h)
    · extract_lets s1
      have hs1 : Keeps r s1 := keeps_takeGathered h
      exact .ite_fst hs1 (ih hs1)
    · extract_lets m
      have hm : Keeps r m.1 := keeps_enterElems (keeps_setStall h)
      exact .ite_fst (ih hm) hm

theorem keeps_mergeParts {t} (h : Keeps r s) : Keeps r (mergeParts s t).1 :=
  .fold_fst (fun _ _ h' => .ite_fst (keeps_takeParts h') h') (keeps_enterEarly h)

/-! ### The MAC -/

theorem keeps_tileCloses {t tile} (h : Keeps r s) : Keeps r (tileCloses s t tile) :=
  .ite (keeps_putSamples h) (keeps_updStall h)

theorem keeps_closeTile {t parts tile} (h : Keeps r s) : Keeps r (closeTile s t parts tile) :=
  .ite (keeps_tileCloses h) (keeps_updStall h)

theorem keeps_joinDone {t} (h : Keeps r s) : Keeps r (joinDone s t) := by
  unfold joinDone
  split
  · exact h
  · refine .ite h ?_
    extract_lets y0
    exact keeps_tileCloses (keeps_setStall h)

theorem keeps_settleParts {t} (h : Keeps r s) : Keeps r (settleParts s t).1 := by
  unfold settleParts
  extract_lets +onlyGivenNames x
  refine .ite_fst (.pair h) ?_
  extract_lets m
  have hm : Keeps r m.1 := keeps_mergeParts h
  exact .ite_fst (.pair (keeps_joinDone hm)) hm

theorem keeps_macAdvance {t rowN colN sample parts share} (h : Keeps r s) :
    Keeps r (macAdvance s t rowN colN sample parts share) := by
  unfold macAdvance
  extract_lets +onlyGivenNames x y0 samples y
  refine .ite ?_ (keeps_setStall h)
  extract_lets tile z s1
  have hs1 : Keeps r s1 := keeps_setStall h
  exact keeps_settleParts (keeps_closeTile hs1)

theorem keeps_macWith {t a b waits} (h : Keeps r b.st) : Keeps r (macWith s t a b waits) := by
  unfold macWith
  extract_lets +onlyGivenNames x0 y0 sh first rowN colN w parts share pois fresh win s1 s2 s3
  have hs1 : Keeps r s1 := keeps_updStall h
  have hs2 : Keeps r s2 := keeps_pmuStall hs1
  have hs3 : Keeps r s3 := .ite (keeps_poisonConsumed hs2) hs2
  refine .ite (keeps_dropToken hs3) ?_
  extract_lets num q s4 sample
  have hq : Keeps r q.1 := keeps_retireToken hs3
  exact keeps_macAdvance (keeps_pmuStall hq)

theorem keeps_macGather {t waits} (h : Keeps r s) : Keeps r (macGather s t waits) := by
  unfold macGather
  extract_lets +onlyGivenNames x y0 x0 sh a sa b
  have ha : Keeps r a.st := keeps_gather h
  have hsa : Keeps r sa := keeps_updStall ha
  have hb : Keeps r b.st := keeps_gather hsa
  split
  · exact keeps_setSt h
  · exact keeps_grantFault (keeps_dropToken h)
  · exact keeps_stallFault (keeps_dropToken ha)
  · exact keeps_setSt h
  · exact keeps_grantFault (keeps_dropToken hsa)
  · exact keeps_stallFault (keeps_dropToken hb)
  · exact .ite (keeps_macWith hb) (keeps_dropToken (keeps_stallInjected hb))

theorem keeps_macParts {t waits} (h : Keeps r s) : Keeps r (macParts s t waits) := by
  unfold macParts
  extract_lets +onlyGivenNames m
  have hm : Keeps r m.1 := keeps_mergeParts h
  refine .ite hm ?_
  extract_lets s1
  have hs1 : Keeps r s1 := keeps_joinDone hm
  exact .ite (keeps_setSt hs1) (.ite (keeps_setSt hs1) (keeps_macGather hs1))

theorem keeps_macToken {t waits} (h : Keeps r s) : Keeps r (macToken s t waits) := by
  unfold macToken
  extract_lets +onlyGivenNames i
  have hi : Keeps r i.1 := keeps_stallInjected h
  refine .ite (keeps_dropToken hi) ?_
  extract_lets +onlyGivenNames j
  have hj : Keeps r j.1 := keeps_settleParts hi
  refine .ite hj ?_
  extract_lets s1
  have hs1 : Keeps r s1 := keeps_updStall hj
  exact .ite (keeps_setSt hs1) (keeps_macParts hs1)

theorem runs_execMacToken {t chk waits} : Runs s (execMacToken t chk waits s) := .next <|
  have h := Keeps.refl s
  .ite h (.ite (keeps_setSt h) (keeps_withChecks h (fun _ h' => keeps_dropToken h') (fun _ h' => keeps_macToken h')))

/-! ### The VEC -/

theorem keeps_mrdWaits {s0 t} (h : Keeps r s) : Keeps r (mrdWaits s0 s t) :=
  .ite ((pmuCount_moves ..).keeps rfl (h.upd rfl)) h

theorem keeps_vecWith {t ls mrd uc} (h : Keeps r s) : Keeps r (vecWith s t ls mrd uc) := by
  unfold vecWith
  extract_lets +onlyGivenNames x y0
  refine .ite (keeps_stallFault (keeps_dropToken h)) ?_
  extract_lets lines first pois tok s1 s2
  have hs1 : Keeps r s1 := keeps_updStall h
  have hs2 : Keeps r s2 := .ite (keeps_mrdWaits hs1) hs1
  exact .ite (keeps_poisonConsumed hs2) hs2

theorem keeps_vecGather {t} (h : Keeps r s) : Keeps r (vecGather s t) := by
  unfold vecGather
  extract_lets +onlyGivenNames x y0 ins
  refine .ite (keeps_setSt h) ?_
  extract_lets +onlyGivenNames ls
  refine .ite (keeps_vecWith h) ?_
  extract_lets +onlyGivenNames ps
  split
  · exact keeps_grantFault (keeps_dropToken h)
  · extract_lets +onlyGivenNames places
    refine .ite (keeps_setSt h) ?_
    extract_lets f
    have hf : Keeps r f.1 := keeps_fetchAll h
    exact keeps_vecWith hf

theorem keeps_vecToken {t} (h : Keeps r s) : Keeps r (vecToken s t) := by
  unfold vecToken
  extract_lets +onlyGivenNames i
  have hi : Keeps r i.1 := keeps_stallInjected h
  refine .ite (keeps_dropToken hi) ?_
  extract_lets s1
  have hs1 : Keeps r s1 := keeps_updStall hi
  exact .ite (keeps_setSt hs1) (keeps_vecGather hs1)

theorem keeps_storeAt {t p l} (h : Keeps r s) : Keeps r (storeAt s t p l) := by
  unfold storeAt
  split
  · exact (mangerWrite_moves ..).keeps rfl h
  · exact keeps_writeLine h

theorem keeps_vecToMemory {t ps v m} (h : Keeps r s) : Keeps r (vecToMemory s t ps v m) := by
  unfold vecToMemory
  extract_lets data ls s1
  have hs1 : Keeps r s1 := .fold (fun _ _ h' => keeps_storeAt h') h
  exact keeps_updStall hs1

theorem keeps_vecRetire {t k} (h : Keeps r s) : Keeps r (vecRetire s t k) := by
  unfold vecRetire
  extract_lets +onlyGivenNames num q s1
  have hq : Keeps r q.1 := keeps_retireToken h
  have hs1 : Keeps r s1 := keeps_updStall hq
  refine .ite hs1 ?_
  extract_lets u p
  have hu : Keeps r u.1 := (sampleUop_moves ..).keeps rfl hs1
  split
  · exact keeps_updStall hu
  · exact keeps_putSample hu
  · exact keeps_putSample hu

theorem keeps_uopDone {t} (h : Keeps r s) : Keeps r (uopDone s t) := by
  unfold uopDone
  extract_lets s1
  have hs1 : Keeps r s1 := keeps_pmuStall h
  split
  · exact hs1
  · exact .ite (keeps_updStall hs1) (keeps_vecRetire (keeps_setSt hs1))

theorem keeps_uopWrite {t k u v m} (h : Keeps r s) : Keeps r (uopWrite s t k u v m) := by
  unfold uopWrite
  extract_lets +onlyGivenNames d
  refine .ite (keeps_uopDone (keeps_updStall h)) ?_
  refine .ite (keeps_uopDone (keeps_updStall h)) ?_
  refine .ite ?_ (keeps_uopDone h)
  extract_lets +onlyGivenNames ps
  split
  · extract_lets y0
    exact keeps_grantFault h
  · exact keeps_uopDone (keeps_vecToMemory h)

theorem keeps_holdOut {t} (h : Keeps r s) : Keeps r (holdOut s t) := keeps_updStall h

theorem keeps_uopIssue {t opc} {f : State → UopIn → State × Option (Vec × BitVec 64)} (h : Keeps r s)
    (hf : ∀ a0 a1, Keeps r a0 → Keeps r (f a0 a1).1) : Keeps r (uopIssue s t opc f) := by
  unfold uopIssue
  extract_lets x
  split
  · exact h
  · extract_lets +onlyGivenNames u
    refine .ite h ?_
    refine .ite (keeps_holdOut h) ?_
    extract_lets a b c y0
    have hy0 : Keeps r y0.1 := hf _ _ h
    split
    · exact keeps_uopDone hy0
    · exact keeps_uopWrite hy0

theorem keeps_uopLanes {t opc f} (h : Keeps r s) : Keeps r (uopLanes s t opc f) :=
  keeps_uopIssue h (fun _ _ h' => .pair h')

theorem keeps_uopSpread {t opc f pois} (h : Keeps r s) : Keeps r (uopSpread s t opc f pois) :=
  keeps_uopIssue h (fun _ _ h' => .pair h')

/-! ### Lines, fences and swaps of a stall -/

theorem keeps_portAccept {t p l} (h : Keeps r s) : Keeps r (portAccept s t p l) :=
  .ite (keeps_pmuStall h) (keeps_updStall h)

theorem runs_execInputLine {t port} : Runs s (execInputLine t port s) := by
  have h := Keeps.refl s
  refine .next ?_
  refine .ite h ?_
  split
  · exact keeps_settleParts (keeps_portAccept h.strq)
  · exact h

theorem runs_execConsumerRead {c chk} : Runs s (execConsumerRead c chk s) := by
  have h := Keeps.refl s
  refine .next ?_
  split
  · refine .ite h ?_
    extract_lets x here s0 y0
    have hs0 : Keeps s s0 := .ite (keeps_setChute h) h
    have hy0 : Keeps s y0.st := keeps_chuteRead hs0
    exact keeps_withChecks hy0 (fun _ h' => h') fun _ h' =>
      .ite (keeps_stallFault h') <|
        .ite (.ite ((changeChute_moves ..).keeps rfl h') h') <|
          keeps_settleParts (keeps_portAccept (.ite ((changeChute_moves ..).keeps rfl h') h'))
  · exact h

theorem runs_execAnchorLine {t} : Runs s (execAnchorLine t s) := by
  have h := Keeps.refl s
  refine .next ?_
  split
  · extract_lets +onlyGivenNames x
    refine .ite h ?_
    extract_lets line s1
    have hs1 : Keeps s s1 := keeps_portAccept h.anchors
    exact .ite (keeps_updStall hs1) hs1
  · exact h

theorem keeps_sampleSent {t} (h : Keeps r s) : Keeps r (sampleSent s t) := by
  unfold sampleSent
  extract_lets x
  refine .ite (keeps_updStall (keeps_putSamples h)) ?_
  split
  · exact .ite (keeps_updStall (keeps_putSamples h)) h
  · exact h

theorem keeps_sendBarrier {t n l} (h : Keeps r s) : Keeps r (sendBarrier s t n l) := by
  unfold sendBarrier
  split
  · exact .fold (fun _ _ h' => (sendRemote_moves ..).keeps rfl h') h
  · exact h

theorem keeps_sendHeader {t n phase run elem} (h : Keeps r s) : Keeps r (sendHeader s t n phase run elem) := by
  unfold sendHeader
  extract_lets l
  exact .ite (keeps_updStall (keeps_sendBarrier h)) (keeps_sendOut h)

theorem keeps_sendStaged {t n l rest} (h : Keeps r s) : Keeps r (sendStaged s t n l rest) := by
  unfold sendStaged
  extract_lets first s1
  have hs1 : Keeps r s1 := keeps_updStall (keeps_sampleSent h)
  exact keeps_updStall (keeps_sendOut hs1)

theorem keeps_sendTile {t n g tile} (h : Keeps r s) : Keeps r (sendTile s t n g tile) := by
  unfold sendTile
  extract_lets +onlyGivenNames x y0 ports total
  refine .ite h ?_
  split
  · exact keeps_sendHeader h
  · extract_lets o l lastHere final toks s1 _ s2
    have hs1 : Keeps r s1 := .ite (keeps_putSamples h) h
    have hs2 : Keeps r s2 := keeps_sendOut (keeps_updStall hs1)
    exact keeps_updStall hs2

theorem runs_execOutputLineSend {t port} : Runs s (execOutputLineSend t port s) := by
  have h := Keeps.refl s
  refine .next ?_
  extract_lets +onlyGivenNames x
  refine .ite h ?_
  split
  · split
    · extract_lets o
      exact keeps_sendHeader h
    · exact keeps_sendStaged h
  · split
    · split
      · exact .ite h (keeps_sendTile h)
      · exact h
    · exact h

theorem keeps_fenceOpenTile {t} (h : Keeps r s) : Keeps r (fenceOpenTile s t) := by
  unfold fenceOpenTile
  extract_lets mx
  exact keeps_stallFault ((report_moves ..).keeps rfl (keeps_updStall h))

theorem runs_execFenceArrival {t chk} : Runs s (execFenceArrival t chk s) := by
  have h := Keeps.refl s
  refine .next ?_
  extract_lets x
  exact .ite h (keeps_withChecks h (fun _ h' => h') (fun _ h' => .ite (keeps_fenceOpenTile h') (keeps_updStall h')))

theorem keeps_commitPort {t n} (h : Keeps r s) : Keeps r (commitPort s t n) := by
  unfold commitPort
  extract_lets src s1
  have hs1 : Keeps r s1 := keeps_updStall h
  refine .ite hs1 ?_
  split
  · refine .ite ?_ ?_
    · extract_lets k
      exact .ite ((marks_moves ..).keeps rfl (keeps_commitOpen hs1)) hs1
    · split
      · extract_lets pois
        exact keeps_updLl (keeps_remoteEnd hs1)
      · exact hs1
  · exact hs1

theorem keeps_sendFence {t n} (h : Keeps r s) : Keeps r (sendFence s t n) := by
  unfold sendFence
  split
  · extract_lets s1
    have hs1 : Keeps r s1 := keeps_updStall h
    exact hs1.strq
  · exact h

theorem runs_execSwapDrainDone {t} : Runs s (execSwapDrainDone t s) := by
  have h := Keeps.refl s
  refine .next ?_
  extract_lets +onlyGivenNames x
  refine .ite h ?_
  refine .ite (keeps_updStall h) ?_
  refine .ite h ?_
  extract_lets s1 s2
  have hs1 : Keeps s s1 := .fold (fun _ _ h' => keeps_commitPort h') h
  have hs2 : Keeps s s2 := .fold (fun _ _ h' => keeps_sendFence h') hs1
  exact keeps_updStall hs2

theorem keeps_swapRecords {t} (h : Keeps r s) : Keeps r (swapRecords s t) := by
  unfold swapRecords
  extract_lets x0 s1 s2
  have hs1 : Keeps r s1 := keeps_updStall h
  have hs2 : Keeps r s2 := (clearSinks_moves ..).keeps rfl ((dropConsumer_moves ..).keeps rfl (keeps_pmuStall hs1))
  split
  · exact (penSwapDone_moves ..).keeps rfl ((joinConsumer_moves ..).keeps rfl hs2)
  · exact hs2

theorem runs_execSwapExchange {t chk damaged} : Runs s (execSwapExchange t chk damaged s) := by
  have h := Keeps.refl s
  refine .next ?_
  extract_lets x
  exact .ite h <|
    keeps_withChecks h (fun _ h' => h') fun _ h' =>
      .ite (keeps_stallFault ((report_moves ..).keeps rfl h')) (keeps_swapRecords h')

theorem keeps_scrubInjected {t} (h : Keeps r s) : Keeps r (scrubInjected s t) := by
  unfold scrubInjected
  extract_lets y0
  have hy0 : Keeps r y0.1 := keeps_mangerCheckWords h
  exact .ite (keeps_stallFault hy0) hy0

theorem keeps_clearNum {t v} (h : Keeps r s) : Keeps r (clearNum s t v) := .ite (keeps_updStall h) h

theorem keeps_takeWaits {t} (h : Keeps r s) : Keeps r (takeWaits s t).1 :=
  .ite_fst (.pair (keeps_updStall h)) (.pair h)

theorem keeps_readToken {t} (h : Keeps r s) : Keeps r (readToken s t).1 :=
  .ite_fst (.pair (keeps_updStall h)) (.pair h)

/-! ### Pens and loads -/

theorem keeps_setPenSt {p st} (h : Keeps r s) : Keeps r (setPenSt s p st) := keeps_updPen h

theorem keeps_setResult {p code} (h : Keeps r s) : Keeps r (setResult s p code) := keeps_updPen h

theorem keeps_nextLoad (h : Keeps r s) : Keeps r (nextLoad s) := (nextLoads_moves ..).keeps rfl h

theorem keeps_writeRecords {p c place bank} (h : Keeps r s) : Keeps r (writeRecords s p c place bank) := by
  unfold writeRecords
  extract_lets x0 s1 s2
  have hs1 : Keeps r s1 := keeps_updPen h
  have hs2 : Keeps r s2 := keeps_forAll hs1 (fun _ _ h' => (writeShadow_moves ..).keeps rfl h')
  exact keeps_forAll hs2 (fun _ _ h' => (writeShadow_moves ..).keeps rfl h')

theorem keeps_commitLoad {p isShadow c place bank} (h : Keeps r s) :
    Keeps r (commitLoad s p isShadow c place bank) := by
  unfold commitLoad
  extract_lets +onlyGivenNames v s1 ok
  have hs1 : Keeps r s1 :=
    (publishPlaces_moves ..).keeps rfl <|
      .fold (fun _ _ h' => (initBinding_moves ..).keeps rfl h') (keeps_writeRecords h)
  refine .ite ?_ ?_
  · extract_lets s2
    have hs2 : Keeps r s2 := keeps_updPen hs1
    exact (penEvent_moves ..).keeps rfl hs2
  · extract_lets s2 s3 s4 s5
    have hs2 : Keeps r s2 := keeps_updPen hs1
    have hs3 : Keeps r s3 := keeps_forAll hs2 (fun _ _ h' => (exchangeSlots_moves ..).keeps rfl h')
    have hs4 : Keeps r s4 := keeps_forAll hs3 (fun _ _ h' => (joinConsumer_moves ..).keeps rfl h')
    have hs5 : Keeps r s5 := (joinEngine_moves ..).keeps rfl hs4.ready
    exact (penEvent_moves ..).keeps rfl hs5

theorem runs_execLoadStreamDone : Runs s (execLoadStreamDone s) := by
  have h := Keeps.refl s
  refine .next ?_
  split
  · exact keeps_nextLoad h
  · extract_lets +onlyGivenNames p x held
    split
    · exact h
    · extract_lets addr n c bad stop m
      have hm : Keeps s m.1 := (streamLines_moves ..).keeps rfl h.loadNow
      refine keeps_nextLoad ?_
      split
      · exact (endLoad_moves ..).keeps rfl hm
      · exact (endLoad_moves ..).keeps rfl hm
      · exact .ite (keeps_commitLoad hm) ((endLoad_moves ..).keeps rfl hm)

theorem keeps_penStopped {p aborted} (h : Keeps r s) : Keeps r (penStopped s p aborted) :=
  (penEvent_moves ..).keeps rfl (keeps_setPenSt ((penCleanup_moves ..).keeps rfl h))

theorem runs_execPenFault {p} : Runs s (execPenFault p s) := by
  have h := Keeps.refl s
  refine .next ?_
  extract_lets x bad
  refine .ite h ?_
  split
  · exact h
  · exact h
  · exact (abandonLoads_moves ..).keeps rfl (keeps_forAll h (fun _ _ h' => keeps_updStall h'))
  · exact (penFaulted_moves ..).keeps rfl ((abandonLoads_moves ..).keeps rfl h)

theorem keeps_penLoad {p} (h : Keeps r s) : Keeps r (penLoad s p) := by
  unfold penLoad
  extract_lets +onlyGivenNames x
  refine .ite ?_ (keeps_setResult h)
  extract_lets s1
  have hs1 : Keeps r s1 := keeps_setPen h
  exact keeps_nextLoad hs1.loadQ

theorem keeps_penShadow {p} (h : Keeps r s) : Keeps r (penShadow s p) := by
  unfold penShadow
  extract_lets +onlyGivenNames x
  refine .ite ?_ (keeps_setResult h)
  extract_lets s1
  have hs1 : Keeps r s1 := keeps_setPen h
  exact keeps_nextLoad hs1.loadQ

theorem keeps_penStart {p} (h : Keeps r s) : Keeps r (penStart s p) := by
  unfold penStart
  extract_lets +onlyGivenNames x
  refine .ite ?_ (keeps_setResult h)
  extract_lets s1 s2
  have hs1 : Keeps r s1 := keeps_setPen h
  have hs2 : Keeps r s2 := hs1.ready
  exact keeps_forAll hs2 (fun _ _ h' => (startStall_moves ..).keeps rfl h')

theorem keeps_penStop {p} (h : Keeps r s) : Keeps r (penStop s p) := by
  unfold penStop
  extract_lets +onlyGivenNames x
  split
  · extract_lets s1
    have hs1 : Keeps r s1 := keeps_setPenSt (keeps_setResult h)
    exact .ite ((abandonLoads_moves ..).keeps rfl hs1) hs1
  · exact (abandonLoads_moves ..).keeps rfl h
  · exact (penEvent_moves ..).keeps rfl (keeps_setPenSt (keeps_setResult h))
  · exact keeps_setResult h

theorem keeps_penSwap {p} (h : Keeps r s) : Keeps r (penSwap s p) := by
  unfold penSwap
  extract_lets +onlyGivenNames x
  refine .ite ?_ (keeps_setResult h)
  extract_lets s1
  have hs1 : Keeps r s1 := keeps_setPen h
  exact keeps_forAll hs1 (fun _ _ h' => (injectFence_moves ..).keeps rfl h')

theorem keeps_penReleaseCmd {p} (h : Keeps r s) : Keeps r (penReleaseCmd s p) := by
  unfold penReleaseCmd
  extract_lets x
  exact .ite ((penEvent_moves ..).keeps rfl ((giveBack_moves ..).keeps rfl (keeps_setResult h))) (keeps_setResult h)

theorem keeps_penCommand {cmd p} (h : Keeps r s) : Keeps r (penCommand cmd p s) := by
  unfold penCommand
  refine .ite (keeps_setResult h) ?_
  split
  · exact keeps_penLoad h
  · exact keeps_penShadow h
  · exact keeps_penStart h
  · exact keeps_penStop h
  · exact keeps_penSwap h
  · exact keeps_penReleaseCmd h
  · exact keeps_setResult h

theorem keeps_penCmd {cmd f p} (h : Keeps r s) : Keeps r (penCmd cmd f p s) := by
  unfold penCmd
  extract_lets own
  exact keeps_barAccess h (fun _ h' => keeps_answer (.ite (keeps_penCommand h') h'))

theorem keeps_abandonTest (h : Keeps r s) : Keeps r (abandonTest s) := by
  unfold abandonTest
  extract_lets _ s1
  have hs1 : Keeps r s1 := h.flt
  split
  · extract_lets +onlyGivenNames s2
    have hs2 : Keeps r s2 := (clearActivity_moves ..).keeps rfl (keeps_updSite hs1)
    exact hs2.pwr
  · exact hs1

theorem keeps_enterFailed (h : Keeps r s) : Keeps r (enterFailed s) := by
  unfold enterFailed
  refine .ite h ?_
  extract_lets a _ s1
  have ha : Keeps r a := keeps_abandonTest h
  have hs1 : Keeps r s1 := ha.upd rfl
  exact .fold (fun _ _ h' => .ite h' ((penFaulted_moves ..).keeps rfl (.ite (keeps_setResult h') h'))) hs1

/-! ### Links -/

theorem keeps_refreshLevels {l} (h : Keeps r s) : Keeps r (refreshLevels s l) := by
  unfold refreshLevels
  extract_lets x0 s1 s2
  have hs1 : Keeps r s1 := keeps_updLl h
  have hs2 : Keeps r s2 := .ite (.ite hs1 ((report_moves ..).keeps rfl hs1)) ((endCondition_moves ..).keeps rfl hs1)
  exact .fold (fun _ _ h' => (refreshXoff_moves ..).keeps rfl h') hs2

theorem keeps_useTag (h : Keeps r s) : Keeps r (useTag s) := h.sys

theorem keeps_declareDown {l} (h : Keeps r s) : Keeps r (declareDown s l) := by
  unfold declareDown
  extract_lets s1
  have hs1 : Keeps r s1 := keeps_updLink ((enterDown_moves ..).keeps rfl h)
  exact (sendNotice_moves ..).keeps rfl ((report_moves ..).keeps rfl hs1)

theorem keeps_enterTrain {l} (h : Keeps r s) : Keeps r (enterTrain s l) :=
  keeps_updLink ((trainLanes_moves ..).keeps rfl ((setLinkSt_moves ..).keeps rfl h))

theorem keeps_askRetrain {l} (h : Keeps r s) : Keeps r (askRetrain s l) :=
  keeps_updLl ((startRetrain_moves ..).keeps rfl h)

theorem keeps_startSync {l} (h : Keeps r s) : Keeps r (startSync s l) := by
  unfold startSync
  extract_lets holds
  exact keeps_updLl h

theorem keeps_purgeLink {l} (h : Keeps r s) : Keeps r (purgeLink s l) := by
  unfold purgeLink
  extract_lets x s1 s2
  have hs1 : Keeps r s1 := .fold (fun _ _ h' => (abortOp_moves ..).keeps rfl h') h
  have hs2 : Keeps r s2 := (rewindFrom_moves ..).keeps rfl hs1
  exact keeps_updLl ((abortForwards_moves ..).keeps rfl hs2)

/-! ### Lane commands -/

theorem keeps_requestLane {l op lane wave} (h : Keeps r s) : Keeps r (requestLane s l op lane wave) := by
  unfold requestLane
  extract_lets +onlyGivenNames x c
  refine .ite h ?_
  refine .ite ((startRetrain_moves ..).keeps rfl (keeps_updLl (keeps_updLink h))) ?_
  extract_lets y
  exact keeps_setLl h

theorem keeps_queueRxCmd {l c} (h : Keeps r s) : Keeps r (queueRxCmd s l c) := keeps_updLl h

theorem keeps_receiverLane {l op lane wave} (h : Keeps r s) : Keeps r (receiverLane s l op lane wave) := by
  unfold receiverLane
  extract_lets x c
  exact .ite h <|
    .ite ((startRetrain_moves ..).keeps rfl (keeps_updLl (keeps_updLink h))) (keeps_queueRxCmd (keeps_setLl h))

theorem keeps_moveOrDrop {spares} {change : ℕ → ℕ → State} {i} (hchange : ∀ a0 a1, Keeps r (change a0 a1)) :
    Keeps r (moveOrDrop spares change i) := by
  unfold moveOrDrop
  split
  · exact hchange _ _
  · exact hchange _ _

theorem keeps_applyTxMap {l} (h : Keeps r s) : Keeps r (applyTxMap s l) := by
  unfold applyTxMap
  extract_lets x
  split
  · refine .ite ?_ h
    extract_lets s1 y
    have hs1 : Keeps r s1 := keeps_updLink h
    exact keeps_refreshLevels (keeps_setLl hs1)
  · exact h

theorem keeps_applyRxMap {l} (h : Keeps r s) : Keeps r (applyRxMap s l) := by
  unfold applyRxMap
  extract_lets x
  split
  · refine .ite ?_ h
    extract_lets s1 y
    have hs1 : Keeps r s1 := keeps_updLink h
    exact keeps_refreshLevels (keeps_setLl hs1)
  · exact h

theorem keeps_checkShuffle {l} (h : Keeps r s) : Keeps r (checkShuffle s l) := by
  unfold checkShuffle
  extract_lets +onlyGivenNames k
  refine .ite h ?_
  extract_lets +onlyGivenNames s1
  have hs1 : Keeps r s1 := keeps_setLink h
  exact .ite ((sendNotice_moves ..).keeps rfl ((report_moves ..).keeps rfl hs1.sys)) hs1

theorem keeps_reissueCmds {l} (h : Keeps r s) : Keeps r (reissueCmds s l) := by
  unfold reissueCmds
  extract_lets x y
  exact .fold (fun _ _ h' => keeps_queueRxCmd h') (keeps_setLl h)

theorem keeps_enterActive {l} (h : Keeps r s) : Keeps r (enterActive s l) := by
  unfold enterActive
  extract_lets k d empty _ s1 _ s2 s3
  have hs1 : Keeps r s1 := keeps_setLink h
  have hs2 : Keeps r s2 := keeps_updLl (keeps_setPeer hs1)
  have hs3 : Keeps r s3 :=
    keeps_reissueCmds (keeps_startSync (keeps_checkShuffle ((endCondition_moves ..).keeps rfl hs2)))
  exact .ite ((sendNotice_moves ..).keeps rfl hs3) hs3

theorem keeps_finishExchange {l} (h : Keeps r s) : Keeps r (finishExchange s l) :=
  .ite (keeps_updLink h) (keeps_enterActive h)

theorem keeps_endExchange {l} (h : Keeps r s) : Keeps r (endExchange s l) := by
  unfold endExchange
  extract_lets k
  exact .ite (.ite (keeps_setLink h) (keeps_finishExchange h)) h

theorem keeps_endQuick {l} (h : Keeps r s) : Keeps r (endQuick s l) := .ite (keeps_enterActive h) h

/-! ### The link layer -/

theorem keeps_sendNew {l v it} (h : Keeps r s) : Keeps r (sendNew s l v it) := by
  unfold sendNew
  extract_lets x pool typ wire f grouped y z w s1 s2
  have hs1 : Keeps r s1 := (pmuCount_moves ..).keeps rfl (keeps_setLl h)
  have hs2 : Keeps r s2 := .ite ((pmuCount_moves ..).keeps rfl hs1) hs1
  exact .ite ((pmuCount_moves ..).keeps rfl hs2) hs2

theorem keeps_sendPlain {l typ p f} (h : Keeps r s) : Keeps r (sendPlain s l typ p f) := by
  unfold sendPlain
  extract_lets x
  exact keeps_setLl h

theorem keeps_sendSlot {l c} (h : Keeps r s) : Keeps r (sendSlot s l c) := by
  unfold sendSlot
  extract_lets +onlyGivenNames x
  split
  · exact keeps_sendPlain h
  · exact keeps_sendPlain h
  · exact keeps_sendPlain h
  · exact keeps_sendNew (keeps_setLl h)
  · exact keeps_updLl (keeps_sendNew h)
  · split
    · exact keeps_updLl (keeps_sendNew h)
    · exact h
  · extract_lets +onlyGivenNames q
    split
    · exact keeps_sendNew h.sys
    · exact h
  · extract_lets s1
    have hs1 : Keeps r s1 := keeps_setLl h
    exact (pmuCount_moves ..).keeps rfl hs1
  · exact keeps_sendPlain h

theorem keeps_injectCrc {l} (h : Keeps r s) : Keeps r (injectCrc s l) := by
  unfold injectCrc
  split
  · exact .ite ((injUse_moves ..).keeps rfl (keeps_updLl h)) h
  · exact h

theorem keeps_exchangeSlot {l} (h : Keeps r s) : Keeps r (exchangeSlot s l) := by
  unfold exchangeSlot
  extract_lets +onlyGivenNames k
  refine .ite (keeps_endExchange (keeps_setLink h)) ?_
  extract_lets f y
  exact keeps_updLl (keeps_setLink h)

theorem keeps_trainSlot {l} (h : Keeps r s) : Keeps r (trainSlot s l) := keeps_updLink h

theorem keeps_activeSlot {l} (h : Keeps r s) : Keeps r (activeSlot s l) := by
  unfold activeSlot
  extract_lets s1 s2 f
  have hs1 : Keeps r s1 := keeps_applyTxMap h
  have hs2 : Keeps r s2 := keeps_injectCrc (keeps_sendSlot hs1)
  exact keeps_updLl (keeps_updLink hs2)

theorem keeps_retrainSlot {l} (h : Keeps r s) : Keeps r (retrainSlot s l) := by
  unfold retrainSlot
  extract_lets k
  exact .ite (keeps_endQuick (keeps_setLink h)) (.ite (keeps_exchangeSlot h) (keeps_trainSlot h))

theorem runs_execTxSlot {l} : Runs s (execTxSlot l s) := by
  have h := Keeps.refl s
  refine .next ?_
  extract_lets n k
  split
  · exact keeps_activeSlot h
  · exact .ite (keeps_trainSlot h) (keeps_exchangeSlot h)
  · exact keeps_retrainSlot h
  · exact keeps_trainSlot h
  · exact keeps_trainSlot h
  · exact keeps_trainSlot h
  · exact h
  · exact h

theorem keeps_rxCheck {l f} (h : Keeps r s) : Keeps r (rxCheck s l f).1 :=
  .ite_fst (.pair (keeps_updLl h)) (.pair ((pmuCount_moves ..).keeps rfl (keeps_updLl h)))

theorem keeps_rxSlotFlit {l fl} (h : Keeps r s) : Keeps r (rxSlotFlit s l fl).1 := by
  unfold rxSlotFlit
  extract_lets s1 y0
  have hs1 : Keeps r s1 := keeps_applyRxMap h
  exact .pair (keeps_updLl (keeps_setLink hs1))

theorem keeps_rxArrive {l fl} (h : Keeps r s) : Keeps r (rxArrive s l fl).1 :=
  .ite_fst (.pair h) (keeps_rxCheck (keeps_rxSlotFlit h))

theorem keeps_rxOfType {l fl isType} {take : State → Flit → State} (h : Keeps r s)
    (htake : ∀ a0 a1, Keeps r a0 → Keeps r (take a0 a1)) : Keeps r (rxOfType s l fl isType take) := by
  unfold rxOfType
  extract_lets y0
  have hy0 : Keeps r y0.1 := keeps_rxArrive h
  split
  · exact .ite (htake _ _ hy0) hy0
  · exact hy0

theorem keeps_rxSequenced {l f room} {take : State → State} (h : Keeps r s)
    (htake : ∀ a0, Keeps r a0 → Keeps r (take a0)) : Keeps r (rxSequenced s l f room take) := by
  unfold rxSequenced
  extract_lets +onlyGivenNames x d
  refine .ite h ?_
  refine .ite ?_ (.ite (keeps_setLl h) h)
  refine .ite h ?_
  refine .ite ?_ ((bucketReport_moves ..).keeps rfl (keeps_setLl h))
  extract_lets s1 s2
  have hs1 : Keeps r s1 := (pmuCount_moves ..).keeps rfl h
  have hs2 : Keeps r s2 := htake _ (keeps_setLl hs1)
  exact .ite (keeps_updLl hs2) hs2

theorem keeps_storeRx {l v it} (h : Keeps r s) : Keeps r (storeRx s l v it) :=
  (refreshXoff_moves ..).keeps rfl (keeps_updLl h)

theorem keeps_takeItem {l f it} {deliver : State → State} (h : Keeps r s)
    (hdeliver : ∀ a0, Keeps r a0 → Keeps r (deliver a0)) : Keeps r (takeItem s l f it deliver) :=
  .ite ((refreshXoff_moves ..).keeps rfl (keeps_updLl h)) (hdeliver _ h)

theorem keeps_rxTraffic {l fl typ} (h : Keeps r s) : Keeps r (rxTraffic s l fl typ) :=
  keeps_rxOfType h (fun _ _ h' => keeps_rxSequenced h' (fun _ h2 => keeps_takeItem h2 (fun _ h3 => keeps_storeRx h3)))

theorem keeps_rxMgmt {l fl op plain room} {deliver : State → BitVec 512 → State} (h : Keeps r s)
    (hdeliver : ∀ a0 a1, Keeps r a0 → Keeps r (deliver a0 a1)) : Keeps r (rxMgmt s l fl op plain room deliver) :=
  keeps_rxOfType h fun _ _ h' =>
    .ite h' <|
      keeps_rxSequenced h' (fun _ h2 => .ite (hdeliver _ _ h2) (keeps_takeItem h2 (fun _ h3 => hdeliver _ _ h3)))

theorem keeps_refuseEnc {l} (h : Keeps r s) : Keeps r (refuseEnc s l) :=
  keeps_declareDown ((report_moves ..).keeps rfl h)

theorem keeps_endSync {l} (h : Keeps r s) : Keeps r (endSync s l) := by
  unfold endSync
  extract_lets s1 s2
  have hs1 : Keeps r s1 := keeps_updLl h
  have hs2 : Keeps r s2 := keeps_refreshLevels hs1
  exact .ite (keeps_refuseEnc hs2) (.ite ((startKeys_moves ..).keeps rfl hs2) hs2)

theorem runs_execSync {l fl} : Runs s (execSync l fl s) := by
  have h := Keeps.refl s
  refine .next ?_
  extract_lets n
  exact keeps_rxOfType h fun _ _ h' =>
    .ite (keeps_updLl h') (.ite (keeps_endSync (keeps_updLl h')) (keeps_updLl h'))

theorem runs_execReplayTimerExpiry {l} : Runs s (execReplayTimerExpiry l s) := by
  have h := Keeps.refl s
  refine .next ?_
  extract_lets +onlyGivenNames n x
  refine .ite h ?_
  refine .ite ?_ ((bucketReport_moves ..).keeps rfl (keeps_setLl h))
  extract_lets old
  exact .ite (keeps_declareDown h) (keeps_updLl (keeps_askRetrain ((report_moves ..).keeps rfl h)))

theorem runs_execRetrainTimeout {l} : Runs s (execRetrainTimeout l s) := by
  have h := Keeps.refl s
  refine .next ?_
  extract_lets n
  exact .ite h <|
    .ite ((startRetrain_moves ..).keeps rfl h) <|
      .ite (keeps_declareDown (keeps_updLl h)) (keeps_askRetrain (keeps_updLl h))

theorem runs_execOperationTimeout {l n} : Runs s (execOperationTimeout l n s) := by
  have h := Keeps.refl s
  refine .next ?_
  extract_lets k
  split
  · refine .ite h ?_
    extract_lets s1 s2
    have hs1 : Keeps s s1 := (raiseEvent_moves ..).keeps rfl h
    have hs2 : Keeps s s2 := keeps_updLl hs1
    exact (bucketReport_moves ..).keeps rfl hs2
  · exact h

theorem keeps_setLlResult {l r0} (h : Keeps r s) : Keeps r (setLlResult s l r0) := keeps_updLl h

theorem keeps_llPurge {l} (h : Keeps r s) : Keeps r (llPurge s l) :=
  .ite (keeps_setLlResult h) (keeps_setLlResult (keeps_purgeLink h))

theorem keeps_llDisable {l} (h : Keeps r s) : Keeps r (llDisable s l) :=
  .ite (keeps_setLlResult (keeps_updLl h)) (keeps_setLlResult h)

theorem keeps_llRekey {l} (h : Keeps r s) : Keeps r (llRekey s l) :=
  .ite (keeps_setLlResult ((startKeys_moves ..).keeps rfl h)) (keeps_setLlResult h)

theorem keeps_llCommand {l op} (h : Keeps r s) : Keeps r (llCommand s l op) := by
  unfold llCommand
  split
  · exact keeps_llPurge h
  · exact keeps_llDisable h
  · exact keeps_llRekey h
  · exact keeps_setLlResult h

theorem keeps_disabledDown {l} (h : Keeps r s) : Keeps r (disabledDown s l) :=
  keeps_updLl (keeps_updLink ((enterDown_moves ..).keeps rfl h))

theorem keeps_takeCounter {l which} (h : Keeps r s) : Keeps r (takeCounter s l which).1 := by
  unfold takeCounter
  extract_lets x
  split
  · exact .pair (keeps_setLl h)
  · exact .pair (keeps_setLl h)
  · exact .pair (keeps_setLl h)
  · exact .pair (keeps_setLl h)
  · exact .pair (keeps_setLl h)
  · exact .pair (keeps_setLl h)

theorem keeps_takeKey {l p} (h : Keeps r s) : Keeps r (takeKey s l p) := by
  unfold takeKey
  extract_lets +onlyGivenNames msgs s1 reply
  have hs1 : Keeps r s1 := keeps_updLl h
  have hs2 : Keeps r (reply s1) := by
    simp only [reply]
    split
    · exact keeps_updLl hs1
    · exact hs1
  exact .ite (keeps_refuseEnc hs1) (.ite (.ite (keeps_updLl hs2) (keeps_updLl hs2)) hs2)

/-! ### Rings and lasers -/

theorem keeps_updLaser {e n f} (h : Keeps r s) : Keeps r (updLaser s e n f) := keeps_updOe h

theorem keeps_recordLaser {e n st} (h : Keeps r s) : Keeps r (recordLaser s e n st) := (keepCal_moves ..).keeps rfl h

theorem keeps_endLaser {e n st} (h : Keeps r s) : Keeps r (endLaser s e n st) := keeps_recordLaser (keeps_updLaser h)

theorem keeps_clearRail {e r0} (h : Keeps r s) : Keeps r (clearRail s e r0) :=
  .ite ((endCondition_moves ..).keeps rfl ((updRing_moves ..).keeps rfl h)) h

theorem keeps_failSearch {e r0} (h : Keeps r s) : Keeps r (failSearch s e r0) :=
  (settleRings_moves ..).keeps rfl ((report_moves ..).keeps rfl ((updRing_moves ..).keeps rfl h))

theorem keeps_startSearch {e r0 bad} (h : Keeps r s) : Keeps r (startSearch s e r0 bad) := by
  unfold startSearch
  extract_lets o first s1
  have hs1 : Keeps r s1 := (pmuCount_moves ..).keeps rfl ((updRing_moves ..).keeps rfl h)
  exact .ite (keeps_failSearch hs1) (keeps_clearRail ((updRing_moves ..).keeps rfl hs1))

theorem keeps_freezeTx {e i} (h : Keeps r s) : Keeps r (freezeTx s e i) :=
  .fold (fun _ _ h' => (updRing_moves ..).keeps rfl h') h

theorem keeps_updLane {l i f} (h : Keeps r s) : Keeps r (updLane s l i f) := keeps_updLink h

theorem keeps_declareMislock {e r0} (h : Keeps r s) : Keeps r (declareMislock s e r0) := by
  unfold declareMislock
  extract_lets +onlyGivenNames x l i
  refine .ite h ?_
  extract_lets s1
  have hs1 : Keeps r s1 := (report_moves ..).keeps rfl ((updRing_moves ..).keeps rfl h)
  exact .ite (.ite ((startRetrain_moves ..).keeps rfl hs1) hs1) hs1

theorem keeps_leaveRing {e r0} (h : Keeps r s) : Keeps r (leaveRing s e r0) := by
  unfold leaveRing
  extract_lets +onlyGivenNames l k m j change
  refine .ite h ?_
  extract_lets spares s1
  have hs1 : Keeps r s1 := keeps_moveOrDrop (fun _ _ => .ite (keeps_requestLane h) (keeps_receiverLane h))
  exact (updRing_moves ..).keeps rfl hs1

theorem keeps_returnRing {e k} (h : Keeps r s) : Keeps r (returnRing s e k) := by
  unfold returnRing
  extract_lets l x op s1
  have hs1 : Keeps r s1 := by
    simp only [s1]
    split
    · exact .ite (keeps_requestLane h) (keeps_receiverLane h)
    · exact h
  exact (updRing_moves ..).keeps rfl hs1

theorem keeps_giveUpRing {e r0} (h : Keeps r s) : Keeps r (giveUpRing s e r0) := by
  unfold giveUpRing
  extract_lets l i out
  exact keeps_updLink ((updRing_moves ..).keeps rfl h)

theorem keeps_oeLost {e} (h : Keeps r s) : Keeps r (oeLost s e) := by
  unfold oeLost
  refine .ite h ?_
  extract_lets s1
  have hs1 : Keeps r s1 := (report_moves ..).keeps rfl (keeps_updOe h)
  exact .fold (fun _ _ h' => .ite h' ((enterDown_moves ..).keeps rfl h')) hs1

theorem keeps_clockGone {e} (h : Keeps r s) : Keeps r (clockGone s e) := keeps_oeLost ((report_moves ..).keeps rfl h)

theorem keeps_holdLink {l} (h : Keeps r s) : Keeps r (holdLink s l) := by
  unfold holdLink
  split
  · exact (setLinkSt_moves ..).keeps rfl h
  · exact keeps_updLink ((setLinkSt_moves ..).keeps rfl h)
  · exact (setLinkSt_moves ..).keeps rfl h
  · exact (setLinkSt_moves ..).keeps rfl h
  · exact keeps_updLink ((endHold_moves ..).keeps rfl ((setLinkSt_moves ..).keeps rfl h))
  · exact h

theorem keeps_queueSparing {e i} (h : Keeps r s) : Keeps r (queueSparing s e i) := by
  unfold queueSparing
  extract_lets o
  exact .ite h (keeps_updOe h)

theorem keeps_moveOffWave {e i p} (h : Keeps r s) : Keeps r (moveOffWave s e i p) := by
  unfold moveOffWave
  extract_lets l k j
  split
  · exact .ite (keeps_updOe (keeps_requestLane h)) h
  · exact h

theorem keeps_dropOffWave {e i p} (h : Keeps r s) : Keeps r (dropOffWave s e i p) := by
  unfold dropOffWave
  extract_lets l k j
  exact .ite (keeps_updOe (keeps_requestLane h)) h

theorem keeps_eachPort {f : State → ℕ → State} (h : Keeps r s) (hf : ∀ a0 a1, Keeps r a0 → Keeps r (f a0 a1)) :
    Keeps r (eachPort s f) := .fold (fun _ _ h' => hf _ _ h') h

theorem keeps_bringBack {e i} (h : Keeps r s) : Keeps r (bringBack s e i) := by
  unfold bringBack
  extract_lets ms s1
  have hs1 : Keeps r s1 := .fold (fun _ _ h' => keeps_requestLane h') h
  exact keeps_updOe hs1

theorem keeps_standbySpent {e i} (h : Keeps r s) : Keeps r (standbySpent s e i) := by
  unfold standbySpent
  extract_lets n said s1 dropped s2
  have hs1 : Keeps r s1 := .ite (keeps_updLaser h) (keeps_freezeTx (.ite h (keeps_endLaser h)))
  have hs2 : Keeps r s2 := keeps_updOe hs1
  exact .ite hs2 ((report_moves ..).keeps rfl hs2)

theorem keeps_noStandby {e i} (h : Keeps r s) : Keeps r (noStandby s e i) := by
  unfold noStandby
  extract_lets s1
  have hs1 : Keeps r s1 := keeps_eachPort h (fun _ _ h' => keeps_dropOffWave h')
  exact .ite (keeps_updOe hs1) (keeps_standbySpent hs1)

theorem keeps_gotoStep {e n} (h : Keeps r s) : Keeps r (gotoStep s e n) := keeps_updOe h

theorem keeps_warmStep {e i} (h : Keeps r s) : Keeps r (warmStep s e i) := keeps_gotoStep (keeps_updOe h)

theorem keeps_clockStandbySpent {e} (h : Keeps r s) : Keeps r (clockStandbySpent s e) := by
  unfold clockStandbySpent
  extract_lets s1
  have hs1 : Keeps r s1 := keeps_standbySpent h
  exact .ite hs1 (keeps_clockGone hs1)

theorem keeps_beginSparing {e i} (h : Keeps r s) : Keeps r (beginSparing s e i) := by
  unfold beginSparing
  extract_lets +onlyGivenNames o lost s1
  have hs1 : Keeps r s1 := keeps_updOe h
  refine .ite (.ite (keeps_warmStep hs1) (keeps_clockStandbySpent hs1)) ?_
  extract_lets s2
  have hs2 : Keeps r s2 := .ite hs1 (keeps_eachPort hs1 (fun _ _ h' => keeps_moveOffWave h'))
  exact .ite (keeps_noStandby hs2) (.ite (keeps_warmStep hs2) hs2)

theorem keeps_startSparing {e} (h : Keeps r s) : Keeps r (startSparing s e) := by
  unfold startSparing
  split
  · exact h
  · exact .ite h (keeps_beginSparing h)

theorem keeps_continueSparing {e i} (h : Keeps r s) : Keeps r (continueSparing s e i) := by
  unfold continueSparing
  extract_lets o
  exact .ite (keeps_beginSparing h) (.ite (keeps_queueSparing h) (.ite (keeps_warmStep h) h))

theorem keeps_lightAgain {e i p} (h : Keeps r s) : Keeps r (lightAgain s e i p) := keeps_updLink h

theorem keeps_flipSwitch {e i} (h : Keeps r s) : Keeps r (flipSwitch s e i) := by
  unfold flipSwitch
  extract_lets lost s1
  have hs1 : Keeps r s1 := keeps_freezeTx (.ite (keeps_eachPort h (fun _ _ h' => keeps_lightAgain h')) h)
  exact keeps_updOe hs1

theorem keeps_recordLasers {e} (h : Keeps r s) : Keeps r (recordLasers s e) := (keepCal_moves ..).keeps rfl h

theorem keeps_recordSparing {e i} (h : Keeps r s) : Keeps r (recordSparing s e i) :=
  (report_moves ..).keeps rfl (keeps_recordLasers (keeps_updOe h))

theorem keeps_sparingStep {e fine} (h : Keeps r s) : Keeps r (sparingStep s e fine) := by
  unfold sparingStep
  extract_lets +onlyGivenNames o i own
  split
  · exact .ite (keeps_warmStep h) (.ite h (keeps_standbySpent h))
  · refine .ite ?_ ?_
    · extract_lets s2
      have hs2 : Keeps r s2 := keeps_endLaser h
      exact .ite (keeps_clockStandbySpent hs2) (keeps_noStandby hs2)
    · refine .ite ?_ <|
        .ite (keeps_gotoStep (keeps_flipSwitch h)) <|
          keeps_gotoStep (keeps_eachPort h (fun _ _ h' => keeps_dropOffWave h'))
      extract_lets s1
      have hs1 : Keeps r s1 := keeps_eachPort h (fun _ _ h' => .ite ((startRetrain_moves ..).keeps rfl h') h')
      exact keeps_gotoStep (keeps_flipSwitch hs1)
  · exact keeps_gotoStep (keeps_flipSwitch h)
  · exact .ite (keeps_recordSparing h) (keeps_gotoStep h)
  · exact .ite (keeps_gotoStep h) (keeps_recordSparing h)
  · exact .ite (keeps_gotoStep (keeps_bringBack h)) (keeps_recordSparing h)
  · exact keeps_recordSparing h
  · exact keeps_updOe h
  · exact h

/-! ### The mesh -/

theorem keeps_switchTables (h : Keeps r s) : Keeps r (switchTables s) := by
  unfold switchTables
  extract_lets +onlyGivenNames w
  refine .ite h ?_
  extract_lets _ s0 _ s1
  have hs0 : Keeps r s0 := h.pnet
  have hs1 : Keeps r s1 := hs0.pnet
  exact .ite (keeps_enterFailed ((report_moves ..).keeps rfl hs1)) <|
    .fold (fun _ _ h' => (queueRetire_moves ..).keeps rfl h') hs1

theorem runs_execRouterTableSwitch {d cls} : Runs s (execRouterTableSwitch d cls s) := by
  have h := Keeps.refl s
  refine .next ?_
  refine .ite ?_ h
  extract_lets +onlyGivenNames pn s1
  have hs1 : Keeps s s1 := h.pnet
  exact hs1.pnet

theorem keeps_edgeUsed {d n c} (h : Keeps r s) : Keeps r (edgeUsed s d n c) := h.pnet

theorem keeps_meshInjected {d} (h : Keeps r s) : Keeps r (meshInjected s d) := by
  unfold meshInjected
  extract_lets x u s1 v
  have hu : Keeps r u := (injUse_moves ..).keeps rfl h
  have hs1 : Keeps r s1 := .ite ((reportInjected_moves ..).keeps rfl hu) hu
  have hv : Keeps r v := (injUse_moves ..).keeps rfl hs1
  exact .ite ((pmuCount_moves ..).keeps rfl ((reportInjected_moves ..).keeps rfl hv)) hv

theorem keeps_forwardPacket {f p} (h : Keeps r s) : Keeps r (forwardPacket s f p) := by
  unfold forwardPacket
  extract_lets d
  split
  · exact h
  · extract_lets +onlyGivenNames s1
    have hs1 : Keeps r s1 := keeps_edgeUsed h
    exact .ite h (.ite (keeps_answer hs1.pnet) hs1.pnet)

theorem keeps_injectNow {k} (h : Keeps r s) : Keeps r (injectNow s k) := by
  unfold injectNow
  extract_lets +onlyGivenNames s1
  have hs1 : Keeps r s1 := (pmuCount_moves ..).keeps rfl h
  exact .ite (keeps_answer hs1) hs1.pnet

theorem keeps_waitInjection {k} (h : Keeps r s) : Keeps r (waitInjection s k) := h.pnet

theorem keeps_injectPacket {k} (h : Keeps r s) : Keeps r (injectPacket s k) :=
  .ite h (.ite (keeps_waitInjection h) (keeps_injectNow h))

theorem keeps_injectWaiting (h : Keeps r s) : Keeps r (injectWaiting s) :=
  .fold (fun _ _ h' => .ite (keeps_injectNow h') (keeps_waitInjection h')) h.pnet

theorem runs_execMeshPacket {at_ cls dst payload} : Runs s (execMeshPacket at_ cls dst payload s) := by
  have h := Keeps.refl s
  refine .next ?_
  extract_lets f
  split
  · exact keeps_forwardPacket (keeps_meshInjected h)
  · exact keeps_injectPacket h

theorem runs_execAdapterRetry {p m} : Runs s (execAdapterRetry p m s) := by
  have h := Keeps.refl s
  refine .next ?_
  refine .ite h ?_
  extract_lets +onlyGivenNames s1 y0
  have hs1 : Keeps s s1 := by
    simp only [s1]
    split
    · exact (pmuCount_moves ..).keeps rfl h
    · exact h
  have hy0 : Keeps s y0.1 := (bucketAdd_moves ..).keeps rfl hs1
  refine .ite ?_ hy0
  extract_lets +onlyGivenNames _
  exact hy0.pnet

theorem keeps_markModule {p m failed} (h : Keeps r s) : Keeps r (markModule s p m failed) := by
  unfold markModule
  extract_lets b
  exact keeps_updSite h

theorem keeps_attachedModule {d m failed} (h : Keeps r s) : Keeps r (attachedModule s d m failed) := by
  unfold attachedModule
  refine .ite ?_ ?_
  · split
    · extract_lets b s1
      have hs1 : Keeps r s1 := keeps_updHub h
      exact .ite (keeps_stackLost hs1) hs1
    · exact h
  · refine .ite ?_ h
    split
    · exact .ite (keeps_oeLost h) h
    · exact h

theorem keeps_degradeModule {p m failed} (h : Keeps r s) : Keeps r (degradeModule s p m failed) := by
  unfold degradeModule
  extract_lets s1 s2 s3 s4
  have hs1 : Keeps r s1 := keeps_markModule h
  have hs2 : Keeps r s2 := by
    simp only [s2]
    split
    · exact keeps_markModule hs1
    · exact hs1
  have hs3 : Keeps r s3 := (report_moves ..).keeps rfl hs2
  have hs4 : Keeps r s4 := by
    simp only [s4]
    split
    · exact keeps_attachedModule hs3
    · exact hs3
  exact .ite (keeps_switchTables hs4) hs4

theorem keeps_repairLanes {p m n} (h : Keeps r s) : Keeps r (repairLanes s p m n) :=
  .fold (fun _ _ h' => (bucketReport_moves ..).keeps rfl (keeps_updSite h')) h

theorem keeps_takeMargin {k} (h : Keeps r s) : Keeps r (takeMargin s k) := h.pnet

theorem keeps_trainMargins {p m} (h : Keeps r s) : Keeps r (trainMargins s p m) :=
  .fold (fun _ _ h' => keeps_takeMargin h') h

theorem keeps_trainUnits {qs} (h : Keeps r s) : Keeps r (trainUnits s qs) :=
  .fold (fun _ _ h' => .fold (fun _ _ h2 => keeps_takeMargin h2) h') h

theorem keeps_moduleTrained {p m out} (h : Keeps r s) : Keeps r (moduleTrained s p m out) := by
  unfold moduleTrained
  split
  · refine .ite (.ite h (keeps_degradeModule h)) ?_
    extract_lets f own far s1
    have hs1 : Keeps r s1 := keeps_repairLanes (keeps_repairLanes h)
    exact .ite hs1 (keeps_degradeModule hs1)
  · exact .ite h (keeps_degradeModule h)
  · exact keeps_degradeModule h

/-! ### Events of the optics -/

theorem keeps_cmdSpareLaser {e t} (h : Keeps r s) : Keeps r (cmdSpareLaser s e t) := by
  unfold cmdSpareLaser
  extract_lets o
  exact .ite ((setSpResult_moves ..).keeps rfl h) ((setSpResult_moves ..).keeps rfl (keeps_queueSparing h))

theorem keeps_cmdRelock {e r0} (h : Keeps r s) : Keeps r (cmdRelock s e r0) := by
  unfold cmdRelock
  extract_lets x
  exact .ite ((setSpResult_moves ..).keeps rfl h) ((setSpResult_moves ..).keeps rfl (keeps_startSearch h))

theorem keeps_oeCommand {e op t} (h : Keeps r s) : Keeps r (oeCommand s e op t) := by
  unfold oeCommand
  split
  · exact keeps_cmdSpareLaser h
  · exact keeps_cmdRelock h
  · exact (setSpResult_moves ..).keeps rfl h

theorem keeps_settleLasers {e} (h : Keeps r s) : Keeps r (settleLasers s e) := by
  unfold settleLasers
  refine .ite ?_ h
  extract_lets s1
  have hs1 : Keeps r s1 := keeps_updOe h
  exact keeps_eachPort hs1 fun _ _ h' =>
    .fold (fun _ _ h2 => .ite (keeps_startSearch h2) ((updRing_moves ..).keeps rfl h2)) h'

theorem keeps_searchDrops {e} (h : Keeps r s) : Keeps r (searchDrops s e) :=
  keeps_eachPort h (fun _ _ h' => .fold (fun _ _ h2 => .ite (keeps_startSearch h2) h2) h')

theorem keeps_warmFailed {e n} (h : Keeps r s) : Keeps r (warmFailed s e n) := by
  unfold warmFailed
  extract_lets i s1
  have hs1 : Keeps r s1 := keeps_endLaser h
  exact .ite hs1 <|
    .ite (keeps_updOe hs1) (.ite (keeps_oeLost hs1) (keeps_settleLasers ((report_moves ..).keeps rfl hs1)))

theorem runs_execLaserWarmDone {e n} : Runs s (execLaserWarmDone e n s) := by
  have h := Keeps.refl s
  refine .next ?_
  extract_lets +onlyGivenNames k m
  refine .ite h ?_
  extract_lets +onlyGivenNames s1
  have hs1 : Keeps s s1 := keeps_updLaser h
  refine .ite ?_ hs1
  extract_lets s2
  have hs2 : Keeps s s2 := keeps_updLaser hs1
  exact keeps_settleLasers (.ite hs2 (keeps_updOe hs2))

theorem runs_execBiasLoop {e n bias} : Runs s (execBiasLoop e n bias s) := by
  have h := Keeps.refl s
  refine .next ?_
  extract_lets +onlyGivenNames x
  refine .ite h ?_
  extract_lets b warn s1 s2
  have hs1 : Keeps s s1 := keeps_updLaser h
  have hs2 : Keeps s s2 := .ite ((report_moves ..).keeps rfl hs1) hs1
  exact .ite (keeps_queueSparing hs2) hs2

theorem keeps_retrainWithout {e i p} (h : Keeps r s) : Keeps r (retrainWithout s e i p) := by
  unfold retrainWithout
  extract_lets +onlyGivenNames l k j out
  refine .ite h ?_
  refine .ite ((startRetrain_moves ..).keeps rfl (keeps_setLink h)) ?_
  extract_lets mine sp m s1
  have hs1 : Keeps r s1 := keeps_updOe (keeps_setLink h)
  exact keeps_updLl ((startRetrain_moves ..).keeps rfl hs1)

theorem keeps_endLostSparing {e n} (h : Keeps r s) : Keeps r (endLostSparing s e n) := by
  unfold endLostSparing
  extract_lets o
  exact .ite (keeps_updOe h) h

theorem keeps_suddenLoss {k m} (h : Keeps r s) : Keeps r (suddenLoss s k m) := by
  unfold suddenLoss
  extract_lets +onlyGivenNames i
  refine .ite h ?_
  extract_lets +onlyGivenNames s2
  have hs2 : Keeps r s2 := keeps_freezeTx (keeps_endLaser h)
  refine .ite ?_ ?_
  · extract_lets s3
    have hs3 : Keeps r s3 := keeps_eachPort hs2 (fun _ _ h' => keeps_holdLink h')
    exact .ite (keeps_continueSparing hs3) (keeps_clockGone (.ite hs3 ((report_moves ..).keeps rfl hs3)))
  · extract_lets s3
    have hs3 : Keeps r s3 := keeps_eachPort hs2 (fun _ _ h' => keeps_retrainWithout h')
    exact .ite (keeps_continueSparing hs3) ((report_moves ..).keeps rfl (keeps_endLostSparing hs3))

theorem runs_execLaserLockLoop {e n step locked} : Runs s (execLaserLockLoop e n step locked s) := by
  have h := Keeps.refl s
  refine .next ?_
  extract_lets +onlyGivenNames x
  refine .ite h ?_
  extract_lets s1
  have hs1 : Keeps s s1 := keeps_updLaser h
  exact .ite (keeps_suddenLoss hs1) hs1

theorem keeps_clearAgeWarn {e n v} (h : Keeps r s) : Keeps r (clearAgeWarn s e n v) := keeps_updLaser h

theorem keeps_driveRing {e r0} (h : Keeps r s) : Keeps r (driveRing s e r0) := by
  unfold driveRing
  extract_lets x0 s1
  have hs1 : Keeps r s1 := (updRing_moves ..).keeps rfl h
  exact .ite (keeps_clearRail hs1) hs1

theorem runs_execRingLoopUpdate {e r0 err} : Runs s (execRingLoopUpdate e r0 err s) := by
  have h := Keeps.refl s
  refine .next ?_
  extract_lets k n
  split
  · exact keeps_driveRing ((updRing_moves ..).keeps rfl h)
  · exact .ite ((updRing_moves ..).keeps rfl h) h
  · exact h

theorem keeps_searchOn {e r0 code} (h : Keeps r s) : Keeps r (searchOn s e r0 code) :=
  .ite (keeps_failSearch h) ((updRing_moves ..).keeps rfl h)

theorem runs_execRingSearchStep {e r0 dip centre pilotOk} :
    Runs s (execRingSearchStep e r0 dip centre pilotOk s) := by
  have h := Keeps.refl s
  refine .next ?_
  extract_lets +onlyGivenNames k n x c
  refine .ite h ?_
  refine .ite (keeps_searchOn h) ?_
  extract_lets near lock
  exact .ite (keeps_searchOn h) <|
    .ite ((settleRings_moves ..).keeps rfl ((endCondition_moves ..).keeps rfl ((updRing_moves ..).keeps rfl h))) <|
      keeps_searchOn h

theorem runs_execPilotEvaluation {e r0 levels} : Runs s (execPilotEvaluation e r0 levels s) := by
  have h := Keeps.refl s
  refine .next ?_
  extract_lets +onlyGivenNames k n x l
  refine .ite h ?_
  refine .ite ((updRing_moves ..).keeps rfl h) ?_
  extract_lets res s1
  have hs1 : Keeps s s1 := (updRing_moves ..).keeps rfl h
  exact .ite (keeps_declareMislock hs1) hs1

theorem runs_execMislockRecoveryStepDone {e r0} : Runs s (execMislockRecoveryStepDone e r0 s) := by
  have h := Keeps.refl s
  refine .next ?_
  extract_lets k n x
  split
  · exact (updRing_moves ..).keeps rfl (keeps_leaveRing h)
  · exact (updRing_moves ..).keeps rfl (keeps_startSearch h)
  · exact .ite (keeps_returnRing h) (.ite (keeps_giveUpRing h) h)
  · exact h

theorem keeps_clearMislock {e r0 v} (h : Keeps r s) : Keeps r (clearMislock s e r0 v) :=
  (updRing_moves ..).keeps rfl h

theorem runs_execActivityWord {e p w} : Runs s (execActivityWord e p w s) := by
  have h := Keeps.refl s
  refine .next ?_
  split
  · extract_lets s1 others
    have hs1 : Keeps s s1 := keeps_updOe h
    exact .ite hs1 ((endCondition_moves ..).keeps rfl hs1)
  · exact h

theorem runs_execOeSilentDie {e p} : Runs s (execOeSilentDie e p s) := by
  have h := Keeps.refl s
  refine .next ?_
  split
  · extract_lets x
    exact .ite h ((report_moves ..).keeps rfl (keeps_updOe h))
  · exact h

theorem keeps_takeMargins {l p} (h : Keeps r s) : Keeps r (takeMargins s l p) := by
  unfold takeMargins
  extract_lets e port far data s1 alone s2 all n s3
  have hs1 : Keeps r s1 := keeps_updOe h
  have hs2 : Keeps r s2 := .fold (fun _ _ h' => .ite (keeps_queueSparing (keeps_updOe h')) (keeps_updOe h')) hs1
  have hs3 : Keeps r s3 := keeps_updOe hs2
  exact .ite ((report_moves ..).keeps rfl hs3) (.ite ((endCondition_moves ..).keeps rfl hs3) hs3)

/-! ### Die replacement -/

theorem keeps_powerOn {p} (h : Keeps r s) : Keeps r (powerOn s p) := (setMv_moves ..).keeps rfl (keeps_updSite h)

theorem keeps_powerOff {p} (h : Keeps r s) : Keeps r (powerOff s p) :=
  (clearActivity_moves ..).keeps rfl ((setMv_moves ..).keeps rfl (keeps_updSite h))

theorem keeps_recordSub {d spare} (h : Keeps r s) : Keeps r (recordSub s d spare) := by
  unfold recordSub
  extract_lets +onlyGivenNames next
  exact (keepCal_moves ..).keeps rfl h.pnet

theorem keeps_fenceSite {p} (h : Keeps r s) : Keeps r (fenceSite s p) :=
  (recordFence_moves ..).keeps rfl ((dropHolds_moves ..).keeps rfl (keeps_updSite (keeps_powerOff h)))

theorem keeps_emptyDie {d} (h : Keeps r s) : Keeps r (emptyDie s d) := by
  unfold emptyDie
  extract_lets +onlyGivenNames _ s1
  have hs1 : Keeps r s1 := keeps_setLmap h
  exact hs1.pnet

theorem keeps_fenceDie {p} (h : Keeps r s) : Keeps r (fenceDie s p) := by
  unfold fenceDie
  split
  · extract_lets +onlyGivenNames s1
    have hs1 : Keeps r s1 := keeps_emptyDie (keeps_fenceSite h)
    exact hs1.pnet
  · exact h

theorem keeps_setPnetResult {c} (h : Keeps r s) : Keeps r (setPnetResult s c) := h.pnet

theorem keeps_chooseSpare {r0 code} (h : Keeps r s) : Keeps r (chooseSpare s r0 code) := by
  unfold chooseSpare
  split
  · extract_lets s1
    have hs1 : Keeps r s1 := keeps_recordSub (keeps_updSite h)
    exact (setRepl_moves ..).keeps rfl hs1
  · exact keeps_setPnetResult ((setRepl_moves ..).keeps rfl (keeps_recordSub h))

theorem keeps_startReplacement {d rest} (h : Keeps r s) : Keeps r (startReplacement s d rest) := by
  unfold startReplacement
  extract_lets y0 _ s1
  have hs1 : Keeps r s1 := (stopDie_moves ..).keeps rfl ((retireRecord_moves ..).keeps rfl h.pnet)
  exact keeps_switchTables ((setRepl_moves ..).keeps rfl hs1)

theorem keeps_leaveSite {r0} (h : Keeps r s) : Keeps r (leaveSite s r0) :=
  keeps_chooseSpare (keeps_emptyDie (keeps_fenceSite ((endCondition_moves ..).keeps rfl h)))

theorem keeps_spareFails {r0 q} (h : Keeps r s) : Keeps r (spareFails s r0 q) := keeps_chooseSpare (keeps_fenceSite h)

theorem keeps_trainSpareLanes {q d m n k} (h : Keeps r s) : Keeps r (trainSpareLanes s q d m n k) := by
  unfold trainSpareLanes
  extract_lets f s1
  have hs1 : Keeps r s1 := keeps_updSite h
  exact keeps_repairLanes (keeps_repairLanes hs1)

theorem keeps_trainSpare {q d half reps} (h : Keeps r s) : Keeps r (trainSpare s q d half reps) := by
  unfold trainSpare
  extract_lets ms s0 s1 s2
  have hs0 : Keeps r s0 := .fold (fun _ _ h' => keeps_takeMargin h') h
  have hs1 : Keeps r s1 := keeps_updSite hs0
  have hs2 : Keeps r s2 := .fold (fun _ _ h' => keeps_trainSpareLanes h') hs1
  exact .fold (fun _ _ h' => (report_moves ..).keeps rfl h') hs2

theorem keeps_wipeDie {d} (h : Keeps r s) : Keeps r (wipeDie s d) :=
  .upd ((manger_moves s _ (memWf_tabClear _ _ _)).keeps rfl h) rfl

theorem keeps_adoptDie {y q} (h : Keeps r s) : Keeps r (adoptDie s y q) := by
  unfold adoptDie
  extract_lets +onlyGivenNames d s1 s2 s3 far s4
  have hs1 : Keeps r s1 := keeps_setLmap h
  have hs2 : Keeps r s2 := hs1.upd rfl
  have hs3 : Keeps r s3 := keeps_updSite hs2
  have hs4 : Keeps r s4 := by
    refine .fold (fun t m ht => ?_) hs3
    simp only [far]
    split
    · exact keeps_updSite ht
    · exact ht
  split
  · exact keeps_updHub hs4
  · exact hs4

theorem runs_execReplacementStart : Runs s (execReplacementStart s) := by
  have h := Keeps.refl s
  refine .next ?_
  split
  · exact keeps_startReplacement h
  · exact h

theorem keeps_releaseSite (h : Keeps r s) : Keeps r (releaseSite s) :=
  (releaseHeld_moves ..).keeps rfl (keeps_endWaits h)

theorem keeps_replacementStep {r0 pass half reps cap} (h : Keeps r s) :
    Keeps r (replacementStep s r0 pass half reps cap) := by
  unfold replacementStep
  extract_lets +onlyGivenNames goto
  split
  · exact .ite h ((setRepl_moves ..).keeps rfl h)
  · exact keeps_leaveSite h
  · exact .ite h ((setRepl_moves ..).keeps rfl h)
  · exact .ite ((setRepl_moves ..).keeps rfl (keeps_powerOn h)) (keeps_spareFails h)
  · extract_lets x0
    exact .ite ((setRepl_moves ..).keeps rfl (keeps_trainSpare h)) (keeps_spareFails h)
  · extract_lets s1
    have hs1 : Keeps r s1 := keeps_updSite h
    exact .ite ((setRepl_moves ..).keeps rfl hs1) (keeps_spareFails hs1)
  · exact .ite (keeps_switchTables ((setRepl_moves ..).keeps rfl (keeps_wipeDie h))) (keeps_spareFails h)
  · exact .ite h ((setRepl_moves ..).keeps rfl h)
  · exact keeps_releaseSite ((setRepl_moves ..).keeps rfl (keeps_adoptDie h))
  · exact keeps_setPnetResult ((setRepl_moves ..).keeps rfl h)
  · exact h

theorem runs_execReplacementStepDone {pass half reps cap} :
    Runs s (execReplacementStepDone pass half reps cap s) := by
  have h := Keeps.refl s
  refine .next ?_
  split
  · exact keeps_replacementStep h
  · exact h

theorem keeps_retireCmd {d} (h : Keeps r s) : Keeps r (retireCmd s d) := by
  unfold retireCmd
  extract_lets p
  exact .ite (keeps_setPnetResult ((queueRetire_moves ..).keeps rfl h)) (keeps_setPnetResult h)

theorem keeps_readmitCmd {p} (h : Keeps r s) : Keeps r (readmitCmd s p) :=
  .ite (keeps_setPnetResult (keeps_updSite h)) (keeps_setPnetResult h)

theorem keeps_pnetCommand {op target} (h : Keeps r s) : Keeps r (pnetCommand s op target) := by
  unfold pnetCommand
  split
  · exact keeps_retireCmd h
  · exact keeps_readmitCmd h
  · exact keeps_setPnetResult h

/-! ### Resets -/

theorem keeps_applySparing (h : Keeps r s) : Keeps r (applySparing s) := by
  unfold applySparing
  extract_lets +onlyGivenNames c s1 s2 s3
  have hs1 : Keeps r s1 := .fold (fun _ _ h' => keeps_updSite h') h
  have hs2 : Keeps r s2 := .fold (fun _ _ h' => keeps_setLmap h') hs1
  have hs3 : Keeps r s3 := .fold (fun _ _ h' => keeps_updSite (keeps_setLmap h')) hs2
  exact hs3.pnet

/-- The memories that a reset does not empty are as before. -/
theorem keeps_resetAll {keep cause} (h : Keeps r s) : Keeps r (resetAll s keep cause) where
  pending := h.pending
  canon := fun hc => by
    obtain ⟨-, -, hhost, hflash, hmram⟩ := h.canon hc
    exact ⟨rfl, rfl, hhost, hflash, hmram⟩

theorem keeps_resetDevice {keep cause} (h : Keeps r s) : Keeps r (resetDevice s keep cause) :=
  (keepCal_moves ..).keeps rfl (keeps_resetAll h)

theorem keeps_warmReset {cause} (h : Keeps r s) : Keeps r (warmReset s cause) := by
  unfold warmReset
  refine .ite h ?_
  extract_lets +onlyGivenNames s1
  have hs1 : Keeps r s1 := keeps_resetDevice h
  exact hs1.tack

theorem keeps_haltDevice (h : Keeps r s) : Keeps r (haltDevice s) where
  pending := h.pending
  canon := fun hc => by
    obtain ⟨-, -, hhost, hflash, hmram⟩ := h.canon hc
    exact ⟨rfl, rfl, hhost, hflash, hmram⟩

/-! ### The save -/

theorem keeps_mramPut {a n v} (h : Keeps r s) : Keeps r (mramPut s a n v) := h.mram (memWf_memStore _ _ _)

theorem keeps_clearSlot {i} (h : Keeps r s) : Keeps r (clearSlot s i) := h.mram (memWf_tabClear _ _ _)

theorem keeps_writeSave (h : Keeps r s) : Keeps r (writeSave s) := by
  unfold writeSave
  extract_lets i b logs recs fields s1 s2 s3
  have hs1 : Keeps r s1 := .fold (fun _ _ h' => keeps_mramPut h') (keeps_clearSlot h)
  have hs2 : Keeps r s2 := .fold (fun _ _ h' => keeps_mramPut h') hs1
  have hs3 : Keeps r s3 := keeps_mramPut hs2
  exact keeps_mramPut hs3

theorem keeps_applySave (h : Keeps r s) : Keeps r (applySave s) := by
  unfold applySave
  split
  · exact h
  · extract_lets +onlyGivenNames b seq _ s0
    have hs0 : Keeps r s0 := h.pwr
    refine .ite hs0 ?_
    extract_lets logs n kept _ _ s1
    have hkept : Keeps r kept := (keepCal_moves ..).keeps rfl hs0
    have hs1 : Keeps r s1 := hkept.upd rfl
    exact keeps_mramPut (.fold (fun _ _ h' => keeps_updOe h') hs1)

theorem keeps_checkMramState (h : Keeps r s) : Keeps r (checkMramState s) :=
  .ite h (keeps_mramPut (keeps_mramPut (keeps_clearSlot (keeps_clearSlot h))))

/-! ### Power -/

theorem keeps_writeLimit {v} (h : Keeps r s) : Keeps r (writeLimit s v) := h.pwr

theorem keeps_hostDieLost (h : Keeps r s) : Keeps r (hostDieLost s) := by
  unfold hostDieLost
  extract_lets s1
  have hs1 : Keeps r s1 := (report_moves ..).keeps rfl h.host
  exact .ite (keeps_enterFailed hs1) hs1

theorem keeps_dieDomainFails {p} (h : Keeps r s) : Keeps r (dieDomainFails s p) := by
  unfold dieDomainFails
  extract_lets s1
  have hs1 : Keeps r s1 := (report_moves ..).keeps rfl h
  split
  · exact (queueRetire_moves ..).keeps rfl (keeps_powerOff ((stopDie_moves ..).keeps rfl hs1))
  · exact keeps_powerOff hs1

theorem keeps_laserDieFails {e} (h : Keeps r s) : Keeps r (laserDieFails s e) := keeps_clockGone (keeps_updOe h)

theorem runs_execRegulatorOutOfRange {q} : Runs s (execRegulatorOutOfRange q s) := by
  have h := Keeps.refl s
  refine .next ?_
  extract_lets n
  exact .ite (keeps_enterFailed ((report_moves ..).keeps rfl h)) <|
    .ite (keeps_hostDieLost (keeps_powerOff h)) <|
      .ite (.ite (keeps_dieDomainFails h) h) <|
        .ite (keeps_stackLost (keeps_updHub h)) <|
          .ite (keeps_oeLost (keeps_updOe h)) (keeps_laserDieFails (keeps_updOe h))

theorem keeps_refreshShadow (h : Keeps r s) : Keeps r (refreshShadow s) := h.pwr

theorem keeps_holdAfterSave {res done} (h : Keeps r s) : Keeps r (holdAfterSave s res done) := h.upd rfl

theorem keeps_supplyLost {reason} (h : Keeps r s) : Keeps r (supplyLost s reason) := h.upd rfl

theorem runs_execSupplySag {reason} : Runs s (execSupplySag reason s) := by
  have h := Keeps.refl s
  refine .next ?_
  refine .ite h ?_
  refine .ite (keeps_supplyLost h) ?_
  extract_lets x0 _ s1
  have hx0 : Keeps s x0 := keeps_supplyLost (keeps_haltDevice h)
  have hs1 : Keeps s s1 := hx0.pwr
  exact .ite (keeps_holdAfterSave hs1) hs1

theorem keeps_saveFails (h : Keeps r s) : Keeps r (saveFails s) := keeps_holdAfterSave (keeps_mramPut h)

theorem keeps_coldBoot (h : Keeps r s) : Keeps r (coldBoot s) := by
  unfold coldBoot
  extract_lets +onlyGivenNames s1
  have hs1 : Keeps r s1 := keeps_resetDevice h
  exact hs1.tack

/-! ### Heat -/

theorem keeps_setSensor {c x} (h : Keeps r s) : Keeps r (setSensor s c x) := h.therm

theorem keeps_setUnit {q x} (h : Keeps r s) : Keeps r (setUnit s q x) := h.therm

theorem keeps_takeReadings {rs} (h : Keeps r s) : Keeps r (takeReadings s rs) :=
  .fold (fun _ _ h' => .ite (keeps_setSensor h') (keeps_setSensor h')) h

theorem keeps_judgeAll {opens} (h : Keeps r s) : Keeps r (judgeAll s opens) :=
  .fold (fun _ _ h' => .ite h' (.ite (keeps_setSensor h') (keeps_setSensor h'))) h

theorem keeps_reportSuspects {bad} (h : Keeps r s) : Keeps r (reportSuspects s bad) := by
  unfold reportSuspects
  extract_lets s1
  have hs1 : Keeps r s1 := .fold (fun _ _ h' => (report_moves ..).keeps rfl h') h
  exact .ite hs1 ((endCondition_moves ..).keeps rfl hs1)

theorem keeps_updateUnits (h : Keeps r s) : Keeps r (updateUnits s) := by
  unfold updateUnits
  extract_lets s1 s2
  have hs1 : Keeps r s1 := .fold (fun _ _ h' => .ite (keeps_setUnit h') (keeps_setUnit h')) h
  have hs2 : Keeps r s2 := .fold (fun _ _ h' => .ite (keeps_updHub (keeps_setUnit h')) h') hs1
  exact .fold (fun _ _ h' => .ite ((setMv_moves ..).keeps rfl h') h') hs2

theorem keeps_updateThrottle {bad} (h : Keeps r s) : Keeps r (updateThrottle s bad) := by
  unfold updateThrottle
  extract_lets +onlyGivenNames t holds cool
  exact h.therm

theorem keeps_checkPin {c} (h : Keeps r s) : Keeps r (checkPin s c) := by
  unfold checkPin
  extract_lets +onlyGivenNames x high b
  exact .ite h (.ite (.ite h ((report_moves ..).keeps rfl h.therm)) (.ite h.therm h))

theorem keeps_countCool (h : Keeps r s) : Keeps r (countCool s) := .fold (fun _ _ h' => keeps_updOe h') h

theorem keeps_countHot (h : Keeps r s) : Keeps r (countHot s) := .fold (fun _ _ h' => keeps_setSensor h') h

theorem keeps_shutdownRecord {c} (h : Keeps r s) : Keeps r (shutdownRecord s c) :=
  .ite h (keeps_enterFailed ((report_moves ..).keeps rfl h))

theorem keeps_shutDown (h : Keeps r s) : Keeps r (shutDown s) := by
  unfold shutDown
  refine .ite h ?_
  refine .ite (h.upd rfl) ?_
  extract_lets +onlyGivenNames s1
  have hs1 : Keeps r s1 := keeps_haltDevice h
  exact keeps_storeLog (hs1.upd rfl)

theorem runs_execThermalScan {readings opens} : Runs s (execThermalScan readings opens s) := by
  have h := Keeps.refl s
  refine .next ?_
  extract_lets s1 bad s2 s3 s4 s5
  have hs1 : Keeps s s1 := keeps_takeReadings h
  have hs2 : Keeps s s2 := keeps_countHot (keeps_judgeAll hs1)
  have hs3 : Keeps s s3 := by
    simp only [s3]
    split
    · exact keeps_shutdownRecord hs2
    · exact hs2
  have hs4 : Keeps s s4 := keeps_countCool (keeps_updateThrottle (keeps_updateUnits (keeps_reportSuspects hs3)))
  have hs5 : Keeps s s5 := .fold (fun _ _ h' => keeps_checkPin h') hs4
  exact .ite (keeps_shutDown hs5) hs5

/-! ### Faults -/

theorem keeps_respond {x c} (h : Keeps r s) : Keeps r (respond s x c) := by
  unfold respond
  refine .ite (keeps_enterFailed h) ?_
  refine .ite ?_ h
  split
  · exact (queueRetire_moves ..).keeps rfl h
  · exact h

theorem runs_execFaultReport {src cause addr} : Runs s (execFaultReport src cause addr s) := by
  have h := Keeps.refl s
  refine .next ?_
  extract_lets x c
  exact .ite h <|
    .ite (.ite (keeps_hostDieLost h) h) <|
      .ite (.ite (keeps_oeLost h) (keeps_clockGone h)) <|
        .ite (keeps_shutDown (keeps_shutdownRecord h)) (keeps_respond ((reportMet_moves ..).keeps rfl h))

theorem keeps_ackRecord {x v} (h : Keeps r s) : Keeps r (ackRecord s x v) := by
  unfold ackRecord
  extract_lets y0
  exact .ite h (.ite (keeps_setFrec h) (keeps_setFrec h))

theorem keeps_setInjResult {r0} (h : Keeps r s) : Keeps r (setInjResult s r0) := h.flt

theorem keeps_injControl {mode mask} (h : Keeps r s) : Keeps r (injControl s mode mask) := by
  unfold injControl
  extract_lets +onlyGivenNames x chk
  refine .ite ?_ ?_
  · extract_lets +onlyGivenNames m
    exact h.flt
  · refine .ite (keeps_setInjResult h) ?_
    refine .ite (keeps_setInjResult h) ?_
    split
    · exact keeps_setInjResult h
    · extract_lets +onlyGivenNames m
      exact keeps_setInjResult h.flt

theorem keeps_setTestResult {r0} (h : Keeps r s) : Keeps r (setTestResult s r0) := h.flt

theorem keeps_startTest {ok t} {begin : State → State} (h : Keeps r s)
    (hbegin : ∀ a0, Keeps r a0 → Keeps r (begin a0)) : Keeps r (startTest s ok t begin) :=
  .ite (hbegin _ h.flt) (keeps_setTestResult h)

theorem keeps_zeroStack {x} (h : Keeps r s) : Keeps r (zeroStack s x) where
  pending := h.pending
  canon := fun hc => by
    obtain ⟨hms, hrest⟩ := h.canon hc
    exact ⟨tabWf_filter memDefault _ _ hms, hrest⟩

theorem keeps_testedStack {h0} (h : Keeps r s) : Keeps r (testedStack s h0) := keeps_updHub (keeps_zeroStack h)

theorem keeps_testCommand {op target} (h : Keeps r s) : Keeps r (testCommand s op target) := by
  unfold testCommand
  extract_lets n
  split
  · exact keeps_startTest h (fun _ h' => keeps_mangerWipe h')
  · exact keeps_startTest h (fun _ h' => keeps_powerOn (keeps_updSite h'))
  · exact keeps_startTest h (fun _ h' => keeps_testedStack h')
  · exact keeps_setTestResult h

theorem keeps_endTest {pass} (h : Keeps r s) : Keeps r (endTest s pass) := keeps_setTestResult h.flt

theorem keeps_stallTested {t pass} (h : Keeps r s) : Keeps r (stallTested s t pass) := by
  unfold stallTested
  extract_lets s1
  have hs1 : Keeps r s1 := keeps_updStall h
  exact .ite hs1 (keeps_autoRetire hs1)

theorem runs_execTestComplete {pass} : Runs s (execTestComplete pass s) := by
  have h := Keeps.refl s
  refine .next ?_
  split
  · exact h
  · exact keeps_endTest (keeps_stallTested h)
  · exact keeps_endTest (keeps_powerOff (keeps_updSite h))
  · exact keeps_endTest (keeps_testedStack h)

/-! ### Boot, flash and security -/

theorem runs_execColdReset {pin} : Runs s (execColdReset pin s) := by
  have h := Keeps.refl s
  refine .next ?_
  refine .ite (h.upd rfl) ?_
  extract_lets +onlyGivenNames s1
  have hs1 : Keeps s s1 := keeps_resetDevice h
  exact hs1.pins

theorem runs_execColdResetNRelease {mgrSel} : Runs s (execColdResetNRelease mgrSel s) := by
  have h := Keeps.refl s
  refine .next ?_
  refine .ite h ?_
  extract_lets +onlyGivenNames _ s1
  have hs1 : Keeps s s1 := h.pins
  exact .ite hs1 (.ite (keeps_coldBoot hs1) (hs1.upd rfl))

theorem keeps_resetCommand {v} (h : Keeps r s) : Keeps r (resetCommand s v) := .ite (keeps_warmReset h) h

theorem keeps_setStep {n} (h : Keeps r s) : Keeps r (setStep s n) := h.tack

theorem keeps_bootFails {code cause} (h : Keeps r s) : Keeps r (bootFails s code cause) := by
  unfold bootFails
  extract_lets +onlyGivenNames s1
  have hs1 : Keeps r s1 := (report_moves ..).keeps rfl h
  exact hs1.upd rfl

theorem keeps_bootStep1 (h : Keeps r s) : Keeps r (bootStep1 s) := by
  unfold bootStep1
  extract_lets +onlyGivenNames s0
  have hs0 : Keeps r s0 := (setMv_moves ..).keeps rfl h
  exact .ite hs0.tack (.ite hs0 (keeps_setStep hs0.tack))

theorem keeps_setManagerRole {i} (h : Keeps r s) : Keeps r (setManagerRole s i) := .ite h h.sys

theorem keeps_imageRegs {i} (h : Keeps r s) : Keeps r (imageRegs s i) :=
  .tack_pwr (.fold (fun _ _ h' => keeps_updLink h') h)

theorem keeps_writeLogDue (h : Keeps r s) : Keeps r (writeLogDue s) := .ite (keeps_storeLog h.tack) h

theorem keeps_deriveAlias {b} (h : Keeps r s) : Keeps r (deriveAlias s b) := by
  unfold deriveAlias
  extract_lets +onlyGivenNames off id chain
  split
  · extract_lets +onlyGivenNames key
    exact h.tack
  · exact h.tack

theorem keeps_startFirmware {n i} (h : Keeps r s) : Keeps r (startFirmware s n i) := by
  unfold startFirmware
  extract_lets b _ s1 s2 s3 late _ _ _ s4
  have hs1 : Keeps r s1 := h.tack
  have hs2 : Keeps r s2 :=
    keeps_writeLogDue (keeps_applySave (keeps_imageRegs (keeps_setManagerRole (keeps_deriveAlias hs1))))
  have hs3 : Keeps r s3 := keeps_applySparing (.fold (fun _ _ h' => keeps_updOe h') hs2)
  have hs4 : Keeps r s4 := .host_tack (keeps_powerOn hs3)
  exact keeps_refreshShadow (keeps_setStep hs4)

theorem keeps_bootStep2 (h : Keeps r s) : Keeps r (bootStep2 s) := by
  unfold bootStep2
  extract_lets +onlyGivenNames s1
  have hs1 : Keeps r s1 := keeps_checkMramState (keeps_discoverFlash h)
  split
  · exact keeps_startFirmware hs1
  · exact keeps_bootFails (.host_tack (keeps_powerOn hs1))

theorem keeps_loseHost {o} (h : Keeps r s) : Keeps r (loseHost s o) := .ite (keeps_hostDieLost h) h

theorem keeps_fenceFailed {o} (h : Keeps r s) : Keeps r (fenceFailed s o) := .fold (fun _ _ h' => keeps_fenceDie h') h

theorem keeps_bootPower (h : Keeps r s) : Keeps r (bootPower s) := by
  unfold bootPower
  extract_lets ps s1 s2
  have hs1 : Keeps r s1 := keeps_forAll h (fun _ _ h' => keeps_powerOn h')
  have hs2 : Keeps r s2 := keeps_forAll hs1 (fun _ _ h' => keeps_updHub h')
  exact keeps_forAll hs2 (fun _ _ h' => keeps_updOe h')

theorem keeps_measureHold {mv} (h : Keeps r s) : Keeps r (measureHold s mv) := by
  unfold measureHold
  extract_lets +onlyGivenNames _ s1
  have hs1 : Keeps r s1 := h.pwr
  exact .ite ((report_moves ..).keeps rfl hs1.pwr) hs1

theorem keeps_bootStep4 {o} (h : Keeps r s) : Keeps r (bootStep4 s o) :=
  .ite (keeps_bootFails h) <|
    keeps_setStep (keeps_measureHold (keeps_fenceFailed (keeps_bootPower (keeps_loseHost h))))

theorem keeps_failStalls {o} (h : Keeps r s) : Keeps r (failStalls s o) :=
  .fold (fun _ _ h' => keeps_autoRetire (keeps_updStall h')) h

theorem keeps_queueEmpty (h : Keeps r s) : Keeps r (queueEmpty s) := by
  unfold queueEmpty
  extract_lets +onlyGivenNames ds
  exact h.pnet

theorem keeps_trainModules {o} (h : Keeps r s) : Keeps r (trainModules s o) :=
  .fold (fun _ _ h' => .ite (keeps_moduleTrained h') h') (keeps_trainUnits h)

theorem keeps_bootTables (h : Keeps r s) : Keeps r (bootTables s) := by
  unfold bootTables
  extract_lets +onlyGivenNames s1
  have hs1 : Keeps r s1 := keeps_switchTables h
  refine .ite ?_ hs1
  extract_lets +onlyGivenNames w
  exact hs1.pnet

theorem keeps_bootStep5 {o} (h : Keeps r s) : Keeps r (bootStep5 s o) := by
  unfold bootStep5
  refine .ite (keeps_bootFails h) ?_
  extract_lets +onlyGivenNames s1 s2
  have hs1 : Keeps r s1 := keeps_failStalls (keeps_trainModules (keeps_fenceFailed (keeps_loseHost h)))
  have hs2 : Keeps r s2 := .ite (keeps_queueEmpty hs1) hs1
  refine .ite hs2 ?_
  extract_lets ps
  exact keeps_setStep (keeps_bootTables (keeps_forAll hs2 (fun _ _ h' => keeps_updSite h')))

theorem keeps_wipeMemory (h : Keeps r s) : Keeps r (wipeMemory s) := (ms_moves s _ fun _ => rfl).keeps rfl h

theorem keeps_bootHubs {o} (h : Keeps r s) : Keeps r (bootHubs s o) := by
  unfold bootHubs
  extract_lets out s1
  have hs1 : Keeps r s1 := .fold (fun _ _ h' => keeps_updHub h') (keeps_wipeMemory h)
  exact (keepCal_moves ..).keeps rfl hs1

theorem keeps_warmEngine {e} (h : Keeps r s) : Keeps r (warmEngine s e) := by
  unfold warmEngine
  extract_lets +onlyGivenNames o
  refine .ite h ?_
  refine .ite (keeps_oeLost (keeps_updOe h)) ?_
  extract_lets o1 gone
  exact keeps_searchDrops (.fold (fun _ _ h' => (report_moves ..).keeps rfl h') (keeps_setOe h))

theorem keeps_bootStep6 {o} (h : Keeps r s) : Keeps r (bootStep6 s o) := by
  unfold bootStep6
  extract_lets s1
  have hs1 : Keeps r s1 := keeps_bootHubs h
  exact .ite (keeps_bootFails hs1) (keeps_setStep (.fold (fun _ _ h' => keeps_warmEngine h') hs1))

theorem keeps_bootReady (h : Keeps r s) : Keeps r (bootReady s) := by
  unfold bootReady
  extract_lets ms _ _ _ s1
  have hs1 : Keeps r s1 := h.upd rfl
  exact (raiseEvent_moves ..).keeps rfl hs1

theorem runs_execBootStepDone {o} : Runs s (execBootStepDone o s) := by
  have h := Keeps.refl s
  refine .next ?_
  refine .ite h ?_
  split
  · exact keeps_bootStep1 h
  · exact .ite h (keeps_bootStep2 h)
  · exact .ite (keeps_setStep h) h
  · exact keeps_bootStep4 h
  · exact keeps_bootStep5 h
  · exact keeps_bootStep6 h
  · exact .ite (keeps_setStep h) h
  · exact .ite (keeps_setStep h) h
  · exact keeps_bootReady h
  · exact h

theorem keeps_setFlashRes {r0} (h : Keeps r s) : Keeps r (setFlashRes s r0) := h.tack

theorem keeps_startFlash {write target offset} (h : Keeps r s) : Keeps r (startFlash s write target offset) := by
  unfold startFlash
  extract_lets +onlyGivenNames c
  exact h.tack

theorem keeps_flashWriteCmd {target} (h : Keeps r s) : Keeps r (flashWriteCmd s target) :=
  .ite (h.upd rfl) <| .ite (h.upd rfl) <| .ite (h.upd rfl) <| .ite (h.upd rfl) <|
    (flash_moves _ _ (tabWf_tabClear _ _ _ _)).keeps rfl (h.upd rfl)

theorem keeps_flashReadCmd {target offset} (h : Keeps r s) : Keeps r (flashReadCmd s target offset) :=
  .ite (keeps_setFlashRes h) (.ite (keeps_setFlashRes h) (.ite (keeps_setFlashRes h) (keeps_startFlash h)))

theorem keeps_flashCommand {op target offset} (h : Keeps r s) : Keeps r (flashCommand s op target offset) := by
  unfold flashCommand
  split
  · exact keeps_flashWriteCmd h
  · exact keeps_flashReadCmd h
  · exact keeps_setFlashRes h

theorem keeps_finishWrite {c} (h : Keeps r s) : Keeps r (finishWrite s c) := by
  unfold finishWrite
  extract_lets b m _ s1 f1
  have hm : Keeps r m.1 := (readMem_moves ..).keeps rfl h
  have hs1 : Keeps r s1 := (flash_moves m.1 _ (flashStore_wf _ _ _)).keeps rfl hm
  refine .ite (keeps_setFlashRes hm) (.ite (keeps_setFlashRes hs1) (keeps_setFlashRes ?_))
  exact (flash_moves s1 _ fun hf => flashStore_wf _ _ _ (flashStore_wf _ _ _ hf)).keeps rfl hs1

theorem keeps_finishRead {c} (h : Keeps r s) : Keeps r (finishRead s c) := by
  unfold finishRead
  split
  · exact keeps_setFlashRes (keeps_writeMem h)
  · exact keeps_setFlashRes h

theorem runs_execFlashCommandDone {err} : Runs s (execFlashCommandDone err s) := by
  have h := Keeps.refl s
  refine .next ?_
  split
  · exact h
  · refine .ite h ?_
    extract_lets _ s1
    have hs1 : Keeps s s1 := h.tack
    exact .ite (keeps_setFlashRes hs1) (.ite (keeps_finishWrite hs1) (keeps_finishRead hs1))

theorem keeps_setSecRes {r0} (h : Keeps r s) : Keeps r (setSecRes s r0) := h.tack

theorem keeps_newNonce (h : Keeps r s) : Keeps r (newNonce s) := by
  unfold newNonce
  extract_lets +onlyGivenNames _
  exact .tack (keeps_useFree h)

theorem keeps_tokenOk {target key} (h : Keeps r s) : Keeps r (tokenOk s target key).1 := by
  unfold tokenOk
  extract_lets y0 v named
  have hy0 : Keeps r y0.1 := (readMem_moves ..).keeps rfl h
  exact .pair hy0

theorem keeps_withToken {op target key} {pass : State → State} (h : Keeps r s)
    (hpass : ∀ a0, Keeps r a0 → Keeps r (pass a0)) : Keeps r (withToken s op target key pass) := by
  unfold withToken
  refine .ite h.tack ?_
  extract_lets y0
  have hy0 : Keeps r y0.1 := keeps_tokenOk h
  exact .ite (hpass _ (keeps_newNonce hy0)) (keeps_setSecRes (keeps_newNonce hy0))

theorem keeps_advanceLc {target} (h : Keeps r s) : Keeps r (advanceLc s target) := by
  unfold advanceLc
  extract_lets f _ s1
  have hs1 : Keeps r s1 := h.tack
  exact keeps_warmReset (keeps_checkMramState (keeps_setSecRes hs1))

theorem keeps_lcAdvance {target} (h : Keeps r s) : Keeps r (lcAdvance s target) := by
  unfold lcAdvance
  refine .ite (keeps_setSecRes (keeps_newNonce h)) ?_
  split
  · exact keeps_advanceLc (keeps_newNonce h)
  · exact keeps_withToken h (fun _ h' => keeps_advanceLc h')

theorem keeps_debugUnlock (h : Keeps r s) : Keeps r (debugUnlock s) :=
  .ite (keeps_setSecRes (keeps_newNonce h)) (keeps_withToken h (fun _ h' => .tack (keeps_warmReset h')))

theorem keeps_raiseSvn (h : Keeps r s) : Keeps r (raiseSvn s) := by
  unfold raiseSvn
  refine .ite ?_ (keeps_setSecRes h)
  extract_lets +onlyGivenNames f
  exact keeps_setSecRes h.tack

theorem keeps_runSec {op target} (h : Keeps r s) : Keeps r (runSec s op target) := by
  unfold runSec
  split
  · exact keeps_lcAdvance h
  · exact keeps_debugUnlock h
  · exact keeps_raiseSvn h
  · exact keeps_setSecRes h

theorem keeps_secCommand {op target} (h : Keeps r s) : Keeps r (secCommand s op target) :=
  .ite (keeps_setSecRes h) (keeps_runSec h)

theorem keeps_resumeSec (h : Keeps r s) : Keeps r (resumeSec s) := by
  unfold resumeSec
  split
  · exact .ite h (keeps_runSec h.tack)
  · exact h

theorem keeps_answerMessage {req} (h : Keeps r s) : Keeps r (answerMessage s req) := keeps_answer (keeps_useFree h)

theorem runs_execSpdmRequest {req} : Runs s (execSpdmRequest req s) := by
  have h := Keeps.refl s
  refine .next ?_
  refine .ite (keeps_answer h) ?_
  extract_lets _ s0 _ s1
  have hs0 : Keeps s s0 := by
    simp only [s0]
    split
    · exact h.tack
    · exact h
  have hs1 : Keeps s s1 := by
    simp only [s1]
    split
    · exact hs0.host
    · exact hs0
  exact keeps_answerMessage hs1

/-! ### Lanes -/

theorem keeps_leaveDown {l} (h : Keeps r s) : Keeps r (leaveDown s l) :=
  (endCondition_moves ..).keeps rfl (keeps_updLink ((setLinkSt_moves ..).keeps rfl h))

theorem runs_execBeaconDetected {l} : Runs s (execBeaconDetected l s) := by
  have h := Keeps.refl s
  refine .next ?_
  split
  · exact .ite (keeps_leaveDown h) h
  · exact keeps_enterTrain h
  · exact h

theorem runs_execPartnerClockDetected {l} : Runs s (execPartnerClockDetected l s) := by
  have h := Keeps.refl s
  refine .next ?_
  split
  · exact .ite (keeps_leaveDown h) h
  · exact keeps_enterTrain h
  · exact (setLinkSt_moves ..).keeps rfl h
  · exact h

theorem keeps_sweepLanes {l eyes} (h : Keeps r s) : Keeps r (sweepLanes s l eyes) :=
  .fold (fun _ _ h' => keeps_updLane h') h

theorem runs_execTrainComplete {l eyes} : Runs s (execTrainComplete l eyes s) := by
  have h := Keeps.refl s
  refine .next ?_
  extract_lets n k
  exact .ite h <|
    .ite ((setLinkSt_moves ..).keeps rfl (keeps_sweepLanes h)) (.ite (keeps_updLink (keeps_sweepLanes h)) h)

theorem keeps_laneMismatch {l i} (h : Keeps r s) : Keeps r (laneMismatch s l i) := by
  unfold laneMismatch
  extract_lets p s1
  have hs1 : Keeps r s1 := keeps_updLane h
  exact .ite hs1 (keeps_declareMislock hs1)

theorem keeps_partnerMismatch {l i told} (h : Keeps r s) : Keeps r (partnerMismatch s l i told) :=
  .ite (keeps_declareMislock h) h

theorem runs_execWordLock {l i blocks w1 told} : Runs s (execWordLock l i blocks w1 told s) := by
  have h := Keeps.refl s
  refine .next ?_
  extract_lets +onlyGivenNames n k s0
  have hs0 : Keeps s s0 := keeps_partnerMismatch h
  refine .ite hs0 ?_
  extract_lets +onlyGivenNames s1
  have hs1 : Keeps s s1 := keeps_updLane hs0
  refine .ite hs1 ?_
  extract_lets s2
  have hs2 : Keeps s s2 := keeps_updLink hs1
  exact .ite hs2 (keeps_laneMismatch hs2)

theorem keeps_slipLane {l i} (h : Keeps r s) : Keeps r (slipLane s l i) := by
  unfold slipLane
  extract_lets search
  exact keeps_updLane h

theorem keeps_deskewLanes {l w2} (h : Keeps r s) : Keeps r (deskewLanes s l w2) := by
  unfold deskewLanes
  extract_lets sk
  exact .fold (fun _ _ h' => keeps_updLane h') h

theorem keeps_enterExchange {l} (h : Keeps r s) : Keeps r (enterExchange s l) := by
  unfold enterExchange
  extract_lets seed
  exact .ite (keeps_updLink (keeps_useFree h)) <|
    keeps_updLink ((endHold_moves ..).keeps rfl ((setLinkSt_moves ..).keeps rfl (keeps_useFree h)))

theorem runs_execAlignComplete {l w2} : Runs s (execAlignComplete l w2 s) := by
  have h := Keeps.refl s
  refine .next ?_
  extract_lets +onlyGivenNames n
  refine .ite h ?_
  extract_lets s1
  have hs1 : Keeps s s1 := keeps_deskewLanes h
  exact .ite (keeps_enterExchange hs1) (.ite ((enterDown_moves ..).keeps rfl hs1) h)

theorem keeps_holdExchange {l cand} (h : Keeps r s) : Keeps r (holdExchange s l cand) :=
  keeps_updLink ((setLinkSt_moves ..).keeps rfl h)

theorem keeps_noteManager {q} (h : Keeps r s) : Keeps r (noteManager s q) := .ite h.sys h

theorem keeps_versionAt {l v2} (h : Keeps r s) : Keeps r (versionAt s l v2) :=
  .ite ((updRing_moves ..).keeps rfl h) (keeps_updOe ((updRing_moves ..).keeps rfl h))

theorem keeps_acceptMessage {l q ver p} (h : Keeps r s) : Keeps r (acceptMessage s l q ver p) := by
  unfold acceptMessage
  extract_lets k x v2 vcs theirs m tx rx ack s1 s2
  have hs1 : Keeps r s1 := keeps_setLink (keeps_noteManager h)
  have hs2 : Keeps r s2 := keeps_versionAt (keeps_setLl hs1)
  exact .ite ((enterDown_moves ..).keeps rfl hs2) hs2

theorem keeps_takeMessage {l p} (h : Keeps r s) : Keeps r (takeMessage s l p) := by
  unfold takeMessage
  extract_lets +onlyGivenNames k q
  split
  · exact (report_moves ..).keeps rfl ((enterDown_moves ..).keeps rfl h)
  · extract_lets +onlyGivenNames two dup
    refine .ite ?_ ?_
    · refine .ite h ?_
      extract_lets _ s1 s2
      have hs1 : Keeps r s1 := keeps_holdExchange h.sys
      have hs2 : Keeps r s2 := .ite ((report_moves ..).keeps rfl hs1) hs1
      exact .ite ((sendNoticeFor_moves ..).keeps rfl ((report_moves ..).keeps rfl hs2)) hs2
    · refine .ite h ?_
      refine .ite (keeps_acceptMessage h) ?_
      refine .ite ?_ ?_
      · extract_lets s1
        have hs1 : Keeps r s1 := keeps_holdExchange (keeps_updLink h)
        exact (sendNoticeFor_moves ..).keeps rfl ((report_moves ..).keeps rfl hs1)
      · refine .ite (keeps_acceptMessage h) ?_
        extract_lets s1 s2
        have hs1 : Keeps r s1 := keeps_updLink h
        have hs2 : Keeps r s2 := (sendNotice_moves ..).keeps rfl hs1
        exact .ite (keeps_holdExchange hs2) (keeps_acceptMessage (keeps_updLl hs2))

theorem runs_execCapabilityMessage {l fl} : Runs s (execCapabilityMessage l fl s) := by
  have h := Keeps.refl s
  refine .next ?_
  extract_lets +onlyGivenNames n k
  refine .ite (keeps_rxArrive h) ?_
  refine .ite h ?_
  extract_lets x y0
  have hy0 : Keeps s y0.1 := keeps_rxCheck (keeps_setLink h)
  split
  · exact .ite (keeps_takeMessage hy0) hy0
  · exact hy0

theorem runs_execClockLightLost {l} : Runs s (execClockLightLost l s) := by
  have h := Keeps.refl s
  refine .next ?_
  extract_lets +onlyGivenNames e
  refine .ite h ?_
  extract_lets s1
  have hs1 : Keeps s s1 := keeps_holdLink h
  exact .ite (keeps_clockGone hs1) hs1

theorem runs_execLaneFailed {l i} : Runs s (execLaneFailed l i s) := by
  have h := Keeps.refl s
  refine .next ?_
  extract_lets +onlyGivenNames n k w j
  refine .ite h ?_
  extract_lets s1
  have hs1 : Keeps s s1 := (report_moves ..).keeps rfl (keeps_updLane h)
  exact .ite ((startRetrain_moves ..).keeps rfl hs1) (keeps_moveOrDrop (fun _ _ => keeps_receiverLane hs1))

theorem keeps_setLinkResult {l r0} (h : Keeps r s) : Keeps r (setLinkResult s l r0) := keeps_updLink h

theorem keeps_acceptPartner {l} (h : Keeps r s) : Keeps r (acceptPartner s l) := by
  unfold acceptPartner
  extract_lets k
  split
  · refine .ite ?_ (keeps_setLinkResult h)
    extract_lets s1
    have hs1 : Keeps r s1 := keeps_updLl ((endHold_moves ..).keeps rfl (keeps_setLink h))
    exact keeps_setLinkResult hs1
  · exact keeps_setLinkResult h

theorem keeps_linkCommand {l op} (h : Keeps r s) : Keeps r (linkCommand s l op) := by
  unfold linkCommand
  split
  · exact .ite (keeps_setLinkResult ((startRetrain_moves ..).keeps rfl h)) (keeps_setLinkResult h)
  · exact keeps_acceptPartner h
  · exact keeps_setLinkResult h

theorem keeps_writeLinkCtrl {l v} (h : Keeps r s) : Keeps r (writeLinkCtrl s l v) := by
  unfold writeLinkCtrl
  extract_lets was s1
  have hs1 : Keeps r s1 := keeps_updLink h
  exact .ite ((enterDown_moves ..).keeps rfl hs1) hs1

theorem keeps_clearRestarted {l v} (h : Keeps r s) : Keeps r (clearRestarted s l v) := keeps_updLink h

theorem keeps_clearIdMis {l i v} (h : Keeps r s) : Keeps r (clearIdMis s l i v) := keeps_updLane h

theorem keeps_takeLane {l i} (h : Keeps r s) : Keeps r (takeLane s l i).1 := .pair (keeps_updLane h)

theorem runs_execMarker {l i slip w1 w2 frame told} : Runs s (execMarker l i slip w1 w2 frame told s) := by
  have h := Keeps.refl s
  refine .next ?_
  extract_lets n s0 k
  have hs0 : Keeps s s0 := keeps_partnerMismatch h
  refine .ite hs0 ?_
  split
  · exact hs0
  · extract_lets s1
    have hs1 : Keeps s s1 := keeps_updLane hs0
    exact .ite hs1 (keeps_laneMismatch hs1)

theorem keeps_takeLaneSet {l p} (h : Keeps r s) : Keeps r (takeLaneSet s l p) := by
  unfold takeLaneSet
  extract_lets eff _ c s1 x
  have hs1 : Keeps r s1 := (pmuCount_moves ..).keeps rfl h
  exact .ite hs1 (.ite (keeps_updLl (keeps_askRetrain hs1)) (keeps_setLl hs1))

theorem keeps_takeRefuse {l p} (h : Keeps r s) : Keeps r (takeRefuse s l p) := keeps_updLl h

/-! ### Counters -/

theorem keeps_readCount {u n} (h : Keeps r s) : Keeps r (readCount s u n).1 :=
  .ite_fst (.pair (keeps_updPmu h)) (.pair h)

theorem keeps_takeSampleDropped {u} (h : Keeps r s) : Keeps r (takeSampleDropped s u).1 := .pair (keeps_updPmu h)

/-! ### Registers of the dies -/

theorem keeps_readStall {t off} (h : Keeps r s) : Keeps r (readStall s t off).1 := by
  unfold readStall
  extract_lets x
  refine .ite_fst (.pair h) ?_
  split
  · exact .pair h
  · exact .pair h
  · exact .pair h
  · exact keeps_takeWaits h
  · exact keeps_readToken h
  · exact .pair h
  · exact .pair h

theorem keeps_writeStall {t off v} (h : Keeps r s) : Keeps r (writeStall s t off v) := .ite (keeps_clearNum h) h

theorem keeps_writePen {own p off v} (h : Keeps r s) : Keeps r (writePen s own p off v) := by
  unfold writePen
  split
  · exact .ite (keeps_penCommand h) h
  · exact keeps_updPen h
  · exact keeps_updPen h
  · exact keeps_updPen h
  · exact keeps_updPen h

theorem keeps_writeChute {c off v} (h : Keeps r s) : Keeps r (writeChute s c off v) := by
  unfold writeChute
  split
  · exact (changeChute_moves ..).keeps rfl h
  · exact keeps_updChute h
  · exact keeps_updChute h
  · exact (changeChute_moves ..).keeps rfl h
  · exact (changeChute_moves ..).keeps rfl h
  · exact keeps_updChute h
  · exact keeps_updChute h
  · exact h

theorem keeps_vfWriteChute {c off v} (h : Keeps r s) : Keeps r (vfWriteChute s c off v) :=
  .ite (keeps_updChute h) (keeps_writeChute h)

theorem keeps_writeDoorbell {f c off v} (h : Keeps r s) : Keeps r (writeDoorbell s f c off v) := by
  unfold writeDoorbell
  extract_lets +onlyGivenNames d
  refine .ite ?_ (.ite (keeps_doorbellGo h) h)
  extract_lets old
  exact keeps_setDoorbell h

theorem keeps_readDie {d off} (h : Keeps r s) : Keeps r (readDie s d off).1 :=
  .ite_fst (keeps_readStall h) (.ite_fst (.pair h) (.ite_fst (keeps_takeAbortLines h) (.ite_fst (.pair h) (.pair h))))

theorem keeps_writeDie {f d off v} (h : Keeps r s) : Keeps r (writeDie s f d off v) :=
  .ite (keeps_writeStall h) (.ite (keeps_setChuteDie h) (.ite (keeps_writeDoorbell h) h))

theorem keeps_readHub {h0 off} (h : Keeps r s) : Keeps r (readHub s h0 off).1 := by
  unfold readHub
  extract_lets x
  split
  · exact .pair h
  · exact .pair h
  · exact .pair h
  · exact .pair h
  · exact .pair h
  · exact keeps_takeCe h
  · exact keeps_takeUc h
  · exact .pair h
  · exact .pair h
  · exact .pair h

theorem keeps_writeHub {h0 off v} (h : Keeps r s) : Keeps r (writeHub s h0 off v) := .ite (keeps_writeMhCtrl h) h

theorem keeps_writePnet {off v} (h : Keeps r s) : Keeps r (writePnet s off v) := by
  unfold writePnet
  split
  · exact h.pnet
  · exact keeps_pnetCommand h
  · exact h

theorem keeps_readCntReg {u off} (h : Keeps r s) : Keeps r (readCntReg s u off).1 :=
  .ite_fst (keeps_readCount h) (.pair h)

theorem keeps_readSample {u off} (h : Keeps r s) : Keeps r (readSample s u off).1 := by
  unfold readSample
  extract_lets p
  split
  · exact .pair h
  · exact .pair h
  · exact .pair h
  · exact keeps_takeSampleDropped h
  · exact .ite_fst (.pair h) (.pair h)

theorem keeps_readPmu {u off} (h : Keeps r s) : Keeps r (readPmu s u off).1 := by
  unfold readPmu
  extract_lets p
  exact .ite_fst (.ite_fst (.pair h) (.ite_fst (.pair h) (.ite_fst (keeps_readCntReg h) (.pair h)))) <|
    .ite_fst (.pair h) <|
      .ite_fst (.pair h) <|
        .ite_fst (keeps_readCntReg h) (.ite_fst (.pair h) (.ite_fst (keeps_readSample h) (.pair h)))

theorem keeps_writePmu {u off v} (h : Keeps r s) : Keeps r (writePmu s u off v) := by
  unfold writePmu
  extract_lets n
  exact .ite (keeps_updPmu h) <|
    .ite (keeps_updPmu h) <|
      .ite (keeps_updPmu h) (.ite (keeps_updPmu h) (.ite (keeps_updPmu h) (.ite (keeps_updPmu h) h)))

/-! ### Registers of the links -/

theorem keeps_writeOe {e off v} (h : Keeps r s) : Keeps r (writeOe s e off v) :=
  .ite (keeps_updOe h) <|
    .ite (keeps_oeCommand h) <|
      .ite (.ite (keeps_clearAgeWarn h) h) (.ite (keeps_clearMislock h) (.ite (keeps_updOe h) h))

theorem keeps_readLl {l off} (h : Keeps r s) : Keeps r (readLl s l off).1 := by
  unfold readLl
  extract_lets x
  split
  · exact .pair h
  · exact .pair h
  · exact .pair h
  · exact .pair h
  · exact .pair h
  · exact .pair h
  · exact .pair h
  · exact .pair h
  · exact .pair h
  · exact .pair h
  · exact keeps_takeCounter h
  · exact keeps_takeCounter h
  · exact keeps_takeCounter h
  · exact keeps_takeCounter h
  · exact keeps_takeCounter h
  · exact keeps_takeCounter h
  · exact .pair h

theorem keeps_writeLl {l off v} (h : Keeps r s) : Keeps r (writeLl s l off v) := by
  unfold writeLl
  split
  · extract_lets s1
    have hs1 : Keeps r s1 := keeps_updLl h
    exact .ite ((startRetrain_moves ..).keeps rfl hs1) hs1
  · exact keeps_updLl h
  · exact keeps_llCommand h
  · exact keeps_updLl h
  · exact h

theorem keeps_readLane {l off} (h : Keeps r s) : Keeps r (readLane s l off).1 := by
  unfold readLane
  extract_lets k y
  exact .ite_fst (keeps_takeLane h) (.ite_fst (.pair h) (.pair h))

theorem keeps_readLink {l off} (h : Keeps r s) : Keeps r (readLink s l off).1 := by
  unfold readLink
  extract_lets k
  refine .ite_fst (keeps_readLl h) ?_
  refine .ite_fst (.ite_fst (keeps_readLane h) (.pair h)) ?_
  split
  · exact .pair h
  · exact .pair h
  · exact .pair h
  · exact .pair h
  · exact .pair h
  · exact .pair h
  · exact .pair h
  · exact .pair h
  · exact .pair h
  · exact .pair h

theorem keeps_writeLink {l off v} (h : Keeps r s) : Keeps r (writeLink s l off v) :=
  .ite (keeps_writeLl h) <|
    .ite (keeps_clearRestarted h) <|
      .ite (keeps_writeLinkCtrl h) <|
        .ite (keeps_linkCommand h) (.ite (keeps_clearIdMis h) (.ite (.ite (keeps_slipLane h) h) h))

/-! ### Functions and DMA -/

theorem keeps_setFnResult {n code} (h : Keeps r s) : Keeps r (setFnResult s n code) := keeps_updFn h

theorem keeps_enableVf {n} (h : Keeps r s) : Keeps r (enableVf s n) := by
  unfold enableVf
  refine .ite ?_ (keeps_setFnResult h)
  extract_lets f s1
  have hs1 : Keeps r s1 := keeps_updFn ((setFuncs_moves ..).keeps rfl h)
  exact (raiseEvent_moves ..).keeps rfl hs1

theorem keeps_beginDisable {n} (h : Keeps r s) : Keeps r (beginDisable s n) := by
  unfold beginDisable
  extract_lets s1 ps s2
  have hs1 : Keeps r s1 := keeps_updFn h
  have hs2 : Keeps r s2 := keeps_forAll hs1 (fun _ _ h' => keeps_penStop h')
  exact keeps_forAll hs2 (fun _ _ h' => keeps_updChute h')

theorem keeps_abandonDma {c} (h : Keeps r s) : Keeps r (abandonDma s c) :=
  .ite h (keeps_updDma ((abortSource_moves ..).keeps rfl h))

theorem keeps_abortFunction {n} (h : Keeps r s) : Keeps r (abortFunction s n) := by
  unfold abortFunction
  extract_lets s1 s2
  have hs1 : Keeps r s1 := keeps_forAll h (fun _ _ h' => keeps_penStopped h')
  have hs2 : Keeps r s2 := keeps_forAll hs1 (fun _ _ h' => (disableAbort_moves ..).keeps rfl h')
  exact keeps_forAll hs2 (fun _ _ h' => keeps_abandonDma h')

theorem keeps_endDisable {n} (h : Keeps r s) : Keeps r (endDisable s n) := by
  unfold endDisable
  extract_lets cs ks s1 s2 s3
  have hs1 : Keeps r s1 := keeps_forAll h (fun _ _ h' => (giveBack_moves ..).keeps rfl (keeps_setResult h'))
  have hs2 : Keeps r s2 := keeps_forAll hs1 (fun _ _ h' => keeps_updChute h')
  have hs3 : Keeps r s3 := keeps_forAll hs2 (fun _ _ h' => keeps_updDma h')
  exact (raiseEvent_moves ..).keeps rfl (keeps_updFn hs3)

theorem keeps_disableNow {n} (h : Keeps r s) : Keeps r (disableNow s n) :=
  keeps_endDisable (keeps_abortFunction (.ite h (keeps_beginDisable h)))

theorem keeps_disableAll (h : Keeps r s) : Keeps r (disableAll s) :=
  keeps_forAll h (fun _ _ h' => .ite h' (keeps_beginDisable h'))

theorem keeps_disableAllNow (h : Keeps r s) : Keeps r (disableAllNow s) :=
  keeps_forAll (keeps_disableAll h) (fun _ _ h' => keeps_endDisable (keeps_abortFunction h'))

theorem keeps_dmaEnds {c d status done} (h : Keeps r s) : Keeps r (dmaEnds s c d status done) := keeps_updDma h

theorem keeps_dmaStart {c d op run} (h : Keeps r s) (hrun : Keeps r run) : Keeps r (dmaStart s c d op run) :=
  .ite h (.ite (.ite (h.upd rfl) hrun) h)

theorem keeps_dmaWait {c d ws} (h : Keeps r s) : Keeps r (dmaWait s c d ws) := keeps_updDma h

theorem keeps_dmaH2d {c d data} (h : Keeps r s) : Keeps r (dmaH2d s c d data) := by
  unfold dmaH2d
  extract_lets +onlyGivenNames n
  refine .ite ?_ (keeps_dmaEnds h)
  refine .ite (keeps_dmaWait h) ?_
  extract_lets s1
  have hs1 : Keeps r s1 := .fold (fun _ _ h' => keeps_writeLine h') h
  exact keeps_dmaEnds ((pmuCount_moves ..).keeps rfl hs1)

theorem keeps_dmaLinesOut {f a h0 n} (h : Keeps r s) : Keeps r (dmaLinesOut s f a h0 n).1 := by
  induction n generalizing s a h0 with
  | zero => exact h
  | succ n ih =>
    have hx : Keeps r (readLine s a 0).st := (readLine_moves ..).keeps rfl h
    rw [dmaLinesOut]
    exact .ite_fst (.pair ((report_moves ..).keeps rfl hx)) (.pair (ih ((hostStore_moves ..).keeps rfl hx)))

theorem keeps_dmaD2h {c d} (h : Keeps r s) : Keeps r (dmaD2h s c d) := by
  unfold dmaD2h
  refine .ite ?_ (keeps_dmaEnds h)
  refine .ite (keeps_dmaWait h) ?_
  extract_lets y0
  have hy0 : Keeps r y0.1 := keeps_dmaLinesOut h
  exact keeps_dmaEnds ((pmuCount_moves ..).keeps rfl hy0)

theorem keeps_dmaRemote {src ca data len} (h : Keeps r s) : Keeps r (dmaRemote s src ca data len) := by
  unfold dmaRemote
  extract_lets n
  exact .fold (fun _ _ h' => (sendRemote_moves ..).keeps rfl h') h

theorem keeps_dmaH2c {c d data} (h : Keeps r s) : Keeps r (dmaH2c s c d data) := by
  unfold dmaH2c
  extract_lets src ca k moved
  have hmoved : Keeps r moved := (pmuCount_moves ..).keeps rfl h
  exact .ite
    (.ite (keeps_dmaEnds (keeps_refuseChute h)) <|
       .ite (keeps_dmaEnds (keeps_refuseChute h)) (keeps_dmaEnds (keeps_offerWords hmoved)))
    (.ite (keeps_dmaEnds (keeps_dmaRemote hmoved)) (keeps_dmaWait h))

theorem keeps_takePacket {k n} (h : Keeps r s) : Keeps r (takePacket s k n).1 := by
  induction n generalizing s with
  | zero => exact h
  | succ n ih =>
    rw [takePacket]
    extract_lets x s1 q
    have hx : Keeps r x.st := keeps_chuteRead h
    have hs1 : Keeps r s1 := .ite ((changeChute_moves ..).keeps rfl hx) hx
    exact .ite_fst h (.ite_fst (.pair ((changeChute_moves ..).keeps rfl hs1)) (.pair (ih hs1)))

theorem keeps_dmaConsume {c d} (h : Keeps r s) : Keeps r (dmaConsume s c d) := by
  unfold dmaConsume
  extract_lets +onlyGivenNames k
  refine .ite (keeps_dmaWait h) ?_
  extract_lets y0 bs s1
  have hy0 : Keeps r y0.1 := keeps_takePacket h
  have hs1 : Keeps r s1 := (hostStore_moves ..).keeps rfl hy0
  exact keeps_dmaEnds ((pmuCount_moves ..).keeps rfl hs1)

theorem keeps_dmaC2h {c d} (h : Keeps r s) : Keeps r (dmaC2h s c d) := by
  unfold dmaC2h
  extract_lets k
  exact .ite (keeps_dmaConsume h) (.ite (keeps_dmaEnds (keeps_refuseChute h)) (keeps_dmaEnds h))

theorem keeps_dmaRetry {c} (h : Keeps r s) : Keeps r (dmaRetry s c) := by
  unfold dmaRetry
  split
  · refine .ite h ?_
    refine .ite (keeps_dmaH2d h) ?_
    refine .ite (keeps_dmaD2h h) ?_
    refine .ite (keeps_dmaConsume h) ?_
    extract_lets +onlyGivenNames ca
    refine .ite ?_ h
    extract_lets s1
    have hs1 : Keeps r s1 := (pmuCount_moves ..).keeps rfl h
    exact keeps_dmaEnds (keeps_dmaRemote hs1)
  · exact h

theorem keeps_dmaFinish {c x} (h : Keeps r s) : Keeps r (dmaFinish s c x) := by
  unfold dmaFinish
  extract_lets d n quiet out s1 s2
  have hout : Keeps r out := (hostStore_moves ..).keeps rfl ((hostStore_moves ..).keeps rfl h)
  have hs1 : Keeps r s1 := (pmuCount_moves ..).keeps rfl (.ite h hout)
  have hs2 : Keeps r s2 := keeps_setDma hs1
  exact .ite ((raiseEvent_moves ..).keeps rfl hs2) hs2

/-! ### The host interface -/

theorem runs_execPcieLinkUp {gts width cxlPartner} : Runs s (execPcieLinkUp gts width cxlPartner s) := by
  have h := Keeps.refl s
  refine .next ?_
  refine .ite h ?_
  extract_lets offers cxl _ s1
  have hs1 : Keeps s s1 := h.host
  exact .fold (fun _ _ h' => (flushLost_moves ..).keeps rfl h') hs1

theorem keeps_portDown (h : Keeps r s) : Keeps r (portDown s) := h.host

theorem runs_execPerstN {level} : Runs s (execPerstN level s) := by
  have h := Keeps.refl s
  refine .next ?_
  extract_lets fell _ s1
  have hs1 : Keeps s s1 := h.pins
  exact .ite hs1 <|
    .ite (keeps_forAll (keeps_portDown hs1) (fun _ _ h' => keeps_disableNow h')) <|
      .ite (keeps_warmReset hs1) (keeps_disableAllNow (keeps_portDown hs1))

theorem runs_execConfigRequest {f reg wr} : Runs s (execConfigRequest f reg wr s) := by
  have h := Keeps.refl s
  refine .next ?_
  refine .ite (keeps_answer h) ?_
  refine .ite (keeps_answer h) ?_
  split
  · exact keeps_answer h
  · exact keeps_answer (keeps_useFree h)

theorem keeps_bar4 {f off n} {k : State → State} (h : Keeps r s) (hk : ∀ a0, Keeps r a0 → Keeps r (k a0)) :
    Keeps r (bar4 s f off n k) := by
  unfold bar4
  extract_lets a
  exact .ite (keeps_answer h) (.ite (keeps_answer h) (.ite (keeps_answer (.ite (keeps_addressFault h) h)) (hk _ h)))

theorem keeps_cxlMem {a} {k : State → State} (h : Keeps r s) (hk : ∀ a0, Keeps r a0 → Keeps r (k a0)) :
    Keeps r (cxlMem s a k) := .ite h (.ite (keeps_answer h) (.ite (keeps_answer (keeps_addressFault h)) (hk _ h)))

theorem runs_execVfEnableSet : Runs s (execVfEnableSet s) := by
  have h := Keeps.refl s
  refine .next ?_
  extract_lets +onlyGivenNames sriov
  refine .ite h ?_
  extract_lets _ s1
  have hs1 : Keeps s s1 := h.host
  exact keeps_forAll hs1 (fun _ _ h' => .ite (keeps_enableVf h') h')

theorem runs_execVfEnableClear : Runs s (execVfEnableClear s) := by
  have h := Keeps.refl s
  refine .next ?_
  refine .ite h ?_
  extract_lets _ s1
  have hs1 : Keeps s s1 := h.host
  exact keeps_forAll hs1 (fun _ _ h' => keeps_beginDisable h')

theorem keeps_fnEnable {n} (h : Keeps r s) : Keeps r (fnEnable s n) := .ite (keeps_enableVf h) (keeps_setFnResult h)

theorem keeps_fnDisable {n} (h : Keeps r s) : Keeps r (fnDisable s n) :=
  .ite (keeps_beginDisable h) (keeps_setFnResult h)

theorem keeps_fnWipe {n} (h : Keeps r s) : Keeps r (fnWipe s n) :=
  .ite (keeps_setFnResult h) (.ite (keeps_updFn h) (keeps_setFnResult h))

theorem keeps_fnCommand {n cmd} (h : Keeps r s) : Keeps r (fnCommand s n cmd) := by
  unfold fnCommand
  split
  · exact h
  · exact keeps_fnEnable h
  · exact keeps_fnDisable h
  · exact keeps_fnWipe h
  · exact keeps_setFnResult h

theorem runs_execWipeDone {n} : Runs s (execWipeDone n s) := by
  have h := Keeps.refl s
  refine .next ?_
  split
  · exact .ite h (keeps_updFn ((zeroRange_moves ..).keeps rfl h))
  · exact h

theorem runs_execDmaDescriptorComplete {c} : Runs s (execDmaDescriptorComplete c s) := by
  have h := Keeps.refl s
  refine .next ?_
  extract_lets s1
  have hs1 : Keeps s s1 := keeps_dmaRetry h
  split
  · exact .ite hs1 (keeps_dmaFinish hs1)
  · exact hs1

theorem keeps_writeHead {n v} (h : Keeps r s) : Keeps r (writeHead s n v) := by
  unfold writeHead
  extract_lets x
  exact .ite ((flushLost_moves ..).keeps rfl (keeps_setFn h)) h

theorem keeps_takeEvqStatus {n} (h : Keeps r s) : Keeps r (takeEvqStatus s n).1 := .pair (keeps_updFn h)

theorem keeps_takeDenied (h : Keeps r s) : Keeps r (takeDenied s).1 := .pair h.host

/-! ### Registers of the system -/

theorem keeps_takeSysStatus (h : Keeps r s) : Keeps r (takeSysStatus s).1 := .pair h.sys

theorem keeps_clearSysStatus {v} (h : Keeps r s) : Keeps r (clearSysStatus s v) := h.sys

theorem keeps_readSys {off} (h : Keeps r s) : Keeps r (readSys s off).1 := by
  unfold readSys
  extract_lets y
  exact .ite_fst (.pair h) (.ite_fst (.pair h) (.ite_fst (keeps_takeSysStatus h) (.ite_fst (.pair h) (.pair h))))

theorem keeps_writeSys {off v} (h : Keeps r s) : Keeps r (writeSys s off v) := by
  unfold writeSys
  refine .ite h.sys ?_
  refine .ite (keeps_clearSysStatus h) ?_
  refine .ite ?_ h
  extract_lets +onlyGivenNames p
  exact keeps_setPeer h

theorem keeps_pfChutes (h : Keeps r s) : Keeps r (pfChutes s).1 := by
  rw [pfChutes]
  split
  · exact .pair (keeps_useFree h)
  · exact .ite_fst (.pair h) (.pair (keeps_useFree h))

theorem keeps_readPfGrant {off} (h : Keeps r s) : Keeps r (readPfGrant s off).1 := by
  unfold readPfGrant
  split
  · exact .pair h
  · exact .pair h
  · exact keeps_pfChutes h
  · exact .pair h
  · exact .pair h
  · exact .pair h
  · exact .pair h

theorem keeps_readFn {n off} (h : Keeps r s) : Keeps r (readFn s n off).1 := by
  unfold readFn
  extract_lets x
  refine .ite_fst (.pair h) ?_
  refine .ite_fst (.ite_fst (keeps_readPfGrant h) (.pair h)) ?_
  split
  · exact .pair h
  · exact .pair h
  · exact .pair h
  · exact .pair h
  · exact .pair h
  · exact .pair h
  · exact keeps_takeEvqStatus h

theorem keeps_writeGrantReg {n off v} (h : Keeps r s) : Keeps r (writeGrantReg s n off v) :=
  .ite h (.ite (keeps_updFn h) (keeps_setFnResult h))

theorem keeps_writeFn {n off v} (h : Keeps r s) : Keeps r (writeFn s n off v) := by
  unfold writeFn
  refine .ite (keeps_fnCommand h) ?_
  refine .ite (keeps_writeGrantReg h) ?_
  split
  · exact keeps_updFn h
  · exact keeps_updFn h
  · exact keeps_updFn h
  · exact (flushLost_moves ..).keeps rfl (keeps_updFn h)
  · exact keeps_writeHead h
  · exact keeps_updFn h
  · exact h

theorem keeps_writeDma {c off v} (h : Keeps r s) : Keeps r (writeDma s c off v) := keeps_updDma h

theorem keeps_readHost {off} (h : Keeps r s) : Keeps r (readHost s off).1 :=
  .ite_fst (.pair h) (.ite_fst (keeps_takeDenied h) (.ite_fst (keeps_readFn h) (.ite_fst (.pair h) (.pair h))))

theorem keeps_writeHost {off v} (h : Keeps r s) : Keeps r (writeHost s off v) :=
  .ite (keeps_writeFn h) (.ite (keeps_writeDma h) h)

theorem keeps_writeTack {off v} (h : Keeps r s) : Keeps r (writeTack s off v) := by
  unfold writeTack
  split
  · exact keeps_resetCommand h
  · exact h.tack
  · exact h.tack
  · exact h.tack
  · exact h.tack
  · exact keeps_flashCommand h
  · exact h

theorem keeps_writeSec {off v} (h : Keeps r s) : Keeps r (writeSec s off v) := by
  unfold writeSec
  split
  · exact keeps_secCommand h
  · exact h.tack
  · exact h.tack
  · exact h

theorem keeps_writeBucket {b v} (h : Keeps r s) : Keeps r (writeBucket s b v) := by
  unfold writeBucket
  extract_lets +onlyGivenNames x
  exact h.flt

theorem keeps_beat (h : Keeps r s) : Keeps r (beat s) := h.flt

theorem keeps_writeFault {off v} (h : Keeps r s) : Keeps r (writeFault s off v) := by
  unfold writeFault
  refine .ite h ?_
  refine .ite (.ite (keeps_ackRecord h) h) ?_
  refine .ite (keeps_writeBucket h) ?_
  split
  · exact keeps_beat h
  · exact h.flt
  · exact keeps_injControl h
  · exact keeps_testCommand h
  · exact h

theorem keeps_writeTherm {off v} (h : Keeps r s) : Keeps r (writeTherm s off v) := .ite h.therm (.ite h.therm h)

theorem keeps_writePwr {off v} (h : Keeps r s) : Keeps r (writePwr s off v) := .ite (keeps_writeLimit h) h

/-! ### Control -/

theorem keeps_readReg {off} (h : Keeps r s) : Keeps r (readReg s off).1 := by
  unfold readReg
  extract_lets o
  split
  · exact .pair h
  · exact keeps_readSys h
  · exact .pair h
  · exact .pair h
  · exact .pair h
  · exact keeps_readHost h
  · exact .pair h
  · exact .pair h
  · exact .pair h
  · exact .pair h
  · exact .pair h
  · exact keeps_readPmu h
  · exact .pair h
  · exact keeps_readDie h
  · exact .pair h
  · exact keeps_readLink h
  · exact keeps_readHub h

theorem keeps_writeReg {f mgr off v} (h : Keeps r s) : Keeps r (writeReg s f mgr off v) := by
  unfold writeReg
  extract_lets o
  split
  · exact keeps_writeTack h
  · exact keeps_writeSys h
  · exact keeps_writeFault h
  · exact keeps_writeTherm h
  · exact keeps_writePwr h
  · exact keeps_writeHost h
  · exact keeps_writeSec h
  · exact keeps_writePnet h
  · exact h
  · exact keeps_writePen h
  · exact h
  · exact keeps_writePmu h
  · exact .ite (keeps_writeChute h) (keeps_vfWriteChute h)
  · exact keeps_writeDie h
  · exact keeps_writeOe h
  · exact keeps_writeLink h
  · exact keeps_writeHub h

theorem keeps_barGate {f own off} {k : State → State} (h : Keeps r s) (hk : ∀ a0, Keeps r a0 → Keeps r (k a0)) :
    Keeps r (barGate s f own off k) :=
  .ite (keeps_coreAccess h (fun _ h' => hk _ h')) (keeps_barAccess h (fun _ h' => hk _ h'))

theorem keeps_barWrite {f off v} (h : Keeps r s) : Keeps r (barWrite s f off v) :=
  keeps_barGate h (fun _ h' => keeps_answer (keeps_writeReg h'))

theorem keeps_barRead {f off} (h : Keeps r s) : Keeps r (barRead s f off) :=
  keeps_barGate h (fun _ h' => keeps_answerRead (keeps_readReg h'))

theorem keeps_barWord {f off data i} (h : Keeps r s) : Keeps r (barWord s f off data i) := by
  unfold barWord
  split
  · exact keeps_barWrite h
  · exact keeps_barRead h

theorem keeps_barSized {f off size data} (h : Keeps r s) : Keeps r (barSized s f off size data) := by
  unfold barSized
  refine .ite (keeps_barWord h) ?_
  refine .ite ?_ (.ite (keeps_answer h) (keeps_answer h))
  extract_lets lo hi
  have hlo : Keeps r lo := keeps_barWord h
  have hhi : Keeps r hi := keeps_barWord hlo
  exact keeps_answer hhi

/-! ### Sinks and the engine -/

theorem keeps_sinkWrite {g seg off bs pass poison t} (h : Keeps r s)
    (e : sinkWrite s g seg off bs pass poison = some t) : Keeps r t := by
  unfold sinkWrite at e
  split at e
  · exact Option.some.inj e ▸ keeps_writeMem h
  · exact nomatch e

theorem keeps_sinkTake {n p o mx c l t} (h : Keeps r s) (e : sinkTake s n p o mx c l = some t) : Keeps r t := by
  dsimp only [sinkTake] at e
  split at e
  · exact Option.some.inj e ▸ keeps_setSink h
  · split at e
    · exact nomatch e
    · next s1 e1 =>
      have h1 : Keeps r s1 := keeps_sinkWrite h e1
      split at e
      · exact Option.some.inj e ▸ keeps_setSink h1
      · split at e
        · split at e
          · exact nomatch e
          · next s2 e2 => exact Option.some.inj e ▸ keeps_setSink (keeps_sinkWrite h1 e2)
        · exact Option.some.inj e ▸ keeps_setSink h1

theorem runs_execSinkLine {t port} : Runs s (execSinkLine t port s) := by
  have h := Keeps.refl s
  refine .next ?_
  split
  · extract_lets +onlyGivenNames k
    refine .ite h ?_
    split
    · extract_lets c s0
      have hs0 : Keeps s s0 := keeps_setSink h.strq
      split
      · next e => exact keeps_sinkTake hs0 e
      · exact keeps_grantFault h.strq
    · exact h
  · exact h

theorem runs_execSinkPassNotice {t port} : Runs s (execSinkPassNotice t port s) := by
  have h := Keeps.refl s
  refine .next ?_
  extract_lets +onlyGivenNames key k
  split
  · split
    · extract_lets +onlyGivenNames c src
      refine .ite h ?_
      extract_lets +onlyGivenNames line
      refine .ite ?_ ((sendRemote_moves ..).keeps rfl (keeps_setSink h))
      extract_lets ch s1
      have hs1 : Keeps s s1 := keeps_offerWords h
      exact keeps_setSink hs1
    · exact h
  · exact h

theorem keeps_eatPacket {c n} (h : Keeps r s) : Keeps r (eatPacket s c n).1 := by
  induction n generalizing s with
  | zero => exact h
  | succ n ih =>
    have hx : Keeps r (chuteRead s c).st := keeps_chuteRead h
    rw [eatPacket]
    exact .ite_fst h (.ite_fst (.pair ((changeChute_moves ..).keeps rfl hx)) (.pair (ih hx)))

theorem runs_execEngineTriggerPacket {c} : Runs s (execEngineTriggerPacket c s) := by
  have h := Keeps.refl s
  refine .next ?_
  split
  · refine .ite h ?_
    have hp : Keeps s (eatPacket s c.toNat (2 ^ 20)).1 := keeps_eatPacket h
    split
    · next e =>
      rw [e] at hp
      exact .fold (fun _ _ h' => .ite ((countTrigger_moves ..).keeps rfl h') h') hp
    · exact h
  · exact h

theorem keeps_droveCheck {p i pl} (h : Keeps r s) : Keeps r (droveCheck s p i pl) := by
  unfold droveCheck
  extract_lets run mine
  exact .ite ((finishPlan_moves ..).keeps rfl h) h

theorem keeps_sendMaxima {p i pl} (h : Keeps r s) : Keeps r (sendMaxima s p i pl) := by
  unfold sendMaxima
  extract_lets run addr go s1
  have hs1 : Keeps r s1 := keeps_updPen h
  exact .fold (fun _ _ h' => (sendRemote_moves ..).keeps rfl h') hs1

theorem keeps_droveGoesOn {p i pl} (h : Keeps r s) : Keeps r (droveGoesOn s p i pl) :=
  keeps_droveCheck (keeps_sendMaxima h)

theorem runs_execPlanRun : Runs s (execPlanRun s) := by
  have h := Keeps.refl s
  refine .next ?_
  split
  · exact .ite (keeps_droveGoesOn h) h
  · refine .ite h ?_
    split
    · exact h
    · extract_lets +onlyGivenNames p x s0
      have hs0 : Keeps s s0 := h.ready
      split
      · exact hs0
      · extract_lets +onlyGivenNames run
        refine .ite h ?_
        extract_lets y0 e pois
        have hy0 : Keeps s y0.1 := (readLines_moves ..).keeps rfl hs0
        exact .ite ((finishPlan_moves ..).keeps rfl hy0) (keeps_droveGoesOn (keeps_updPen hy0))

theorem runs_execDroveMax {c} : Runs s (execDroveMax c s) := by
  have h := Keeps.refl s
  refine .next (.ite h ?_)
  have hp : Keeps s (eatPacket s c.toNat (2 ^ 20)).1 := keeps_eatPacket h
  split
  · exact h
  · next e =>
    rw [e] at hp
    extract_lets +onlyGivenNames src
    refine .ite hp ?_
    split
    · exact hp
    · exact keeps_droveGoesOn (keeps_updPen hp)

/-! ### Remote packets -/

theorem keeps_reportOutcome {c src} (h : Keeps r s) : Keeps r (reportOutcome s c src) :=
  (statusOut_moves ..).keeps rfl h

theorem keeps_openRemotePacket {c src} (h : Keeps r s) : Keeps r (openRemotePacket s c src) := by
  unfold openRemotePacket
  extract_lets x y z
  exact .ite
    ((marks_moves ..).keeps rfl <|
       (noteRemote_moves ..).keeps rfl <|
         keeps_setChute ((statusOut_moves ..).keeps rfl ((chuteEvent_moves ..).keeps rfl h)))
    ((noteRemote_moves ..).keeps rfl (keeps_setChute h))

theorem runs_execRemoteOpen {l vc} : Runs s (execRemoteOpen l vc s) := by
  have h := Keeps.refl s
  refine .next ?_
  extract_lets n v
  split
  · exact h
  · extract_lets +onlyGivenNames chute src c
    refine .ite ?_ ?_
    · extract_lets +onlyGivenNames x
      refine .ite
        ((popRx_moves ..).keeps rfl <|
           (setRxPkt_moves ..).keeps rfl (keeps_sendStatus (keeps_refuseChute (keeps_leaveOrder h))))
        ?_
      refine .ite (keeps_queueFirst h) ?_
      extract_lets s1
      have hs1 : Keeps s s1 := keeps_updChute (keeps_openRemotePacket h)
      exact (popRx_moves ..).keeps rfl ((setRxPkt_moves ..).keeps rfl hs1)
    · refine .ite ?_ ?_
      · split
        · refine .ite h ?_
          extract_lets s1
          have hs1 : Keeps s s1 := (pmuCount_moves ..).keeps rfl (keeps_forwardOpen h)
          exact (popRx_moves ..).keeps rfl ((setRxPkt_moves ..).keeps rfl hs1)
        · exact h
      · extract_lets s1
        have hs1 : Keeps s s1 := (sendCtrl0_moves ..).keeps rfl h
        exact (popRx_moves ..).keeps rfl ((setRxPkt_moves ..).keeps rfl hs1)

theorem keeps_applyRemoteLine {c src payload t} (h : Keeps r s) (e : applyRemoteLine s c src payload = some t) :
    Keeps r t := by
  unfold applyRemoteLine at e
  extract_lets before y0 own ended stray at e
  have hy0 : Keeps r y0.1 := keeps_pushLine h
  split at e
  · exact nomatch e
  · exact Option.some.inj e ▸ .ite (keeps_reportOutcome hy0) hy0

theorem runs_execRemoteData {l vc} : Runs s (execRemoteData l vc s) := by
  have h := Keeps.refl s
  refine .next ?_
  extract_lets n v
  split
  · exact h
  · refine .ite h ?_
    split
    · exact (popRx_moves ..).keeps rfl h
    · refine .ite ((popRx_moves ..).keeps rfl h) ?_
      split
      · exact .ite ((popRx_moves ..).keeps rfl (keeps_forwardLine h)) h
      · split
        · next e => exact (popRx_moves ..).keeps rfl (keeps_applyRemoteLine h e)
        · exact h

theorem keeps_padLast {c v} (h : Keeps r s) : Keeps r (padLast s c v) := by
  unfold padLast
  extract_lets x
  exact .ite h ((storeChuteLine_moves ..).keeps rfl h)

theorem keeps_closeRemote {c src arg} (h : Keeps r s) : Keeps r (closeRemote s c src arg) := by
  unfold closeRemote
  extract_lets +onlyGivenNames x
  refine .ite h ?_
  refine .ite (keeps_reportOutcome (keeps_refuseChute h)) ?_
  refine .ite ?_ ?_
  · extract_lets s1
    have hs1 : Keeps r s1 := keeps_setChute h
    exact .ite (keeps_reportOutcome hs1) hs1
  · refine .ite ?_ (keeps_reportOutcome (keeps_setChute h))
    extract_lets s1 v
    have hs1 : Keeps r s1 := keeps_setChute h
    exact keeps_reportOutcome ((marks_moves ..).keeps rfl (keeps_commitOpen (.ite hs1 (keeps_padLast hs1))))

theorem runs_execRemoteClose {l vc} : Runs s (execRemoteClose l vc s) := by
  have h := Keeps.refl s
  refine .next ?_
  extract_lets n v
  split
  · exact h
  · refine .ite h ?_
    extract_lets s1
    have hs1 : Keeps s s1 := by
      simp only [s1]
      split
      · exact h
      · refine .ite h ?_
        split
        · exact (forwardEnd_moves ..).keeps rfl h
        · exact keeps_closeRemote h
    exact (popRx_moves ..).keeps rfl ((setRxPkt_moves ..).keeps rfl hs1)

theorem keeps_abortRemote {c src} (h : Keeps r s) : Keeps r (abortRemote s c src) := by
  unfold abortRemote
  extract_lets x
  exact .ite
    ((statusOut_moves ..).keeps rfl ((changeChute_moves ..).keeps rfl ((chuteEvent_moves ..).keeps rfl h)))
    (keeps_reportOutcome (keeps_refuseChute h))

theorem runs_execRemoteAbort {l vc} : Runs s (execRemoteAbort l vc s) := by
  have h := Keeps.refl s
  refine .next ?_
  extract_lets n v
  split
  · exact h
  · refine .ite h ?_
    extract_lets s1
    have hs1 : Keeps s s1 := by
      simp only [s1]
      split
      · exact h
      · refine .ite h ?_
        split
        · exact (forwardEnd_moves ..).keeps rfl h
        · exact keeps_abortRemote h
    exact (popRx_moves ..).keeps rfl ((setRxPkt_moves ..).keeps rfl hs1)

theorem keeps_forwardMsg {p ds} (h : Keeps r s) : Keeps r (forwardMsg s p ds) :=
  .fold (fun _ _ h' => (sendCtrl0_moves ..).keeps rfl h') h

theorem keeps_takeXoff {l v p on} (h : Keeps r s) : Keeps r (takeXoff s l v p on) := by
  unfold takeXoff
  extract_lets s1
  have hs1 : Keeps r s1 := keeps_forwardMsg h
  exact (popRx_moves ..).keeps rfl hs1.xoffRemote

theorem runs_execRemoteXoff {l vc} : Runs s (execRemoteXoff l vc s) := by
  have h := Keeps.refl s
  refine .next ?_
  split
  · exact keeps_takeXoff h
  · exact h

theorem runs_execRemoteXon {l vc} : Runs s (execRemoteXon l vc s) := by
  have h := Keeps.refl s
  refine .next ?_
  split
  · exact keeps_takeXoff h
  · exact h

theorem runs_execRemoteStatus {l vc} : Runs s (execRemoteStatus l vc s) := by
  have h := Keeps.refl s
  refine .next ?_
  split
  · extract_lets q ds
    exact .ite ((popRx_moves ..).keeps rfl (keeps_forwardMsg h)) ((popRx_moves ..).keeps rfl (keeps_setEpStat h))
  · exact h

theorem runs_execRemotePurged {l vc} : Runs s (execRemotePurged l vc s) := by
  have h := Keeps.refl s
  refine .next ?_
  split
  · exact (popRx_moves ..).keeps rfl ((takePurged_moves ..).keeps rfl h)
  · exact h

/-! ### The system layer -/

theorem keeps_csrPerform {p} (h : Keeps r s) : Keeps r (csrPerform s p).1 := by
  unfold csrPerform
  refine .ite_fst (.pair h) ?_
  refine .ite_fst ?_ (.ite_fst (.pair (keeps_writeReg h)) (.pair h))
  extract_lets y0
  have hy0 : Keeps r y0.1 := keeps_readReg h
  exact .pair hy0

theorem keeps_csrAnswer {p r0} (h : Keeps r s) : Keeps r (csrAnswer s p r0) := (sendMgmt_moves ..).keeps rfl h

theorem keeps_takeCsrReq {p} (h : Keeps r s) : Keeps r (takeCsrReq s p) := by
  unfold takeCsrReq
  refine .ite ?_ (keeps_csrAnswer h)
  extract_lets y0
  have hy0 : Keeps r y0.1 := keeps_csrPerform h
  exact keeps_csrAnswer hy0

theorem keeps_countDropped (h : Keeps r s) : Keeps r (countDropped s) := h.sys

theorem keeps_sendCsr {tag dev addr kind data} (h : Keeps r s) : Keeps r (sendCsr s tag dev addr kind data) :=
  (sendMgmt_moves ..).keeps rfl h

theorem keeps_startRead {r0} (h : Keeps r s) : Keeps r (startRead s r0) := by
  unfold startRead
  refine .ite ?_ h.sys
  extract_lets +onlyGivenNames q s1
  have hs1 : Keeps r s1 := keeps_useTag h
  exact keeps_sendCsr hs1.sys

theorem keeps_readHalf {r0 v} (h : Keeps r s) : Keeps r (readHalf s r0 v).1 := by
  unfold readHalf
  split
  · exact .pair h
  · exact .pair (keeps_answerVal h)
  · exact .pair (keeps_answerVal h)

theorem keeps_beginRead {r0} (h : Keeps r s) : Keeps r (beginRead s r0) := by
  unfold beginRead
  refine .ite (keeps_startRead h) ?_
  extract_lets a
  have ha : Keeps r a.1 := keeps_readHalf (keeps_countDropped h)
  split
  · exact .ite (keeps_startRead ha) (keeps_readHalf (keeps_countDropped ha))
  · exact ha

theorem keeps_startStalled {n} (h : Keeps r s) : Keeps r (startStalled n s) := by
  induction n generalizing s with
  | zero => exact h
  | succ n ih =>
    rw [startStalled]
    split
    · exact .ite (ih (keeps_beginRead (h.upd rfl))) h
    · exact h

theorem keeps_endRead {r0 v} (h : Keeps r s) : Keeps r (endRead s r0 v) := by
  unfold endRead
  extract_lets _ s1 a s2
  have hs1 : Keeps r s1 := h.sys
  have ha : Keeps r a.1 := keeps_readHalf hs1
  have hs2 : Keeps r s2 := by
    simp only [s2]
    split
    · exact keeps_beginRead ha
    · exact ha
  exact keeps_startStalled hs2

theorem keeps_notePeer {dev off v} (h : Keeps r s) : Keeps r (notePeer s dev off v) := by
  unfold notePeer
  extract_lets +onlyGivenNames d n
  refine .ite h ?_
  extract_lets s1
  have hs1 : Keeps r s1 := (noteLinks_moves ..).keeps rfl h
  exact .ite ((computeRoutes_moves ..).keeps rfl ((addEmpty_moves ..).keeps rfl hs1)) hs1

theorem keeps_takeCsrRsp {p} (h : Keeps r s) : Keeps r (takeCsrRsp s p) := by
  unfold takeCsrRsp
  split
  · exact .ite (keeps_endRead (keeps_notePeer h)) (keeps_answer (keeps_endRead h))
  · exact h

theorem keeps_takeSysNotice {p} (h : Keeps r s) : Keeps r (takeSysNotice s p) :=
  .ite ((takeNotice_moves ..).keeps rfl h) h

theorem keeps_takeOwnControl {p} (h : Keeps r s) : Keeps r (takeOwnControl s p) := by
  unfold takeOwnControl
  split
  · exact keeps_takeCsrReq h
  · exact keeps_takeCsrRsp h
  · exact keeps_takeSysNotice h
  · exact h

theorem keeps_routeControl {l p} (h : Keeps r s) : Keeps r (routeControl l s p) := by
  unfold routeControl
  refine .ite (keeps_takeOwnControl h) ?_
  refine .ite ?_ ((report_moves ..).keeps rfl h)
  extract_lets +onlyGivenNames it
  exact h.sys

theorem keeps_takeControl {l p} (h : Keeps r s) : Keeps r (takeControl l s p) := .ite h.sys (keeps_routeControl h)

theorem keeps_releaseControl (h : Keeps r s) : Keeps r (releaseControl s) := by
  unfold releaseControl
  split
  · split
    · exact keeps_routeControl h.sys
    · exact h
  · exact h

theorem keeps_bar2 {off wide} {k : State → State} (h : Keeps r s) (hk : ∀ a0, Keeps r a0 → Keeps r (k a0)) :
    Keeps r (bar2 s off wide k) := .ite (keeps_answer h) (keeps_pfCore h (fun _ h' => hk _ h'))

theorem keeps_ownRead {off wide} (h : Keeps r s) : Keeps r (ownRead s off wide) := by
  unfold ownRead
  refine .ite (keeps_answer h) ?_
  extract_lets +onlyGivenNames lo
  have hlo : Keeps r lo.1 := keeps_readReg h
  refine .ite (keeps_answerRead hlo) ?_
  extract_lets hi
  have hhi : Keeps r hi.1 := keeps_readReg hlo
  exact keeps_answerVal hhi

theorem keeps_ownWrite {off v wide} (h : Keeps r s) : Keeps r (ownWrite s off v wide) := by
  unfold ownWrite
  refine .ite (keeps_answer h) ?_
  extract_lets s1
  have hs1 : Keeps r s1 := keeps_writeReg h
  exact keeps_answer (.ite (keeps_writeReg hs1) hs1)

theorem keeps_csrWrite {dev addr v} (h : Keeps r s) : Keeps r (csrWrite s dev addr v) :=
  .ite (keeps_countDropped h) (keeps_sendCsr (keeps_useTag h))

theorem runs_execBar2Write {off v wide} : Runs s (execBar2Write off v wide s) := .next <|
  have h := Keeps.refl s
  keeps_bar2 h fun _ h' =>
    .ite (keeps_ownWrite h') (keeps_answer (.ite (keeps_csrWrite (keeps_csrWrite h')) (keeps_csrWrite h')))

theorem runs_execCsrReadTimeout {tag} : Runs s (execCsrReadTimeout tag s) := by
  have h := Keeps.refl s
  refine .next ?_
  split
  · exact keeps_endRead (keeps_countDropped h)
  · exact h

theorem keeps_intakeTake {range bs pois} (h : Keeps r s) : Keeps r (intakeTake s range bs pois) := by
  unfold intakeTake
  extract_lets link
  split
  · exact .ite ((report_moves ..).keeps rfl h) (keeps_writeMem h)
  · exact (report_moves ..).keeps rfl h

theorem runs_execIntakePacket : Runs s (execIntakePacket s) := by
  have h := Keeps.refl s
  refine .next ?_
  extract_lets +onlyGivenNames c
  refine .ite h ?_
  extract_lets y0 range
  have hy0 : Keeps s y0.1 := keeps_takePacket h
  exact .ite h (keeps_intakeTake hy0)

theorem keeps_deliverMgmt {l p} (h : Keeps r s) : Keeps r (deliverMgmt s l p) := by
  unfold deliverMgmt
  split
  · exact keeps_takeMargins h
  · exact keeps_queueRxCmd h
  · exact keeps_takeLaneSet h
  · exact keeps_takeRefuse h
  · exact keeps_takeControl h
  · exact keeps_takeControl h
  · exact keeps_takeControl h
  · exact h

theorem keeps_deliverHeld {l h0} (h : Keeps r s) : Keeps r (deliverHeld l s h0) :=
  .ite (keeps_deliverMgmt h) (keeps_storeRx h)

theorem keeps_releaseGroup {l} (h : Keeps r s) : Keeps r (releaseGroup s l) :=
  .fold (fun _ _ h' => keeps_deliverHeld h') (keeps_updLl h)

theorem keeps_authFail {l} (h : Keeps r s) : Keeps r (authFail s l) := by
  unfold authFail
  extract_lets s1
  have hs1 : Keeps r s1 := keeps_updLl h
  exact keeps_declareDown ((report_moves ..).keeps rfl hs1)

theorem runs_execTag {l fl} : Runs s (execTag l fl s) := by
  have h := Keeps.refl s
  refine .next ?_
  extract_lets n
  exact keeps_rxOfType h fun _ _ h' =>
    .ite h' (.ite (keeps_authFail h') (keeps_rxSequenced h' (fun _ h2 => .ite (keeps_releaseGroup h2) h2)))

/-! ### A cycle in which no command waits -/

theorem keeps_tickPmus (h : Keeps r s) : Keeps r (tickPmus s) := h.pmus

theorem keeps_ageLasers (h : Keeps r s) : Keeps r (ageLasers s) := by
  unfold ageLasers
  extract_lets s1
  have hs1 : Keeps r s1 := h.oes
  exact .ite hs1 ((keepCal_moves ..).keeps rfl hs1)

theorem keeps_goOn (h : Keeps r s) : Keeps r (goOn s) :=
  keeps_resumeSec (keeps_releaseControl (keeps_injectWaiting h))

theorem keeps_idleTick (h : Keeps r s) : Keeps r (idleTick s) := by
  unfold idleTick
  refine .ite ?_ h
  extract_lets s1
  have hs1 : Keeps r s1 := keeps_tickPmus h
  exact keeps_goOn (keeps_ageLasers hs1.time)

/-! ### The commands, and a step -/

/-- Every command goes on to a next state, with the queue as it was and every memory as canonical as it was. -/
theorem runs_exec (c : Instr) (s : State) : Runs s (exec c s) := by
  have h := Keeps.refl s
  cases c with
  | macToken => exact runs_execMacToken
  | vecToken =>
    exact .next (.ite h (keeps_withChecks h (fun _ h' => keeps_dropToken h') (fun _ h' => keeps_vecToken h')))
  | uopNop => exact .next (keeps_uopIssue h (fun _ _ h' => .pair h'))
  | uopAdd => exact .next (keeps_uopLanes h)
  | uopSub => exact .next (keeps_uopLanes h)
  | uopMul => exact .next (keeps_uopLanes h)
  | uopFma => exact .next (keeps_uopLanes h)
  | uopMax => exact .next (keeps_uopLanes h)
  | uopMin => exact .next (keeps_uopLanes h)
  | uopAbs => exact .next (keeps_uopLanes h)
  | uopNeg => exact .next (keeps_uopLanes h)
  | uopSel => exact .next (keeps_uopLanes h)
  | uopCmplt => exact .next (keeps_uopLanes h)
  | uopExp2 => exact .next (keeps_uopLanes h)
  | uopLog2 => exact .next (keeps_uopLanes h)
  | uopRcp => exact .next (keeps_uopLanes h)
  | uopRsqrt => exact .next (keeps_uopLanes h)
  | uopTanh => exact .next (keeps_uopLanes h)
  | uopRsum => exact .next (keeps_uopIssue h (fun _ _ h' => .pair (keeps_updStall h')))
  | uopRmax => exact .next (keeps_uopSpread h)
  | uopRmin => exact .next (keeps_uopSpread h)
  | uopLacc => exact .next (keeps_uopIssue h (fun _ _ h' => .pair (keeps_updStall h')))
  | uopRget => exact .next (keeps_uopIssue h (fun _ _ h' => .pair (keeps_updStall h')))
  | uopLget => exact .next (keeps_uopIssue h (fun _ _ h' => .pair (keeps_updStall h')))
  | uopBcast => exact .next (keeps_uopSpread h)
  | inputLine => exact runs_execInputLine
  | routerCredit => exact .next (keeps_updStall h)
  | outputLineSend => exact runs_execOutputLineSend
  | anchorLine => exact runs_execAnchorLine
  | fenceArrival => exact runs_execFenceArrival
  | swapDrainDone => exact runs_execSwapDrainDone
  | swapExchange => exact runs_execSwapExchange
  | mangerWriteback => exact runs_execMangerWriteback
  | mangerScrub => exact .next (.ite h (keeps_withChecks h (fun _ h' => h') (fun _ h' => keeps_scrubInjected h')))
  | stallNumStatusWrite => exact .next (keeps_pfAccess h (fun _ h' => keeps_answer (keeps_clearNum h')))
  | stallBankConflictRead => exact .next (keeps_pfAccess h (fun _ h' => keeps_answerRead (keeps_takeWaits h')))
  | stallTokenLoRead => exact .next (keeps_pfAccess h (fun _ h' => keeps_answerRead (keeps_readToken h')))
  | load => exact .next (keeps_penCmd h)
  | loadStreamDone => exact runs_execLoadStreamDone
  | shadow => exact .next (keeps_penCmd h)
  | start => exact .next (keeps_penCmd h)
  | stop => exact .next (keeps_penCmd h)
  | swap => exact .next (keeps_penCmd h)
  | penRelease => exact .next (keeps_penCmd h)
  | penCmdReserved => exact .next (keeps_penCmd h)
  | drainComplete => exact .next (.ite (keeps_penStopped h) h)
  | drainLimitExpiry => exact .next (.ite (keeps_penStopped h) h)
  | penFault => exact runs_execPenFault
  | engineTriggerPacket => exact runs_execEngineTriggerPacket
  | planRun => exact runs_execPlanRun
  | sinkLine => exact runs_execSinkLine
  | sinkPassNotice => exact runs_execSinkPassNotice
  | droveMax => exact runs_execDroveMax
  | push => exact .next (keeps_chuteCmd h)
  | waitingFirstOpen => exact .next (.ite (keeps_retryWaiting h) h)
  | spaceWaitEnd => exact .next (.ite (keeps_retryWaiting h) h)
  | abort => exact .next (keeps_chuteCmd h)
  | mark => exact .next (keeps_chuteCmd h)
  | rewind => exact .next (keeps_chuteCmd h)
  | release => exact .next (keeps_chuteCmd h)
  | flush => exact .next (keeps_chuteCmd h)
  | enable => exact .next (keeps_chuteCmd h)
  | disable => exact .next (keeps_chuteCmd h)
  | init => exact .next (keeps_chuteCmd h)
  | chuteBadOp => exact .next (keeps_chuteCmd h)
  | consumerRead => exact runs_execConsumerRead
  | watermarkWrite => exact .next (keeps_barAccess h (fun _ h' => keeps_answer ((changeChute_moves ..).keeps rfl h')))
  | disableLimitExpiry => exact .next (.ite ((disableAbort_moves ..).keeps rfl h) h)
  | chuteDisableComplete => exact .next (.ite (keeps_updChute h) h)
  | remoteOpen => exact runs_execRemoteOpen
  | remoteData => exact runs_execRemoteData
  | remoteClose => exact runs_execRemoteClose
  | remoteAbort => exact runs_execRemoteAbort
  | remoteXoff => exact runs_execRemoteXoff
  | remoteXon => exact runs_execRemoteXon
  | remoteStatus => exact runs_execRemoteStatus
  | remotePurged => exact runs_execRemotePurged
  | chuteStatusWrite => exact .next (keeps_barAccess h (fun _ h' => keeps_answer (keeps_updChute h')))
  | chuteDieAbortLinesRead => exact .next (keeps_pfAccess h (fun _ h' => keeps_answerRead (keeps_takeAbortLines h')))
  | memRead => exact .next (.ite (keeps_memRequest h) h)
  | memWrite => exact .next (.ite (keeps_memRequest h) h)
  | readModifyWrite => exact .next (.ite (keeps_memRequest h) h)
  | memCeWriteback => exact runs_execMemCeWriteback
  | refresh => exact .next (.ite ((pmuCount_moves ..).keeps rfl (keeps_updHub h)) h)
  | refreshRateChange => exact .next (.ite (keeps_updHub h) h)
  | scrubRead =>
    exact .next (.ite (keeps_updHub ((checkLine_moves ..).keeps rfl ((pmuCount_moves ..).keeps rfl h))) h)
  | stackLost => exact runs_execStackLost
  | mhCtrlWrite => exact .next (keeps_pfAccess h (fun _ h' => keeps_answer (keeps_writeMhCtrl h')))
  | mhCeCountRead => exact .next (keeps_pfAccess h (fun _ h' => keeps_answerRead (keeps_takeCe h')))
  | mhUcCountRead => exact .next (keeps_pfAccess h (fun _ h' => keeps_answerRead (keeps_takeUc h')))
  | meshPacket => exact runs_execMeshPacket
  | routerTableSwitch => exact runs_execRouterTableSwitch
  | retire => exact .next (keeps_pfAccess h (fun _ h' => keeps_answer (keeps_pnetCommand h')))
  | readmit => exact .next (keeps_pfAccess h (fun _ h' => keeps_answer (keeps_pnetCommand h')))
  | pnetBadOp => exact .next (keeps_pfAccess h (fun _ h' => keeps_answer (keeps_pnetCommand h')))
  | replacementStart => exact runs_execReplacementStart
  | replacementStepDone => exact runs_execReplacementStepDone
  | adapterRetry => exact runs_execAdapterRetry
  | moduleRetrainDone => exact .next (.ite h (keeps_moduleTrained (keeps_trainMargins h.pnet)))
  | capabilityWord => exact .next (.ite (keeps_fenceDie (keeps_updSite h)) (keeps_updSite h))
  | spareLaser => exact .next (keeps_pfAccess h (fun _ h' => keeps_answer (keeps_oeCommand h')))
  | relock => exact .next (keeps_pfAccess h (fun _ h' => keeps_answer (keeps_oeCommand h')))
  | oeBadOp => exact .next (keeps_pfAccess h (fun _ h' => keeps_answer (keeps_oeCommand h')))
  | laserWarmDone => exact runs_execLaserWarmDone
  | laserWarmTimeout => exact .next (.ite (keeps_warmFailed h) h)
  | laserLockLoop => exact runs_execLaserLockLoop
  | biasLoop => exact runs_execBiasLoop
  | suddenLoss => exact .next (keeps_suddenLoss h)
  | laserSparingStart => exact .next (.ite h (keeps_startSparing h))
  | laserSparingStepDone => exact .next (.ite h (keeps_sparingStep h))
  | ringLoopUpdate => exact runs_execRingLoopUpdate
  | ringReacquireTimeout => exact .next (.ite (keeps_startSearch h) h)
  | ringRelock => exact .next (.ite ((report_moves ..).keeps rfl (keeps_startSearch h)) h)
  | ringRail => exact .next (.ite ((report_moves ..).keeps rfl ((updRing_moves ..).keeps rfl h)) h)
  | ringSearchStep => exact runs_execRingSearchStep
  | pilotEvaluation => exact runs_execPilotEvaluation
  | mislockRecoveryStepDone => exact runs_execMislockRecoveryStepDone
  | activityWord => exact runs_execActivityWord
  | feedForwardUpdate => exact .next (.fold (fun _ _ h' => keeps_driveRing h') (keeps_updOe h))
  | oeSilentDie => exact runs_execOeSilentDie
  | marginMeasure => exact .next (.ite (keeps_updLl (keeps_updOe h)) (keeps_updOe h))
  | xtRefineWindow => exact .next (.ite (keeps_updOe h) h)
  | xtCommit => exact .next ((keepCal_moves ..).keeps rfl (keeps_updOe h))
  | oeBandChange => exact .next (.ite (keeps_setOe h) (.ite (keeps_setOe h) h))
  | oeLaserStatWrite => exact .next (keeps_pfAccess h (fun _ h' => keeps_answer (keeps_clearAgeWarn h')))
  | oeRingWrite => exact .next (keeps_pfAccess h (fun _ h' => keeps_answer (keeps_clearMislock h')))
  | beaconTransmit => exact .next (.ite (keeps_setLink h) h)
  | beaconDetected => exact runs_execBeaconDetected
  | partnerClockDetected => exact runs_execPartnerClockDetected
  | trainComplete => exact runs_execTrainComplete
  | alignComplete => exact runs_execAlignComplete
  | capabilityMessage => exact runs_execCapabilityMessage
  | goBlock => exact .next (.ite (keeps_endQuick (keeps_setLink h)) (.ite h (keeps_endExchange (keeps_setLink h))))
  | rateStepDone => exact .next (.ite (keeps_updLink (keeps_deskewLanes (keeps_sweepLanes h))) h)
  | stageTimeout => exact .next (.ite (keeps_updLink ((setLinkSt_moves ..).keeps rfl h)) h)
  | clockLightLost => exact runs_execClockLightLost
  | los => exact .next ((updRing_moves ..).keeps rfl (keeps_updLane h))
  | losDeassert => exact .next (.ite (keeps_startSearch (keeps_updLane h)) (keeps_updLane h))
  | lol => exact .next (keeps_updLane h)
  | lolDeassert => exact .next (.ite (keeps_updLane h) h)
  | laneFailed => exact runs_execLaneFailed
  | holdLimitExpiry => exact .next (.ite ((enterDown_moves ..).keeps rfl h) h)
  | trainingBlocksReceived => exact .next (.ite ((startRetrain_moves ..).keeps rfl h) h)
  | retrainComplete =>
    exact .next <|
      .ite h (.ite (.ite (keeps_enterActive h) h) (.ite (keeps_setLink h) ((startRetrain_moves ..).keeps rfl h)))
  | marker => exact runs_execMarker
  | slip => exact .next (keeps_pfAccess h (fun _ h' => keeps_answer (keeps_slipLane h')))
  | retrain => exact .next (keeps_pfAccess h (fun _ h' => keeps_answer (keeps_linkCommand h')))
  | acceptPartner => exact .next (keeps_pfAccess h (fun _ h' => keeps_answer (keeps_linkCommand h')))
  | linkCmdBadOp => exact .next (keeps_pfAccess h (fun _ h' => keeps_answer (keeps_linkCommand h')))
  | linkCtrlWrite => exact .next (keeps_pfAccess h (fun _ h' => keeps_answer (keeps_writeLinkCtrl h')))
  | linkStateWrite => exact .next (keeps_pfAccess h (fun _ h' => keeps_answer (keeps_clearRestarted h')))
  | linkLaneWrite => exact .next (keeps_pfAccess h (fun _ h' => keeps_answer (keeps_clearIdMis h')))
  | linkLaneRead => exact .next (keeps_pfAccess h (fun _ h' => keeps_answerRead (keeps_takeLane h')))
  | txSlot => exact runs_execTxSlot
  | flowFlit => exact .next (keeps_rxOfType h (fun _ _ h' => keeps_updLl h'))
  | dataFlit => exact .next (keeps_rxTraffic h)
  | ctrlFlit => exact .next (keeps_rxTraffic h)
  | dataPool => exact .next (keeps_rxTraffic h)
  | ctrlPool => exact .next (keeps_rxTraffic h)
  | flitReservedType =>
    exact .next (keeps_rxOfType h (fun _ _ h' => keeps_rxSequenced h' (fun _ h2 => (report_moves ..).keeps rfl h2)))
  | sync => exact runs_execSync
  | ping => exact .next (keeps_rxOfType h (fun _ _ h' => keeps_updLl h'))
  | echo => exact .next (keeps_rxOfType h (fun _ _ h' => .ite h' (keeps_refreshLevels (keeps_updLl h'))))
  | ackTimer => exact .next (keeps_updLl h)
  | replayTimerExpiry => exact runs_execReplayTimerExpiry
  | flowForce => exact .next (keeps_updLl h)
  | creditReturnTimer => exact .next (keeps_updLl h)
  | probeTimeout => exact .next (.ite (keeps_updLl h) h)
  | retrainTimeout => exact runs_execRetrainTimeout
  | operationTimeout => exact runs_execOperationTimeout
  | purge => exact .next (keeps_pfAccess h (fun _ h' => keeps_answer (keeps_llCommand h')))
  | linkDisable => exact .next (keeps_pfAccess h (fun _ h' => keeps_answer (keeps_llCommand h')))
  | rekey => exact .next (keeps_pfAccess h (fun _ h' => keeps_answer (keeps_llCommand h')))
  | linkLlBadOp => exact .next (keeps_pfAccess h (fun _ h' => keeps_answer (keeps_llCommand h')))
  | linkDisableComplete => exact .next (.ite (keeps_disabledDown h) h)
  | linkDrainLimitExpiry => exact .next (.ite (keeps_purgeLink (keeps_disabledDown h)) h)
  | linkLlCounterRead => exact .next (keeps_pfAccess h (fun _ h' => keeps_answerRead (keeps_takeCounter h')))
  | margin => exact .next (keeps_rxMgmt h (fun _ _ h' => keeps_takeMargins h'))
  | laneReq => exact .next (keeps_rxMgmt h (fun _ _ h' => keeps_queueRxCmd h'))
  | laneSet => exact .next (keeps_rxMgmt h (fun _ _ h' => keeps_takeLaneSet h'))
  | laneRefuse => exact .next (keeps_rxMgmt h (fun _ _ h' => keeps_takeRefuse h'))
  | deskewWaitEnd => exact .next (keeps_updLl h)
  | laneMapEffective => exact .next (.ite h (.ite (keeps_applyTxMap h) (keeps_applyRxMap h)))
  | key => exact .next (keeps_rxMgmt h (fun _ _ h' => keeps_takeKey h'))
  | tag => exact runs_execTag
  | keySwitch => exact .next (keeps_rxMgmt h (fun _ _ h' => keeps_updLl h'))
  | csrReq => exact .next (keeps_rxMgmt h (fun _ _ h' => keeps_takeControl h'))
  | csrRsp => exact .next (keeps_rxMgmt h (fun _ _ h' => keeps_takeControl h'))
  | sysNotice => exact .next (keeps_rxMgmt h (fun _ _ h' => keeps_takeControl h'))
  | bar2Read => exact .next (keeps_bar2 h (fun _ h' => .ite (keeps_ownRead h') (keeps_beginRead (keeps_answer h'))))
  | bar2Write => exact runs_execBar2Write
  | csrReadTimeout => exact runs_execCsrReadTimeout
  | intakePacket => exact runs_execIntakePacket
  | sysStatusWrite => exact .next (keeps_pfAccess h (fun _ h' => keeps_answer (keeps_clearSysStatus h')))
  | sysStatusRead => exact .next (keeps_pfAccess h (fun _ h' => keeps_answerRead (keeps_takeSysStatus h')))
  | configRequest f reg wr => exact runs_execConfigRequest (reg := reg)
  | bar4Read => exact .next (keeps_bar4 h (fun _ h' => keeps_memRequest ((pmuCount_moves ..).keeps rfl h')))
  | bar4Write => exact .next (keeps_bar4 h (fun _ h' => keeps_memRequest ((pmuCount_moves ..).keeps rfl h')))
  | cxlMemRead => exact .next (keeps_cxlMem h (fun _ h' => keeps_memRequest ((pmuCount_moves ..).keeps rfl h')))
  | cxlMemWrite => exact .next (keeps_cxlMem h (fun _ h' => keeps_memRequest ((pmuCount_moves ..).keeps rfl h')))
  | pcieLinkDown => exact .next (.ite (keeps_disableAll (keeps_portDown h)) h)
  | hotReset => exact .next (.ite (keeps_disableAllNow h.host) h)
  | flr => exact .next (.ite h (.ite (keeps_disableAll h.host) (.ite (keeps_beginDisable h) h)))
  | perstN => exact runs_execPerstN
  | vfEnableSet => exact runs_execVfEnableSet
  | vfEnableClear => exact runs_execVfEnableClear
  | funcEnable => exact .next (keeps_coreAccess h (fun _ h' => keeps_answer (keeps_fnCommand h')))
  | funcDisable => exact .next (keeps_coreAccess h (fun _ h' => keeps_answer (keeps_fnCommand h')))
  | wipe => exact .next (keeps_coreAccess h (fun _ h' => keeps_answer (keeps_fnCommand h')))
  | wipeDone => exact runs_execWipeDone
  | funcBadOp => exact .next (keeps_coreAccess h (fun _ h' => keeps_answer (keeps_fnCommand h')))
  | funcDrainComplete => exact .next (.ite (keeps_endDisable h) h)
  | funcDrainLimitExpiry => exact .next (.ite (keeps_endDisable (keeps_abortFunction h)) h)
  | dmaTailWrite => exact .next (keeps_coreAccess h (fun _ h' => keeps_answer (keeps_updDma h')))
  | h2d => exact .next (keeps_dmaStart h (keeps_dmaH2d h))
  | d2h => exact .next (keeps_dmaStart h (keeps_dmaD2h h))
  | h2c => exact .next (keeps_dmaStart h (keeps_dmaH2c h))
  | c2h => exact .next (keeps_dmaStart h (keeps_dmaC2h h))
  | dmaDescriptorComplete => exact runs_execDmaDescriptorComplete
  | hostEvqHeadWrite => exact .next (keeps_coreAccess h (fun _ h' => keeps_answer (keeps_writeHead h')))
  | hostEvqStatusWrite => exact .next (keeps_coreAccess h (fun _ h' => keeps_answer (keeps_updFn h')))
  | hostEvqStatusRead => exact .next (keeps_coreAccess h (fun _ h' => keeps_answerRead (keeps_takeEvqStatus h')))
  | hostDeniedRead => exact .next (keeps_pfCore h (fun _ h' => keeps_answerRead (keeps_takeDenied h')))
  | spdmRequest => exact runs_execSpdmRequest
  | hostIdeFail => exact .next (.ite ((report_moves ..).keeps rfl h.host) h)
  | coldReset => exact runs_execColdReset
  | coldResetNRelease => exact runs_execColdResetNRelease
  | tackResetWarm => exact .next (keeps_pfCore h (fun _ h' => keeps_answer (keeps_resetCommand h')))
  | bootStepDone => exact runs_execBootStepDone
  | flashWrite => exact .next (keeps_pfCore h (fun _ h' => keeps_answer (keeps_flashCommand h')))
  | flashRead => exact .next (keeps_pfCore h (fun _ h' => keeps_answer (keeps_flashCommand h')))
  | flashBadOp => exact .next (keeps_pfCore h (fun _ h' => keeps_answer (keeps_flashCommand h')))
  | flashCommandDone => exact runs_execFlashCommandDone
  | lcAdvance => exact .next (keeps_pfCore h (fun _ h' => keeps_answer (keeps_secCommand h')))
  | debugUnlock => exact .next (keeps_pfCore h (fun _ h' => keeps_answer (keeps_secCommand h')))
  | advanceSvn => exact .next (keeps_pfCore h (fun _ h' => keeps_answer (keeps_secCommand h')))
  | secBadOp => exact .next (keeps_pfCore h (fun _ h' => keeps_answer (keeps_secCommand h')))
  | saveHoldExit => exact .next (.ite (.ite (keeps_coldBoot h) (keeps_warmReset h)) h)
  | tapInstruction => exact .next (h.upd rfl)
  | smbusRequest => exact .next (.ite (keeps_answerMessage h) (keeps_answer h))
  | pvMainGood => exact .next (h.upd rfl)
  | regulatorOutOfRange => exact runs_execRegulatorOutOfRange
  | powerEvaluation => exact .next (.ite ((endCondition_moves ..).keeps rfl (.pwr h.pwr)) h.pwr)
  | pwrOverLimit => exact .next (.ite ((report_moves ..).keeps rfl h.pwr) h)
  | pwrLimitWrite => exact .next (keeps_pfAccess h (fun _ h' => keeps_answer (keeps_writeLimit h')))
  | supplySag => exact runs_execSupplySag
  | saveComplete => exact .next (.ite (keeps_saveFails h) (.ite (keeps_holdAfterSave (.pwr (keeps_writeSave h))) h))
  | pvHoldExhausted => exact .next (.ite (keeps_saveFails h.pins) h.pins)
  | saveShadowRefresh => exact .next (.ite (keeps_refreshShadow h) h)
  | thermalScan => exact runs_execThermalScan
  | faultReport => exact runs_execFaultReport
  | faultAck => exact .next (keeps_pfAccess h (fun _ h' => keeps_answer (keeps_ackRecord h')))
  | conditionEnd => exact .next ((endCondition_moves ..).keeps rfl h)
  | bucketLeak => exact .next (.ite h (keeps_setLevel h))
  | faultHeartbeat => exact .next (keeps_answer h.flt)
  | heartbeatLost => exact .next h.flt
  | injectDisarm => exact .next (keeps_pfAccess h (fun _ h' => keeps_answer (keeps_injControl h')))
  | injectOnce => exact .next (keeps_pfAccess h (fun _ h' => keeps_answer (keeps_injControl h')))
  | injectContinuous => exact .next (keeps_pfAccess h (fun _ h' => keeps_answer (keeps_injControl h')))
  | injModeReserved => exact .next (keeps_pfAccess h (fun _ h' => keeps_answer (keeps_injControl h')))
  | stallTest => exact .next (keeps_pfAccess h (fun _ h' => keeps_answer (keeps_testCommand h')))
  | dieTest => exact .next (keeps_pfAccess h (fun _ h' => keeps_answer (keeps_testCommand h')))
  | memTest => exact .next (keeps_pfAccess h (fun _ h' => keeps_answer (keeps_testCommand h')))
  | faultTestBadOp => exact .next (keeps_pfAccess h (fun _ h' => keeps_answer (keeps_testCommand h')))
  | testComplete => exact runs_execTestComplete
  | pmuCntLoRead => exact .next (keeps_barAccess h (fun _ h' => keeps_answerRead (keeps_readCount h')))
  | pmuCntHiWrite => exact .next (keeps_barAccess h (fun _ h' => keeps_answer (.ite (keeps_updPmu h') h')))
  | pmuCntLoWrite => exact .next (keeps_barAccess h (fun _ h' => keeps_answer (.ite (keeps_updPmu h') h')))
  | pmuCfgWrite => exact .next (keeps_barAccess h (fun _ h' => keeps_answer (.ite (keeps_updPmu h') h')))
  | pmuCtrlWrite => exact .next (keeps_barAccess h (fun _ h' => keeps_answer (keeps_updPmu h')))
  | pmuOvfWrite => exact .next (keeps_barAccess h (fun _ h' => keeps_answer (keeps_updPmu h')))
  | counterOverflow => exact .next (.ite (keeps_updPmu h) h)
  | pmuSampleDroppedRead =>
    exact .next (keeps_barAccess h (fun _ h' => keeps_answerRead (keeps_takeSampleDropped h')))
  | registerWrite => exact .next (keeps_barSized h)
  | wordLock => exact runs_execWordLock
  | equaliserUpdate => exact .next (.ite h (keeps_updLane h))
  | phaseTrackerUpdate => exact .next (keeps_updLane h)
  | pcieLinkUp => exact runs_execPcieLinkUp

end

/-- Settles O5: a command keeps canonical memories canonical by `runs_exec`, a cycle without one by `keeps_idleTick`. -/
theorem stepKeepsMemoriesCanonical : Obligations.StepKeepsMemoriesCanonical := by
  intro s t hs ht
  unfold step at ht
  split at ht
  · obtain rfl := Host.Outcome.next.inj ht
    exact (keeps_idleTick (.refl s)).canon hs
  · next c rest _ =>
    obtain ⟨t', he, hk⟩ := runs_exec c { s with pending := rest }
    obtain rfl := Host.Outcome.next.inj (he.symm.trans ht)
    exact hk.canon hs

end Sys2Proof.Machine
namespace Sys2Proof.Machine
open Sys2Proof

/-! ### The device address map (R164, R165) -/

section
variable (s : State)

theorem mapOrder_nodup : mapOrder.Nodup := by decide

/-- R165: no stack stands twice in the map order. -/
theorem curOrder_nodup : (curOrder s).Nodup := mapOrder_nodup.filter _

/-- R164: MH_MAP.POSITION of the stack at a place of the map order is that place. -/
theorem mapPosition_of_getElem? {p h : Nat} (hp : (curOrder s)[p]? = some h) : mapPosition s h = p := by
  obtain ⟨hlt, rfl⟩ := List.getElem?_eq_some_iff.mp hp
  have hidx : (curOrder s).idxOf (curOrder s)[p] = p := (curOrder_nodup s).idxOf_getElem p hlt
  rw [mapPosition, List.idxOf?_eq_some_iff.mpr ⟨hlt, rfl, fun j hj hjp => ?_⟩]
  · rfl
  · exact absurd ((curOrder_nodup s).getElem_inj_iff.mp hjp) (by omega)

/-- A stack of the map stands at its place. -/
theorem getElem?_mapPosition {h : Nat} (hh : h ∈ curOrder s) : (curOrder s)[mapPosition s h]? = some h := by
  obtain ⟨p, hlt, rfl⟩ := List.getElem_of_mem hh
  have hp := List.getElem?_eq_getElem hlt
  rw [mapPosition_of_getElem? s hp, hp]

/-- R164: with a stack in the map, the stack of an address is the one at its granule's place. -/
theorem getElem?_hubOf (hN : 0 < stackCount s) (a : Nat) :
    (curOrder s)[a / 2048 % stackCount s]? = some (hubOf s a) := by
  have hlt : a / 2048 % stackCount s < (curOrder s).length := Nat.mod_lt _ hN
  rw [hubOf, List.getElem?_eq_getElem hlt]
  rfl

variable {s}

/-- R164: an address is that of its place. -/
theorem deviceAddr_hubOf (hN : 0 < stackCount s) (a : Nat) : deviceAddr s (hubOf s a) (stackLocal s a) = a := by
  rw [deviceAddr, mapPosition_of_getElem? s (getElem?_hubOf s hN a), stackLocal]
  have hdiv : (a / 2048 / stackCount s * 2048 + a % 2048) / 2048 = a / 2048 / stackCount s := by omega
  have hmod : (a / 2048 / stackCount s * 2048 + a % 2048) % 2048 = a % 2048 := by omega
  rw [hdiv, hmod, Nat.div_add_mod' (a / 2048) (stackCount s), Nat.div_add_mod' a 2048]

/-- R164: the granule of a stack-local address: that many rounds of the map, and the stack's place. -/
theorem deviceAddr_granule (h loc : Nat) : deviceAddr s h loc / 2048 = loc / 2048 * stackCount s + mapPosition s h := by
  rw [deviceAddr]
  omega

section
variable {h loc : Nat} (hh : h ∈ curOrder s)
include hh

theorem mapPosition_lt : mapPosition s h < stackCount s :=
  (List.getElem?_eq_some_iff.mp (getElem?_mapPosition s hh)).1

/-- R164: below MEM_TOP, for a local address below 80 GiB. -/
theorem deviceAddr_lt (hloc : loc < 80 * 2 ^ 30) : deviceAddr s h loc < memTop s := by
  have hround : (loc / 2048 + 1) * stackCount s ≤ 80 * 2 ^ 19 * stackCount s := Nat.mul_le_mul_right _ (by omega)
  have hplace := mapPosition_lt hh
  rw [Nat.add_one_mul] at hround
  rw [deviceAddr, memTop]
  omega

theorem hubOf_deviceAddr : hubOf s (deviceAddr s h loc) = h := by
  rw [hubOf, deviceAddr_granule, Nat.mul_comm, Nat.mul_add_mod, Nat.mod_eq_of_lt (mapPosition_lt hh),
    getElem?_mapPosition s hh]
  rfl

theorem stackLocal_deviceAddr : stackLocal s (deviceAddr s h loc) = loc := by
  have hN : 0 < stackCount s := Nat.zero_lt_of_lt (mapPosition_lt hh)
  have hmod : deviceAddr s h loc % 2048 = loc % 2048 := by
    rw [deviceAddr]
    omega
  rw [stackLocal, deviceAddr_granule, hmod, Nat.mul_comm (loc / 2048), Nat.mul_add_div hN,
    Nat.div_eq_of_lt (mapPosition_lt hh), Nat.add_zero, Nat.div_add_mod' loc 2048]

end

end

/-- Settles O27: an address has the place `getElem?_hubOf` and is that place's by `deviceAddr_hubOf`; a place has one
address by `hubOf_deviceAddr` and `stackLocal_deviceAddr`. -/
theorem addressMap : Obligations.AddressMap := by
  intro s
  refine ⟨rfl, fun h24 => ?_, fun a ha => ?_, fun h loc hh hloc =>
    ⟨deviceAddr_lt hh hloc, hubOf_deviceAddr hh, stackLocal_deviceAddr hh⟩⟩
  · norm_num [memTop, h24]
  · have hN : 0 < stackCount s := Nat.pos_of_ne_zero fun h0 => by simp [memTop, h0] at ha
    exact ⟨getElem?_hubOf s hN a, rfl, deviceAddr_hubOf hN a⟩

end Sys2Proof.Machine
namespace Sys2Proof.Machine
open Sys2Proof

/-! ### A line with its tag and its check symbols (R160, R161, R162) -/

section
variable {s t u : State}

/-- A state with the bytes, the POISON tags and the check symbols of another. -/
structure DataKept (s t : State) : Prop where
  mem : t.ms.mem = s.ms.mem
  poison : t.ms.poison = s.ms.poison
  inj : t.ms.inj = s.ms.inj

theorem DataKept.trans (h : DataKept s t) (h' : DataKept t u) : DataKept s u :=
  ⟨h'.mem.trans h.mem, h'.poison.trans h.poison, h'.inj.trans h.inj⟩

theorem DataKept.byteAt (h : DataKept s t) (b : Nat) : t.byteAt b = s.byteAt b :=
  congrArg (fun m => tabGet memDefault m b) h.mem

theorem DataKept.poisonAt (h : DataKept s t) (j : Nat) : t.poisonAt j = s.poisonAt j :=
  congrArg (fun m => tabGet (fun _ => false) m j) h.poison

theorem DataKept.injAt (h : DataKept s t) (j : Nat) : t.injAt j = s.injAt j :=
  congrArg (fun m => tabGet (fun _ => (0 : BitVec 3)) m j) h.inj

theorem DataKept.storedLine (h : DataKept s t) (a : Nat) : storedLine t a = storedLine s a :=
  congrArg (fun m => lineOf (memBytes m (a / 64 * 64) 64)) h.mem

theorem DataKept.of_ms (h : t.ms = s.ms) : DataKept s t :=
  ⟨congrArg MemSys.mem h, congrArg MemSys.poison h, congrArg MemSys.inj h⟩

theorem Moves.dataKept {ps : List Part} (h : Moves ps s t) (hms : listed .ms ps = false) : DataKept s t :=
  .of_ms (h.same .ms hms)

theorem setHub_dataKept (s : State) (h : Nat) (v : HubS) : DataKept s (s.setHub h v) := ⟨rfl, rfl, rfl⟩

/-- Line `k` holds 64 bytes, a tag and sound check symbols, and nothing else is stored. -/
structure LineStored (s t : State) (k : Nat) (bs : List Byte) (p : Bool) : Prop where
  bytes : StoresBytes s t (k * 64) bs
  poison : ∀ j, t.poisonAt j = if j = k then p else s.poisonAt j
  inj : t.injAt k = 0

theorem LineStored.keep {k : Nat} {bs : List Byte} {p : Bool} (h : LineStored s t k bs p) (h' : DataKept t u) :
    LineStored s u k bs p :=
  ⟨⟨fun i hi => (h'.byteAt _).trans (h.bytes.1 i hi), fun b hb => (h'.byteAt b).trans (h.bytes.2 b hb)⟩,
    fun j => (h'.poisonAt j).trans (h.poison j), (h'.injAt k).trans h.inj⟩

theorem LineStored.after {k : Nat} {bs : List Byte} {p : Bool} (h : LineStored t u k bs p) (h' : DataKept s t) :
    LineStored s u k bs p :=
  ⟨⟨h.bytes.1, fun b hb => (h.bytes.2 b hb).trans (h'.byteAt b)⟩,
    fun j => by rw [h.poison, h'.poisonAt], h.inj⟩

theorem LineStored.tag {k : Nat} {bs : List Byte} {p : Bool} (h : LineStored s t k bs p) : t.poisonAt k = p :=
  (h.poison k).trans (if_pos rfl)

theorem LineStored.tags {k : Nat} {bs : List Byte} {p : Bool} (h : LineStored s t k bs p) :
    ∀ j, j ≠ k → t.poisonAt j = s.poisonAt j := fun j hj => (h.poison j).trans (if_neg hj)

theorem LineStored.others {k : Nat} {bs : List Byte} {p : Bool} (h : LineStored s t k bs p) (hlen : bs.length = 64) :
    ∀ b, b / 64 ≠ k → t.byteAt b = s.byteAt b := fun b hb => h.bytes.2 b (by omega)

/-- The bytes, the tag and sound check symbols of the line at an address, before its hub notes it. -/
def lineSet (s : State) (a : Nat) (bs : List Byte) (p : Bool) : State :=
  putInj (putPoison (putBytes s (a / 64 * 64) bs) (a / 64) p) (a / 64) 0

theorem lineSet_moves (s : State) (a : Nat) (bs : List Byte) (p : Bool) : Moves [.ms] s (lineSet s a bs p) :=
  (putBytes_moves s _ bs).trans ((ms_moves _ _ id).trans (ms_moves _ _ id))

theorem lineSet_hub (s : State) (a : Nat) (bs : List Byte) (p : Bool) (h : Nat) :
    (lineSet s a bs p).hub h = s.hub h := rfl

theorem lineSet_stored (s : State) (a : Nat) (bs : List Byte) (p : Bool) :
    LineStored s (lineSet s a bs p) (a / 64) bs p := by
  refine ⟨⟨fun i hi => ?_, fun b hb => ?_⟩, fun j => ?_, ?_⟩
  · refine (tabGet_memStore s.ms.mem (a / 64 * 64) bs _).trans ?_
    rw [if_pos (by omega), Nat.add_sub_cancel_left]
  · exact (tabGet_memStore s.ms.mem (a / 64 * 64) bs b).trans (if_neg (by omega))
  · exact tabGet_tabSet (fun _ => false) s.ms.poison (a / 64) j p
  · exact (tabGet_tabSet (fun _ => (0 : BitVec 3)) s.ms.inj (a / 64) (a / 64) 0).trans (if_pos rfl)

end

/-! ### Counts of poisoned lines (R172) -/

section
variable {s : State} {h : Nat}

/-- R172: the loss of an ONLINE stack leaves what is stored, and its counts. -/
theorem loseStack_kept (hon : (s.hub h).st = .online) : DataKept s (loseStack s h) ∧
    ((loseStack s h).hub h).uc = (s.hub h).uc := by
  obtain ⟨hms, -, -⟩ := loseStack_lost hon
  refine ⟨(setHub_dataKept s h { s.hub h with st := .lost }).trans (.of_ms hms), ?_⟩
  rw [State.hub, hms]
  exact (congrArg HubS.uc ((setHub_hub ..).trans (if_pos rfl))).trans rfl

/-- A poisoned line counted leaves what is stored and the count of errors, and its stack's record stays. -/
theorem countPoisoned_online (hon : (s.hub h).st = .online) :
    DataKept s (countPoisoned s h) ∧ ((countPoisoned s h).hub h).uc = (s.hub h).uc ∧
    (s.pwr.saving ≤ 1 → (s.frec (srcHub h)).valid = true → ((countPoisoned s h).frec (srcHub h)).valid = true) := by
  unfold countPoisoned
  extract_lets r s1
  have hown : s1.hub h = { s.hub h with poisonedAt := r } := (setHub_hub ..).trans (if_pos rfl)
  have hon1 : (s1.hub h).st = .online := by rw [hown]; exact hon
  have huc : (s1.hub h).uc = (s.hub h).uc := by rw [hown]
  have h1 : DataKept s s1 := setHub_dataKept s h _
  split
  · obtain ⟨hkept, hsame⟩ := loseStack_kept hon1
    obtain ⟨-, -, hrec⟩ := loseStack_lost hon1
    exact ⟨h1.trans hkept, hsame.trans huc, fun hs _ => (hrec hs).2⟩
  · exact ⟨h1, huc, fun _ => id⟩

end

/-! ### The outcomes of a line's check (R161) -/

section
variable {s : State} {a : Nat}

/-- R161: a tagged line is returned as stored, with its tag. -/
theorem checkLine_poisoned (hp : s.poisonAt (a / 64) = true) (errs : Nat) :
    checkLine s a errs = ⟨s, storedLine s a, true⟩ := by
  unfold checkLine
  exact if_pos hp

/-- R161: a line with sound check symbols and no symbol in error is returned as stored. -/
theorem checkLine_noErrors (hi : popCount (s.injAt (a / 64)).toNat 3 = 0) :
    checkLine s a 0 = ⟨s, storedLine s a, s.poisonAt (a / 64)⟩ := by
  cases hp : s.poisonAt (a / 64) with
  | true => exact checkLine_poisoned hp 0
  | false => exact checkLine_plain hp hi

/-- R161: the hub of a line of which one symbol was in error. -/
def ceNoted (s : State) (a : Nat) : State :=
  s.updHub (hubOf s a) fun x => { x with
    ce := satAdd 32 x.ce 1, errAddr := BitVec.ofNat 64 (a / 64 * 64), wb := addNew x.wb (a / 64) }

/-- R161: the hub of a line of which more symbols were in error than can be corrected. -/
def ucNoted (s : State) (a : Nat) : State :=
  (lineSet (useFreeLine s) a (lineBytes (freeLine s)) true).updHub (hubOf s a) fun x => { x with
    uc := satAdd 32 x.uc 1, errAddr := BitVec.ofNat 64 (a / 64 * 64), wb := x.wb.filter (· ≠ a / 64) }

section
variable (hp : s.poisonAt (a / 64) = false) (hi : popCount (s.injAt (a / 64)).toNat 3 = 0)
include hp hi

/-- R161: one symbol in error, corrected. -/
theorem checkLine_one : checkLine s a 1 =
    ⟨pmuCount (bucketReport (ceNoted s a) 0 (srcHub (hubOf s a)) cMemCe (a / 64 * 64)) (wHub (hubOf s a)) evMemCe 0 1,
      storedLine s a, false⟩ := by
  have hinj : (if a / 64 ∈ (s.hub (hubOf s a)).wb then 0 else popCount (s.injAt (a / 64)).toNat 3) = 0 := by simp [hi]
  unfold checkLine
  dsimp only
  rw [if_neg (by simp [hp]), hinj, if_neg (by decide), if_pos rfl, if_neg (by decide)]
  rfl

/-- R161: more symbols in error than can be corrected. -/
theorem checkLine_many {errs : Nat} (he : 2 ≤ errs) : checkLine s a errs =
    ⟨countPoisoned (report (ucNoted s a) (srcHub (hubOf s a)) cMemUc (a / 64 * 64)) (hubOf s a),
      storedLine (ucNoted s a) a, true⟩ := by
  have hinj : (if a / 64 ∈ (s.hub (hubOf s a)).wb then 0 else popCount (s.injAt (a / 64)).toNat 3) = 0 := by simp [hi]
  have hzero : decide (errs = 0) = false := decide_eq_false (by omega)
  have hcol : (decide (0 < errs) && decide (0 < 0)) = false := by simp
  unfold checkLine
  dsimp only
  rw [if_neg (by simp [hp]), hinj, if_neg (by omega), if_neg (by omega), hzero, hcol]
  rfl

end

theorem ceNoted_moves (s : State) (a : Nat) : Moves [.ms] s (ceNoted s a) := setHub_moves s _ _

theorem ceNoted_dataKept (s : State) (a : Nat) : DataKept s (ceNoted s a) := setHub_dataKept s _ _

theorem ceNoted_hub (s : State) (a : Nat) : let x := (ceNoted s a).hub (hubOf s a)
    x.ce = satAdd 32 (s.hub (hubOf s a)).ce 1 ∧ a / 64 ∈ x.wb := by
  have h : (ceNoted s a).hub (hubOf s a) = _ := (setHub_hub ..).trans (if_pos rfl)
  rw [h]
  exact ⟨rfl, mem_addNew _ _⟩

theorem ucNoted_moves (s : State) (a : Nat) : Moves [.ms, .free] s (ucNoted s a) :=
  .step (setHub_moves _ _ _) rfl (.step (lineSet_moves _ a _ true) rfl ((free_moves s _).mono rfl))

theorem ucNoted_stored (s : State) (a : Nat) :
    LineStored s (ucNoted s a) (a / 64) (lineBytes (freeLine s)) true :=
  ((lineSet_stored (useFreeLine s) a (lineBytes (freeLine s)) true).keep (setHub_dataKept _ _ _)).after ⟨rfl, rfl, rfl⟩

theorem ucNoted_hub (s : State) (a : Nat) : let x := (ucNoted s a).hub (hubOf s a)
    x.uc = satAdd 32 (s.hub (hubOf s a)).uc 1 ∧ x.st = (s.hub (hubOf s a)).st := by
  have h : (ucNoted s a).hub (hubOf s a) = _ := (setHub_hub ..).trans (if_pos rfl)
  rw [h]
  exact ⟨rfl, rfl⟩

/-- R411: the level of a unit's bucket after an event. -/
theorem bucketReport_level (s : State) (b src cause addr : Nat) :
    (bucketReport s b src cause addr).level (levelKey b src) =
      if (s.bucket b).threshold.toNat ≤ s.level (levelKey b src) + 1 then 0 else s.level (levelKey b src) + 1 := by
  have hreport (t : State) : (report t src cause addr).level (levelKey b src) = t.level (levelKey b src) := by
    unfold report reportWith
    extract_lets
    split_ifs <;> rfl
  unfold bucketReport bucketAdd
  extract_lets n r
  unfold r
  split
  · exact (hreport _).trans ((setLevel_level ..).trans (if_pos rfl))
  · exact (setLevel_level ..).trans (if_pos rfl)

end
end Sys2Proof.Machine
namespace Sys2Proof.Machine
open Sys2Proof

/-! ### Requests at their hubs (R174) -/

section
variable {s : State} {a : Nat}

theorem memRequest_waits {q : HubReq} (h : q.waits s = true) :
    memRequest s q = { s with ms := { s.ms with waiting := s.ms.waiting ++ [q] } } := if_pos h

theorem memRequest_serves {q : HubReq} (h : q.waits s = false) : memRequest s q = serveReq s q :=
  if_neg (by simp [h])

/-- The answer of a line read. -/
def lineAnswered (r : LineRead) : State := r.st.answer (.data (lineBytes r.line) r.poison)

theorem lineAnswered_moves {ps qs : List Part} {r : LineRead} (h : Moves ps s r.st) (hps : covers ps qs = true)
    (hresp : covers [.resp] qs = true) : Moves qs s (lineAnswered r) :=
  .step (answer_moves _ _) hresp (h.mono hps)

theorem memRequest_line {errs : Nat} (ha : a % 64 = 0) (h : reqWaits s a 64 = false) :
    memRequest s (.read a 64 errs) = lineAnswered (readLine s a errs) := by
  rw [memRequest_serves (q := .read a 64 errs) h, serveReq, if_pos (by simp [ha])]
  rfl

/-! ### Lines read (R161, R166, R172) -/

theorem readLine_outside {errs : Nat} (h : memTop s ≤ a) :
    readLine s a errs = ⟨addressFault (useFreeLine s) a, freeLine s, true⟩ := if_pos h

theorem readLine_lost {errs : Nat} (h : a < memTop s) (hst : (s.hub (hubOf s a)).st = .lost) :
    readLine s a errs = ⟨useFreeLine s, freeLine s, true⟩ := by
  rw [readLine, if_neg (by omega), if_pos hst]

theorem readLine_online {errs : Nat} (h : a < memTop s) (hst : (s.hub (hubOf s a)).st = .online) :
    readLine s a errs = checkLine (pmuCount s (wHub (hubOf s a)) evMemReads 0 1) a errs := by
  rw [readLine, if_neg (by omega), if_neg (by simp [hst])]

theorem addressFault_moves (s : State) (a : Nat) : Moves [.flt, .host] s (addressFault s a) :=
  .ite (.refl _ s) (report_moves s _ _ _)

/-- R166: an access to no stack is recorded by a hub that is not LOST. -/
theorem addressFault_recorded (h : (s.hub (hubOf s a)).st ≠ .lost) :
    Recorded (srcHub (hubOf s a)) cAddress s (addressFault s a) := by
  rw [addressFault, if_neg h]
  exact report_recorded s _ _ _

/-- Bytes within a line, as stored. -/
theorem storedLine_slice {m : Nat} (h : a % 64 + m ≤ 64) :
    ((lineBytes (storedLine s a)).drop (a % 64)).take m = (List.range m).map fun i => s.byteAt (a + i) := by
  rw [lineBytes_storedLine]
  refine List.ext_getElem? fun i => ?_
  rw [List.getElem?_take, List.getElem?_drop, memBytes_getElem?, List.getElem?_map]
  by_cases hi : i < m
  · rw [if_pos hi, if_pos (by omega), List.getElem?_range hi, show a / 64 * 64 + (a % 64 + i) = a + i by omega]
    rfl
  · rw [if_neg hi, List.getElem?_eq_none (by simp; omega)]
    rfl

/-- A line of sound memory reads as stored. -/
theorem readLine_plain {n : Nat} (h : PlainSpan s a n) (hn : 0 < n) :
    Moves [.pmus] s (readLine s a 0).st ∧ (readLine s a 0).line = storedLine s a ∧ (readLine s a 0).poison = false := by
  obtain ⟨-, htop, hline⟩ := h
  obtain ⟨hst, hpoison, hinj⟩ := hline 0 hn
  rw [Nat.add_zero] at hst hpoison hinj
  have hm := pmuCount_moves s (wHub (hubOf s a)) evMemReads 0 1
  have hd := hm.dataKept rfl
  rw [readLine_online (by omega) hst,
    checkLine_plain ((hd.poisonAt _).trans hpoison) (by rw [hd.injAt]; exact hinj)]
  exact ⟨hm, hd.storedLine a, rfl⟩

/-- Bytes of sound memory, line by line. -/
theorem readSpan_plain {n fuel : Nat} (h : PlainSpan s a n) (hfuel : n ≠ 0 → a % 64 + n ≤ 64 * fuel) :
    Moves [.pmus] s (readSpan s a n fuel).1 ∧
      (readSpan s a n fuel).2 = ((List.range n).map fun i => s.byteAt (a + i), false) := by
  induction fuel generalizing s a n with
  | zero =>
    obtain rfl : n = 0 := by
      by_contra hn
      have := hfuel hn
      omega
    exact ⟨.refl _ s, rfl⟩
  | succ fuel ih =>
    rw [readSpan]
    split
    · next hn =>
      subst hn
      exact ⟨.refl _ s, rfl⟩
    · next hn =>
      have hfuel := hfuel hn
      extract_lets off here r rest
      have hhere : here ≤ n ∧ a % 64 + here ≤ 64 ∧ (here = n ∨ a % 64 + here = 64) := by
        unfold here off
        omega
      have hoff : off = a % 64 := rfl
      clear_value here off
      obtain ⟨hle, hfit, hend⟩ := hhere
      obtain ⟨hm, hl, hp⟩ := readLine_plain h (by omega)
      have hspan := (h.part (b := a + here) (m := n - here) (by omega) (by omega)).sound (hm.sound rfl rfl)
      obtain ⟨hrm, hrest⟩ := ih hspan (fun hmore => by omega)
      have hbytes : (fun i => r.st.byteAt (a + here + i)) = fun i => s.byteAt (a + (here + i)) :=
        funext fun i => (hm.byteAt rfl _).trans (by rw [Nat.add_assoc])
      have hrest' : rest.2 = ((List.range (n - here)).map fun i => s.byteAt (a + (here + i)), false) := by
        rw [← hbytes]
        exact hrest
      have hfirst : ((lineBytes r.line).drop off).take here = (List.range here).map fun i => s.byteAt (a + i) := by
        rw [show r.line = storedLine s a from hl, hoff]
        exact storedLine_slice hfit
      have hpoison : (r.poison || rest.2.2) = false := by
        rw [show r.poison = false from hp, hrest']
        rfl
      refine ⟨hm.trans hrm, ?_⟩
      dsimp only
      rw [hpoison, hfirst, hrest', show n = here + (n - here) by omega, List.range_add, List.map_append, List.map_map]
      simp [Function.comp_def]

/-- A served read of sound memory gives the bytes stored. -/
theorem memRequest_read_plain {n : Nat} (h : PlainSpan s a n) (hw : reqWaits s a n = false) :
    let t := memRequest s (.read a n 0)
    t.resp = .data ((List.range n).map fun i => s.byteAt (a + i)) false ∧ Moves [.pmus, .resp] s t := by
  intro t
  have hserve : t = serveReq s (.read a n 0) := memRequest_serves hw
  rw [hserve, serveReq]
  split
  · next hline =>
    obtain ⟨ha, rfl⟩ : a % 64 = 0 ∧ n = 64 := by simpa using hline
    obtain ⟨hm, hl, hp⟩ := readLine_plain h (by decide)
    refine ⟨?_, (hm.mono rfl).trans ((answer_moves _ _).mono rfl)⟩
    have hslice := storedLine_slice (s := s) (a := a) (m := 64) (by omega)
    rw [ha, List.drop_zero, List.take_of_length_le (Nat.le_of_eq (length_lineBytes _))] at hslice
    dsimp only
    rw [hl, hp, hslice]
    rfl
  · obtain ⟨hm, hr⟩ := readSpan_plain (fuel := n / 64 + 2) h (fun _ => by omega)
    refine ⟨?_, (hm.mono rfl).trans ((answer_moves _ _).mono rfl)⟩
    dsimp only
    rw [readMem, hr]
    rfl

end

/-! ### MEM_READ (R161, R172) -/

section
variable {s : State} {a errs : Nat}

/-- The outcome of a read of a tagged line. -/
theorem readLine_tagged (htop : a < memTop s) (hst : (s.hub (hubOf s a)).st = .online)
    (hp : s.poisonAt (a / 64) = true) : let r := readLine s a errs
    Moves [.pmus] s r.st ∧ r.line = storedLine s a ∧ r.poison = true := by
  have hm := pmuCount_moves s (wHub (hubOf s a)) evMemReads 0 1
  have hd := hm.dataKept rfl
  rw [readLine_online htop hst, checkLine_poisoned ((hd.poisonAt _).trans hp)]
  exact ⟨hm, hd.storedLine a, rfl⟩

section
variable (htop : a < memTop s) (hst : (s.hub (hubOf s a)).st = .online) (hp : s.poisonAt (a / 64) = false)
  (hi : popCount (s.injAt (a / 64)).toNat 3 = 0)
include htop hst hp hi

/-- The outcome of a read of a sound line. -/
theorem readLine_sound : let r := readLine s a 0
    Moves [.pmus] s r.st ∧ r.line = storedLine s a ∧ r.poison = false := by
  have hm := pmuCount_moves s (wHub (hubOf s a)) evMemReads 0 1
  have hd := hm.dataKept rfl
  rw [readLine_online htop hst, checkLine_plain ((hd.poisonAt _).trans hp) (by rw [hd.injAt]; exact hi)]
  exact ⟨hm, hd.storedLine a, rfl⟩

/-- The outcome of a read of a line with one symbol in error. -/
theorem readLine_one : let r := readLine s a 1
    let h := hubOf s a
    let n := s.level (levelKey 0 (srcHub h)) + 1
    Moves [.ms, .flt, .host, .pmus] s r.st ∧ DataKept s r.st ∧ r.line = storedLine s a ∧ r.poison = false ∧
      (r.st.hub h).ce = satAdd 32 (s.hub h).ce 1 ∧ a / 64 ∈ (r.st.hub h).wb ∧
      r.st.level (levelKey 0 (srcHub h)) = if (s.bucket 0).threshold.toNat ≤ n then 0 else n := by
  intro r h n
  have hm := pmuCount_moves s (wHub h) evMemReads 0 1
  generalize hs1 : pmuCount s (wHub h) evMemReads 0 1 = s1 at hm
  have hd := hm.dataKept rfl
  have hhub : hubOf s1 a = h := hubOf_of_st (fun n => congrArg HubS.st (hm.hub n rfl)) a
  have hcheck := checkLine_one ((hd.poisonAt _).trans hp) (by rw [hd.injAt]; exact hi)
  have hr : r = _ := (readLine_online htop hst).trans ((congrArg (checkLine · a 1) hs1).trans hcheck)
  rw [hhub] at hr
  have hnote := ceNoted_moves s1 a
  have hbucket := bucketReport_moves (ceNoted s1 a) 0 (srcHub h) cMemCe (a / 64 * 64)
  have hcount := pmuCount_moves (bucketReport (ceNoted s1 a) 0 (srcHub h) cMemCe (a / 64 * 64)) (wHub h) evMemCe 0 1
  have hlater := (hbucket.mono (ps := [.flt, .host, .pmus]) rfl).trans (hcount.mono rfl)
  have hown : r.st.hub h = (ceNoted s1 a).hub h := by rw [hr]; exact hlater.hub h rfl
  have hx := ceNoted_hub s1 a
  rw [hhub, hm.hub h rfl, ← hown] at hx
  refine ⟨?_, ?_, ?_, ?_, hx.1, hx.2, ?_⟩
  · rw [hr]
    exact (hm.mono rfl).trans ((hnote.mono rfl).trans (hlater.mono rfl))
  · rw [hr]
    exact hd.trans ((ceNoted_dataKept s1 a).trans (hlater.dataKept rfl))
  · rw [hr]
    exact hd.storedLine a
  · rw [hr]
  · rw [hr]
    have hflt := hcount.same .flt rfl
    have hlevel := bucketReport_level (ceNoted s1 a) 0 (srcHub h) cMemCe (a / 64 * 64)
    have hfirst : (ceNoted s1 a).flt = s.flt := (hnote.same .flt rfl).trans (hm.same .flt rfl)
    simp only [State.bucket, State.level, hfirst] at hlevel
    exact (congrArg (fun f : Flt => tabGet (fun _ => 0) f.levels _) hflt).trans hlevel

/-- The outcome of a read of a line with more symbols in error than can be corrected. -/
theorem readLine_many (he : 2 ≤ errs) : let r := readLine s a errs
    let h := hubOf s a
    r.poison = true ∧ LineStored s r.st (a / 64) (lineBytes (freeLine s)) true ∧
      (r.st.hub h).uc = satAdd 32 (s.hub h).uc 1 ∧ (s.pwr.saving ≤ 1 → (r.st.frec (srcHub h)).valid = true) := by
  intro r h
  have hm := pmuCount_moves s (wHub h) evMemReads 0 1
  generalize hs1 : pmuCount s (wHub h) evMemReads 0 1 = s1 at hm
  have hd := hm.dataKept rfl
  have hfree : freeLine s1 = freeLine s := by rw [freeLine, hm.same .free rfl, freeLine]
  have hhub : hubOf s1 a = h := hubOf_of_st (fun n => congrArg HubS.st (hm.hub n rfl)) a
  have hcheck := checkLine_many ((hd.poisonAt _).trans hp) (by rw [hd.injAt]; exact hi) he
  have hr : r = _ := (readLine_online htop hst).trans ((congrArg (checkLine · a errs) hs1).trans hcheck)
  rw [hhub] at hr
  clear_value r
  subst hr
  have hnote := ucNoted_moves s1 a
  have hreport := report_moves (ucNoted s1 a) (srcHub h) cMemUc (a / 64 * 64)
  have hx := ucNoted_hub s1 a
  rw [hhub, hm.hub h rfl, ← hreport.hub h rfl] at hx
  obtain ⟨huc, hon⟩ := hx
  obtain ⟨hkept, hsame, hvalid⟩ := countPoisoned_online (hon.trans hst)
  refine ⟨rfl, ?_, ?_, fun hs => ?_⟩
  · rw [← hfree]
    exact ((ucNoted_stored s1 a).keep ((hreport.dataKept rfl).trans hkept)).after hd
  · exact hsame.trans huc
  · have hsave : (ucNoted s1 a).pwr.saving ≤ 1 := by
      rw [hnote.same .pwr rfl, hm.same .pwr rfl]
      exact hs
    have hrec := report_recorded (ucNoted s1 a) (srcHub h) cMemUc (a / 64 * 64) hsave
    exact hvalid (by rw [hreport.same .pwr rfl]; exact hsave) hrec.2

end
end
end Sys2Proof.Machine
namespace Sys2Proof.Machine
open Sys2Proof

section
variable {s : State} {a : Nat}

/-- The answer of a line read, and what it leaves. -/
theorem lineAnswered_of {ps qs : List Part} {r : LineRead} {x : Line} {p : Bool} (hm : Moves ps s r.st)
    (hline : r.line = x) (hpoison : r.poison = p) (hps : covers ps qs = true) (hresp : covers [.resp] qs = true) :
    (lineAnswered r).resp = .data (lineBytes x) p ∧ OnlyChanges qs s (lineAnswered r) := by
  subst hline hpoison
  exact ⟨rfl, (lineAnswered_moves hm hps hresp).only⟩

theorem lineAnswered_kept (r : LineRead) : Moves [.resp] r.st (lineAnswered r) := answer_moves _ _

theorem Moves.level_eq {ps : List Part} {s t : State} (h : Moves ps s t) (hp : listed .flt ps = false) (k : Nat) :
    t.level k = s.level k := congrArg (fun f : Flt => tabGet (fun _ => 0) f.levels k) (h.same .flt hp)

/-! ### BAR4 and CXL.mem (R318, R326) -/

section
variable {f off n : Nat} {k : State → State} (hs : Served s f) (hw : wipeComplete s = true)
include hs hw

theorem bar4_inside (hlim : off + n ≤ bar4Limit s f) (htop : bar4Addr s f off + n ≤ memTop s) :
    bar4 s f off n k = k s := by
  obtain ⟨hopen, hide⟩ := hs
  have hin : ¬ (decide (bar4Limit s f < off + n) || decide (memTop s < bar4Addr s f off + n)) = true := by
    simp; omega
  simp only [bar4, hide, hopen, hw]
  simp only [Bool.not_true, Bool.or_false, Bool.false_eq_true, if_false]
  exact if_neg hin

/-- R326: an access past the function's window. -/
theorem bar4_pastLimit (hlim : bar4Limit s f < off + n) (htop : bar4Addr s f off + n ≤ memTop s) :
    bar4 s f off n k = s.answer .ur := by
  obtain ⟨hopen, hide⟩ := hs
  have hin : (decide (bar4Limit s f < off + n) || decide (memTop s < bar4Addr s f off + n)) = true := by simp [hlim]
  simp only [bar4, hide, hopen, hw]
  simp only [Bool.not_true, Bool.or_false, Bool.false_eq_true, if_false]
  rw [if_pos hin, if_neg (by omega)]

/-- R166, R326: an access past the map. -/
theorem bar4_outside (htop : memTop s < bar4Addr s f off + n) :
    bar4 s f off n k = (addressFault s (max (bar4Addr s f off) (memTop s))).answer .ur := by
  obtain ⟨hopen, hide⟩ := hs
  have hin : (decide (bar4Limit s f < off + n) || decide (memTop s < bar4Addr s f off + n)) = true := by simp [htop]
  simp only [bar4, hide, hopen, hw]
  simp only [Bool.not_true, Bool.or_false, Bool.false_eq_true, if_false]
  rw [if_pos hin, if_pos htop]

end

section
variable {k : State → State} (hl : s.host.linkUp = true) (hc : s.host.cxl = true) (hw : wipeComplete s = true)
include hl hc hw

theorem cxlMem_inside (htop : a < memTop s) : cxlMem s a k = k s := by
  rw [cxlMem, if_neg (by simp [hl, hc]), if_neg (by simp [hw]), if_neg (by omega)]

theorem cxlMem_outside (htop : memTop s ≤ a) : cxlMem s a k = (addressFault s a).answer .ur := by
  rw [cxlMem, if_neg (by simp [hl, hc]), if_neg (by simp [hw]), if_pos htop]

end

/-- R166: an access to no stack is answered as unsupported and recorded. -/
theorem faultAnswered (s : State) (a : Nat) : let t := (addressFault s a).answer .ur
    t.resp = .ur ∧ ((s.hub (hubOf s a)).st ≠ .lost → Recorded (srcHub (hubOf s a)) 0x303 s t) ∧
      OnlyChanges [.flt, .host, .resp] s t :=
  ⟨rfl, fun h => (addressFault_recorded h).trans_eq ((answer_moves _ _).frec _ rfl),
    (((addressFault_moves s a).mono rfl).trans ((answer_moves _ _).mono rfl)).only⟩

/-- A read of sound memory that the host's count comes before. -/
theorem countedRead_plain {n : Nat} (ev c : Nat) (h : PlainSpan s a n) (hw : reqWaits s a n = false) :
    let t := memRequest (pmuCount s wHost ev 0 c) (.read a n 0)
    t.resp = .data ((List.range n).map fun i => s.byteAt (a + i)) false ∧ OnlyChanges [.pmus, .resp] s t := by
  have hm := pmuCount_moves s wHost ev 0 c
  generalize pmuCount s wHost ev 0 c = t at hm
  have hw' : reqWaits t a n = false := by rw [reqWaits_congr (hm.same .ms rfl) (hm.same .pnet rfl)]; exact hw
  obtain ⟨hresp, hmoves⟩ := memRequest_read_plain (h.sound (hm.sound rfl rfl)) hw'
  have hbytes : (fun i => t.byteAt (a + i)) = fun i => s.byteAt (a + i) := funext fun i => hm.byteAt rfl _
  rw [hbytes] at hresp
  exact ⟨hresp, ((hm.mono rfl).trans hmoves).only⟩

/-- A request that waits, which the host's count comes before. -/
theorem countedRequest_waits (ev c : Nat) {q : HubReq} (hq : q.waits (pmuCount s wHost ev 0 c) = true) :
    let t := memRequest (pmuCount s wHost ev 0 c) q
    t.ms = { s.ms with waiting := s.ms.waiting ++ [q] } ∧ OnlyChanges [.ms, .pmus] s t := by
  intro t
  have ht : t = _ := memRequest_waits hq
  rw [ht]
  have hcount := pmuCount_moves s wHost ev 0 c
  have hwait := ms_moves (pmuCount s wHost ev 0 c) { s.ms with waiting := s.ms.waiting ++ [q] } id
  exact ⟨rfl, ((hcount.mono rfl).trans (hwait.mono rfl)).only⟩

theorem countedReqWaits (ev c a n : Nat) : reqWaits (pmuCount s wHost ev 0 c) a n = reqWaits s a n :=
  reqWaits_congr rfl rfl a n

end

/-! ### MEM_READ (R161, R172) -/

section
variable {a : Addr} {errs : Nat} {s : State} (hw : wipeComplete s = true)
include hw

theorem exec_memRead_waits (hreq : reqWaits s (a.toNat / 64 * 64) 64 = true) :
    exec (.memRead a errs) s =
      .next { s with ms := { s.ms with waiting := s.ms.waiting ++ [.read (a.toNat / 64 * 64) 64 errs] } } := by
  refine congrArg Host.Outcome.next ?_
  rw [if_pos hw]
  exact memRequest_waits hreq

theorem exec_memRead (hreq : reqWaits s (a.toNat / 64 * 64) 64 = false) :
    exec (.memRead a errs) s = .next (lineAnswered (readLine s (a.toNat / 64 * 64) errs)) := by
  refine congrArg Host.Outcome.next ?_
  rw [if_pos hw]
  exact memRequest_line (by omega) hreq

section
variable (hreq : reqWaits s (a.toNat / 64 * 64) 64 = false)
include hreq

section
variable (htop : a.toNat / 64 * 64 < memTop s) (hon : (s.hub (hubOf s (a.toNat / 64 * 64))).st = .online)
include htop hon

/-- R161: the read of a line with one symbol in error is answered with the line, and the hub notes it. -/
theorem memRead_one (hp : s.poisonAt (a.toNat / 64) = false) (hi : popCount (s.injAt (a.toNat / 64)).toNat 3 = 0) :
    let h := hubOf s (a.toNat / 64 * 64)
    let n := s.level (levelKey 0 (srcHub h)) + 1
    Completes (.memRead a 1) s fun s' =>
      s'.resp = .data (lineBytes (storedLine s (a.toNat / 64 * 64))) false ∧ (s'.hub h).ce = satAdd 32 (s.hub h).ce 1 ∧
      a.toNat / 64 ∈ (s'.hub h).wb ∧ s'.ms.mem = s.ms.mem ∧ s'.ms.poison = s.ms.poison ∧
      s'.level (levelKey 0 (srcHub h)) = (if (s.bucket 0).threshold.toNat ≤ n then 0 else n) ∧
      OnlyChanges [.ms, .flt, .host, .pmus, .resp] s s' := by
  intro h n
  have hk : a.toNat / 64 * 64 / 64 = a.toNat / 64 := by omega
  obtain ⟨hm, hdata, hline, hpoison, hce, hwb, hlevel⟩ :=
    readLine_one htop hon (by rw [hk]; exact hp) (by rw [hk]; exact hi)
  obtain ⟨hresp, honly⟩ := lineAnswered_of (qs := [.ms, .flt, .host, .pmus, .resp]) hm hline hpoison rfl rfl
  have hans := lineAnswered_kept (readLine s (a.toNat / 64 * 64) 1)
  have hkept := hdata.trans (hans.dataKept rfl)
  rw [hk] at hwb
  rw [← hans.hub h rfl] at hce hwb
  exact ⟨_, exec_memRead hw hreq, hresp, hce, hwb, hkept.mem, hkept.poison, (hans.level_eq rfl _).trans hlevel, honly⟩

/-- R161, R172: the read of a line with more symbols in error than can be corrected tags it and is answered poisoned. -/
theorem memRead_many (hp : s.poisonAt (a.toNat / 64) = false) (hi : popCount (s.injAt (a.toNat / 64)).toNat 3 = 0)
    (he : 2 ≤ errs) : let k := a.toNat / 64
    let h := hubOf s (k * 64)
    Completes (.memRead a errs) s fun s' =>
      (∃ bs, s'.resp = .data bs true) ∧ s'.poisonAt k = true ∧ (∀ j, j ≠ k → s'.poisonAt j = s.poisonAt j) ∧
      (s'.hub h).uc = satAdd 32 (s.hub h).uc 1 ∧ (s.pwr.saving ≤ 1 → (s'.frec (srcHub h)).valid = true) ∧
      (∀ b, b / 64 ≠ k → s'.byteAt b = s.byteAt b) ∧
      OnlyChanges [.ms, .free, .flt, .host, .pmus, .tack, .flash, .resp] s s' := by
  intro k h
  have hk : a.toNat / 64 * 64 / 64 = k := by omega
  obtain ⟨hpoison, hstored, huc, hvalid⟩ :=
    readLine_many htop hon (by rw [hk]; exact hp) (by rw [hk]; exact hi) he
  obtain ⟨hresp, honly⟩ := lineAnswered_of (qs := [.ms, .free, .flt, .host, .pmus, .tack, .flash, .resp])
    (readLine_moves s (a.toNat / 64 * 64) errs) rfl hpoison rfl rfl
  have hans := lineAnswered_kept (readLine s (a.toNat / 64 * 64) errs)
  rw [hk] at hstored
  have hkept := hstored.keep (hans.dataKept rfl)
  rw [← hans.hub h rfl] at huc
  rw [← hans.frec (srcHub h) rfl] at hvalid
  exact ⟨_, exec_memRead hw hreq, ⟨_, hresp⟩, hkept.tag, hkept.tags, huc, hvalid, hkept.others (length_lineBytes _),
    honly⟩

end

/-- R172: the read of a line of a LOST stack. -/
theorem memRead_lost (htop : a.toNat / 64 * 64 < memTop s) (hst : (s.hub (hubOf s (a.toNat / 64 * 64))).st = .lost) :
    Completes (.memRead a errs) s fun s' => (∃ bs, s'.resp = .data bs true) ∧ OnlyChanges [.free, .resp] s s' := by
  refine ⟨_, exec_memRead hw hreq, ?_⟩
  rw [readLine_lost htop hst]
  exact ⟨⟨_, rfl⟩, (((free_moves s _).mono rfl).trans ((answer_moves _ _).mono rfl)).only⟩

/-- R166: the read of a line of no stack. -/
theorem memRead_outside (htop : memTop s ≤ a.toNat / 64 * 64) : let h := hubOf s (a.toNat / 64 * 64)
    Completes (.memRead a errs) s fun s' =>
      (∃ bs, s'.resp = .data bs true) ∧ ((s.hub h).st ≠ .lost → Recorded (srcHub h) 0x303 s s') ∧
      OnlyChanges [.free, .flt, .host, .resp] s s' := by
  intro h
  refine ⟨_, exec_memRead hw hreq, ?_⟩
  rw [readLine_outside htop]
  have hfault := addressFault_moves (useFreeLine s) (a.toNat / 64 * 64)
  refine ⟨⟨_, rfl⟩, fun hst => ?_,
    (((free_moves s _).mono rfl).trans ((hfault.mono rfl).trans ((answer_moves _ _).mono rfl))).only⟩
  exact (addressFault_recorded (s := useFreeLine s) hst).trans_eq ((answer_moves _ _).frec _ rfl)

end

/-! ### BAR4_READ and CXL_MEM_READ (R318, R326) -/

theorem exec_bar4Read_inside {f : Func} {off : BitVec 64} {len : Nat} (hserved : Served s f.toNat)
    (hlim : off.toNat + len ≤ bar4Limit s f.toNat) (htop : bar4Addr s f.toNat off.toNat + len ≤ memTop s) :
    let b := bar4Addr s f.toNat off.toNat
    exec (.bar4Read f off len) s =
      .next (memRequest (pmuCount s wHost evHostRd 0 (unitsOf b len)) (.read b len 0)) :=
  congrArg Host.Outcome.next (bar4_inside hserved hw hlim htop)

theorem exec_cxlMemRead_inside (hl : s.host.linkUp = true) (hc : s.host.cxl = true) (htop : a.toNat < memTop s) :
    exec (.cxlMemRead a) s =
      .next (memRequest (pmuCount s wHost evHostRd 0 1) (.read (a.toNat / 64 * 64) 64 0)) :=
  congrArg Host.Outcome.next (cxlMem_inside hl hc hw htop)

end

/-- Settles O28: each state of the line is one outcome of `checkLine`, reached through `readLine`; a read of sound
memory through BAR4 goes line by line, and gives the stored bytes of each. -/
theorem memReadOutcomes : Obligations.MemReadOutcomes := by
  unfold Obligations.MemReadOutcomes
  intro a errs s hw k reached h x line sound
  have hk : k * 64 / 64 = k := by omega
  refine ⟨fun hwait => exec_memRead_waits hw (by simpa [reached] using hwait), fun hr htop hon => ⟨fun hp => ?_,
    fun hp he hi => ?_, fun hp he hi => ?_, fun hp he hi => memRead_many hw hr htop hon hp hi he⟩,
    fun hr htop hlost => memRead_lost hw hr htop hlost, fun hr htop => memRead_outside hw hr htop,
    fun f off len hserved => ⟨fun hlim hin => ⟨fun hreq hplain => ?_, fun hreq => ?_⟩, fun hlim hin => ?_,
    fun htop => ?_⟩, fun hl hc => ⟨fun htop hr hplain => ?_, fun htop => ?_⟩⟩
  · obtain ⟨hm, hline, hpoison⟩ := readLine_tagged (errs := errs) htop hon (by rw [hk]; exact hp)
    exact ⟨_, exec_memRead hw hr, lineAnswered_of hm hline hpoison rfl rfl⟩
  · subst he
    obtain ⟨hm, hline, hpoison⟩ := readLine_sound htop hon (by rw [hk]; exact hp) (by rw [hk]; exact hi)
    exact ⟨_, exec_memRead hw hr, lineAnswered_of hm hline hpoison rfl rfl⟩
  · subst he
    exact memRead_one hw hr htop hon hp hi
  · exact ⟨_, exec_bar4Read_inside hw hserved hlim hin, countedRead_plain _ _ hplain hreq⟩
  · exact ⟨_, exec_bar4Read_inside hw hserved hlim hin,
      countedRequest_waits _ _ ((countedReqWaits _ _ _ _).trans hreq)⟩
  · exact congrArg Host.Outcome.next (bar4_pastLimit hserved hw hlim hin)
  · exact ⟨_, congrArg Host.Outcome.next (bar4_outside hserved hw htop), faultAnswered s _⟩
  · exact ⟨_, exec_cxlMemRead_inside hw hl hc (by omega), countedRead_plain _ _ hplain hr⟩
  · exact ⟨_, congrArg Host.Outcome.next (cxlMem_outside hl hc hw htop), faultAnswered s _⟩

end Sys2Proof.Machine
namespace Sys2Proof.Machine
open Sys2Proof

/-! ### Whole lines stored with their tags (R160, R161, R172) -/

section
variable {s : State} {a : Nat}

/-- R160, R161: a line stored with no injection armed, which its hub need not write back. -/
def lineWritten (s : State) (a : Nat) (bs : List Byte) (p : Bool) : State :=
  (lineSet s a bs p).updHub (hubOf s a) fun x => { x with wb := x.wb.filter (· ≠ a / 64) }

/-- R172: the hub of a line stored with a new tag. -/
def newlyPoisoned (s : State) (a : Nat) (bs : List Byte) (p : Bool) : State :=
  (lineWritten s a bs p).updHub (hubOf s a) fun x => { x with uc := satAdd 32 x.uc 1 }

theorem storeLine_unarmed (harm : s.flt.arm = none) (bs : List Byte) (p : Bool) : storeLine s a bs p =
    if p && !s.poisonAt (a / 64) then countPoisoned (newlyPoisoned s a bs p) (hubOf s a)
    else lineWritten s a bs p := by
  unfold storeLine
  extract_lets k h m s1 s2
  have hs1 : s1 = lineSet s a bs p := by
    unfold s1 m
    rw [injMask_unarmed harm]
    exact injUse_unarmed (s := lineSet s a bs p) harm _ _
  have hs2 : s2 = lineWritten s a bs p := congrArg (fun t : State => t.updHub h _) hs1
  rw [hs2]
  rfl

theorem lineWritten_moves (s : State) (a : Nat) (bs : List Byte) (p : Bool) : Moves [.ms] s (lineWritten s a bs p) :=
  (lineSet_moves s a bs p).trans (setHub_moves _ _ _)

theorem lineWritten_stored (s : State) (a : Nat) (bs : List Byte) (p : Bool) :
    LineStored s (lineWritten s a bs p) (a / 64) bs p := (lineSet_stored s a bs p).keep (setHub_dataKept _ _ _)

theorem lineWritten_hub (s : State) (a : Nat) (bs : List Byte) (p : Bool) :
    (lineWritten s a bs p).hub (hubOf s a) =
      { s.hub (hubOf s a) with wb := (s.hub (hubOf s a)).wb.filter (· ≠ a / 64) } :=
  (setHub_hub ..).trans (if_pos rfl)

theorem newlyPoisoned_hub (s : State) (a : Nat) (bs : List Byte) (p : Bool) :
    ((newlyPoisoned s a bs p).hub (hubOf s a)).st = (s.hub (hubOf s a)).st ∧
      ((newlyPoisoned s a bs p).hub (hubOf s a)).uc = satAdd 32 (s.hub (hubOf s a)).uc 1 := by
  have h : (newlyPoisoned s a bs p).hub (hubOf s a) = _ := (setHub_hub ..).trans (if_pos rfl)
  rw [h, lineWritten_hub]
  exact ⟨rfl, rfl⟩

theorem newlyPoisoned_stored (s : State) (a : Nat) (bs : List Byte) (p : Bool) :
    LineStored s (newlyPoisoned s a bs p) (a / 64) bs p := (lineWritten_stored s a bs p).keep (setHub_dataKept _ _ _)

/-- The parts that a line stored with a new tag may change (R172). -/
def poisonParts : List Part := [.ms, .tack, .flash, .flt, .host]

theorem countPoisoned_poisonParts (s : State) (h : Nat) : Moves poisonParts s (countPoisoned s h) := by
  unfold countPoisoned
  extract_lets r s1
  have h1 : Moves poisonParts s s1 := (setHub_moves s _ _).mono rfl
  exact .ite (.step (loseStack_moves _) rfl h1) h1

theorem storeLine_poisonParts (harm : s.flt.arm = none) (bs : List Byte) (p : Bool) :
    Moves poisonParts s (storeLine s a bs p) := by
  have hwritten := (lineWritten_moves s a bs p).mono (ps := poisonParts) rfl
  rw [storeLine_unarmed harm]
  exact .ite (.step (countPoisoned_poisonParts _ _) rfl (.step (setHub_moves _ _ _) rfl hwritten)) hwritten

/-- A line stored with no new tag. -/
theorem storeLine_noNewTag (harm : s.flt.arm = none) {p : Bool} (hp : (p && !s.poisonAt (a / 64)) = false)
    (bs : List Byte) : storeLine s a bs p = lineWritten s a bs p := by
  rw [storeLine_unarmed harm, hp]
  rfl

/-- R160, R172: what a line of an ONLINE stack stored with no injection armed holds, and its hub's count. -/
theorem storeLine_stored (harm : s.flt.arm = none) (hon : (s.hub (hubOf s a)).st = .online) (bs : List Byte)
    (p : Bool) :
    LineStored s (storeLine s a bs p) (a / 64) bs p ∧ ((storeLine s a bs p).hub (hubOf s a)).uc =
      if p = true ∧ s.poisonAt (a / 64) = false then satAdd 32 (s.hub (hubOf s a)).uc 1
      else (s.hub (hubOf s a)).uc := by
  rw [storeLine_unarmed harm]
  by_cases hp : p = true ∧ s.poisonAt (a / 64) = false
  · obtain ⟨hst, huc⟩ := newlyPoisoned_hub s a bs p
    obtain ⟨hkept, hsame, -⟩ := countPoisoned_online (hst.trans hon)
    rw [if_pos (by simp [hp]), if_pos hp]
    exact ⟨(newlyPoisoned_stored s a bs p).keep hkept, hsame.trans huc⟩
  · rw [if_neg (by simpa using hp), if_neg hp]
    exact ⟨lineWritten_stored s a bs p, by rw [lineWritten_hub]⟩

/-- R162: a line as patched is the bytes stored within it. -/
theorem patched_bytes {t : State} {bs : List Byte} (h : a % 64 + bs.length ≤ 64)
    (hstored : StoresBytes s t (a / 64 * 64) (patched s a bs)) : StoresBytes s t a bs := by
  have hlen := patched_length (s := s) h
  obtain ⟨hin, hout⟩ := hstored
  refine ⟨fun i hi => ?_, fun b hb => ?_⟩
  · have hb := hin (a % 64 + i) (by omega)
    rw [show a / 64 * 64 + (a % 64 + i) = a + i by omega, patched_getD (by omega), if_pos (by omega)] at hb
    rw [hb, Nat.add_sub_cancel_left]
  · by_cases hline : b < a / 64 * 64 ∨ a / 64 * 64 + 64 ≤ b
    · exact hout b (by omega)
    · have hb' := hin (b - a / 64 * 64) (by omega)
      rw [show a / 64 * 64 + (b - a / 64 * 64) = b by omega, patched_getD (by omega), if_neg (by omega)] at hb'
      rw [hb', show a / 64 * 64 + (b - a / 64 * 64) = b by omega]

/-! ### Lines written (R162, R166, R172) -/

theorem writeLine_whole (htop : a < memTop s) (hon : (s.hub (hubOf s a)).st = .online) {bs : List Byte}
    (hlen : bs.length = 64) (p : Bool) (errs : Nat) :
    writeLine s a bs p errs = storeLine (pmuCount s (wHub (hubOf s a)) evMemWrites 0 1) a bs p := by
  rw [writeLine, if_neg (by omega), if_neg (by simp [hon]), if_pos hlen]

theorem writeLine_lost (htop : a < memTop s) (hlost : (s.hub (hubOf s a)).st = .lost) (bs : List Byte) (p : Bool)
    (errs : Nat) : writeLine s a bs p errs = s := by
  rw [writeLine, if_neg (by omega), if_pos hlost]

/-- R162: part of a line of an ONLINE stack with sound check symbols. -/
theorem writeLine_merged (htop : a < memTop s) (hon : (s.hub (hubOf s a)).st = .online) {bs : List Byte}
    (hlen : bs.length ≠ 64) (hi : popCount (s.injAt (a / 64)).toNat 3 = 0) (p : Bool) :
    let t := pmuCount s (wHub (hubOf s a)) evMemRmw 0 1
    let u := storeLine t a (patched t a bs) (p || s.poisonAt (a / 64))
    writeLine s a bs p 0 =
      if s.poisonAt (a / 64) && !p then report u (srcHub (hubOf s a)) cPartialPoison (a / 64 * 64) else u := by
  intro t u
  have hm := pmuCount_moves s (wHub (hubOf s a)) evMemRmw 0 1
  have hd := hm.dataKept rfl
  have hc : checkLine t a 0 = ⟨t, storedLine t a, s.poisonAt (a / 64)⟩ := by
    rw [checkLine_noErrors (by rw [hd.injAt]; exact hi), hd.poisonAt]
  have hst : (t.hub (hubOf s a)).st ≠ .lost := by rw [hm.hub _ rfl, hon]; decide
  rw [writeLine, if_neg (by omega), if_neg (by simp [hon]), if_neg hlen, hc]
  dsimp only
  rw [if_neg hst]
  rfl

end

/-- Counts leave what a line's store depends on. -/
theorem pmuCount_hubOf (s : State) (w ev inst c a : Nat) : hubOf (pmuCount s w ev inst c) a = hubOf s a :=
  hubOf_of_st (fun n => congrArg HubS.st ((pmuCount_moves s w ev inst c).hub n rfl)) a

section
variable {s : State} {a : Nat} (htop : a < memTop s) (hon : (s.hub (hubOf s a)).st = .online)
  (harm : s.flt.arm = none)
include htop hon harm

/-- R160, R162, R172: a whole line written. -/
theorem writeLine_whole_stored {bs : List Byte} (hlen : bs.length = 64) (p : Bool) (errs : Nat) :
    LineStored s (writeLine s a bs p errs) (a / 64) bs p ∧
    ((writeLine s a bs p errs).hub (hubOf s a)).uc =
      (if p = true ∧ s.poisonAt (a / 64) = false then satAdd 32 (s.hub (hubOf s a)).uc 1
       else (s.hub (hubOf s a)).uc) ∧
    Moves (.pmus :: poisonParts) s (writeLine s a bs p errs) ∧
    (p = false → Moves [.ms, .pmus] s (writeLine s a bs p errs)) := by
  have hm := pmuCount_moves s (wHub (hubOf s a)) evMemWrites 0 1
  have hhub := pmuCount_hubOf s (wHub (hubOf s a)) evMemWrites 0 1 a
  rw [writeLine_whole htop hon hlen]
  generalize pmuCount s (wHub (hubOf s a)) evMemWrites 0 1 = t at hm hhub
  have hd := hm.dataKept rfl
  have hh := hm.hub (hubOf s a) rfl
  have harm' : t.flt.arm = none := (congrArg Flt.arm (hm.same .flt rfl)).trans harm
  obtain ⟨hstored, huc⟩ := storeLine_stored harm' (by rw [hhub, hh]; exact hon) bs p
  rw [hhub, hh, hd.poisonAt] at huc
  refine ⟨hstored.after hd, huc, (hm.mono rfl).trans ((storeLine_poisonParts harm' bs p).mono rfl), fun hp => ?_⟩
  rw [storeLine_noNewTag harm' (by rw [hp]; rfl)]
  exact (hm.mono rfl).trans ((lineWritten_moves t a bs p).mono rfl)

/-- R162, R172: part of a line written, whose POISON tag is kept and told. -/
theorem writeLine_merged_stored {bs : List Byte} (hfit : a % 64 + bs.length ≤ 64) (hlen : bs.length < 64)
    (hi : popCount (s.injAt (a / 64)).toNat 3 = 0) (p : Bool) : let t := writeLine s a bs p 0
    StoresBytes s t a bs ∧ (∀ j, t.poisonAt j = if j = a / 64 then (p || s.poisonAt j) else s.poisonAt j) ∧
    (s.poisonAt (a / 64) = true → p = false → Recorded (srcHub (hubOf s a)) cPartialPoison s t) ∧
    Moves (.pmus :: poisonParts) s t := by
  intro t
  have hm := pmuCount_moves s (wHub (hubOf s a)) evMemRmw 0 1
  have hhub := pmuCount_hubOf s (wHub (hubOf s a)) evMemRmw 0 1 a
  have ht : t = _ := writeLine_merged htop hon (by omega) hi p
  clear_value t
  generalize pmuCount s (wHub (hubOf s a)) evMemRmw 0 1 = v at hm hhub ht
  have hd := hm.dataKept rfl
  have harm' : v.flt.arm = none := (congrArg Flt.arm (hm.same .flt rfl)).trans harm
  obtain ⟨hstored, -⟩ := storeLine_stored harm' (by rw [hhub, hm.hub _ rfl]; exact hon) (patched v a bs)
    (p || s.poisonAt (a / 64))
  have hparts := storeLine_poisonParts (a := a) harm' (patched v a bs) (p || s.poisonAt (a / 64))
  generalize storeLine v a (patched v a bs) (p || s.poisonAt (a / 64)) = u at hstored hparts ht
  have hreport := report_moves u (srcHub (hubOf s a)) cPartialPoison (a / 64 * 64)
  have hut : Moves [.flt, .host] u t := by
    rw [ht]
    exact .ite hreport (.refl _ u)
  have hkept := hstored.keep (hut.dataKept rfl)
  obtain ⟨hin, hout⟩ := patched_bytes hfit hkept.bytes
  refine ⟨⟨hin, fun b hb => (hout b hb).trans (hd.byteAt b)⟩, fun j => ?_, fun hpoison hp hs => ?_,
    (hm.mono rfl).trans ((hparts.mono rfl).trans (hut.mono rfl))⟩
  · rw [hkept.poison, hd.poisonAt]
    split
    · next hj => rw [hj]
    · rfl
  · rw [ht, if_pos (by simp [hpoison, hp])]
    refine report_recorded u _ _ _ ?_
    rw [hparts.same .pwr rfl, hm.same .pwr rfl]
    exact hs

end

/-! ### Write requests (R162, R174) -/

section
variable {s : State} {a : Nat} {bs : List Byte} {p : Bool} {errs : Nat} {who : Option Func}

theorem memRequest_write (hreq : reqWaits s a bs.length = false) :
    memRequest s (.write a bs p errs who) =
      (if bs.length ≤ 64 - a % 64 then writeLine s a bs p errs else writeMem s a bs p).answer .ok :=
  memRequest_serves (q := .write a bs p errs who) hreq

theorem memRequest_writeLine (hreq : reqWaits s a bs.length = false) (hfit : a % 64 + bs.length ≤ 64) :
    memRequest s (.write a bs p errs who) = (writeLine s a bs p errs).answer .ok := by
  rw [memRequest_write hreq, if_pos (by omega)]

/-- A write to sound memory, of any length. -/
theorem memRequest_write_plain (hplain : PlainSpan s a bs.length) (hreq : reqWaits s a bs.length = false)
    (hne : bs ≠ []) : let t := memRequest s (.write a bs false 0 who)
    StoresBytes s t a bs ∧ t.resp = .ok ∧ Moves [.ms, .pmus, .resp] s t := by
  intro t
  obtain ⟨u, hu, ht⟩ : ∃ u, Stores s u a bs ∧ t = u.answer .ok := by
    refine ⟨_, ?_, memRequest_write hreq⟩
    split
    · exact writeLine_stores hplain hne (by omega)
    · exact writeMem_stores hplain
  rw [ht]
  exact ⟨hu.bytes.between (.refl [] s) rfl (answer_moves u .ok) rfl, rfl,
    (hu.moves.mono rfl).trans ((answer_moves u .ok).mono rfl)⟩

end

section
variable {a : Addr} {data : Line} {p : Bool} {s : State}

/-- R160: the address of a line is its own line's. -/
theorem lineAddr_div (a : Addr) : a.toNat / 64 * 64 / 64 = a.toNat / 64 := by omega

theorem memRequest_wholeLine (hreq : reqWaits s (a.toNat / 64 * 64) 64 = false) :
    memRequest s (.write (a.toNat / 64 * 64) (lineBytes data) p 0 none) =
      (writeLine s (a.toNat / 64 * 64) (lineBytes data) p 0).answer .ok :=
  memRequest_writeLine (by rw [length_lineBytes]; exact hreq) (by rw [length_lineBytes]; omega)

/-- R160, R162, R172: a whole line written to an ONLINE stack, and answered. -/
theorem wholeLine_outcome (htop : a.toNat / 64 * 64 < memTop s)
    (hon : (s.hub (hubOf s (a.toNat / 64 * 64))).st = .online) (harm : s.flt.arm = none)
    (hreq : reqWaits s (a.toNat / 64 * 64) 64 = false) : let k := a.toNat / 64
    let g := hubOf s (k * 64)
    let t := memRequest s (.write (k * 64) (lineBytes data) p 0 none)
    LineStored s t k (lineBytes data) p ∧ t.resp = .ok ∧
    (t.hub g).uc = (if p = true ∧ s.poisonAt k = false then satAdd 32 (s.hub g).uc 1 else (s.hub g).uc) ∧
    Moves (.resp :: .pmus :: poisonParts) s t ∧ (p = false → Moves [.ms, .pmus, .resp] s t) := by
  intro k g t
  obtain ⟨hstored, huc, hmoves, hplain⟩ := writeLine_whole_stored htop hon harm (length_lineBytes data) p 0
  rw [lineAddr_div] at hstored huc
  have ht : t = _ := memRequest_wholeLine hreq
  clear_value t
  subst ht
  generalize writeLine s (a.toNat / 64 * 64) (lineBytes data) p 0 = u at *
  have hans := answer_moves u .ok
  refine ⟨hstored.keep (hans.dataKept rfl), rfl, ?_, (hmoves.mono rfl).trans (hans.mono rfl),
    fun hp => ((hplain hp).mono rfl).trans (hans.mono rfl)⟩
  rw [hans.hub _ rfl]
  exact huc

/-- R160, R162, R172: MEM_WRITE to an ONLINE stack. -/
theorem memWrite_online (hw : wipeComplete s = true) (harm : s.flt.arm = none) (htop : a.toNat / 64 * 64 < memTop s)
    (hreq : reqWaits s (a.toNat / 64 * 64) 64 = false)
    (hon : (s.hub (hubOf s (a.toNat / 64 * 64))).st = .online) : let k := a.toNat / 64
    let g := hubOf s (k * 64)
    Completes (.memWrite a data p) s fun s' =>
      (∀ i, i < 64 → s'.byteAt (k * 64 + i) = (lineBytes data).getD i 0) ∧ s'.poisonAt k = p ∧ s'.injAt k = 0 ∧
      (∀ b, b / 64 ≠ k → s'.byteAt b = s.byteAt b) ∧ (∀ j, j ≠ k → s'.poisonAt j = s.poisonAt j) ∧ s'.resp = .ok ∧
      (s'.hub g).uc = (if p = true ∧ s.poisonAt k = false then satAdd 32 (s.hub g).uc 1 else (s.hub g).uc) ∧
      OnlyChanges (if p then [.ms, .pmus, .tack, .flash, .flt, .host, .resp] else [.ms, .pmus, .resp]) s s' := by
  intro k g
  obtain ⟨hstored, hresp, huc, hmoves, hplain⟩ := wholeLine_outcome (data := data) (p := p) htop hon harm hreq
  refine ⟨_, congrArg Host.Outcome.next (if_pos hw), fun i hi => ?_, hstored.tag, hstored.inj,
    hstored.others (length_lineBytes _), hstored.tags, hresp, huc, ?_⟩
  · exact hstored.bytes.1 i (by rw [length_lineBytes]; exact hi)
  · cases p with
    | true => exact (hmoves.mono rfl).only
    | false => exact (hplain rfl).only

/-- R172: MEM_WRITE to a LOST stack. -/
theorem memWrite_lost (hw : wipeComplete s = true) (hreq : reqWaits s (a.toNat / 64 * 64) 64 = false)
    (htop : a.toNat / 64 * 64 < memTop s) (hlost : (s.hub (hubOf s (a.toNat / 64 * 64))).st = .lost) :
    exec (.memWrite a data p) s = .next (s.answer .ok) := by
  refine congrArg Host.Outcome.next ((if_pos hw).trans ?_)
  rw [memRequest_wholeLine hreq, writeLine_lost htop hlost]

/-- R318: CXL_MEM_WRITE to an ONLINE stack. -/
theorem cxlMemWrite_online (hw : wipeComplete s = true) (harm : s.flt.arm = none)
    (htop : a.toNat / 64 * 64 < memTop s) (hl : s.host.linkUp = true) (hc : s.host.cxl = true)
    (hreq : reqWaits s (a.toNat / 64 * 64) 64 = false) (hon : (s.hub (hubOf s (a.toNat / 64 * 64))).st = .online)
    (ha : a.toNat < memTop s) : Completes (.cxlMemWrite a data p) s fun s' =>
      StoresBytes s s' (a.toNat / 64 * 64) (lineBytes data) ∧ s'.poisonAt (a.toNat / 64) = p ∧ s'.resp = .ok ∧
      OnlyChanges [.ms, .pmus, .tack, .flash, .flt, .host, .resp] s s' := by
  have hexec : exec (.cxlMemWrite a data p) s = .next (memRequest (pmuCount s wHost evHostWr 0 1)
      (.write (a.toNat / 64 * 64) (lineBytes data) p 0 none)) := congrArg Host.Outcome.next (cxlMem_inside hl hc hw ha)
  have hm := pmuCount_moves s wHost evHostWr 0 1
  have hhub := pmuCount_hubOf s wHost evHostWr 0 1 (a.toNat / 64 * 64)
  have hreq' := (countedReqWaits evHostWr 1 (a.toNat / 64 * 64) 64).trans hreq
  generalize pmuCount s wHost evHostWr 0 1 = t at *
  have htop' : a.toNat / 64 * 64 < memTop t := by rwa [memTop_of_st fun n => congrArg HubS.st (hm.hub n rfl)]
  obtain ⟨hstored, hresp, -, hmoves, -⟩ := wholeLine_outcome (data := data) (p := p) htop'
    (by rw [hhub, hm.hub _ rfl]; exact hon) ((congrArg Flt.arm (hm.same .flt rfl)).trans harm) hreq'
  have hkept := hstored.after (hm.dataKept rfl)
  exact ⟨_, hexec, hkept.bytes, hkept.tag, hresp, ((hm.mono rfl).trans (hmoves.mono rfl)).only⟩

/-- R162, R172: READ_MODIFY_WRITE of an ONLINE stack. -/
theorem readModifyWrite_online {bs : List Byte} (hw : wipeComplete s = true) (harm : s.flt.arm = none)
    (htop : a.toNat / 64 * 64 < memTop s) (hreq : reqWaits s a.toNat bs.length = false)
    (hon : (s.hub (hubOf s a.toNat)).st = .online) (hlen : bs.length < 64) (hfit : a.toNat % 64 + bs.length ≤ 64)
    (hi : popCount (s.injAt (a.toNat / 64)).toNat 3 = 0) : let k := a.toNat / 64
    Completes (.readModifyWrite a bs p 0) s fun s' =>
      (∀ i, i < bs.length → s'.byteAt (a.toNat + i) = bs.getD i 0) ∧
      (∀ b, b < a.toNat ∨ a.toNat + bs.length ≤ b → s'.byteAt b = s.byteAt b) ∧
      s'.poisonAt k = (p || s.poisonAt k) ∧ (∀ j, j ≠ k → s'.poisonAt j = s.poisonAt j) ∧ s'.resp = .ok ∧
      (s.poisonAt k = true → p = false → s.pwr.saving ≤ 1 →
        (s'.frec (srcHub (hubOf s a.toNat))).lastCause = 0x302) ∧
      OnlyChanges [.ms, .pmus, .tack, .flash, .flt, .host, .resp] s s' := by
  intro k
  have htop' : a.toNat < memTop s := by
    unfold memTop at htop ⊢
    omega
  obtain ⟨⟨hin, hout⟩, htags, hrec, hmoves⟩ := writeLine_merged_stored htop' hon harm hfit hlen hi p
  have hexec : exec (.readModifyWrite a bs p 0) s = .next ((writeLine s a.toNat bs p 0).answer .ok) := by
    refine congrArg Host.Outcome.next ((if_pos hw).trans ?_)
    rw [List.take_of_length_le (by omega), memRequest_writeLine hreq hfit]
  generalize writeLine s a.toNat bs p 0 = u at *
  have hans := answer_moves u .ok
  have hd := hans.dataKept rfl
  refine ⟨_, hexec, fun i h => (hd.byteAt _).trans (hin i h), fun b h => (hd.byteAt b).trans (hout b h), ?_,
    fun j hj => ?_, rfl, fun hpoison hp hs => ?_, ((hmoves.mono rfl).trans (hans.mono rfl)).only⟩
  · rw [hd.poisonAt, htags, if_pos rfl]
  · rw [hd.poisonAt, htags, if_neg hj]
  · rw [hans.frec _ rfl]
    exact (hrec hpoison hp hs).1

/-- R161, R171: MEM_CE_WRITEBACK writes the line back as it reads. -/
theorem memCeWriteback_kept {h : Hub} {n : Nat} {rest : List Nat} (hwb : (s.hub h.val).wb = n :: rest)
    (hon : (s.hub h.val).st = .online) (harm : s.flt.arm = none) (hhub : hubOf s (n * 64) = h.val) :
    Completes (.memCeWriteback h) s fun s' =>
      (s'.hub h.val).wb = (n :: rest).filter (· ≠ n) ∧ s'.injAt n = 0 ∧ (∀ b, s'.byteAt b = s.byteAt b) ∧
      (∀ j, s'.poisonAt j = s.poisonAt j) ∧ OnlyChanges [.ms] s s' := by
  have hn : n * 64 / 64 = n := by omega
  have hexec : exec (.memCeWriteback h) s =
      .next (lineWritten s (n * 64) (memBytes s.ms.mem (n * 64) 64) (s.poisonAt n)) := by
    refine congrArg Host.Outcome.next ?_
    rw [hwb]
    dsimp only
    rw [if_pos hon, storeLine_noNewTag harm (by rw [hn]; cases s.poisonAt n <;> rfl)]
  have hstored := lineWritten_stored s (n * 64) (memBytes s.ms.mem (n * 64) 64) (s.poisonAt n)
  have hx := lineWritten_hub s (n * 64) (memBytes s.ms.mem (n * 64) 64) (s.poisonAt n)
  rw [hn] at hstored hx
  rw [hhub] at hx
  obtain ⟨hin, hout⟩ := hstored.bytes
  rw [length_memBytes] at hin hout
  refine ⟨_, hexec, by rw [hx, hwb], hstored.inj, fun b => ?_, fun j => ?_, (lineWritten_moves s _ _ _).only⟩
  · by_cases hb : b < n * 64 ∨ n * 64 + 64 ≤ b
    · exact hout b hb
    · have hread := hin (b - n * 64) (by omega)
      rw [List.getD_eq_getElem?_getD, memBytes_getElem?, if_pos (by omega), show n * 64 + (b - n * 64) = b by omega]
        at hread
      exact hread
  · rw [hstored.poison]
    split
    · next hj => rw [hj]
    · rfl

end

/-! ### BAR4_WRITE (R326) -/

section
variable {f : Func} {off : BitVec 64} {bs : List Byte} {s : State} (hw : wipeComplete s = true)
  (hs : Served s f.toNat) (hlim : off.toNat + bs.length ≤ bar4Limit s f.toNat)
include hw hs hlim

theorem exec_bar4Write_inside (htop : bar4Addr s f.toNat off.toNat + bs.length ≤ memTop s) :
    let b := bar4Addr s f.toNat off.toNat
    exec (.bar4Write f off bs) s = .next (memRequest (pmuCount s wHost evHostWr 0 (unitsOf b bs.length))
      (.write b bs false 0 (some f))) :=
  congrArg Host.Outcome.next (bar4_inside hs hw hlim htop)

/-- R326: bytes written by BAR4 to sound memory. -/
theorem bar4Write_plain (hne : bs ≠ []) : let b := bar4Addr s f.toNat off.toNat
    reqWaits s b bs.length = false → PlainSpan s b bs.length → Completes (.bar4Write f off bs) s fun s' =>
      StoresBytes s s' b bs ∧ s'.resp = .ok ∧ OnlyChanges [.ms, .pmus, .resp] s s' := by
  intro b hreq hplain
  have hexec := exec_bar4Write_inside hw hs hlim hplain.2.1
  have hm := pmuCount_moves s wHost evHostWr 0 (unitsOf b bs.length)
  have hreq' := (countedReqWaits evHostWr (unitsOf b bs.length) b bs.length).trans hreq
  obtain ⟨hbytes, hresp, hmoves⟩ :=
    memRequest_write_plain (who := some f) (hplain.sound (hm.sound rfl rfl)) hreq' hne
  exact ⟨_, hexec, hbytes.between hm rfl (.refl [] _) rfl, hresp, ((hm.mono rfl).trans hmoves).only⟩

end

/-- Settles O29: a whole line's store is `lineSet` with the hub's note, a part of a line is merged into the line as
read, and both leave every other byte and tag; BAR4 writes go line by line through `writeMem_stores`. -/
theorem memWrites : Obligations.MemWrites := by
  unfold Obligations.MemWrites
  intro a data bs p h s k up g
  refine ⟨fun ⟨hw, harm, htop⟩ hreq hon => memWrite_online hw harm htop hreq hon,
    fun ⟨hw, harm, htop⟩ hreq hon _ hlen hfit hi => readModifyWrite_online hw harm htop hreq hon hlen hfit hi,
    fun hw hreq htop hlost => memWrite_lost hw hreq htop hlost,
    fun n rest hwb hon harm hhub => memCeWriteback_kept hwb hon harm hhub,
    fun f off hw hs hne => ⟨fun hlim hreq hplain => bar4Write_plain hw hs hlim hne hreq hplain,
      fun hlim htop hreq => ?_, fun hlim htop => congrArg Host.Outcome.next (bar4_pastLimit hs hw hlim htop)⟩,
    fun ⟨hw, harm, htop⟩ hl hc hreq hon ha => cxlMemWrite_online hw harm htop hl hc hreq hon ha⟩
  exact ⟨_, exec_bar4Write_inside hw hs hlim htop, countedRequest_waits _ _ ((countedReqWaits _ _ _ _).trans hreq)⟩

end Sys2Proof.Machine
namespace Sys2Proof.Machine
open Sys2Proof

/-! ### What leaves the DMA channels and the IDE streams (R332, R336) -/

/-- The DMA channels and the IDE streams are as they were: an operation on memory or on a chute may add to a ring of
events, and to nothing else of the host's. -/
def DmaKept (s t : State) : Prop := t.host.dmas = s.host.dmas ∧ t.host.ide = s.host.ide

section
variable {r s t u : State}

theorem DmaKept.refl (s : State) : DmaKept s s := ⟨rfl, rfl⟩

theorem DmaKept.trans (h : DmaKept s t) (h' : DmaKept t u) : DmaKept s u := ⟨h'.1.trans h.1, h'.2.trans h.2⟩

theorem DmaKept.ite {c : Prop} [Decidable c] (h : DmaKept s t) (h' : DmaKept s u) : DmaKept s (if c then t else u) := by
  split <;> assumption

theorem DmaKept.ite_fst {α : Type} {c : Prop} [Decidable c] {x y : State × α} (h : DmaKept s x.1)
    (h' : DmaKept s y.1) : DmaKept s (if c then x else y).1 := by split <;> assumption

theorem DmaKept.pair {α : Type} (h : DmaKept s t) (x : α) : DmaKept s (t, x).1 := h

theorem DmaKept.fold {α : Type} {f : State → α → State} {xs : List α} (hf : ∀ t x, DmaKept t (f t x))
    (h : DmaKept r s) : DmaKept r (xs.foldl f s) := by
  induction xs generalizing s with
  | nil => exact h
  | cons x xs ih => exact ih (h.trans (hf s x))

theorem Moves.dmaKept {ps : List Part} (h : Moves ps s t) (hp : listed .host ps = false) : DmaKept s t :=
  ⟨congrArg HostS.dmas (h.same .host hp), congrArg HostS.ide (h.same .host hp)⟩

theorem DmaKept.dma (h : DmaKept s t) (k : Nat) : t.dma k = s.dma k :=
  congrArg (fun m => tabGet (fun _ => ({} : Dma)) m k) h.1

theorem DmaKept.ideDiscards (h : DmaKept s t) (f : Nat) : ideDiscards t f = ideDiscards s f := by
  rw [Machine.ideDiscards, h.2, Machine.ideDiscards]

end

section
variable (s : State)

theorem setFn_dmaKept (k : Nat) (f : Fn) : DmaKept s (s.setFn k f) := ⟨rfl, rfl⟩

/-! #### Events and records -/

theorem ringEntry_dmaKept (n typ src info : Nat) : DmaKept s (ringEntry s n typ src info) :=
  ((hostStore_moves s _ _ _).dmaKept rfl).trans
    ((setFn_dmaKept _ n _).trans ((pmuCount_moves _ _ _ _ _).dmaKept rfl))

theorem flushLost_dmaKept (n : Nat) : DmaKept s (flushLost s n) :=
  .ite ((ringEntry_dmaKept s _ _ _ _).trans (setFn_dmaKept _ _ _)) (.refl s)

theorem raiseEvent_dmaKept (n typ src info : Nat) : DmaKept s (raiseEvent s n typ src info) :=
  .ite (.refl s) ((flushLost_dmaKept s n).trans (.ite (ringEntry_dmaKept _ _ _ _ _)
    ((setFn_dmaKept _ _ _).trans ((pmuCount_moves _ _ _ _ _).dmaKept rfl))))

theorem reportWith_dmaKept (src cause addr : Nat) (inj col : Bool) :
    DmaKept s (reportWith s src cause addr inj col) := by
  unfold reportWith
  extract_lets old x s1 flt s2
  exact .ite (setFn_dmaKept s2 _ _) ⟨rfl, rfl⟩

theorem report_dmaKept (src cause addr : Nat) : DmaKept s (report s src cause addr) :=
  .ite (.refl s) (reportWith_dmaKept s _ _ _ _ _)

theorem reportInjected_dmaKept (src cause addr : Nat) (col : Bool) :
    DmaKept s (reportInjected s src cause addr col) := .ite (.refl s) (reportWith_dmaKept s _ _ _ _ _)

theorem bucketReport_dmaKept (b src cause addr : Nat) : DmaKept s (bucketReport s b src cause addr) :=
  have h : DmaKept s (bucketAdd s b src).1 := (bucketAdd_moves s b src).dmaKept rfl
  .ite (h.trans (report_dmaKept _ _ _ _)) h

/-! #### Memory -/

theorem loseStack_dmaKept (h : Nat) : DmaKept s (loseStack s h) := by
  unfold loseStack
  extract_lets s1 s2
  exact .ite ((((setHub_moves s _ _).dmaKept rfl).trans ((keepCal_moves _ _).dmaKept rfl)).trans
    (report_dmaKept _ _ _ _)) (.refl s)

theorem countPoisoned_dmaKept (h : Nat) : DmaKept s (countPoisoned s h) := by
  unfold countPoisoned
  extract_lets x s1
  have h1 : DmaKept s s1 := (setHub_moves s _ _).dmaKept rfl
  exact .ite (h1.trans (loseStack_dmaKept _ _)) h1

theorem addressFault_dmaKept (a : Nat) : DmaKept s (addressFault s a) := .ite (.refl s) (report_dmaKept s _ _ _)

theorem checkLine_dmaKept (a errs : Nat) : DmaKept s (checkLine s a errs).st := by
  unfold checkLine
  extract_lets k h inj injected collide n s1 s2 s0 s1' s2'
  have h1 : DmaKept s s1 := (setHub_moves s _ _).dmaKept rfl
  have h2 : DmaKept s s2 := .ite (h1.trans (reportInjected_dmaKept _ _ _ _ _))
    (h1.trans (bucketReport_dmaKept _ _ _ _ _))
  have h0 : DmaKept s s0 := .ite (.refl s) ⟨rfl, rfl⟩
  have h1' : DmaKept s s1' := h0.trans ⟨rfl, rfl⟩
  have h2' : DmaKept s s2' := .ite (h1'.trans (reportInjected_dmaKept _ _ _ _ _))
    (.ite (h1'.trans (reportInjected_dmaKept _ _ _ _ _)) (h1'.trans (report_dmaKept _ _ _ _)))
  split
  · exact .refl s
  · split
    · exact .refl s
    · split
      · exact h2.trans ((pmuCount_moves _ _ _ _ _).dmaKept rfl)
      · exact .ite h2' (h2'.trans (countPoisoned_dmaKept _ _))

theorem readLine_dmaKept (a errs : Nat) : DmaKept s (readLine s a errs).st := by
  unfold readLine
  have hfree : DmaKept s (useFreeLine s) := (free_moves s _).dmaKept rfl
  split
  · exact hfree.trans (addressFault_dmaKept _ _)
  · split
    · exact hfree
    · exact ((pmuCount_moves s _ _ _ _).dmaKept rfl).trans (checkLine_dmaKept _ _ _)

theorem storeLine_dmaKept (a : Nat) (bs : List Byte) (p : Bool) : DmaKept s (storeLine s a bs p) := by
  unfold storeLine
  extract_lets k h m s1 s2
  have h1 : DmaKept s s1 := 
    DmaKept.trans ⟨rfl, rfl⟩ ((injUse_moves (putInj (putPoison (putBytes s _ bs) k p) k m) _ _).dmaKept rfl)
  have h2 : DmaKept s s2 := h1.trans ((setHub_moves _ _ _).dmaKept rfl)
  exact .ite (h2.trans (((setHub_moves _ _ _).dmaKept rfl).trans (countPoisoned_dmaKept _ _))) h2

theorem writeLine_dmaKept (a : Nat) (bs : List Byte) (p : Bool) (errs : Nat) :
    DmaKept s (writeLine s a bs p errs) := by
  unfold writeLine
  refine .ite (addressFault_dmaKept s a) (.ite (.refl s) (.ite ?_ ?_))
  · exact ((pmuCount_moves s _ _ _ _).dmaKept rfl).trans (storeLine_dmaKept _ _ _ _)
  · extract_lets +onlyGivenNames x off old
    have hx : DmaKept s x.st := ((pmuCount_moves s _ _ _ _).dmaKept rfl).trans (checkLine_dmaKept _ _ _)
    refine .ite hx ?_
    extract_lets s1
    have h1 : DmaKept s s1 := hx.trans (storeLine_dmaKept _ _ _ _)
    exact .ite (h1.trans (report_dmaKept _ _ _ _)) h1

end

/-! #### Chutes -/

section
variable (s : State)

theorem mangerCheck_dmaKept (t off n : Nat) : DmaKept s (mangerCheck s t off n).1 :=
  .ite_fst (.refl s) (.fold (fun st _ => (reportInjected_dmaKept st _ _ _ _).trans ((setStall_moves _ _ _).dmaKept rfl))
    (.fold (fun st _ => reportInjected_dmaKept st _ _ _ _) (.refl s)))

theorem mangerRead_dmaKept (t off n : Nat) : DmaKept s (mangerRead s t off n).st := mangerCheck_dmaKept s t off _

theorem mangerWrite_dmaKept (t off : Nat) (bs : List Byte) : DmaKept s (mangerWrite s t off bs) := by
  unfold mangerWrite
  extract_lets s1 s2
  exact DmaKept.trans (t := s2) ⟨rfl, rfl⟩ ((mangerGenerate_moves s2 _ _ _).dmaKept rfl)

variable (c : Nat)

theorem setChute_dmaKept (x : Chute) : DmaKept s (s.setChute c x) := (setChute_moves s c x).dmaKept rfl

theorem chuteEvent_dmaKept (ev : Nat) : DmaKept s (chuteEvent s c ev) := (chuteEvent_moves s c ev).dmaKept rfl

theorem refuseChute_dmaKept : DmaKept s (refuseChute s c) :=
  (setChute_dmaKept s c _).trans (bucketReport_dmaKept _ _ _ _ _)

theorem crossing_dmaKept (up : Bool) : DmaKept s (crossing s c up) := by
  unfold crossing
  extract_lets s1 x
  have h1 : DmaKept s s1 := setChute_dmaKept s c _
  exact .ite (h1.trans (raiseEvent_dmaKept _ _ _ _ _)) h1

theorem sliceCheck_dmaKept (old : Chute) : DmaKept s (sliceCheck old s c) := by
  unfold sliceCheck
  extract_lets x
  have hu : DmaKept s (injUse s x 1) := (injUse_moves s _ _).dmaKept rfl
  exact .ite (.refl s) (.ite (hu.trans (reportInjected_dmaKept _ _ _ _ _)) hu)

theorem marks_dmaKept (old : Chute) : DmaKept s (marks old s c) := by
  unfold marks
  extract_lets x xoff s1 s2 s3
  have h1 : DmaKept s s1 := (sliceCheck_dmaKept s c old).trans (setChute_dmaKept _ _ _)
  have h2 : DmaKept s s2 := .ite (h1.trans (crossing_dmaKept _ _ _)) h1
  have h3 : DmaKept s s3 := .ite (h2.trans (crossing_dmaKept _ _ _)) h2
  exact .ite h3 (h3.trans ((notifyXoff_moves _ _ _).dmaKept rfl))

theorem changeChute_dmaKept (f : Chute → Chute) : DmaKept s (changeChute s c f) :=
  (setChute_dmaKept s c _).trans (marks_dmaKept _ c _)

theorem storeChuteLine_dmaKept (idx : Nat) (l : Line) : DmaKept s (storeChuteLine s c idx l) :=
  .ite (.ite ⟨rfl, rfl⟩ (writeLine_dmaKept s _ _ _ _)) (mangerWrite_dmaKept s _ _ _)

theorem commitOpen_dmaKept (v : Nat) : DmaKept s (commitOpen s c v) := by
  unfold commitOpen
  extract_lets x
  exact .ite (((setChute_dmaKept s c _).trans (chuteEvent_dmaKept _ _ _)).trans (report_dmaKept _ _ _ _))
    ((chuteEvent_dmaKept s c _).trans (setChute_dmaKept _ _ _))

theorem storeWord_dmaKept (w : ChuteWord) : DmaKept s (storeWord s c w).1 := by
  unfold storeWord
  extract_lets +onlyGivenNames x newLine
  refine .ite_fst ?_ (.ite_fst (.refl s) ?_)
  · extract_lets y
    exact ((setChute_dmaKept s c _).trans (chuteEvent_dmaKept _ _ _)).trans (report_dmaKept _ _ _ _)
  · extract_lets y idx v s1 s2
    have h1 : DmaKept s s1 := (chuteEvent_dmaKept s c _).trans (setChute_dmaKept _ _ _)
    have h2 : DmaKept s s2 := .ite (h1.trans (storeChuteLine_dmaKept _ _ _ _)) h1
    exact .pair (.ite (h2.trans (commitOpen_dmaKept _ _ _)) h2) _

variable (src : Source)

theorem pushWord_dmaKept (w : ChuteWord) : DmaKept s (pushWord s c src w).1 := by
  unfold pushWord
  extract_lets +onlyGivenNames x
  refine .ite_fst (.refl s) (.ite_fst (.pair ?_ _) (.ite_fst (.ite_fst (setChute_dmaKept s c _) (.refl s))
    (.ite_fst (.ite_fst (storeWord_dmaKept s c w) (setChute_dmaKept s c _)) (.ite_fst (.refl s) ?_))))
  · exact .trans (.ite (setChute_dmaKept s c _) (.refl s)) (refuseChute_dmaKept _ c)
  · extract_lets +onlyGivenNames y
    refine .ite_fst (.refl s) ?_
    extract_lets z
    exact (DmaKept.ite (chuteEvent_dmaKept s c _) (.refl s)).trans
      ((setChute_dmaKept _ c z).trans (storeWord_dmaKept _ c w))

theorem pushAll_dmaKept (ws : List ChuteWord) : DmaKept s (pushAll s c src ws).1 := by
  induction ws generalizing s with
  | nil => exact .refl s
  | cons w ws ih =>
    have h := pushWord_dmaKept s c src w
    exact .ite_fst (.pair ((h.trans ((noteRemote_moves _ _ _).dmaKept rfl)).trans (ih _)) _) h

theorem pushMarked_dmaKept (w : ChuteWord) : DmaKept s (pushMarked s c src w).1 :=
  .pair ((pushAll_dmaKept s c src [w]).trans (marks_dmaKept _ c _)) _

theorem offerWord_dmaKept (w : ChuteWord) : DmaKept s (offerWord s c src w) := by
  unfold offerWord
  extract_lets +onlyGivenNames x
  refine .ite (setChute_dmaKept s c _) (.ite (setChute_dmaKept s c _) ?_)
  extract_lets y
  have hy : DmaKept s y.1 := pushMarked_dmaKept s c src w
  exact .ite hy (.ite ((setChute_dmaKept s c _).trans (setChute_dmaKept _ c _)) (setChute_dmaKept s c _))

theorem offerWords_dmaKept (ws : List ChuteWord) : DmaKept s (offerWords s c src ws) :=
  .fold (fun st w => offerWord_dmaKept st c src w) (.refl s)

/-- The state of a read's answer. -/
theorem DmaKept.chuteRead {t : State} (h : DmaKept s t) (line : TLine) (uc : Bool) :
    DmaKept s (ChuteRead.mk t line uc).st := h

theorem DmaKept.ite_chuteRead {p : Prop} [Decidable p] {x y : ChuteRead} (h : DmaKept s x.st) (h' : DmaKept s y.st) :
    DmaKept s (if p then x else y).st := by split <;> assumption

theorem chuteRead_dmaKept : DmaKept s (chuteRead s c).st := by
  unfold Machine.chuteRead
  extract_lets +onlyGivenNames x
  refine .ite_chuteRead _ (.chuteRead _ (chuteEvent_dmaKept s c _) _ _) ?_
  extract_lets +onlyGivenNames idx tag next
  have hnext : DmaKept s next := ((chuteEvent_dmaKept s c _).trans (setChute_dmaKept _ c _)).trans
    (sliceCheck_dmaKept _ c x)
  refine .ite_chuteRead _ ?_ ?_
  · exact .chuteRead _ (hnext.trans (readLine_dmaKept next _ _)) _ _
  · exact .chuteRead _ (hnext.trans (mangerRead_dmaKept next _ _ _)) _ _

theorem takePacket_dmaKept (fuel : Nat) : DmaKept s (takePacket s c fuel).1 := by
  induction fuel generalizing s with
  | zero => exact .refl s
  | succ fuel ih =>
    rw [takePacket]
    refine .ite_fst (.refl s) ?_
    extract_lets +onlyGivenNames r s1
    have hr : DmaKept s r.st := chuteRead_dmaKept s c
    have h1 : DmaKept s s1 := .ite (hr.trans (changeChute_dmaKept _ c _)) hr
    refine .ite_fst (.pair (h1.trans (changeChute_dmaKept _ c _)) _) ?_
    extract_lets q
    exact .pair (h1.trans (ih s1)) _

end
end Sys2Proof.Machine
namespace Sys2Proof.Machine
open Sys2Proof

/-! ### A descriptor begins and ends (R332) -/

section
variable {s t : State} {k : Nat} {d : BitVec 256}

theorem dmaMay_ide (h : dmaMay s k = true) : ideDiscards s (chanOwner s k) = false := by
  simp only [dmaMay, Bool.and_eq_true, Bool.not_eq_true'] at h
  exact h.2

/-- R332: a well-formed descriptor that its command names runs. -/
theorem dmaStart_runs {op : Nat} {run : State} (hmay : dmaMay s k = true) (hop : dOp d = op)
    (hgood : dmaMalformed d = false) : dmaStart s k d op run = run := by
  rw [dmaStart, if_neg (by simp [hmay]), if_pos (by simp [hop]), if_neg (by simp [hgood])]

/-- R332: a malformed descriptor is BAD. -/
theorem dmaStart_bad {op : Nat} {run : State} (hmay : dmaMay s k = true) (hop : dOp d = op ∨ dOp d = 0 ∨ 4 < dOp d)
    (hbad : dmaMalformed d = true) : dmaStart s k d op run = dmaEnds s k d dmaBad 0 := by
  rw [dmaStart, if_neg (by simp [hmay]), if_pos (by simpa [or_assoc] using hop), if_pos hbad]

/-- R332, R333: H2D and D2H move whole lines. -/
theorem lines_of_wellFormed (hgood : dmaMalformed d = false) (hop : dOp d = 1 ∨ dOp d = 2) :
    dDev d % 64 = 0 ∧ dLen d = 64 * (dLen d / 64) := by
  rw [dmaMalformed, if_pos (by simpa using hop)] at hgood
  simp only [Bool.not_eq_false', Bool.and_eq_true, decide_eq_true_eq] at hgood
  obtain ⟨⟨-, hlen⟩, hdev⟩ := hgood
  exact ⟨hdev, by omega⟩

/-- A channel set, and no other. -/
theorem setDma_own (h : DmaKept s t) (v : Dma) :
    (t.setDma k v).dma k = v ∧ ∀ j, j ≠ k → (t.setDma k v).dma j = s.dma j :=
  ⟨(setDma_dma ..).trans (if_pos rfl), fun j hj => ((setDma_dma ..).trans (if_neg hj)).trans (h.dma j)⟩

/-- A descriptor's outcome, after an operation that left the channels. -/
theorem dmaEnds_own (h : DmaKept s t) (status done : Nat) :
    (dmaEnds t k d status done).dma k = { s.dma k with
      st := 1, cur := some { desc := d, status := BitVec.ofNat 8 status, done := BitVec.ofNat 32 done } } ∧
    ∀ j, j ≠ k → (dmaEnds t k d status done).dma j = s.dma j := by
  rw [← h.dma k]
  exact setDma_own h _

theorem dmaEnds_moves (t : State) (k : Nat) (d : BitVec 256) (status done : Nat) :
    Moves [.host] t (dmaEnds t k d status done) := setDma_moves t k _

theorem dmaWait_own (s : State) (k : Nat) (d : BitVec 256) (ws : List Word16) :
    (dmaWait s k d ws).dma k = { s.dma k with st := 2, cur := some { desc := d, words := ws } } ∧
      (∀ j, j ≠ k → (dmaWait s k d ws).dma j = s.dma j) ∧ OnlyChanges [.host] s (dmaWait s k d ws) :=
  ⟨(setDma_own (.refl s) _).1, (setDma_own (.refl s) _).2, (setDma_moves s k _).only⟩

end

/-! ### H2D (R333) -/

section
variable {s : State} {a : Nat} (data : List Line)

/-- One line of host data written. -/
def lineIn (a : Nat) (data : List Line) (s : State) (i : Nat) : State :=
  writeLine s (a + 64 * i) (lineBytes (data.getD i 0)) false 0

/-- The first `n` lines of host data written from a device address up. -/
def linesIn (s : State) (a : Nat) (data : List Line) (n : Nat) : State := (List.range n).foldl (lineIn a data) s

theorem linesIn_zero (s : State) (a : Nat) : linesIn s a data 0 = s := rfl

theorem linesIn_succ (s : State) (a n : Nat) : linesIn s a data (n + 1) = lineIn a data (linesIn s a data n) n := by
  unfold linesIn
  rw [List.range_succ, List.foldl_append, List.foldl_cons, List.foldl_nil]

/-- Lines of host data stored in their order, and no other byte. -/
structure LinesStored (s t : State) (a : Nat) (data : List Line) (n : Nat) : Prop where
  bytes : ∀ i, i < 64 * n → t.byteAt (a + i) = (lineBytes (data.getD (i / 64) 0)).getD (i % 64) 0
  others : ∀ b, b < a ∨ a + 64 * n ≤ b → t.byteAt b = s.byteAt b
  moves : Moves [.ms, .pmus] s t
  sound : Sound s t

theorem LinesStored.succ {t u : State} {n : Nat} (h : LinesStored s t a data n)
    (hst : Stores t u (a + 64 * n) (lineBytes (data.getD n 0))) : LinesStored s u a data (n + 1) := by
  obtain ⟨hbytes, hothers⟩ := hst.bytes
  rw [length_lineBytes] at hbytes hothers
  refine ⟨fun i hi => ?_, fun b hb => ?_, h.moves.trans hst.moves, h.sound.trans hst.sound⟩
  · by_cases hlast : i < 64 * n
    · exact (hothers _ (by omega)).trans (h.bytes i hlast)
    · have hb := hbytes (i - 64 * n) (by omega)
      rw [show a + 64 * n + (i - 64 * n) = a + i by omega] at hb
      rw [hb, show i / 64 = n by omega, show i % 64 = i - 64 * n by omega]
  · exact (hothers b (by omega)).trans (h.others b (by omega))

/-- R162: lines written to sound memory are stored in their order. -/
theorem linesIn_stores (ha : a % 64 = 0) {n : Nat} (h : PlainSpan s a (64 * n)) :
    LinesStored s (linesIn s a data n) a data n := by
  induction n with
  | zero =>
    rw [linesIn_zero]
    exact ⟨fun i hi => absurd hi (by omega), fun _ _ => rfl, .refl _ s, ⟨fun _ => rfl, fun _ => id, fun _ => id, rfl⟩⟩
  | succ n ih =>
    have hn := ih (h.part (Nat.le_refl a) (by omega))
    rw [linesIn_succ]
    have hspan := (h.part (b := a + 64 * n) (m := 64) (by omega) (by omega)).sound hn.sound
    have hlen : (lineBytes (data.getD n 0)).length = 64 := length_lineBytes _
    exact hn.succ data (writeLine_stores (by rw [hlen]; exact hspan)
      (fun hnil => by rw [hnil] at hlen; exact absurd hlen (by decide)) (by omega))

end

section
variable {c : Chan} {d : BitVec 256} {s : State} {data : List Line} (hmay : dmaMay s c.toNat = true) (hop : dOp d = 1)
include hmay hop

theorem exec_h2d (hgood : dmaMalformed d = false) :
    exec (.h2d c d data) s = .next (dmaH2d s c.toNat d data) :=
  congrArg Host.Outcome.next (dmaStart_runs hmay hop hgood)

/-- R333: H2D to sound memory in reach. -/
theorem h2d_moves (hgood : dmaMalformed d = false)
    (hrange : dmaRange s (chanOwner s c.toNat) (dDev d) (dLen d) = true) (hbusy : memBusy s (dDev d) (dLen d) = false)
    (hplain : PlainSpan s (dDev d) (dLen d)) : Completes (.h2d c d data) s fun s' =>
      (s'.dma c.toNat = { s.dma c.toNat with
        st := 1, cur := some { desc := d, status := BitVec.ofNat 8 1, done := BitVec.ofNat 32 (dLen d) } } ∧
        ∀ j, j ≠ c.toNat → s'.dma j = s.dma j) ∧
      (∀ i, i < dLen d → s'.byteAt (dDev d + i) = (lineBytes (data.getD (i / 64) 0)).getD (i % 64) 0) ∧
      (∀ b, b < dDev d ∨ dDev d + dLen d ≤ b → s'.byteAt b = s.byteAt b) ∧ OnlyChanges [.ms, .host, .pmus] s s' := by
  obtain ⟨hdev, hlen⟩ := lines_of_wellFormed hgood (.inl hop)
  have hexec : exec (.h2d c d data) s = .next (dmaEnds (pmuCount (linesIn s (dDev d) data (dLen d / 64)) wHost
      evDmaLines c.toNat (dLen d / 64)) c.toNat d dmaOk (dLen d)) := by
    rw [exec_h2d hmay hop hgood, dmaH2d, if_pos hrange, hbusy]
    rfl
  obtain ⟨hin, hout, hm, -⟩ := linesIn_stores data hdev (by rw [← hlen]; exact hplain)
  rw [← hlen] at hin hout
  generalize linesIn s (dDev d) data (dLen d / 64) = t at *
  have hcount := pmuCount_moves t wHost evDmaLines c.toNat (dLen d / 64)
  have hend := dmaEnds_moves (pmuCount t wHost evDmaLines c.toNat (dLen d / 64)) c.toNat d dmaOk (dLen d)
  have hlater : Moves [.pmus, .host] t _ := (hcount.mono rfl).trans (hend.mono rfl)
  exact ⟨_, hexec, dmaEnds_own ((hm.dmaKept rfl).trans (hcount.dmaKept rfl)) _ _,
    fun i hi => (hlater.byteAt rfl _).trans (hin i hi), fun b hb => (hlater.byteAt rfl b).trans (hout b hb),
    ((hm.mono rfl).trans (hlater.mono rfl)).only⟩

end

/-! ### D2H (R333) -/

section
variable {s : State} {a : Nat}

/-- Bytes of host memory, and no other. -/
def HostStored (m m' : Mem) (h : Nat) (bs : List Byte) : Prop :=
  (∀ i, i < bs.length → tabGet memDefault m' (h + i) = bs.getD i 0) ∧
    ∀ b, b < h ∨ h + bs.length ≤ b → tabGet memDefault m' b = tabGet memDefault m b

theorem hostStored_memStore (m : Mem) (h : Nat) (bs : List Byte) : HostStored m (memStore m h bs) h bs :=
  ⟨fun i hi => by rw [tabGet_memStore, if_pos (by omega), Nat.add_sub_cancel_left],
    fun b hb => by rw [tabGet_memStore, if_neg (by omega)]⟩

theorem HostStored.append {m m' m'' : Mem} {h : Nat} {xs ys : List Byte} (hx : HostStored m m' h xs)
    (hy : HostStored m' m'' (h + xs.length) ys) : HostStored m m'' h (xs ++ ys) := by
  obtain ⟨hin, hout⟩ := hx
  obtain ⟨hin', hout'⟩ := hy
  refine ⟨fun i hi => ?_, fun b hb => ?_⟩
  · rw [List.length_append] at hi
    by_cases hlt : i < xs.length
    · rw [hout' _ (by omega), hin i hlt, List.getD_append _ _ _ _ hlt]
    · have hb := hin' (i - xs.length) (by omega)
      rw [show h + xs.length + (i - xs.length) = h + i by omega] at hb
      rw [hb, List.getD_append_right _ _ _ _ (by omega)]
  · rw [List.length_append] at hb
    rw [hout' b (by omega), hout b (by omega)]

/-- R333: lines of sound memory written to host memory. -/
theorem dmaLinesOut_plain {f h n : Nat} (ha : a % 64 = 0) (hide : ideDiscards s f = false)
    (hplain : PlainSpan s a (64 * n)) : let q := dmaLinesOut s f a h n
    q.2 = (n, false) ∧ Moves [.hostMem, .pmus] s q.1 ∧
      HostStored s.hostMem q.1.hostMem h ((List.range (64 * n)).map fun i => s.byteAt (a + i)) := by
  induction n generalizing s a h with
  | zero => exact ⟨rfl, .refl _ s, fun i hi => absurd hi (by simp), fun _ _ => rfl⟩
  | succ n ih =>
    obtain ⟨hm, hline, hpoison⟩ := readLine_plain hplain (by omega)
    rw [dmaLinesOut]
    generalize readLine s a 0 = r at *
    have hbytes : lineBytes r.line = (List.range 64).map fun i => s.byteAt (a + i) := by
      have hslice := storedLine_slice (s := s) (a := a) (m := 64) (by omega)
      rw [ha, List.drop_zero, List.take_of_length_le (Nat.le_of_eq (length_lineBytes _))] at hslice
      rw [hline, hslice]
    have hide' : ideDiscards r.st f = false := ((hm.dmaKept rfl).ideDiscards f).trans hide
    have hout : hostStore r.st f h (lineBytes r.line) =
        { r.st with hostMem := memStore r.st.hostMem h (lineBytes r.line) } := if_neg (by simp [hide'])
    have hstore := hostStore_moves r.st f h (lineBytes r.line)
    have hmem : (hostStore r.st f h (lineBytes r.line)).hostMem = memStore s.hostMem h (lineBytes r.line) := by
      rw [hout, hm.same .hostMem rfl]
    generalize hostStore r.st f h (lineBytes r.line) = u at *
    have hsu : Moves [.hostMem, .pmus] s u := (hm.mono rfl).trans (hstore.mono rfl)
    obtain ⟨hq, hmq, hstored⟩ := ih (s := u) (a := a + 64) (h := h + 64) (by omega)
      (((hsu.dmaKept rfl).ideDiscards f).trans hide)
      ((hplain.part (by omega) (by omega)).sound (hsu.sound rfl rfl))
    have hfirst := hostStored_memStore s.hostMem h (lineBytes r.line)
    rw [← hmem] at hfirst
    have hlen : (lineBytes r.line).length = 64 := length_lineBytes _
    have hall := hfirst.append (by rw [hlen]; exact hstored)
    have hrest : (fun i => u.byteAt (a + 64 + i)) = fun i => s.byteAt (a + (64 + i)) :=
      funext fun i => (hsu.byteAt rfl _).trans (by rw [Nat.add_assoc])
    rw [if_neg (by simp [hpoison])]
    refine ⟨by dsimp only; rw [hq], hsu.trans hmq, ?_⟩
    rw [hbytes, hrest] at hall
    rw [show 64 * (n + 1) = 64 + 64 * n by omega, List.range_add, List.map_append, List.map_map]
    exact hall

end

section
variable {c : Chan} {d : BitVec 256} {s : State} (hmay : dmaMay s c.toNat = true)
include hmay

/-- R333: D2H from sound memory in reach. -/
theorem d2h_moves (hop : dOp d = 2) (hgood : dmaMalformed d = false)
    (hrange : dmaRange s (chanOwner s c.toNat) (dDev d) (dLen d) = true) (hbusy : memBusy s (dDev d) (dLen d) = false)
    (hplain : PlainSpan s (dDev d) (dLen d)) : Completes (.d2h c d) s fun s' =>
      (s'.dma c.toNat = { s.dma c.toNat with
        st := 1, cur := some { desc := d, status := BitVec.ofNat 8 1, done := BitVec.ofNat 32 (dLen d) } } ∧
        ∀ j, j ≠ c.toNat → s'.dma j = s.dma j) ∧
      HostStored s.hostMem s'.hostMem (dHost d) ((List.range (dLen d)).map fun i => s.byteAt (dDev d + i)) ∧
      OnlyChanges [.hostMem, .host, .pmus] s s' := by
  obtain ⟨hdev, hlen⟩ := lines_of_wellFormed hgood (.inr hop)
  obtain ⟨hq, hm, hstored⟩ := dmaLinesOut_plain (h := dHost d) hdev (dmaMay_ide hmay)
    (by rw [← hlen]; exact hplain)
  rw [← hlen] at hstored
  have hrun : exec (.d2h c d) s = .next (dmaD2h s c.toNat d) :=
    congrArg Host.Outcome.next (dmaStart_runs hmay hop hgood)
  rw [dmaD2h, if_pos hrange, if_neg (by simp [hbusy])] at hrun
  generalize dmaLinesOut s (chanOwner s c.toNat) (dDev d) (dHost d) (dLen d / 64) = q at *
  have hexec : exec (.d2h c d) s = .next (dmaEnds (pmuCount q.1 wHost evDmaLines c.toNat (dLen d / 64)) c.toNat d
      dmaOk (dLen d)) := by
    rw [hrun]
    dsimp only
    rw [hq, ← hlen]
    rfl
  have hcount := pmuCount_moves q.1 wHost evDmaLines c.toNat (dLen d / 64)
  have hend := dmaEnds_moves (pmuCount q.1 wHost evDmaLines c.toNat (dLen d / 64)) c.toNat d dmaOk (dLen d)
  have hlater : Moves [.pmus, .host] q.1 _ := (hcount.mono rfl).trans (hend.mono rfl)
  refine ⟨_, hexec, dmaEnds_own ((hm.dmaKept rfl).trans (hcount.dmaKept rfl)) _ _, ?_,
    ((hm.mono rfl).trans (hlater.mono rfl)).only⟩
  rw [hlater.same .hostMem rfl]
  exact hstored

/-! ### H2C (R333) -/

theorem exec_h2c (hop : dOp d = 3) (hgood : dmaMalformed d = false) (data : List Word16) :
    exec (.h2c c d data) s = .next (dmaH2c s c.toNat d data) :=
  congrArg Host.Outcome.next (dmaStart_runs hmay hop hgood)

section
variable (hop : dOp d = 3) (hgood : dmaMalformed d = false) (hlocal : isLocal s (BitVec.ofNat 22 (dDev d)) = true)
include hop hgood hlocal

/-- R333: H2C to a chute of the function that is ENABLED. -/
theorem h2c_pushed (data : List Word16) : let q := bitsAt (dDev d) 0 16
    funcMay s q (chanOwner s c.toNat) = true → (s.chute q).st = .enabled → chuteHeld s (q / 1024) = true →
    Completes (.h2c c d data) s fun s' =>
      (s'.dma c.toNat = { s.dma c.toNat with
        st := 1, cur := some { desc := d, status := BitVec.ofNat 8 1, done := BitVec.ofNat 32 (dLen d) } } ∧
        ∀ j, j ≠ c.toNat → s'.dma j = s.dma j) ∧
      s'.chutes = (offerWords (pmuCount s wHost evDmaLines c.toNat ((dLen d + 63) / 64)) q (dmaSource s c.toNat)
        (dmaWords data (dLen d))).chutes := by
  intro q hfunc hst hheld
  have hoffer := offerWords_dmaKept (pmuCount s wHost evDmaLines c.toNat ((dLen d + 63) / 64)) q (dmaSource s c.toNat)
    (dmaWords data (dLen d))
  have hexec := exec_h2c hmay hop hgood data
  rw [dmaH2c, if_pos hlocal, if_neg (by simp [q] at hfunc; simp [hfunc]),
    if_neg (by simp [q] at hst hheld; simp [hst, hheld])] at hexec
  have hcount := pmuCount_moves s wHost evDmaLines c.toNat ((dLen d + 63) / 64)
  exact ⟨_, hexec, dmaEnds_own ((hcount.dmaKept rfl).trans hoffer) _ _, (dmaEnds_moves _ _ _ _ _).same .chutes rfl⟩

/-- R333: H2C to a chute that is not the function's, or not ENABLED. -/
theorem h2c_refused (data : List Word16) : let q := bitsAt (dDev d) 0 16
    funcMay s q (chanOwner s c.toNat) = false ∨ (s.chute q).st ≠ .enabled → Completes (.h2c c d data) s fun s' =>
      s'.dma c.toNat = { s.dma c.toNat with
        st := 1, cur := some { desc := d, status := BitVec.ofNat 8 2, done := BitVec.ofNat 32 0 } } ∧
        ∀ j, j ≠ c.toNat → s'.dma j = s.dma j := by
  intro q hno
  have hrun := exec_h2c hmay hop hgood data
  have hexec : exec (.h2c c d data) s = .next (dmaEnds (refuseChute s q) c.toNat d dmaRefused 0) := by
    rw [hrun, dmaH2c, if_pos hlocal]
    cases hfunc : funcMay s q (chanOwner s c.toNat) with
    | false => rw [if_pos (by simp)]
    | true =>
      have hst : (s.chute q).st ≠ .enabled := hno.resolve_left (by simp [hfunc])
      rw [if_neg (by simp), if_pos (by simp [q] at hst; simp [hst])]
  exact ⟨_, hexec, dmaEnds_own (refuseChute_dmaKept s q) _ _⟩

end

/-! ### C2H (R137, R333) -/

section
variable (hop : dOp d = 4) (hgood : dmaMalformed d = false) (hlocal : isLocal s (BitVec.ofNat 22 (dDev d)) = true)
  (hown : (s.chute (bitsAt (dDev d) 0 16)).func.toNat = chanOwner s c.toNat)
  (hpen : (s.chute (bitsAt (dDev d) 0 16)).penValid = false)
include hop hgood hlocal hown hpen

theorem exec_c2h : exec (.c2h c d) s = .next (dmaConsume s c.toNat d) := by
  have hrun : exec (.c2h c d) s = .next (dmaC2h s c.toNat d) :=
    congrArg Host.Outcome.next (dmaStart_runs hmay hop hgood)
  rw [hrun, dmaC2h, if_pos (by simp [hlocal, hown, hpen])]

/-- R333: C2H from a chute with a packet in reach. -/
theorem c2h_moves : let q := bitsAt (dDev d) 0 16
    (s.chute q).st ≠ .disabled → (s.chute q).ready ≠ 0 → chuteWaits s q = false →
    let r := takePacket s q 1024
    let bs := r.2.1.take (dLen d)
    r.2.2 = false → Completes (.c2h c d) s fun s' =>
      (s'.dma c.toNat = { s.dma c.toNat with st := 1, cur := some {
          desc := d, status := BitVec.ofNat 8 (if dLen d < r.2.1.length then 3 else 1),
          done := BitVec.ofNat 32 bs.length } } ∧
        ∀ j, j ≠ c.toNat → s'.dma j = s.dma j) ∧
      s'.hostMem = memStore r.1.hostMem (dHost d) bs ∧ s'.chutes = r.1.chutes := by
  intro q hst hready hwait r bs hclean
  have hkept : DmaKept s r.1 := takePacket_dmaKept s q 1024
  have hrun := exec_c2h hmay hop hgood hlocal hown hpen
  rw [dmaConsume, if_neg (by simp [q] at hst hready hwait; simp [hst, hready, hwait])] at hrun
  have hr : takePacket s (bitsAt (dDev d) 0 16) 1024 = r := rfl
  have hbs : bs = r.2.1.take (dLen d) := rfl
  rw [hr] at hrun
  clear_value bs r
  dsimp only at hrun
  rw [← hbs, hclean, if_neg (by decide)] at hrun
  have hide : ideDiscards r.1 (chanOwner s c.toNat) = false := (hkept.ideDiscards _).trans (dmaMay_ide hmay)
  have hstore := hostStore_moves r.1 (chanOwner s c.toNat) (dHost d) bs
  have hmem : (hostStore r.1 (chanOwner s c.toNat) (dHost d) bs).hostMem = memStore r.1.hostMem (dHost d) bs := by
    rw [hostStore, if_neg (by simp [hide])]
  generalize hostStore r.1 (chanOwner s c.toNat) (dHost d) bs = u at *
  have hcount := pmuCount_moves u wHost evDmaLines c.toNat ((bs.length + 63) / 64)
  have hend := dmaEnds_moves (pmuCount u wHost evDmaLines c.toNat ((bs.length + 63) / 64)) c.toNat d
    (if dLen d < r.2.1.length then dmaTruncated else dmaOk) bs.length
  have hlater : Moves [.pmus, .host] u _ := (hcount.mono rfl).trans (hend.mono rfl)
  exact ⟨_, hrun, dmaEnds_own (hkept.trans ((hstore.dmaKept rfl).trans (hcount.dmaKept rfl))) _ _,
    (hlater.same .hostMem rfl).trans hmem, (hlater.same .chutes rfl).trans (hstore.same .chutes rfl)⟩

end
end

/-! ### A descriptor completes (R332, R333) -/

section
variable {c : Chan} {s : State}

/-- The channel's registers once a descriptor has completed. -/
def dmaDone (x : Dma) (y : DmaCur) : Dma :=
  { x with head := x.head + 1, last := y.status.setWidth 3, cur := none, st := if x.en then 0 else 3 }

/-- DONE_BYTES and STATUS of the descriptor at HEAD. -/
def dmaWritten (s : State) (k : Nat) (y : DmaCur) : State :=
  hostStore (hostStore s (chanOwner s k) (dmaEntry (s.dma k) + 28) (leBytes y.done.toNat 4)) (chanOwner s k)
    (dmaEntry (s.dma k) + 24) [y.status]

theorem dmaWritten_moves (s : State) (k : Nat) (y : DmaCur) : Moves [.hostMem] s (dmaWritten s k y) :=
  (hostStore_moves s _ _ _).trans (hostStore_moves _ _ _ _)

theorem dmaWritten_hostMem {k : Nat} (hide : ideDiscards s (chanOwner s k) = false) (y : DmaCur) :
    (dmaWritten s k y).hostMem = memStore (memStore s.hostMem (dmaEntry (s.dma k) + 28) (leBytes y.done.toNat 4))
      (dmaEntry (s.dma k) + 24) [y.status] := by
  have hfirst : hostStore s (chanOwner s k) (dmaEntry (s.dma k) + 28) (leBytes y.done.toNat 4) =
      { s with hostMem := memStore s.hostMem (dmaEntry (s.dma k) + 28) (leBytes y.done.toNat 4) } :=
    if_neg (by simp [hide])
  have hkept := (hostStore_moves s (chanOwner s k) (dmaEntry (s.dma k) + 28) (leBytes y.done.toNat 4)).dmaKept rfl
  rw [dmaWritten, hostStore, if_neg (by simp [hkept.ideDiscards, hide]), hfirst]

/-- The completed descriptor before its event. -/
def dmaClosed (s : State) (k : Nat) (y : DmaCur) : State :=
  (pmuCount (dmaWritten s k y) wHost evDmaDescs k 1).setDma k (dmaDone (s.dma k) y)

theorem dmaFinish_eq {k : Nat} {y : DmaCur} (hst : (s.fn (chanOwner s k)).st ≠ .disabling) : dmaFinish s k y =
    if dEvent y.desc then
      raiseEvent (dmaClosed s k y) (chanOwner s k) evDmaDone k ((s.dma k).head.toNat % 2 ^ (s.dma k).log2.toNat)
    else dmaClosed s k y := by
  have hquiet : decide ((s.fn (chanOwner s k)).st = .disabling) = false := decide_eq_false hst
  unfold dmaFinish
  dsimp only
  rw [hquiet, Bool.not_false, Bool.and_true, if_neg Bool.false_ne_true]
  rfl

theorem dmaClosed_moves (s : State) (k : Nat) (y : DmaCur) :
    Moves [.host, .hostMem, .pmus] s (dmaClosed s k y) :=
  .step (setDma_moves _ _ _) rfl (.step (pmuCount_moves _ _ _ _ _) rfl ((dmaWritten_moves s k y).mono rfl))

theorem dmaClosed_own (s : State) (k : Nat) (y : DmaCur) :
    (dmaClosed s k y).dma k = dmaDone (s.dma k) y ∧ ∀ j, j ≠ k → (dmaClosed s k y).dma j = s.dma j :=
  setDma_own (((dmaWritten_moves s k y).dmaKept rfl).trans ((pmuCount_moves _ _ _ _ _).dmaKept rfl)) _

theorem dmaClosed_hostMem (s : State) (k : Nat) (y : DmaCur) :
    (dmaClosed s k y).hostMem = (dmaWritten s k y).hostMem := rfl

/-- The functions and the link are as before the descriptor completed. -/
theorem dmaClosed_fns (s : State) (k : Nat) (y : DmaCur) :
    (dmaClosed s k y).host.fns = s.host.fns ∧ (dmaClosed s k y).host.linkUp = s.host.linkUp := by
  have hhost : (dmaWritten s k y).host = s.host := (dmaWritten_moves s k y).same .host rfl
  have hfns : (dmaClosed s k y).host.fns = (dmaWritten s k y).host.fns := rfl
  have hlink : (dmaClosed s k y).host.linkUp = (dmaWritten s k y).host.linkUp := rfl
  exact ⟨hfns.trans (congrArg HostS.fns hhost), hlink.trans (congrArg HostS.linkUp hhost)⟩

/-- An event written after an operation that left the functions and the link. -/
theorem EventWritten.after {t u : State} {n : Nat} (hfns : t.host.fns = s.host.fns)
    (hlink : t.host.linkUp = s.host.linkUp) (h : EventWritten n t u) : EventWritten n s u := by
  have hfn : t.fn n = s.fn n := by rw [State.fn, hfns, State.fn]
  rw [EventWritten, ringOpen, hfn, hlink] at h
  exact h

/-- R332, R333: what the completion of a descriptor leaves. -/
theorem dmaFinish_does {k : Nat} {y : DmaCur} (hst : (s.fn (chanOwner s k)).st ≠ .disabling)
    (hide : ideDiscards s (chanOwner s k) = false) : let t := dmaFinish s k y
    t.dma k = dmaDone (s.dma k) y ∧ (∀ j, j ≠ k → t.dma j = s.dma j) ∧
    (dEvent y.desc = true → EventWritten (chanOwner s k) s t) ∧
    (dEvent y.desc = false → let e := dmaEntry (s.dma k) + 24
      tabGet memDefault t.hostMem e = y.status ∧
      (∀ i, i < 4 → tabGet memDefault t.hostMem (e + 4 + i) = (leBytes y.done.toNat 4).getD i 0) ∧
      ∀ b, b ≠ e → (b < e + 4 ∨ e + 8 ≤ b) → tabGet memDefault t.hostMem b = tabGet memDefault s.hostMem b) ∧
    Moves [.host, .hostMem, .pmus] s t := by
  intro t
  have ht : t = _ := dmaFinish_eq hst
  clear_value t
  obtain ⟨hown, hothers⟩ := dmaClosed_own s k y
  have hmoves := dmaClosed_moves s k y
  cases hev : dEvent y.desc with
  | true =>
    obtain ⟨hfns, hlink⟩ := dmaClosed_fns s k y
    rw [if_pos hev] at ht
    rw [ht]
    generalize dmaClosed s k y = u at *
    have hkept := raiseEvent_dmaKept u (chanOwner s k) evDmaDone k
      ((s.dma k).head.toNat % 2 ^ (s.dma k).log2.toNat)
    exact ⟨(hkept.dma k).trans hown, fun j hj => (hkept.dma j).trans (hothers j hj),
      fun _ => .after hfns hlink (raiseEvent_written _ _ _ _ _), fun h => absurd h (by decide),
      hmoves.trans (raiseEvent_moves _ _ _ _ _)⟩
  | false =>
    have hmem := (dmaClosed_hostMem s k y).trans (dmaWritten_hostMem hide y)
    rw [if_neg (by simp [hev])] at ht
    rw [ht]
    generalize dmaClosed s k y = u at *
    have hlen : (leBytes y.done.toNat 4).length = 4 := length_leBytes _ _
    refine ⟨hown, hothers, fun h => absurd h (by decide), fun _ => ⟨?_, fun i hi => ?_, fun b hne hb => ?_⟩, hmoves⟩
    · rw [hmem, tabGet_memStore, if_pos ⟨Nat.le_refl _, Nat.lt_succ_self _⟩, Nat.sub_self]
      rfl
    · rw [hmem, tabGet_memStore, if_neg (by simp only [List.length_cons, List.length_nil]; omega), tabGet_memStore,
        if_pos (by rw [hlen]; omega)]
      congr 1
      omega
    · rw [hmem, tabGet_memStore, if_neg (by simp only [List.length_cons, List.length_nil]; omega), tabGet_memStore,
        if_neg (by rw [hlen]; omega)]

theorem exec_dmaDescriptorComplete {y : DmaCur} (hcur : (s.dma c.toNat).cur = some y) (hdone : y.status ≠ 0)
    (hwait : dmaWaiting s c.toNat = false) :
    exec (.dmaDescriptorComplete c) s = .next (dmaFinish s c.toNat y) := by
  have hretry : dmaRetry s c.toNat = s := by
    rw [dmaRetry, hcur]
    exact if_pos hdone
  refine congrArg Host.Outcome.next ?_
  rw [hretry]
  dsimp only
  rw [hcur]
  exact if_neg (by simpa [hwait] using hdone)

end

/-- Settles O53: an operation on memory or on a chute leaves the channels (`DmaKept`), so that each descriptor's outcome
is the channel's own update, over what its lines or words do. -/
theorem dmaDescriptors : Obligations.DmaDescriptors := by
  unfold Obligations.DmaDescriptors
  intro c d s k x own a len chans ends host
  refine ⟨fun f v hserved how => ?_, fun hmay => ⟨fun data hop hgood => ⟨fun hrange hbusy hplain => ?_,
    fun hrange hbusy => ?_, fun hrange => ?_⟩, fun hop hgood hrange hbusy hplain => ?_, fun data hbad hop => ?_,
    fun data hop hgood => ⟨fun hlocal hfunc hst hheld => ?_, fun hlocal hno => ?_, fun hremote hready => ?_⟩,
    fun hop hgood hlocal => ?_⟩, fun y hcur hdone hwait hst hide => ?_⟩
  · have hv := coreAccess_of_served (off := 0x40100C + 0x40 * k)
      (k := fun st => (st.updDma k fun z => { z with tail := v }).answer .ok) hserved
      (how.imp (fun h => congrArg BitVec.toNat h) fun h => decide_eq_true h)
    exact congrArg Host.Outcome.next hv
  · exact h2d_moves hmay hop hgood hrange hbusy hplain
  · refine ⟨_, exec_h2d hmay hop hgood, ?_⟩
    rw [dmaH2d, if_pos hrange, if_pos hbusy]
    exact dmaWait_own s k d _
  · refine ⟨_, exec_h2d hmay hop hgood, ?_⟩
    rw [dmaH2d, if_neg (by simpa using hrange)]
    exact ⟨dmaEnds_own (.refl s) 2 0, (dmaEnds_moves s k d 2 0).only⟩
  · exact d2h_moves hmay hop hgood hrange hbusy hplain
  · exact ⟨_, congrArg Host.Outcome.next (dmaStart_bad hmay hop hbad), dmaEnds_own (.refl s) 5 0,
      (dmaEnds_moves s k d 5 0).only⟩
  · exact h2c_pushed hmay hop hgood hlocal data hfunc hst hheld
  · exact h2c_refused hmay hop hgood hlocal data hno
  · refine ⟨_, exec_h2c hmay hop hgood data, ?_⟩
    rw [dmaH2c, if_neg (by simpa using hremote), if_neg (by simpa using hready)]
    exact dmaWait_own s k d data
  · intro q hown hpen
    refine ⟨fun hready => ⟨_, exec_c2h hmay hop hgood hlocal hown hpen, ?_⟩, fun hst hready hwait =>
      c2h_moves hmay hop hgood hlocal hown hpen hst hready hwait⟩
    have hnone : (s.chute (bitsAt (dDev d) 0 16)).ready = 0 := hready
    rw [dmaConsume, if_pos (by simp [hnone])]
    exact dmaWait_own s k d []
  · obtain ⟨hdma, hothers, hevent, hquiet, hmoves⟩ := dmaFinish_does (y := y) hst hide
    exact ⟨_, exec_dmaDescriptorComplete hcur hdone hwait, hdma, hothers, hevent, hquiet, hmoves.only⟩

end Sys2Proof.Machine
namespace Sys2Proof.Machine
open Sys2Proof

/-! ### Bytes of the flash (R348, R350) -/

section
variable (m : Mem) (a : Nat)

theorem tabGet_flashStore (bs : List Byte) (k : Nat) : tabGet flashDefault (flashStore m a bs) k =
    if a ≤ k ∧ k < a + bs.length then bs.getD (k - a) 0 else tabGet flashDefault m k := by
  induction bs generalizing m a with
  | nil =>
    rw [if_neg (by simp only [List.length_nil]; omega)]
    rfl
  | cons b bs ih =>
    rw [flashStore, ih, tabGet_tabSet, List.length_cons]
    by_cases hk : k = a
    · subst hk
      rw [if_neg (by omega), if_pos rfl, if_pos (by omega), Nat.sub_self, List.getD_cons_zero]
    · by_cases hin : a + 1 ≤ k ∧ k < a + 1 + bs.length
      · rw [if_pos hin, if_pos (by omega), show k - a = k - (a + 1) + 1 by omega, List.getD_cons_succ]
      · rw [if_neg hin, if_neg hk, if_neg (by omega)]

theorem length_flashBytes (n : Nat) : (flashBytes m a n).length = n := by
  induction n generalizing a with
  | zero => rfl
  | succ n ih => rw [flashBytes, List.length_cons, ih]

/-- Bytes read back where they were stored. -/
theorem flashBytes_of_tabGet {bs : List Byte} (h : ∀ i, i < bs.length → tabGet flashDefault m (a + i) = bs.getD i 0) :
    flashBytes m a bs.length = bs := by
  induction bs generalizing a with
  | nil => rfl
  | cons b bs ih =>
    have hrest := ih (a + 1) fun i hi => by
      have hi' := h (i + 1) (by rw [List.length_cons]; omega)
      rwa [List.getD_cons_succ, ← Nat.add_assoc, Nat.add_right_comm] at hi'
    have hfirst := h 0 (by rw [List.length_cons]; omega)
    rw [List.getD_cons_zero, Nat.add_zero] at hfirst
    rw [List.length_cons, flashBytes, hfirst, hrest]

theorem flashBytes_flashStore (bs : List Byte) : flashBytes (flashStore m a bs) a bs.length = bs :=
  flashBytes_of_tabGet _ _ fun i hi => by rw [tabGet_flashStore, if_pos (by omega), Nat.add_sub_cancel_left]

end

/-! ### Commands of the tack die's registers (R366, R367) -/

section
variable {s t : State}

theorem pfCore_open (h : CoreOpen s) (k : State → State) : pfCore s k = k s := coreAccess_of_served h (.inl rfl)

/-! #### FLASH_WRITE and FLASH_READ begin (R356, R366) -/

section
variable {target : BitVec 4} {off : BitVec 12}

theorem flashWriteCmd_busy (h : s.tack.flashCmd ≠ none) : flashWriteCmd s target = setFlashRes s fState :=
  if_pos (Option.isSome_iff_ne_none.mpr h)

theorem flashReadCmd_busy (h : s.tack.flashCmd ≠ none) : flashReadCmd s target off = setFlashRes s fState :=
  if_pos (Option.isSome_iff_ne_none.mpr h)

theorem flashCommand_badOp {op : Nat} (h1 : op ≠ 1) (h2 : op ≠ 2) :
    flashCommand s op target off = setFlashRes s fBadOp := by
  unfold flashCommand
  split
  · exact absurd rfl h1
  · exact absurd rfl h2
  · rfl

section
variable (hidle : s.tack.flashCmd = none)
include hidle

theorem flashWriteCmd_noSlot (h : 1 < target.toNat) : flashWriteCmd s target = setFlashRes s fBadOp := by
  rw [flashWriteCmd, if_neg (by simp [hidle]), if_pos h]

theorem flashWriteCmd_running (h : target.toNat ≤ 1) (hrec : s.tack.recovery = false)
    (hslot : bit s.tack.slot = target.toNat) : flashWriteCmd s target = setFlashRes s fState := by
  rw [flashWriteCmd, if_neg (by simp [hidle]), if_neg (by omega), if_pos (by simp [hrec, hslot])]

section
variable (h : target.toNat ≤ 1) (hfree : s.tack.recovery = true ∨ bit s.tack.slot ≠ target.toNat)
include h hfree

theorem flashWriteCmd_range (hlen : flashLenOk s = false) : flashWriteCmd s target = setFlashRes s fRange := by
  rw [flashWriteCmd, if_neg (by simp [hidle]), if_neg (by omega), if_neg (by rcases hfree with h | h <;> simp [h]),
    if_pos (by simp [hlen])]

/-- R350, R356: a FLASH_WRITE begins with the erase of its slot. -/
theorem flashWriteCmd_starts (hlen : flashLenOk s = true) : flashWriteCmd s target =
    { startFlash s true target 0 with
      flash := tabClear s.flash (slotBase target.toNat) (slotBase target.toNat + 0x1000000) } := by
  rw [flashWriteCmd, if_neg (by simp [hidle]), if_neg (by omega), if_neg (by rcases hfree with h | h <;> simp [h]),
    if_neg (by simp [hlen])]
  rfl

end

theorem flashReadCmd_noTarget (h : 4 < target.toNat) : flashReadCmd s target off = setFlashRes s fBadOp := by
  rw [flashReadCmd, if_neg (by simp [hidle]), if_pos h]

theorem flashReadCmd_range (h : target.toNat ≤ 4)
    (hrange : flashLenOk s = false ∨ regionSize target.toNat < 4096 * off.toNat + s.tack.flashLen.toNat) :
    flashReadCmd s target off = setFlashRes s fRange := by
  rw [flashReadCmd, if_neg (by simp [hidle]), if_neg (by omega), if_pos (by simpa using hrange)]

theorem flashReadCmd_starts (h : target.toNat ≤ 4) (hlen : flashLenOk s = true)
    (hrange : 4096 * off.toNat + s.tack.flashLen.toNat ≤ regionSize target.toNat) :
    flashReadCmd s target off = startFlash s false target off := by
  rw [flashReadCmd, if_neg (by simp [hidle]), if_neg (by omega), if_neg (by simp [hlen]; omega)]

end
end

theorem startFlash_moves (s : State) (write : Bool) (target : BitVec 4) (off : BitVec 12) :
    Moves [.tack] s (startFlash s write target off) := tack_moves s _

end

section
variable {t : BitVec 4} {off : BitVec 12} {s : State} (hopen : CoreOpen s)
include hopen

theorem exec_flashWrite : exec (.flashWrite t) s = .next ((flashWriteCmd s t).answer .ok) :=
  congrArg Host.Outcome.next (pfCore_open hopen _)

theorem exec_flashRead : exec (.flashRead t off) s = .next ((flashReadCmd s t off).answer .ok) :=
  congrArg Host.Outcome.next (pfCore_open hopen _)

theorem exec_flashBadOp {op : BitVec 4} (h1 : op.toNat ≠ 1) (h2 : op.toNat ≠ 2) :
    exec (.flashBadOp op) s = .next ((setFlashRes s fBadOp).answer .ok) := by
  refine congrArg Host.Outcome.next ((pfCore_open hopen _).trans ?_)
  rw [if_neg (by simp [h1, h2]), flashCommand_badOp h1 h2]

/-- R350, R356: FLASH_WRITE started, its slot erased. -/
theorem flashWrite_starts (hidle : s.tack.flashCmd = none) (ht : t.toNat ≤ 1)
    (hfree : s.tack.recovery = true ∨ bit s.tack.slot ≠ t.toNat) (hlen : flashLenOk s = true) :
    Completes (.flashWrite t) s fun s' =>
      s'.tack.flashCmd = some (.mk true t 0 s.tack.flashAddr s.tack.flashLen) ∧ s'.tack.flashRes = 0 ∧ s'.resp = .ok ∧
      (∀ a, 0x01000000 * t.toNat ≤ a → a < 0x01000000 * (t.toNat + 1) → tabGet flashDefault s'.flash a = 0xFF) ∧
      (∀ a, a < 0x01000000 * t.toNat ∨ 0x01000000 * (t.toNat + 1) ≤ a →
        tabGet flashDefault s'.flash a = tabGet flashDefault s.flash a) ∧ OnlyChanges [.tack, .flash, .resp] s s' := by
  refine ⟨_, exec_flashWrite hopen, ?_⟩
  rw [flashWriteCmd_starts hidle ht hfree hlen]
  have hget (a : Nat) := tabGet_tabClear (d := flashDefault) s.flash (slotBase t.toNat) (slotBase t.toNat + 0x1000000) a
  refine ⟨rfl, rfl, rfl, fun a hlo hhi => ?_, fun a ha => ?_, ?_⟩
  · exact (hget a).trans (if_pos (by unfold slotBase; omega))
  · exact (hget a).trans (if_neg (by unfold slotBase; omega))
  · have hstart := startFlash_moves s true t 0
    have herase := flash_moves (startFlash s true t 0) _ (tabWf_tabClear flashDefault s.flash (slotBase t.toNat)
      (slotBase t.toNat + 0x1000000))
    exact ((hstart.mono rfl).trans ((herase.mono rfl).trans ((answer_moves _ .ok).mono rfl))).only

end

/-! #### The end of a flash command (R350, R352, R356) -/

section
variable {s u : State}

/-- What the check of a slot's image depends on. -/
theorem slotImage_congr (hflash : u.flash = s.flash) (hfuses : u.tack.fuses = s.tack.fuses) (b least : Nat) :
    slotImage u b least = slotImage s b least := by
  unfold slotImage
  simp only [flashNat, slotKeyHash, lcState, hflash, hfuses]
  rfl

theorem newestCopy_congr (hflash : u.flash = s.flash) (h0 : u.spi0 = s.spi0) (h1 : u.spi1 = s.spi1) (n : Nat) :
    newestCopy u n = newestCopy s n := by
  unfold newestCopy
  simp only [copyValid, copySeq, copyBody, flashHas, flashFitted, flashPlace, flashTop, flashNat, hflash, h0, h1]
  rfl

/-- A command that has ended, before its result. -/
def flashEnded (s : State) : State := { s with tack := { s.tack with flashCmd := none, flashProg := 100 } }

theorem flashEnded_moves (s : State) : Moves [.tack] s (flashEnded s) := tack_moves s _

theorem setFlashRes_moves (s : State) (r : Nat) : Moves [.tack] s (setFlashRes s r) := tack_moves s _

/-- A command's result, given after an operation that left the tack die's registers. -/
theorem setFlashRes_ended {t : State} (h : t.tack = (flashEnded s).tack) (r : Nat) :
    let u := setFlashRes t r
    u.tack.flashCmd = none ∧ u.tack.flashRes = BitVec.ofNat 3 r ∧ u.tack.flashProg = 100 := by
  intro u
  have hu : u.tack = { t.tack with flashRes := BitVec.ofNat 3 r } := rfl
  rw [hu, h]
  exact ⟨rfl, rfl, rfl⟩

theorem readMem_plain {a n : Nat} (h : PlainSpan s a n) : Moves [.pmus] s (readMem s a n).1 ∧
    (readMem s a n).2 = ((List.range n).map fun i => s.byteAt (a + i), false) :=
  readSpan_plain h fun _ => by omega

/-- R356: the bytes of a command stored in its slot. -/
def slotWritten (s : State) (b : Nat) (bs : List Byte) : State := { s with flash := flashStore s.flash b bs }

/-- R350, R351: the SEQUENCE and the commit word of a slot. -/
def slotCommitted (s : State) (b : Nat) : State :=
  let f1 := flashStore s.flash (b + commitSector) (leBytes (nextSequence s) 4)
  { s with flash := flashStore f1 (b + commitSector + 4092) (leBytes flashCommit 4) }

theorem slotWritten_moves (s : State) (b : Nat) (bs : List Byte) : Moves [.flash] s (slotWritten s b bs) :=
  flash_moves s _ (flashStore_wf _ _ _)

theorem slotCommitted_moves (s : State) (b : Nat) : Moves [.flash] s (slotCommitted s b) :=
  flash_moves s _ fun h => flashStore_wf _ _ _ (flashStore_wf _ _ _ h)

/-- R350, R351: a committed slot ends with the commit word, and only its last 4 KiB have changed. -/
theorem slotCommitted_bytes (s : State) (b : Nat) : flashNat (slotCommitted s b) (b + 0xFFFFFC) 4 = 0x5A5AA5A5 ∧
    ∀ a, a < b + 0xFFF000 ∨ b + 0x1000000 ≤ a →
      tabGet flashDefault (slotCommitted s b).flash a = tabGet flashDefault s.flash a := by
  have hword : (leBytes flashCommit 4).length = 4 := length_leBytes _ _
  have hseq : (leBytes (nextSequence s) 4).length = 4 := length_leBytes _ _
  refine ⟨?_, fun a ha => ?_⟩
  · have hbytes := flashBytes_flashStore (flashStore s.flash (b + commitSector) (leBytes (nextSequence s) 4))
      (b + commitSector + 4092) (leBytes flashCommit 4)
    rw [hword] at hbytes
    exact (congrArg leNat hbytes).trans (leNat_leBytes _ _)
  · have hcommit : commitSector = 0xFFF000 := rfl
    refine (tabGet_flashStore _ _ _ _).trans ?_
    rw [if_neg (by rw [hword, hcommit]; omega), tabGet_flashStore, if_neg (by rw [hseq, hcommit]; omega)]

/-- R352, R356: a slot written from lines that came with no POISON. -/
theorem finishWrite_clean {c : FlashCmd} {r : State × List Byte × Bool}
    (hr : readMem s c.addr.toNat (min commitSector c.len.toNat) = r) (hclean : r.2.2 = false) :
    let b := slotBase c.target.toNat
    let u := slotWritten r.1 b r.2.1
    finishWrite s c = if (slotImage u b (leastSvn u)).isNone then setFlashRes u fBadImage
      else setFlashRes (slotCommitted u b) 0 := by
  intro b u
  unfold finishWrite
  dsimp only
  rw [hr, if_neg (by simp [hclean])]
  rfl

/-- R174, R175: a command waits for memory that cannot be reached. -/
theorem flashCommandDone_waits {c : FlashCmd} (hcmd : s.tack.flashCmd = some c)
    (hbusy : memBusy s c.addr.toNat c.len.toNat = true) (err : Bool) : exec (.flashCommandDone err) s = .next s := by
  refine congrArg Host.Outcome.next ?_
  rw [hcmd]
  exact if_pos hbusy

section
variable {c : FlashCmd} (hcmd : s.tack.flashCmd = some c) (hbusy : memBusy s c.addr.toNat c.len.toNat = false)
include hcmd hbusy

theorem exec_flashCommandDone (err : Bool) : exec (.flashCommandDone err) s = .next (
    if err || !flashFitted s then setFlashRes (flashEnded s) fErr
    else if c.write then finishWrite (flashEnded s) c else finishRead (flashEnded s) c) := by
  refine congrArg Host.Outcome.next ?_
  rw [hcmd]
  exact if_neg (by simp [hbusy])

/-- R348, R356: a command that the flash fails. -/
theorem flashCommandDone_fails {err : Bool} (h : (err || !flashFitted s) = true) :
    Completes (.flashCommandDone err) s fun s' =>
      (s'.tack.flashCmd = none ∧ s'.tack.flashRes = 3 ∧ s'.tack.flashProg = 100) ∧ OnlyChanges [.tack] s s' := by
  refine ⟨_, exec_flashCommandDone hcmd hbusy err, ?_⟩
  rw [if_pos h]
  exact ⟨setFlashRes_ended rfl fErr, ((flashEnded_moves s).trans (setFlashRes_moves _ _)).only⟩

section
variable (hfit : flashFitted s = true)
include hfit

/-- R356: a FLASH_READ of bytes that its target holds. -/
theorem flashCommandDone_reads (hread : c.write = false) {bs : List Byte} (hsource : flashSource s c = some bs)
    (hlen : bs.length = c.len.toNat) (hplain : PlainSpan s c.addr.toNat c.len.toNat) :
    Completes (.flashCommandDone false) s fun s' =>
      (s'.tack.flashCmd = none ∧ s'.tack.flashRes = 0 ∧ s'.tack.flashProg = 100) ∧
      StoresBytes s s' c.addr.toNat bs ∧ OnlyChanges [.tack, .ms, .pmus] s s' := by
  have hbefore := flashEnded_moves s
  have hsame : flashSource (flashEnded s) c = some bs := by
    rw [← hsource, flashSource, newestCopy_congr (hbefore.same .flash rfl) (hbefore.same .spi0 rfl)
      (hbefore.same .spi1 rfl), flashSource]
    rfl
  have hst := writeMem_stores (s := flashEnded s) (bs := bs)
    (by rw [hlen]; exact hplain.sound (hbefore.sound rfl rfl))
  have hexec := exec_flashCommandDone hcmd hbusy false
  rw [if_neg (by simp [hfit]), hread, if_neg Bool.false_ne_true, finishRead, hsame] at hexec
  dsimp only at hexec
  generalize writeMem (flashEnded s) c.addr.toNat bs false = u at *
  have hres := setFlashRes_moves u 0
  exact ⟨_, hexec, setFlashRes_ended (hst.moves.same .tack rfl) 0, hst.bytes.between hbefore rfl hres rfl,
    ((hbefore.mono rfl).trans ((hst.moves.mono rfl).trans (hres.mono rfl))).only⟩

/-- R350, R356: a FLASH_READ of a store with no valid copy. -/
theorem flashCommandDone_noCopy (hread : c.write = false) (ht : 1 < c.target.toNat)
    (hnone : newestCopy s c.target.toNat = none) : Completes (.flashCommandDone false) s fun s' =>
      (s'.tack.flashCmd = none ∧ s'.tack.flashRes = 3 ∧ s'.tack.flashProg = 100) ∧ OnlyChanges [.tack] s s' := by
  have hbefore := flashEnded_moves s
  have hsource : flashSource (flashEnded s) c = none := by
    rw [flashSource, newestCopy_congr (hbefore.same .flash rfl) (hbefore.same .spi0 rfl) (hbefore.same .spi1 rfl),
      hnone]
    exact if_neg (by omega)
  have hexec := exec_flashCommandDone hcmd hbusy false
  rw [if_neg (by simp [hfit]), hread, if_neg Bool.false_ne_true, finishRead, hsource] at hexec
  exact ⟨_, hexec, setFlashRes_ended rfl fErr, (hbefore.trans (setFlashRes_moves _ _)).only⟩

/-- R352, R356: a slot written from sound memory, committed when its image verifies. -/
theorem flashCommandDone_writes (hwrite : c.write = true)
    (hplain : PlainSpan s c.addr.toNat (min 0xFFF000 c.len.toNat)) :
    let b := 0x01000000 * c.target.toNat
    let bytes := (List.range (min 0xFFF000 c.len.toNat)).map fun i => s.byteAt (c.addr.toNat + i)
    let f := flashStore s.flash b bytes
    let ended := fun (s' : State) (r : BitVec 3) =>
      s'.tack.flashCmd = none ∧ s'.tack.flashRes = r ∧ s'.tack.flashProg = 100
    (slotImage { s with flash := f } b (leastSvn s) ≠ none → Completes (.flashCommandDone false) s fun s' =>
      ended s' 0 ∧ flashNat s' (b + 0xFFFFFC) 4 = 0x5A5AA5A5 ∧
      (∀ a, a < b + 0xFFF000 ∨ b + 0x1000000 ≤ a → tabGet flashDefault s'.flash a = tabGet flashDefault f a) ∧
      OnlyChanges [.tack, .flash, .pmus] s s') ∧
    (slotImage { s with flash := f } b (leastSvn s) = none → Completes (.flashCommandDone false) s fun s' =>
      ended s' 2 ∧ s'.flash = f ∧ OnlyChanges [.tack, .flash, .pmus] s s') := by
  intro b bytes f ended
  have hbefore := flashEnded_moves s
  obtain ⟨hm, hread⟩ := readMem_plain (n := min commitSector c.len.toNat) (hplain.sound (hbefore.sound rfl rfl))
  have hbytes : (fun i => (flashEnded s).byteAt (c.addr.toNat + i)) = fun i => s.byteAt (c.addr.toNat + i) :=
    funext fun i => hbefore.byteAt rfl _
  rw [hbytes] at hread
  generalize hr : readMem (flashEnded s) c.addr.toNat (min commitSector c.len.toNat) = r at hm hread
  have hfinish : finishWrite (flashEnded s) c = _ := finishWrite_clean hr (by rw [hread])
  have hwritten := slotWritten_moves r.1 b r.2.1
  have hflash : (slotWritten r.1 b r.2.1).flash = f := by
    have hdata : r.2.1 = bytes := congrArg Prod.fst hread
    have hold : r.1.flash = s.flash := (hm.same .flash rfl).trans (hbefore.same .flash rfl)
    rw [slotWritten, hold, hdata]
  have htack : (slotWritten r.1 b r.2.1).tack = (flashEnded s).tack :=
    (hwritten.same .tack rfl).trans (hm.same .tack rfl)
  have hu : Moves [.tack, .flash, .pmus] s (slotWritten r.1 b r.2.1) :=
    (hbefore.mono rfl).trans ((hm.mono rfl).trans (hwritten.mono rfl))
  have hexec := exec_flashCommandDone hcmd hbusy false
  rw [if_neg (by simp [hfit]), if_pos hwrite, hfinish] at hexec
  have hb : slotBase c.target.toNat = b := rfl
  rw [hb] at hexec
  generalize slotWritten r.1 b r.2.1 = u at *
  have himage : slotImage u b (leastSvn u) = slotImage { s with flash := f } b (leastSvn s) := by
    rw [slotImage_congr (s := { s with flash := f }) hflash (by rw [htack]; rfl), leastSvn, htack]
    rfl
  rw [himage] at hexec
  refine ⟨fun hgood => ?_, fun hbad => ?_⟩
  · rw [if_neg (by simpa using hgood)] at hexec
    have hcommit := slotCommitted_moves u b
    obtain ⟨hword, hothers⟩ := slotCommitted_bytes u b
    rw [hflash] at hothers
    exact ⟨_, hexec, setFlashRes_ended ((hcommit.same .tack rfl).trans htack) 0, hword, hothers,
      (hu.trans ((hcommit.mono rfl).trans ((setFlashRes_moves _ _).mono rfl))).only⟩
  · rw [if_pos (by rw [hbad]; rfl)] at hexec
    exact ⟨_, hexec, setFlashRes_ended htack fBadImage, hflash, (hu.trans ((setFlashRes_moves _ _).mono rfl)).only⟩

end
end
end
end Sys2Proof.Machine
namespace Sys2Proof.Machine
open Sys2Proof

/-! ### Life-cycle fuses (R357) -/

/-- R357: both fuses of a life-cycle pair are blown. -/
def lcPair (v : BitVec 8) (j : Nat) : Bool := bitsAt v.toNat (2 * j) 2 = 3

theorem lcCode_eq (f : Fuses) : lcCode f =
    if lcPair f.lc 3 then 4 else if lcPair f.lc 2 then 3 else if lcPair f.lc 1 then 2
    else if lcPair f.lc 0 then 1 else 0 := by
  have hcode : lcCode f = ((([4, 3, 2, 1] : List Nat).find? fun k => lcPair f.lc (k - 1)).getD 0) := rfl
  rw [hcode]
  simp only [List.find?_cons, List.find?_nil]
  split_ifs <;> simp_all

theorem bitsAt_or (v w lo n : Nat) : bitsAt (v ||| w) lo n = bitsAt v lo n ||| bitsAt w lo n := by
  simp only [bitsAt, ← Nat.shiftRight_eq_div_pow, Nat.shiftRight_or_distrib, Nat.or_mod_two_pow]

/-- The fuses that a transition blows are those of one pair. -/
theorem lcPair_blown (v : BitVec 8) {i j : Nat} (hi : i < 4) (hj : j < 4) :
    lcPair (v ||| BitVec.ofNat 8 (3 * 4 ^ i)) j = (decide (j = i) || lcPair v j) := by
  have hmask : bitsAt (BitVec.ofNat 8 (3 * 4 ^ i)).toNat (2 * j) 2 = if j = i then 3 else 0 := by
    interval_cases i <;> interval_cases j <;> rfl
  rw [lcPair, lcPair, BitVec.toNat_or, bitsAt_or, hmask]
  by_cases h : j = i
  · have hlt : bitsAt v.toNat (2 * j) 2 < 4 := Nat.mod_lt _ (by decide)
    rw [if_pos h]
    generalize bitsAt v.toNat (2 * j) 2 = x at hlt
    interval_cases x <;> simp [h]
  · rw [if_neg h, Nat.or_zero, decide_eq_false h, Bool.false_or]

/-- R357, R358: the fuses of the next state make it the state. -/
theorem lcCode_blown (f g : Fuses) {n : Nat} (hn : lcCode f = n) (hlt : n < 4)
    (hg : g.lc = f.lc ||| BitVec.ofNat 8 (3 * 4 ^ n)) : lcCode g = n + 1 := by
  rw [lcCode_eq] at hn ⊢
  rw [hg, lcPair_blown _ hlt (by decide), lcPair_blown _ hlt (by decide), lcPair_blown _ hlt (by decide),
    lcPair_blown _ hlt (by decide)]
  split_ifs at hn <;> subst hn <;> simp_all

end Sys2Proof.Machine

namespace Sys2Proof.Machine
open Sys2Proof

/-! ### Warm resets (R341, R343, R358) -/

section
variable {s t : State}

/-- R341, R343: what a warm reset leaves of the tack die, unless heat has shut the device down (R397). -/
theorem warmReset_leaves (h : s.therm.shutdown = false) (cause : Nat) : let t := warmReset s cause
    t.tack.step = 1 ∧ t.tack.cause = BitVec.ofNat 6 (2 ^ cause) ∧ t.tack.readyNow = false ∧ t.time = s.time ∧
      t.tack.fuses = s.tack.fuses := by
  have hreset : warmReset s cause = { resetDevice s true cause with
      tack := { (resetDevice s true cause).tack with step := 1 } } := if_neg (by simp [h])
  have htack : (resetDevice s true cause).tack = { (resetAll s true cause).tack with
      cal := readmitCal s (resetAll s true cause).tack.cal } := keepCal_tack _ _
  have htime : (resetDevice s true cause).time = (resetAll s true cause).time :=
    (keepCal_moves (resetAll s true cause) (readmitCal s)).same .time rfl
  rw [hreset]
  generalize resetDevice s true cause = u at *
  have hall : (resetAll s true cause).tack = resetTack s true cause := rfl
  have hclock : (resetAll s true cause).time = s.time := rfl
  rw [hall] at htack
  have hcause : u.tack.cause = BitVec.ofNat 6 (2 ^ cause) := by rw [htack]; rfl
  have hready : u.tack.readyNow = false := by rw [htack]; rfl
  have hfuses : u.tack.fuses = s.tack.fuses := by rw [htack]; rfl
  exact ⟨rfl, hcause, hready, htime.trans hclock, hfuses⟩

/-- The tack die's registers, TIME and the thermal state are as they were: an operation on the MRAM. -/
def MramOnly (s t : State) : Prop := t.tack = s.tack ∧ t.time = s.time ∧ t.therm = s.therm

theorem MramOnly.trans {u : State} (h : MramOnly s t) (h' : MramOnly t u) : MramOnly s u :=
  ⟨h'.1.trans h.1, h'.2.1.trans h.2.1, h'.2.2.trans h.2.2⟩

theorem mramPut_mramOnly (s : State) (a n v : Nat) : MramOnly s (mramPut s a n v) := ⟨rfl, rfl, rfl⟩

theorem clearSlot_mramOnly (s : State) (i : Nat) : MramOnly s (clearSlot s i) := ⟨rfl, rfl, rfl⟩

theorem checkMramState_mramOnly (s : State) : MramOnly s (checkMramState s) := by
  unfold checkMramState
  split
  · exact ⟨rfl, rfl, rfl⟩
  · exact (clearSlot_mramOnly s 0).trans ((clearSlot_mramOnly _ 1).trans
      ((mramPut_mramOnly _ 0 4 _).trans (mramPut_mramOnly _ 4 1 _)))

/-! ### Security commands (R357, R362 to R364, R367) -/

/-- What an attempt that changes no state leaves: the boot step, the fuses, the debug access, TIME and heat. -/
structure FirmwareKept (s t : State) : Prop where
  step : t.tack.step = s.tack.step
  fuses : t.tack.fuses = s.tack.fuses
  debugOpen : t.tack.debugOpen = s.tack.debugOpen
  time : t.time = s.time
  therm : t.therm = s.therm

/-- R364: a new nonce, after an operation that left the tack die. -/
theorem newNonce_firmwareKept (htack : t.tack = s.tack) (htime : t.time = s.time) (htherm : t.therm = s.therm) :
    FirmwareKept s (newNonce t) := by
  have hstep : (newNonce t).tack.step = t.tack.step := rfl
  have hfuses : (newNonce t).tack.fuses = t.tack.fuses := rfl
  have hdebug : (newNonce t).tack.debugOpen = t.tack.debugOpen := rfl
  exact ⟨by rw [hstep, htack], by rw [hfuses, htack], by rw [hdebug, htack], htime, htherm⟩

theorem FirmwareKept.lcState (h : FirmwareKept s t) : lcState t = lcState s := congrArg lcCode h.fuses

/-- A refused security command's answer. -/
theorem FirmwareKept.refused (h : FirmwareKept s t) (r : Nat) : let u := (setSecRes t r).answer .ok
    (u.tack.secRes = BitVec.ofNat 3 r ∧ u.tack.step = s.tack.step ∧ u.resp = .ok ∧ u.tack.fuses = s.tack.fuses) ∧
      u.tack.debugOpen = s.tack.debugOpen :=
  ⟨⟨rfl, h.step, rfl, h.fuses⟩, h.debugOpen⟩

theorem setSecRes_moves (s : State) (r : Nat) : Moves [.tack] s (setSecRes s r) := tack_moves s _

theorem newNonce_moves (s : State) : Moves [.tack, .free] s (newNonce s) :=
  .step (tack_moves _ _) rfl ((useFree_moves s).mono rfl)

/-- R364: the state after a token is read, with its new nonce. -/
theorem tokenRead_firmwareKept (s : State) (target : Nat) (key : BitVec 384) :
    FirmwareKept s (newNonce (tokenOk s target key).1) :=
  have h : Moves soundReadParts s (tokenOk s target key).1 := readMem_moves s _ _
  newNonce_firmwareKept (h.same .tack rfl) (h.same .time rfl) (h.same .therm rfl)

section
variable {op target : Nat} {key : BitVec 384} {pass : State → State}

theorem withToken_waits (h : memBusy s s.tack.token.toNat 112 = true) : withToken s op target key pass =
    { s with tack := { s.tack with secBusy := true, secWait := some (op, target) } } := if_pos h

section
variable {n : Nat} (h : memBusy s s.tack.token.toNat 112 = false) (hn : (if op = 2 then 7 else target) = n)
include h hn

theorem withToken_passes (hok : (tokenOk s n key).2 = true) :
    withToken s op target key pass = pass (newNonce (tokenOk s n key).1) := by
  rw [withToken, if_neg (by simp [h]), hn, if_pos hok]

theorem withToken_refuses (hbad : (tokenOk s n key).2 = false) :
    withToken s op target key pass = setSecRes (newNonce (tokenOk s n key).1) secAuth := by
  rw [withToken, if_neg (by simp [h]), hn, if_neg (by simp [hbad])]

end
end

/-- R357, R358: the fuses after the transition to state `n`. -/
def blownFuses (f : Fuses) (n : Nat) : Fuses :=
  { f with lc := f.lc ||| BitVec.ofNat 8 (3 * 4 ^ (n - 1)), seed := if n < 3 then f.seed else none }

/-- A transition's state before its warm reset. -/
def lcBlown (s : State) (n : Nat) : State :=
  setSecRes { s with tack := { s.tack with fuses := blownFuses s.tack.fuses n } } 0

theorem advanceLc_eq (s : State) (n : Nat) : advanceLc s n = warmReset (checkMramState (lcBlown s n)) causeLc := rfl

/-- R358: a transition leaves the device in a warm reset, in its new state. -/
theorem advanceLc_leaves {n : Nat} (hn : lcState s + 1 = n) (hle : n ≤ 4) (hup : s.therm.shutdown = false) :
    let t := advanceLc s n
    (t.tack.step = 1 ∧ t.tack.cause = 8 ∧ t.tack.readyNow = false ∧ t.time = s.time) ∧ lcState t = n ∧
      (n = 3 → t.tack.fuses.seed = none) := by
  obtain ⟨htack, htime, htherm⟩ := checkMramState_mramOnly (lcBlown s n)
  obtain ⟨hstep, hcause, hready, hclock, hfuses⟩ :=
    warmReset_leaves (s := checkMramState (lcBlown s n)) (by rw [htherm]; exact hup) causeLc
  rw [htack] at hfuses
  rw [htime] at hclock
  rw [advanceLc_eq]
  generalize warmReset (checkMramState (lcBlown s n)) causeLc = t at *
  have hg : t.tack.fuses = blownFuses s.tack.fuses n := hfuses
  refine ⟨⟨hstep, hcause, hready, hclock⟩, ?_, fun h3 => ?_⟩
  · rw [lcState, hg, ← hn]
    exact lcCode_blown s.tack.fuses _ rfl (by omega) rfl
  · rw [hg, blownFuses, if_neg (by omega)]

theorem lcAllowed_next {n : Nat} (h : lcAllowed s n = true) : lcState s + 1 = n ∧ n ≤ 4 := by
  simp only [lcAllowed, Bool.and_eq_true, decide_eq_true_eq] at h
  obtain ⟨⟨hnext, hle⟩, -⟩ := h
  exact ⟨hnext.symm, hle⟩

/-- R174, R364: a command that waits for its token. -/
theorem tokenWaits (s : State) (w : Nat × Nat) :
    let t := State.answer { s with tack := { s.tack with secBusy := true, secWait := some w } } .ok
    t.tack = { s.tack with secBusy := true, secWait := some w } ∧ t.resp = .ok ∧ OnlyChanges [.tack, .resp] s t :=
  ⟨rfl, rfl, (((tack_moves s _).mono rfl).trans ((answer_moves _ _).mono rfl)).only⟩

/-- R358: a transition after an attempt that left the life-cycle state. -/
theorem FirmwareKept.advanceLc (h : FirmwareKept s t) {n : Nat} (hallowed : lcAllowed s n = true)
    (hup : s.therm.shutdown = false) : let u := (Machine.advanceLc t n).answer .ok
    (u.tack.step = 1 ∧ u.tack.cause = 8 ∧ u.tack.readyNow = false ∧ u.time = s.time) ∧ Machine.lcState u = n ∧
      (n = 3 → u.tack.fuses.seed = none) := by
  obtain ⟨hnext, hle⟩ := lcAllowed_next hallowed
  obtain ⟨⟨hstep, hcause, hready, htime⟩, hlc, hseed⟩ :=
    advanceLc_leaves (s := t) (by rw [h.lcState]; exact hnext) hle (by rw [h.therm]; exact hup)
  exact ⟨⟨hstep, hcause, hready, htime.trans h.time⟩, hlc, hseed⟩

/-! #### LC_ADVANCE -/

section
variable {n : Nat} {key : BitVec 384}

theorem lcAdvance_refused (h : lcAllowed s n = false) : lcAdvance s n = setSecRes (newNonce s) secState :=
  if_pos (by simp [h])

theorem lcAdvance_free (h : lcAllowed s n = true) (hkey : lcKey s n = none) :
    lcAdvance s n = advanceLc (newNonce s) n := by
  rw [lcAdvance, if_neg (by simp [h]), hkey]

theorem lcAdvance_token (h : lcAllowed s n = true) (hkey : lcKey s n = some key) :
    lcAdvance s n = withToken s 1 n key fun st => advanceLc st n := by
  rw [lcAdvance, if_neg (by simp [h]), hkey]

end

/-! #### DEBUG_UNLOCK -/

/-- R363: the warm reset of an unlock, with access open. -/
def debugOpened (s : State) : State :=
  let s1 := warmReset s causeDebug
  { s1 with tack := { s1.tack with debugOpen := true } }

theorem debugUnlock_refused (h : lcState s ≠ 2) : debugUnlock s = setSecRes (newNonce s) secState := if_pos h

theorem debugUnlock_token (h : lcState s = 2) :
    debugUnlock s = withToken s 2 0 s.tack.fuses.keyHash debugOpened := if_neg (by simp [h])

/-- R363: what an unlock leaves after an attempt that left the rest. -/
theorem FirmwareKept.debugOpened (h : FirmwareKept s t) (hup : s.therm.shutdown = false) :
    let u := (Machine.debugOpened t).answer .ok
    (u.tack.step = 1 ∧ u.tack.cause = 32 ∧ u.tack.readyNow = false ∧ u.time = s.time) ∧ u.tack.debugOpen = true := by
  obtain ⟨hstep, hcause, hready, htime, -⟩ :=
    warmReset_leaves (s := t) (by rw [h.therm]; exact hup) causeDebug
  rw [Machine.debugOpened]
  generalize warmReset t causeDebug = v at *
  exact ⟨⟨hstep, hcause, hready, htime.trans h.time⟩, rfl⟩

/-! #### The commands of SEC_CMD -/

theorem secCommand_busy (h : s.tack.secBusy = true) {op : Nat} (hlo : 1 ≤ op) (hhi : op ≤ 3) (n : Nat) :
    secCommand s op n = setSecRes s secState := if_pos (by simp [h, hlo, hhi])

theorem secCommand_idle (h : s.tack.secBusy = false) (op n : Nat) : secCommand s op n = runSec s op n :=
  if_neg (by simp [h])

theorem secCommand_badOp {op : Nat} (h : op = 0 ∨ 3 < op) (n : Nat) : secCommand s op n = setSecRes s secBad := by
  rw [secCommand, if_neg (by simp; omega)]
  unfold runSec
  split
  · omega
  · omega
  · omega
  · rfl

/-- R362: ADVANCE_SVN in READY. -/
theorem raiseSvn_ready (h : inReady s = true) : let t := raiseSvn s
    t.tack.fuses.svn.toNat = max s.tack.fuses.svn.toNat s.tack.runSvn.toNat ∧ t.tack.secRes = 0 ∧
      Moves [.tack] s t := by
  intro t
  have ht : t = _ := if_pos h
  rw [ht]
  refine ⟨?_, rfl, (tack_moves s _).trans (setSecRes_moves _ _)⟩
  change (if s.tack.fuses.svn < s.tack.runSvn then s.tack.runSvn else s.tack.fuses.svn).toNat = _
  split
  · next hlt => exact (Nat.max_eq_right (Nat.le_of_lt hlt)).symm
  · next hge => exact (Nat.max_eq_left (Nat.le_of_not_lt hge)).symm

end

section
variable {s : State} (hopen : CoreOpen s)
include hopen

theorem exec_lcAdvance (target : BitVec 3) :
    exec (.lcAdvance target) s = .next ((secCommand s 1 target.toNat).answer .ok) :=
  congrArg Host.Outcome.next (pfCore_open hopen _)

theorem exec_debugUnlock : exec .debugUnlock s = .next ((secCommand s 2 0).answer .ok) :=
  congrArg Host.Outcome.next (pfCore_open hopen _)

theorem exec_advanceSvn : exec .advanceSvn s = .next ((secCommand s 3 0).answer .ok) :=
  congrArg Host.Outcome.next (pfCore_open hopen _)

/-- R367, [79]: a command while another waits for its token. -/
theorem secCommands_busy (hbusy : s.tack.secBusy = true) (target : BitVec 3) {c : Instr}
    (hc : c ∈ [Instr.lcAdvance target, .debugUnlock, .advanceSvn]) :
    exec c s = .next (State.answer { s with tack := { s.tack with secRes := 1 } } .ok) := by
  simp only [List.mem_cons, List.not_mem_nil, or_false] at hc
  obtain rfl | rfl | rfl := hc
  · rw [exec_lcAdvance hopen, secCommand_busy hbusy (by decide) (by decide)]
    rfl
  · rw [exec_debugUnlock hopen, secCommand_busy hbusy (by decide) (by decide)]
    rfl
  · rw [exec_advanceSvn hopen, secCommand_busy hbusy (by decide) (by decide)]
    rfl

theorem exec_secBadOp {op : BitVec 4} (h : op.toNat = 0 ∨ 3 < op.toNat) :
    exec (.secBadOp op) s = .next (State.answer { s with tack := { s.tack with secRes := 3 } } .ok) := by
  refine congrArg Host.Outcome.next ((pfCore_open hopen _).trans ?_)
  rw [if_neg (by simp; omega), secCommand_badOp h]
  rfl

section
variable (hidle : s.tack.secBusy = false)
include hidle

theorem exec_lcAdvance_idle (target : BitVec 3) :
    exec (.lcAdvance target) s = .next ((lcAdvance s target.toNat).answer .ok) := by
  rw [exec_lcAdvance hopen, secCommand_idle hidle]
  rfl

theorem exec_debugUnlock_idle : exec .debugUnlock s = .next ((debugUnlock s).answer .ok) := by
  rw [exec_debugUnlock hopen, secCommand_idle hidle]
  rfl

theorem exec_advanceSvn_idle : exec .advanceSvn s = .next ((raiseSvn s).answer .ok) := by
  rw [exec_advanceSvn hopen, secCommand_idle hidle]
  rfl

end
end

/-! ### LC_ADVANCE and DEBUG_UNLOCK at the register (R357, R363, R364, R367) -/

section
variable {s : State} (hopen : CoreOpen s) (hidle : s.tack.secBusy = false)
include hopen hidle

section
variable {target : BitVec 3}

/-- R357: a transition that is not allowed. -/
theorem lcAdvance_state (h : lcAllowed s target.toNat = false) : Completes (.lcAdvance target) s fun s' =>
    (s'.tack.secRes = 1 ∧ s'.tack.step = s.tack.step ∧ s'.resp = .ok ∧ s'.tack.fuses = s.tack.fuses) ∧
      OnlyChanges [.tack, .free, .resp] s s' := by
  refine ⟨_, exec_lcAdvance_idle hopen hidle target, ?_⟩
  rw [lcAdvance_refused h]
  have hmoves : Moves [.tack, .free, .resp] s _ :=
    ((newNonce_moves s).mono rfl).trans ((setSecRes_moves (newNonce s) secState).mono rfl)
  exact ⟨((newNonce_firmwareKept rfl rfl rfl).refused secState).1, (hmoves.trans ((answer_moves _ _).mono rfl)).only⟩

/-- R357, R358: a transition that needs no token. -/
theorem lcAdvance_untokened (h : lcAllowed s target.toNat = true) (hkey : lcKey s target.toNat = none)
    (hup : s.therm.shutdown = false) : Completes (.lcAdvance target) s fun s' =>
    (s'.tack.step = 1 ∧ s'.tack.cause = 8 ∧ s'.tack.readyNow = false ∧ s'.time = s.time) ∧
      lcState s' = target.toNat ∧ s'.resp = .ok := by
  refine ⟨_, exec_lcAdvance_idle hopen hidle target, ?_⟩
  rw [lcAdvance_free h hkey]
  obtain ⟨hwarm, hlc, -⟩ := (newNonce_firmwareKept (s := s) rfl rfl rfl).advanceLc h hup
  exact ⟨hwarm, hlc, rfl⟩

section
variable {key : BitVec 384} (h : lcAllowed s target.toNat = true) (hkey : lcKey s target.toNat = some key)
include h hkey

theorem lcAdvance_tokenWaits (hout : memBusy s s.tack.token.toNat 112 = true) :
    Completes (.lcAdvance target) s fun s' =>
      s'.tack = { s.tack with secBusy := true, secWait := some (1, target.toNat) } ∧ s'.resp = .ok ∧
      OnlyChanges [.tack, .resp] s s' := by
  refine ⟨_, exec_lcAdvance_idle hopen hidle target, ?_⟩
  rw [lcAdvance_token h hkey, withToken_waits hout]
  exact tokenWaits s (1, target.toNat)

section
variable (hin : memBusy s s.tack.token.toNat 112 = false)
include hin

/-- R357, R358: a transition with its token. -/
theorem lcAdvance_tokened (hok : (tokenOk s target.toNat key).2 = true) (hup : s.therm.shutdown = false) :
    Completes (.lcAdvance target) s fun s' =>
      (s'.tack.step = 1 ∧ s'.tack.cause = 8 ∧ s'.tack.readyNow = false ∧ s'.time = s.time) ∧
      lcState s' = target.toNat ∧ (target = 3 → s'.tack.fuses.seed = none) := by
  refine ⟨_, exec_lcAdvance_idle hopen hidle target, ?_⟩
  rw [lcAdvance_token h hkey, withToken_passes (op := 1) (target := target.toNat) (n := target.toNat) hin rfl hok]
  obtain ⟨hwarm, hlc, hseed⟩ := (tokenRead_firmwareKept s target.toNat key).advanceLc h hup
  exact ⟨hwarm, hlc, fun h3 => hseed (by rw [h3]; rfl)⟩

/-- R364: a token that does not verify. -/
theorem lcAdvance_auth (hbad : (tokenOk s target.toNat key).2 = false) : Completes (.lcAdvance target) s fun s' =>
    s'.tack.secRes = 2 ∧ s'.tack.step = s.tack.step ∧ s'.resp = .ok ∧ s'.tack.fuses = s.tack.fuses := by
  refine ⟨_, exec_lcAdvance_idle hopen hidle target, ?_⟩
  rw [lcAdvance_token h hkey, withToken_refuses (op := 1) (target := target.toNat) (n := target.toNat) hin rfl hbad]
  exact ((tokenRead_firmwareKept s target.toNat key).refused secAuth).1

end
end
end

/-- R363: DEBUG_UNLOCK outside DEPLOYED. -/
theorem debugUnlock_state (h : lcState s ≠ 2) : Completes .debugUnlock s fun s' =>
    (s'.tack.secRes = 1 ∧ s'.tack.step = s.tack.step ∧ s'.resp = .ok ∧ s'.tack.fuses = s.tack.fuses) ∧
      s'.tack.debugOpen = s.tack.debugOpen := by
  refine ⟨_, exec_debugUnlock_idle hopen hidle, ?_⟩
  rw [debugUnlock_refused h]
  exact (newNonce_firmwareKept rfl rfl rfl).refused secState

section
variable (h : lcState s = 2)
include h

theorem debugUnlock_tokenWaits (hout : memBusy s s.tack.token.toNat 112 = true) :
    Completes .debugUnlock s fun s' =>
      s'.tack = { s.tack with secBusy := true, secWait := some (2, 0) } ∧ s'.resp = .ok ∧
      OnlyChanges [.tack, .resp] s s' := by
  refine ⟨_, exec_debugUnlock_idle hopen hidle, ?_⟩
  rw [debugUnlock_token h, withToken_waits hout]
  exact tokenWaits s (2, 0)

section
variable (hin : memBusy s s.tack.token.toNat 112 = false)
include hin

/-- R363, R364: an unlock with its token. -/
theorem debugUnlock_tokened (hok : (tokenOk s 7 s.tack.fuses.keyHash).2 = true) (hup : s.therm.shutdown = false) :
    Completes .debugUnlock s fun s' =>
      (s'.tack.step = 1 ∧ s'.tack.cause = 32 ∧ s'.tack.readyNow = false ∧ s'.time = s.time) ∧
      s'.tack.debugOpen = true := by
  refine ⟨_, exec_debugUnlock_idle hopen hidle, ?_⟩
  rw [debugUnlock_token h, withToken_passes (op := 2) (n := 7) hin rfl hok]
  exact (tokenRead_firmwareKept s 7 s.tack.fuses.keyHash).debugOpened hup

theorem debugUnlock_auth (hbad : (tokenOk s 7 s.tack.fuses.keyHash).2 = false) :
    Completes .debugUnlock s fun s' =>
      (s'.tack.secRes = 2 ∧ s'.tack.step = s.tack.step ∧ s'.resp = .ok ∧ s'.tack.fuses = s.tack.fuses) ∧
      s'.tack.debugOpen = s.tack.debugOpen := by
  refine ⟨_, exec_debugUnlock_idle hopen hidle, ?_⟩
  rw [debugUnlock_token h, withToken_refuses (op := 2) (n := 7) hin rfl hbad]
  exact (tokenRead_firmwareKept s 7 s.tack.fuses.keyHash).refused secAuth

end
end

/-- R362: ADVANCE_SVN in READY. -/
theorem advanceSvn_ready (h : inReady s = true) : Completes .advanceSvn s fun s' =>
    s'.tack.fuses.svn.toNat = max s.tack.fuses.svn.toNat s.tack.runSvn.toNat ∧ s'.tack.secRes = 0 ∧ s'.resp = .ok ∧
      OnlyChanges [.tack, .resp] s s' := by
  obtain ⟨hsvn, hres, hmoves⟩ := raiseSvn_ready h
  exact ⟨_, exec_advanceSvn_idle hopen hidle, hsvn, hres, rfl,
    ((hmoves.mono rfl).trans ((answer_moves _ _).mono rfl)).only⟩

theorem advanceSvn_state (h : inReady s = false) : Completes .advanceSvn s fun s' =>
    s'.tack.secRes = 1 ∧ s'.tack.step = s.tack.step ∧ s'.resp = .ok ∧ s'.tack.fuses = s.tack.fuses := by
  have hraise : raiseSvn s = setSecRes s secState := if_neg (by simp [h])
  refine ⟨_, exec_advanceSvn_idle hopen hidle, ?_⟩
  rw [hraise]
  exact ⟨rfl, rfl, rfl, rfl⟩

end

/-! ### Messages and IDE (R335, R336, R442) -/

section
variable (s : State)

/-- R335, R442: a standard's answer is a message. -/
theorem answerMessage_does (req : List Byte) : (∃ bs, (answerMessage s req).resp = .message bs) ∧
    Moves [.free, .resp] s (answerMessage s req) :=
  ⟨⟨_, rfl⟩, ((useFree_moves s).mono rfl).trans ((answer_moves _ _).mono rfl)⟩

/-- R335: a session's key, when a request sets one up. -/
def sessionSet (k : Option (BitVec 256)) : State :=
  k.elim s fun k => { s with tack := { s.tack with sessionKey := some k } }

/-- R336: a stream made Secure. -/
def ideSet (k : Option (Fin 5)) : State :=
  k.elim s fun k => { s with host := { s.host with ide := tabSet (fun _ => 0) s.host.ide k.val 1 } }

theorem sessionSet_moves (k : Option (BitVec 256)) : Moves [.tack] s (sessionSet s k) := by
  cases k with
  | none => exact .refl _ s
  | some k => exact tack_moves s _

theorem ideSet_moves (k : Option (Fin 5)) : Moves [.host] s (ideSet s k) := by
  cases k with
  | none => exact .refl _ s
  | some k => exact host_moves s _

variable {s}

theorem exec_spdmRequest (hup : deviceUp s = true) (hstep : 3 ≤ s.tack.step.toNat) (req : List Byte) :
    exec (.spdmRequest req) s = .next (answerMessage
      (ideSet (sessionSet s (Config.sessionKeyed s.free req)) (Config.ideKeyed s.free req)) req) := by
  refine congrArg Host.Outcome.next ((if_neg (by simp [hup]; omega)).trans ?_)
  cases Config.sessionKeyed s.free req with
  | none => cases Config.ideKeyed s.free req <;> rfl
  | some k => cases Config.ideKeyed s.free req <;> rfl

/-- R335, R336, R360: SPDM once the firmware runs. -/
theorem spdmRequest_answers (hup : deviceUp s = true) (hstep : 3 ≤ s.tack.step.toNat) (req : List Byte) :
    Completes (.spdmRequest req) s fun s' =>
      (∃ bs, s'.resp = .message bs) ∧ OnlyChanges [.free, .host, .tack, .resp] s s' := by
  refine ⟨_, exec_spdmRequest hup hstep req, ?_⟩
  have hsession := sessionSet_moves s (Config.sessionKeyed s.free req)
  have hide := ideSet_moves (sessionSet s (Config.sessionKeyed s.free req)) (Config.ideKeyed s.free req)
  obtain ⟨hmessage, hmoves⟩ := answerMessage_does
    (ideSet (sessionSet s (Config.sessionKeyed s.free req)) (Config.ideKeyed s.free req)) req
  exact ⟨hmessage, ((hsession.mono rfl).trans ((hide.mono rfl).trans (hmoves.mono rfl))).only⟩

/-- R406: the first record of a source. -/
theorem report_addr {src cause addr : Nat} (hs : s.pwr.saving ≤ 1) (hv : (s.frec src).valid = false) :
    ((report s src cause addr).frec src).addr = BitVec.ofNat 64 addr := by
  have hf : (report s src cause addr).frec src = newRecord s src cause addr false false := by
    unfold report reportWith
    rw [if_neg (by omega)]
    extract_lets old r s1 flt s2
    have hr : r = newRecord s src cause addr false false := if_neg (by simp [old, hv])
    have h2 : s2.frec src = newRecord s src cause addr false false :=
      ((tabGet_tabSet _ _ _ _ _).trans (if_pos rfl)).trans hr
    split <;> exact h2
  rw [hf]
  rfl

/-- R336: a Secure stream that fails. -/
theorem hostIdeFail_fails {stream : Fin 5} {addr : BitVec 64}
    (h : tabGet (fun _ => (0 : BitVec 2)) s.host.ide stream.val = 1) :
    Completes (.hostIdeFail stream addr) s fun s' =>
      ((s.frec srcHost).valid = false → s.pwr.saving ≤ 1 → (s'.frec srcHost).addr = addr) ∧
      tabGet (fun _ => (0 : BitVec 2)) s'.host.ide stream.val = 2 ∧ Recorded srcHost cIdeFail s s' ∧
      OnlyChanges [.host, .flt] s s' := by
  have hset := host_moves s { s.host with ide := tabSet (fun _ => 0) s.host.ide stream.val 2 }
  have hide := tabGet_tabSet (fun _ => (0 : BitVec 2)) s.host.ide stream.val stream.val 2
  rw [if_pos rfl] at hide
  refine ⟨_, congrArg Host.Outcome.next (if_pos h), fun hv hs => ?_, ?_, fun hs => report_recorded _ _ _ _ hs,
    ((hset.mono rfl).trans ((report_moves _ _ _ _).mono rfl)).only⟩
  · refine (report_addr ?_ ?_).trans (by simp)
    · exact hs
    · exact hv
  · rw [(report_dmaKept _ _ _ _).2]
    exact hide

end

/-- Settles O55: each flash and security command is one branch of its register's write; a token is read without a change
of the tack die (`FirmwareKept`), and a warm reset keeps the fuses, which then hold the new state (`lcCode_blown`). -/
theorem flashAndSecurity : Obligations.FlashAndSecurity := by
  unfold Obligations.FlashAndSecurity
  intro t off op s n k flash cmd sec warm
  refine ⟨fun hopen => ⟨fun hidle => ⟨fun ht hfree hlen => flashWrite_starts hopen hidle ht hfree hlen,
    fun ht hrec hslot => ?_, fun ht hfree hlen => ?_, fun ht => ?_, fun ht hlen hrange => ?_, fun ht hrange => ?_,
    fun ht => ?_, fun h1 h2 => exec_flashBadOp hopen h1 h2⟩,
    fun hbusy => ⟨?_, ?_, fun h1 h2 => exec_flashBadOp hopen h1 h2⟩,
    fun hbusy target c hc => secCommands_busy hopen hbusy target hc, fun hidle => ?_,
    fun h => exec_secBadOp hopen h⟩, fun c hcmd hbusy => ?_, fun c hcmd hbusy => ?_, fun i trstN => rfl,
    fun req => ⟨fun hup hstep => spdmRequest_answers hup hstep req, fun hno => ?_, fun hstep => ?_, fun a hno => ?_⟩,
    fun stream addr h => hostIdeFail_fails h⟩
  · rw [exec_flashWrite hopen, flashWriteCmd_running hidle ht hrec hslot]
    rfl
  · rw [exec_flashWrite hopen, flashWriteCmd_range hidle ht hfree hlen]
    rfl
  · rw [exec_flashWrite hopen, flashWriteCmd_noSlot hidle ht]
    rfl
  · refine ⟨_, exec_flashRead hopen, ?_⟩
    rw [flashReadCmd_starts hidle ht hlen hrange]
    exact ⟨rfl, rfl, rfl, (((startFlash_moves _ _ _ _).mono rfl).trans ((answer_moves _ _).mono rfl)).only⟩
  · rw [exec_flashRead hopen, flashReadCmd_range hidle ht hrange]
    rfl
  · rw [exec_flashRead hopen, flashReadCmd_noTarget hidle ht]
    rfl
  · rw [exec_flashWrite hopen, flashWriteCmd_busy hbusy]
    rfl
  · rw [exec_flashRead hopen, flashReadCmd_busy hbusy]
    rfl
  · intro waits out
    refine ⟨fun target h => lcAdvance_state hopen hidle h,
      fun target h hkey hup => lcAdvance_untokened hopen hidle h hkey hup,
      fun target key h hkey => ⟨fun hout => lcAdvance_tokenWaits hopen hidle h hkey hout,
        fun hin hok hup => lcAdvance_tokened hopen hidle h hkey (by simpa [out] using hin) hok hup,
        fun hin hbad => lcAdvance_auth hopen hidle h hkey (by simpa [out] using hin) hbad⟩,
      fun h => debugUnlock_state hopen hidle h, fun h hout => debugUnlock_tokenWaits hopen hidle h hout,
      fun h hin hok hup => debugUnlock_tokened hopen hidle h (by simpa [out] using hin) hok hup,
      fun h hin hbad => debugUnlock_auth hopen hidle h (by simpa [out] using hin) hbad,
      fun h => advanceSvn_ready hopen hidle h, fun h => advanceSvn_state hopen hidle h⟩
  · exact ⟨flashCommandDone_waits hcmd hbusy true, flashCommandDone_waits hcmd hbusy false⟩
  · intro ended
    refine ⟨flashCommandDone_fails hcmd hbusy rfl, fun hfit => flashCommandDone_fails hcmd hbusy (by simp [hfit]),
      fun hfit hwrite _ hplain => flashCommandDone_writes hcmd hbusy hfit hwrite hplain,
      fun hfit hread ht hplain => ?_, fun hfit hread ht => ⟨fun hnone =>
        flashCommandDone_noCopy hcmd hbusy hfit hread ht hnone, fun j hj hplain => ?_⟩⟩
    · exact flashCommandDone_reads hcmd hbusy hfit hread (if_pos ht) (length_flashBytes _ _ _) hplain
    · refine flashCommandDone_reads hcmd hbusy hfit hread ?_ (length_flashBytes _ _ _) hplain
      rw [flashSource, hj]
      exact if_neg (by omega)
  · refine congrArg Host.Outcome.next (if_pos ?_)
    rw [Bool.or_eq_true, decide_eq_true_eq, Bool.not_eq_true']
    exact hno
  · exact ⟨_, congrArg Host.Outcome.next (if_pos (by simpa using hstep)), (answerMessage_does s req).1,
      (answerMessage_does s req).2.only⟩
  · refine congrArg Host.Outcome.next (if_neg ?_)
    rw [Bool.and_eq_true, decide_eq_true_eq, decide_eq_true_eq]
    exact fun ⟨ha, hstep⟩ => hno.elim (absurd ha) (absurd · hstep)

end Sys2Proof.Machine
